-- ==== Sys2Proof/Word.lean ====
section
/-!
DEFINITION. The word types of the Druelle SN20 and their plainest arithmetic (spec 00_scope.md R4, R5).
-/
namespace Sys2Proof

/-- One byte. -/
abbrev Byte := BitVec 8

/-- A 64-bit value (a register of a solver core, a local address, a step number). -/
abbrev Word := BitVec 64

/-- A 128-bit command word of a Brynno image (06_brynno_commands.md Table 6.13). -/
abbrev CmdWord := BitVec 128

end Sys2Proof
end

