-- ==== Sys2Proof/Machine/Bits.lean ====
section
/-!
DEFINITION. Bit fields, sign extension, little-endian byte strings and integer helpers shared by every family
(00_scope.md R4, R5, R10).
-/
namespace Sys2Proof.Machine

/-- Field `[hi:lo]` of a natural number (R4). -/
def bits (hi lo n : Nat) : Nat := n / 2 ^ lo % 2 ^ (hi + 1 - lo)

/-- Bit `i` of a natural number (R4). -/
def bitAt (i n : Nat) : Bool := n / 2 ^ i % 2 == 1

/-- Two's complement reading of the low `w` bits of `n`. -/
def sext (w n : Nat) : Int :=
  let m := n % 2 ^ w
  if m < 2 ^ (w - 1) then (m : Int) else (m : Int) - (2 ^ w : Nat)

/-- The `w`-bit two's complement image of an integer. -/
def wrap (w : Nat) (i : Int) : Nat := (i % ((2 ^ w : Nat) : Int)).toNat

/-- Limit an integer to `[lo, hi]`. -/
def clampInt (lo hi i : Int) : Int := if i < lo then lo else if hi < i then hi else i

/-- The little-endian value of a byte string (R5). -/
def leNat : List Byte → Nat
  | [] => 0
  | b :: bs => b.toNat + 256 * leNat bs

/-- The `len` little-endian bytes of a value (R5). -/
def leBytes : Nat → Nat → List Byte
  | 0, _ => []
  | len + 1, n => BitVec.ofNat 8 n :: leBytes len (n / 256)

/-- `2 ^ s * n` for `s >= 0`, `floor (n / 2 ^ (-s))` for `s < 0`: `shift` of R48. -/
def shiftInt (n s : Int) : Int :=
  if 0 ≤ s then n * ((2 ^ s.toNat : Nat) : Int) else n / ((2 ^ (-s).toNat : Nat) : Int)

/-- Index of the highest set bit of a non-zero magnitude: `msb` of R48. -/
def msb (n : Int) : Int := (Nat.log2 n.natAbs : Int)

/-- A byte string of `len` zeros. -/
def zeros (len : Nat) : List Byte := List.replicate len 0

/-- Ceiling of `a / b` for a positive divisor. -/
def ceilDiv (a b : Nat) : Nat := if b = 0 then 0 else (a + b - 1) / b

/-- Round up to a multiple of `b`. -/
def roundUp (a b : Nat) : Nat := ceilDiv a b * b

/-- The slice `[off, off + len)` of a list. -/
def slice {α : Type} (l : List α) (off len : Nat) : List α := (l.drop off).take len

/-- Field `len` bytes wide at byte offset `off` of a byte string (R5). -/
def fieldAt (l : List Byte) (off len : Nat) : Nat := leNat (slice l off len)

/-- Replace element `i` of a list. -/
def setAt {α : Type} (l : List α) (i : Nat) (x : α) : List α := l.set i x

/-- Integer square root by bisection on the bits below `2 ^ k`. -/
def isqrtAux (n : Nat) : Nat → Nat → Nat
  | 0, r => r
  | k + 1, r =>
    let t := r + 2 ^ k
    isqrtAux n k (if t * t ≤ n then t else r)

/-- The greatest `r` with `r * r ≤ n`. -/
def isqrt (n : Nat) : Nat := isqrtAux n (Nat.log2 n / 2 + 1) 0

/-- Saturating addition at `2 ^ w - 1`. -/
def satAdd (w a b : Nat) : Nat := min (a + b) (2 ^ w - 1)

end Sys2Proof.Machine
end

