-- ==== Sys2Proof/Machine/NMap.lean ====
section
/-!
DEFINITION. Sparse maps from numbers to values in one canonical form: keys strictly rising, no entry equal to what an
unlisted key reads as. Memory is the map whose values are bytes and whose unlisted cells read as zero
(09_memory.md R241).
-/
namespace Sys2Proof.Machine

/-- A sparse map: the listed pairs, in rising key order. -/
abbrev NMap (α : Type) := List (Nat × α)

/-- What key `k` holds; `d` where it is not listed. -/
def nget {α : Type} (d : α) : NMap α → Nat → α
  | [], _ => d
  | (j, v) :: t, k => if k = j then v else nget d t k

/-- The map without key `k`. -/
def ndel {α : Type} : NMap α → Nat → NMap α
  | [], _ => []
  | (j, v) :: t, k => if k = j then ndel t k else (j, v) :: ndel t k

/-- The map with `v` at key `k`, listed whatever `v` is. -/
def nins {α : Type} : NMap α → Nat → α → NMap α
  | [], k, v => [(k, v)]
  | (j, w) :: t, k, v =>
    if k = j then (k, v) :: t else if k < j then (k, v) :: (j, w) :: t else (j, w) :: nins t k v

/-- Write `v` at key `k`, in canonical form: the unlisted value removes the entry. -/
def nset {α : Type} [DecidableEq α] (d : α) (m : NMap α) (k : Nat) (v : α) : NMap α :=
  if v = d then ndel m k else nins m k v

/-- Change what key `k` holds. -/
def nmod {α : Type} [DecidableEq α] (d : α) (m : NMap α) (k : Nat) (f : α → α) : NMap α :=
  nset d m k (f (nget d m k))

/-- The listed pairs that count: the first of each key not in `seen`, where its value is not the unlisted one. -/
def ncleanFrom {α : Type} [DecidableEq α] (d : α) : List Nat → NMap α → NMap α
  | _, [] => []
  | seen, e :: t =>
    if seen.contains e.1 ∨ e.2 = d then ncleanFrom d (e.1 :: seen) t else e :: ncleanFrom d (e.1 :: seen) t

/-- Change what every listed key holds. -/
def nall {α : Type} [DecidableEq α] (d : α) (f : α → α) (m : NMap α) : NMap α :=
  ncleanFrom d [] (m.map (fun e => (e.1, f e.2)))

/-- The listed keys rise strictly from `lo` on and no listed value is the unlisted one. -/
def nwfFrom {α : Type} [DecidableEq α] (d : α) : Nat → NMap α → Bool
  | _, [] => true
  | lo, (j, v) :: t => decide (lo ≤ j) && decide (v ≠ d) && nwfFrom d (j + 1) t

/-- The canonical form. -/
def nwf {α : Type} [DecidableEq α] (d : α) (m : NMap α) : Bool := nwfFrom d 0 m

/-- Byte memory: a map whose unlisted bytes read as zero. -/
abbrev Cells := NMap Byte

/-- One byte (R5). -/
def readByte (m : Cells) (a : Nat) : Byte := nget 0 m a

/-- Store one byte. -/
def writeByte (m : Cells) (a : Nat) (b : Byte) : Cells := nset 0 m a b

/-- `len` bytes from `a` on. -/
def readBytes (m : Cells) (a : Nat) : Nat → List Byte
  | 0 => []
  | len + 1 => readByte m a :: readBytes m (a + 1) len

/-- Store a byte string from `a` on. -/
def writeBytes (m : Cells) (a : Nat) : List Byte → Cells
  | [] => m
  | b :: bs => writeBytes (writeByte m a b) (a + 1) bs

/-- Little-endian read of `len` bytes (R5). -/
def readN (m : Cells) (a len : Nat) : Nat := leNat (readBytes m a len)

/-- Little-endian write of `len` bytes (R5). -/
def writeN (m : Cells) (a len v : Nat) : Cells := writeBytes m a (leBytes len v)

/-- Set `len` bytes from `a` on to zero. -/
def clearRange (m : Cells) (a len : Nat) : Cells := m.filter (fun c => c.1 < a || a + len ≤ c.1)

/-- Put a list of cells, one by one. -/
def putCells (m : Cells) : List Host.Cell → Cells
  | [] => m
  | c :: cs => putCells (writeByte m c.1 c.2) cs

/-- Copy `len` bytes from `src` of one memory to `dst` of another, listed cells only. -/
def copyCells (from_ : Cells) (src : Nat) (into : Cells) (dst len : Nat) : Cells :=
  putCells (clearRange into dst len)
    ((from_.filter (fun c => src ≤ c.1 && c.1 < src + len)).map (fun c => (c.1 - src + dst, c.2)))

/-- The canonical form of a memory. -/
def Memory.wf (m : Cells) : Bool := nwf 0 m

end Sys2Proof.Machine
end

