-- ==== Sys2Proof/Machine/Num.lean ====
section
/-!
DEFINITION. Number formats and the dot-product definition (02_number_formats.md R33 to R59): exact values, decoding,
narrowing by nearest even, stochastically and by floor, MX blocks, the matrix-engine accumulator, slice mode, pairs,
FX64.
-/
namespace Sys2Proof.Machine

/-- The value of an encoded number: `fin m e` is `m * 2 ^ e` with `m` not zero (R35). -/
inductive FNum where
  | nan
  | inf (neg : Bool)
  | zero (neg : Bool)
  | fin (m e : Int)
  deriving DecidableEq, Repr

/-- The exact value `m * 2 ^ e`, with +0 for `m = 0`. -/
def FNum.mk (m e : Int) : FNum := if m = 0 then .zero false else .fin m e

/-- The rounding directions used on the package: floor and nearest even (R42), and those of the solver cores (R60). -/
inductive Rnd where
  | floor
  | ceil
  | trunc
  | nearestEven
  | nearestAway
  deriving DecidableEq, Repr

/-- `m * 2 ^ s` rounded to an integer. -/
def roundInt (r : Rnd) (m s : Int) : Int :=
  if 0 ≤ s then shiftInt m s
  else
    let d : Int := ((2 ^ (-s).toNat : Nat) : Int)
    let lo := m / d
    let rem2 := 2 * (m - lo * d)
    match r with
    | .floor => lo
    | .ceil => if rem2 = 0 then lo else lo + 1
    | .trunc => if rem2 = 0 ∨ 0 ≤ m then lo else lo + 1
    | .nearestEven => if rem2 < d then lo else if d < rem2 then lo + 1 else if lo % 2 = 0 then lo else lo + 1
    | .nearestAway => if rem2 < d then lo else if d < rem2 then lo + 1 else if 0 ≤ m then lo + 1 else lo

/-- A floating-point layout: precision with the hidden bit, exponent width and bias (Table 2.2). -/
structure FpFmt where
  p : Nat
  eb : Nat
  bias : Nat
  deriving DecidableEq, Repr

def fp64 : FpFmt := ⟨53, 11, 1023⟩
def fp32 : FpFmt := ⟨24, 8, 127⟩
def fp16 : FpFmt := ⟨11, 5, 15⟩
def bf16 : FpFmt := ⟨8, 8, 127⟩

/-- The layout of a format code; `none` for INT8, FX64 and the reserved codes (Tables 2.1, 2.2). -/
def fmtOf (code : Nat) : Option FpFmt :=
  match code with
  | 0 => some fp64
  | 1 => some fp32
  | 2 => some fp16
  | 3 => some bf16
  | 4 => some ⟨4, 4, 7⟩
  | 5 => some ⟨3, 5, 15⟩
  | 6 => some ⟨3, 3, 3⟩
  | 7 => some ⟨4, 2, 1⟩
  | 8 => some ⟨2, 2, 1⟩
  | _ => none

/-- Width in bits of a format code (Table 2.1). -/
def fmtBits (code : Nat) : Nat :=
  match code with
  | 0 => 64 | 1 => 32 | 2 => 16 | 3 => 16 | 4 => 8 | 5 => 8 | 6 => 6 | 7 => 6 | 8 => 4 | 9 => 8 | 10 => 64
  | _ => 0

/-- Codes whose exponent of all ones holds infinities and NaNs (Table 2.2). -/
def fmtIeee (code : Nat) : Bool := code ≤ 3 || code == 5

/-- Exponent of the last place of a subnormal (R35). -/
def FpFmt.emin (f : FpFmt) : Int := 1 - (f.bias : Int) - ((f.p : Int) - 1)

/-- The largest finite value of a format code (Table 2.2), as mantissa and exponent. -/
def largest (code : Nat) : Int × Int :=
  match code with
  | 4 => (14, 5)
  | 6 => (7, 2)
  | 7 => (15, -1)
  | 8 => (3, 1)
  | 9 => (127, 0)
  | c =>
    match fmtOf c with
    | some f => (((2 ^ f.p - 1 : Nat) : Int), ((2 ^ f.eb - 2 : Nat) : Int) - f.bias - ((f.p : Int) - 1))
    | none => (0, 0)

/-- Decode an element of a floating-point layout. -/
def decodeFp (f : FpFmt) (ieee : Bool) (n : Nat) : FNum :=
  let mw := f.p - 1
  let frac := n % 2 ^ mw
  let ex := n / 2 ^ mw % 2 ^ f.eb
  let neg := bitAt (mw + f.eb) n
  let sgn (x : Int) : Int := if neg then -x else x
  if ieee && ex == 2 ^ f.eb - 1 then (if frac = 0 then .inf neg else .nan)
  else if ex = 0 then (if frac = 0 then .zero neg else .fin (sgn frac) f.emin)
  else .fin (sgn ((2 ^ mw + frac : Nat) : Int)) ((ex : Int) - f.bias - mw)

/-- Decode an unscaled element of a format code (R35, R40). -/
def decode (code n : Nat) : FNum :=
  if code = 9 then FNum.mk (sext 8 n) 0
  else if code = 4 ∧ n % 128 = 127 then .nan
  else match fmtOf code with
    | some f => decodeFp f (fmtIeee code) n
    | none => .nan

/-- Fold an MX block scale into an element (R40): 0xFF is NaN; an INT8 element counts in units of 2^-6. -/
def withScale (code sc : Nat) (x : FNum) : FNum :=
  if sc = 255 then .nan
  else match x with
    | .fin m e => .fin m (e + (sc : Int) - 127 - (if code = 9 then 6 else 0))
    | y => y

/-- Decode an element with an optional block scale. -/
def decodeMx (code : Nat) (sc : Option Nat) (n : Nat) : FNum :=
  match sc with
  | none => decode code n
  | some s => withScale code s (decode code n)

/-! ### Exact arithmetic -/

def FNum.isNan : FNum → Bool | .nan => true | _ => false
def FNum.isInf : FNum → Bool | .inf _ => true | _ => false
def FNum.isZero : FNum → Bool | .zero _ => true | _ => false

/-- Not NaN and not infinite. -/
def FNum.isFin : FNum → Bool | .zero _ => true | .fin _ _ => true | _ => false

/-- The sign bit (false for NaN). -/
def FNum.neg? : FNum → Bool
  | .nan => false | .inf s => s | .zero s => s | .fin m _ => decide (m < 0)

/-- Mantissa and exponent of a finite value. -/
def FNum.me : FNum → Int × Int
  | .fin m e => (m, e) | _ => (0, 0)

def FNum.negate : FNum → FNum
  | .nan => .nan | .inf s => .inf (!s) | .zero s => .zero (!s) | .fin m e => .fin (-m) e

def FNum.abs : FNum → FNum
  | .nan => .nan | .inf _ => .inf false | .zero _ => .zero false | .fin m e => .fin (m.natAbs : Int) e

/-- Multiply by a power of two, exactly. -/
def FNum.scale2 (x : FNum) (k : Int) : FNum :=
  match x with
  | .fin m e => .fin m (e + k) | y => y

/-- The exact sum of two finite dyadic values. -/
def addMe (a b : Int × Int) : Int × Int :=
  let e := min a.2 b.2
  (shiftInt a.1 (a.2 - e) + shiftInt b.1 (b.2 - e), e)

/-- Is `a < b` for finite dyadic values? -/
def ltMe (a b : Int × Int) : Bool :=
  let e := min a.2 b.2
  decide (shiftInt a.1 (a.2 - e) < shiftInt b.1 (b.2 - e))

/-- Exact sum; opposite infinities give NaN; an exact zero sum is +0 unless both are -0. -/
def FNum.add : FNum → FNum → FNum
  | .nan, _ => .nan
  | _, .nan => .nan
  | .inf s, .inf t => if s = t then .inf s else .nan
  | .inf s, _ => .inf s
  | _, .inf t => .inf t
  | .zero s, .zero t => .zero (s && t)
  | .zero _, y => y
  | x, .zero _ => x
  | .fin m e, .fin n f => let r := addMe (m, e) (n, f); FNum.mk r.1 r.2

/-- Exact product; infinity times zero is NaN. -/
def FNum.mul : FNum → FNum → FNum
  | .nan, _ => .nan
  | _, .nan => .nan
  | .inf _, .zero _ => .nan
  | .zero _, .inf _ => .nan
  | .inf s, y => .inf (s != y.neg?)
  | x, .inf t => .inf (x.neg? != t)
  | .zero s, y => .zero (s != y.neg?)
  | x, .zero t => .zero (x.neg? != t)
  | .fin m e, .fin n f => .fin (m * n) (e + f)

/-- Ordered comparison `a < b`; false with a NaN. -/
def FNum.lt : FNum → FNum → Bool
  | .nan, _ => false
  | _, .nan => false
  | .inf s, .inf t => s && !t
  | .inf s, _ => s
  | _, .inf t => !t
  | x, y => ltMe x.me y.me

/-- Ordered equality; +0 equals -0; false with a NaN. -/
def FNum.feq (a b : FNum) : Bool := !a.isNan && !b.isNan && !a.lt b && !b.lt a

/-! ### Rounding to a format -/

/-- Exponent of the last place in which a finite value is rounded. -/
def quantum (f : FpFmt) (m e : Int) : Int := max (msb m + e - ((f.p : Int) - 1)) f.emin

/-- The quantum of a format code; INT8 rounds to integers. -/
def quantumOf (code : Nat) (m e : Int) : Int :=
  match fmtOf code with
  | some f => quantum f m e
  | none => 0

/-- Encode a magnitude `k * 2 ^ q` (with `k ≤ 2 ^ p`) that the layout can hold; `top` ends the exponent range. -/
def encodeMag (f : FpFmt) (k : Nat) (q : Int) : Nat :=
  let k' := if k = 2 ^ f.p then 2 ^ (f.p - 1) else k
  let q' := if k = 2 ^ f.p then q + 1 else q
  if k' < 2 ^ (f.p - 1) then k'
  else (q' + f.bias + ((f.p : Int) - 1)).toNat * 2 ^ (f.p - 1) + (k' - 2 ^ (f.p - 1))

/-- Does the finite value lie above the largest finite value in magnitude? -/
def exceeds (code : Nat) (m e : Int) : Bool := ltMe (largest code) ((m.natAbs : Int), e)

/-- The sign bit of a format code at its place. -/
def signBit (code : Nat) (neg : Bool) : Nat := if neg then 2 ^ (fmtBits code - 1) else 0

/-- Canonical NaN of a narrowing target, the NaN row of Table 2.5 and of Table 2.2. -/
def canonNan (code : Nat) : Nat :=
  match code with
  | 0 => 0x7FF8000000000000 | 1 => 0x7FC00000 | 2 => 0x7E00 | 3 => 0x7FC0 | 4 => 0x7F | 5 => 0x7E
  | _ => 0

/-- The bits of the largest finite value. -/
def largestBits (code : Nat) : Nat :=
  match code with
  | 0 => 0x7FEFFFFFFFFFFFFF | 1 => 0x7F7FFFFF | 2 => 0x7BFF | 3 => 0x7F7F | 4 => 0x7E | 5 => 0x7B
  | 6 => 0x1F | 7 => 0x1F | 8 => 0x7 | 9 => 127
  | _ => 0

/-- The overflow and infinity rows of Table 2.5. -/
def overflowBits (code : Nat) (neg : Bool) : Nat :=
  match code with
  | 0 => 0x7FF0000000000000 + signBit 0 neg
  | 1 => 0x7F800000 + signBit 1 neg
  | 2 => 0x7C00 + signBit 2 neg
  | 3 => 0x7F80 + signBit 3 neg
  | 5 => 0x7C + signBit 5 neg
  | 9 => if neg then 128 else 127
  | c => largestBits c + signBit c neg

/-- Encode the exact value `k * 2 ^ q`, already on the grid of the format; a zero is +0 (R47). -/
def encodeGrid (code : Nat) (k q : Int) : Nat :=
  if k = 0 then 0
  else match fmtOf code with
    | some f => if exceeds code k q then overflowBits code (decide (k < 0))
                else encodeMag f k.natAbs q + signBit code (decide (k < 0))
    | none => wrap 8 (clampInt (-128) 127 k)

/-- How a narrowing rounds: to nearest even, or stochastically by a 32-bit draw (R43, R44). -/
inductive Narrow where
  | nearest
  | draw (r : Nat)
  deriving DecidableEq, Repr

/-- Narrow a finite non-zero value stochastically (R44). -/
def narrowStochastic (code r : Nat) (m e : Int) : Nat :=
  let outside := if code = 9 then ltMe (127, 0) (m, e) || ltMe (m, e) (-128, 0) else exceeds code m e
  if outside then overflowBits code (decide (m < 0))
  else
    let q := quantumOf code m e
    let k := roundInt .floor m (e - q)
    let f := shiftInt m (e - q + 24) - k * 16777216
    if f = 0 ∧ roundInt .ceil m (e - q) = k then encodeGrid code k q
    else if ((r % 16777216 : Nat) : Int) < f then encodeGrid code (k + 1) q
    else encodeGrid code k q

/-- Narrow any value to a format code (R43, R44, R45). -/
def narrow (code : Nat) (mode : Narrow) (x : FNum) : Nat :=
  match x with
  | .nan => canonNan code
  | .inf s => overflowBits code s
  | .zero _ => 0
  | .fin m e =>
    match mode with
    | .nearest => encodeGrid code (roundInt .nearestEven m (e - quantumOf code m e)) (quantumOf code m e)
    | .draw r => narrowStochastic code r m e

/-- The greatest value of a binary format not above `x` (R50): a positive value above the range gives the largest
finite value, a negative one below it minus infinity; zero is +0, NaN the canonical NaN. -/
def floorTo (code : Nat) (x : FNum) : Nat :=
  match x with
  | .nan => canonNan code
  | .inf s => overflowBits code s
  | .zero _ => 0
  | .fin m e =>
    let q := quantumOf code m e
    let k := roundInt .floor m (e - q)
    if 0 < m ∧ exceeds code k q then largestBits code else encodeGrid code k q

/-- Widening to FP32 or FP64 is exact; -0 stays -0; above the range it becomes infinity of its sign (R46). -/
def widenTo (code : Nat) (x : FNum) : Nat :=
  match x with
  | .zero s => signBit code s
  | .fin m e => encodeGrid code (roundInt .trunc m (e - quantumOf code m e)) (quantumOf code m e)
  | y => narrow code .nearest y

/-- Round a finite value to FP32 or FP64 to nearest even, keeping -0 (R42, the stations' affine step). -/
def nearestKeepZero (code : Nat) (x : FNum) : Nat :=
  match x with
  | .zero s => signBit code s
  | .fin m e =>
    let k := roundInt .nearestEven m (e - quantumOf code m e)
    if k = 0 then signBit code (decide (m < 0)) else encodeGrid code k (quantumOf code m e)
  | y => narrow code .nearest y

/-! ### MX blocks -/

/-- Table 2.3. -/
def emaxElem (code : Nat) : Int :=
  match code with
  | 4 => 8 | 5 => 15 | 6 => 4 | 7 => 2 | 8 => 2 | _ => 0

/-- The largest magnitude among finite values. -/
def amaxOf : List FNum → Int × Int
  | [] => (0, 0)
  | x :: xs =>
    let r := amaxOf xs
    let y : Int × Int := ((x.me.1.natAbs : Int), x.me.2)
    if ltMe r y then y else r

/-- The block exponent of `mx_encode` (R41). -/
def mxExponent (code : Nat) (v : List FNum) : Int :=
  let a := amaxOf v
  if a.1 = 0 then -127 else clampInt (-127) 127 (msb a.1 + a.2 - emaxElem code)

/-- One element of `mx_encode` (R41). -/
def mxElem (code : Nat) (mode : Narrow) (x : Int) (v : FNum) : Nat :=
  let w := v.scale2 (-x)
  if code = 9 then wrap 8 (clampInt (-127) 127 (sext 8 (narrow 9 mode (w.scale2 6))))
  else
    let n := narrow code mode w
    if (decode code n).isInf then largestBits code + signBit code w.neg? else n

/-- `mx_encode` of R41: the scale byte and the elements; the i-th mode serves the i-th element. -/
def mxEncode (code : Nat) (vs : List (FNum × Narrow)) : Nat × List Nat :=
  if vs.any (fun p => !p.1.isFin) then (255, vs.map (fun _ => 0))
  else
    let x := mxExponent code (vs.map (·.1))
    ((x + 127).toNat, vs.map (fun p => mxElem code p.2 x p.1))

/-! ### The accumulator of the matrix engine (R48 to R52) -/

/-- The class of an accumulator. -/
inductive AccClass where
  | finite
  | posinf
  | neginf
  | nan
  deriving DecidableEq, Repr

/-- ACC: sign, exponent and 64-bit significand, or a special class (R48). -/
structure Acc where
  cls : AccClass
  z : Bool
  s : Bool
  e : Int
  m : Nat
  deriving DecidableEq, Repr

def Acc.zero : Acc := ⟨.finite, true, false, 0, 0⟩

/-- `combine` of R48. -/
def AccClass.combine : AccClass → AccClass → AccClass
  | .nan, _ => .nan
  | _, .nan => .nan
  | .finite, c => c
  | c, .finite => c
  | .posinf, .posinf => .posinf
  | .neginf, .neginf => .neginf
  | _, _ => .nan

/-- The first while loop of `acc_add`: halve by floor until below 2^64. -/
def accHalve : Nat → Int → Int → Int × Int
  | 0, x, q => (x, q)
  | k + 1, x, q => if 2 ^ 64 ≤ x.natAbs then accHalve k (x / 2) (q + 1) else (x, q)

/-- Normalise `x * 2 ^ q` into an accumulator. -/
def accNormal (x q : Int) : Acc :=
  let h := accHalve 8 x q
  if h.1 = 0 then Acc.zero
  else
    let up := 63 - Nat.log2 h.1.natAbs
    ⟨.finite, false, decide (h.1 < 0), h.2 - up + 63, h.1.natAbs * 2 ^ up⟩

/-- `acc_add` of R48: add `s * 2 ^ ge`. -/
def accAdd (a : Acc) (s ge : Int) : Acc :=
  if s = 0 ∨ a.cls ≠ .finite then a
  else
    let tg := msb s + ge
    let l := if a.z then tg else max a.e tg
    let q := l - 63
    let sg : Int := if a.z then 0 else if a.s then -(a.m : Int) else a.m
    let x := shiftInt sg (a.e - 63 - q) + shiftInt s (ge - q)
    let r := accNormal x q
    r

/-- The class that one product adds to its group (R48). -/
def productClass (a b : FNum) : AccClass :=
  match FNum.mul a b with
  | .nan => .nan
  | .inf false => .posinf
  | .inf true => .neginf
  | _ => .finite

/-- The greatest exponent among the non-zero finite products of a group. -/
def groupEmax : List (FNum × FNum) → Option Int
  | [] => none
  | (a, b) :: t =>
    match FNum.mul a b, groupEmax t with
    | .fin m e, none => some (msb m + e)
    | .fin m e, some x => some (max (msb m + e) x)
    | _, r => r

/-- The aligned exact sum of a group (R48). -/
def groupSum (emax : Int) : List (FNum × FNum) → Int
  | [] => 0
  | (a, b) :: t =>
    (match FNum.mul a b with
     | .fin m e => shiftInt m (e + 40 - emax)
     | _ => 0) + groupSum emax t

/-- One group of up to 16 products enters the accumulator (R48). -/
def accGroup (acc : Acc) (g : List (FNum × FNum)) : Acc :=
  let c := g.foldl (fun k p => k.combine (productClass p.1 p.2)) AccClass.finite
  if c ≠ .finite then { acc with cls := acc.cls.combine c }
  else match groupEmax g with
    | none => acc
    | some emax => accAdd acc (groupSum emax g) (emax - 40)

/-- Groups of 16 in ascending order; `n` bounds the number of groups. -/
def accGroups : Nat → Acc → List (FNum × FNum) → Acc
  | 0, acc, _ => acc
  | n + 1, acc, ps => if ps.isEmpty then acc else accGroups n (accGroup acc (ps.take 16)) (ps.drop 16)

/-- `dot` of R48 continued from an accumulator. -/
def dotFrom (acc : Acc) (ps : List (FNum × FNum)) : Acc := accGroups (ps.length / 16 + 1) acc ps

/-- The exact value of an accumulator. -/
def Acc.value (a : Acc) : FNum :=
  match a.cls with
  | .nan => .nan
  | .posinf => .inf false
  | .neginf => .inf true
  | .finite => if a.z then .zero false else .fin (if a.s then -(a.m : Int) else a.m) (a.e - 63)

/-- R50. -/
def Acc.toFp32 (a : Acc) : Nat := floorTo 1 a.value

/-- The pair (hi, lo) of an exact value in a format (R52, R54). -/
def pairOf (code : Nat) (v : FNum) : Nat × Nat :=
  match v with
  | .nan => (canonNan code, canonNan code)
  | .inf s => (overflowBits code s, 0)
  | y =>
    let hi := floorTo code y
    if (decode code hi).isFin then (hi, floorTo code (y.add (decode code hi).negate)) else (hi, 0)

/-! ### Slice mode (R53 to R55) -/

/-- Row or column exponent: floor(log2 max) + 1, 0 where all are zero (R53). -/
def f64sExponent (xs : List FNum) : Int :=
  let a := amaxOf xs
  if a.1 = 0 then 0 else msb a.1 + a.2 + 1

/-- The low slices of `f64s_split`, from slice `j` down, on top of those already cut. -/
def f64sSlices : Nat → Int → List Int → List Int
  | 0, n, acc => n :: acc
  | j + 1, n, acc =>
    let d := n - 128 * ((n + 64) / 128)
    f64sSlices j ((n - d) / 128) (d :: acc)

/-- `f64s_split` of R53: slices 0 to 7. -/
def f64sSplit (x : FNum) (ex : Int) : List Int := f64sSlices 7 (shiftInt x.me.1 (x.me.2 + 55 - ex)) []

/-- The 36 kept slice products of one element pair, each at its weight (R54). -/
def f64sTerm (sa sb : List Int) : Int :=
  ((List.range 8).map (fun u =>
    ((List.range (8 - u)).map (fun v => sa.getD u 0 * sb.getD v 0 * ((2 ^ (7 * (14 - u - v)) : Nat) : Int))).sum)).sum

/-! ### MAX, MIN and reduction arithmetic (R57 to R59) -/

/-- Table 2.11, MAX. -/
def numMax (a b : FNum) : FNum :=
  match a, b with
  | .nan, y => y
  | x, .nan => x
  | .zero _, .zero _ => .zero false
  | x, y => if x.lt y then y else x

/-- Table 2.11, MIN. -/
def numMin (a b : FNum) : FNum :=
  match a, b with
  | .nan, y => y
  | x, .nan => x
  | .zero _, .zero _ => .zero false
  | x, y => if y.lt x then y else x

/-- The exact sum of two pairs, an infinity in either operand counting as an infinite ACC (R59). -/
def pairSum (code : Nat) (a b : Nat × Nat) : Nat × Nat :=
  pairOf code (((decode code a.1).add (decode code a.2)).add ((decode code b.1).add (decode code b.2)))

/-! ### FX64 (R37, R38) -/

/-- Limit to 64-bit two's complement, telling whether a limit was applied. -/
def fxSat (v : Int) : Int × Bool :=
  if 9223372036854775807 < v then (9223372036854775807, true)
  else if v < -9223372036854775808 then (-9223372036854775808, true)
  else (v, false)

/-- A binary64 value to FX64 with scale exponent `sc`, and SATURATED (R38). -/
def fxFrom (x : FNum) (sc : Int) : Int × Bool :=
  match x with
  | .nan => (0, true)
  | .inf false => (9223372036854775807, true)
  | .inf true => (-9223372036854775808, true)
  | .zero _ => (0, false)
  | .fin m e => fxSat (shiftInt m (e - sc))

/-- An FX64 value to binary64 (R38). -/
def fxTo (v sc : Int) : Nat := floorTo 0 (FNum.mk v sc)

/-! ### Rational and root helpers for the functions that are not dyadic -/

/-- A dyadic value that rounds, to `bits` or fewer significant bits, as the non-zero quotient `p / q` does: the
quotient cut to `bits + 3` bits with a sticky last place. -/
def quotMe (bits : Nat) (p : Int) (q : Nat) : Int × Int :=
  let up : Int := (bits : Int) + 3 + Nat.log2 q - Nat.log2 p.natAbs
  let num : Nat := (shiftInt (p.natAbs : Int) (max up 0)).toNat
  let den : Nat := (shiftInt (q : Int) (max (-up) 0)).toNat
  let n := num / den
  let sticky := if num % den = 0 then 0 else 1
  let m : Int := ((2 * n + sticky : Nat) : Int)
  (if p < 0 then -m else m, -up - 1)

/-- The same for the square root of a positive dyadic value. -/
def sqrtMe (bits : Nat) (m : Nat) (e : Int) : Int × Int :=
  let odd : Int := e % 2
  let base : Nat := m * 2 ^ odd.toNat
  let up : Nat := bits + 4
  let n := isqrt (base * 2 ^ (2 * up))
  let sticky := if n * n = base * 2 ^ (2 * up) then 0 else 1
  (((2 * n + sticky : Nat) : Int), (e - odd) / 2 - up - 1)

end Sys2Proof.Machine
end

