-- ==== Sys2Proof/Machine/CoreTypes.lean ====
section
/-!
DEFINITION. The state of one tensor core (03_tensor_core.md R61 to R94, 04_matrix_engine.md R99, R107, R162,
05_vector_engine.md): sequencer, engine queues, tally unit, arrival flags, scratch, vestibule, command store, weight
latch, accumulator sets, auxiliary registers and counters.
-/
namespace Sys2Proof.Machine

/-- The job and attempt fields of an epoch tag, and the step number (Table 1.6, R15). -/
structure Epoch where
  job : Nat
  attempt : Nat
  step : Nat
  deriving DecidableEq, Repr

/-- The state of a command-store bank (Table 3.4). -/
inductive BankSt where
  | empty
  | loading
  | ready
  | active
  deriving DecidableEq, Repr

/-- The code of a bank state (Table 3.4). -/
def BankSt.code : BankSt → Nat
  | .empty => 0 | .loading => 1 | .ready => 2 | .active => 3

/-- A bank of the command store: its state, the role identifier it holds, the words of the role that the loader put
there, or the bytes and length of what hosts have written over them (R87, R88, R95, R420). -/
structure Bank where
  st : BankSt := .empty
  role : Option Nat := none
  cmds : List Nat := []
  descs : List Nat := []
  raw : Cells := []
  len : Nat := 0
  deriving DecidableEq, Repr

/-- A comparator (R71, Table 3.2). -/
structure Comparator where
  src : Nat := 0
  useConst : Bool := true
  bcnt : Nat := 0
  const : Nat := 0
  rel : Nat := 0
  deriving DecidableEq, Repr

/-- What the sequencer is doing (R63, R67, R72, R73, R89); `stopped` follows an error of its own (R358). -/
inductive SeqSt where
  | idle
  | run
  | waiting (k : Nat)
  | waitFlag (f : Nat) (clear : Bool)
  | swapping (role : Nat)
  | ended
  | stopped
  deriving DecidableEq, Repr

/-- The four engines, in the order of their codes (Table 6.14). -/
inductive Engine where
  | me
  | ve
  | dm
  | xe
  deriving DecidableEq, Repr

/-- How far an engine has taken the command at its queue head: not started, running (`n` units done), waiting for its
emission, issued with `id` answers out, or stopped by an error (R79, R118, R143). -/
inductive Prog where
  | fresh
  | part (n : Nat)
  | emitting
  | issued (id : Nat)
  | stopped
  deriving DecidableEq, Repr

/-- A command in an engine queue: its word, its descriptor words, the counter values of its dispatch (R157), its
progress, what of it is still to send, and the values it holds between steps. -/
structure EngCmd where
  word : Nat
  desc : List Nat
  cnt : List Nat
  pos : Nat := 0
  prog : Prog := .fresh
  retries : Nat := 0
  todo : Nat := 0
  held : List (List Nat) := []
  colmax : List FNum := []
  deriving DecidableEq, Repr

/-- The form of a vestibule tile (R81, Table 4.4). -/
inductive TileForm where
  | fp32
  | pair
  | f64s
  deriving DecidableEq, Repr

/-- Vestibule slots a tile occupies (R81). -/
def TileForm.slots : TileForm → Nat
  | .fp32 => 1 | .pair => 2 | .f64s => 4

/-- A tile: its consumer, its form and its two sub-tiles row by row (`lo` empty in FP32 form). -/
structure Tile where
  toDm : Bool
  form : TileForm
  hi : List (List Nat)
  lo : List (List Nat)
  deriving DecidableEq, Repr

/-- The output mode of a chain (Table 4.3). -/
inductive MeMode where
  | fp32
  | pair
  | f64s
  deriving DecidableEq, Repr

/-- An open accumulation chain (R108, R109, R113): mode, M, next chain K index, whether a short command has been met,
and in F64S the exponent addresses and the exponents read when it opened. -/
structure Chain where
  mode : MeMode
  m : Nat
  k : Nat
  short : Bool
  expA : Nat
  expW : Nat
  ea : List Int
  fw : List Int
  deriving DecidableEq, Repr

/-- One element of an F64S set: the exact slice sum and its NaN mark (R107). -/
structure SliceSum where
  t : Int
  nan : Bool
  deriving DecidableEq, Repr

/-- An accumulator set (R107): rows of 64 ACCs or of 64 slice sums, and the chain open on it. An absent row is zero. -/
structure AccSet where
  chain : Option Chain := none
  acc : List (List Acc) := []
  sums : List (List SliceSum) := []
  deriving DecidableEq, Repr

/-- An emission in progress (R110, R111): its set, and the tiles not yet visible. -/
structure Emission where
  set : Nat
  tiles : List Tile
  deriving DecidableEq, Repr

/-- Who sent a die-local transfer or a fabric transfer, for NACKs and retirement. -/
inductive Sender where
  | core (c : Nat)
  | station (n : Nat) (slot : Nat)
  | hart (h : Nat)
  | none
  deriving DecidableEq, Repr

/-- A transfer addressed to a tensor core (R69, R73, R80, R92): bytes for its scratch, the flag it sets and the counter
it counts, with the epoch tag and the role epoch its sender expects. -/
structure Transfer where
  sender : Sender
  epoch : Epoch
  repoch : Nat
  addr : Nat
  bytes : List Byte
  flag : Option Nat
  cnt : Option Nat
  tries : Nat := 0
  deriving DecidableEq, Repr

/-- The counters that Tables 3.9, 4.7 and 5.10 report. -/
structure CoreStats where
  starve : List Nat := [0, 0, 0, 0]
  fullStall : Nat := 0
  waitStall : Nat := 0
  stale : Nat := 0
  early : Nat := 0
  scratchParity : Nat := 0
  latchParity : Nat := 0
  accParity : Nat := 0
  stageParity : Nat := 0
  draws : Nat := 0
  maintPasses : Nat := 0
  deriving DecidableEq, Repr

/-- One tensor core. -/
structure Core where
  seq : SeqSt := .idle
  pos : Nat := 0
  reps : NMap Nat := []
  ctr : Vector (BitVec 32) 8 := Vector.replicate 8 0
  cmp : Vector Comparator 4 := Vector.replicate 4 {}
  flags : BitVec 1024 := 0
  scratch : Cells := []
  vest : List Tile := []
  emits : List Emission := []
  qMe : List EngCmd := []
  qVe : List EngCmd := []
  qDm : List EngCmd := []
  qXe : List EngCmd := []
  latch : List (List Byte) := []
  set0 : AccSet := {}
  set1 : AccSet := {}
  mescl : Option (Nat × Nat) := none
  meexp : Option (Nat × Nat) := none
  megath : Option (Nat × Nat) := none
  roleEpoch : BitVec 16 := 0
  bank0 : Bank := {}
  bank1 : Bank := {}
  activeIs1 : Bool := false
  entry : Option Nat := none
  gang : Nat := 255
  pgang : Nat := 255
  ingress : List Transfer := []
  stats : CoreStats := {}
  deriving DecidableEq, Repr

end Sys2Proof.Machine
end

