-- ==== Sys2Proof/Machine/Place.lean ====
section
/-!
DEFINITION. Placement of lines on channels and of regions on slabs (09_memory.md R227 to R234).
-/
namespace Sys2Proof.Machine

/-- `fold` of R233: exclusive-or of the `w`-bit pieces; `n` bounds the number of pieces. -/
def foldBits (w : Nat) : Nat → Nat → Nat
  | 0, _ => 0
  | n + 1, v => Nat.xor (v % 2 ^ w) (foldBits w n (v / 2 ^ w))

/-- `spread` of R233: index and line quotient. -/
def spread (l w n : Nat) : Nat × Nat :=
  if n = 2 ^ w then (Nat.xor (l % 2 ^ w) (foldBits w 64 (l / 2 ^ w)), l / 2 ^ w)
  else if n = 0 then (0, l)
  else
    let qq := l / n
    ((l - qq * n + foldBits w 64 qq) % n, qq)

/-- Lines of a slab's quota on one channel (R230). -/
def slabQuota : Nat := 16640

/-- Bytes of a slab. -/
def slabBytes : Nat := 2147483648

/-- Exposure of a global slab with `n` good channels (R233). -/
def globalExposure (n : Nat) : Nat := min slabBytes (n * slabQuota * 128)

/-- Exposure of a local slab of a die with `nd` good channels (R233). -/
def localExposure (nd : Nat) : Nat := min slabBytes (nd * 8 * slabQuota * 128)

/-- The good channels of the package, given the mapped-out ones, in ascending order. -/
def goodChannels (out : List Nat) : List Nat := (List.range 1024).filter (fun i => !out.contains i)

/-- The good channels of memory die `d`. -/
def dieChannels (out : List Nat) (d : Nat) : List Nat := (goodChannels out).filter (fun i => i / 128 == d)

/-- `place` of R233: the channel and line number of a stacked address; `none` beyond the exposure. -/
def placeLine (out : List Nat) (isLocal : Bool) (a : Nat) : Option (Nat × Nat) :=
  let s := a / slabBytes
  let l := a % slabBytes / 128
  if isLocal then
    let b := 8 * (s / 8)
    let chans := dieChannels out (s - b)
    let r := spread l 7 chans.length
    if chans.length * 8 * slabQuota ≤ l then none else some (chans.getD r.1 0, slabQuota * b + r.2)
  else
    let chans := goodChannels out
    let r := spread l 10 chans.length
    if chans.length * slabQuota ≤ l then none else some (chans.getD r.1 0, slabQuota * s + r.2)

/-- The location of a line number within its channel: pseudo-channel, line in row, bank, row (Table 9.1). -/
def lineLocation (q : Nat) : Nat × Nat × Nat × Nat :=
  (bits 0 0 q, bits 4 1 q, Nat.xor (bits 8 5 q) (bits 12 9 q), bits 23 9 q)

/-- Region kinds (R149). -/
inductive RegionKind where
  | work
  | state
  | output
  | input
  | sealed
  | field
  | host
  | far
  deriving DecidableEq, Repr

/-- A region of the image (Table 6.5). -/
structure Region where
  id : Nat
  kind : RegionKind
  isLocal : Bool
  die : Nat
  size : Nat
  const : Nat
  constOff : Nat
  deriving DecidableEq, Repr

/-- The kind that a code names (Table 6.5). -/
def kindOf (n : Nat) : Option RegionKind :=
  match n with
  | 0 => some .work | 1 => some .state | 2 => some .output | 3 => some .input | 4 => some .sealed
  | 5 => some .field | 6 => some .host | 7 => some .far | _ => none

/-- The code of a region kind (Table 6.5). -/
def RegionKind.code : RegionKind → Nat
  | .work => 0 | .state => 1 | .output => 2 | .input => 3 | .sealed => 4 | .field => 5 | .host => 6 | .far => 7

/-- Copies of a region in stacked memory (R150, R231); FAR has its one copy in the far tier, HOST none. -/
def copiesOf (k : RegionKind) : Nat :=
  match k with
  | .state => 4 | .output => 3 | .input => 2 | .host => 0 | _ => 1

/-- A region with the local addresses of its copies, in the order of R231. -/
structure Placed where
  r : Region
  bases : List Nat
  deriving DecidableEq, Repr

/-- The running state of the placement procedure: next global address, next offset and group of each die, next far
address, and whether some copy could not be placed. -/
structure PlaceSt where
  g : Nat
  dies : List (Nat × Nat)
  far : Nat
  ok : Bool
  slabs : List (Nat × Nat)
  deriving DecidableEq, Repr

/-- Where placement begins (R231, R232). -/
def placeInit : PlaceSt :=
  { g := slabBytes, dies := List.replicate 8 (520, 0), far := 0x10800000000, ok := true, slabs := [] }

/-- Place one global copy of `len` bytes (R231). -/
def placeGlobal (nGood len : Nat) (st : PlaceSt) : PlaceSt × Nat :=
  let ex := globalExposure nGood
  let a := roundUp st.g 4096
  let a' := if ex < slabBytes ∧ ex < a % slabBytes + len then (a / slabBytes + 1) * slabBytes else a
  let used := (List.range (ceilDiv (a' % slabBytes + len) slabBytes)).map (fun i => (a' / slabBytes + i, 1))
  ({ st with g := a' + len, ok := st.ok && (ex == slabBytes || decide (len ≤ ex)), slabs := used ++ st.slabs }, a')

/-- Place one local copy of `len` bytes on die `d` (R231). -/
def placeLocal (nd d len : Nat) (st : PlaceSt) : PlaceSt × Nat :=
  let ex := localExposure nd
  let cur := st.dies.getD d (520, 0)
  let off := roundUp cur.2 4096
  let fits := decide (off + len ≤ ex)
  let grp := if fits then cur.1 else cur.1 - 8
  let off' := if fits then off else 0
  let good := decide (8 ≤ grp) && decide (len ≤ ex)
  ({ st with dies := st.dies.set d (grp, off' + len), ok := st.ok && good, slabs := (grp + d, 2) :: st.slabs },
   (grp + d) * slabBytes + off')

/-- Place the copies of a region one after another. -/
def placeCopies (nGood : Nat) (nd : List Nat) (r : Region) (len : Nat) : Nat → PlaceSt → PlaceSt × List Nat
  | 0, st => (st, [])
  | n + 1, st =>
    let p := if r.isLocal then placeLocal (nd.getD r.die 0) r.die len st else placeGlobal nGood len st
    let q := placeCopies nGood nd r len n p.1
    (q.1, p.2 :: q.2)

/-- Place one region (R231, R232). -/
def placeRegion (nGood : Nat) (nd : List Nat) (st : PlaceSt) (r : Region) : PlaceSt × Placed :=
  match r.kind with
  | .far =>
    let a := roundUp st.far 4096
    ({ st with far := a + r.size }, ⟨r, [a]⟩)
  | _ =>
    let len := if r.kind = .output then r.size + 64 else r.size
    let q := placeCopies nGood nd r len (copiesOf r.kind) st
    (q.1, ⟨r, q.2⟩)

/-- Place regions in order. -/
def placeAll (nGood : Nat) (nd : List Nat) : List Region → PlaceSt → PlaceSt × List Placed
  | [], st => (st, [])
  | r :: rs, st =>
    let p := placeRegion nGood nd st r
    let q := placeAll nGood nd rs p.1
    (q.1, p.2 :: q.2)

/-- Insert a region in ascending identifier order. -/
def insertRegion (r : Region) : List Region → List Region
  | [] => [r]
  | x :: xs => if r.id ≤ x.id then r :: x :: xs else x :: insertRegion r xs

/-- Regions in ascending identifier order. -/
def sortRegions : List Region → List Region
  | [] => []
  | r :: rs => insertRegion r (sortRegions rs)

/-- The lowest local group in use. -/
def lowestGroup (st : PlaceSt) : Nat :=
  (st.slabs.filter (fun p => p.2 == 2)).foldl (fun m p => min m (8 * (p.1 / 8))) 528

/-- The first slab above every global slab in use. -/
def globalTop (st : PlaceSt) : Nat := (st.slabs.filter (fun p => p.2 == 1)).foldl (fun m p => max m (p.1 + 1)) 1

/-- Does the placement fit: global slabs and local groups do not meet, and every copy found its place (R231)? -/
def placeFits (st : PlaceSt) : Bool := st.ok && decide (globalTop st ≤ lowestGroup st) && decide (globalTop st ≤ 528)

end Sys2Proof.Machine
end

