-- ==== Sys2Proof/Machine/FabricTypes.lean ====
section
/-!
DEFINITION. Packets, die-to-die links, fabric ports, tables, sequence spaces and request trackers (11_fabric.md R264 to
R285, 12_canopy.md R286 to R300).
-/
namespace Sys2Proof.Machine

/-- A fabric packet: the header of Table 11.3 and its payload. -/
structure Packet where
  kind : Nat
  tc : Nat
  job : Nat
  attempt : Nat
  step : Nat
  seq : Nat
  arg : Nat
  path : Nat
  srcRank : Nat
  srcCore : Nat
  dstRank : Nat
  dstCore : Nat
  sgd : Nat
  payload : List Byte
  deriving DecidableEq, Repr

/-- A packet as a link carries it: its virtual lane and its CRC field (R270, R273). -/
structure WirePacket where
  lane : Nat
  crc : Nat
  pkt : Packet
  deriving DecidableEq, Repr

/-- Packet kinds (Table 11.4). -/
def kTT : Nat := 0x01
def kSEND : Nat := 0x02
def kCOLL : Nat := 0x03
def kLREAD : Nat := 0x04
def kLWRITE : Nat := 0x05
def kLRESP : Nat := 0x06
def kACK : Nat := 0x07
def kNACK : Nat := 0x08
def kKEEP : Nat := 0x09
def kGUY : Nat := 0x10
def kPITCH : Nat := 0x11
def kSTRIKE : Nat := 0x12
def kMGMT : Nat := 0x13
def kTSYNC : Nat := 0x14

/-- The class and the payload range of a kind (Table 11.4); `none` for a reserved kind. -/
def kindRule (k : Nat) : Option (Nat × Nat × Nat) :=
  match k with
  | 0x01 => some (0, 1, 256) | 0x02 => some (1, 1, 256) | 0x03 => some (1, 1, 256)
  | 0x04 => some (1, 0, 0) | 0x05 => some (1, 144, 144) | 0x06 => some (2, 128, 128)
  | 0x07 => some (2, 0, 0) | 0x08 => some (2, 0, 0) | 0x09 => some (2, 0, 0)
  | 0x10 => some (3, 0, 256) | 0x11 => some (3, 0, 256) | 0x12 => some (3, 0, 256)
  | 0x13 => some (3, 0, 256) | 0x14 => some (3, 0, 256)
  | _ => none

/-- The 256-bit header (Table 11.3). -/
def Packet.header (p : Packet) : Nat :=
  p.sgd % 2 * 2 ^ 4 + p.srcRank % 512 * 2 ^ 5 + p.srcCore % 1024 * 2 ^ 14 + p.dstRank % 512 * 2 ^ 24
  + p.dstCore % 1024 * 2 ^ 33 + p.payload.length % 512 * 2 ^ 43 + p.path % 4 * 2 ^ 52 + p.tc % 4 * 2 ^ 54
  + p.kind % 256 * 2 ^ 56 + p.arg % 2 ^ 64 * 2 ^ 64 + p.seq % 2 ^ 32 * 2 ^ 128
  + p.step % 2 ^ 64 * 2 ^ 160 + p.attempt % 256 * 2 ^ 224 + p.job % 65536 * 2 ^ 232

/-- Header and payload bytes. -/
def Packet.bytes (p : Packet) : List Byte := leBytes 32 p.header ++ p.payload

/-- One byte into a reflected CRC-32C register. -/
def crcByte (crc b : Nat) : Nat :=
  (List.range 8).foldl (fun c _ => if c % 2 = 1 then Nat.xor (c / 2) 0x82F63B78 else c / 2) (Nat.xor crc b)

/-- CRC-32C (Castagnoli, R270). -/
def crc32c (bs : List Byte) : Nat := Nat.xor (bs.foldl (fun c b => crcByte c b.toNat) 0xFFFFFFFF) 0xFFFFFFFF

/-- Flits that a packet occupies (R270). -/
def Packet.flits (p : Packet) : Nat := ceilDiv (36 + p.payload.length) 64

/-- The class, kind and length checks of R271. -/
def Packet.wellFormed (p : Packet) : Bool :=
  match kindRule p.kind with
  | some (tc, lo, hi) => tc == p.tc && decide (lo ≤ p.payload.length) && decide (p.payload.length ≤ hi)
  | none => false

/-- The state of a fabric port (Table 11.6). -/
inductive PortSt where
  | down
  | training
  | idcheck
  | held
  | up
  deriving DecidableEq, Repr

/-- The code of a port state (Table 11.14). -/
def PortSt.code : PortSt → Nat
  | .down => 0 | .training => 1 | .idcheck => 2 | .held => 3 | .up => 4

/-- A packet in a port's replay buffer: the running number of the codeword in which it ends, its lane. -/
structure Sent where
  cw : Nat
  lane : Nat
  pkt : Packet
  deriving DecidableEq, Repr

/-- A header sample (R285). -/
structure Sample where
  header : Nat
  time : Nat
  dir : Nat
  num : Nat
  deriving DecidableEq, Repr

/-- Flits of credit that the far end holds for each lane (R273). -/
def laneCredit : List Nat := [128, 128, 512, 512, 512, 512, 64, 64]

/-- The counters of a port (Table 11.14). -/
structure PortStats where
  flitsTx : Nat := 0
  flitsRx : Nat := 0
  bytesTx : Nat := 0
  bytesRx : Nat := 0
  retries : Nat := 0
  fecCorrected : Nat := 0
  fecUncorrected : Nat := 0
  crcErrors : Nat := 0
  malformed : Nat := 0
  stall : List Nat := [0, 0, 0, 0]
  highWater : List Nat := [0, 0, 0, 0]
  downEvents : Nat := 0
  duplicates : Nat := 0
  deriving DecidableEq, Repr

/-- A fabric port: its state, identity, link-layer numbers, lanes, credits, replay buffer, samples and counters. -/
structure Port where
  st : PortSt := .down
  joined : Bool := false
  farId : Nat := 0xFFFFFFFF
  trained : Nat := 0xFFFF
  roundTrip : Nat := 0
  retrain : Bool := false
  txFlit : Nat := 0
  acked : Nat := 0
  rxCur : Nat := 0
  nakCw : Nat := 0
  nakRun : Nat := 0
  rxNext : Nat := 0
  rxHold : Bool := false
  lanes : List (List Packet) := List.replicate 8 []
  credit : List Nat := laneCredit
  replay : List Sent := []
  samples : List Sample := []
  sampleNum : Nat := 0
  sampleCount : Nat := 0
  stats : PortStats := {}
  deriving DecidableEq, Repr

/-- One direction of a die-to-die link (R265): at the sender the flit last NAKed, its NAKs in a row and the flit that a
resend starts from; at the receiver the next flit, whether it waits for a resend and the NAKs it has sent for it. -/
structure D2dLink where
  nakNum : Nat := 0
  nakRun : Nat := 0
  resend : Option Nat := none
  rxNext : Nat := 0
  rxHold : Bool := false
  rxRun : Nat := 0
  failed : Bool := false
  deriving DecidableEq, Repr

/-- The state of the routing tables (Table 11.9). -/
inductive TablesSt where
  | active
  | draining
  | drained
  deriving DecidableEq, Repr

/-- The code of a table state (Table 11.11). -/
def TablesSt.code : TablesSt → Nat
  | .active => 0 | .draining => 1 | .drained => 2

/-- One set of tables: own position, pegs (unlisted 0xFFFF) and path sets (unlisted zero) (R275, R277). -/
structure Tables where
  own : Nat := 0xFFFF
  peg : NMap Nat := []
  route : NMap Nat := []
  deriving DecidableEq, Repr

/-- What a packet in a tracker serves, and so what its answer completes. -/
inductive Owner where
  | xe (c : Nat)
  | put (c : Nat) (op : Nat)
  | coll (c : Nat)
  | restore
  | hartLoad (h : Nat)
  | hartStore (h : Nat)
  | tt (entry : Nat)
  | drain
  | record
  | none
  deriving DecidableEq, Repr

/-- A tracker entry (R283): the packet as injected, the gateway die, whose it is, the port of its last transmission,
how many EARLY reissues it has had and whether one is due (R93). -/
structure Track where
  gd : Nat
  pkt : Packet
  owner : Owner
  port : Option Nat
  early : Nat := 0
  due : Bool := false
  deriving DecidableEq, Repr

/-- The receiving end of a sequence space (R282): next expected number, numbers answered EARLY, answers given. -/
structure RxSpace where
  next : Nat := 0
  early : List Nat := []
  answers : List Packet := []
  deriving DecidableEq, Repr

/-- Counters of a gateway die's tracker (Table 11.13). -/
structure TrackStats where
  high : Nat := 0
  waits : Nat := 0
  reissues : Nat := 0
  deriving DecidableEq, Repr

/-- A queued LWRITE at the home (R296). -/
structure LineOp where
  pkt : Packet
  deriving DecidableEq, Repr

/-- A packet held in a gateway's input buffer until it is taken: the port and lane it came in on, and when. -/
structure RxPkt where
  port : Nat
  lane : Nat
  pkt : Packet
  time : Nat := 0
  deriving DecidableEq, Repr

/-- The fabric and the canopy (R264 to R300). Spaces are keyed by rank, gateway die and class; `spaceLock` names the
transfer that is part way through a space (R272), and `puts` the PUTs whose LWRITEs are not all acknowledged: core,
number, LWRITEs, counter. -/
structure Fabric where
  d2d : NMap D2dLink := []
  ports : NMap Port := []
  portMap : List Nat := List.replicate 24 0xFFFF
  tabSt : TablesSt := .active
  tabs : Tables := {}
  shadow : Tables := {}
  generation : Nat := 0
  rx : List RxPkt := []
  localIn : List RxPkt := []
  waiting : List (Nat × Packet) := []
  track : List Track := []
  trackStats : List TrackStats := [{}, {}]
  txSeq : NMap Nat := []
  rxSpace : NMap RxSpace := []
  reorder : List (Nat × Packet) := []
  keepSeq : NMap Nat := []
  unanswered : List Packet := []
  lineQ : List LineOp := []
  lineLast : NMap Nat := []
  pathEmpty : List Nat := []
  hotStep : Bool := false
  unacked : NMap Nat := []
  spaceLock : NMap Nat := []
  puts : List (Nat × Nat × Nat × Option Nat) := []
  putNext : Nat := 0
  deriving DecidableEq, Repr

end Sys2Proof.Machine
end

