-- ==== Sys2Proof/Machine/VectorMath.lean ====
section
/-!
DEFINITION. The vector engine's arithmetic (05_vector_engine.md R125 to R140): stage operations on one lane, the defined
functions, narrowing stages, and the packing of rows (R36). No state of the machine is read here.
-/
namespace Sys2Proof.Machine

/-- floor(2^32 ln 2) (R131). -/
def ex2c1 : Nat := 2977044471
/-- floor(2^32 (ln 2)^2 / 2) (R131). -/
def ex2c2 : Nat := 1031764991
/-- floor(2^32 (ln 2)^3 / 6) (R131). -/
def ex2c3 : Nat := 238388331
/-- floor(2^40 / ln 2) (R132). -/
def logIl : Nat := 1586259972792
/-- floor(2^33 / ln 2) (R133). -/
def tanhKl : Nat := 12392656037

/-- t2[j] = floor(2^(32 + j/64)) (R131). -/
def ex2t2 : List Nat :=
  [4294967296, 4341736423, 4389014833, 4436808071, 4485121743, 4533961517,
   4583333121, 4633242346, 4683695047, 4734697142, 4786254614, 4838373510,
   4891059943, 4944320094, 4998160209, 5052586606, 5107605667, 5163223846,
   5219447667, 5276283726, 5333738689, 5391819295, 5450532358, 5509884764,
   5569883475, 5630535529, 5691848041, 5753828203, 5816483284, 5879820634,
   5943847683, 6008571941, 6074000999, 6140142534, 6207004302, 6274594148,
   6342919998, 6411989868, 6481811860, 6552394164, 6623745058, 6695872913,
   6768786188, 6842493437, 6917003306, 6992324533, 7068465955, 7145436503,
   7223245205, 7301901188, 7381413679, 7461792004, 7543045592, 7625183973,
   7708216782, 7792153760, 7877004751, 7962779709, 8049488695, 8137141880,
   8225749546, 8315322086, 8405870006, 8497403929]

/-- lg[j] = floor(2^40 log2(2^32 / rc[j])), j from 0 to 63 (R132). -/
def logLgLow : List Nat :=
  [0, 12344498211, 24593670535, 36748978946, 48811850774, 60783680668,
   72665833580, 84459642175, 96166411322, 107787415413, 119323902443, 130777092782,
   142148180428, 153438334821, 164648699167, 175780394134, 186834515166, 197812136465,
   208714309749, 219542065158, 230296411008, 240978337042, 251588810962, 262128783175,
   272599183899, 283000925963, 293334903772, 303601994536, 313803058255, 323938939562,
   334010465146, 344018447534, 353963684005, 363846955499, 373669030206, 383430660758,
   393132587027, 402775534315, 412360215819, 421887331378, 431357568147, 440771601814,
   450130094958, 459433698835, 468683054756, 477878790060, 487021524520, 496111864367,
   505150407321, 514137739638, 523074439253, 531961072855, 540798198595, 549586365261,
   558326111443, 567017968918, 575662458730, 584260094645, 592811382435, 601316818083,
   609776891377, 618192083083, 626562867536, 634889710921]

/-- lg[j], j from 64 to 127 (R132). -/
def logLgHigh : List Nat :=
  [643173071725, 651413401783, 659611145688, 667766741891, 675880621578, 683953208672,
   691984922130, 699976173153, 707927367526, 715838905129, 723711178873, 731544577708,
   739339482678, 747096270545, 754815312198, 762496973997, 770141614975, 777749591198,
   785321251783, 792856943334, 800357004107, 807821770933, 815251573373, 822646738268,
   830007586314, 837334435444, 844627597390, 851887381104, 859114090576, 866308025778,
   873469482364, 880598752658, 887696124729, 894761882750, 901796306073, 908799672855,
   915772255255, 922714323741, 929626142234, 936507975128, 943360081107, 950182714875,
   956976129611, 963740574742, 970476296399, 977183536501, 983862535965, 990513531081,
   997136755361, 1003732440729, 1010300813863, 1016842101561, 1023356525690, 1029844305073,
   1036305658146, 1042740798552, 1049149938497, 1055533287175, 1061891051307, 1068223434984,
   1074530639503, 1080812866121, 1087070309356, 1093303166314]

/-! ### Packed rows (R36) -/

/-- Bytes of a packed row of `n` elements of a format code (R36). -/
def rowBytes (code n : Nat) : Nat :=
  match fmtBits code with
  | 6 => ceilDiv n 4 * 3
  | 4 => ceilDiv n 2
  | w => n * w / 8

/-- The little-endian bit string of a list of `w`-bit elements. -/
def packNat (w : Nat) : List Nat → Nat
  | [] => 0
  | x :: xs => x % 2 ^ w + 2 ^ w * packNat w xs

/-- The `n` elements of `w` bits of a packed value. -/
def unpackNat (w : Nat) : Nat → Nat → List Nat
  | 0, _ => []
  | n + 1, v => v % 2 ^ w :: unpackNat w n (v / 2 ^ w)

/-- A packed row of elements of a format code. -/
def packRow (code : Nat) (xs : List Nat) : List Byte := leBytes (rowBytes code xs.length) (packNat (fmtBits code) xs)

/-- The first `n` elements of a packed row. -/
def unpackRow (code n : Nat) (bs : List Byte) : List Nat := unpackNat (fmtBits code) n (leNat bs)

/-! ### Operands (R125) -/

/-- An FP32 operand: -0 reads as +0 (R125). -/
def veVal (n : Nat) : FNum :=
  match decode 1 n with
  | .zero _ => .zero false
  | x => x

/-- A delivered FP32 pattern: no -0 and one NaN (R125, R57). -/
def veDeliver (n : Nat) : Nat :=
  if n = 0x80000000 then 0 else if (decode 1 n).isNan then 0x7FC00000 else n

/-- All ones or zero: a comparison mask. -/
def maskOf (b : Bool) : Nat := if b then 0xFFFFFFFF else 0

/-! ### Defined functions (R130 to R134) -/

/-- RECIP (R130, Table 5.5). -/
def veRecip (a : FNum) : Nat :=
  match a with
  | .nan => 0x7FC00000
  | .zero _ => 0x7F800000
  | .inf _ => 0
  | .fin m e => let q := quotMe 30 (if m < 0 then -1 else 1) m.natAbs; floorTo 1 (.fin q.1 (q.2 - e))

/-- RSQRT (R130, Table 5.5). -/
def veRsqrt (a : FNum) : Nat :=
  match a with
  | .nan => 0x7FC00000
  | .zero _ => 0x7F800000
  | .inf s => if s then 0x7FC00000 else 0
  | .fin m e =>
    if m < 0 then 0x7FC00000
    else
      let top : Nat := 2 ^ (240 - e).toNat
      let n := isqrt (top / m.toNat)
      let sticky := if n * n * m.toNat = top then 0 else 1
      floorTo 1 (.fin ((2 * n + sticky : Nat) : Int) (-121))

/-- `exp2_q32` of R131: mantissa and exponent. -/
def exp2Q32 (w : Int) : Nat × Int :=
  let n := w / 4294967296
  let f := (w % 4294967296).toNat
  let j := f / 2 ^ 26
  let r := f % 2 ^ 26
  let q := ex2c3 * r / 2 ^ 32
  let q := (ex2c2 + q) * r / 2 ^ 32
  let q := (ex2c1 + q) * r / 2 ^ 32
  (ex2t2.getD j 0 * (2 ^ 32 + q) / 2 ^ 32, n)

/-- EXP2 (R131, Table 5.5). -/
def veExp2 (a : FNum) : Nat :=
  match a with
  | .nan => 0x7FC00000
  | .zero _ => 0x3F800000
  | .inf s => if s then 0 else 0x7F800000
  | .fin m e =>
    if !ltMe (m, e) (128, 0) then 0x7F7FFFFF
    else if ltMe (m, e) (-150, 0) then 0
    else
      let r := exp2Q32 (shiftInt m (e + 32))
      floorTo 1 (FNum.mk r.1 (r.2 - 32))

/-- lg[j] of R132. -/
def logLg (j : Nat) : Nat := if j < 64 then logLgLow.getD j 0 else logLgHigh.getD (j - 64) 0

/-- LOG2 (R132, Table 5.5). -/
def veLog2 (a : FNum) : Nat :=
  match a with
  | .nan => 0x7FC00000
  | .zero _ => 0xFF800000
  | .inf s => if s then 0x7FC00000 else 0x7F800000
  | .fin m0 e0 =>
    if m0 < 0 then 0x7FC00000
    else
      let up : Int := 23 - msb m0
      let m := shiftInt m0 up
      let e := e0 - up + 23
      let j := (m / 65536 - 128).toNat
      let rc : Int := ((2 ^ 39 / (128 + j) : Nat) : Int)
      let u := m * rc - 36028797018963968
      let num := 12 * u * ((2 ^ 165 : Nat) : Int) - 6 * u ^ 2 * ((2 ^ 110 : Nat) : Int)
        + 4 * u ^ 3 * ((2 ^ 55 : Nat) : Int) - 3 * u ^ 4
      let s := num / (12 * ((2 ^ 180 : Nat) : Int))
      let z := (logLg j : Int) + s * logIl / ((2 ^ 40 : Nat) : Int)
      floorTo 1 (FNum.mk (e * ((2 ^ 40 : Nat) : Int) + z) (-40))

/-- TANH (R133, Table 5.5). -/
def veTanh (a : FNum) : Nat :=
  match a with
  | .nan => 0x7FC00000
  | .zero _ => 0
  | .inf s => if s then 0xBF800000 else 0x3F800000
  | .fin m e =>
    let ab : Int := m.natAbs
    if ltMe (ab, e) (1, -5) then
      let p2 := shiftInt 1 (-2 * e)
      let p4 := shiftInt 1 (-4 * e)
      let num := 15 * m * p4 - 5 * m ^ 3 * p2 + 2 * m ^ 5
      let q := quotMe 30 num 15
      floorTo 1 (.fin q.1 (q.2 + 5 * e))
    else if ltMe (ab, e) (9, 0) then
      let r := exp2Q32 (-(shiftInt (ab * tanhKl) e))
      let d : Int := ((2 ^ (32 - r.2).toNat : Nat) : Int)
      let v := d - r.1
      let q := quotMe 30 (if m < 0 then -v else v) (d + r.1).toNat
      floorTo 1 (FNum.mk q.1 q.2)
    else if 0 < m then 0x3F7FFFFF
    else 0xBF800000

/-! ### Conversion stages (R135 to R138) -/

/-- CVTFI (R137): I32 bits. -/
def veCvtfi (mode : Narrow) (a : FNum) : Nat :=
  match a with
  | .nan => 0
  | .zero _ => 0
  | .inf s => if s then 0x80000000 else 0x7FFFFFFF
  | .fin m e =>
    let v := match mode with
      | .nearest => roundInt .nearestEven m e
      | .draw r =>
        let lo := roundInt .floor m e
        let f := shiftInt m (e + 24) - lo * 16777216
        if ((r % 16777216 : Nat) : Int) < f then lo + 1 else lo
    wrap 32 (clampInt (-2147483648) 2147483647 v)

/-- CVTIF (R137). -/
def veCvtif (mode : Narrow) (a : Nat) : Nat := narrow 1 mode (FNum.mk (sext 32 a) 0)

/-- PADD64 (R138). -/
def vePadd64 (hi lo : Nat) : Nat := floorTo 0 ((decode 1 hi).add (decode 1 lo))

/-! ### One stage on one lane -/

/-- Signed saturation to 32 bits (R128). -/
def satI32 (v : Int) : Nat := wrap 32 (clampInt (-2147483648) 2147483647 v)

/-- A bitwise op under R125: FP32 operands are read first, an FP32 result is delivered. -/
def veLogic (f : Nat → Nat → Nat) (a : Nat) (ai : Bool) (b : Nat) (bi : Bool) : Nat × Bool :=
  let rd (n : Nat) (i : Bool) : Nat := if !i && n == 0x80000000 then 0 else n
  let r := f (rd a ai) (rd b bi)
  if ai && bi then (r, true) else (veDeliver r, false)

/-- One stage op on one lane (Table 5.3): operand bits with their I32 mark, result bits with its mark. -/
def veOp (op : Nat) (mode : Narrow) (a : Nat) (ai : Bool) (b : Nat) (bi : Bool) (c : Nat) : Nat × Bool :=
  let x := veVal a
  let y := veVal b
  let z := veVal c
  let cmp (p : Bool) : Nat × Bool := (maskOf p, true)
  match op with
  | 0x01 => (floorTo 1 (x.add y), false)
  | 0x02 => (floorTo 1 (x.add y.negate), false)
  | 0x03 => (floorTo 1 (x.mul y), false)
  | 0x04 => (floorTo 1 ((x.mul y).add z), false)
  | 0x05 => (floorTo 1 (numMax x y), false)
  | 0x06 => (floorTo 1 (numMin x y), false)
  | 0x07 => cmp (x.feq y)
  | 0x08 => cmp (!x.feq y)
  | 0x09 => cmp (x.lt y)
  | 0x0A => cmp (x.lt y || x.feq y)
  | 0x0B => cmp (y.lt x)
  | 0x0C => cmp (y.lt x || x.feq y)
  | 0x10 => (veExp2 x, false)
  | 0x11 => (veLog2 x, false)
  | 0x12 => (veRecip x, false)
  | 0x13 => (veRsqrt x, false)
  | 0x14 => (veTanh x, false)
  | 0x20 => (satI32 (sext 32 a + sext 32 b), true)
  | 0x21 => (satI32 (sext 32 a - sext 32 b), true)
  | 0x22 => (if b < 32 then a * 2 ^ b % 2 ^ 32 else 0, true)
  | 0x23 => (if b < 32 then a / 2 ^ b else 0, true)
  | 0x24 => (wrap 32 (shiftInt (sext 32 a) (-(min b 32 : Nat))), true)
  | 0x25 => cmp (a == b)
  | 0x26 => cmp (decide (sext 32 a < sext 32 b))
  | 0x28 => veLogic Nat.land a ai b bi
  | 0x29 => veLogic Nat.lor a ai b bi
  | 0x2A => veLogic Nat.xor a ai b bi
  | 0x31 => (veCvtfi mode x, true)
  | 0x32 => (veCvtif mode a, false)
  | _ => (a, ai)

/-- The elements and scale bytes of CVTN over one row (R135): blocks of 32 lanes under MX. -/
def veCvtn (code : Nat) (mx : Bool) (row : List (FNum × Narrow)) : List Nat × List Nat :=
  if mx then
    let lo := mxEncode code (row.take 32)
    let hi := mxEncode code (row.drop 32)
    (lo.2 ++ hi.2, [lo.1, hi.1])
  else (row.map (fun p => narrow code p.2 p.1), [])

/-- The FP32 values that CVTN passes on when it is not the last stage (R135). -/
def veCvtnPass (code : Nat) (r : List Nat × List Nat) : List Nat :=
  r.1.mapIdx (fun i n =>
    veDeliver (widenTo 1 (decodeMx code (if r.2.isEmpty then none else some (r.2.getD (i / 32) 0)) n)))

/-- The field width of PACK and UNPACK (Table 5.7). -/
def packWidth (fmt : Nat) : Nat :=
  match fmt with
  | 0 => 4 | 1 => 6 | 2 => 8 | _ => 16

end Sys2Proof.Machine
end

