-- ==== Sys2Proof/Machine/Collective.lean ====
section
/-!
DEFINITION. Collective descriptors and their arithmetic (14_collectives.md R325 to R335).
-/
namespace Sys2Proof.Machine

/-- A collective descriptor (Table 14.2) with its effective addresses. -/
structure CollDesc where
  op : Nat
  red : Nat
  fmt : Nat
  pair : Bool
  flagEn : Bool
  flag0 : Nat
  cntEn : Bool
  cnt : Nat
  repoch : Nat
  core : Nat
  lo : Nat
  hi : Nat
  rows : Nat
  rowb : Nat
  src : Nat
  sstride : Nat
  dst : Nat
  dstride : Nat
  pstep : Nat
  work : Nat
  deriving DecidableEq, Repr

/-- Read a collective descriptor; `adv` advances SRC, DST and WORK (R327). -/
def collDescOf (d : Nat) (adv : Nat → Nat) : CollDesc :=
  { op := bits 10 8 d, red := bits 13 11 d, fmt := bits 17 14 d, pair := bitAt 18 d, flagEn := bitAt 19 d
    flag0 := bits 29 20 d, cntEn := bitAt 30 d, cnt := bits 33 31 d, repoch := bits 49 34 d, core := bits 57 50 d
    lo := bits 66 58 d, hi := bits 75 67 d, rows := bits 87 76 d + 1, rowb := bits 100 88 d + 1
    src := adv (bits 150 128 d), sstride := bits 173 151 d, dst := adv (bits 196 174 d), dstride := bits 219 197 d
    pstep := bits 242 220 d, work := adv (bits 278 256 d) }

/-- Members of the group (R325). -/
def CollDesc.n (d : CollDesc) : Nat := d.hi + 1 - d.lo

/-- Tree levels: ceil(log2 N) (R325). -/
def treeLevels (n : Nat) : Nat := if n ≤ 1 then 0 else Nat.log2 (n - 1) + 1

/-- The level at which member `i > 0` sends: its lowest set bit (R334). -/
def lowBit : Nat → Nat → Nat
  | 0, _ => 0
  | k + 1, i => if i % 2 = 1 then 0 else 1 + lowBit k (i / 2)

/-- Does member `i` of `n` combine at level `l` (R334)? -/
def combinesAt (n i l : Nat) : Bool := i % 2 ^ (l + 1) == 0 && decide (i + 2 ^ l < n)

/-- The levels at which a member combines, ascending. -/
def combineLevels (n i : Nat) : List Nat := (List.range (treeLevels n)).filter (combinesAt n i)

/-- The children of a member in the order in which results go down: descending level (R335). -/
def downChildren (n i : Nat) : List Nat :=
  let t := if i = 0 then treeLevels n else lowBit 10 i
  ((List.range t).reverse.filter (fun l => decide (i + 2 ^ l < n))).map (fun l => i + 2 ^ l)

/-- The element format code of a collective: 0 for binary64, 1 for FP32. -/
def collRead (fmt n : Nat) : Nat :=
  match decode fmt n with
  | .zero _ => 0
  | .nan => canonNan fmt
  | _ => n

/-- combine() on one element (R333, R58). -/
def collCombine (fmt red a b : Nat) : Nat :=
  let x := decode fmt (collRead fmt a)
  let y := decode fmt (collRead fmt b)
  match red with
  | 0 => floorTo fmt (x.add y)
  | 1 => floorTo fmt (numMax x y)
  | 2 => floorTo fmt (numMin x y)
  | _ => floorTo fmt (x.mul y)

/-- Bytes of an element. -/
def collElem (fmt : Nat) : Nat := if fmt = 0 then 8 else 4

/-- combine() over packed element strings (R333). -/
def collCombineBytes (fmt red : Nat) (a b : List Byte) : List Byte :=
  let w := 8 * collElem fmt
  let n := a.length / collElem fmt
  leBytes a.length (packNat w (List.zipWith (collCombine fmt red) (unpackNat w n (leNat a)) (unpackNat w n (leNat b))))

/-- combine() over two packed pairs of hi and lo strings (R59, R333). -/
def collCombinePair (fmt : Nat) (ah al bh bl : List Byte) : List Byte × List Byte :=
  let w := 8 * collElem fmt
  let n := ah.length / collElem fmt
  let u (x : List Byte) : List Nat := (unpackNat w n (leNat x)).map (collRead fmt)
  let r := List.zipWith (pairSum fmt) ((u ah).zip (u al)) ((u bh).zip (u bl))
  (leBytes ah.length (packNat w (r.map Prod.fst)), leBytes ah.length (packNat w (r.map Prod.snd)))

/-- The contribution as a member first reads it: -0 as +0 and one NaN (R332). -/
def collReadBytes (fmt : Nat) (a : List Byte) : List Byte :=
  let w := 8 * collElem fmt
  leBytes a.length (packNat w ((unpackNat w (a.length / collElem fmt) (leNat a)).map (collRead fmt)))

end Sys2Proof.Machine
end

