-- ==== Sys2Proof/Machine/Convert.lean ====
section
/-!
DEFINITION. The counter-based generator (08_field_exchange.md R223 to R225), conversion descriptors and the arithmetic of
the conversion stations (R208 to R217), chunked digests (R219).
-/
namespace Sys2Proof.Machine

/-! ### The generator -/

/-- `rotl(x, n)` on a u32 (R10). -/
def rotl32 (x n : Nat) : Nat := (x * 2 ^ n + x / 2 ^ (32 - n)) % 2 ^ 32

/-- One round of `kgen` with round index `j` (R223). -/
def kgenRound (k : Nat × Nat × Nat × Nat) (x : Nat × Nat × Nat × Nat) (j : Nat) : Nat × Nat × Nat × Nat :=
  let r0 := (k.1 + j * 0x9E3779B9) % 2 ^ 32
  let r1 := (k.2.1 + j * 0xB504F333) % 2 ^ 32
  let p := (Nat.xor x.1 k.2.2.1 * 0x00100101) % 2 ^ 32
  let q := (Nat.xor x.2.2.1 k.2.2.2 * 0x01001001) % 2 ^ 32
  (Nat.xor (Nat.xor x.2.2.2 (rotl32 q 16)) r0, Nat.xor x.1 (rotl32 p 12),
   Nat.xor (Nat.xor x.2.1 (rotl32 p 20)) r1, Nat.xor x.2.2.1 (rotl32 q 8))

/-- `kgen` of R223: ten rounds. -/
def kgen (k x : Nat × Nat × Nat × Nat) : Nat × Nat × Nat × Nat := (List.range 10).foldl (kgenRound k) x

/-- What fixes a draw besides stream and element index (Table 8.7). -/
structure GenKey where
  seed : Nat
  rank : Nat
  step : Nat
  deriving DecidableEq, Repr

/-- A draw (R224, Table 8.7). -/
def genDraw (g : GenKey) (purpose source stream e : Nat) : Nat :=
  let b := e / 4
  let y := kgen (g.seed % 2 ^ 32, g.seed / 2 ^ 32 % 2 ^ 32, source % 512 * 512 + g.rank % 512,
                 purpose % 2 ^ 16 * 2 ^ 16 + stream % 2 ^ 16)
                (b % 2 ^ 32, b / 2 ^ 32 % 2 ^ 32, g.step % 2 ^ 32, g.step / 2 ^ 32 % 2 ^ 32)
  match e % 4 with
  | 0 => y.1 | 1 => y.2.1 | 2 => y.2.2.1 | _ => y.2.2.2

/-! ### The conversion descriptor (Table 8.3) -/

/-- The OP of a conversion descriptor. -/
inductive ConvOp where
  | narrow
  | widen
  | generate
  deriving DecidableEq, Repr

/-- A conversion descriptor, field by field (Table 8.3). -/
structure ConvDesc where
  op : ConvOp
  station : Nat
  rnd : Nat
  mx : Bool
  sfmt : Nat
  dfmt : Nat
  aff : Bool
  irq : Bool
  cmpl : Bool
  spair : Bool
  vest : Bool
  ch : Nat
  rows : Nat
  hart : Nat
  core0 : Nat
  ncore : Nat
  rpc : Nat
  stream : Nat
  region : Nat
  roff : Nat
  rstride : Nat
  saddr : Nat
  sstride : Nat
  scaddr : Nat
  scstride : Nat
  repoch : Nat
  flag : Nat
  flagEn : Bool
  cntEn : Bool
  cnt : Nat
  cmplRegion : Nat
  cmplOff : Nat
  affRegion : Nat
  affOff : Nat
  deriving DecidableEq, Repr

/-- Read a 512-bit conversion descriptor (Table 8.3). -/
def convDescOf (d : Nat) : ConvDesc :=
  { op := match bits 7 0 d with | 1 => .narrow | 2 => .widen | _ => .generate
    station := bits 12 8 d, rnd := bits 14 13 d, mx := bitAt 15 d, sfmt := bits 19 16 d, dfmt := bits 23 20 d
    aff := bitAt 24 d, irq := bitAt 25 d, cmpl := bitAt 26 d, spair := bitAt 27 d, vest := bitAt 28 d
    ch := bits 43 32 d + 1, rows := bits 71 48 d + 1, hart := bits 78 72 d, core0 := bits 87 80 d
    ncore := bits 95 88 d + 1, rpc := bits 111 96 d + 1, stream := bits 127 112 d, region := bits 135 128 d
    roff := bits 183 144 d, rstride := bits 207 184 d, saddr := bits 246 224 d, sstride := 64 * bits 272 256 d
    scaddr := bits 302 280 d, scstride := bits 319 304 d, repoch := bits 335 320 d, flag := bits 345 336 d
    flagEn := bitAt 346 d, cntEn := bitAt 347 d, cnt := bits 350 348 d, cmplRegion := bits 359 352 d
    affRegion := bits 375 368 d, cmplOff := bits 423 384 d, affOff := bits 471 432 d }

/-- The Reserved fields of Table 8.3 that must be zero (R147). -/
def convReserved : List (Nat × Nat) :=
  [(31, 29), (47, 44), (79, 79), (143, 136), (223, 208), (255, 247), (279, 273), (303, 303), (351, 351), (367, 360),
   (383, 376), (431, 424), (511, 472)]

/-- The checks of R209 that need no region or core schedule. -/
def convShapeOk (d : Nat) : Bool :=
  let c := convDescOf d
  let opOk := 1 ≤ bits 7 0 d && bits 7 0 d ≤ 3
  let fmtOk := match c.op with
    | .narrow => c.sfmt ≤ 1 && 1 ≤ c.dfmt && c.dfmt ≤ 9
    | .widen => c.dfmt ≤ 1 && c.sfmt ≤ 9
    | .generate => c.sfmt == 0 && c.dfmt == 0 && !c.mx && c.rnd == 0 && !c.aff
  let mxOk := !c.mx || (c.op == .narrow && 4 ≤ c.dfmt && c.dfmt ≤ 9) || (c.op == .widen && 4 ≤ c.sfmt && c.sfmt ≤ 9)
  let rndOk := c.rnd ≤ 1 && (c.rnd == 0 || c.op == .narrow)
  let widenOnly := c.op == .widen || !(c.cmpl || c.irq || c.vest)
  let pairOk := !c.spair || c.vest
  let coresOk := c.rows ≤ c.ncore * c.rpc && (c.ncore - 1) * c.rpc < c.rows && c.core0 + c.ncore ≤ 256
  let regionW := fmtBits (if c.op = .narrow then c.sfmt else c.dfmt) / 8
  let scratchFmt := if c.op = .narrow then c.dfmt else c.sfmt
  let strideOk := match c.op with
    | .generate => 4 * c.ch ≤ c.sstride && ceilDiv c.ch 32 ≤ c.scstride
    | _ => c.ch * regionW ≤ c.rstride
           && (c.vest || (rowBytes scratchFmt c.ch ≤ c.sstride && ceilDiv c.ch 32 ≤ c.scstride))
  let alignOk := c.cmplOff % 8 == 0 && c.affOff % 16 == 0 && c.rstride % 8 == 0
  let vestOk := !c.vest || (c.ncore == 1 && c.ch == 64 && c.rows % 64 == 0 && !c.mx
                            && ((c.sfmt == 1) || (c.sfmt == 0 && c.spair)))
  opOk && fmtOk && mxOk && rndOk && widenOnly && pairOk && coresOk && strideOk && alignOk && vestOk

/-! ### Elements -/

/-- The affine step on a binary64 value (R210): one fusedMultiplyAdd rounded to nearest even. -/
def affine (x s o : Nat) : Nat :=
  let p := (decode 0 x).mul (decode 0 s)
  let r := p.add (decode 0 o)
  match p, decode 0 o, r with
  | .fin _ _, .fin _ _, .zero _ => 0
  | _, _, y => nearestKeepZero 0 y

/-- The narrowed packed row and its scales (R210, R211): `xs` are the binary64 elements after the affine step. -/
def narrowRow (dfmt : Nat) (mx : Bool) (xs : List (FNum × Narrow)) : List Byte × List Byte :=
  if mx then
    let nb := ceilDiv xs.length 32
    let blocks := (List.range nb).map (fun b => mxEncode dfmt (slice xs (32 * b) 32))
    (packRow dfmt (blocks.flatMap Prod.snd), blocks.map (fun b => BitVec.ofNat 8 b.1))
  else (packRow dfmt (xs.map (fun p => narrow dfmt p.2 p.1)), [])

/-- One element to its binary64 bits in the widening direction, -0 kept (R46, R47, R215). -/
def widen64 (x : FNum) : Nat := widenTo 0 x

/-- The destination bits of a widened element (R215). -/
def widenOut (dfmt : Nat) (inexact : Bool) (b64 : Nat) : Nat :=
  if dfmt = 0 then b64
  else if inexact then nearestKeepZero 1 (decode 0 b64) else widenTo 1 (decode 0 b64)

end Sys2Proof.Machine
end

