-- ==== Sys2Proof/Machine/Sha3.lean ====
section
/-!
DEFINITION. SHAKE256 (FIPS 202), which the digest engines, the key derivation and the quote use
(08_field_exchange.md R219, 22_security_lifecycle.md R457, R462). PRESUMED from the public standard the spec names:
log entry 14.
-/
namespace Sys2Proof.Machine

/-- Lane `(x, y)` of the state, held as a list of 25 lanes in x + 5 y order. -/
def lane (a : List (BitVec 64)) (x y : Nat) : BitVec 64 := a.getD (x % 5 + 5 * (y % 5)) 0

/-- Rotation offsets of the rho step, in x + 5 y order. -/
def rhoOffsets : List Nat :=
  [0, 1, 62, 28, 27, 36, 44, 6, 55, 20, 3, 10, 43, 25, 39, 41, 45, 15, 21, 8, 18, 2, 61, 56, 14]

/-- Round constants of the iota step. -/
def keccakRc : List (BitVec 64) :=
  [0x0000000000000001, 0x0000000000008082, 0x800000000000808A, 0x8000000080008000, 0x000000000000808B,
   0x0000000080000001, 0x8000000080008081, 0x8000000000008009, 0x000000000000008A, 0x0000000000000088,
   0x0000000080008009, 0x000000008000000A, 0x000000008000808B, 0x800000000000008B, 0x8000000000008089,
   0x8000000000008003, 0x8000000000008002, 0x8000000000000080, 0x000000000000800A, 0x800000008000000A,
   0x8000000080008081, 0x8000000000008080, 0x0000000080000001, 0x8000000080008008]

/-- The theta step. -/
def keccakTheta (a : List (BitVec 64)) : List (BitVec 64) :=
  let c := (List.range 5).map (fun x => lane a x 0 ^^^ lane a x 1 ^^^ lane a x 2 ^^^ lane a x 3 ^^^ lane a x 4)
  let d := (List.range 5).map (fun x => c.getD ((x + 4) % 5) 0 ^^^ (c.getD ((x + 1) % 5) 0).rotateLeft 1)
  (List.range 25).map (fun i => a.getD i 0 ^^^ d.getD (i % 5) 0)

/-- The rho and pi steps: lane (x, y) of the result is lane (x + 3 y, x) turned. -/
def keccakRhoPi (a : List (BitVec 64)) : List (BitVec 64) :=
  (List.range 25).map (fun i =>
    let x := i % 5
    let y := i / 5
    let sx := (x + 3 * y) % 5
    (lane a sx x).rotateLeft (rhoOffsets.getD (sx + 5 * x) 0))

/-- The chi step. -/
def keccakChi (a : List (BitVec 64)) : List (BitVec 64) :=
  (List.range 25).map (fun i =>
    let x := i % 5
    let y := i / 5
    lane a x y ^^^ (~~~ lane a (x + 1) y &&& lane a (x + 2) y))

/-- One round. -/
def keccakRound (a : List (BitVec 64)) (rc : BitVec 64) : List (BitVec 64) :=
  let b := keccakChi (keccakRhoPi (keccakTheta a))
  b.set 0 (b.getD 0 0 ^^^ rc)

/-- Keccak-f[1600]. -/
def keccakF (a : List (BitVec 64)) : List (BitVec 64) := keccakRc.foldl keccakRound a

/-- Exclusive-or a block of bytes into the state. -/
def absorbBlock (a : List (BitVec 64)) (block : List Byte) : List (BitVec 64) :=
  (List.range 25).map (fun i => a.getD i 0 ^^^ BitVec.ofNat 64 (leNat (slice block (8 * i) 8)))

/-- The bytes of a state. -/
def stateBytes (a : List (BitVec 64)) : List Byte := a.flatMap (fun l => leBytes 8 l.toNat)

/-- Absorb `n` blocks of 136 bytes. -/
def absorbAll : Nat → List (BitVec 64) → List Byte → List (BitVec 64)
  | 0, a, _ => a
  | n + 1, a, m => absorbAll n (keccakF (absorbBlock a (m.take 136))) (m.drop 136)

/-- Squeeze `n` blocks. -/
def squeezeAll : Nat → List (BitVec 64) → List Byte
  | 0, _ => []
  | n + 1, a => (stateBytes a).take 136 ++ squeezeAll n (keccakF a)

/-- The padded message: suffix 1111, then pad10*1. -/
def shakePad (m : List Byte) : List Byte :=
  let r := m.length % 136
  if r = 135 then m ++ [0x9F] else m ++ [0x1F] ++ zeros (134 - r) ++ [0x80]

/-- `len` bytes of SHAKE256 of a byte string. -/
def shake256 (m : List Byte) (len : Nat) : List Byte :=
  let p := shakePad m
  let a := absorbAll (p.length / 136) (List.replicate 25 0) p
  (squeezeAll (len / 136 + 1) a).take len

end Sys2Proof.Machine
end

