-- ==== Sys2Proof/Machine/Digest.lean ====
section
/-!
DEFINITION. Digests (08_field_exchange.md R219, R222).
-/
namespace Sys2Proof.Machine

/-- shake256_512: SHAKE256 with a 512-bit output (R219). -/
def shake512 (m : List Byte) : List Byte := shake256 m 64

/-- The leaf digests of the 1 MiB chunks of a byte string. -/
def chunkLeaves : Nat → List Byte → List Byte
  | 0, _ => []
  | n + 1, b => shake512 (b.take 1048576) ++ chunkLeaves n (b.drop 1048576)

/-- `chunked_digest` of R219. -/
def chunkedDigest (b : List Byte) : List Byte :=
  shake512 (leBytes 8 b.length ++ chunkLeaves (ceilDiv b.length 1048576) b)

end Sys2Proof.Machine
end

