-- ==== Sys2Proof/Machine/Linkage.lean ====
section
/-!
DEFINITION. Linkage schedules and their arithmetic (10_linkage_engine.md R253 to R261).
-/
namespace Sys2Proof.Machine

/-- A schedule's header (Table 10.2), scale exponents, operation words and pair list. -/
structure Schedule where
  digest : List Byte
  n : Nat
  nin : Nat
  nslot : Nat
  nops : Nat
  body : Nat
  nlist : Nat
  tol : Nat
  etol : Int
  cap : Nat
  thr : Int
  inF64 : Bool
  outF64 : Bool
  scales : List Int
  ops : List Nat
  pairs : List Nat
  deriving DecidableEq, Repr

/-- Byte length of a schedule from its header fields (R253). -/
def scheduleBytes (nslot nops nlist : Nat) : Nat := 64 + roundUp nslot 16 + 16 * nops + roundUp (8 * nlist) 16

/-- `len` little-endian words of `w` bytes. -/
def wordsOf (w : Nat) : Nat → List Byte → List Nat
  | 0, _ => []
  | n + 1, b => leNat (b.take w) :: wordsOf w n (b.drop w)

/-- Read a schedule from the bytes that begin at its header (R253). -/
def scheduleOf (b : List Byte) : Schedule :=
  let h := leNat (b.take 64)
  let nslot := bits 223 192 h
  let nops := bits 255 224 h
  let nlist := bits 319 288 h
  let o1 := 64 + roundUp nslot 16
  { digest := b.take 16, n := bits 159 128 h, nin := bits 191 160 h, nslot := nslot, nops := nops
    body := bits 287 256 h, nlist := nlist, tol := bits 383 320 h, etol := sext 8 (bits 391 384 h)
    cap := if bits 399 392 h = 0 then 8 else bits 399 392 h
    thr := if bits 407 400 h = 0 then -30 else sext 8 (bits 407 400 h)
    inF64 := bitAt 408 h, outF64 := bitAt 409 h
    scales := (wordsOf 1 nslot (b.drop 64)).map (sext 8)
    ops := wordsOf 16 nops (b.drop o1)
    pairs := wordsOf 8 nlist (b.drop (o1 + 16 * nops)) }

/-- The structure digest of R257 over the schedule's bytes. -/
def structureDigest (b : List Byte) : List Byte := shake256 (slice b 16 24 ++ b.drop 64) 16

/-- The unit slot (R254). -/
def unitSlot : Nat := 0x7FFFF

/-- The scale exponent of a slot; the unit slot has -62 (R254). -/
def slotE (s : Schedule) (i : Nat) : Int := if i = unitSlot then -62 else s.scales.getD i 0

/-- Fields of an operation word (Table 10.3). -/
def opCode (w : Nat) : Nat := bits 7 0 w
def opNeg (w : Nat) : Bool := bitAt 8 w
def opCen (w : Nat) : Bool := bitAt 9 w
def opD (w : Nat) : Nat := bits 34 16 w
def opC (w : Nat) : Nat := bits 58 40 w
def opList (w : Nat) : Nat := bits 95 64 w
def opLen (w : Nat) : Nat := bits 115 96 w
def pairA (p : Nat) : Nat := bits 18 0 p
def pairB (p : Nat) : Nat := bits 50 32 p

/-- Is a slot index readable: below NSLOT or the unit slot (R255)? -/
def slotOk (s : Schedule) (i : Nat) : Bool := i < s.nslot || i == unitSlot

/-- A shift within limits (R255). -/
def shiftOk (lo hi x : Int) : Bool := decide (lo ≤ x) && decide (x ≤ hi)

/-- The checks of R255 on one operation at position `p`. -/
def linkOpOk (s : Schedule) (w : Nat) : Bool :=
  let ps := slice s.pairs (opList w) (opLen w)
  let inList := decide (opList w + opLen w ≤ s.nlist)
  let reserved := bits 15 10 w == 0 && bits 39 35 w == 0 && bits 63 59 w == 0 && bits 127 116 w == 0
  reserved && match opCode w with
    | 1 => inList && decide (opD w < s.nslot) && (!opCen w || slotOk s (opC w))
           && ps.all (fun p => slotOk s (pairA p) && slotOk s (pairB p)
                && shiftOk (-126) 16 (slotE s (pairA p) + slotE s (pairB p) - slotE s (opD w)))
           && (!opCen w || shiftOk (-126) 16 (slotE s (opC w) - slotE s (opD w)))
    | 2 => opList w == 0 && opLen w == 0 && !opNeg w && !opCen w && decide (opD w < s.nslot) && decide (opC w < s.nslot)
    | 3 => opD w == 0 && opC w == 0 && !opNeg w && !opCen w && inList
           && ps.all (fun p => slotOk s (pairA p) && pairB p == 0 && shiftOk (-126) 64 (slotE s (pairA p) - s.etol))
    | _ => false

/-- The checks of R253, R255 and R170 on a schedule's bytes. -/
def scheduleOk (b : List Byte) : Bool :=
  let h := leNat (b.take 64)
  let s := scheduleOf b
  let norms := (s.ops.mapIdx (fun i w => if opCode w = 3 then [i] else [])).flatten
  decide (1 ≤ s.n) && decide (s.n ≤ 16384) && decide (s.n + s.nin ≤ s.nslot) && decide (s.nslot ≤ 524287)
  && decide (1 ≤ s.nops) && decide (s.body < s.nops)
  && decide (bits 399 392 h ≤ 64) && (bits 407 400 h == 0 || shiftOk (-62) (-1) (sext 8 (bits 407 400 h)))
  && bits 511 410 h == 0
  && (slice b (64 + s.nslot) (roundUp s.nslot 16 - s.nslot)).all (fun x => x == 0)
  && (slice b (64 + roundUp s.nslot 16 + 16 * s.nops + 8 * s.nlist) (roundUp (8 * s.nlist) 16 - 8 * s.nlist)).all
       (fun x => x == 0)
  && (match norms with | [p] => decide (s.body ≤ p) | _ => false)
  && s.ops.all (linkOpOk s)
  && s.pairs.all (fun p => bits 31 19 p == 0 && bits 63 51 p == 0)
  && structureDigest (b.take (scheduleBytes s.nslot s.nops s.nlist)) == s.digest

/-- How a solve ended (Table 10.6). -/
inductive SolveEnd where
  | converged
  | capped
  | saturated
  deriving DecidableEq, Repr

/-- The running state of a solve: slot values, next operation, updates applied, flags and counts (R256, R259, R261). -/
structure Solve where
  v : List Int
  pc : Nat
  iter : Nat
  saturatedFlag : Bool
  sats : Nat
  clampedFlag : Bool
  clamps : Nat
  warmRejected : Bool
  norm : Nat
  deriving DecidableEq, Repr

/-- The value of a slot; the unit slot is 2^62 (R254). -/
def slotV (x : Solve) (i : Nat) : Int := if i = unitSlot then 4611686018427387904 else x.v.getD i 0

/-- Write a slot through sat64 (R256). -/
def slotWrite (x : Solve) (i : Nat) (z : Int) : Solve :=
  let r := fxSat z
  { x with v := x.v.set i r.1, saturatedFlag := x.saturatedFlag || r.2, sats := x.sats + (if r.2 then 1 else 0) }

/-- Go to the next operation; the end of the body returns to BODY and counts an update (R261). -/
def solveNext (s : Schedule) (x : Solve) : Solve :=
  if x.pc + 1 < s.nops then { x with pc := x.pc + 1 } else { x with pc := s.body, iter := x.iter + 1 }

/-- `op_dot` (R256). -/
def opDot (s : Schedule) (w : Nat) (x : Solve) : Solve :=
  let ed := slotE s (opD w)
  let base := if opCen w then shiftInt (slotV x (opC w)) (slotE s (opC w) - ed) else 0
  let sum := ((slice s.pairs (opList w) (opLen w)).map (fun p =>
    shiftInt (slotV x (pairA p) * slotV x (pairB p)) (slotE s (pairA p) + slotE s (pairB p) - ed))).sum
  slotWrite x (opD w) (if opNeg w then base - sum else base + sum)

/-- `op_pivot` (R256). -/
def opPivot (s : Schedule) (w : Nat) (x : Solve) : Solve :=
  let p := slotV x (opC w)
  let th : Int := shiftInt 1 (63 + s.thr)
  let small := decide ((p.natAbs : Int) < th)
  let p' := if small then (if p < 0 then -th else th) else p
  let x' := if small then { x with v := x.v.set (opC w) p', clampedFlag := true, clamps := x.clamps + 1 } else x
  let k := -(slotE s (opC w)) - slotE s (opD w)
  let q : Int := if 0 ≤ k then Int.fdiv (shiftInt 1 k) p' else Int.fdiv 1 (p' * shiftInt 1 (-k))
  slotWrite x' (opD w) q

/-- The residual norm of `op_norm` (R261). -/
def normOf (s : Schedule) (w : Nat) (x : Solve) : Nat :=
  (slice s.pairs (opList w) (opLen w)).foldl (fun m p =>
    max m (shiftInt ((slotV x (pairA p)).natAbs : Int) (slotE s (pairA p) - s.etol)).toNat) 0

/-- `op_norm` (R261): the state with its norm, and how the solve ends, if it does. -/
def opNorm (s : Schedule) (w : Nat) (x : Solve) : Solve × Option SolveEnd :=
  let m := normOf s w x
  let x' := { x with norm := m }
  if m ≤ s.tol then (x', some .converged)
  else if x.iter = s.cap then (x', some (if x.saturatedFlag then .saturated else .capped))
  else (x', none)

/-- The status word (Table 10.6). -/
def statusWord (x : Solve) (e : SolveEnd) : Nat :=
  min x.sats 16777215 * 2 ^ 40 + min x.clamps 65535 * 2 ^ 24 + x.iter * 2 ^ 16
  + (if x.warmRejected then 2 ^ 10 else 0) + (if x.saturatedFlag then 2 ^ 9 else 0)
  + (if x.clampedFlag then 2 ^ 8 else 0)
  + (match e with | .converged => 0 | .capped => 1 | .saturated => 2)

/-- The start of a solve from the problem block's bytes (R259, R260). -/
def solveStart (s : Schedule) (block : List Byte) : Solve :=
  let warm := bitAt 0 (fieldAt block 16 4)
  let same := block.take 16 == s.digest
  let unk := (List.range s.n).map (fun i =>
    if warm && same then sext 64 (fieldAt block (64 + 8 * s.nin + 8 * i) 8) else 0)
  let ins := (List.range s.nin).map (fun j =>
    let raw := fieldAt block (64 + 8 * j) 8
    if s.inF64 then fxFrom (decode 0 raw) (s.scales.getD (s.n + j) 0) else (sext 64 raw, false))
  let sats := (ins.filter Prod.snd).length
  { v := unk ++ ins.map Prod.fst ++ List.replicate (s.nslot - s.n - s.nin) 0
    pc := 0, iter := 0, saturatedFlag := 0 < sats, sats := sats, clampedFlag := false, clamps := 0
    warmRejected := warm && !same, norm := 0 }

/-- The bytes that a finished solve writes, with their offsets in the block (Table 10.5, R258). -/
def solveWrites (s : Schedule) (x : Solve) (e : SolveEnd) : List (Nat × List Byte) :=
  let sol := (List.range s.n).flatMap (fun i => leBytes 8 (wrap 64 (x.v.getD i 0)))
  let f64 := (List.range s.n).flatMap (fun i => leBytes 8 (fxTo (x.v.getD i 0) (s.scales.getD i 0)))
  [(0, s.digest), (24, leBytes 8 (statusWord x e) ++ leBytes 8 (min x.norm (2 ^ 64 - 1)) ++ zeros 24),
   (64 + 8 * s.nin, sol)] ++ (if s.outF64 then [(64 + 8 * s.nin + 8 * s.n, f64)] else [])

/-- Bytes of a problem block (Table 10.5, R258). -/
def blockBytes (s : Schedule) : Nat := 64 + 8 * s.nin + 8 * s.n + (if s.outF64 then 8 * s.n else 0)

end Sys2Proof.Machine
end

