-- ==== Sys2Proof/Machine/Matrix.lean ====
section
/-!
DEFINITION. The matrix engine on one core (04_matrix_engine.md R96 to R118, 06_brynno_commands.md R157, R162): operand
addressing, tiles, accumulator sets, chains, slice mode, scans and emission.
-/
namespace Sys2Proof.Machine

/-- An address field advanced by its IX byte (R157). -/
def ixAdd (ix : Nat) (cnt : List Nat) (v : Nat) : Nat :=
  if bitAt 7 ix then v + cnt.getD (bits 6 4 ix) 0 * 2 ^ bits 3 0 ix else v

/-- The 23-bit scratch address (R75). -/
def sAddr (a : Nat) : Nat := a % 8388608

/-- Reduction depth of one weight tile (Table 4.1). -/
def ktOf (code : Nat) : Nat :=
  match code with
  | 8 => 128 | 2 => 32 | 3 => 32 | 1 => 16 | 0 => 8 | _ => 64

/-- Tile row bytes of an activation operand (R104). -/
def tileRowBytes (code : Nat) : Nat := ktOf code * fmtBits code / 8

/-- Bytes of a weight tile without scales (Table 4.1). -/
def tileBytes (code : Nat) : Nat := ktOf code * (8 * fmtBits code)

/-- Bytes of a weight tile with its scales (R100, Table 4.2). -/
def tileSize (code : Nat) (scaled : Bool) : Nat := tileBytes code + (if scaled then 64 * (ktOf code / 32) else 0)

/-- The parameters of a MEMUL (Tables 4.3, 6.13). -/
structure MulP where
  fa : Nat
  fw : Nat
  sa : Bool
  sw : Bool
  mode : MeMode
  set : Nat
  start : Bool
  emit : Bool
  toDm : Bool
  m : Nat
  t : Nat
  klast : Nat
  gather : Bool
  aBase : Nat
  aStride : Nat
  deriving DecidableEq, Repr

/-- Read the fields of a MEMUL word with the counters of its dispatch (R157, Table 6.13). -/
def mulOf (cmd : EngCmd) : MulP :=
  let w := cmd.word
  { fa := bits 11 8 w, fw := bits 15 12 w, sa := bitAt 16 w, sw := bitAt 17 w
    mode := match bits 19 18 w with | 0 => .fp32 | 1 => .pair | _ => .f64s
    set := bits 20 20 w, start := bitAt 21 w, emit := bitAt 22 w, toDm := bitAt 23 w
    m := bits 31 24 w + 1, t := bits 41 32 w + 1, klast := bits 48 42 w + 1, gather := bitAt 49 w
    aBase := ixAdd (bits 63 56 w) cmd.cnt (bits 86 64 w), aStride := 64 * bits 103 87 w }

/-- Accumulator set 0 or 1. -/
def Core.set (c : Core) (n : Nat) : AccSet := if n = 0 then c.set0 else c.set1

/-- Replace an accumulator set. -/
def Core.putSet (c : Core) (n : Nat) (a : AccSet) : Core := if n = 0 then { c with set0 := a } else { c with set1 := a }

/-- A piece of a gathered operand: base, scale base and flag index (R114). -/
structure Piece where
  base : Nat
  scale : Nat
  flag : Nat
  tile : Nat
  deriving DecidableEq, Repr

/-- Where tile `j` of a command takes its activations from (R104, R114). -/
def pieceOf (c : Core) (p : MulP) (j : Nat) : Piece :=
  let sb := (c.mescl.getD (0, 0)).1
  if p.gather then
    let g := c.megath.getD (0, 1)
    let per := p.t / g.2
    let e := readN c.scratch (sAddr (g.1 + 8 * (j / per))) 8
    { base := bits 22 0 e, scale := bits 45 23 e, flag := bits 55 46 e, tile := j % per }
  else { base := p.aBase, scale := sb, flag := 0, tile := j }

/-- The first tile of a piece waits for the piece's arrival flag (R115). -/
def pieceReady (c : Core) (p : MulP) (j : Nat) : Bool :=
  if p.gather then
    let per := p.t / (c.megath.getD (0, 1)).2
    j % per != 0 || c.flags.getLsbD (pieceOf c p j).flag
  else true

/-- The `n` first elements of activation row `m` for a tile (R104), with their block scales. -/
def actRow (c : Core) (p : MulP) (pc : Piece) (m n : Nat) : List FNum :=
  let r := tileRowBytes p.fa
  let raw := unpackRow p.fa n (readBytes c.scratch (sAddr (pc.base + m * p.aStride + pc.tile * r)) r)
  raw.mapIdx (fun k x =>
    decodeMx p.fa
      (if p.sa then
        some (readByte c.scratch
          (sAddr (pc.scale + m * (c.mescl.getD (0, 0)).2 + (pc.tile * ktOf p.fa + k) / 32))).toNat
       else none) x)

/-- Row `k` of a weight tile: 64 elements with their block scales (R100). -/
def tileRow (fw : Nat) (scaled : Bool) (tile : List Byte) (k : Nat) : List FNum :=
  let rb := 8 * fmtBits fw
  (unpackRow fw 64 (slice tile (k * rb) rb)).mapIdx (fun n x =>
    decodeMx fw (if scaled then some (fieldAt tile (tileBytes fw + 64 * (k / 32) + n) 1) else none) x)

/-- Column `n` of a list of rows. -/
def column (rows : List (List FNum)) (n : Nat) : List FNum := rows.map (fun r => r.getD n (.zero false))

/-- A row of zero accumulators. -/
def zeroAccRow : List Acc := List.replicate 64 Acc.zero

/-- A row of zero slice sums. -/
def zeroSumRow : List SliceSum := List.replicate 64 ⟨0, false⟩

/-- One tile against `M` activation rows (R48, R106). -/
def accTile (acc : List (List Acc)) (acts wrows : List (List FNum)) : List (List Acc) :=
  acts.mapIdx (fun m a =>
    (acc.getD m zeroAccRow).mapIdx (fun n x => dotFrom x (a.zip (column wrows n))))

/-- A scan's exponent marks a row or column with a NaN or an infinity (R112, R113). -/
def badExp (e : Int) : Bool := e == 32767

/-- Does a finite element reach 2^exponent (R113)? -/
def outOfRange (x : FNum) (e : Int) : Bool :=
  match x with
  | .fin m k => !badExp e && !ltMe ((m.natAbs : Int), k) (1, e)
  | _ => false

/-- One element of an F64S tile product: the sum over the tile's K (R54, R55). -/
def sliceDot (a w : List FNum) (ea fw : Int) : SliceSum :=
  if badExp ea || badExp fw || a.any (fun x => !x.isFin) || w.any (fun x => !x.isFin) then ⟨0, true⟩
  else ⟨((a.zip w).map (fun p => f64sTerm (f64sSplit p.1 ea) (f64sSplit p.2 fw))).sum, false⟩

/-- One F64S tile (R54, R113). -/
def sumTile (sums : List (List SliceSum)) (acts wrows : List (List FNum)) (ea fw : List Int) : List (List SliceSum) :=
  acts.mapIdx (fun m a =>
    (sums.getD m zeroSumRow).mapIdx (fun n x =>
      let d := sliceDot a (column wrows n) (ea.getD m 0) (fw.getD n 0)
      ⟨x.t + d.t, x.nan || d.nan⟩))

/-- Does any element of a tile break its exponent (F64S_RANGE, R113)? -/
def rangeBroken (acts wrows : List (List FNum)) (ea fw : List Int) : Bool :=
  (acts.mapIdx (fun m a => a.any (fun x => outOfRange x (ea.getD m 0)))).any id
  || wrows.any (fun r => (r.mapIdx (fun n x => outOfRange x (fw.getD n 0))).any id)

/-- The errors of the tensor core that reach step level by name (R83, R90, R101, R109, R113, R116, R123). -/
inductive CoreErr where
  | meChainShape
  | f64sRange
  | gatherTimeout
  | veTileForm
  deriving DecidableEq, Repr

/-- An i16 array read from scratch (R112). -/
def readI16s (s : Cells) (a n : Nat) : List Int := (List.range n).map (fun i => sext 16 (readN s (sAddr (a + 2 * i)) 2))

/-- Does a START = 0 command break its chain (R109)? -/
def chainBroken (c : Core) (p : MulP) : Bool :=
  match (c.set p.set).chain with
  | none => true
  | some ch =>
    ch.m != p.m || ch.mode != p.mode || ch.short
    || (p.mode == .f64s && (ch.expA, ch.expW) != c.meexp.getD (0, 0))

/-- Open a chain on a set (R108, R113). -/
def openChain (c : Core) (p : MulP) : Core :=
  let ex := c.meexp.getD (0, 0)
  let f := p.mode == .f64s
  c.putSet p.set
    { chain := some
        { mode := p.mode, m := p.m, k := 0, short := false
          expA := if f then ex.1 else 0, expW := if f then ex.2 else 0
          ea := if f then readI16s c.scratch ex.1 p.m else []
          fw := if f then readI16s c.scratch ex.2 64 else [] }
      acc := if f then [] else List.replicate p.m zeroAccRow
      sums := if f then List.replicate p.m zeroSumRow else [] }

/-- One tile of a multiply: the head latch half meets every activation row (R99, R105, R106). -/
def mulTile (c : Core) (p : MulP) (j : Nat) (tile : List Byte) : Core × Option CoreErr :=
  let used := if j + 1 = p.t then p.klast else ktOf p.fa
  let pc := pieceOf c p j
  let acts := (List.range p.m).map (fun m => actRow c p pc m used)
  let wrows := (List.range used).map (tileRow p.fw p.sw tile)
  let st := c.set p.set
  let ch := st.chain.getD ⟨p.mode, p.m, 0, false, 0, 0, [], []⟩
  let ch' := { ch with k := ch.k + used, short := used < ktOf p.fa }
  if p.mode = .f64s then
    if rangeBroken acts wrows ch.ea ch.fw then (c, some .f64sRange)
    else
      ({ (c.putSet p.set { st with chain := some ch', sums := sumTile st.sums acts wrows ch.ea ch.fw }) with
          latch := c.latch.drop 1 }, none)
  else
    ({ (c.putSet p.set { st with chain := some ch', acc := accTile st.acc acts wrows }) with
        latch := c.latch.drop 1 }, none)

/-- Tile `u` of an emission in FP32 or PAIR form (R110, R111). -/
def emitTile (p : MulP) (st : AccSet) (u : Nat) : Tile :=
  let row (f : Acc → Nat) (i : Nat) : List Nat :=
    if 64 * u + i < p.m then (st.acc.getD (64 * u + i) zeroAccRow).map f else List.replicate 64 0
  { toDm := p.toDm, form := if p.mode = .pair then .pair else .fp32
    hi := (List.range 64).map (row Acc.toFp32)
    lo := if p.mode = .pair then (List.range 64).map (row (fun a => (pairOf 1 a.value).2)) else [] }

/-- The result pair of a slice sum (R54, R55). -/
def slicePair (x : SliceSum) (ea fw : Int) : Nat × Nat :=
  if x.nan then (canonNan 0, canonNan 0) else pairOf 0 (FNum.mk x.t (ea + fw - 110))

/-- The tile of an F64S emission (R54, R110). -/
def emitSlices (p : MulP) (st : AccSet) : Tile :=
  let ch := st.chain.getD ⟨p.mode, p.m, 0, false, 0, 0, [], []⟩
  let row (f : Nat × Nat → Nat) (i : Nat) : List Nat :=
    if i < p.m then
      (st.sums.getD i zeroSumRow).mapIdx (fun n x => f (slicePair x (ch.ea.getD i 0) (ch.fw.getD n 0)))
    else List.replicate 64 0
  { toDm := p.toDm, form := .f64s, hi := (List.range 64).map (row Prod.fst), lo := (List.range 64).map (row Prod.snd) }

/-- The tiles that a finished command with EMIT = 1 delivers, in order (R111). -/
def emitTiles (p : MulP) (st : AccSet) : List Tile :=
  if p.mode = .f64s then [emitSlices p st] else (List.range (ceilDiv p.m 64)).map (emitTile p st)

/-- The outcome of running an engine command as far as its conditions allow: still at the queue head, retired, or
stopped by an error. -/
inductive Run where
  | stay (c : Core) (cmd : EngCmd)
  | done (c : Core)
  | err (e : CoreErr) (c : Core) (cmd : EngCmd)
  deriving DecidableEq, Repr

/-- Take the tiles of a started MEMUL one by one while the latch and the piece flags allow (R99, R115). -/
def mulLoop : Nat → Core → EngCmd → MulP → Nat → Run
  | 0, c, cmd, _, j => .stay c { cmd with prog := .part j }
  | n + 1, c, cmd, p, j =>
    if j < p.t then
      match c.latch with
      | [] => .stay c { cmd with prog := .part j }
      | tile :: _ =>
        if pieceReady c p j then
          match mulTile c p j tile with
          | (c', none) => mulLoop n c' cmd p (j + 1)
          | (c', some e) => .err e c' { cmd with prog := .stopped }
        else .stay c { cmd with prog := .part j }
    else if p.emit then
      let st := c.set p.set
      .stay { (c.putSet p.set { st with chain := none }) with
                emits := c.emits ++ [{ set := p.set, tiles := emitTiles p st }] } { cmd with prog := .emitting }
    else .done c

/-- Run a MEMUL (R106, R108 to R111), with `lim` up to the tile of that number. -/
def mulRun (c : Core) (cmd : EngCmd) (lim : Option Nat) : Run :=
  let p := mulOf cmd
  let fuel (j : Nat) : Nat := match lim with
    | some n => min n p.t - j
    | none => p.t + 1
  match cmd.prog with
  | .fresh =>
    if c.emits.any (fun e => e.set == p.set) then .stay c cmd
    else if p.start then mulLoop (fuel 0) (openChain c p) cmd p 0
    else if chainBroken c p then .err .meChainShape c { cmd with prog := .stopped }
    else mulLoop (fuel 0) c cmd p 0
  | .part j => mulLoop (fuel j) c cmd p j
  | _ => .stay c cmd

/-- The exponent that a scan writes for a set of elements (R112). -/
def scanExp (xs : List FNum) : Int := if xs.any (fun x => !x.isFin) then 32767 else f64sExponent xs

/-- MESCANR (R112): the row exponents of M rows of K binary64 elements. -/
def scanRows (c : Core) (cmd : EngCmd) : Core :=
  let w := cmd.word
  let k := bits 28 16 w + 1
  let out := ixAdd (bits 47 40 w) cmd.cnt (bits 110 88 w)
  let base := ixAdd (bits 39 32 w) cmd.cnt (bits 70 48 w)
  let stride := 64 * bits 87 71 w
  { c with scratch := (List.range (bits 13 8 w + 1)).foldl (fun s i =>
      let row := (List.range k).map (fun j => decode 0 (readN c.scratch (sAddr (base + i * stride + 8 * j)) 8))
      writeN s (sAddr (out + 2 * i)) 2 (wrap 16 (scanExp row))) c.scratch }

/-- The greater of two magnitudes, a NaN or an infinity marking the column for good (R112). -/
def colMax (a b : FNum) : FNum :=
  if !a.isFin || !b.isFin then .nan else if a.abs.lt b.abs then b.abs else a.abs

/-- MESCANC (R112): consume latch tiles one by one, then write the 64 column exponents. -/
def scanColsLoop : Nat → Core → EngCmd → Nat → Run
  | 0, c, cmd, j => .stay c { cmd with prog := .part j }
  | n + 1, c, cmd, j =>
    if j < bits 17 8 cmd.word + 1 then
      match c.latch with
      | [] => .stay c { cmd with prog := .part j }
      | tile :: rest =>
        let rows := (List.range 8).map (tileRow 0 false tile)
        let old := if cmd.colmax.isEmpty then List.replicate 64 (.zero false) else cmd.colmax
        let new := old.mapIdx (fun i x => (column rows i).foldl colMax x)
        scanColsLoop n { c with latch := rest } { cmd with colmax := new } (j + 1)
    else
      let out := ixAdd (bits 31 24 cmd.word) cmd.cnt (bits 54 32 cmd.word)
      .done { c with scratch := (List.range 64).foldl (fun s i =>
        writeN s (sAddr (out + 2 * i)) 2 (wrap 16 (scanExp [cmd.colmax.getD i (.zero false)]))) c.scratch }

/-- Run a MESCANC. -/
def scanCols (c : Core) (cmd : EngCmd) : Run :=
  match cmd.prog with
  | .part j => scanColsLoop (bits 17 8 cmd.word + 2) c cmd j
  | .fresh => scanColsLoop (bits 17 8 cmd.word + 2) c cmd 0
  | _ => .stay c cmd

/-- Vestibule slots in use (R81). -/
def vestUsed (v : List Tile) : Nat := (v.map (fun t => t.form.slots)).sum

end Sys2Proof.Machine
end

