-- ==== Sys2Proof/Machine/Vector.lean ====
section
/-!
DEFINITION. The vector engine's pass over one chain descriptor (05_vector_engine.md R119 to R143, 06_brynno_commands.md
R164, Table 6.15): streams, constant rows, stages, the destination, maintenance ops.
-/
namespace Sys2Proof.Machine

/-- A scratch stream: format, I32 mark, MX mark, base, stride, scale base, scale stride (Table 5.1). -/
structure Stream where
  fmt : Nat
  i32 : Bool
  mx : Bool
  base : Nat
  stride : Nat
  sbase : Nat
  sstride : Nat
  deriving DecidableEq, Repr

/-- A chain descriptor at its dispatch: the head of Table 6.15 with its effective addresses, and its stage words. -/
structure VeChain where
  vest : Bool
  count : Nat
  x : Stream
  y : Option Stream
  dst : Nat
  dstStride : Nat
  ds : Nat
  dsStride : Nat
  elemBase : Nat
  stages : List Nat
  deriving DecidableEq, Repr

/-- Read a chain descriptor (Table 6.15) under the IX bytes of a VECHAIN word (Table 6.14). -/
def veChainOf (cmd : EngCmd) : VeChain :=
  let w := cmd.word
  let h := packNat 128 (cmd.desc.take 3)
  let ix (hi lo v : Nat) : Nat := ixAdd (bits hi lo w) cmd.cnt v
  { vest := bitAt 12 h
    count := bits 25 14 h + 1
    x := { fmt := bits 29 26 h, i32 := bitAt 30 h, mx := bitAt 31 h, base := ix 31 24 (bits 86 64 h)
           stride := 64 * bits 103 87 h, sbase := ix 39 32 (bits 278 256 h), sstride := bits 301 279 h }
    y := if bitAt 13 h then
           some { fmt := bits 35 32 h, i32 := bitAt 36 h, mx := bitAt 37 h, base := ix 47 40 (bits 150 128 h)
                  stride := 64 * bits 167 151 h, sbase := ix 55 48 (bits 324 302 h), sstride := bits 347 325 h }
         else none
    dst := ix 63 56 (bits 190 168 h)
    dstStride := 64 * bits 207 191 h
    ds := ix 71 64 (bits 126 104 h)
    dsStride := bits 60 38 h
    elemBase := ix 79 72 (bits 255 224 h) % 2 ^ 32
    stages := (cmd.desc.drop 3).take (bits 11 8 h) }

/-- The OP, FMT, RND, MX and STREAM fields of a stage word (Table 5.2). -/
def stOp (w : Nat) : Nat := bits 63 58 w
def stFmt (w : Nat) : Nat := bits 57 54 w
def stRnd (w : Nat) : Nat := bits 53 52 w
def stSrcB (w : Nat) : Nat := bits 51 50 w
def stSrcC (w : Nat) : Nat := bits 49 48 w
def stMx (w : Nat) : Bool := bitAt 47 w
def stStream (w : Nat) : Nat := bits 15 0 w

/-- Row `r` of a stream: 64 lanes with the I32 mark (R122). -/
def streamRow (s : Cells) (x : Stream) (r : Nat) : List Nat × Bool :=
  let a := x.base + r * x.stride
  if x.i32 || x.fmt ≤ 1 then (unpackNat 32 64 (readN s (sAddr a) 256), x.i32)
  else
    let raw := unpackRow x.fmt 64 (readBytes s (sAddr a) (rowBytes x.fmt 64))
    (raw.mapIdx (fun i n =>
      widenTo 1 (decodeMx x.fmt
        (if x.mx then some (readByte s (sAddr (x.sbase + r * x.sstride + i / 32))).toNat else none) n)), false)

/-- The constant rows that the stages name, B then C of each stage, read once at the start of the pass (Table 5.2). -/
def constRows (s : Cells) (stages : List Nat) : List (List Nat) :=
  stages.flatMap (fun w =>
    [if stSrcB w = 1 then unpackNat 32 64 (readN s (sAddr (bits 86 64 w)) 256) else [],
     if stSrcC w = 1 then unpackNat 32 64 (readN s (sAddr (bits 118 96 w)) 256) else []])

/-- The immediate, constant-row or stream operand of a lane. -/
def operandLane (src imm : Nat) (crow : List Nat) (y : List Nat × Bool) (isI : Bool) (i : Nat) : Nat × Bool :=
  match src with
  | 0 => (imm, isI)
  | 1 => (crow.getD i 0, isI)
  | _ => (y.1.getD i 0, y.2)

/-- Ops whose immediate or constant-row B is taken as I32 (Table 5.3, R126). -/
def bIsI32 (op : Nat) : Bool := (0x20 ≤ op && op ≤ 0x26) || (0x28 ≤ op && op ≤ 0x2A)

/-- What flows between the stages: 64 lanes with the I32 mark, narrow elements with scales, or binary64 values. -/
inductive VeRow where
  | lanes (v : List Nat) (i32 : Bool)
  | narrow (code : Nat) (elems scales : List Nat)
  | wide (v : List Nat)
  deriving DecidableEq, Repr

/-- The FP32 or I32 lanes a later stage reads. -/
def VeRow.asLanes : VeRow → List Nat × Bool
  | .lanes v i => (v, i)
  | .narrow c e s => (veCvtnPass c (e, s), false)
  | .wide v => (v, false)

/-- The rounding mode of a stage in lane `i`: nearest even, or a draw of element `e + i` (R121, R136). -/
def stageMode (draw : Nat → Nat → Nat) (w e i : Nat) : Narrow :=
  if stRnd w = 0 then .nearest else .draw (draw (stStream w) (e + i))

/-- One stage over one row (R119, R126, R135, R138, R140). -/
def veStage (draw : Nat → Nat → Nat) (w e : Nat) (cb cc : List Nat) (a : VeRow) (y : List Nat × Bool) : VeRow :=
  let op := stOp w
  let av := a.asLanes
  match op with
  | 0x30 =>
    let r := veCvtn (stFmt w) (stMx w) (av.1.mapIdx (fun i n => (veVal n, stageMode draw w e i)))
    .narrow (stFmt w) r.1 r.2
  | 0x33 => .wide (av.1.mapIdx (fun i n => vePadd64 n (y.1.getD i 0)))
  | 0x38 => .lanes ((List.range 64).map (fun i => av.1.getD (cb.getD i 0 % 64) 0)) av.2
  | 0x39 => .lanes ((List.range 64).map (fun i => av.1.getD (Nat.xor i (bits 69 64 w)) 0)) av.2
  | _ =>
    let r := (List.range 64).map (fun i =>
      let b := operandLane (stSrcB w) (bits 95 64 w) cb y (bIsI32 op) i
      let c := operandLane (stSrcC w) (bits 127 96 w) cc y false i
      veOp op (stageMode draw w e i) (av.1.getD i 0) av.2 b.1 b.2 c.1)
    .lanes (r.map Prod.fst) ((r.getD 0 (0, false)).2)

/-- The stages of a chain in order. -/
def veStages (draw : Nat → Nat → Nat) (e : Nat) (y : List Nat × Bool) : List Nat → List (List Nat) → VeRow → VeRow
  | [], _, a => a
  | w :: ws, k, a => veStages draw e y ws (k.drop 2) (veStage draw w e (k.getD 0 []) (k.getD 1 []) a y)

/-- The bytes and scale bytes that a pass writes for a row (R124, R125). -/
def veOut (fmtFp32 : Bool) (r : VeRow) : List Byte × List Byte :=
  match r with
  | .lanes v i => (leBytes 256 (packNat 32 (if i || !fmtFp32 then v else v.map veDeliver)), [])
  | .narrow c e s => (packRow c e, s.map (BitVec.ofNat 8))
  | .wide v => (leBytes 512 (packNat 64 v), [])

/-- Write output row `r` (R124). -/
def veWrite (s : Cells) (ch : VeChain) (r : Nat) (o : List Byte × List Byte) : Cells :=
  let s1 := writeBytes s (sAddr (ch.dst + r * ch.dstStride)) o.1
  if o.2.isEmpty then s1 else writeBytes s1 (sAddr (ch.ds + r * ch.dsStride)) o.2

/-- PACK and UNPACK over one row (Table 5.7). -/
def vePack (s : Cells) (ch : VeChain) (w r : Nat) : Cells :=
  let n := packWidth (stFmt w)
  if stOp w = 0x3A then
    writeBytes s (sAddr (ch.dst + r * ch.dstStride))
      (leBytes (8 * n) (packNat n (streamRow s ch.x r).1))
  else
    writeBytes s (sAddr (ch.dst + r * ch.dstStride))
      (leBytes 256 (packNat 32 (unpackNat n 64 (readN s (sAddr (ch.x.base + r * ch.x.stride)) (8 * n)))))

/-- Row `r` of a scratch pass. -/
def veScratchRow (draw : Nat → Nat → Nat) (s : Cells) (ch : VeChain) (k : List (List Nat)) (r : Nat) : Cells :=
  match ch.stages with
  | [w] =>
    if stOp w = 0x3A ∨ stOp w = 0x3B then vePack s ch w r
    else
      let x := streamRow s ch.x r
      let y := match ch.y with | some st => streamRow s st r | none => ([], false)
      veWrite s ch r (veOut true (veStages draw (ch.elemBase + 64 * r) y ch.stages k (.lanes x.1 x.2)))
  | _ =>
    let x := streamRow s ch.x r
    let y := match ch.y with | some st => streamRow s st r | none => ([], false)
    veWrite s ch r (veOut true (veStages draw (ch.elemBase + 64 * r) y ch.stages k (.lanes x.1 x.2)))

/-- Rows `r` to `n - 1` of a scratch pass, each row read before it is written (R124). -/
def veScratchRows (draw : Nat → Nat → Nat) (ch : VeChain) (k : List (List Nat)) : Nat → Nat → Cells → Cells
  | 0, _, s => s
  | n + 1, r, s => veScratchRows draw ch k n (r + 1) (veScratchRow draw s ch k r)

/-- May a tile of this form feed the chain (R123)? -/
def tileFits (ch : VeChain) (t : TileForm) : Bool :=
  match t with
  | .fp32 => ch.stages.all (fun w => stOp w != 0x33)
  | .pair => ch.y.isNone && (ch.stages.isEmpty || ch.stages.map stOp == [0x33])
  | .f64s => ch.stages.isEmpty

/-- The rows that tile `u` of a pass writes (R123, R125). -/
def veTile (draw : Nat → Nat → Nat) (ch : VeChain) (k : List (List Nat)) (u rows : Nat) (t : Tile) (s : Cells) : Cells :=
  match t.form with
  | .fp32 =>
    (List.range rows).foldl (fun s i =>
      let r := 64 * u + i
      let y := match ch.y with | some st => streamRow s st r | none => ([], false)
      veWrite s ch r (veOut true
        (veStages draw (ch.elemBase + 64 * r) y ch.stages k (.lanes (t.hi.getD i []) false)))) s
  | .pair =>
    if ch.stages.isEmpty then
      (List.range (2 * rows)).foldl (fun s i =>
        let row := if i < rows then t.hi.getD i [] else t.lo.getD (i - rows) []
        writeBytes s (sAddr (ch.dst + (128 * u + i) * ch.dstStride)) (leBytes 256 (packNat 32 (row.map veDeliver)))) s
    else
      (List.range rows).foldl (fun s i =>
        let r := 64 * u + i
        veWrite s ch r (veOut true
          (veStages draw (ch.elemBase + 64 * r) (t.lo.getD i [], false) ch.stages k
            (.lanes (t.hi.getD i []) false)))) s
  | .f64s =>
    (List.range (2 * rows)).foldl (fun s i =>
      let row := if i < rows then t.hi.getD i [] else t.lo.getD (i - rows) []
      writeBytes s (sAddr (ch.dst + (128 * u + i) * ch.dstStride)) (leBytes 512 (packNat 64 row))) s

/-- Generator draws of one row of a chain (R136). -/
def drawsPerRow (ch : VeChain) : Nat := 64 * (ch.stages.filter (fun w => stRnd w == 1)).length

/-- Is the chain a maintenance pass (R140)? -/
def isMaint (ch : VeChain) : Bool := ch.stages.any (fun w => 0x38 ≤ stOp w && stOp w ≤ 0x3B)

/-- Count the draws and maintenance passes of work just done. -/
def countVe (c : Core) (draws maint : Nat) : Core :=
  { c with stats := { c.stats with draws := satAdd 64 c.stats.draws draws
                                   maintPasses := satAdd 32 c.stats.maintPasses maint } }

/-- Consume visible tiles addressed to the VE while there are any (R82, R123). -/
def veTiles (draw : Nat → Nat → Nat) (ch : VeChain) : Nat → Core → EngCmd → Nat → Run
  | 0, c, cmd, u => .stay c { cmd with prog := .part u }
  | n + 1, c, cmd, u =>
    if u < ch.count then
      match c.vest with
      | [] => .stay c { cmd with prog := .part u }
      | t :: rest =>
        if t.toDm then .stay c { cmd with prog := .part u }
        else if tileFits ch t.form then
          veTiles draw ch n
            (countVe { c with vest := rest, scratch := veTile draw ch cmd.held u 64 t c.scratch }
              (64 * drawsPerRow ch) 0) cmd (u + 1)
        else .err .veTileForm c { cmd with prog := .stopped }
    else .done c

/-- Run a VECHAIN; `stop` is the row at which a parity error is found (R143): rows before it stay written. -/
def chainRun (draw : Nat → Nat → Nat) (c : Core) (cmd : EngCmd) (stop : Option Nat) : Run :=
  let ch := veChainOf cmd
  let rows := ch.count
  match cmd.prog with
  | .fresh =>
    let cmd' := { cmd with held := constRows c.scratch ch.stages }
    if ch.vest then
      if c.vest.isEmpty then .stay c cmd else veTiles draw ch (ch.count + 1) c cmd' 0
    else
      let n := match stop with | some r => min r rows | none => rows
      .done (countVe { c with scratch := veScratchRows draw ch cmd'.held n 0 c.scratch }
        (n * drawsPerRow ch) (if isMaint ch then 1 else 0))
  | .part u => veTiles draw ch (ch.count + 1) c cmd u
  | _ => .stay c cmd

end Sys2Proof.Machine
end

