-- ==== Sys2Proof/Machine/Image.lean ====
section
/-!
DEFINITION. The Brynno container, its sections and the loader's checks of each section (06_brynno_commands.md R144 to
R171, R496; 08 R208, R209; 10 R253, R255; 14 R328).
-/
namespace Sys2Proof.Machine

/-- A rejection (Tables 6.20, 6.21): code, section table index, byte offset, dictionary entry. -/
structure Rej where
  code : Nat
  sect : Nat := 0xFFFF
  off : Nat := 0
  entry : Nat := 0
  deriving DecidableEq, Repr

/-- The codes of Table 6.20 by name. -/
def rjHeader : Nat := 1
def rjDigest : Nat := 2
def rjSection : Nat := 3
def rjReserved : Nat := 4
def rjFamily : Nat := 5
def rjCapacity : Nat := 6
def rjRoleSize : Nat := 7
def rjRoleSchedule : Nat := 8
def rjOperand : Nat := 9
def rjScratch : Nat := 10
def rjRegion : Nat := 11
def rjBalance : Nat := 12
def rjPacing : Nat := 13
def rjLoop : Nat := 14
def rjIndex : Nat := 15
def rjGang : Nat := 16
def rjTimetable : Nat := 17
def rjConversion : Nat := 18
def rjLinkage : Nat := 19
def rjHost : Nat := 20
def rjFormat : Nat := 21
def rjStochastic : Nat := 22
def rjOverlap : Nat := 23

/-- Reject unless a condition holds. -/
def need (b : Bool) (r : Rej) : Except Rej Unit := if b then .ok () else .error r

/-- Check every element of a list, with its index, in order. -/
def allIdx {α : Type} (f : Nat → α → Except Rej Unit) : Nat → List α → Except Rej Unit
  | _, [] => .ok ()
  | i, x :: xs =>
    match f i x with
    | .error e => .error e
    | .ok _ => allIdx f (i + 1) xs

/-- One check after another. -/
def andThen (a b : Except Rej Unit) : Except Rej Unit :=
  match a with
  | .error e => .error e
  | .ok _ => b

/-- A list of checks in order. -/
def allChecks : List (Except Rej Unit) → Except Rej Unit
  | [] => .ok ()
  | c :: cs => andThen c (allChecks cs)

/-- A section table entry (Table 6.2) with its bytes. -/
structure Section where
  ty : Nat
  inst : Nat
  off : Nat
  len : Nat
  bytes : List Byte
  deriving DecidableEq, Repr

/-- A role (R154): identifier, header counts, pacing declarations, command and descriptor words, the section table
index and the image offset of its first command word. -/
structure Role where
  id : Nat
  latchIn : Nat
  latchOut : Nat
  vestIn : Nat
  vestOut : Nat
  pace : List Nat
  cmds : List Nat
  descs : List Nat
  sect : Nat
  cmdOff : Nat
  deriving DecidableEq, Repr

/-- A role map entry (Table 6.6). -/
structure RoleMap where
  lo : Nat
  hi : Nat
  core : Nat
  entry : Nat
  deriving DecidableEq, Repr

/-- A gang entry (Table 6.7). -/
structure Gang where
  lo : Nat
  hi : Nat
  gang : Nat
  die : Nat
  dgang : Nat
  cores : Nat
  deriving DecidableEq, Repr

/-- A timetable entry (Table 6.19). -/
structure TtEntry where
  offset : Nat
  lo : Nat
  hi : Nat
  srcCore : Nat
  dstCore : Nat
  rank : Nat
  rel : Bool
  src : Nat
  dst : Nat
  len : Nat
  flag : Nat
  flagEn : Bool
  cnt : Nat
  cntEn : Bool
  arm : Bool
  repoch : Nat
  deriving DecidableEq, Repr

/-- A parsed image (R144). -/
structure Image where
  ranks : Nat
  commitUs : Nat
  flyUs : Nat
  periodUs : Nat
  digest : List Byte
  sections : List Section
  regions : List Region
  roles : List Role
  rolemap : List RoleMap
  gangs : List Gang
  wlayout : List Nat
  timetable : List TtEntry
  conv : List Nat
  scheds : List (List Byte)
  deriving DecidableEq, Repr

/-- Fixed-size entries of a counted section (R496). -/
def entriesOf (b : List Byte) (size : Nat) : List Nat := wordsOf size (fieldAt b 0 4) (b.drop 16)

/-- The sections of a type. -/
def sectionsOf (ss : List Section) (ty : Nat) : List Section := ss.filter (fun s => s.ty == ty)

/-- The bytes of the first section of a type. -/
def sectionBytes (ss : List Section) (ty : Nat) : List Byte := ((sectionsOf ss ty).map Section.bytes).headD []

/-- Read a region entry (Table 6.5). -/
def regionOf (n : Nat) : Region :=
  { id := bits 7 0 n, kind := (kindOf (bits 15 8 n)).getD .work, isLocal := bitAt 16 n, die := bits 19 17 n
    size := bits 127 64 n, const := bits 143 128 n, constOff := bits 255 192 n }

/-- Read a role map entry (Table 6.6). -/
def roleMapOf (n : Nat) : RoleMap := ⟨bits 15 0 n, bits 31 16 n, bits 39 32 n, bits 63 48 n⟩

/-- Read a gang entry (Table 6.7). -/
def gangOf (n : Nat) : Gang := ⟨bits 15 0 n, bits 31 16 n, bits 39 32 n, bits 47 40 n, bits 55 48 n, bits 95 64 n⟩

/-- Read a timetable entry (Table 6.19). -/
def ttOf (n : Nat) : TtEntry :=
  { offset := bits 31 0 n, lo := bits 47 32 n, hi := bits 63 48 n, srcCore := bits 71 64 n, dstCore := bits 79 72 n
    rank := bits 88 80 n, rel := bitAt 89 n, src := bits 118 96 n, dst := bits 150 128 n, len := bits 179 160 n + 1
    flag := bits 201 192 n, flagEn := bitAt 202 n, cnt := bits 205 203 n, cntEn := bitAt 206 n, arm := bitAt 207 n
    repoch := bits 223 208 n }

/-- Offset of the first command word in a ROLE section with NPACE pacing declarations (R154). -/
def roleCmdOff (npace : Nat) : Nat := roundUp (32 + 4 * npace) 16

/-- Read a ROLE section (Table 6.9). -/
def roleOf (idx : Nat) (s : Section) : Role :=
  let h := leNat (s.bytes.take 32)
  let np := bits 207 192 h
  let o := roleCmdOff np
  { id := bits 15 0 h, latchIn := bits 95 64 h, latchOut := bits 127 96 h, vestIn := bits 159 128 h
    vestOut := bits 191 160 h, pace := wordsOf 4 np (s.bytes.drop 32), cmds := wordsOf 16 (bits 47 32 h) (s.bytes.drop o)
    descs := wordsOf 16 (bits 63 48 h) (s.bytes.drop (o + 16 * bits 47 32 h)), sect := idx, cmdOff := s.off + o }

/-- Read the section table (Table 6.2). -/
def sectionTable (img : List Byte) (n : Nat) : List Section :=
  (wordsOf 24 n (img.drop 64)).map (fun e =>
    { ty := bits 15 0 e, inst := bits 31 16 e, off := bits 127 64 e, len := bits 191 128 e
      bytes := slice img (bits 127 64 e) (bits 191 128 e) })

/-- The byte strings of the schedules of a LINKAGE section (R170). -/
def schedulesOf (b : List Byte) : List (List Byte) :=
  (wordsOf 8 (fieldAt b 0 4) (b.drop 16)).map (fun o =>
    let t := b.drop o
    let h := leNat (t.take 64)
    t.take (scheduleBytes (bits 223 192 h) (bits 255 224 h) (bits 319 288 h)))

/-- Parse an image whose header and table are already known to be sound. -/
def parseImage (img : List Byte) : Image :=
  let h := leNat (img.take 64)
  let ss := sectionTable img (bits 95 64 h)
  { ranks := bits 207 192 h, commitUs := bits 255 224 h, flyUs := bits 287 256 h, periodUs := bits 319 288 h
    digest := img.drop (img.length - 64), sections := ss
    regions := (entriesOf (sectionBytes ss 2) 32).map regionOf
    roles := (ss.mapIdx (fun i s => if s.ty = 5 then [roleOf i s] else [])).flatten
    rolemap := (entriesOf (sectionBytes ss 3) 8).map roleMapOf
    gangs := (entriesOf (sectionBytes ss 4) 12).map gangOf
    wlayout := entriesOf (sectionBytes ss 7) 32
    timetable := (entriesOf (sectionBytes ss 8) 32).map ttOf
    conv := entriesOf (sectionBytes ss 9) 64
    scheds := schedulesOf (sectionBytes ss 10) }

/-- A region by its number. -/
def Image.region (im : Image) (id : Nat) : Option Region := im.regions.find? (fun r => r.id == id)

/-- A role by its identifier. -/
def Image.role (im : Image) (id : Nat) : Option Role := im.roles.find? (fun r => r.id == id)

/-- A CONST section by its instance. -/
def Image.constSect (im : Image) (inst : Nat) : Option (List Byte) :=
  (im.sections.find? (fun s => s.ty == 6 && s.inst == inst)).map Section.bytes

/-! ### Bit ranges and format codes -/

/-- Are all bits outside the given ranges zero? -/
def onlyBits (u : List (Nat × Nat)) (w : Nat) : Bool := (u.map (fun p => bits p.1 p.2 w * 2 ^ p.2)).sum == w

/-- Are all the named ranges zero? -/
def zeroBits (u : List (Nat × Nat)) (w : Nat) : Bool := u.all (fun p => bits p.1 p.2 w == 0)

/-- The number of the lowest byte that is not zero, among the first 64. -/
def lowByte (w : Nat) : Nat := ((List.range 64).find? (fun k => w / 256 ^ k % 256 != 0)).getD 0

/-- A rejection moved `k` bytes on. -/
def Rej.at (r : Rej) (k : Nat) : Rej := { r with off := r.off + k }

/-- Reject reserved ranges that are not zero, at the byte of the lowest bit that is set (R147, Table 6.21). -/
def needZero (u : List (Nat × Nat)) (w : Nat) (r : Rej) : Except Rej Unit :=
  need (zeroBits u w) (r.at (lowByte ((u.map (fun p => bits p.1 p.2 w * 2 ^ p.2)).sum)))

/-- Reject bits outside the used ranges, at the byte of the lowest one that is set (R147, Table 6.21). -/
def needOnly (u : List (Nat × Nat)) (w : Nat) (r : Rej) : Except Rej Unit :=
  need (onlyBits u w) (r.at (lowByte (w - (u.map (fun p => bits p.1 p.2 w * 2 ^ p.2)).sum)))

/-- The checks of a format code at byte `k` of a word: reserved codes (R34), then FX64 (R37). -/
def needFmt (c k : Nat) (e : Nat → Rej) : Except Rej Unit :=
  andThen (need (c ≤ 10) ((e rjReserved).at k)) (need (c != 10) ((e rjFormat).at k))

/-! ### The header and the section table -/

/-- The header's checks (R144, R146); `pitchRanks` is the pitch's rank count. -/
def checkHeader (img : List Byte) (pitchRanks : Nat) : Except Rej Unit :=
  let h := leNat (img.take 64)
  allChecks
    [need (128 ≤ img.length && bits 31 0 h == 0x4E595242) ⟨rjHeader, 0xFFFF, 0, 0⟩,
     need (bits 47 32 h == 1) ⟨rjHeader, 0xFFFF, 4, 0⟩,
     need (bits 63 48 h == 0) ⟨rjHeader, 0xFFFF, 6, 0⟩,
     need (1 ≤ bits 95 64 h && bits 95 64 h ≤ 4096) ⟨rjHeader, 0xFFFF, 8, 0⟩,
     needZero [(127, 96)] h ⟨rjReserved, 0xFFFF, 0, 0⟩,
     need (bits 191 128 h == img.length && img.length % 16 == 0 && img.length ≤ 68719476736) ⟨rjHeader, 0xFFFF, 16, 0⟩,
     need (1 ≤ bits 207 192 h && bits 207 192 h ≤ 512 && bits 207 192 h == pitchRanks) ⟨rjHeader, 0xFFFF, 24, 0⟩,
     needZero [(223, 208)] h ⟨rjReserved, 0xFFFF, 0, 0⟩,
     needZero [(511, 320)] h ⟨rjReserved, 0xFFFF, 0, 0⟩]

/-- The trailer's check (R145). -/
def checkTrailer (img pitchDigest : List Byte) : Except Rej Unit :=
  let t := img.drop (img.length - 64)
  need (shake512 (img.take (img.length - 64)) == t && t == pitchDigest) ⟨rjDigest, 0xFFFF, 0, 0⟩

/-- Types of which there is at most one section (Table 6.3). -/
def singleType (ty : Nat) : Bool := ty ≤ 4 || 7 ≤ ty

/-- Do two sections overlap? -/
def sectsOverlap (a b : Section) : Bool := decide (a.off < b.off + b.len) && decide (b.off < a.off + a.len)

/-- The section table's checks (R146, Tables 6.2, 6.3). -/
def checkTable (img : List Byte) (ss : List Section) : Except Rej Unit :=
  let endT := 64 + 24 * ss.length
  allChecks
    [need (endT ≤ img.length - 64) ⟨rjSection, 0xFFFF, 64, 0⟩,
     allIdx (fun i s => allChecks
       [needZero [(63, 32)] (leNat (slice img (64 + 24 * i) 24)) ⟨rjReserved, i, 64 + 24 * i, 0⟩,
        need (1 ≤ s.ty && s.ty ≤ 10) ⟨rjSection, i, 64 + 24 * i, 0⟩,
        need (s.inst == 0 || s.ty == 5 || s.ty == 6) ⟨rjSection, i, 64 + 24 * i, 0⟩,
        need (s.ty != 5 || s.inst != 0xFFFF) ⟨rjSection, i, 64 + 24 * i, 0⟩,
        need (s.off % 16 == 0 && endT ≤ s.off && s.off + s.len ≤ img.length - 64) ⟨rjSection, i, 64 + 24 * i, 0⟩,
        need ((ss.take i).all (fun t => !sectsOverlap s t && !(t.ty == s.ty && (singleType s.ty || t.inst == s.inst))))
          ⟨rjSection, i, 64 + 24 * i, 0⟩]) 0 ss,
     need ([1, 2, 3, 5].all (fun t => ss.any (fun s => s.ty == t))) ⟨rjSection, 0xFFFF, 0, 0⟩]

/-! ### Command words -/

/-- The used bit ranges of an opcode (Tables 6.13, 6.14); `none` for a reserved opcode. -/
def usedBits (op : Nat) : Option (List (Nat × Nat)) :=
  match op with
  | 0x01 => some [(9, 0), (18, 16), (63, 32)]
  | 0x02 => some [(9, 0)]
  | 0x03 => some [(18, 0)]
  | 0x04 => some [(20, 0), (47, 32)]
  | 0x05 => some [(7, 0)]
  | 0x06 => some [(23, 0)]
  | 0x10 => some [(10, 0), (63, 32)]
  | 0x11 => some [(10, 0), (63, 32)]
  | 0x12 => some [(10, 0), (14, 12), (63, 32)]
  | 0x13 => some [(14, 0), (18, 16), (22, 20), (63, 32)]
  | 0x20 => some [(49, 0), (103, 56)]
  | 0x21 => some [(61, 0)]
  | 0x22 => some [(69, 0)]
  | 0x23 => some [(24, 0), (54, 32)]
  | 0x24 => some [(13, 0), (28, 16), (110, 32)]
  | 0x25 => some [(17, 0), (54, 24)]
  | 0x30 => some [(20, 0), (79, 24)]
  | 0x40 => some [(102, 0)]
  | 0x41 => some [(20, 0), (39, 24)]
  | 0x42 => some [(83, 0)]
  | 0x43 => some [(19, 0)]
  | 0x50 => some [(20, 0), (39, 24)]
  | 0x51 => some [(7, 0)]
  | 0x52 => some [(23, 0)]
  | 0x53 => some [(20, 0), (31, 24)]
  | _ => none

/-- Does an opcode belong to the ME queue, and so on (Table 6.12)? -/
def engineOf (w : Nat) : Option Engine :=
  match bits 7 0 w with
  | 0x01 => some (match bits 9 8 w with | 0 => .me | 1 => .ve | 2 => .dm | _ => .xe)
  | 0x20 => some .me | 0x21 => some .me | 0x22 => some .me | 0x23 => some .me | 0x24 => some .me | 0x25 => some .me
  | 0x30 => some .ve
  | 0x40 => some .dm | 0x41 => some .dm | 0x42 => some .dm | 0x43 => some .dm
  | 0x50 => some .xe | 0x51 => some .xe | 0x52 => some .xe | 0x53 => some .xe
  | _ => none

/-- The KIND that a command's descriptor must have, and its field (R163). -/
def descKind (op : Nat) : Option Nat :=
  match op with
  | 0x30 => some 0x80 | 0x41 => some 0x90 | 0x50 => some 0xA0 | 0x53 => some 0xB0 | _ => none

/-- Words of a descriptor that begins with word `d` (R163). -/
def descWords (d : Nat) : Nat :=
  match bits 7 0 d with
  | 0x80 => 3 + bits 11 8 d
  | 0xB0 => 3
  | _ => 2

/-- The descriptor words that a command word names, from a bank's or a role's descriptor words. -/
def descOf (descs : List Nat) (w : Nat) : List Nat :=
  match descKind (bits 7 0 w) with
  | some _ => let d := descs.drop (bits 20 8 w); d.take (descWords (d.headD 0))
  | none => []

/-- The IX bytes of a command word (Table 6.14). -/
def ixBytes (w : Nat) : List Nat :=
  match bits 7 0 w with
  | 0x20 => [bits 63 56 w]
  | 0x21 => [bits 15 8 w]
  | 0x22 => [bits 15 8 w, bits 23 16 w]
  | 0x23 => [bits 15 8 w]
  | 0x24 => [bits 39 32 w, bits 47 40 w]
  | 0x25 => [bits 31 24 w]
  | 0x30 => [bits 31 24 w, bits 39 32 w, bits 47 40 w, bits 55 48 w, bits 63 56 w, bits 71 64 w, bits 79 72 w]
  | 0x40 => [bits 31 24 w]
  | 0x41 => [bits 31 24 w, bits 39 32 w]
  | 0x42 => [bits 31 24 w]
  | 0x50 => [bits 31 24 w, bits 39 32 w]
  | 0x53 => [bits 31 24 w]
  | _ => []

/-- Format group of a code (Table 4.1). -/
def fmtGroup (c : Nat) : Nat :=
  match c with
  | 8 => 0 | 4 => 1 | 5 => 1 | 6 => 1 | 7 => 1 | 9 => 1 | 2 => 2 | 3 => 2 | 1 => 3 | 0 => 4 | _ => 5

/-- May an operand of a code carry MX scales (R98)? -/
def mxCode (c : Nat) : Bool := 4 ≤ c && c ≤ 9

/-- The checks of a MEMUL word that need no walk (R97, R103). -/
def checkMul (w : Nat) (e : Nat → Rej) : Except Rej Unit :=
  let fa := bits 11 8 w
  let fw := bits 15 12 w
  let p := mulOf ⟨w, [], List.replicate 8 0, 0, .fresh, 0, 0, [], []⟩
  let slice := bits 19 18 w == 2
  allChecks
    [needFmt fa 1 e, needFmt fw 1 e,
     need (bits 19 18 w != 3) ((e rjReserved).at 2),
     need ((fa != 0 && fw != 0) || slice) ((e rjFormat).at 1),
     need (fmtGroup fa == fmtGroup fw && (!slice || (fa == 0 && fw == 0))) (e rjOperand),
     need ((!p.sa || mxCode fa) && (!p.sw || mxCode fw) && (!slice || p.m ≤ 64) && p.klast ≤ ktOf fa) (e rjOperand),
     need (ceilDiv (p.t * tileRowBytes fa) 64 * 64 ≤ p.aStride && bits 86 64 w % 64 == 0) (e rjOperand)]

/-- Ops with a B operand. -/
def opHasB (op : Nat) : Bool :=
  (1 ≤ op && op ≤ 0x0C) || (0x20 ≤ op && op ≤ 0x26) || (0x28 ≤ op && op ≤ 0x2A)

/-- Ops of Table 5.3. -/
def opKnown (op : Nat) : Bool :=
  opHasB op || (0x10 ≤ op && op ≤ 0x14) || (0x30 ≤ op && op ≤ 0x33)

/-- Ops that take an I32 A operand; `none` where either type is taken. -/
def opAType (op : Nat) : Option Bool :=
  if (0x28 ≤ op && op ≤ 0x2A) then none else some ((0x20 ≤ op && op ≤ 0x26) || op == 0x32)

/-- Is the result of a stage I32, given the types of A and B? -/
def opResI32 (op : Nat) (a b : Bool) : Bool :=
  (7 ≤ op && op ≤ 0x0C) || (0x20 ≤ op && op ≤ 0x26) || op == 0x31 || ((0x28 ≤ op && op ≤ 0x2A) && a && b)

/-- The reserved and unused fields of a stage word (R121, R139). -/
def stageFieldsOk (w : Nat) : Bool :=
  let op := stOp w
  opKnown op && bits 46 16 w == 0 && stRnd w ≤ 1 && stSrcB w != 3 && stSrcC w != 3
  && (op == 0x30 || (stFmt w == 0 && !stMx w))
  && ((op == 0x30 || op == 0x31 || op == 0x32) || stRnd w == 0)
  && (stRnd w == 1 || stStream w == 0)
  && (opHasB op || (stSrcB w == 0 && bits 95 64 w == 0))
  && (op == 4 || (stSrcC w == 0 && bits 127 96 w == 0))
  && (stSrcB w != 2 || bits 95 64 w == 0) && (stSrcC w != 2 || bits 127 96 w == 0)

/-- The operand types along the stages (R126): `a` tells whether the incoming value is I32. -/
def stageTypesOk (yI32 : Option Bool) : Bool → List Nat → Bool
  | _, [] => true
  | a, w :: ws =>
    let op := stOp w
    let bI := if stSrcB w = 2 then yI32 else some (bIsI32 op)
    let bOk := !opHasB op || (match bI with
      | none => false
      | some t => (0x28 ≤ op && op ≤ 0x2A) || t == bIsI32 op)
    let cOk := op != 4 || stSrcC w != 2 || yI32 == some false
    (match opAType op with | none => true | some t => t == a) && bOk && cOk
    && stageTypesOk yI32 (opResI32 op a (bI.getD false)) ws

/-- The reserved fields of the stage words, each at its word (R121, R139). -/
def checkStageBits (ws : List Nat) (e : Nat → Rej) : Except Rej Unit :=
  allIdx (fun k w => andThen (needZero [(46, 16)] w ((e rjReserved).at (48 + 16 * k)))
    (andThen (need (opKnown (stOp w)) ((e rjReserved).at (55 + 16 * k)))
      (andThen (need (stRnd w ≤ 1 && stSrcB w != 3 && stSrcC w != 3) ((e rjReserved).at (54 + 16 * k)))
        (need (stageFieldsOk w) ((e rjReserved).at (48 + 16 * k)))))) 0 ws

/-- The checks of a VE chain descriptor that need no walk (R120, R121, R126, R136, R139, R164). -/
def checkChain (desc : List Nat) (e : Nat → Rej) : Except Rej Unit :=
  let h := packNat 128 (desc.take 3)
  let ch := veChainOf ⟨0, desc, List.replicate 8 0, 0, .fresh, 0, 0, [], []⟩
  let yOn := bitAt 13 h
  let rb (s : Stream) : Nat := if s.i32 then 256 else rowBytes s.fmt 64
  let fmtOk (s : Stream) : Bool := if s.i32 then s.fmt == 0 else 1 ≤ s.fmt && s.fmt ≤ 9
  let streamOk (s : Stream) : Bool := fmtOk s && (!s.mx || mxCode s.fmt) && rb s ≤ s.stride
  let lastW := ch.stages.getLastD 0
  let outRow := if ch.stages.isEmpty then 256
    else if stOp lastW = 0x30 then rowBytes (stFmt lastW) 64 else if stOp lastW = 0x33 then 512 else 256
  let mxOut := !ch.stages.isEmpty && stOp lastW == 0x30 && stMx lastW
  let streams := (ch.stages.filter (fun w => stRnd w == 1)).map stStream
  let isPadd := ch.stages.any (fun w => stOp w == 0x33)
  allChecks
    [needZero [(63, 61), (127, 127), (223, 208), (383, 348)] h (e rjReserved),
     need (bits 11 8 h ≤ 8) (e rjOperand),
     needFmt (bits 29 26 h) 3 e, needFmt (bits 35 32 h) 4 e,
     checkStageBits ch.stages e,
     allIdx (fun k w => needFmt (stFmt w) (54 + 16 * k) e) 0 ch.stages,
     need (if ch.vest then zeroBits [(31, 26), (103, 64), (278, 256), (301, 279)] h && ch.count ≤ 256
           else streamOk ch.x) (e rjOperand),
     need (match ch.y with
           | none => zeroBits [(37, 32), (167, 128), (324, 302), (347, 325)] h
           | some s => streamOk s && yOn) (e rjOperand),
     need (ch.stages.all (fun w => stOp w != 0x30 || (2 ≤ stFmt w && stFmt w ≤ 9 && (!stMx w || mxCode (stFmt w)))))
       (e rjOperand),
     need (outRow ≤ ch.dstStride && bits 190 168 h % 64 == 0 && bits 86 64 h % 64 == 0 && bits 150 128 h % 64 == 0)
       (e rjOperand),
     need (mxOut || (bits 126 104 h == 0 && bits 60 38 h == 0)) (e rjOperand),
     need (ch.stages.all (fun w => (stSrcB w != 1 || bits 95 64 w % 256 == 0) && (stSrcC w != 1 || bits 127 96 w % 256 == 0)))
       (e rjOperand),
     need (!isPadd || (ch.vest && ch.y.isNone && ch.stages.length == 1)) (e rjOperand),
     need (isPadd || stageTypesOk (ch.y.map Stream.i32) (!ch.vest && ch.x.i32) ch.stages) (e rjOperand),
     need ((streams.mapIdx (fun i s => (streams.drop (i + 1)).contains s)).all (fun b => !b)) (e rjStochastic)]

/-- The checks of a DM transfer descriptor that need no walk (R165, Table 6.16). -/
def checkXfer (desc : List Nat) (e : Nat → Rej) : Except Rej Unit :=
  let d := packNat 128 (desc.take 2)
  let dir := bits 10 8 d
  allChecks
    [needZero [(15, 11), (95, 84), (127, 112)] d (e rjReserved),
     need (dir != 7) ((e rjReserved).at 1),
     need (dir == 2 || zeroBits [(83, 53)] d) (e rjOperand),
     need ((dir == 0 || dir == 3 || bits 103 96 d == 0) && (dir == 1 || dir == 3 || dir == 5 || bits 111 104 d == 0))
       (e rjOperand),
     need ((dir != 5 && dir != 6)
           || (bits 31 16 d == 255 && (bits 47 32 d + 1) % 64 == 0)
           || (bits 31 16 d == 511 && (bits 47 32 d + 1) % 128 == 0)) (e rjOperand)]

/-- The checks of an exchange descriptor that need no walk (R166, Table 6.17). -/
def checkExch (ranks : Nat) (desc : List Nat) (e : Nat → Rej) : Except Rej Unit :=
  let d := packNat 128 (desc.take 2)
  allChecks
    [needZero [(31, 28), (63, 63), (127, 72), (159, 151), (191, 183), (255, 252)] d (e rjReserved),
     need (bits 9 8 d != 3) ((e rjReserved).at 1),
     need (bitAt 10 d || bits 19 11 d < ranks) (e rjOperand)]

/-- The checks of a collective descriptor that need no walk (R327, R328). -/
def checkColl (ranks core : Nat) (desc : List Nat) (e : Nat → Rej) : Except Rej Unit :=
  let d := packNat 128 (desc.take 3)
  let c := collDescOf d id
  let red := c.op == 1 || c.op == 2
  let al := if red && c.fmt == 0 then 8 else 4
  allChecks
    [needZero [(127, 101), (255, 243), (383, 279)] d (e rjReserved),
     need (c.op ≤ 3 && c.red ≤ 3) ((e rjReserved).at 1),
     need (c.fmt ≤ 10) ((e rjReserved).at 1),
     need (c.lo ≤ c.hi && c.hi < ranks && c.core == core) (e rjOperand),
     need (4 ≤ c.rowb && c.rowb ≤ 8192 && c.rows * c.rowb ≤ 1048576) (e rjOperand),
     need ([c.src, c.dst, c.work, c.sstride, c.dstride, c.pstep, c.rowb].all (fun x => x % al == 0)
           && c.rowb ≤ c.sstride && c.rowb ≤ c.dstride) (e rjOperand),
     need (if red then c.fmt ≤ 1 else c.fmt == 0 && c.red == 0 && !c.pair) (e rjOperand),
     need (!c.pair || (c.red == 0 && c.rows % 128 == 0 && c.rowb == (if c.fmt = 0 then 512 else 256))) (e rjOperand),
     need (c.op != 0 || !c.flagEn || c.flag0 + c.n - 1 ≤ 1023) (e rjOperand)]

/-- The checks of one command word at position `p` of a role, in its section (R34, R97, R103, R121, R147, R161 to
R166). -/
def checkCmd (im : Image) (r : Role) (p w : Nat) : Except Rej Unit :=
  let e (c : Nat) : Rej := ⟨c, r.sect, r.cmdOff + 16 * p, 0⟩
  let op := bits 7 0 w
  let eD (c : Nat) : Rej := ⟨c, r.sect, r.cmdOff + 16 * (r.cmds.length + bits 20 8 w), 0⟩
  let desc := descOf r.descs w
  match usedBits op with
  | none => .error (e rjReserved)
  | some u =>
    andThen (needOnly u w (e rjReserved))
    (andThen
      (match descKind op with
       | none => .ok ()
       | some k => need (bits 20 8 w < r.descs.length && bits 7 0 (desc.headD 0) == k
                         && bits 20 8 w + descWords (desc.headD 0) ≤ r.descs.length) (e rjOperand))
      (match op with
       | 0x04 => allChecks
           [need (1 ≤ bits 47 32 w && bits 20 8 w ≤ p) (e rjLoop)]
       | 0x13 => andThen (need (bits 13 10 w ≤ 12) ((e rjReserved).at 1)) (need (bits 22 20 w ≤ 5) ((e rjReserved).at 2))
       | 0x20 => checkMul w e
       | 0x22 => need (bits 69 47 w % 2 == 0 && bits 46 24 w % 2 == 0) (e rjOperand)
       | 0x23 => need (bits 54 32 w % 8 == 0) (e rjOperand)
       | 0x30 => checkChain desc eD
       | 0x40 => allChecks
           [needFmt (bits 11 8 w) 1 e,
            need ((!bitAt 12 w || mxCode (bits 11 8 w))
                  && (if bitAt 13 w then bits 102 80 w % 64 == 0 && bits 79 32 w == 0
                      else bits 79 40 w % 128 == 0 && bits 102 80 w == 0)) (e rjOperand)]
       | 0x41 => checkXfer desc eD
       | 0x42 => need (bits 23 8 w < im.scheds.length) (e rjLinkage)
       | 0x43 => need (bits 19 8 w < im.conv.length) (e rjConversion)
       | 0x50 => checkExch im.ranks desc eD
       | 0x52 => need (bits 23 8 w < im.timetable.length) (e rjTimetable)
       | _ => .ok ()))

/-- The REPEATs of a role: position and target. -/
def repeatsOf (r : Role) : List (Nat × Nat) :=
  (r.cmds.mapIdx (fun p w => if bits 7 0 w = 4 then [(p, bits 20 8 w)] else [])).flatten

/-- Nesting depth of the REPEAT at `p` with target `t`: how many bodies hold it, itself included (R156). -/
def nestDepth (rs : List (Nat × Nat)) (p t : Nat) : Nat :=
  (rs.filter (fun q => q.2 ≤ t && p ≤ q.1)).length

/-- The loop checks of a role (R156). -/
def checkLoops (r : Role) : Except Rej Unit :=
  let rs := repeatsOf r
  allIdx (fun _ q =>
    need (rs.all (fun q1 => !(decide (q1.1 < q.1) && decide (q1.2 < q.2) && decide (q.2 ≤ q1.1)))
          && nestDepth rs q.1 q.2 ≤ 4) ⟨rjLoop, r.sect, r.cmdOff + 16 * q.1, 0⟩) 0 rs

/-- The checks of a ROLE section (R154, R87, R156). -/
def checkRole (im : Image) (i : Nat) (s : Section) : Except Rej Unit :=
  let h := leNat (s.bytes.take 32)
  let np := bits 207 192 h
  let ncmd := bits 47 32 h
  let nd := bits 63 48 h
  let r := roleOf i s
  allChecks
    [need (32 ≤ s.len) ⟨rjSection, i, s.off, 0⟩,
     need (bits 15 0 h == s.inst && 1 ≤ ncmd && np ≤ 16) ⟨rjSection, i, s.off, 0⟩,
     need (ncmd + nd ≤ 8192) ⟨rjRoleSize, i, s.off, 0⟩,
     need (s.len == roleCmdOff np + 16 * (ncmd + nd)) ⟨rjSection, i, s.off, 0⟩,
     needZero [(31, 16), (255, 208)] h ⟨rjReserved, i, s.off, 0⟩,
     allIdx (fun k d =>
       andThen (andThen (needZero [(31, 24)] d ⟨rjReserved, i, s.off + 32 + 4 * k, 0⟩)
           (need (bits 15 8 d ≤ 3) ⟨rjReserved, i, s.off + 32 + 4 * k + 1, 0⟩))
         (need (bits 7 0 d ≤ 3 && 1 ≤ bits 23 16 d && bits 23 16 d ≤ 64)
           ⟨rjOperand, i, s.off + 32 + 4 * k, 0⟩)) 0 r.pace,
     needZero [(95, 0)] (leNat (slice s.bytes (32 + 4 * np) (roleCmdOff np - (32 + 4 * np))))
       ⟨rjReserved, i, s.off + 32 + 4 * np, 0⟩,
     allIdx (checkCmd im r) 0 r.cmds,
     checkLoops r]

/-! ### Other sections -/

/-- Entry size of a counted section (R496). -/
def entrySize (ty : Nat) : Nat :=
  match ty with
  | 1 => 8 | 2 => 32 | 3 => 8 | 4 => 12 | 7 => 32 | 8 => 32 | _ => 64

/-- The length rule of counted sections (R496), with the 12 bytes of zero. -/
def countedOk (s : Section) : Bool :=
  16 ≤ s.len && s.len == 16 + fieldAt s.bytes 0 4 * entrySize s.ty

/-- The 12 zero bytes that follow a count. -/
def headZero (s : Section) : Bool := fieldAt s.bytes 4 12 == 0

/-- The region entry checks (R149, R150, Table 6.5). -/
def checkRegions (im : Image) (i : Nat) (s : Section) : Except Rej Unit :=
  allIdx (fun k n =>
    let e (c : Nat) : Rej := ⟨c, i, s.off + 16 + 32 * k, 0⟩
    let r := regionOf n
    allChecks
      [needZero [(63, 20), (191, 144)] n (e rjReserved), need (bits 15 8 n ≤ 7) ((e rjReserved).at 1),
       need (k < 256 && r.size % 128 == 0 && ((im.regions.take k).all (fun q => q.id != r.id))) (e rjOperand),
       need (!r.isLocal || r.kind != .far) (e rjOperand),
       need (r.isLocal || r.die == 0) (e rjOperand),
       need (r.const == 0xFFFF || (match im.constSect r.const with
             | none => false
             | some b => r.constOff + r.size ≤ b.length)) (e rjOperand)]) 0 (entriesOf s.bytes 32)

/-- Source bytes of a weight matrix and its scales (R153). -/
def wlSource (n : Nat) : Nat :=
  let k := bits 63 32 n
  let cols := bits 95 64 n
  k * rowBytes (bits 27 24 n) cols + (if bitAt 28 n then ceilDiv k 32 * cols else 0)

/-- Destination bytes of a weight layout (R153). -/
def wlDest (n : Nat) : Nat :=
  bits 95 64 n / 64 * ceilDiv (bits 63 32 n) (ktOf (bits 27 24 n)) * tileSize (bits 27 24 n) (bitAt 28 n)

/-- The weight-layout entry checks (R153, Table 6.8). -/
def checkWlayout (im : Image) (i : Nat) (s : Section) : Except Rej Unit :=
  allIdx (fun k n =>
    let e (c : Nat) : Rej := ⟨c, i, s.off + 16 + 32 * k, 0⟩
    let fmt := bits 27 24 n
    allChecks
      [needZero [(31, 29), (127, 96)] n (e rjReserved), needFmt fmt 3 e,
       need (1 ≤ bits 63 32 n && bits 63 32 n < 2 ^ 31 && bits 95 64 n % 64 == 0 && bits 255 192 n % 128 == 0
             && (!bitAt 28 n || mxCode fmt)) (e rjOperand),
       need (match im.constSect (bits 15 0 n) with
             | none => false
             | some b => bits 191 128 n + wlSource n ≤ b.length) (e rjOperand),
       need (match im.region (bits 23 16 n) with
             | none => false
             | some r => (r.kind == .sealed || r.kind == .work) && bits 255 192 n + wlDest n ≤ r.size) (e rjRegion)])
    0 (entriesOf s.bytes 32)

/-- The last byte offset, plus one, that rows of `w` bytes at a stride reach. -/
def rowsEnd (rows stride w : Nat) : Nat := (rows - 1) * stride + w

/-- Is a region present, of an allowed kind and long enough? -/
def regionHas (im : Image) (id : Nat) (kinds : List RegionKind) (endOff : Nat) : Bool :=
  match im.region id with
  | none => false
  | some r => kinds.contains r.kind && decide (endOff ≤ r.size)

/-- The checks of a conversion descriptor (R208, R209, R169). -/
def checkConv (im : Image) (i : Nat) (s : Section) : Except Rej Unit :=
  allIdx (fun k n =>
    let e (c : Nat) : Rej := ⟨c, i, s.off + 16 + 64 * k, 0⟩
    let c := convDescOf n
    let w := fmtBits (if c.op = .narrow then c.sfmt else c.dfmt) / 8
    let sfmt := if c.op = .narrow then c.dfmt else c.sfmt
    let srow := if c.op = .generate then 4 * c.ch else rowBytes sfmt c.ch
    let perCore := min c.rpc c.rows
    allChecks
      [needZero convReserved n (e rjReserved),
       need (1 ≤ bits 7 0 n && bits 7 0 n ≤ 3) (e rjReserved), need (c.rnd ≤ 1) ((e rjReserved).at 1),
       needFmt c.sfmt 2 e, needFmt c.dfmt 2 e,
       need (k < 4096 && convShapeOk n) (e rjConversion),
       need (c.op == .generate || regionHas im c.region
              (if c.op = .narrow then [.work, .state, .input, .sealed, .field] else [.work, .state, .output, .field])
              (c.roff + rowsEnd c.rows c.rstride (c.ch * w))) (e rjRegion),
       need (!c.aff || regionHas im c.affRegion [.work, .state, .output, .input, .sealed, .field]
              (c.affOff + 16 * c.ch)) (e rjRegion),
       need (!c.cmpl || regionHas im c.cmplRegion [.work, .state, .output, .field] (c.cmplOff + 8)) (e rjRegion),
       need (c.vest || c.saddr + rowsEnd perCore c.sstride srow ≤ 8388608) (e rjScratch),
       need (c.vest || !c.mx || c.scaddr + rowsEnd perCore c.scstride (ceilDiv c.ch 32) ≤ 8388608) (e rjScratch)])
    0 (entriesOf s.bytes 64)

/-- The length and placement rules of a LINKAGE section and the checks of its schedules (R170, R253, R255, R496). -/
def checkLinkage (i : Nat) (s : Section) : Except Rej Unit :=
  let n := fieldAt s.bytes 0 4
  let offs := wordsOf 8 n (s.bytes.drop 16)
  let top := 16 + 8 * n
  let lenAt (o : Nat) : Nat :=
    let h := leNat (slice s.bytes o 64)
    scheduleBytes (bits 223 192 h) (bits 255 224 h) (bits 319 288 h)
  allChecks
    [need (16 ≤ s.len && headZero s && top ≤ s.len) ⟨rjSection, i, s.off, 0⟩,
     need (n ≤ 256) ⟨rjLinkage, i, s.off, 0⟩,
     allIdx (fun k o => allChecks
       [need (o % 16 == 0 && top ≤ o && o + 64 ≤ s.len && o + lenAt o ≤ s.len) ⟨rjSection, i, s.off + 16 + 8 * k, 0⟩,
        need ((offs.take k).all (fun q => q + lenAt q ≤ o || o + lenAt o ≤ q)) ⟨rjSection, i, s.off + 16 + 8 * k, 0⟩])
       0 offs,
     need ((s.bytes.mapIdx (fun b x => x == 0 || b < top || offs.any (fun o => o ≤ b && b < o + lenAt o))).all id)
       ⟨rjSection, i, s.off, 0⟩,
     allIdx (fun _ o => need (scheduleOk (slice s.bytes o (lenAt o))) ⟨rjLinkage, i, s.off + o, 0⟩) 0 offs]

/-- The static checks of a timetable entry (R168, Table 6.19). -/
def checkTt (im : Image) (i : Nat) (s : Section) : Except Rej Unit :=
  andThen (need (fieldAt s.bytes 0 4 ≤ 65535) ⟨rjTimetable, i, s.off, 0⟩)
    (allIdx (fun k n =>
      let t := ttOf n
      let e (c : Nat) : Rej := ⟨c, i, s.off + 16 + 32 * k, 0⟩
      andThen (needZero [(95, 90), (127, 119), (159, 151), (191, 180), (255, 224)] n (e rjReserved))
        (need ((im.periodUs == 0 || t.offset < im.periodUs * 1000) && t.lo ≤ t.hi && t.hi < im.ranks
               && (t.rel || t.rank < im.ranks) && t.src + t.len ≤ 8388608 && t.dst + t.len ≤ 8388608) (e rjTimetable)))
      0 (entriesOf s.bytes 32))

/-- The FAMILY checks (R14, R148): `fam` gives the value of an entry of the dictionary, if it is present. -/
def checkFamily (fam : Nat → Nat → Option Nat) (i : Nat) (s : Section) : Except Rej Unit :=
  allIdx (fun k n =>
    andThen (needZero [(31, 24)] n ⟨rjReserved, i, s.off + 16 + 8 * k, 0⟩)
      (match fam (bits 15 0 n) (bits 23 16 n) with
       | some v => need (bits 63 32 n ≤ v) ⟨rjFamily, i, s.off + 16 + 8 * k, bits 15 0 n * 256 + bits 23 16 n⟩
       | none => .error ⟨rjFamily, i, s.off + 16 + 8 * k, bits 15 0 n * 256 + bits 23 16 n⟩))
    0 (entriesOf s.bytes 8)

/-- The static ROLEMAP checks (R151). -/
def checkRoleMap (im : Image) (i : Nat) (s : Section) : Except Rej Unit :=
  allIdx (fun k n =>
    let m := roleMapOf n
    andThen (needZero [(47, 40)] n ⟨rjReserved, i, s.off + 16 + 8 * k, 0⟩)
      (need (m.lo ≤ m.hi && m.hi < im.ranks) ⟨rjOperand, i, s.off + 16 + 8 * k, 0⟩)) 0 (entriesOf s.bytes 8)

/-- The reserved fields of gang entries (Table 6.7). -/
def checkGangBits (i : Nat) (s : Section) : Except Rej Unit :=
  allIdx (fun k n => needZero [(63, 56)] n ⟨rjReserved, i, s.off + 16 + 12 * k, 0⟩) 0 (entriesOf s.bytes 12)

/-- One section from its first byte (R171). -/
def checkSection (im : Image) (fam : Nat → Nat → Option Nat) (i : Nat) (s : Section) : Except Rej Unit :=
  match s.ty with
  | 5 => checkRole im i s
  | 6 => .ok ()
  | 10 => checkLinkage i s
  | ty =>
    andThen (need (countedOk s) ⟨rjSection, i, s.off, 0⟩)
    (andThen (need (headZero s) ⟨rjReserved, i, s.off + 4, 0⟩)
    (match ty with
     | 1 => checkFamily fam i s
     | 2 => checkRegions im i s
     | 3 => checkRoleMap im i s
     | 4 => checkGangBits i s
     | 7 => checkWlayout im i s
     | 8 => checkTt im i s
     | _ => andThen (need (fieldAt s.bytes 0 4 ≤ 4096) ⟨rjConversion, i, s.off, 0⟩) (checkConv im i s)))

end Sys2Proof.Machine
end

