-- ==== Sys2Proof/Machine/ImageWalk.lean ====
section
/-!
DEFINITION. The loader's cross-section checks (06_brynno_commands.md R151, R155 to R160, R168, R171; 01_anatomy.md R24,
R25; 03 R68, R84 to R86, R91; 14 R328; 09 R231) and the whole check of an image.
-/
namespace Sys2Proof.Machine

/-! ### Walking a role -/

/-- Where a walk stands: position, counters and active REPEATs. -/
structure WalkSt where
  pos : Nat
  ctr : List Nat
  reps : NMap Nat
  deriving DecidableEq, Repr

/-- What a check sees at one dispatch: the role, the position, the word and the counters. -/
structure WalkCtx where
  role : Role
  pos : Nat
  w : Nat
  ctr : List Nat
  deriving DecidableEq, Repr

/-- The counters after a tally command (Table 6.12). -/
def tallyCtr (w : Nat) (c : List Nat) : List Nat :=
  match bits 7 0 w with
  | 0x10 => c.set (bits 10 8 w) (bits 63 32 w)
  | 0x11 => c.set (bits 10 8 w) ((c.getD (bits 10 8 w) 0 + bits 63 32 w) % 2 ^ 32)
  | 0x12 => c.set (bits 10 8 w) ((c.getD (bits 14 12 w) 0 + bits 63 32 w) % 2 ^ 32)
  | _ => c

/-- The next position and the REPEATs after reaching a REPEAT at `p` (R156). An entry of the map holds `rem + 1`. -/
def repeatNext (w p : Nat) (reps : NMap Nat) : Nat × NMap Nat :=
  let act := nget 0 reps p
  let rem := if act = 0 then bits 47 32 w - 1 else act - 1
  if rem = 0 then (p + 1, ndel reps p) else (bits 20 8 w, nins reps p rem)

/-- Advance over the command at the walk's position; `none` at the terminator. -/
def walkNext (r : Role) (st : WalkSt) : Option WalkSt :=
  let w := r.cmds.getD st.pos 5
  match bits 7 0 w with
  | 0x05 => none
  | 0x06 => none
  | 0x04 => let n := repeatNext w st.pos st.reps; some { st with pos := n.1, reps := n.2 }
  | _ => if st.pos + 1 < r.cmds.length then some { st with pos := st.pos + 1, ctr := tallyCtr w st.ctr } else none

/-- More dispatches than any accepted step makes. -/
def walkFuel : Nat := 2 ^ 80

/-- Visit a role from its first position, checking each dispatch; answers what was gathered and the counters at the
end. -/
def walkVisit {α : Type} (f : α → WalkCtx → Except Rej α) (r : Role) :
    Nat → WalkSt → α → Except Rej (α × List Nat)
  | 0, st, a => .ok (a, st.ctr)
  | n + 1, st, a =>
    match f a ⟨r, st.pos, r.cmds.getD st.pos 5, st.ctr⟩ with
    | .error e => .error e
    | .ok a' =>
      match walkNext r st with
      | none => .ok (a', st.ctr)
      | some st' => walkVisit f r n st' a'

/-- The roles of one step from an entry role on, in order of visit (R155). -/
def visitChain (im : Image) : Nat → Nat → List Role
  | 0, _ => []
  | n + 1, id =>
    match im.role id with
    | none => []
    | some r =>
      let t := r.cmds.getLastD 5
      r :: (if bits 7 0 t = 6 then visitChain im n (bits 23 8 t) else [])

/-- The roles of one step (R91). -/
def stepRoles (im : Image) (entry : Nat) : List Role := visitChain im 65537 entry

/-- Visit roles one after another, counters running on and `reset` applied between visits. -/
def walkRoles {α : Type} (f : α → WalkCtx → Except Rej α) (reset : α → α) : List Role → List Nat → α → Except Rej α
  | [], _, a => .ok a
  | r :: rs, c, a =>
    match walkVisit f r walkFuel ⟨0, c, []⟩ (reset a) with
    | .error e => .error e
    | .ok (a', c') => walkRoles f reset rs c' a'

/-- The entry role of a core on a rank (R151). -/
def entryOf (im : Image) (rank core : Nat) : Option Nat :=
  (im.rolemap.find? (fun m => m.core == core && m.lo ≤ rank && rank ≤ m.hi)).map RoleMap.entry

/-- The cores with an entry role, in rank order, then core order. -/
def coreEntries (im : Image) : List (Nat × Nat × Nat) :=
  (List.range im.ranks).flatMap (fun k => (List.range 256).flatMap (fun c =>
    match entryOf im k c with
    | some e => [(k, c, e)]
    | none => []))

/-- The distinct roles of a list. -/
def distinctRoles : List Role → List Role
  | [] => []
  | r :: rs => if (rs.any (fun q => q.id == r.id)) then distinctRoles rs else r :: distinctRoles rs

/-- Zero counters. -/
def zeroCtr : List Nat := List.replicate 8 0

/-! ### Role schedules (R151, R155, R68, R91) -/

/-- Does a role end in its one terminator? -/
def terminatorOk (r : Role) : Bool :=
  (r.cmds.dropLast.all (fun w => bits 7 0 w != 5 && bits 7 0 w != 6))
  && (bits 7 0 (r.cmds.getLastD 0) == 5 || bits 7 0 (r.cmds.getLastD 0) == 6)

/-- The position of a role's first wrong terminator: an early STEPEND or SWAP, else the last word. -/
def terminatorPos (r : Role) : Nat :=
  (r.cmds.findIdx? (fun w => bits 7 0 w == 5 || bits 7 0 w == 6)).getD (r.cmds.length - 1)

/-- The section table index and offset of the first section of a type. -/
def sectAt (im : Image) (ty : Nat) : Nat × Nat :=
  match im.sections.findIdx? (fun s => s.ty == ty) with
  | some i => (i, (im.sections.getD i ⟨0, 0, 0, 0, []⟩).off)
  | none => (0xFFFF, 0)

/-- The role-schedule checks. -/
def checkSchedules (im : Image) : Except Rej Unit :=
  let sm := sectAt im 3
  andThen (allIdx (fun k m => need
      ((im.rolemap.take k).all (fun q => !(q.core == m.core && q.lo ≤ m.hi && m.lo ≤ q.hi)) && (im.role m.entry).isSome)
      ⟨rjRoleSchedule, sm.1, sm.2 + 16 + 8 * k, 0⟩) 0 im.rolemap)
    (allIdx (fun _ q =>
      let chain := stepRoles im q.2.2
      let bad (r : Role) : Rej := ⟨rjRoleSchedule, r.sect, r.cmdOff + 16 * (r.cmds.length - 1), 0⟩
      andThen (allIdx (fun _ r => andThen (need (terminatorOk r) ⟨rjRoleSchedule, r.sect, r.cmdOff + 16 * terminatorPos r, 0⟩)
          (need (bits 7 0 (r.cmds.getLastD 0) == 5 || (im.role (bits 23 8 (r.cmds.getLastD 0))).isSome) (bad r)))
          0 (distinctRoles chain))
        (match chain.getLast? with
         | none => .ok ()
         | some r => need (bits 7 0 (r.cmds.getLastD 0) == 5 && r.id == q.2.2 && chain.length ≤ 65536) (bad r)))
      0 (coreEntries im))

/-! ### Balance (R159, R83, R101, R162) -/

/-- What a visit has loaded, produced and set so far. -/
structure BalSt where
  latchIn : Nat := 0
  latchOut : Nat := 0
  vestIn : Nat := 0
  vestOut : Nat := 0
  latch : List (Nat × Bool) := []
  vest : List (Bool × TileForm) := []
  scl : Bool := false
  exp : Bool := false
  pieces : Nat := 0
  deriving DecidableEq, Repr

/-- Vestibule tiles that a MEMUL produces, with their form (R111). -/
def mulTiles (w : Nat) : List (Bool × TileForm) :=
  let p := mulOf ⟨w, [], zeroCtr, 0, .fresh, 0, 0, [], []⟩
  if p.emit then
    match p.mode with
    | .f64s => [(p.toDm, .f64s)]
    | .pair => List.replicate (ceilDiv p.m 64) (p.toDm, .pair)
    | .fp32 => List.replicate (ceilDiv p.m 64) (p.toDm, .fp32)
  else []

/-- Tiles that a DMXFER from the vestibule consumes, given the form of the head tile (R165). -/
def xferTiles (st : BalSt) (d : Nat) : Nat :=
  let rows := bits 47 32 d + 1
  if bits 31 16 d = 511 then rows / 128
  else match st.vest.head? with
    | some (_, .pair) => rows / 128
    | _ => rows / 64

/-- One dispatch of a visit, for the balance of tiles (R159, R162). -/
def balStep (im : Image) (st : BalSt) (x : WalkCtx) : Except Rej BalSt :=
  let e (c : Nat) : Rej := ⟨c, x.role.sect, x.role.cmdOff + 16 * x.pos, 0⟩
  let w := x.w
  let d := packNat 128 ((descOf x.role.descs w).take 2)
  match bits 7 0 w with
  | 0x21 => .ok { st with scl := true }
  | 0x22 => .ok { st with exp := true }
  | 0x23 => .ok { st with pieces := bits 24 16 w + 1 }
  | 0x20 =>
    let p := mulOf ⟨w, [], zeroCtr, 0, .fresh, 0, 0, [], []⟩
    if (p.sa && !st.scl) || (p.mode == .f64s && !st.exp) || (p.gather && (st.pieces == 0 || p.t % st.pieces != 0)) then
      .error (e rjOperand)
    else if (st.latch.take p.t).any (fun q => q != (p.fw, p.sw)) then .error (e rjBalance)
    else .ok { st with latchOut := st.latchOut + p.t, latch := st.latch.drop p.t
                       vestIn := st.vestIn + (mulTiles w).length, vest := st.vest ++ mulTiles w }
  | 0x25 => .ok { st with latchOut := st.latchOut + bits 17 8 w + 1, latch := st.latch.drop (bits 17 8 w + 1) }
  | 0x30 =>
    let ch := veChainOf ⟨w, descOf x.role.descs w, zeroCtr, 0, .fresh, 0, 0, [], []⟩
    let n := if ch.vest then ch.count else 0
    .ok { st with vestOut := st.vestOut + n, vest := st.vest.drop n }
  | 0x40 =>
    let n := bits 23 14 w + 1
    .ok { st with latchIn := st.latchIn + n, latch := st.latch ++ List.replicate n (bits 11 8 w, bitAt 12 w) }
  | 0x41 =>
    let n := if bits 10 8 d = 5 ∨ bits 10 8 d = 6 then xferTiles st d else 0
    .ok { st with vestOut := st.vestOut + n, vest := st.vest.drop n }
  | 0x43 =>
    let c := convDescOf (im.conv.getD (bits 19 8 w) 0)
    let n := if c.op = .widen ∧ c.vest then c.rows / 64 else 0
    .ok { st with vestOut := st.vestOut + n, vest := st.vest.drop n }
  | _ => .ok st

/-- The image offset of the section at a section table index. -/
def Image.sectOff (im : Image) (i : Nat) : Nat := ((im.sections[i]?).map Section.off).getD 0

/-- The balance of one role (R159). -/
def checkBalance (im : Image) (r : Role) : Except Rej Unit :=
  match walkVisit (balStep im) r walkFuel ⟨0, zeroCtr, []⟩ {} with
  | .error e => .error e
  | .ok (b, _) =>
    need (b.latchIn == b.latchOut && b.latchIn == r.latchIn && b.latchOut == r.latchOut
          && b.vestIn == b.vestOut && b.vestIn == r.vestIn && b.vestOut == r.vestOut) ⟨rjBalance, r.sect, im.sectOff r.sect, 0⟩

/-- The roles that run on some core, in the order of R171, each once. -/
def runRoles (im : Image) : List Role :=
  (distinctRoles ((coreEntries im).flatMap (fun q => distinctRoles (stepRoles im q.2.2))).reverse).reverse

/-- Is a DMXFER's destination a HOST region (R25)? -/
def hostDest (im : Image) (d : Nat) : Bool :=
  (bits 10 8 d == 1 || bits 10 8 d == 3 || bits 10 8 d == 5)
  && (match im.region (bits 111 104 d) with | some r => r.kind == .host | none => false)

/-- HOST transfers that the roles of a core dispatch in one step. -/
def hostCount (im : Image) (entry : Nat) : Nat :=
  match walkRoles (fun a x =>
      .ok (a + (if bits 7 0 x.w = 0x41 ∧ hostDest im (packNat 128 ((descOf x.role.descs x.w).take 2)) then 1 else 0)))
      id (stepRoles im entry) zeroCtr 0 with
  | .ok n => n
  | .error _ => 0

/-- The commit-queue check (R25). -/
def checkHost (im : Image) : Except Rej Unit :=
  allIdx (fun _ k => allIdx (fun _ d =>
    let es := (List.range 32).filterMap (fun n => entryOf im k (32 * d + n))
    need ((es.map (hostCount im)).sum ≤ 1024)
      (let i := ((es.head?.bind im.role).map Role.sect).getD 0xFFFF; ⟨rjHost, i, im.sectOff i, 0⟩)) 0 (List.range 8)) 0 (List.range im.ranks)

/-! ### Pacing (R160) -/

/-- One dispatch of a visit for a pacing declaration. -/
def paceStep (k : Nat) (eng : Nat) (bound : Nat) (n : Nat) (x : WalkCtx) : Except Rej Nat :=
  let isE := match engineOf x.w with
    | some .me => eng == 0 | some .ve => eng == 1 | some .dm => eng == 2 | some .xe => eng == 3 | none => false
  let n' := if bits 7 0 x.w = 2 ∧ bits 9 8 x.w = k then 0 else if isE then n + 1 else n
  if bound < n' then .error ⟨rjPacing, x.role.sect, x.role.cmdOff + 16 * x.pos, 0⟩ else .ok n'

/-- The pacing checks of a role. -/
def checkPacing (r : Role) : Except Rej Unit :=
  allIdx (fun _ d =>
    match walkVisit (paceStep (bits 7 0 d) (bits 15 8 d) (bits 23 16 d)) r walkFuel ⟨0, zeroCtr, []⟩ 0 with
    | .error e => .error e
    | .ok _ => .ok ()) 0 r.pace

/-! ### Index counters (R158) -/

/-- The index counters of a list of roles. -/
def indexCounters (rs : List Role) : List Nat :=
  (rs.flatMap (fun r => r.cmds.flatMap (fun w => ((ixBytes w).filter (bitAt 7)).map (bits 6 4)))).eraseDups

/-- The index counters of a core on a rank. -/
def coreIndex (im : Image) (rank core : Nat) : List Nat :=
  match entryOf im rank core with
  | some e => indexCounters (distinctRoles (stepRoles im e))
  | none => []

/-- The counter that a command counts, with the rank and core that hold it. -/
def countTarget (im : Image) (rank core : Nat) (r : Role) (w : Nat) : Option (Nat × Nat × Nat) :=
  let d := packNat 128 ((descOf r.descs w).take 3)
  match bits 7 0 w with
  | 0x01 => some (rank, core, bits 18 16 w)
  | 0x41 => if bitAt 83 d ∧ bits 10 8 d = 2 then some (rank, 32 * (core / 32) + bits 52 48 d, bits 82 80 d) else none
  | 0x42 => if bitAt 83 w then some (rank, core, bits 82 80 w) else none
  | 0x50 =>
    if bitAt 62 d then
      if bits 9 8 d = 0 then
        some (if bitAt 10 d then (rank + bits 19 11 d) % im.ranks else bits 19 11 d, bits 27 20 d, bits 61 59 d)
      else some (rank, core, bits 61 59 d)
    else none
  | 0x53 => if bitAt 30 d then some (rank, core, bits 33 31 d) else none
  | _ => none

/-- The index checks of a core (R158). -/
def checkIndexCore (im : Image) (rank core entry : Nat) : Except Rej Unit :=
  let rs := distinctRoles (stepRoles im entry)
  let ix := indexCounters rs
  allIdx (fun _ r => allIdx (fun p w =>
    let e : Rej := ⟨rjIndex, r.sect, r.cmdOff + 16 * p, 0⟩
    andThen (need (!(bits 7 0 w == 0x12 && ix.contains (bits 10 8 w) && !ix.contains (bits 14 12 w))) e)
      (match countTarget im rank core r w with
       | some t => need (!(coreIndex im t.1 t.2.1).contains t.2.2) e
       | none =>
         if bits 7 0 w = 0x43 then
           let c := convDescOf (im.conv.getD (bits 19 8 w) 0)
           let cores := if c.op = .widen then [c.core0] else (List.range c.ncore).map (fun i => c.core0 + i)
           need (!(c.cntEn && cores.any (fun q => (coreIndex im rank q).contains c.cnt))) e
         else .ok ())) 0 r.cmds) 0 rs

/-- The index checks of the timetable's counter fields (R158). -/
def checkIndexTt (im : Image) : Except Rej Unit :=
  let sm := sectAt im 8
  allIdx (fun k t => need (!(t.cntEn && (List.range (t.hi + 1 - t.lo)).any (fun i =>
      (coreIndex im (if t.rel then (t.lo + i + t.rank) % im.ranks else t.rank) t.dstCore).contains t.cnt)))
    ⟨rjIndex, sm.1, sm.2 + 16 + 32 * k, 0⟩) 0 im.timetable

/-! ### Bounds (R158, R124, R150) -/

/-- A byte range. -/
def inScratch (a len : Nat) : Bool := decide (a + len ≤ 8388608)

/-- Do two strided row areas share a byte? -/
def areasMeet (n1 b1 s1 w1 n2 b2 s2 w2 : Nat) : Bool :=
  (List.range n1).any (fun i => (List.range n2).any (fun j =>
    decide (b1 + i * s1 < b2 + j * s2 + w2) && decide (b2 + j * s2 < b1 + i * s1 + w1)))

/-- The bounds of a VE chain at one dispatch (R124, R158). -/
def checkChainAt (cmd : EngCmd) (e : Nat → Rej) : Except Rej Unit :=
  let ch := veChainOf cmd
  let rows := if ch.vest then 64 * ch.count else ch.count
  let last := ch.stages.getLastD 0
  let outW := if ch.stages.isEmpty then 256 else
    if stOp last = 0x30 then rowBytes (stFmt last) 64 else if stOp last = 0x33 then 512 else 256
  let outRows := rows
  let mxOut := !ch.stages.isEmpty && stOp last == 0x30 && stMx last
  let rb (s : Stream) : Nat := if s.i32 then 256 else rowBytes s.fmt 64
  let sIn (s : Stream) : Bool := inScratch s.base (rowsEnd rows s.stride (rb s))
    && (!s.mx || inScratch s.sbase (rowsEnd rows s.sstride 2))
  let kr := ch.stages.flatMap (fun w => (if stSrcB w = 1 then [bits 86 64 w] else []) ++ (if stSrcC w = 1 then [bits 118 96 w] else []))
  let meets (n b s w : Nat) : Bool := areasMeet outRows ch.dst ch.dstStride outW n b s w
  let sMeets (s : Stream) : Bool := s.mx && meets rows s.sbase s.sstride 2
  andThen (need ((ch.vest || sIn ch.x) && (match ch.y with | some s => sIn s | none => true)
        && inScratch ch.dst (rowsEnd outRows ch.dstStride outW)
        && (!mxOut || inScratch ch.ds (rowsEnd rows ch.dsStride 2)) && kr.all (fun a => inScratch a 256)) (e rjScratch))
    (need (!(match ch.y with | some s => meets rows s.base s.stride (rb s) || sMeets s | none => false)
        && !kr.any (fun a => meets 1 a 0 256)
        && (ch.vest || (!sMeets ch.x && ((ch.dst == ch.x.base && ch.dstStride == ch.x.stride && outW == rb ch.x)
              || !meets rows ch.x.base ch.x.stride (rb ch.x))))) (e rjOverlap))

/-- Kinds that a data mover may read. -/
def readKinds : List RegionKind := [.work, .state, .output, .input, .sealed, .field, .far]

/-- Kinds that a data mover may write. -/
def writeKinds : List RegionKind := [.work, .state, .output, .field, .far, .host]

/-- The bounds of a DMXFER at one dispatch. -/
def checkXferAt (im : Image) (cmd : EngCmd) (e : Nat → Rej) : Except Rej Unit :=
  let d := packNat 128 (cmd.desc.take 2)
  let dir := bits 10 8 d
  let rows := bits 47 32 d + 1
  let rb := bits 31 16 d + 1
  let src := ixAdd (bits 31 24 cmd.word) cmd.cnt (bits 167 128 d)
  let dst := ixAdd (bits 39 32 cmd.word) cmd.cnt (bits 207 168 d)
  let sEnd := rowsEnd rows (bits 231 208 d) rb
  let dEnd := rowsEnd rows (bits 255 232 d) rb
  let srcOk := if dir = 0 ∨ dir = 3 then regionHas im (bits 103 96 d) readKinds (src + sEnd) else true
  let dstOk := if dir = 1 ∨ dir = 3 ∨ dir = 5 then regionHas im (bits 111 104 d) writeKinds (dst + dEnd) else true
  let srcS := if dir = 1 ∨ dir = 2 ∨ dir = 4 then inScratch src sEnd else true
  let dstS := if dir = 0 ∨ dir = 2 ∨ dir = 4 ∨ dir = 6 then inScratch dst dEnd else true
  andThen (need (srcS && dstS) (e rjScratch)) (need (srcOk && dstOk) (e rjRegion))

/-- The bounds of a collective at one dispatch (R328). -/
def checkCollAt (cmd : EngCmd) (e : Nat → Rej) : Except Rej Unit :=
  let d := collDescOf (packNat 128 cmd.desc) (ixAdd (bits 31 24 cmd.word) cmd.cnt)
  let red := d.op == 1 || d.op == 2
  let pieces := List.range d.n
  let land (p : Nat) : Nat := d.dst + p * d.pstep
  let work := treeLevels d.n * d.rows * d.rowb
  andThen (need (inScratch d.src (rowsEnd d.rows d.sstride d.rowb)
      && (if d.op = 0 then inScratch (land (d.n - 1)) (rowsEnd d.rows d.dstride d.rowb)
          else inScratch d.dst (rowsEnd d.rows d.dstride d.rowb))
      && (!red || inScratch d.work work)) (e rjScratch))
    (need ((d.op != 0 || (pieces.all (fun p => (List.range p).all (fun q =>
              !areasMeet d.rows (land p) d.dstride d.rowb d.rows (land q) d.dstride d.rowb))
            && pieces.all (fun p => !areasMeet d.rows (land p) d.dstride d.rowb d.rows d.src d.sstride d.rowb)))
      && (!red || (!areasMeet 1 d.work 0 work d.rows d.src d.sstride d.rowb
            && ((d.src == d.dst && d.sstride == d.dstride)
                || !areasMeet d.rows d.dst d.dstride d.rowb d.rows d.src d.sstride d.rowb)))) (e rjOverlap))

/-- The auxiliary registers as the walk knows them: scale base and stride, exponent addresses, piece table. -/
structure AuxSt where
  scl : Nat × Nat := (0, 0)
  exp : Nat × Nat := (0, 0)
  gath : Nat × Nat := (0, 1)
  deriving DecidableEq, Repr

/-- The bounds of a MEMUL at one dispatch. -/
def checkMulAt (a : AuxSt) (cmd : EngCmd) (e : Nat → Rej) : Except Rej Unit :=
  let p := mulOf cmd
  let r := tileRowBytes p.fa
  need ((p.gather || inScratch p.aBase (rowsEnd p.m p.aStride (p.t * r)))
    && (!p.sa || p.gather || inScratch a.scl.1 (rowsEnd p.m a.scl.2 (ceilDiv (p.t * ktOf p.fa) 32)))
    && (!p.gather || inScratch a.gath.1 (8 * a.gath.2))
    && (p.mode != .f64s || (inScratch a.exp.1 (2 * p.m) && inScratch a.exp.2 128))) (e rjScratch)

/-- One dispatch of a step for the bounds of every effective address (R158, R250). -/
def boundStep (im : Image) (core : Nat) (a : AuxSt) (x : WalkCtx) : Except Rej AuxSt :=
  let e (c : Nat) : Rej := ⟨c, x.role.sect, x.role.cmdOff + 16 * x.pos, 0⟩
  let w := x.w
  let cmd : EngCmd := ⟨w, descOf x.role.descs w, x.ctr, 0, .fresh, 0, 0, [], []⟩
  let ix (hi lo v : Nat) : Nat := ixAdd (bits hi lo w) x.ctr v
  let keep (c : Except Rej Unit) : Except Rej AuxSt := match c with | .ok _ => .ok a | .error r => .error r
  match bits 7 0 w with
  | 0x20 => keep (checkMulAt a cmd e)
  | 0x21 => .ok { a with scl := (ix 15 8 (bits 38 16 w), bits 61 39 w) }
  | 0x22 => .ok { a with exp := (ix 15 8 (bits 46 24 w), ix 23 16 (bits 69 47 w)) }
  | 0x23 => .ok { a with gath := (ix 15 8 (bits 54 32 w), bits 24 16 w + 1) }
  | 0x24 => keep (need (inScratch (ix 39 32 (bits 70 48 w)) (rowsEnd (bits 13 8 w + 1) (64 * bits 87 71 w)
        (8 * (bits 28 16 w + 1))) && inScratch (ix 47 40 (bits 110 88 w)) (2 * (bits 13 8 w + 1))) (e rjScratch))
  | 0x25 => keep (need (inScratch (ix 31 24 (bits 54 32 w)) 128) (e rjScratch))
  | 0x30 => keep (checkChainAt cmd e)
  | 0x40 =>
    let len := (bits 23 14 w + 1) * tileSize (bits 11 8 w) (bitAt 12 w)
    keep (if bitAt 13 w then need (inScratch (ix 31 24 (bits 102 80 w)) len) (e rjScratch)
          else need (regionHas im (bits 39 32 w) readKinds (ix 31 24 (bits 79 40 w) + len)) (e rjRegion))
  | 0x41 => keep (checkXferAt im cmd e)
  | 0x42 =>
    let s := scheduleOf (im.scheds.getD (bits 23 8 w) [])
    keep (need (regionHas im (bits 39 32 w) [.work, .state, .field] (ix 31 24 (bits 79 40 w) + blockBytes s)) (e rjRegion))
  | 0x43 =>
    let c := convDescOf (im.conv.getD (bits 19 8 w) 0)
    keep (need (!c.vest || c.core0 == core) (e rjConversion))
  | 0x50 =>
    let d := packNat 128 (cmd.desc.take 2)
    let len := bits 251 232 d + 1
    let sOk := inScratch (ix 31 24 (bits 150 128 d)) len
    keep (match bits 9 8 d with
      | 0 => need (sOk && inScratch (ix 39 32 (bits 182 160 d)) len) (e rjScratch)
      | 1 => andThen (need sOk (e rjScratch))
          (need (regionHas im (bits 71 64 d) [.work, .state, .output, .field, .far] (ix 39 32 (bits 231 192 d) + len)) (e rjRegion))
      | _ => andThen (need sOk (e rjScratch))
          (need (regionHas im (bits 71 64 d) readKinds (ix 39 32 (bits 231 192 d) + len)) (e rjRegion)))
  | 0x53 => andThenAux (checkColl im.ranks core cmd.desc e) (keep (checkCollAt cmd e))
  | _ => .ok a
where
  andThenAux (c : Except Rej Unit) (k : Except Rej AuxSt) : Except Rej AuxSt :=
    match c with
    | .ok _ => k
    | .error r => .error r

/-- The bounds of every dispatch of a core (R158). -/
def checkBounds (im : Image) (core entry : Nat) : Except Rej Unit :=
  match walkRoles (boundStep im core) (fun _ => {}) (stepRoles im entry) zeroCtr {} with
  | .error e => .error e
  | .ok _ => .ok ()

/-- The collectives that a core dispatches in a step, as descriptor words. -/
def collDispatches (im : Image) (entry : Nat) : List (List Nat) :=
  match walkRoles (fun (a : List (List Nat)) x =>
      .ok (if bits 7 0 x.w = 0x53 then a ++ [descOf x.role.descs x.w] else a)) id (stepRoles im entry) zeroCtr [] with
  | .ok l => l
  | .error _ => []

/-- Every rank of a group dispatches the same collectives in the same order (R328). -/
def checkCollOrder (im : Image) : Except Rej Unit :=
  allIdx (fun _ q =>
    let own := collDispatches im q.2.2
    let both (k k2 : Nat) (l : List (List Nat)) : List (List Nat) := l.filter (fun d =>
      let c := collDescOf (packNat 128 d) id
      c.lo ≤ k && k ≤ c.hi && c.lo ≤ k2 && k2 ≤ c.hi)
    allIdx (fun _ k2 =>
      let other := match entryOf im k2 q.2.1 with | some e => collDispatches im e | none => []
      need (both q.1 k2 own == both q.1 k2 other)
        ⟨rjOperand, ((im.role q.2.2).map Role.sect).getD 0xFFFF, 0, 0⟩) 0 (List.range im.ranks)) 0 (coreEntries im)

/-! ### Gangs (R84 to R86, R152) -/

/-- The sequencer commands of a role with their positions (R86). -/
def seqCommands (r : Role) : List (Nat × Nat) :=
  (r.cmds.mapIdx (fun p w => if (engineOf w).isNone then [(p, w)] else [])).flatten

/-- The cores of a gang entry. -/
def gangCores (im : Image) (g : Gang) : List Nat :=
  if g.gang < 16 then ((List.range 32).filter (fun n => bitAt n g.cores)).map (fun n => 32 * (g.die % 8) + n)
  else ((List.range 8).filter (fun d => bitAt d g.die)).flatMap (fun d =>
    match im.gangs.find? (fun q => q.gang == g.dgang && q.gang < 16 && q.die % 8 == d && q.lo ≤ g.lo && g.lo ≤ q.hi) with
    | some q => ((List.range 32).filter (fun n => bitAt n q.cores)).map (fun n => 32 * d + n)
    | none => [])

/-- The role sections of two cores match for a gang (R86). -/
def gangMatch (a b : List Role) : Bool :=
  a.length == b.length
  && (List.zipWith (fun x y => x.cmds.length == y.cmds.length && seqCommands x == seqCommands y) a b).all id

/-- The gang checks. -/
def checkGangs (im : Image) : Except Rej Unit :=
  let sm := sectAt im 4
  allIdx (fun k g =>
    let e : Rej := ⟨rjGang, sm.1, sm.2 + 16 + 12 * k, 0⟩
    let before := im.gangs.take k
    let cores := gangCores im g
    let chain (c : Nat) : List Role := match entryOf im g.lo c with | some r => stepRoles im r | none => []
    let sizes := ((List.range 8).filter (fun d => bitAt d g.die)).map (fun d => (cores.filter (fun c => c / 32 == d)).length)
    allChecks
      [need (g.lo ≤ g.hi && g.hi < im.ranks && g.gang < 0x14) e,
       need (if g.gang < 16 then g.die < 8 && g.cores != 0 && g.dgang == 0
             else g.cores == 0 && g.dgang < 16 && g.die != 0 && sizes.all (fun n => n == sizes.headD 0 && 0 < n)) e,
       need (before.all (fun q => !(q.lo ≤ g.hi && g.lo ≤ q.hi && ((q.gang == g.gang && (16 ≤ g.gang || q.die == g.die))
             || ((q.gang < 16) == (g.gang < 16) && (gangCores im q).any (fun c => cores.contains c)))))) e,
       need (cores.all (fun c => gangMatch (chain c) (chain (cores.headD 0)))) e]) 0 im.gangs

/-! ### Timetable (R168) -/

/-- The entries that a rank sends, with their numbers. -/
def ttSends (im : Image) (rank : Nat) : List (Nat × TtEntry) :=
  (im.timetable.mapIdx (fun i t => (i, t))).filter (fun p => p.2.lo ≤ rank && rank ≤ p.2.hi)

/-- The destination rank of an entry sent by a rank. -/
def ttDest (im : Image) (t : TtEntry) (rank : Nat) : Nat := if t.rel then (rank + t.rank) % im.ranks else t.rank

/-- Every (entry number, sender rank) that a rank receives. -/
def ttReceives (im : Image) (rank : Nat) : List (Nat × Nat × TtEntry) :=
  (im.timetable.mapIdx (fun i t => (i, t))).flatMap (fun p =>
    ((List.range (p.2.hi + 1 - p.2.lo)).map (fun j => p.2.lo + j)).filterMap (fun k =>
      if ttDest im p.2 k = rank then some (p.1, k, p.2) else none))

/-- XARM entries named by the roles of a core on a rank. -/
def armsOf (im : Image) (entry : Nat) : List (Nat × Role × Nat) :=
  (distinctRoles (stepRoles im entry)).flatMap (fun r =>
    (r.cmds.mapIdx (fun p w => if bits 7 0 w = 0x52 then [(bits 23 8 w, r, p)] else [])).flatten)

/-- The timetable checks that span sections (R168). -/
def checkTimetable (im : Image) : Except Rej Unit :=
  let sm := sectAt im 8
  let e (k : Nat) : Rej := ⟨rjTimetable, sm.1, sm.2 + 16 + 32 * k, 0⟩
  allChecks
    [allIdx (fun _ k => need ((ttSends im k).length ≤ 4096 && (ttReceives im k).length ≤ 4096) (e 0)) 0 (List.range im.ranks),
     allIdx (fun _ k =>
       let rs := ttReceives im k
       allIdx (fun i p => need ((rs.take i).all (fun q => !(q.2.2.dstCore == p.2.2.dstCore
           && decide (q.2.2.dst < p.2.2.dst + p.2.2.len) && decide (p.2.2.dst < q.2.2.dst + q.2.2.len)))) (e p.1)) 0 rs)
       0 (List.range im.ranks),
     allIdx (fun i t => need (!t.arm || (List.range (t.hi + 1 - t.lo)).all (fun j =>
         match entryOf im (t.lo + j) t.srcCore with
         | some r => (armsOf im r).any (fun a => a.1 == i)
         | none => false)) (e i)) 0 im.timetable,
     allIdx (fun _ q => allIdx (fun _ a => need (match im.timetable[a.1]? with
         | some t => t.srcCore == q.2.1
         | none => false) ⟨rjTimetable, a.2.1.sect, a.2.1.cmdOff + 16 * a.2.2, 0⟩) 0 (armsOf im q.2.2)) 0 (coreEntries im)]

/-! ### Capacity (R24, R150, R231, R244) -/

/-- What the package offers an image: good channels per die, device bytes and window bases of the far ports. -/
structure Capacity where
  nGood : Nat
  nd : List Nat
  farBytes : List Nat
  farBase : List Nat
  deriving DecidableEq, Repr

/-- Bytes of one far window (Table 9.8). -/
def farWindow : Nat := 532575944704

/-- Is a far range backed by a device (R244)? -/
def farBacked (cap : Capacity) (a len : Nat) : Bool :=
  let o := a - 0x10800000000
  let first := min len (farWindow - o)
  let ok (p off n : Nat) : Bool := n == 0 || cap.farBase.getD p 0 + off + n ≤ cap.farBytes.getD p 0
  if o < farWindow then ok 0 o first && ok 1 0 (len - first) && len - first ≤ farWindow
  else ok 1 (o - farWindow) len && o - farWindow + len ≤ farWindow

/-- The sum of the sizes of the regions of a kind. -/
def kindBytes (im : Image) (k : RegionKind) : Nat := ((im.regions.filter (fun r => r.kind == k)).map Region.size).sum

/-- The placement of every region of an image (R231). -/
def placeImage (im : Image) (cap : Capacity) : PlaceSt × List Placed :=
  placeAll cap.nGood cap.nd (sortRegions im.regions) placeInit

/-- The capacity check (R24, R150, R231, R244). -/
def checkCapacity (im : Image) (cap : Capacity) : Except Rej Unit :=
  let p := placeImage im cap
  allChecks
    [need (kindBytes im .output ≤ 1073741824 && kindBytes im .input ≤ 1073741824) ⟨rjCapacity, 0xFFFF, 0, 0x301004⟩,
     need (placeFits p.1) ⟨rjCapacity, 0xFFFF, 0, 0x301004⟩,
     need (p.2.all (fun q => q.r.kind != .far || farBacked cap (q.bases.headD 0) q.r.size)) ⟨rjCapacity, 0xFFFF, 0, 0xE20003⟩]

/-! ### The whole check -/

/-- The loader's check of an image in the order of R171: the parsed image, or the first failure (R172). -/
def checkImage (img : List Byte) (ranks : Nat) (digest : List Byte) (fam : Nat → Nat → Option Nat) (cap : Capacity) :
    Except Rej Image :=
  match andThen (checkHeader img ranks) (checkTrailer img digest) with
  | .error e => .error e
  | .ok _ =>
    match checkTable img (sectionTable img (fieldAt img 8 4)) with
    | .error e => .error e
    | .ok _ =>
      let im := parseImage img
      let es := coreEntries im
      match allChecks
        [allIdx (checkSection im fam) 0 im.sections,
         checkSchedules im,
         allIdx (fun _ r => checkBalance im r) 0 (runRoles im),
         checkHost im,
         allIdx (fun _ r => checkPacing r) 0 (runRoles im),
         allIdx (fun _ q => checkIndexCore im q.1 q.2.1 q.2.2) 0 es,
         checkIndexTt im,
         allIdx (fun _ q => checkBounds im q.2.1 q.2.2) 0 es,
         checkCollOrder im,
         checkGangs im,
         checkTimetable im,
         checkCapacity im cap] with
      | .error e => .error e
      | .ok _ => .ok im

/-! ### What an accepted image puts into memory -/

/-- The weight tile (nb, kb) of a layout entry as bytes (R153, R100). -/
def wlTile (src : List Byte) (n nb kb : Nat) : List Byte :=
  let fmt := bits 27 24 n
  let cols := bits 95 64 n
  let k := bits 63 32 n
  let kt := ktOf fmt
  let w := fmtBits fmt
  let rbSrc := rowBytes fmt cols
  let row (i : Nat) : List Byte :=
    let kk := kb * kt + i
    if kk < k then
      let r := leNat (slice src (kk * rbSrc) rbSrc)
      leBytes (8 * w) (packNat w ((List.range 64).map (fun j => r / 2 ^ (w * (64 * nb + j)) % 2 ^ w)))
    else zeros (8 * w)
  let scales := if bitAt 28 n then
      (List.range (kt / 32)).flatMap (fun b =>
        let br := kb * (kt / 32) + b
        if 32 * br < k then slice src (k * rbSrc + br * cols + 64 * nb) 64 else List.replicate 64 0x7F)
    else []
  (List.range kt).flatMap row ++ scales

/-- The tiles of a layout entry, each with its offset in the region (R153). -/
def wlWrites (im : Image) (n : Nat) : List (Nat × List Byte) :=
  let src := (((im.constSect (bits 15 0 n)).getD []).drop (bits 191 128 n)).take (wlSource n)
  let nk := ceilDiv (bits 63 32 n) (ktOf (bits 27 24 n))
  let sz := tileSize (bits 27 24 n) (bitAt 28 n)
  (List.range (bits 95 64 n / 64)).flatMap (fun nb => (List.range nk).map (fun kb =>
    (bits 255 192 n + (nb * nk + kb) * sz, wlTile src n nb kb)))

/-- The initial contents of a region (R149). -/
def regionInit (im : Image) (r : Region) : List Byte :=
  if r.const = 0xFFFF then [] else slice ((im.constSect r.const).getD []) r.constOff r.size

end Sys2Proof.Machine
end

