-- ==== Sys2Proof/Machine/PackageTypes.lean ====
section
/-!
DEFINITION. The state of the package outside its cores and fabric: start-up, clocks and power (18, 24), event recorder
and MRAM (22, 23), host ports (19), dictionary service (20, 21), time, Guyline and pitch (13, 15), errors (16) and
checkpoints (17).
-/
namespace Sys2Proof.Machine

/-- Where the package stands in the start-up sequence (Table 18.7); `off` is PWRGOOD low, `tripped` is R490. -/
inductive Phase where
  | off
  | edgeCount
  | pllLock
  | romBoot
  | verify
  | wipe
  | stackTrain
  | d2dTrain
  | hostReady
  | ready
  | fault
  | tripped
  deriving DecidableEq, Repr

/-- Step of Table 18.7 that a phase is in; 9 once start-up has ended. -/
def Phase.stepNo : Phase → Nat
  | .off => 0 | .edgeCount => 1 | .pllLock => 2 | .romBoot => 3 | .verify => 4 | .wipe => 5 | .stackTrain => 6
  | .d2dTrain => 7 | .hostReady => 8 | .ready => 9 | .fault => 9 | .tripped => 0

/-- Source of a package reset (`Reset.LastCause`, Table 18.12). -/
inductive ResetCause where
  | powerOn
  | resetN
  | dictionary
  | lifeCycle
  | rstreq
  deriving DecidableEq, Repr

/-- The code of a reset source. -/
def ResetCause.code : ResetCause → Nat
  | .powerOn => 1 | .resetN => 2 | .dictionary => 3 | .lifeCycle => 4 | .rstreq => 5

/-- Start-up and reset state (R389 to R410). -/
structure Startup where
  phase : Phase := .off
  clkset : Nat := 0
  nodeid : Nat := 0
  cause : ResetCause := .powerOn
  startedAt : Nat := 0
  startupUs : Nat := 0
  faultStep : Nat := 0
  resets : Nat := 0
  pllRetries : Nat := 0
  fullStart : Bool := true
  rstreqLow : Bool := false
  thermtripLow : Bool := false
  resetDue : Option ResetCause := none
  deriving DecidableEq, Repr

/-- The frequency counter (R397). -/
structure FreqCounter where
  st : Nat := 0
  target : Nat := 0
  reference : Nat := 0
  window : Nat := 0
  result : Nat := 0
  switched : Bool := false
  deriving DecidableEq, Repr

/-- Operating points, caps and telemetry (R394 to R397, R452, R456, R487, R488). Points are 0 (P0) to 7 (P7). -/
structure Power where
  freq : Nat := 7
  volt : Nat := 7
  rampTo : Option Nat := none
  job : Option Nat := none
  next : Option Nat := none
  thermalCap : Nat := 0
  hot : Bool := false
  throttles : Nat := 0
  powerCap : Nat := 0
  lowRuns : Nat := 0
  capEvents : Nat := 0
  measured : Nat := 0
  peak : Nat := 0
  cappedSince : Option Nat := none
  cappedTime : Nat := 0
  counter : FreqCounter := {}
  dieTemp : List Nat := List.replicate 20 0
  stackTemp : List Nat := List.replicate 32 0
  diePeak : List Nat := List.replicate 20 0x8000
  stackPeak : List Nat := List.replicate 32 0x8000
  sensorFaults : Nat := 0
  deriving DecidableEq, Repr

/-- An occurrence on its way to the recorder (Table 23.1). -/
structure Occurrence where
  code : Nat
  source : Nat
  payload : Nat
  ns : Nat
  opseconds : Nat
  cycles : Nat
  deriving DecidableEq, Repr

/-- The bucket of a limited code (R478): tokens taken from the full bucket, and the count of the closing second. -/
structure Bucket where
  taken : Nat := 0
  suppressed : Nat := 0
  deriving DecidableEq, Repr

/-- The event recorder outside MRAM (R472 to R479). -/
structure Recorder where
  queue : List Occurrence := []
  buckets : NMap Bucket := []
  suppressed : Nat := 0
  opsec : Nat := 0
  deriving DecidableEq, Repr

/-- A firmware slot (R459): as it left manufacture, empty, or an image written by `Firmware.Update`. -/
inductive FwSlot where
  | manufactured
  | stored (img : List Byte)
  deriving DecidableEq, Repr

/-- The life-cycle states (Table 21.9). -/
inductive LifeSt where
  | blank
  | test
  | owned
  | returned
  | scrap
  deriving DecidableEq, Repr

/-- The code of a life-cycle state. -/
def LifeSt.code : LifeSt → Nat
  | .blank => 0 | .test => 1 | .owned => 2 | .returned => 3 | .scrap => 4

/-- What survives power loss: MRAM and OTP (R449, R458, R470, R473, R474). `ring` holds the records by slot. -/
structure Mram where
  powerCycles : Nat := 0
  opSeconds : Nat := 0
  written : Nat := 0
  ring : NMap Nat := []
  life : LifeSt := .blank
  ownerKey : List Byte := List.replicate 64 0
  transitions : Nat := 0
  signedSeq : Nat := 0
  bootSlot : Nat := 0
  slot0 : FwSlot := .manufactured
  slot1 : FwSlot := .manufactured
  fallBacks : Nat := 0
  pathMask : Nat := 0x3FFFFFFFFFF
  minSvn : Nat := 0
  udsLocked : Bool := false
  deriving DecidableEq, Repr

/-- Identity, attestation and the state in force since start-up step 3 (R451, R454, R464 to R467). -/
structure Security where
  life : LifeSt := .blank
  ownerKey : List Byte := List.replicate 64 0
  activeSlot : Option Nat := none
  attState : Nat := 0
  endorsed : Bool := false
  quoteBody : List Byte := []
  quote : List Byte := []
  transitionDone : Bool := false
  deriving DecidableEq, Repr

/-- The three paths to the dictionary service (chapter 20). -/
inductive DictPath where
  | hp0
  | hp1
  | mgmt
  deriving DecidableEq, Repr

/-- The lock owner code of a path (Table 19.8). -/
def DictPath.code : DictPath → Nat
  | .hp0 => 1 | .hp1 => 2 | .mgmt => 3

/-- The path of a host port. -/
def pathOfPort (p : Nat) : DictPath := if p = 0 then .hp0 else .hp1

/-- A dictionary request waiting for or being served (R416, R428, R438): its path, source MAC address, whether its
frame was broadcast, and its message. -/
structure DictReq where
  path : DictPath
  mac : Nat := 0
  broadcast : Bool := false
  msg : List Byte
  deriving DecidableEq, Repr

/-- A subscription (R437). -/
structure Subscription where
  path : DictPath
  mac : Nat
  key : Nat
  deriving DecidableEq, Repr

/-- A block transfer in progress (R432). -/
structure BlockXfer where
  path : DictPath
  opcode : Nat
  key : Nat
  bytes : List Byte
  deriving DecidableEq, Repr

/-- A response kept for a repeated request (R438). -/
structure KeptResponse where
  mac : Nat
  tag : Nat
  time : Nat
  msg : List Byte
  deriving DecidableEq, Repr

/-- A lock of an index area (R423): area code, owner, time of the last renewal. -/
structure AreaLock where
  area : Nat
  owner : DictPath
  renewed : Nat
  deriving DecidableEq, Repr

/-- A relayed request that waits for its answer (R439). -/
structure Relay where
  id : Nat
  path : DictPath
  mac : Nat
  outer : List Byte
  rank : Nat
  got : List Byte := []
  survey : Bool := false
  deriving DecidableEq, Repr

/-- A relayed request whose fragments are arriving at the target (R439). -/
structure RelayIn where
  src : Nat
  id : Nat
  path : Nat
  bytes : List Byte
  deriving DecidableEq, Repr

/-- The dictionary service. `vals` holds the RW values that differ from their defaults and `pend` the pending ones,
both keyed by index * 256 + subindex; `snap` holds the snapshots of R448. -/
structure DictSt where
  vals : NMap (List Byte) := []
  pend : NMap (List Byte) := []
  snap : NMap (List Byte) := []
  subs : List Subscription := []
  xfers : List BlockXfer := []
  queue : List DictReq := []
  kept : List KeptResponse := []
  locks : List AreaLock := []
  relays : List Relay := []
  relayIn : List RelayIn := []
  relayNext : Nat := 0
  drops : Nat := 0
  tags : NMap Nat := []
  afterRelease : List Nat := []
  deriving DecidableEq, Repr

/-- The link of a host port (Table 19.9). -/
inductive LinkSt where
  | down
  | training
  | up
  deriving DecidableEq, Repr

/-- The code of a link state. -/
def LinkSt.code : LinkSt → Nat
  | .down => 0 | .training => 1 | .up => 2

/-- A held BAR2 request (R422). -/
inductive Bar2Req where
  | read (off len : Nat) (bad : Bool)
  | write (off : Nat) (bytes : List Byte)
  deriving DecidableEq, Repr

/-- A host port (chapter 19). -/
structure HostPort where
  inPerst : Bool := true
  link : LinkSt := .down
  rate : Nat := 0
  width : Nat := 0
  cfg : Cells := []
  bar2Enc : Nat := 10
  d3hot : Bool := false
  msixEnable : Bool := false
  msixMaskAll : Bool := false
  msix : Cells := []
  pba : NMap Bool := []
  reqBuf : Cells := []
  rspBuf : Cells := []
  ring : Cells := []
  prod : BitVec 32 := 0
  cons : BitVec 32 := 0
  busy : Bool := false
  lost : Bool := false
  overrun : Bool := false
  seq : BitVec 30 := 0
  rspLen : Nat := 0
  cswCore : Nat := 0
  cswBank : Nat := 0
  discarded : Nat := 0
  lostTransfers : Nat := 0
  notifyDrops : Nat := 0
  perstCount : Nat := 0
  held : List Bar2Req := []
  deriving DecidableEq, Repr

/-- What the package puts on its host links, its management port and its output pins. -/
inductive Output where
  | configRetry (p : Nat)
  | configData (p : Nat) (bytes : List Byte)
  | configDone (p : Nat)
  | unsupported (p : Nat)
  | abort (p : Nat)
  | readData (p : Nat) (bytes : List Byte)
  | hostWrite (p addr : Nat) (bytes : List Byte)
  | msix (p vector addr data : Nat)
  | frame (dst : Nat) (msg : List Byte)
  | linkWord (p kind num : Nat)
  | d2dNak (a b num : Nat)
  | identity (p pos port : Nat)
  | rstreq (low : Bool)
  | thermtrip (low : Bool)
  deriving DecidableEq, Repr

/-- The state of Ridgepole against its parent (Table 13.3). -/
inductive RpState where
  | unaligned
  | locked
  | lost
  deriving DecidableEq, Repr

/-- The code of a Ridgepole state (Table 13.8). -/
def RpState.code : RpState → Nat
  | .unaligned => 0 | .locked => 1 | .lost => 2

/-- One exchange of R306. -/
structure Exchange where
  t1 : Nat
  t2 : Nat
  t3 : Nat
  t4 : Nat
  cout : Nat
  cback : Nat
  deriving DecidableEq, Repr

/-- What a measurement in progress is for (R307, R309). -/
inductive RpUse where
  | align (steps : Nat)
  | monitor
  deriving DecidableEq, Repr

/-- A measurement in progress (R306): its use, the next index to send, the indexes whose REQ has no RESP yet in order
of sending, the exchanges made, and how many went without a RESP in a row. -/
structure RpMeasure where
  use : RpUse
  next : Nat := 0
  waiting : List Nat := []
  done : List (Nat × Exchange) := []
  missed : Nat := 0
  deriving DecidableEq, Repr

/-- Ridgepole (R301 to R309): the counter, its alignment and the slew still to make. -/
structure RpSt where
  now : BitVec 72 := 0
  st : RpState := .unaligned
  parent : Option Nat := none
  offset : Int := 0
  delay : Int := 0
  measure : Option RpMeasure := none
  slew : Int := 0
  slewPhase : Nat := 0
  drifts : Nat := 0
  deriving DecidableEq, Repr

/-- A RELEASE that a package holds (R313, R315): step, attempt, T, operating point, the earliest nanosecond at which it
may release, and whether it was received after T. -/
structure Release where
  step : Nat
  attempt : Nat
  t : Nat
  opp : Nat
  at_ : Nat
  late : Bool := false
  deriving DecidableEq, Repr

/-- How far the commit of a step has got (Table 1.8, R26, R368): the action under way; `captured` once the flysheet of
action 5 is taken or none is due. -/
inductive CommitSt where
  | none
  | running (action : Nat) (captured quiesce : Bool)
  | done (quiesce : Bool)
  deriving DecidableEq, Repr

/-- An arrival of a child (R311, R312): its tag, whether it is clean, its gathered bit (R365). -/
structure Arrival where
  child : Nat
  attempt : Nat
  step : Nat
  clean : Bool
  input : Bool
  deriving DecidableEq, Repr

/-- Guyline (R310 to R318): arrivals of children, the package's own step end and what it has sent for it, whether the
commit decision of the step is known, a RELEASE held, and whether its part of a replay is complete (R365). -/
structure GuySt where
  arrivals : List Arrival := []
  ownEnd : Option Bool := none
  sentClean : Bool := false
  sentFailed : Bool := false
  restored : Bool := false
  held : Option Release := none
  commit : CommitSt := .none
  margin : Nat := 0
  lastRelease : Nat := 0
  lastArrival : Nat := 0
  late : Nat := 0
  discards : Nat := 0
  deriving DecidableEq, Repr

/-- A timetable entry that waits to fire in the current step, and the packets of it already sent (R168, R319). -/
structure TtWait where
  entry : Nat
  armed : Bool
  sent : Nat := 0
  deriving DecidableEq, Repr

/-- The timetable units (R319 to R322). -/
structure TtSt where
  waiting : List TtWait := []
  arrived : List Nat := []
  lateCount : Nat := 0
  lastLate : List Byte := List.replicate 16 0
  deriving DecidableEq, Repr

/-- The states of a pitch (Table 15.8). -/
inductive PitchSt where
  | idle
  | accepted
  | loaded
  | aligned
  | ready
  | running
  | quiesced
  deriving DecidableEq, Repr

/-- The code of a pitch state. -/
def PitchSt.code : PitchSt → Nat
  | .idle => 0 | .accepted => 1 | .loaded => 2 | .aligned => 3 | .ready => 4 | .running => 5 | .quiesced => 6

/-- What follows a job reset (R344, R345, R352, R355). -/
inductive AfterReset where
  | load
  | idle
  deriving DecidableEq, Repr

/-- The pitch machinery of a package (R341 to R357): the record arriving and the record held, results, the children that
have sent each message, the package's own part, a job reset under way, the job last struck, a QUIESCE requested. -/
structure Pitch where
  st : PitchSt := .idle
  recv : List Byte := []
  record : List Byte := []
  reason : Nat := 0
  strikeReason : Nat := 0
  resultRank : Nat := 0
  resultJob : Nat := 0
  accepted : List Nat := []
  loaded : List Nat := []
  acked : List Nat := []
  failed : List Nat := []
  quiesced : List Nat := []
  ownLoaded : Bool := false
  failSent : Bool := false
  resetting : Option AfterReset := none
  keepBivouac : Bool := false
  struck : Option Nat := none
  quiescing : Bool := false
  deriving DecidableEq, Repr

/-- The job a package holds (Table 1.9). -/
structure Job where
  held : Bool := false
  id : Nat := 0
  attempt : Nat := 0
  step : Nat := 0xFFFFFFFFFFFFFFFF
  committed : Nat := 0xFFFFFFFFFFFFFFFF
  first : Nat := 0
  kind : Nat := 0
  rank : Nat := 0
  ranks : Nat := 0
  seed : Nat := 0
  peg : List Nat := []
  image : Option Image := none
  placed : List Placed := []
  relT : Nat := 0
  relNow : Nat := 0
  stepRunning : Bool := false
  steps : Nat := 0
  deriving DecidableEq, Repr

/-- The first error of an attempt (Table 16.10). -/
structure FirstError where
  code : Nat
  rank : Nat
  core : Nat
  level : Nat
  attempt : Nat
  step : Nat
  ns : Nat
  deriving DecidableEq, Repr

/-- Containment state (chapter 16). `staged` tells of a host write to a staging copy since the last commit (R370);
`replayTo` is the step that a replay must reach and `restoreStep` its F (R364, R371). -/
structure ErrSt where
  st : Nat := 0
  first : Option FirstError := none
  unitRetries : Nat := 0
  replays : Nat := 0
  escalations : Nat := 0
  stale : Nat := 0
  newer : Nat := 0
  inputChanged : Bool := false
  staged : Bool := false
  stepFailed : Bool := false
  failCode : Nat := 0
  failRank : Nat := 0
  replayTo : Option Nat := none
  restoreStep : Nat := 0
  resetRequested : Bool := false
  deriving DecidableEq, Repr

/-- A slot on its way to another package: a drain of the flysheet (R379 to R384), or a slot that its holder sends at a
RESTORE (R386). Slot (0 A, 1 B), step, next line, LWRITEs unacknowledged, whether the record is out, and the window of
10 us with the bytes sent in it (R380). -/
structure Drain where
  slot : Nat
  step : Nat
  next : Nat := 0
  unacked : Nat := 0
  recordOut : Bool := false
  window : Nat := 0
  inWindow : Nat := 0
  deriving DecidableEq, Repr

/-- A survey in progress (R385): its request, the ranks that it asks, their holdings. -/
structure Survey where
  mode : Nat
  ranks : Nat
  digest : List Byte
  asked : List Nat
  answers : NMap (List Byte) := []
  deriving DecidableEq, Repr

/-- Where the stage of the last loaded job lies (R383): local address, bytes of the region, bytes of step state. -/
structure StagePlace where
  base : Nat
  size : Nat
  state : Nat
  deriving DecidableEq, Repr

/-- Checkpoints (chapter 17): `newest` is the slot of the newest record that the buddy is known to hold, `give` a slot
that this package sends to its ward, `restoring` that it waits for its own (R386). -/
structure Ckpt where
  stage : Option StagePlace := none
  flyStep : Nat := 0xFFFFFFFFFFFFFFFF
  drain : Option Drain := none
  give : Option Drain := none
  newest : Option Nat := none
  drainedStep : Nat := 0xFFFFFFFFFFFFFFFF
  restarts : Nat := 0
  foreign : Nat := 0
  survey : Option Survey := none
  surveyResult : List Byte := List.replicate 16 0
  restoring : Bool := false
  slots : List (Nat × Nat) := []
  deriving DecidableEq, Repr

end Sys2Proof.Machine
end

