-- ==== Sys2Proof/Syntax.lean ====
section
/-!
DEFINITION. The commands of the Druelle SN20: one constructor per row of the opcode table, with its operands. Events
carry what the outside world brings: readings, packets, request bytes, detected errors.
-/
namespace Sys2Proof

open Machine

/-- A lane that failed training: channel, pseudo-channel (0xFF for command and address), lane (R239, Table 9.7). -/
structure LaneFail where
  ch : Nat
  pseudo : Nat
  lane : Nat
  deriving DecidableEq, Repr

/-- Where a dictionary row takes its request from: the front of the service's queue, or a frame that arrives now on
the management port (source MAC address, whether it was broadcast, message) (R416, R441). -/
inductive DictSrc where
  | queued
  | frame (mac : Nat) (broadcast : Bool) (msg : List Byte)
  deriving DecidableEq, Repr

/-- A configuration request (R407, R411, R412, Table 19.1). -/
inductive CfgReq where
  | read (off len : Nat)
  | write (off : Nat) (bytes : List Byte)
  | power (d3hot : Bool)
  | bar2Size (enc : Nat)
  | msix (enable maskAll : Bool)
  deriving DecidableEq, Repr

/-- A link word (R267). -/
inductive LinkWord where
  | idle
  | ack (num : Nat)
  | nak (num : Nat)
  | seq (num : Nat)
  | credit (lane flits : Nat)
  deriving DecidableEq, Repr

/-- A parity error or other detected error that a command meets (Table 16.2): its guard, its position, whether the
re-execution meets it again. -/
inductive UpsetSite where
  | scratch
  | latch
  | accumulator
  | stage
  | stack (ch : Nat)
  | farPoison (p : Nat)
  | cacheClean (l3 : Bool)
  | cacheDirty
  deriving DecidableEq, Repr

/-- An error met by a command (R361): where, after how many of its units of work, and whether it comes again. -/
structure Upset where
  site : UpsetSite
  at_ : Nat
  again : Bool
  deriving DecidableEq, Repr

/-- A role-epoch NACK: in a fabric packet, or for a die-local transfer (R92). -/
inductive NackSrc where
  | fabric (pkt : Packet)
  | die
  deriving DecidableEq, Repr

/-- A transfer due for reissue: a tracker entry by position, or the oldest die-local one (R93). -/
inductive ReissueSrc where
  | fabric (i : Nat)
  | die
  deriving DecidableEq, Repr

/-- A conversion: its submission by a core, or the work of a context (R206), with an error it may meet. -/
inductive ConvPhase where
  | submit (c : Nat)
  | work (n ctx : Nat) (bad : Bool)
  deriving DecidableEq, Repr

/-- An access through a window: a read of some bytes or a write. -/
inductive MemAcc where
  | read (len : Nat)
  | write (bytes : List Byte)
  deriving DecidableEq, Repr

/-- The commands. -/
inductive Instr where
  /-- PWRGOOD_RISE (R390). -/
  | pwrgoodRise (clkset nodeid : Nat)
  /-- PWRGOOD_FALL (R486). -/
  | pwrgoodFall (mid : Nat)
  /-- REFCLK_LOSS (R494). -/
  | refclkLoss (mid : Nat)
  /-- EDGE_COUNT_DONE (R390). -/
  | edgeCountDone
  /-- PLL_LOCK (R406). -/
  | pllLock
  /-- PLL_LOCK_TIMEOUT (R406). -/
  | pllLockTimeout
  /-- ROM_BOOT_DONE (R405). -/
  | romBootDone (otpEqual : Bool)
  /-- FIRMWARE_VERIFICATION (R461). -/
  | firmwareVerification
  /-- ONDIE_WIPE_DONE (R241). -/
  | ondieWipeDone
  /-- STACK_TRAINING_DONE (R239). -/
  | stackTrainingDone (fails : List LaneFail) (wipeUs : Nat)
  /-- CHANNEL_TRAIN_TIMEOUT (R239). -/
  | channelTrainTimeout (ch : Nat)
  /-- D2D_TRAINING_DONE (R405). -/
  | d2dTrainingDone (ok : Bool)
  /-- HOST_PORT_READY (R398). -/
  | hostPortReady
  /-- RESET_N (R401). -/
  | resetN
  /-- RESET_COMMAND (R402). -/
  | resetCommand (src : DictSrc)
  /-- PERST_ASSERT (R426). -/
  | perstAssert (p : Nat)
  /-- PERST_DEASSERT (R407). -/
  | perstDeassert (p : Nat)
  /-- CONFIG_REQUEST (R407). -/
  | configRequest (p : Nat) (req : CfgReq)
  /-- THERMAL_HOT (R396). -/
  | thermalHot (die : Nat)
  /-- THERMAL_HOLD_TIMER (R396). -/
  | thermalHoldTimer (die : Nat)
  /-- THERMAL_COOL_TIMER (R396). -/
  | thermalCoolTimer
  /-- THERMTRIP (R490). -/
  | thermtrip
  /-- POWER_COMPARISON (R488). -/
  | powerComparison (mean : Nat)
  /-- OVERCURRENT (R488). -/
  | overcurrent
  /-- VOLTAGE_REACHED (R394). -/
  | voltageReached
  /-- FREQ_COUNTER_START (R397). -/
  | freqCounterStart (src : DictSrc)
  /-- FREQ_WINDOW_END (R397). -/
  | freqWindowEnd (edges : Nat)
  /-- TELEMETRY_UPDATE (R456). -/
  | telemetryUpdate (dies hbm : List Nat)
  /-- ECC_SAMPLE (R229). -/
  | eccSample (counts : List Nat)
  /-- OPSECONDS_TICK (R474). -/
  | opsecondsTick
  /-- D2D_FLIT_RECEIVE (R265). -/
  | d2dFlitReceive (a b num : Nat) (parityOk : Bool)
  /-- D2D_NAK (R265). -/
  | d2dNak (a b num : Nat)
  /-- CODEWORD_RECEIVE (R268). -/
  | codewordReceive (p errs : Nat) (link : LinkWord) (pkts : List WirePacket)
  /-- LINK_ACK (R267). -/
  | linkAck (p num : Nat)
  /-- LINK_NAK (R268). -/
  | linkNak (p num : Nat)
  /-- LINK_CREDIT (R273). -/
  | linkCredit (p lane flits : Nat)
  /-- FEC_LOCK (R276). -/
  | fecLock (p : Nat)
  /-- PORT_TRAIN_TIMEOUT (R276). -/
  | portTrainTimeout (p : Nat)
  /-- IDENTITY_FRAME (R276). -/
  | identityFrame (p pos farPort : Nat) (farAgrees : Bool) (roundTrip : Nat)
  /-- IDENTITY_TIMEOUT (R276). -/
  | identityTimeout (p : Nat)
  /-- RETRAIN_DELAY_EXPIRY (R276). -/
  | retrainDelayExpiry (p : Nat)
  /-- LOSS_OF_SIGNAL (R276). -/
  | lossOfSignal (p : Nat)
  /-- FPORT_ADMIN_ENABLE (R276). -/
  | fportAdminEnable (src : DictSrc)
  /-- PORT_MAP_WRITE (R275). -/
  | portMapWrite (src : DictSrc)
  /-- TRANSIT_PACKET (R279). -/
  | transitPacket (p lane : Nat) (pkt : Packet)
  /-- TT_PACKET (R322). -/
  | ttPacket (pkt : Packet)
  /-- SEND_PACKET (R282). -/
  | sendPacket (pkt : Packet)
  /-- COLL_PACKET (R334). -/
  | collPacket (pkt : Packet) (bad : Bool)
  /-- LREAD_PACKET (R289). -/
  | lreadPacket (pkt : Packet) (bad : Bool)
  /-- LWRITE_PACKET (R289). -/
  | lwritePacket (pkt : Packet)
  /-- LINE_QUEUE_APPLY (R296). -/
  | lineQueueApply (line : Nat)
  /-- LRESP_PACKET (R283). -/
  | lrespPacket (pkt : Packet)
  /-- ACK_PACKET (R283). -/
  | ackPacket (pkt : Packet)
  /-- ROLE_NACK_EARLY (R93). -/
  | roleNackEarly (src : NackSrc)
  /-- ROLE_NACK_STALE (R94). -/
  | roleNackStale (src : NackSrc)
  /-- EARLY_REISSUE (R93). -/
  | earlyReissue (src : ReissueSrc)
  /-- KEEPALIVE_PACKET (R298). -/
  | keepalivePacket (pkt : Packet)
  /-- KEEPALIVE_TIMER (R298). -/
  | keepaliveTimer (i : Nat)
  /-- REISSUE_TIMER (R283). -/
  | reissueTimer (i : Nat)
  /-- REQUEST_TIMEOUT (R300). -/
  | requestTimeout (rank : Nat)
  /-- FABRIC_DRAIN (R281). -/
  | fabricDrain (src : DictSrc)
  /-- TABLES_DRAINED (R281). -/
  | tablesDrained
  /-- FABRIC_APPLY (R281). -/
  | fabricApply (src : DictSrc)
  /-- FABRIC_CANCEL (R281). -/
  | fabricCancel (src : DictSrc)
  /-- MGMT_PACKET (R439). -/
  | mgmtPacket (pkt : Packet)
  /-- TIMESYNC_REQ (R305). -/
  | timesyncReq (pkt : Packet)
  /-- TIMESYNC_RESP (R306). -/
  | timesyncResp (pkt : Packet)
  /-- TIMESYNC_INTERVAL (R306). -/
  | timesyncInterval
  /-- TIMESYNC_NO_RESP (R306). -/
  | timesyncNoResp
  /-- RIDGEPOLE_CHECK (R309). -/
  | ridgepoleCheck
  /-- PACKAGE_STEP_END (R20). -/
  | packageStepEnd
  /-- ARRIVE_CLEAN (R312). -/
  | arriveClean (pkt : Packet)
  /-- ARRIVE_FAILED (R312). -/
  | arriveFailed (pkt : Packet)
  /-- RELEASE (R26). -/
  | release (pkt : Packet)
  /-- RELEASE_AT_T (R315). -/
  | releaseAtT
  /-- ABANDON (R365). -/
  | abandon (pkt : Packet)
  /-- GUYLINE_CHILD_TIMEOUT (R318). -/
  | guylineChildTimeout (child : Nat)
  /-- OPPOINT_SWITCH (R317). -/
  | oppointSwitch
  /-- TIMETABLE_FIRE (R319). -/
  | timetableFire (entry : Nat)
  /-- SIGNAL (R69). -/
  | signal (c : Nat) (e : Engine)
  /-- WAIT (R72). -/
  | wait (c : Nat)
  /-- WAIT_COMPLETE (R72). -/
  | waitComplete (c : Nat)
  /-- WAITFLAG (R73). -/
  | waitflag (c : Nat)
  /-- WAITFLAG_COMPLETE (R73). -/
  | waitflagComplete (c : Nat)
  /-- REPEAT (R156). -/
  | repeat_ (c : Nat)
  /-- STEPEND (R67). -/
  | stepend (c : Nat)
  /-- SWAP (R89). -/
  | swap (c : Nat)
  /-- SWAP_EXCHANGE (R89). -/
  | swapExchange (c : Nat)
  /-- SWAP_TIMEOUT (R90). -/
  | swapTimeout (c : Nat)
  /-- TSET (R161). -/
  | tset (c : Nat)
  /-- TADD (R161). -/
  | tadd (c : Nat)
  /-- TMOV (R161). -/
  | tmov (c : Nat)
  /-- TCMP (R71). -/
  | tcmp (c : Nat)
  /-- MEMUL (R108). -/
  | memul (c : Nat) (u : Option Upset)
  /-- ME_TILE_VISIBLE (R111). -/
  | meTileVisible (c : Nat)
  /-- MESCL (R162). -/
  | mescl (c : Nat)
  /-- MEEXP (R113). -/
  | meexp (c : Nat)
  /-- MEGATH (R114). -/
  | megath (c : Nat)
  /-- MESCANR (R112). -/
  | mescanr (c : Nat) (u : Option Upset)
  /-- MESCANC (R112). -/
  | mescanc (c : Nat) (u : Option Upset)
  /-- GATHER_TIMEOUT (R116). -/
  | gatherTimeout (c : Nat)
  /-- VECHAIN (R120). -/
  | vechain (c : Nat) (u : Option Upset)
  /-- DMWLOAD (R99). -/
  | dmwload (c : Nat) (u : Option Upset)
  /-- DMXFER (R165). -/
  | dmxfer (c : Nat) (u : Option Upset)
  /-- DMLINK (R249). -/
  | dmlink (c : Nat)
  /-- DMCONV_NARROW (R210). -/
  | dmconvNarrow (ph : ConvPhase)
  /-- DMCONV_WIDEN (R215). -/
  | dmconvWiden (ph : ConvPhase)
  /-- DMCONV_GENERATE (R217). -/
  | dmconvGenerate (ph : ConvPhase)
  /-- CONTEXT_ALLOCATE (R206). -/
  | contextAllocate (n : Nat)
  /-- CONV_DESCRIPTOR_DONE (R216). -/
  | convDescriptorDone (n ctx : Nat)
  /-- CONV_TIMEOUT (R207). -/
  | convTimeout (n ctx : Nat)
  /-- XMOV_SEND (R166). -/
  | xmovSend (c : Nat) (u : Option Upset)
  /-- XMOV_PUT (R166). -/
  | xmovPut (c : Nat) (u : Option Upset)
  /-- XMOV_GET (R166). -/
  | xmovGet (c : Nat) (u : Option Upset)
  /-- XFENCE (R295). -/
  | xfence (c : Nat)
  /-- XARM (R168). -/
  | xarm (c : Nat)
  /-- XCOLL_ALLGATHER (R330). -/
  | xcollAllgather (c : Nat) (u : Option Upset)
  /-- XCOLL_REDUCE (R334). -/
  | xcollReduce (c : Nat) (u : Option Upset)
  /-- XCOLL_ALLREDUCE (R335). -/
  | xcollAllreduce (c : Nat) (u : Option Upset)
  /-- XCOLL_BCAST (R335). -/
  | xcollBcast (c : Nat) (u : Option Upset)
  /-- COLL_TIMEOUT (R339). -/
  | collTimeout (c : Nat)
  /-- TRANSFER_ARRIVAL (R80). -/
  | transferArrival (c : Nat)
  /-- LOADER_BANK_COMPLETE (R88). -/
  | loaderBankComplete (c role : Nat)
  /-- COMMAND_BANK_WRITE (R95). -/
  | commandBankWrite (src : DictSrc)
  /-- CSW_ACCESS (R420). -/
  | cswAccess (p off : Nat) (acc : MemAcc)
  /-- HART_FIRST_FAULT_LOAD (R188). -/
  | hartFirstFaultLoad (h : Nat)
  /-- HART_CANOPY_LOAD (R183). -/
  | hartCanopyLoad (h : Nat)
  /-- HART_CANOPY_STORE (R183). -/
  | hartCanopyStore (h : Nat)
  /-- KFX_DB_TCFLAG (R191). -/
  | kfxDbTcflag (h : Nat)
  /-- KFX_DB_HART (R192). -/
  | kfxDbHart (h : Nat)
  /-- KFX_DB_STEPEND (R180). -/
  | kfxDbStepend (h : Nat)
  /-- DOORBELL_EFFECT (R190). -/
  | doorbellEffect (h : Nat)
  /-- KFX_CFENCE (R194). -/
  | kfxCfence (h : Nat)
  /-- MSI_ARRIVAL (R196). -/
  | msiArrival (h ident : Nat)
  /-- HART_TRAP (R200). -/
  | hartTrap (h : Nat)
  /-- SOLVER_STEP_TIMEOUT (R180). -/
  | solverStepTimeout (h : Nat)
  /-- PROBLEM_START (R259). -/
  | problemStart (d : Nat) (bad : Bool)
  /-- LINK_DOT (R256). -/
  | linkDot (d : Nat) (bad : Bool)
  /-- LINK_PIVOT (R256). -/
  | linkPivot (d : Nat) (bad : Bool)
  /-- LINK_NORM (R261). -/
  | linkNorm (d : Nat) (bad : Bool)
  /-- LINK_TIMEOUT (R263). -/
  | linkTimeout (d : Nat)
  /-- PITCH_REQUEST (R341). -/
  | pitchRequest (src : DictSrc)
  /-- PITCH_RECORD (R346). -/
  | pitchRecord (pkt : Packet)
  /-- LOAD_COMPLETE (R347). -/
  | loadComplete (img : Option (List Byte))
  /-- PITCH_ACCEPT (R345). -/
  | pitchAccept (pkt : Packet)
  /-- PITCH_LOADED (R345). -/
  | pitchLoaded (pkt : Packet)
  /-- PITCH_ALIGN (R307). -/
  | pitchAlign (pkt : Packet)
  /-- PITCH_ACK (R350). -/
  | pitchAck (pkt : Packet)
  /-- PITCH_FAIL (R348). -/
  | pitchFail (pkt : Packet)
  /-- PITCH_ABORT (R345). -/
  | pitchAbort (pkt : Packet)
  /-- PITCH_QUIESCE (R354). -/
  | pitchQuiesce (pkt : Packet)
  /-- PITCH_QUIESCED (R354). -/
  | pitchQuiesced (pkt : Packet)
  /-- PITCH_CHILD_TIMEOUT (R349). -/
  | pitchChildTimeout (child : Nat)
  /-- PITCH_ABANDON_TIMEOUT (R345). -/
  | pitchAbandonTimeout
  /-- COMMAND_STRIKE (R351). -/
  | commandStrike (src : DictSrc)
  /-- COMMAND_QUIESCE (R357). -/
  | commandQuiesce (src : DictSrc)
  /-- COMMAND_RESUME (R354). -/
  | commandResume (src : DictSrc)
  /-- COMMAND_LEAVE (R355). -/
  | commandLeave (src : DictSrc)
  /-- QUIESCE_STEP_WRITE (R354). -/
  | quiesceStepWrite (src : DictSrc)
  /-- STRIKE_PACKET (R352). -/
  | strikePacket (pkt : Packet)
  /-- JOB_RESET_DONE (R344). -/
  | jobResetDone (wipeUs : Nat)
  /-- CAPTURE_COMPLETE (R377). -/
  | captureComplete
  /-- DRAIN_LINES_ACKED (R382). -/
  | drainLinesAcked
  /-- DRAIN_RECORD_ACKED (R382). -/
  | drainRecordAcked
  /-- BIVOUAC_LWRITE (R381). -/
  | bivouacLwrite (pkt : Packet)
  /-- SURVEY (R385). -/
  | survey (src : DictSrc)
  /-- SURVEY_DONE (R385). -/
  | surveyDone
  /-- MBX_GO (R416). -/
  | mbxGo (p len : Nat)
  /-- BAR0_REGISTER_WRITE (R415). -/
  | bar0RegisterWrite (p off : Nat) (bytes : List Byte)
  /-- HOST_DOORBELL (R419). -/
  | hostDoorbell (p h : Nat)
  /-- BAR2_READ (R421). -/
  | bar2Read (p off len : Nat) (bad : Bool)
  /-- BAR2_WRITE (R421). -/
  | bar2Write (p off : Nat) (bytes : List Byte)
  /-- LOCK_TAKE (R423). -/
  | lockTake (src : DictSrc)
  /-- LOCK_RELEASE (R423). -/
  | lockRelease (src : DictSrc)
  /-- LEASE_EXPIRY (R425). -/
  | leaseExpiry (area : Nat)
  /-- DICT_READ (R430). -/
  | dictRead (src : DictSrc)
  /-- DICT_WRITE (R434). -/
  | dictWrite (src : DictSrc)
  /-- DICT_READ_BLOCK (R431). -/
  | dictReadBlock (src : DictSrc)
  /-- DICT_WRITE_BLOCK (R432). -/
  | dictWriteBlock (src : DictSrc)
  /-- DICT_SIGNED_WRITE (R435). -/
  | dictSignedWrite (src : DictSrc)
  /-- DICT_SUBSCRIBE (R437). -/
  | dictSubscribe (src : DictSrc)
  /-- DICT_RELAY (R439). -/
  | dictRelay (src : DictSrc)
  /-- RELAY_TIMEOUT (R439). -/
  | relayTimeout (id : Nat)
  /-- BLOCK_IDLE_TIMEOUT (R432). -/
  | blockIdleTimeout (path : DictPath)
  /-- CLOCK_ENABLE_WRITE (R400). -/
  | clockEnableWrite (src : DictSrc)
  /-- ATTESTATION_NONCE (R451). -/
  | attestationNonce (src : DictSrc)
  /-- QUOTE_DONE (R466). -/
  | quoteDone
  /-- LIFECYCLE_TRANSITION (R454). -/
  | lifecycleTransition (src : DictSrc)
  /-- FIRMWARE_UPDATE (R455). -/
  | firmwareUpdate (src : DictSrc)
  /-- RECORDER_WRITE (R476). -/
  | recorderWrite
  /-- TOKEN_REFILL (R478). -/
  | tokenRefill (code : Nat)
  /-- SUPPRESSED_SUMMARY (R479). -/
  | suppressedSummary
  /-- FAR_LINK_DOWN (R246). -/
  | farLinkDown (p : Nat)
  /-- HART_INSTRUCTION (R175). -/
  | hartInstruction (h : Nat) (u : Option Upset)
  /-- COMMIT_SEQUENCE_COMPLETE (R26). -/
  | commitSequenceComplete
  /-- RECOVERY_RELAYOUT_COMPLETE (R365). -/
  | recoveryRelayoutComplete
  /-- HOST_LINK_UP (R407). -/
  | hostLinkUp (p rate width : Nat)
  /-- FAR_LINK_UP (R244). -/
  | farLinkUp (p rate device : Nat)
  deriving DecidableEq, Repr

end Sys2Proof
end

