-- ==== Sys2Proof/Decode.lean ====
section
/-!
DEFINITION. The opcode table gives no row any bits: commands have no encoding, and every word spells none.
-/
namespace Sys2Proof

/-- The command that a word spells by the table's bits: none, since no row of the table has a field. -/
def decodeTableWord (_nbits _w : Nat) : Option Instr := none

end Sys2Proof
end

