-- ==== Sys2Proof/Config.lean ====
section
/-!
DEFINITION. What an implementation fixes and what the spec leaves open: opaque constants without a body.
-/
namespace Sys2Proof.Config

/-- `Identity.SerialNumber`, set at manufacture (Table 21.5). -/
opaque serial : BitVec 64

/-- The MAC address of the management port, set at manufacture (Table 20.6). -/
opaque mac : BitVec 48

/-- `Identity.RomVersion`, set at manufacture (Table 21.5). -/
opaque romVersion : BitVec 32

/-- The device-unique secret, 32 bytes (Table 22.2). -/
opaque uds : BitVec 256

/-- The digest of the Keamer root public key in OTP, 64 bytes (Table 22.2). -/
opaque rootDigest : BitVec 512

/-- The firmware image that manufacture left in a slot (R459); empty where it left none. -/
opaque firmware : Nat → List Byte

/-- slh_keygen_internal of FIPS 205 (R464): parameter set (0 for 256s, 1 for 256f), 96 bytes of seed; secret key. -/
opaque slhSecret : Nat → List Byte → List Byte

/-- The public key of slh_keygen_internal, 64 bytes (R464). -/
opaque slhPublic : Nat → List Byte → BitVec 512

/-- Deterministic SLH-DSA signature (R457): parameter set, secret key, message. -/
opaque slhSign : Nat → List Byte → List Byte → List Byte

/-- SLH-DSA-SHAKE-256s verification (R457): public key, message, signature. -/
opaque slhVerify : List Byte → List Byte → List Byte → Bool

/-- The native form of a role's commands and descriptors (R173, R420): command words, descriptor words; bytes. -/
opaque native : List Nat → List Nat → List Byte

/-- The native form of a TIMETABLE, CONVERSION or LINKAGE section: its type and bytes (R3, R173). -/
opaque nativeSection : Nat → List Byte → List Byte

/-- What an entry that tells of the running firmware reads while none runs (R409): the entry's key. -/
opaque noFirmware : Nat → BitVec 512

/-- The page of slab 0 in which the loader keeps the region table (R181, R230). -/
opaque regionTablePage : Nat

/-- The value of a counter of cycles or of waits at a Ridgepole time (Tables 3.9, 4.7, 5.10, 7.13, 8.12, 10.9, 11.14,
14.6): the entry's key and the time. Its timing is not modelled. -/
opaque cycleCounter : Nat → Nat → BitVec 64

/-- A byte of configuration space that Table 19.1 does not give: port, offset. -/
opaque configByte : Nat → Nat → Byte

/-- The bits of a byte of configuration space that a host can write: offset. -/
opaque configMask : Nat → Byte

/-- The die byte of the THROTTLE record of a cooling move: the free-value counter (R396, Table 23.3). -/
opaque coolDie : Nat → Byte

/-- A value that the spec leaves open: the free-value counter. -/
opaque freeWord : Nat → BitVec 64

/-- A payload field or location of an event that the spec does not fix: event code and the free-value counter. -/
opaque eventField : Nat → Nat → BitVec 48

/-- mvendorid, marchid and mimpid of a hart, which the spec does not give: the CSR's number. -/
opaque idCsr : Nat → BitVec 64

/-- mtval at an illegal instruction or a breakpoint, which the RISC-V architecture leaves open: the cause, and the
instruction's bits or address. -/
opaque trapValue : Nat → Nat → BitVec 64

/-- The vl that vsetvl sets for an AVL between VLMAX and twice VLMAX, which the V extension leaves open within bounds:
AVL and VLMAX. -/
opaque vlChoice : Nat → Nat → Nat

end Sys2Proof.Config
end

