-- ==== Sys2Proof/Machine/DictTable.lean ====
section
/-!
DEFINITION. The dictionary's entries: type, access, change class and default of every subindex, from the tables that
Table 21.2 names (R442 to R445, R448).
-/
namespace Sys2Proof.Machine

/-- The types of entries (R429). -/
inductive DictTy where
  | bool
  | u8
  | u16
  | u32
  | u64
  | i64
  | str
  | domain
  deriving DecidableEq, Repr

/-- The type code (R429). -/
def DictTy.code : DictTy → Nat
  | .bool => 0x01 | .u8 => 0x02 | .u16 => 0x03 | .u32 => 0x04 | .u64 => 0x05 | .i64 => 0x09 | .str => 0x0C
  | .domain => 0x0D

/-- The length of a value of a fixed-size type. -/
def DictTy.size : DictTy → Option Nat
  | .bool => some 1 | .u8 => some 1 | .u16 => some 2 | .u32 => some 4 | .u64 => some 8 | .i64 => some 8
  | .str => none | .domain => none

/-- Access (chapter 21). -/
inductive DictAcc where
  | ro
  | rw
  | wo
  deriving DecidableEq, Repr

/-- Change class (R434). -/
inductive DictCls where
  | live
  | quiesce
  | reset
  deriving DecidableEq, Repr

/-- Whose step end an entry takes a snapshot at (R448). -/
inductive DictSnap where
  | no
  | core
  | hart
  | pkg
  deriving DecidableEq, Repr

/-- A default: its length in bytes and its value. -/
structure DictDefault where
  len : Nat
  val : Nat
  deriving DecidableEq, Repr

/-- An entry. -/
structure DictEntry where
  ty : DictTy
  acc : DictAcc
  cls : DictCls
  dflt : DictDefault
  snap : DictSnap
  deriving DecidableEq, Repr

/-- An index: its first number, its instances and its subindexes from 0x01 on. -/
structure DictIndex where
  base : Nat
  count : Nat
  entries : List DictEntry
  deriving DecidableEq, Repr

/-- Index 0x1000 `Identity`: its subindexes from 0x01 on, in order. -/
def dictIdentity : DictIndex :=
  ⟨0x1000, 1, [
    ⟨.str, .ro, .reset, ⟨0, 0⟩, .no⟩,
    ⟨.str, .ro, .reset, ⟨0, 0⟩, .no⟩,
    ⟨.str, .ro, .reset, ⟨0, 0⟩, .no⟩,
    ⟨.u8, .ro, .reset, ⟨1, 161⟩, .no⟩,
    ⟨.u64, .ro, .reset, ⟨8, 0⟩, .no⟩,
    ⟨.u32, .ro, .reset, ⟨4, 0⟩, .no⟩,
    ⟨.u32, .ro, .reset, ⟨4, 0⟩, .no⟩]⟩

/-- Index 0x1010 `Family`: its subindexes from 0x01 on, in order. -/
def dictFamily : DictIndex :=
  ⟨0x1010, 1, [
    ⟨.u8, .ro, .reset, ⟨1, 8⟩, .no⟩,
    ⟨.u8, .ro, .reset, ⟨1, 32⟩, .no⟩,
    ⟨.u32, .ro, .reset, ⟨4, 8388608⟩, .no⟩,
    ⟨.u8, .ro, .reset, ⟨1, 32⟩, .no⟩,
    ⟨.u8, .ro, .reset, ⟨1, 24⟩, .no⟩,
    ⟨.u16, .ro, .reset, ⟨2, 128⟩, .no⟩,
    ⟨.u8, .ro, .reset, ⟨1, 8⟩, .no⟩,
    ⟨.u8, .ro, .reset, ⟨1, 32⟩, .no⟩]⟩

/-- Index 0x1020 `Attestation`: its subindexes from 0x01 on, in order. -/
def dictAttestation : DictIndex :=
  ⟨0x1020, 1, [
    ⟨.domain, .ro, .reset, ⟨0, 0⟩, .no⟩,
    ⟨.domain, .wo, .quiesce, ⟨0, 0⟩, .no⟩,
    ⟨.u8, .ro, .live, ⟨1, 0⟩, .no⟩,
    ⟨.domain, .ro, .live, ⟨0, 0⟩, .no⟩,
    ⟨.domain, .ro, .live, ⟨64, 0⟩, .no⟩]⟩

/-- Index 0x1110 `DictComm`: its subindexes from 0x01 on, in order. -/
def dictDictComm : DictIndex :=
  ⟨0x1110, 1, [
    ⟨.u8, .ro, .reset, ⟨1, 1⟩, .no⟩,
    ⟨.domain, .ro, .reset, ⟨0, 0⟩, .no⟩,
    ⟨.u8, .ro, .reset, ⟨1, 0⟩, .no⟩,
    ⟨.u8, .rw, .reset, ⟨1, 8⟩, .no⟩,
    ⟨.u64, .rw, .reset, ⟨8, 4398046511103⟩, .no⟩,
    ⟨.domain, .ro, .live, ⟨4, 0⟩, .no⟩,
    ⟨.u32, .ro, .live, ⟨4, 0⟩, .no⟩]⟩

/-- Index 0x2010 `ClockEnable`: its subindexes from 0x01 on, in order. -/
def dictClockEnable : DictIndex :=
  ⟨0x2010, 1, [
    ⟨.domain, .rw, .quiesce, ⟨32, 0⟩, .no⟩,
    ⟨.domain, .rw, .quiesce, ⟨16, 0⟩, .no⟩,
    ⟨.u32, .rw, .quiesce, ⟨4, 0⟩, .no⟩,
    ⟨.u32, .rw, .quiesce, ⟨4, 0⟩, .no⟩,
    ⟨.u32, .rw, .quiesce, ⟨4, 0⟩, .no⟩]⟩

/-- Index 0x2020 `FreqCounter`: its subindexes from 0x01 on, in order. -/
def dictFreqCounter : DictIndex :=
  ⟨0x2020, 1, [
    ⟨.u16, .rw, .quiesce, ⟨2, 16⟩, .no⟩,
    ⟨.u32, .rw, .quiesce, ⟨4, 100000⟩, .no⟩,
    ⟨.u8, .wo, .quiesce, ⟨1, 0⟩, .no⟩,
    ⟨.u8, .ro, .live, ⟨1, 0⟩, .no⟩,
    ⟨.u64, .ro, .live, ⟨8, 0⟩, .no⟩]⟩

/-- Index 0x2110 `Power`: its subindexes from 0x01 on, in order. -/
def dictPower : DictIndex :=
  ⟨0x2110, 1, [
    ⟨.u8, .ro, .live, ⟨1, 7⟩, .no⟩,
    ⟨.u8, .rw, .quiesce, ⟨1, 0⟩, .no⟩,
    ⟨.u8, .rw, .live, ⟨1, 7⟩, .no⟩,
    ⟨.u8, .ro, .live, ⟨1, 0⟩, .no⟩,
    ⟨.u32, .ro, .live, ⟨4, 0⟩, .no⟩,
    ⟨.u8, .ro, .live, ⟨1, 0⟩, .no⟩,
    ⟨.domain, .ro, .reset, ⟨0, 0⟩, .no⟩,
    ⟨.u64, .ro, .live, ⟨8, 0⟩, .no⟩]⟩

/-- Index 0x2120 `PowerBudget`: its subindexes from 0x01 on, in order. -/
def dictPowerBudget : DictIndex :=
  ⟨0x2120, 1, [
    ⟨.u16, .ro, .reset, ⟨2, 4200⟩, .no⟩,
    ⟨.domain, .ro, .reset, ⟨0, 0⟩, .no⟩,
    ⟨.u16, .rw, .live, ⟨2, 4200⟩, .no⟩,
    ⟨.u16, .ro, .live, ⟨2, 0⟩, .no⟩,
    ⟨.u32, .ro, .live, ⟨4, 0⟩, .no⟩,
    ⟨.u16, .ro, .live, ⟨2, 0⟩, .no⟩]⟩

/-- Index 0x2210 `Reset`: its subindexes from 0x01 on, in order. -/
def dictReset : DictIndex :=
  ⟨0x2210, 1, [
    ⟨.u16, .wo, .quiesce, ⟨2, 0⟩, .no⟩,
    ⟨.u8, .ro, .reset, ⟨1, 1⟩, .no⟩,
    ⟨.u32, .ro, .reset, ⟨4, 0⟩, .no⟩,
    ⟨.u8, .ro, .live, ⟨1, 0⟩, .no⟩,
    ⟨.u8, .ro, .reset, ⟨1, 0⟩, .no⟩,
    ⟨.u32, .ro, .reset, ⟨4, 0⟩, .no⟩,
    ⟨.u8, .ro, .reset, ⟨1, 0⟩, .no⟩]⟩

/-- Index 0x3010 `Stacks`: its subindexes from 0x01 on, in order. -/
def dictStacks : DictIndex :=
  ⟨0x3010, 1, [
    ⟨.u16, .ro, .reset, ⟨2, 1024⟩, .no⟩,
    ⟨.domain, .ro, .reset, ⟨128, 0⟩, .no⟩,
    ⟨.domain, .ro, .reset, ⟨0, 0⟩, .no⟩,
    ⟨.u64, .ro, .reset, ⟨8, 2147483648⟩, .no⟩,
    ⟨.domain, .ro, .reset, ⟨0, 0⟩, .no⟩,
    ⟨.u16, .ro, .reset, ⟨2, 527⟩, .no⟩,
    ⟨.domain, .ro, .live, ⟨0, 0⟩, .no⟩,
    ⟨.u32, .ro, .reset, ⟨4, 0⟩, .no⟩,
    ⟨.u32, .rw, .live, ⟨4, 16⟩, .no⟩,
    ⟨.domain, .ro, .live, ⟨128, 0⟩, .no⟩,
    ⟨.u64, .ro, .live, ⟨8, 0⟩, .no⟩,
    ⟨.u64, .ro, .live, ⟨8, 0⟩, .no⟩]⟩

/-- Index 0x3100 `Stack`: its subindexes from 0x01 on, in order. -/
def dictStack : DictIndex :=
  ⟨0x3100, 32, [
    ⟨.domain, .ro, .reset, ⟨0, 0⟩, .no⟩,
    ⟨.u16, .ro, .reset, ⟨2, 0⟩, .no⟩,
    ⟨.u32, .ro, .reset, ⟨4, 0⟩, .no⟩,
    ⟨.u64, .ro, .live, ⟨8, 0⟩, .no⟩,
    ⟨.u64, .ro, .live, ⟨8, 0⟩, .no⟩,
    ⟨.u64, .ro, .live, ⟨8, 0⟩, .no⟩,
    ⟨.u64, .ro, .live, ⟨8, 0⟩, .no⟩,
    ⟨.u8, .ro, .live, ⟨1, 0⟩, .no⟩]⟩

/-- Index 0x4010 `FabricTables`: its subindexes from 0x01 on, in order. -/
def dictFabricTables : DictIndex :=
  ⟨0x4010, 1, [
    ⟨.u8, .ro, .live, ⟨1, 0⟩, .no⟩,
    ⟨.u8, .wo, .quiesce, ⟨1, 0⟩, .no⟩,
    ⟨.u32, .ro, .live, ⟨4, 0⟩, .no⟩]⟩

/-- Index 0x4100 `DomainMap`: its subindexes from 0x01 on, in order. -/
def dictDomainMap : DictIndex :=
  ⟨0x4100, 1, [
    ⟨.u16, .rw, .quiesce, ⟨2, 65535⟩, .no⟩,
    ⟨.domain, .rw, .quiesce, ⟨96, (2 ^ 768 - 1) / (2 ^ 32 - 1) * 0xFFFF⟩, .no⟩]⟩

/-- Index 0x4210 `FabricPort`: its subindexes from 0x01 on, in order. -/
def dictFabricPort : DictIndex :=
  ⟨0x4210, 1, [
    ⟨.u32, .ro, .live, ⟨4, 0⟩, .no⟩,
    ⟨.u8, .rw, .live, ⟨1, 8⟩, .no⟩,
    ⟨.u8, .rw, .live, ⟨1, 8⟩, .no⟩,
    ⟨.u32, .rw, .live, ⟨4, 1000⟩, .no⟩,
    ⟨.u32, .rw, .live, ⟨4, 8⟩, .no⟩,
    ⟨.u16, .rw, .live, ⟨2, 0⟩, .no⟩,
    ⟨.domain, .ro, .live, ⟨32, 0⟩, .no⟩]⟩

/-- Index 0x4300 `FPort`: its subindexes from 0x01 on, in order. -/
def dictFPort : DictIndex :=
  ⟨0x4300, 24, [
    ⟨.bool, .rw, .quiesce, ⟨1, 1⟩, .no⟩,
    ⟨.u8, .ro, .live, ⟨1, 0⟩, .no⟩,
    ⟨.u32, .ro, .live, ⟨4, 4294967295⟩, .no⟩,
    ⟨.u32, .ro, .live, ⟨4, 0⟩, .no⟩,
    ⟨.domain, .ro, .live, ⟨16, 0⟩, .pkg⟩,
    ⟨.domain, .ro, .live, ⟨16, 0⟩, .pkg⟩,
    ⟨.u64, .ro, .live, ⟨8, 0⟩, .pkg⟩,
    ⟨.u64, .ro, .live, ⟨8, 0⟩, .pkg⟩,
    ⟨.u64, .ro, .live, ⟨8, 0⟩, .pkg⟩,
    ⟨.u64, .ro, .live, ⟨8, 0⟩, .pkg⟩,
    ⟨.u32, .ro, .live, ⟨4, 0⟩, .pkg⟩,
    ⟨.domain, .ro, .live, ⟨32, 0⟩, .pkg⟩,
    ⟨.domain, .ro, .live, ⟨16, 0⟩, .no⟩,
    ⟨.domain, .ro, .live, ⟨16, 0⟩, .pkg⟩,
    ⟨.domain, .ro, .live, ⟨0, 0⟩, .no⟩,
    ⟨.u32, .ro, .live, ⟨4, 0⟩, .pkg⟩,
    ⟨.u64, .ro, .live, ⟨8, 0⟩, .pkg⟩]⟩

/-- Index 0x4400 `Peg`: its subindexes from 0x01 on, in order. -/
def dictPeg : DictIndex :=
  ⟨0x4400, 1, [
    ⟨.domain, .rw, .quiesce, ⟨1024, 2 ^ 8192 - 1⟩, .no⟩]⟩

/-- Index 0x4500 `Route`: its subindexes from 0x01 on, in order. -/
def dictRoute : DictIndex :=
  ⟨0x4500, 1, [
    ⟨.domain, .rw, .quiesce, ⟨4096, 0⟩, .no⟩]⟩

/-- Index 0x4810 `Canopy`: its subindexes from 0x01 on, in order. -/
def dictCanopy : DictIndex :=
  ⟨0x4810, 1, [
    ⟨.u32, .rw, .live, ⟨4, 50⟩, .no⟩,
    ⟨.u64, .ro, .live, ⟨8, 0⟩, .pkg⟩,
    ⟨.u64, .ro, .live, ⟨8, 0⟩, .pkg⟩,
    ⟨.u32, .ro, .live, ⟨4, 0⟩, .pkg⟩,
    ⟨.u16, .ro, .live, ⟨2, 65535⟩, .no⟩,
    ⟨.u32, .ro, .live, ⟨4, 0⟩, .pkg⟩,
    ⟨.u64, .ro, .live, ⟨8, 0⟩, .pkg⟩]⟩

/-- Index 0x5010 `TensorCoreCtl`: its subindexes from 0x01 on, in order. -/
def dictTensorCoreCtl : DictIndex :=
  ⟨0x5010, 1, [
    ⟨.u32, .rw, .live, ⟨4, 1000⟩, .no⟩,
    ⟨.u16, .rw, .live, ⟨2, 4096⟩, .no⟩]⟩

/-- Index 0x5020 `MatrixEngineCtl`: its subindexes from 0x01 on, in order. -/
def dictMatrixEngineCtl : DictIndex :=
  ⟨0x5020, 1, [
    ⟨.u32, .rw, .live, ⟨4, 10000⟩, .no⟩]⟩

/-- Index 0x5100 `TensorCore`: its subindexes from 0x01 on, in order. -/
def dictTensorCore : DictIndex :=
  ⟨0x5100, 256, [
    ⟨.u16, .ro, .live, ⟨2, 0⟩, .core⟩,
    ⟨.u8, .ro, .live, ⟨1, 0⟩, .core⟩,
    ⟨.u8, .ro, .live, ⟨1, 255⟩, .core⟩,
    ⟨.u64, .ro, .live, ⟨8, 0⟩, .core⟩,
    ⟨.u64, .ro, .live, ⟨8, 0⟩, .core⟩,
    ⟨.u64, .ro, .live, ⟨8, 0⟩, .core⟩,
    ⟨.u64, .ro, .live, ⟨8, 0⟩, .core⟩,
    ⟨.u64, .ro, .live, ⟨8, 0⟩, .core⟩,
    ⟨.u64, .ro, .live, ⟨8, 0⟩, .core⟩,
    ⟨.u64, .ro, .live, ⟨8, 0⟩, .core⟩,
    ⟨.u32, .ro, .live, ⟨4, 0⟩, .core⟩,
    ⟨.u32, .ro, .live, ⟨4, 0⟩, .core⟩,
    ⟨.u32, .ro, .live, ⟨4, 0⟩, .core⟩,
    ⟨.domain, .rw, .quiesce, ⟨0, 0⟩, .no⟩,
    ⟨.domain, .rw, .quiesce, ⟨0, 0⟩, .no⟩]⟩

/-- Index 0x5200 `MatrixEngine`: its subindexes from 0x01 on, in order. -/
def dictMatrixEngine : DictIndex :=
  ⟨0x5200, 256, [
    ⟨.u64, .ro, .live, ⟨8, 0⟩, .core⟩,
    ⟨.u64, .ro, .live, ⟨8, 0⟩, .core⟩,
    ⟨.u64, .ro, .live, ⟨8, 0⟩, .core⟩,
    ⟨.u64, .ro, .live, ⟨8, 0⟩, .core⟩,
    ⟨.u32, .ro, .live, ⟨4, 0⟩, .core⟩,
    ⟨.u32, .ro, .live, ⟨4, 0⟩, .core⟩]⟩

/-- Index 0x5300 `VectorEngine`: its subindexes from 0x01 on, in order. -/
def dictVectorEngine : DictIndex :=
  ⟨0x5300, 256, [
    ⟨.u64, .ro, .live, ⟨8, 0⟩, .core⟩,
    ⟨.u64, .ro, .live, ⟨8, 0⟩, .core⟩,
    ⟨.u64, .ro, .live, ⟨8, 0⟩, .core⟩,
    ⟨.u32, .ro, .live, ⟨4, 0⟩, .core⟩,
    ⟨.u32, .ro, .live, ⟨4, 0⟩, .core⟩]⟩

/-- Index 0x5810 `LinkageCtl`: its subindexes from 0x01 on, in order. -/
def dictLinkageCtl : DictIndex :=
  ⟨0x5810, 1, [
    ⟨.u16, .ro, .reset, ⟨2, 256⟩, .no⟩,
    ⟨.u32, .rw, .live, ⟨4, 10000⟩, .no⟩]⟩

/-- Index 0x5900 `LinkageEngine`: its subindexes from 0x01 on, in order. -/
def dictLinkageEngine : DictIndex :=
  ⟨0x5900, 8, [
    ⟨.u64, .ro, .live, ⟨8, 0⟩, .pkg⟩,
    ⟨.u64, .ro, .live, ⟨8, 0⟩, .pkg⟩,
    ⟨.u64, .ro, .live, ⟨8, 0⟩, .pkg⟩,
    ⟨.u64, .ro, .live, ⟨8, 0⟩, .pkg⟩,
    ⟨.u64, .ro, .live, ⟨8, 0⟩, .pkg⟩,
    ⟨.u32, .ro, .live, ⟨4, 0⟩, .pkg⟩,
    ⟨.u16, .ro, .live, ⟨2, 0⟩, .pkg⟩,
    ⟨.u64, .ro, .live, ⟨8, 0⟩, .pkg⟩,
    ⟨.u32, .ro, .live, ⟨4, 0⟩, .pkg⟩]⟩

/-- Index 0x6010 `SolverCtl`: its subindexes from 0x01 on, in order. -/
def dictSolverCtl : DictIndex :=
  ⟨0x6010, 1, [
    ⟨.u8, .rw, .quiesce, ⟨1, 0⟩, .no⟩,
    ⟨.u64, .rw, .quiesce, ⟨8, 0⟩, .no⟩,
    ⟨.u64, .rw, .quiesce, ⟨8, 18446744073709551615⟩, .no⟩,
    ⟨.u64, .rw, .quiesce, ⟨8, 18446744073709551615⟩, .no⟩,
    ⟨.u32, .rw, .live, ⟨4, 1000000⟩, .no⟩,
    ⟨.u32, .ro, .live, ⟨4, 0⟩, .no⟩,
    ⟨.u32, .ro, .live, ⟨4, 0⟩, .no⟩]⟩

/-- Index 0x6100 `SolverCore`: its subindexes from 0x01 on, in order. -/
def dictSolverCore : DictIndex :=
  ⟨0x6100, 128, [
    ⟨.u8, .ro, .live, ⟨1, 0⟩, .hart⟩,
    ⟨.u64, .ro, .live, ⟨8, 0⟩, .hart⟩,
    ⟨.u64, .ro, .live, ⟨8, 0⟩, .hart⟩,
    ⟨.u32, .ro, .live, ⟨4, 0⟩, .hart⟩,
    ⟨.u32, .ro, .live, ⟨4, 0⟩, .hart⟩,
    ⟨.u32, .ro, .live, ⟨4, 0⟩, .hart⟩,
    ⟨.u64, .ro, .live, ⟨8, 0⟩, .hart⟩,
    ⟨.u64, .ro, .live, ⟨8, 0⟩, .hart⟩,
    ⟨.u64, .ro, .live, ⟨8, 0⟩, .hart⟩]⟩

/-- Index 0x7010 `ConversionCtl`: its subindexes from 0x01 on, in order. -/
def dictConversionCtl : DictIndex :=
  ⟨0x7010, 1, [
    ⟨.u16, .ro, .reset, ⟨2, 256⟩, .no⟩,
    ⟨.u8, .ro, .reset, ⟨1, 64⟩, .no⟩,
    ⟨.u32, .rw, .live, ⟨4, 100000⟩, .no⟩]⟩

/-- Index 0x7030 `Digest`: its subindexes from 0x01 on, in order. -/
def dictDigest : DictIndex :=
  ⟨0x7030, 1, [
    ⟨.bool, .rw, .live, ⟨1, 0⟩, .no⟩,
    ⟨.bool, .rw, .live, ⟨1, 0⟩, .no⟩,
    ⟨.domain, .ro, .live, ⟨0, 0⟩, .no⟩,
    ⟨.domain, .ro, .live, ⟨0, 0⟩, .no⟩,
    ⟨.domain, .ro, .live, ⟨0, 0⟩, .no⟩]⟩

/-- Index 0x7100 `Station`: its subindexes from 0x01 on, in order. -/
def dictStation : DictIndex :=
  ⟨0x7100, 32, [
    ⟨.u64, .ro, .live, ⟨8, 0⟩, .pkg⟩,
    ⟨.u16, .ro, .live, ⟨2, 0⟩, .pkg⟩,
    ⟨.u8, .ro, .live, ⟨1, 0⟩, .pkg⟩,
    ⟨.u64, .ro, .live, ⟨8, 0⟩, .pkg⟩,
    ⟨.u32, .ro, .live, ⟨4, 0⟩, .pkg⟩,
    ⟨.u32, .ro, .live, ⟨4, 0⟩, .pkg⟩,
    ⟨.u32, .ro, .live, ⟨4, 0⟩, .pkg⟩,
    ⟨.u64, .ro, .live, ⟨8, 0⟩, .pkg⟩]⟩

/-- Index 0x8010 `Ridgepole`: its subindexes from 0x01 on, in order. -/
def dictRidgepole : DictIndex :=
  ⟨0x8010, 1, [
    ⟨.u64, .ro, .live, ⟨8, 0⟩, .no⟩,
    ⟨.u16, .ro, .live, ⟨2, 65535⟩, .no⟩,
    ⟨.i64, .ro, .live, ⟨8, 0⟩, .no⟩,
    ⟨.i64, .ro, .live, ⟨8, 0⟩, .no⟩,
    ⟨.u32, .rw, .live, ⟨4, 100000⟩, .no⟩,
    ⟨.u8, .ro, .live, ⟨1, 0⟩, .no⟩,
    ⟨.u32, .ro, .live, ⟨4, 0⟩, .no⟩]⟩

/-- Index 0x8020 `Guyline`: its subindexes from 0x01 on, in order. -/
def dictGuyline : DictIndex :=
  ⟨0x8020, 1, [
    ⟨.u64, .ro, .live, ⟨8, 0⟩, .no⟩,
    ⟨.u32, .ro, .live, ⟨4, 0⟩, .no⟩,
    ⟨.u32, .rw, .reset, ⟨4, 5000⟩, .no⟩,
    ⟨.u32, .rw, .live, ⟨4, 1000000⟩, .no⟩,
    ⟨.u64, .ro, .live, ⟨8, 0⟩, .no⟩,
    ⟨.u8, .rw, .live, ⟨1, 255⟩, .no⟩,
    ⟨.u64, .ro, .live, ⟨8, 0⟩, .no⟩,
    ⟨.u32, .ro, .live, ⟨4, 0⟩, .pkg⟩,
    ⟨.u32, .ro, .live, ⟨4, 0⟩, .pkg⟩]⟩

/-- Index 0x8030 `Timetable`: its subindexes from 0x01 on, in order. -/
def dictTimetable : DictIndex :=
  ⟨0x8030, 1, [
    ⟨.u16, .ro, .live, ⟨2, 0⟩, .no⟩,
    ⟨.u8, .rw, .live, ⟨1, 4⟩, .no⟩,
    ⟨.u32, .rw, .live, ⟨4, 5000⟩, .no⟩,
    ⟨.u64, .ro, .live, ⟨8, 0⟩, .pkg⟩,
    ⟨.domain, .ro, .live, ⟨16, 0⟩, .no⟩]⟩

/-- Index 0x8810 `CollectiveCtl`: its subindexes from 0x01 on, in order. -/
def dictCollectiveCtl : DictIndex :=
  ⟨0x8810, 1, [
    ⟨.u32, .rw, .live, ⟨4, 10000⟩, .no⟩,
    ⟨.u64, .ro, .live, ⟨8, 0⟩, .pkg⟩,
    ⟨.domain, .ro, .live, ⟨128, 0⟩, .pkg⟩,
    ⟨.domain, .ro, .live, ⟨128, 0⟩, .pkg⟩,
    ⟨.u32, .ro, .live, ⟨4, 0⟩, .pkg⟩]⟩

/-- Index 0x9010 `Job`: its subindexes from 0x01 on, in order. -/
def dictJob : DictIndex :=
  ⟨0x9010, 1, [
    ⟨.u16, .ro, .live, ⟨2, 0⟩, .no⟩,
    ⟨.u64, .ro, .live, ⟨8, 0⟩, .no⟩,
    ⟨.u64, .ro, .live, ⟨8, 18446744073709551615⟩, .no⟩,
    ⟨.u8, .ro, .live, ⟨1, 0⟩, .no⟩]⟩

/-- Index 0x9020 `Image`: its subindexes from 0x01 on, in order. -/
def dictImage : DictIndex :=
  ⟨0x9020, 1, [
    ⟨.domain, .ro, .live, ⟨0, 0⟩, .no⟩,
    ⟨.domain, .ro, .live, ⟨0, 0⟩, .no⟩,
    ⟨.u16, .ro, .live, ⟨2, 0⟩, .no⟩,
    ⟨.u16, .ro, .live, ⟨2, 65535⟩, .no⟩,
    ⟨.u64, .ro, .live, ⟨8, 0⟩, .no⟩,
    ⟨.u32, .ro, .live, ⟨4, 0⟩, .no⟩,
    ⟨.str, .ro, .reset, ⟨0, 0⟩, .no⟩]⟩

/-- Index 0x9030 `Pitch`: its subindexes from 0x01 on, in order. -/
def dictPitch : DictIndex :=
  ⟨0x9030, 1, [
    ⟨.domain, .wo, .quiesce, ⟨0, 0⟩, .no⟩,
    ⟨.u8, .wo, .quiesce, ⟨1, 0⟩, .no⟩,
    ⟨.u64, .rw, .live, ⟨8, 18446744073709551615⟩, .no⟩,
    ⟨.u8, .ro, .live, ⟨1, 0⟩, .no⟩,
    ⟨.domain, .ro, .live, ⟨8, 0⟩, .no⟩,
    ⟨.domain, .rw, .quiesce, ⟨24, 0⟩, .no⟩,
    ⟨.domain, .rw, .quiesce, ⟨0, 0⟩, .no⟩,
    ⟨.u32, .rw, .live, ⟨4, 10000⟩, .no⟩,
    ⟨.u32, .rw, .live, ⟨4, 60000⟩, .no⟩]⟩

/-- Index 0x9810 `Errors`: its subindexes from 0x01 on, in order. -/
def dictErrors : DictIndex :=
  ⟨0x9810, 1, [
    ⟨.bool, .rw, .live, ⟨1, 1⟩, .no⟩,
    ⟨.u8, .ro, .live, ⟨1, 0⟩, .no⟩,
    ⟨.domain, .ro, .live, ⟨24, 0⟩, .pkg⟩,
    ⟨.u64, .ro, .live, ⟨8, 0⟩, .pkg⟩,
    ⟨.u32, .ro, .live, ⟨4, 0⟩, .pkg⟩,
    ⟨.u32, .ro, .live, ⟨4, 0⟩, .pkg⟩,
    ⟨.u64, .ro, .live, ⟨8, 0⟩, .pkg⟩,
    ⟨.u64, .ro, .live, ⟨8, 0⟩, .pkg⟩,
    ⟨.bool, .ro, .live, ⟨1, 0⟩, .pkg⟩]⟩

/-- Index 0xA010 `Checkpoint`: its subindexes from 0x01 on, in order. -/
def dictCheckpoint : DictIndex :=
  ⟨0xA010, 1, [
    ⟨.u32, .rw, .quiesce, ⟨4, 100⟩, .no⟩,
    ⟨.u8, .rw, .live, ⟨1, 10⟩, .no⟩,
    ⟨.u16, .rw, .quiesce, ⟨2, 65535⟩, .no⟩,
    ⟨.u16, .rw, .quiesce, ⟨2, 65535⟩, .no⟩,
    ⟨.u8, .rw, .quiesce, ⟨1, 255⟩, .no⟩,
    ⟨.u64, .ro, .live, ⟨8, 18446744073709551615⟩, .no⟩,
    ⟨.u8, .ro, .live, ⟨1, 0⟩, .no⟩,
    ⟨.u64, .ro, .live, ⟨8, 18446744073709551615⟩, .no⟩,
    ⟨.domain, .ro, .live, ⟨0, 0⟩, .no⟩,
    ⟨.domain, .wo, .quiesce, ⟨0, 0⟩, .no⟩,
    ⟨.domain, .ro, .live, ⟨16, 0⟩, .no⟩,
    ⟨.u32, .ro, .live, ⟨4, 0⟩, .no⟩,
    ⟨.u32, .ro, .live, ⟨4, 0⟩, .no⟩]⟩

/-- Index 0xB010 `Recorder`: its subindexes from 0x01 on, in order. -/
def dictRecorder : DictIndex :=
  ⟨0xB010, 1, [
    ⟨.u32, .ro, .reset, ⟨4, 0⟩, .no⟩,
    ⟨.u64, .ro, .live, ⟨8, 0⟩, .no⟩,
    ⟨.u32, .ro, .live, ⟨4, 0⟩, .no⟩,
    ⟨.u64, .ro, .live, ⟨8, 0⟩, .no⟩,
    ⟨.u16, .rw, .quiesce, ⟨2, 8⟩, .no⟩,
    ⟨.u16, .rw, .quiesce, ⟨2, 32⟩, .no⟩,
    ⟨.domain, .rw, .quiesce, ⟨0, 0⟩, .no⟩,
    ⟨.u64, .ro, .live, ⟨8, 0⟩, .no⟩,
    ⟨.domain, .ro, .live, ⟨0, 0⟩, .no⟩]⟩

/-- Index 0xC010 `LifeCycle`: its subindexes from 0x01 on, in order. -/
def dictLifeCycle : DictIndex :=
  ⟨0xC010, 1, [
    ⟨.u8, .ro, .reset, ⟨1, 0⟩, .no⟩,
    ⟨.domain, .wo, .quiesce, ⟨0, 0⟩, .no⟩,
    ⟨.domain, .ro, .reset, ⟨64, 0⟩, .no⟩,
    ⟨.u32, .ro, .reset, ⟨4, 0⟩, .no⟩,
    ⟨.u64, .ro, .live, ⟨8, 0⟩, .no⟩]⟩

/-- Index 0xC020 `Firmware`: its subindexes from 0x01 on, in order. -/
def dictFirmware : DictIndex :=
  ⟨0xC020, 1, [
    ⟨.u8, .ro, .reset, ⟨1, 0⟩, .no⟩,
    ⟨.domain, .ro, .live, ⟨0, 0⟩, .no⟩,
    ⟨.domain, .ro, .live, ⟨0, 0⟩, .no⟩,
    ⟨.u8, .rw, .reset, ⟨1, 0⟩, .no⟩,
    ⟨.domain, .wo, .quiesce, ⟨0, 0⟩, .no⟩,
    ⟨.u32, .ro, .reset, ⟨4, 0⟩, .no⟩]⟩

/-- Index 0xD010 `Telemetry`: its subindexes from 0x01 on, in order. -/
def dictTelemetry : DictIndex :=
  ⟨0xD010, 1, [
    ⟨.domain, .ro, .live, ⟨0, 0⟩, .no⟩,
    ⟨.domain, .ro, .live, ⟨0, 0⟩, .no⟩,
    ⟨.domain, .ro, .live, ⟨0, 0⟩, .no⟩,
    ⟨.domain, .ro, .live, ⟨0, 0⟩, .no⟩,
    ⟨.u32, .ro, .live, ⟨4, 0⟩, .no⟩]⟩

/-- Index 0xE010 `HostPorts`: its subindexes from 0x01 on, in order. -/
def dictHostPorts : DictIndex :=
  ⟨0xE010, 1, [
    ⟨.domain, .ro, .live, ⟨0, 0⟩, .no⟩,
    ⟨.u8, .wo, .quiesce, ⟨1, 0⟩, .no⟩,
    ⟨.u8, .wo, .quiesce, ⟨1, 0⟩, .no⟩,
    ⟨.u32, .ro, .reset, ⟨4, 5000⟩, .no⟩,
    ⟨.domain, .ro, .live, ⟨0, 0⟩, .no⟩]⟩

/-- Index 0xE100 `HostPort`: its subindexes from 0x01 on, in order. -/
def dictHostPort : DictIndex :=
  ⟨0xE100, 2, [
    ⟨.u8, .ro, .live, ⟨1, 0⟩, .no⟩,
    ⟨.u8, .ro, .live, ⟨1, 0⟩, .no⟩,
    ⟨.u8, .ro, .live, ⟨1, 0⟩, .no⟩,
    ⟨.u64, .rw, .quiesce, ⟨8, 0⟩, .no⟩,
    ⟨.bool, .rw, .live, ⟨1, 0⟩, .no⟩,
    ⟨.u32, .ro, .live, ⟨4, 0⟩, .no⟩,
    ⟨.u32, .ro, .live, ⟨4, 0⟩, .no⟩,
    ⟨.u32, .ro, .live, ⟨4, 0⟩, .no⟩,
    ⟨.u32, .ro, .live, ⟨4, 0⟩, .no⟩]⟩

/-- Index 0xE200 `FarPort`: its subindexes from 0x01 on, in order. -/
def dictFarPort : DictIndex :=
  ⟨0xE200, 2, [
    ⟨.u8, .ro, .live, ⟨1, 0⟩, .no⟩,
    ⟨.u8, .ro, .live, ⟨1, 0⟩, .no⟩,
    ⟨.u64, .ro, .live, ⟨8, 0⟩, .no⟩,
    ⟨.u64, .rw, .quiesce, ⟨8, 0⟩, .no⟩,
    ⟨.u64, .ro, .reset, ⟨8, 532575944704⟩, .no⟩,
    ⟨.u32, .ro, .live, ⟨4, 0⟩, .no⟩]⟩

/-- Every index of Table 21.2, in rising order. -/
def dictTable : List DictIndex :=
  [dictIdentity, dictFamily, dictAttestation, dictDictComm, dictClockEnable, dictFreqCounter, dictPower, dictPowerBudget] ++
  [dictReset, dictStacks, dictStack, dictFabricTables, dictDomainMap, dictFabricPort, dictFPort, dictPeg] ++
  [dictRoute, dictCanopy, dictTensorCoreCtl, dictMatrixEngineCtl, dictTensorCore, dictMatrixEngine, dictVectorEngine, dictLinkageCtl] ++
  [dictLinkageEngine, dictSolverCtl, dictSolverCore, dictConversionCtl, dictDigest, dictStation, dictRidgepole, dictGuyline] ++
  [dictTimetable, dictCollectiveCtl, dictJob, dictImage, dictPitch, dictErrors, dictCheckpoint, dictRecorder] ++
  [dictLifeCycle, dictFirmware, dictTelemetry, dictHostPorts, dictHostPort, dictFarPort]

/-- The `.Count` entry of every index (R442). -/
def dictCount (n : Nat) : DictEntry := ⟨.u8, .ro, .reset, ⟨1, n⟩, .no⟩

/-- The index that holds `idx`. -/
def dictIndexOf (idx : Nat) : Option DictIndex := dictTable.find? (fun r => r.base ≤ idx && idx < r.base + r.count)

/-- The entry at an index and subindex (R442, R443). -/
def dictEntry (idx sub : Nat) : Option DictEntry :=
  match dictIndexOf idx with
  | none => none
  | some r => if sub = 0 then some (dictCount r.entries.length) else r.entries[sub - 1]?

/-- The key of an entry. -/
def dictKey (idx sub : Nat) : Nat := idx * 256 + sub

/-- The default bytes of an entry. -/
def DictEntry.defaultBytes (e : DictEntry) : List Byte := leBytes e.dflt.len e.dflt.val

/-- First indexes of the index areas, in order of position (Table 21.1). -/
def areaStarts : List Nat :=
  [0x1000, 0x1100, 0x2000, 0x2100, 0x2200, 0x3000, 0x4000, 0x4800, 0x5000, 0x5800, 0x6000, 0x7000, 0x8000, 0x8800,
   0x9000, 0x9800, 0xA000, 0xB000, 0xC000, 0xD000, 0xE000]

/-- The position of the area that holds an index (R444). -/
def areaOf (idx : Nat) : Nat := (areaStarts.filter (fun a => a ≤ idx)).length - 1

/-- The lock code of the area at a position: bits [15:8] of its first index (R423). -/
def areaCode (a : Nat) : Nat := areaStarts.getD a 0 / 256

end Sys2Proof.Machine
end

