-- ==== Sys2Proof/Machine/UnitTypes.lean ====
section
/-!
DEFINITION. The state of conversion stations (8.2), linkage engines (10.1), collectives (14), stacks and far ports (9)
and solver cores (7).
-/
namespace Sys2Proof.Machine

/-- A descriptor waiting in a station's ring (R206): the submitting core and the descriptor's index. -/
structure ConvItem where
  core : Nat
  desc : Nat
  deriving DecidableEq, Repr

/-- A context (R206): its number, its descriptor, the next row, the deliveries that no core has answered yet (target
core of each), how many cores have had their flag, whether a flag is on its way, the cores that answered STALE, and
the affine table read at its start. -/
structure ConvCtx where
  id : Nat
  item : ConvItem
  row : Nat := 0
  out : List Nat := []
  flagged : Nat := 0
  flagOut : Bool := false
  stale : List Nat := []
  aff : List Byte := []
  deriving DecidableEq, Repr

/-- A conversion station (Table 8.12). -/
structure Station where
  ring : List ConvItem := []
  ctxs : List ConvCtx := []
  next : Nat := 0
  retired : Nat := 0
  ringHigh : Nat := 0
  ctxHigh : Nat := 0
  early : Nat := 0
  stale : Nat := 0
  parity : Nat := 0
  deriving DecidableEq, Repr

/-- A problem submitted by DMLINK (R248, R252). -/
structure LinkProb where
  core : Nat
  sched : Nat
  addr : Nat
  cnt : Option Nat
  repoch : Nat
  active : Option Solve := none
  deriving DecidableEq, Repr

/-- A linkage engine (Tables 10.1 and 10.9). -/
structure LinkEngine where
  queue : List LinkProb := []
  solved : Nat := 0
  converged : Nat := 0
  capped : Nat := 0
  saturated : Nat := 0
  clamps : Nat := 0
  warmRejected : Nat := 0
  high : Nat := 0
  busy : Nat := 0
  parity : Nat := 0
  deriving DecidableEq, Repr

/-- COLL bytes that have landed on a core and that no XCOLL has used yet (R329). -/
structure CollIn where
  core : Nat
  src : Nat
  addr : Nat
  len : Nat
  deriving DecidableEq, Repr

/-- An XCOLL under way on its member (R325 to R337): descriptor, member index, packets sent up or round the ring, row
groups combined at each of its levels, packets passed down, packets taken in by piece, level or result. -/
structure CollRun where
  core : Nat
  d : CollDesc
  i : Nat
  pos : Nat := 0
  comb : List Nat := []
  down : Nat := 0
  arrived : NMap Nat := []
  deriving DecidableEq, Repr

/-- Collectives of the package (Table 14.6). -/
structure CollSt where
  runs : List CollRun := []
  inbox : List CollIn := []
  retired : Nat := 0
  unitBytes : List Nat := List.replicate 16 0
  unitWait : List Nat := List.replicate 16 0
  parity : Nat := 0
  deriving DecidableEq, Repr

/-- A lane repair (R239, Table 9.7). -/
structure LaneRepair where
  channel : Nat
  pseudo : Nat
  lane : Nat
  spare : Nat
  deriving DecidableEq, Repr

/-- Counters of a stack (Table 9.7). -/
structure StackStats where
  parity : Nat := 0
  ecc : Nat := 0
  readBytes : Nat := 0
  writeBytes : Nat := 0
  deriving DecidableEq, Repr

/-- Stacked memory (Tables 9.4, 9.6, 9.7): `out` lists the mapped-out channels in rising order. -/
structure Stacks where
  trained : Bool := false
  wiped : Bool := false
  out : List Nat := []
  repairs : List LaneRepair := []
  slabs : NMap Nat := []
  wipeUs : Nat := 0
  retrain : List Nat := []
  stepParity : NMap Nat := []
  sectorReads : Nat := 0
  sectorWrites : Nat := 0
  stats : NMap StackStats := []
  deriving DecidableEq, Repr

/-- A far port (Table 9.8). -/
structure FarPort where
  link : Nat := 0
  rate : Nat := 0
  device : Nat := 0
  poison : Nat := 0
  deriving DecidableEq, Repr

/-- The state of a hart (Table 7.13). -/
inductive HartSt where
  | off
  | halted
  | running
  | stopped
  deriving DecidableEq, Repr

/-- The code of a hart state. -/
def HartSt.code : HartSt → Nat
  | .off => 0 | .halted => 1 | .running => 2 | .stopped => 3

/-- The effect of a doorbell (Table 7.8). -/
inductive DbKind where
  | stepEnd
  | tcflag (core : Nat) (cnt : Option Nat) (flag : Option Nat) (repoch : Nat)
  | hart (h : Nat) (ident : Nat)
  deriving DecidableEq, Repr

/-- An outstanding doorbell (R193): its effect, and whether it is on its way to its core. -/
structure Doorbell where
  kind : DbKind
  out : Bool := false
  deriving DecidableEq, Repr

/-- The telemetry of a hart (Table 7.13). -/
structure HartStats where
  cycles : Nat := 0
  instret : Nat := 0
  stale : Nat := 0
  dropped : Nat := 0
  parity : Nat := 0
  trapCause : Nat := 0
  trapPc : Nat := 0
  trapValue : Nat := 0
  deriving DecidableEq, Repr

/-- The machine-level CSRs of a hart (R175, R196, R198, Table 7.2). -/
structure HartCsr where
  mstatus : Word := 0
  mtvec : Word := 0
  mie : Word := 0
  mscratch : Word := 0
  mepc : Word := 0
  mcause : Word := 0
  mtval : Word := 0
  mcounteren : BitVec 32 := 0
  mcountinhibit : BitVec 32 := 0
  menvcfg : Word := 0
  minstret : Word := 0
  pmpcfg : Vector (BitVec 8) 16 := Vector.replicate 16 0
  pmpaddr : Vector Word 16 := Vector.replicate 16 0
  fcsr : BitVec 8 := 0
  vtype : Word := 0x8000000000000000
  vl : Nat := 0
  vstart : Nat := 0
  vxrm : BitVec 2 := 0
  vxsat : Bool := false
  timecmp : Word := 0xFFFFFFFFFFFFFFFF
  miselect : Word := 0
  eidelivery : Word := 0
  eithreshold : Word := 0
  eip : BitVec 256 := 0
  eie : BitVec 256 := 0
  deriving DecidableEq, Repr

/-- A hart (chapter 7). `want` lists the canopy lines that its load has asked for, `buf` those that have come. -/
structure Hart where
  st : HartSt := .off
  machine : Bool := true
  pc : Word := 0
  x : Vector Word 32 := Vector.replicate 32 0
  f : Vector Word 32 := Vector.replicate 32 0
  v : Vector (BitVec 1024) 32 := Vector.replicate 32 0
  csr : HartCsr := {}
  resv : Option (Nat × Nat) := none
  want : List Nat := []
  buf : List (Nat × List Byte) := []
  sent : Bool := false
  db : List Doorbell := []
  ending : Bool := false
  ended : Bool := false
  release : Nat := 0
  stats : HartStats := {}
  deriving DecidableEq, Repr

end Sys2Proof.Machine
end

