-- ==== Sys2Proof/Machine/State.lean ====
section
/-!
DEFINITION. The state of the package, its faults and refusals, and the state at power-up.
-/
namespace Sys2Proof.Machine

/-- Why the block stops with a fault. -/
inductive Fault where
  /-- A command names a unit, port, core, hart, link or path that the package does not have (Table 1.2, Table 1.5):
  raised by every command with such an operand. Safe: the hardware has no such command. -/
  | noSuchUnit
  deriving DecidableEq, Repr

/-- Why a command has no meaning here. -/
inductive Refusal where
  /-- Raised by the dispatcher for a command whose meaning has not been written. Safe. -/
  | notModelled (mnemonic : String)
  deriving DecidableEq, Repr

/-- A host-bound transfer waiting for its commit (R25, R165, Table 1.8): the core that issued it, the HOST region, and
its rows with their offsets. -/
structure HostXfer where
  core : Nat
  region : Nat
  rows : List (Nat × List Byte)
  deriving DecidableEq, Repr

/-- What commits publish: which visible copy of each OUTPUT region is active (R27), the host commit queue (R25), the
digests of R220 and R221 and the last provenance record (R222). -/
structure Outputs where
  active : NMap Nat := []
  queue : List HostXfer := []
  sealedTab : List (Nat × List Byte) := []
  inputTab : List (Nat × List Byte) := []
  lastProv : List Byte := []
  deriving DecidableEq, Repr

/-- A role-epoch NACK on a die, on its way to the sender of a transfer (R92 to R94). -/
structure DieNack where
  transfer : Transfer
  target : Nat
  stale : Bool
  cur : Nat
  deriving DecidableEq, Repr

/-- Canopy telemetry (Table 12.5) and the parity counts of the solver dies' L3 (Table 7.12). -/
structure CanopyStats where
  hotWrites : Nat := 0
  hotLast : Nat := 0
  refusals : Nat := 0
  deadTarget : Nat := 0xFFFF
  timeouts : Nat := 0
  keepalives : Nat := 0
  l3Sd0 : Nat := 0
  l3Sd1 : Nat := 0
  deriving DecidableEq, Repr

/-- The package. Maps are keyed by unit number; an unlisted unit is in its state after reset. `mem` is the 2 TiB local
window (R230, R232). `free` counts the free values taken, and `out` records what the package has sent to its hosts, its
management port and its output pins; both are the model's own. -/
structure State where
  pending : List Instr
  free : Nat
  out : List Output
  start : Startup
  power : Power
  recorder : Recorder
  mram : Mram
  sec : Security
  dict : DictSt
  hp0 : HostPort
  hp1 : HostPort
  far0 : FarPort
  far1 : FarPort
  hbm : Stacks
  mem : Cells
  cores : NMap Core
  harts : NMap Hart
  stations : NMap Station
  links : NMap LinkEngine
  coll : CollSt
  fab : Fabric
  canopy : CanopyStats
  rp : RpSt
  guy : GuySt
  tt : TtSt
  job : Job
  pitch : Pitch
  err : ErrSt
  ckpt : Ckpt
  outputs : Outputs
  reject : Option Rej
  nacks : List DieNack
  reissues : List DieNack
  deriving DecidableEq, Repr

/-- The package as it leaves manufacture: rails up, PWRGOOD low, nothing running (R401, R403, R485). -/
def State.reset : State :=
  { pending := [], free := 0, out := [], start := {}, power := {}, recorder := {}, mram := {}, sec := {}, dict := {}
    hp0 := {}, hp1 := {}, far0 := {}, far1 := {}, hbm := {}, mem := [], cores := [], harts := [], stations := []
    links := [], coll := {}, fab := {}, canopy := {}, rp := {}, guy := {}, tt := {}, job := {}, pitch := {}, err := {}
    ckpt := {}, outputs := {}, reject := none, nacks := [], reissues := [] }

/-- The outcome of a command. -/
abbrev Res := Host.Outcome State Fault Refusal

end Sys2Proof.Machine
end

