-- ==== Sys2Proof/Machine/Ops.lean ====
section
/-!
DEFINITION. The named operations over the state: units, settings, outputs, the event recorder and local memory.
-/
namespace Sys2Proof.Machine

open Sys2Proof

/-! ## Units -/

/-- A core; an unlisted core is as after reset. -/
def State.core (s : State) (c : Nat) : Core := nget {} s.cores c

/-- Put a core. -/
def State.putCore (s : State) (c : Nat) (x : Core) : State := { s with cores := nset {} s.cores c x }

/-- Change a core. -/
def State.modCore (s : State) (c : Nat) (f : Core → Core) : State := s.putCore c (f (s.core c))

/-- A hart. -/
def State.hart (s : State) (h : Nat) : Hart := nget {} s.harts h

/-- Put a hart. -/
def State.putHart (s : State) (h : Nat) (x : Hart) : State := { s with harts := nset {} s.harts h x }

/-- Change a hart. -/
def State.modHart (s : State) (h : Nat) (f : Hart → Hart) : State := s.putHart h (f (s.hart h))

/-- A conversion station. -/
def State.station (s : State) (n : Nat) : Station := nget {} s.stations n

/-- Change a conversion station. -/
def State.modStation (s : State) (n : Nat) (f : Station → Station) : State :=
  { s with stations := nmod {} s.stations n f }

/-- A linkage engine. -/
def State.link (s : State) (d : Nat) : LinkEngine := nget {} s.links d

/-- Change a linkage engine. -/
def State.modLink (s : State) (d : Nat) (f : LinkEngine → LinkEngine) : State := { s with links := nmod {} s.links d f }

/-- A host port. -/
def State.hp (s : State) (p : Nat) : HostPort := if p = 0 then s.hp0 else s.hp1

/-- Change a host port. -/
def State.modHp (s : State) (p : Nat) (f : HostPort → HostPort) : State :=
  if p = 0 then { s with hp0 := f s.hp0 } else { s with hp1 := f s.hp1 }

/-- A far port. -/
def State.far (s : State) (p : Nat) : FarPort := if p = 0 then s.far0 else s.far1

/-- Change a far port. -/
def State.modFar (s : State) (p : Nat) (f : FarPort → FarPort) : State :=
  if p = 0 then { s with far0 := f s.far0 } else { s with far1 := f s.far1 }

/-- A fabric port. -/
def State.fport (s : State) (p : Nat) : Port := nget {} s.fab.ports p

/-- Change the fabric. -/
def State.modFab (s : State) (f : Fabric → Fabric) : State := { s with fab := f s.fab }

/-- Change a fabric port. -/
def State.modPort (s : State) (p : Nat) (f : Port → Port) : State :=
  s.modFab (fun b => { b with ports := nmod {} b.ports p f })

/-- Counters of a stack. -/
def State.modStack (s : State) (t : Nat) (f : StackStats → StackStats) : State :=
  { s with hbm := { s.hbm with stats := nmod {} s.hbm.stats t f } }

/-- Ridgepole in units of 2^-8 ns (R301). -/
def State.now (s : State) : Nat := s.rp.now.toNat

/-- Whole nanoseconds of Ridgepole (R302). -/
def State.ns (s : State) : Nat := s.now / 256

/-- Put an output. -/
def State.put (s : State) (o : Output) : State := { s with out := s.out ++ [o] }

/-- Take a free value: the state with its counter advanced. -/
def State.taken (s : State) : State := { s with free := s.free + 1 }

/-! ## Settings -/

/-- The active value of an RW entry of the dictionary that `vals` holds. -/
def State.dval (s : State) (idx sub : Nat) : List Byte :=
  match nget [] s.dict.vals (dictKey idx sub) with
  | [] => match dictEntry idx sub with
    | some e => e.defaultBytes
    | none => []
  | b => b

/-- The active value as a number. -/
def State.dnat (s : State) (idx sub : Nat) : Nat := leNat (s.dval idx sub)

/-- Put an active value; the default is not listed. -/
def State.setDval (s : State) (idx sub : Nat) (b : List Byte) : State :=
  let d := match dictEntry idx sub with
    | some e => e.defaultBytes
    | none => []
  { s with dict := { s.dict with vals := nset [] s.dict.vals (dictKey idx sub) (if b = d then [] else b) } }

/-- Saturating count (R447). -/
def count (w n k : Nat) : Nat := satAdd w n k

/-! ## The event recorder (23) -/

/-- Does the recorder accept occurrences (R474)? -/
def State.recording (s : State) : Bool := decide (3 ≤ s.start.phase.stepNo)

/-- The codes that no rate limits (Table 23.3). -/
def unlimitedCode (code : Nat) : Bool := [0x0001, 0x0101, 0x0102, 0x0104, 0x0105, 0x0106, 0x0501].contains code

/-- The limited codes of Table 23.3. -/
def limitedCode (code : Nat) : Bool :=
  code == 0x0103 || (0x0201 ≤ code && code ≤ 0x0204) || (0x0301 ≤ code && code ≤ 0x0306)
  || (0x0401 ≤ code && code ≤ 0x0403) || (0x0502 ≤ code && code ≤ 0x0508) || (0x0601 ≤ code && code ≤ 0x060F)
  || (0x0701 ≤ code && code ≤ 0x0703) || (0x0801 ≤ code && code ≤ 0x080A) || (0x0901 ≤ code && code ≤ 0x0903)

/-- Rate and burst of a code: the last entry of `Recorder.CodeLimits` that names it, else the defaults (R453). -/
def State.codeLimit (s : State) (code : Nat) : Nat × Nat :=
  let es := wordsOf 8 ((s.dval 0xB010 7).length / 8) (s.dval 0xB010 7)
  match (es.filter (fun e => bits 15 0 e == code)).getLast? with
  | some e => (bits 31 16 e, bits 47 32 e)
  | none => (s.dnat 0xB010 5, s.dnat 0xB010 6)

/-- An occurrence reaches the recorder: its bucket, then the queue of 256 (R474, R477, R478). -/
def State.event (s : State) (code source payload : Nat) : State :=
  if !s.recording then s else
  let o : Occurrence := ⟨code, source, payload % 2 ^ 56, s.ns % 2 ^ 64, s.recorder.opsec % 2 ^ 40, s.mram.powerCycles⟩
  let r := s.recorder
  if unlimitedCode code then { s with recorder := { r with queue := r.queue ++ [o] } } else
  let b := nget {} r.buckets code
  let drop (b : Bucket) : State :=
    { s with recorder := { r with suppressed := count 64 r.suppressed 1
                                  buckets := nset {} r.buckets code { b with suppressed := count 32 b.suppressed 1 } } }
  if b.taken < (s.codeLimit code).2 then
    let b := { b with taken := b.taken + 1 }
    if 256 ≤ r.queue.length then drop b
    else { s with recorder := { r with buckets := nset {} r.buckets code b, queue := r.queue ++ [o] } }
  else drop b

/-- SOURCE values (Table 23.2). -/
def srcPackage : Nat := 0
def srcCore (c : Nat) : Nat := 0x1000 + c
def srcHart (h : Nat) : Nat := 0x2000 + h
def srcChannel (i : Nat) : Nat := 0x3000 + i
def srcStation (n : Nat) : Nat := 0x4000 + n
def srcLink (d : Nat) : Nat := 0x5000 + d
def srcPort (p : Nat) : Nat := 0x6000 + p
def srcD2d (a b : Nat) : Nat := 0x7000 + 32 * a + b
def srcHost (p : Nat) : Nat := 0x8000 + p
def srcFar (p : Nat) : Nat := 0x9000 + p
def srcGateway (g : Nat) : Nat := 0xA000 + g
def srcPath (p : DictPath) : Nat := 0xB000 + (p.code - 1)

/-! ## Interrupts to hosts -/

/-- Is a vector masked? The table holds the complement of Vector Control's mask bit, which PCI Express sets at reset. -/
def HostPort.masked (h : HostPort) (v : Nat) : Bool := !bitAt 0 (readN h.msix (16 * v + 12) 4)

/-- Raise MSI-X vector `v` of port `p`: sent when enabled and unmasked, else pending (R416 to R418). -/
def State.msix (s : State) (p v : Nat) : State :=
  let h := s.hp p
  let e := 16 * v
  if !h.msixEnable || h.inPerst then s
  else if h.msixMaskAll || h.masked v then s.modHp p (fun h => { h with pba := nset false h.pba v true })
  else s.put (.msix p v (readN h.msix e 8) (readN h.msix (e + 8) 4))

/-! ## Job and regions -/

/-- Is a job held (R434: any pitch state other than IDLE)? -/
def State.jobHeld (s : State) : Bool := s.pitch.st != .idle

/-- Is a job held in a state other than QUIESCED (R434)? -/
def State.jobBusy (s : State) : Bool := s.pitch.st != .idle && s.pitch.st != .quiesced

/-- The placed copies of a region (R231). -/
def State.placedOf (s : State) (id : Nat) : Option Placed := s.job.placed.find? (fun p => p.r.id == id)

/-- Base of copy `k` of a region; copy 0 is the working copy (R24, R231). -/
def State.copyBase (s : State) (id k : Nat) : Nat :=
  match s.placedOf id with
  | some p => p.bases.getD k 0
  | none => 0

/-- The region and its size whose working copy holds a local address. -/
def State.regionAt (s : State) (a : Nat) : Option (Region × Nat) :=
  match s.job.placed.find? (fun p => decide (p.bases.getD 0 0 ≤ a) && decide (a < p.bases.getD 0 0 + p.r.size)
      && p.r.kind != .host) with
  | some p => some (p.r, a - p.bases.getD 0 0)
  | none => none

/-- Regions of a kind in ascending identifier. -/
def State.regionsOf (s : State) (k : RegionKind) : List Placed :=
  (sortRegions ((s.job.placed.map Placed.r).filter (fun r => r.kind == k))).filterMap (fun r => s.placedOf r.id)

/-- The epoch of the package (Table 1.6). -/
def State.epoch (s : State) : Epoch := ⟨s.job.id, s.job.attempt, s.job.step⟩

/-- The channel of a stacked-memory address (R233). -/
def State.channelOf (s : State) (a : Nat) : Option Nat :=
  let sl := a / slabBytes
  if 528 ≤ sl then none
  else (placeLine s.hbm.out (nget 0 s.hbm.slabs sl == 2) a).map Prod.fst

/-- Count bytes read or written at an address on its stack (Table 9.7). -/
def State.countMem (s : State) (a len : Nat) (write : Bool) : State :=
  match s.channelOf a with
  | some ch => s.modStack (ch / 32) (fun t => if write then { t with writeBytes := count 64 t.writeBytes len }
      else { t with readBytes := count 64 t.readBytes len })
  | none => s

/-- Count a row's bytes line by line. -/
def State.countLines (s : State) (a : Nat) (write : Bool) : Nat → Nat → State
  | 0, _ => s
  | _, 0 => s
  | fuel + 1, len =>
    let k := min len (128 - a % 128)
    State.countLines (s.countMem a k write) (a + k) write fuel (len - k)

/-- Does an access touch one sector of one line (R237)? -/
def oneSector (a len : Nat) : Bool := decide (0 < len) && decide (a % 32 + len ≤ 32)

/-- Read local memory. -/
def State.load (s : State) (a len : Nat) : List Byte := readBytes s.mem a len

/-- Write local memory. -/
def State.store (s : State) (a : Nat) (bs : List Byte) : State := { s with mem := writeBytes s.mem a bs }

/-- An MSI arrives for a hart: dropped and counted for a hart that is OFF or HALTED, else pending in its interrupt file
(R196, R197). -/
def State.msi (s : State) (h ident : Nat) : State :=
  s.modHart h (fun x =>
    if x.st = .off ∨ x.st = .halted then { x with stats := { x.stats with dropped := count 32 x.stats.dropped 1 } }
    else { x with csr := { x.csr with eip := x.csr.eip ||| (1#256 <<< (ident % 256)) } })

/-! ## Guyline tree -/

/-- The parent of a rank (R310). -/
def parentOf (r : Nat) : Nat := (r - 1) / 4

/-- The children of a rank among `n` ranks (R310). -/
def childrenOf (n r : Nat) : List Nat := ((List.range 4).map (fun i => 4 * r + 1 + i)).filter (fun c => decide (c < n))

/-- The package's children. -/
def State.children (s : State) : List Nat := childrenOf s.job.ranks s.job.rank

/-- Depth of a rank in the tree (R314). -/
def depthOf : Nat → Nat → Nat
  | 0, _ => 0
  | _, 0 => 0
  | fuel + 1, r => depthOf fuel (parentOf r) + 1

/-- Round up to a multiple of 10 ns (R313). -/
def tenNs (t : Nat) : Nat := 10 * ((t + 9) / 10)

end Sys2Proof.Machine
end

