-- ==== Sys2Proof/Machine/Net.lean ====
section
/-!
DEFINITION. Routing, port queues, injection and answers (11_fabric.md R270 to R284, 12_canopy.md R291 to R295).
-/
namespace Sys2Proof.Machine

open Sys2Proof

/-- The position of a rank in the active peg table (R277). -/
def Tables.pegOf (t : Tables) (r : Nat) : Nat := nget 0xFFFF t.peg r

/-- Present ranks, ascending. -/
def Tables.ranks (t : Tables) : List Nat := (t.peg.map Prod.fst).filter (fun r => decide (r < 512))

/-- The package's own rank: the rank whose entry is its own position (R277). -/
def Tables.ownRank (t : Tables) : Option Nat := (t.peg.find? (fun e => e.2 == t.own)).map Prod.fst

/-- The rank that packets of this package carry: the job's, else the table's. -/
def State.myRank (s : State) : Nat := if s.job.held then s.job.rank else s.fab.tabs.ownRank.getD 0

/-- The valid members of a path set in member order: index, port, VLUP (Table 11.8). -/
def psMembers (ps : Nat) : List (Nat × Nat × Bool) :=
  (List.range 4).filterMap (fun i =>
    let m := bits (8 * i + 7) (8 * i) ps
    if bitAt 7 m then some (i, bits 4 0 m, bitAt 6 m) else none)

/-- A live member: its port is UP and has joined its path sets (R276, R279). -/
def State.portLive (s : State) (p : Nat) : Bool := (s.fport p).st == .up && (s.fport p).joined

/-- The 8-bit fold of a key (R233, R279). -/
def fold8 (k : Nat) : Nat := foldBits 8 16 k

/-- choose() of R279: member index, port, VLUP. -/
def choosePort (s : State) (ps key tc : Nat) : Option (Nat × Nat × Bool) :=
  let live := (psMembers ps).filter (fun m => s.portLive m.2.1)
  if bitAt 32 ps || tc == 3 then live.head? else live[fold8 key % live.length]?

/-- The key of a packet (R279); an LRESP's line address is known where it starts and is open in transit. -/
def packetKey (s : State) (k : Packet) (lineAddr : Option Nat) : Nat :=
  if k.kind = kLREAD ∨ k.kind = kLWRITE then bits 49 7 k.arg
  else if k.kind = kLRESP then (lineAddr.getD (Config.freeWord s.free).toNat) / 128 % 2 ^ 43
  else if k.kind = kTT ∨ k.kind = kSEND ∨ k.kind = kCOLL then (k.dstCore * 2 ^ 23 + bits 22 0 k.arg) / 128
  else k.seq

/-- Flits queued on the lanes of a class (R273, Table 11.14). -/
def Port.queued (p : Port) (cls : Nat) : Nat :=
  (((p.lanes.getD (2 * cls) []) ++ (p.lanes.getD (2 * cls + 1) [])).map Packet.flits).sum

/-- Take a header sample of every Nth packet into the ring of 1,024 (R285). -/
def Port.sample (p : Port) (n now : Nat) (k : Packet) (dir : Nat) : Port :=
  if n = 0 then p else
  let c := p.sampleCount + 1
  if c < n then { p with sampleCount := c }
  else
    let x : Sample := ⟨k.header, now, dir, p.sampleNum % 2 ^ 32⟩
    { p with sampleCount := 0, sampleNum := p.sampleNum + 1
             samples := if p.samples.length < 1024 then p.samples ++ [x] else p.samples.drop 1 ++ [x] }

/-- Is a flit position a TC0 slot (R321)? -/
def tc0Slot (share flit : Nat) : Bool := decide (flit % 16 < share)

/-- The head of a lane, where its credit covers it (R273). -/
def Port.head? (p : Port) (lane : Nat) : Option Packet :=
  match p.lanes.getD lane [] with
  | k :: _ => if k.flits ≤ p.credit.getD lane 0 then some k else none
  | [] => none

/-- The order in which an output port looks at its lanes (R274). -/
def laneOrder (share flit : Nat) : List Nat :=
  if tc0Slot share flit then [7, 6, 1, 0, 5, 4, 3, 2] else [7, 6, 5, 4, 1, 0, 3, 2]

/-- The lane whose packet goes next (R274). -/
def Port.nextLane (p : Port) (share : Nat) : Option Nat := (laneOrder share p.txFlit).find? (fun l => (p.head? l).isSome)

/-- Put the packet of a lane on the wire: its flits, its credit, its place in the replay buffer (R268, R273). -/
def Port.transmit (p : Port) (lane sampleN now : Nat) : Port :=
  match p.lanes.getD lane [] with
  | [] => p
  | k :: rest =>
    let e := p.txFlit + k.flits
    let q := { p with txFlit := e, lanes := setAt p.lanes lane rest
                      credit := setAt p.credit lane (p.credit.getD lane 0 - k.flits)
                      replay := p.replay ++ [({ cw := (e - 1) / 10, lane := lane, pkt := k } : Sent)]
                      stats := { p.stats with flitsTx := count 64 p.stats.flitsTx k.flits
                                              bytesTx := count 64 p.stats.bytesTx k.payload.length } }
    q.sample sampleN now k 0

/-- Send while credit and the window of 256 codewords allow (R269). -/
def Port.pumpLoop (share sampleN now : Nat) : Nat → Port → Port
  | 0, p => p
  | fuel + 1, p =>
    if p.acked + 256 ≤ p.txFlit / 10 then p else
    match p.nextLane share with
    | none => p
    | some l => Port.pumpLoop share sampleN now fuel (p.transmit l sampleN now)

/-- Send what can go; the codeword in progress is completed with idle flits (R266). -/
def Port.pump (p : Port) (share sampleN now : Nat) : Port :=
  let q := Port.pumpLoop share sampleN now (p.lanes.map List.length).sum p
  { q with txFlit := roundUp q.txFlit 10 }

/-- Pump a port and note it on the tracker entries whose packets left through it (R284). -/
def State.pump (s : State) (p : Nat) : State :=
  let q := s.fport p
  if q.st != .up then s else
  let q2 := q.pump (s.dnat 0x8030 2) (s.dnat 0x4210 6) s.now
  let sent := (q2.replay.drop q.replay.length).map Sent.pkt
  (s.modPort p (fun _ => q2)).modFab (fun b =>
    { b with track := b.track.map (fun t => if sent.any (fun k => { k with path := t.pkt.path } == t.pkt) then { t with port := some p } else t) })

/-- Queue a packet on a lane of a port and pump. -/
def State.enqueue (s : State) (p lane : Nat) (k : Packet) : State :=
  (s.modPort p (fun q =>
    let q := { q with lanes := setAt q.lanes lane (q.lanes.getD lane [] ++ [k]) }
    let cls := lane / 2
    { q with stats := { q.stats with highWater := setAt q.stats.highWater cls (max (q.stats.highWater.getD cls 0) (q.queued cls)) } })).pump p

/-- Route a packet that is on `lane`: delivered here, queued on a port, or waiting for a live member (R279, R280). -/
def State.route (s : State) (lane : Nat) (k : Packet) (lineAddr : Option Nat) : State :=
  let ps := nget 0 s.fab.tabs.route k.dstRank
  if bitAt 33 ps || (s.job.held && k.dstRank == s.job.rank) then
    s.modFab (fun b => { b with localIn := b.localIn ++ [({ port := 24, lane := lane, pkt := k } : RxPkt)] })
  else match choosePort s ps (packetKey s k lineAddr) k.tc with
    | some (i, p, up) =>
      let k := if k.srcRank = s.myRank then { k with path := i } else k
      let s := if k.kind = kLRESP ∧ lineAddr.isNone then s.taken else s
      s.enqueue p (if up && lane % 2 == 0 then lane + 1 else lane) k
    | none =>
      let t := s.modFab (fun b => { b with waiting := b.waiting ++ [(lane, k)] })
      if s.fab.pathEmpty.contains k.dstRank then t
      else (t.event 0x0306 srcPackage k.dstRank).modFab (fun b => { b with pathEmpty := b.pathEmpty ++ [k.dstRank] })

/-- Send a packet of this package: it starts on the first lane of its class (R273). -/
def State.send (s : State) (k : Packet) : State := s.route (2 * k.tc) k none

/-- Route again every packet that waited for a live member (R280). -/
def State.retryWaiting (s : State) : State :=
  let w := s.fab.waiting
  w.foldl (fun s e => s.route e.1 e.2 none) (s.modFab (fun b => { b with waiting := [] }))

/-- A control packet (TC3) of this package: an epoch, a destination rank, an argument and a payload. -/
def State.ctl (s : State) (kind arg dst : Nat) (e : Epoch) (payload : List Byte) : State :=
  s.send { kind := kind, tc := 3, job := e.job, attempt := e.attempt, step := e.step, seq := 0, arg := arg, path := 0
           srcRank := s.myRank, srcCore := 0, dstRank := dst, dstCore := 0, sgd := 0, payload := payload }

/-- The key of a sequence space: the other rank, the source gateway die, the class (R282). -/
def spaceKey (rank gd cls : Nat) : Nat := rank * 8 + gd * 4 + cls

/-- Entries of a gateway die's tracker (R283). -/
def State.tracked (s : State) (gd : Nat) : List Track := s.fab.track.filter (fun t => t.gd == gd)

/-- May a packet of a class take a tracker entry: at most 4,096 in all and 3,072 of TC1 (R283); not while the tables
are DRAINING or DRAINED (R281). -/
def State.mayInject (s : State) (gd tc : Nat) : Bool :=
  let ts := s.tracked gd
  s.fab.tabSt == .active && decide (ts.length < 4096)
    && (tc == 0 || decide ((ts.filter (fun t => t.pkt.tc == 1)).length < 3072))

/-- May `n` packets of TC1 take entries together? -/
def State.mayInjectAll (s : State) (gd n : Nat) : Bool :=
  let ts := s.tracked gd
  s.fab.tabSt == .active && decide (ts.length + n ≤ 4096)
    && decide ((ts.filter (fun t => t.pkt.tc == 1)).length + n ≤ 3072)

/-- Count an injection that waits for an entry (Table 11.13). -/
def State.injectWait (s : State) (gd : Nat) : State :=
  s.modFab (fun b => { b with trackStats := b.trackStats.modify gd (fun t => { t with waits := count 32 t.waits 1 }) })

/-- Inject a TC0 or TC1 packet: it takes the next SEQ of its space and a tracker entry (R282, R283). -/
def State.inject (s : State) (gd : Nat) (k : Packet) (o : Owner) : State :=
  let key := spaceKey k.dstRank gd k.tc
  let k := { k with seq := nget 0 s.fab.txSeq key % 2 ^ 32, sgd := gd, srcRank := s.myRank, job := s.job.id
                    attempt := s.job.attempt, step := s.job.step }
  let s := s.modFab (fun b =>
    { b with txSeq := nmod 0 b.txSeq key (fun n => (n + 1) % 2 ^ 32)
             track := b.track ++ [{ gd := gd, pkt := k, owner := o, port := none }] })
  let n := (s.tracked gd).length
  let s := s.modFab (fun b => { b with trackStats := b.trackStats.modify gd (fun t => { t with high := max t.high n }) })
  s.send k

/-- Is a space free for a transfer of several packets, whose numbers are consecutive (R272)? -/
def State.spaceFree (s : State) (key who : Nat) : Bool :=
  let w := nget 0 s.fab.spaceLock key
  w == 0 || w == who

/-- Hold a space for a transfer, or let it go. -/
def State.lockSpace (s : State) (key who : Nat) (on : Bool) : State :=
  s.modFab (fun b => { b with spaceLock := nset 0 b.spaceLock key (if on then who else 0) })

/-- The gateway die of a core's half (R291). -/
def gdOfCore (c : Nat) : Nat := if c < 256 then c / 128 else (c - 256) / 64

/-- The transfer bytes cut into packets: address and payload of each (R272). -/
def cutPackets : Nat → Nat → List Byte → List (Nat × List Byte)
  | 0, _, _ => []
  | fuel + 1, a, bs => if bs.isEmpty then [] else (a, bs.take 256) :: cutPackets fuel (a + 256) (bs.drop 256)

/-- A delivery argument (Table 11.5). -/
def deliveryArg (addr repoch : Nat) (flag cnt : Option Nat) : Nat :=
  addr % 2 ^ 23 + (match flag with | some f => f % 1024 * 2 ^ 23 + 2 ^ 33 | none => 0)
  + (match cnt with | some c => c % 8 * 2 ^ 34 + 2 ^ 37 | none => 0) + repoch % 65536 * 2 ^ 38

/-- Answer a TC0 or TC1 packet (R283). -/
def State.answer (s : State) (k : Packet) (kind arg : Nat) (payload : List Byte) : State :=
  let a : Packet :=
    { kind := kind, tc := 2, job := k.job, attempt := k.attempt, step := k.step, seq := k.seq
      arg := arg + k.tc % 2 * 2 ^ 32 + k.sgd % 2 * 2 ^ 33, path := 0, srcRank := s.myRank, srcCore := k.dstCore
      dstRank := k.srcRank, dstCore := k.srcCore, sgd := 0, payload := payload }
  s.route 4 a (if kind = kLRESP then some k.arg else none)

/-- The receiving space of a packet (R282). -/
def rxKey (k : Packet) : Nat := spaceKey k.srcRank k.sgd k.tc

/-- Answer a packet and keep the answer for duplicates (R282). -/
def State.answerKept (s : State) (k : Packet) (kind arg : Nat) (payload : List Byte) : State :=
  let s := s.modFab (fun b =>
    { b with rxSpace := nmod {} b.rxSpace (rxKey k) (fun r =>
        { r with answers := r.answers ++ [{ k with kind := kind, arg := arg, payload := payload }] })
             unanswered := b.unanswered.filter (fun q => !(rxKey q == rxKey k && q.seq == k.seq)) })
  s.answer k kind arg payload

/-- Send again the answer that a packet received; nothing where it has none yet (R282, R294). -/
def State.answerAgain (s : State) (k : Packet) : State :=
  match (nget {} s.fab.rxSpace (rxKey k)).answers.find? (fun a => a.seq == k.seq) with
  | some a => s.answer k a.kind a.arg a.payload
  | none => s

/-- The base of the canopy address of a rank and local address (R286). -/
def canopyAddr (rank a : Nat) : Nat := rank * 2 ^ 41 + a % 2 ^ 41

/-- The LWRITE payload of some bytes within a line: mask and line (R289). -/
def maskedLine (off : Nat) (bs : List Byte) : List Byte :=
  let m := (2 ^ bs.length - 1) * 2 ^ off
  leBytes 16 m ++ zeros off ++ bs ++ zeros (128 - off - bs.length)

/-- Cut bytes at an address by line: address, offset in line, bytes. -/
def cutLines : Nat → Nat → List Byte → List (Nat × Nat × List Byte)
  | 0, _, _ => []
  | fuel + 1, a, bs =>
    if bs.isEmpty then [] else
    let o := a % 128
    (a - o, o, bs.take (128 - o)) :: cutLines fuel (a - o + 128) (bs.drop (128 - o))

/-- The lines that `len` bytes at an address touch. -/
def linesOf (a len : Nat) : List Nat :=
  if len = 0 then [] else (List.range ((a + len - 1) / 128 - a / 128 + 1)).map (fun i => (a / 128 + i) * 128)

end Sys2Proof.Machine
end

