-- ==== Sys2Proof/Machine/Tick.lean ====
section
/-!
DEFINITION. What a tick of the package's clock does when no command waits: Ridgepole counts and slews, the sequencers
dispatch (13.1, 3.1).
-/
namespace Sys2Proof.Machine

open Sys2Proof

/-- Does Ridgepole count (R301, R486, R490)? -/
def State.clocked (s : State) : Bool :=
  match s.start.phase with
  | .off => false
  | .tripped => false
  | _ => true

/-- One unit of the slew still to make, at most once per microsecond (R309). -/
def slewUnit (x : Int) : Int := if 0 < x then 1 else if x < 0 then -1 else 0

/-- One cycle of RPCLK: Ridgepole adds 256, and one unit of a slew each microsecond (R301, R309). -/
def RpSt.cycle (r : RpSt) : RpSt :=
  let ph := r.slewPhase + 1
  if r.slew = 0 then { r with now := r.now + 256, slewPhase := 0 }
  else if ph < 1000 then { r with now := r.now + 256, slewPhase := ph }
  else
    let u := slewUnit r.slew
    { r with now := r.now + 256 + BitVec.ofInt 72 u, slew := r.slew - u, slewPhase := 0 }

/-- Depth of an engine queue. -/
def Core.queue (c : Core) : Engine → List EngCmd
  | .me => c.qMe | .ve => c.qVe | .dm => c.qDm | .xe => c.qXe

/-- Replace an engine queue. -/
def Core.putQueue (c : Core) (e : Engine) (q : List EngCmd) : Core :=
  match e with
  | .me => { c with qMe := q }
  | .ve => { c with qVe := q }
  | .dm => { c with qDm := q }
  | .xe => { c with qXe := q }

/-- The active bank (R87). -/
def Core.bank (c : Core) : Bank := if c.activeIs1 then c.bank1 else c.bank0

/-- The standby bank (R87). -/
def Core.standby (c : Core) : Bank := if c.activeIs1 then c.bank0 else c.bank1

/-- Put the standby bank. -/
def Core.putStandby (c : Core) (b : Bank) : Core := if c.activeIs1 then { c with bank0 := b } else { c with bank1 := b }

/-- Put the active bank. -/
def Core.putBank (c : Core) (b : Bank) : Core := if c.activeIs1 then { c with bank1 := b } else { c with bank0 := b }

/-- The command word at the sequencer's position, where it is running. -/
def Core.word? (c : Core) : Option Nat := if c.seq = .run then c.bank.cmds[c.pos]? else none

/-- The counters as numbers. -/
def Core.ctrs (c : Core) : List Nat := c.ctr.toList.map BitVec.toNat

/-- Dispatch the engine command at the position into its queue (R63, R157); `none` where its queue is full or the
position holds none (R65). -/
def Core.dispatch (c : Core) : Option Core :=
  match c.word? with
  | none => none
  | some w => match engineOf w with
    | none => none
    | some e =>
      if (c.queue e).length < 64 then
        let cmd : EngCmd := { word := w, desc := descOf c.bank.descs w, cnt := c.ctrs, pos := c.pos }
        some { c.putQueue e (c.queue e ++ [cmd]) with pos := c.pos + 1 }
      else none

/-- Does the sequencer stall on a full queue (R65)? -/
def Core.fullStalled (c : Core) : Bool :=
  match c.word? with
  | none => false
  | some w => match engineOf w with
    | none => false
    | some e => decide (64 ≤ (c.queue e).length)

/-- Count a cycle in which an engine has nothing while its sequencer has not ended (R66). -/
def Core.starveCycle (c : Core) : Core :=
  if c.seq = .idle ∨ c.seq = .ended then c else
  let f (q : List EngCmd) (n : Nat) : Nat := if q.isEmpty then count 64 n 1 else n
  let l := c.stats.starve
  let l := [f c.qMe (l.getD 0 0), f c.qVe (l.getD 1 0), f c.qDm (l.getD 2 0), f c.qXe (l.getD 3 0)]
  let w := match c.seq with
    | .waiting _ => true
    | .waitFlag _ _ => true
    | .swapping _ => true
    | _ => false
  { c with stats := { c.stats with
      starve := l
      waitStall := if w then count 64 c.stats.waitStall 1 else c.stats.waitStall
      fullStall := if c.fullStalled then count 64 c.stats.fullStall 1 else c.stats.fullStall } }

/-- Members of a core's gang, itself among them; a core without a gang stands alone (R86, R61). -/
def State.gangOf (s : State) (c : Nat) : List Nat :=
  match s.job.image with
  | none => [c]
  | some im =>
    let gs := (im.gangs.filter (fun g => g.lo ≤ s.job.rank && s.job.rank ≤ g.hi)).map (fun g => (g, gangCores im g))
    match (gs.filter (fun g => 16 ≤ g.1.gang) ++ gs).find? (fun g => g.2.contains c) with
    | some g => g.2
    | none => [c]

/-- A member of a gang takes its position. -/
def State.takePosition (f : Core → Option Core) (s : State) (d : Nat) : State :=
  match f (s.core d) with
  | some k => s.putCore d k
  | none => s

/-- Every member of a core's gang takes one position in the same cycle, or none does (R84). -/
def State.lockstep (s : State) (c : Nat) (f : Core → Option Core) : State :=
  let g := s.gangOf c
  if g.all (fun d => (f (s.core d)).isSome) then g.foldl (State.takePosition f) s else s

/-- A tick: nothing where the clocks stand; else Ridgepole, the cycle counts and the dispatch of every listed core,
gang by gang (R84). -/
def tick (s : State) : State :=
  if !s.clocked then s else
  let t := { s with rp := s.rp.cycle
                    cores := nall {} Core.starveCycle s.cores }
  (s.cores.map Prod.fst).foldl (fun s c => if (s.gangOf c).head? = some c then s.lockstep c Core.dispatch else s) t

end Sys2Proof.Machine
end

