-- ==== Sys2Proof/Machine/Errors.lean ====
section
/-!
DEFINITION. Containment: reporting an error at its level, escalation, strike, the job reset and the failure of a pitch
(15_pitch_and_strike.md R344, R348, R351, R352; 16_errors_and_recovery.md R358 to R373).
-/
namespace Sys2Proof.Machine

open Sys2Proof

/-! ## The pitch record (Table 15.1) -/

/-- A field of the record of the pitch. -/
def State.recF (s : State) (off len : Nat) : Nat := fieldAt s.pitch.record off len

/-- The peg table of a record. -/
def recordPeg (r : List Byte) : List Nat := wordsOf 2 512 (r.drop 128)

/-- The epoch that PITCH packets carry (R343). -/
def recordEpoch (r : List Byte) : Epoch := ⟨fieldAt r 6 2, fieldAt r 32 1, fieldAt r 16 8⟩

/-- Send a PITCH packet for the record held (Table 15.2). -/
def State.sendPitch (s : State) (ty reason rank off dst : Nat) (payload : List Byte) : State :=
  s.ctl kPITCH (ty + off * 2 ^ 11 + rank * 2 ^ 23 + reason * 2 ^ 32) dst (recordEpoch s.pitch.record) payload

/-! ## Job reset (R344) -/

/-- Everything of the job stops: cores, harts, stations, linkage engines, collectives and their transfers (R352). -/
def State.stopAll (s : State) : State :=
  { s with cores := nall {} (fun k => { ({} : Core) with stats := k.stats }) s.cores
           harts := s.harts.map (fun e => (e.1, { ({} : Hart) with stats := e.2.stats }))
           stations := s.stations.map (fun e => (e.1, { e.2 with ring := [], ctxs := [] }))
           links := s.links.map (fun e => (e.1, { e.2 with queue := [] })), coll := { s.coll with runs := [], inbox := [] }, nacks := [], reissues := []
           tt := { s.tt with waiting := [] }
           fab := { s.fab with track := [], txSeq := [], rxSpace := [], reorder := [], keepSeq := [], unanswered := []
                               lineQ := [], lineLast := [], unacked := [], puts := [], spaceLock := [] } }

/-- A job reset begins: everything stops, and its completion does `after` (R344). -/
def State.beginReset (s : State) (after : AfterReset) (keep : Bool) : State :=
  let t := s.stopAll
  { t with pitch := { t.pitch with resetting := some after, keepBivouac := keep }
           guy := { t.guy with held := none, commit := .none }, job := { t.job with stepRunning := false }
           ckpt := { t.ckpt with drain := none, give := none, restoring := false }
           rp := { t.rp with measure := none } }

/-! ## Strike (R351, R352) -/

/-- Send STRIKE to every other rank of the peg table (R351). -/
def State.sendStrike (s : State) (reason : Nat) : State :=
  ((s.fab.tabs.ranks).filter (fun r => r != s.myRank)).foldl
    (fun s r => s.ctl kSTRIKE reason r s.epoch []) s

/-- The package strikes itself: all stops, nothing more commits, a job reset follows; during a pitch it acts as ABORT
(R352). -/
def State.strikeSelf (s : State) (reason : Nat) : State :=
  let keep := s.pitch.st == .running || s.pitch.st == .quiesced || s.recF 4 2 == 3
  let t := s.event 0x0805 srcPackage (reason + s.job.id * 2 ^ 8)
  let t := { t with pitch := { t.pitch with struck := some s.job.id, strikeReason := reason, resultJob := s.job.id } }
  let t := { t with err := { t.err with st := 5 }
                    rp := { t.rp with st := if t.rp.st = RpState.lost then RpState.unaligned else t.rp.st } }
  t.beginReset .idle keep

/-- Strike the job from here: every rank, then the package itself (R351). -/
def State.strikeAll (s : State) (reason : Nat) : State := (s.sendStrike reason).strikeSelf reason

/-! ## Pitch failure (R345, R348) -/

/-- Is the package between ACCEPTED and ALIGNED? -/
def State.pitching (s : State) : Bool :=
  s.pitch.st == .accepted || s.pitch.st == .loaded || s.pitch.st == .aligned

/-- The root aborts the pitch: result, then ABORT to every rank of the record; a RESIZE is struck (R348, R356). -/
def State.rootAbort (s : State) (reason rank : Nat) : State :=
  let t := { s with pitch := { s.pitch with reason := reason, resultRank := rank, resultJob := s.recF 6 2 } }
  if s.recF 4 2 = 3 then
    (t.sendStrike 6).strikeSelf 6
  else
    let ranks := (((List.range 512).zip (recordPeg s.pitch.record)).filter (fun e => e.2 != 0xFFFF && e.1 != 0)).map Prod.fst
    (ranks.foldl (fun s r => s.sendPitch 7 0 0 0 r []) t).beginReset .idle false

/-- A failure of the pitch that this package has seen: FAIL to the parent, naming the rank; the root aborts. -/
def State.pitchFail (s : State) (reason rank : Nat) : State :=
  if s.myRank = 0 then s.rootAbort reason rank
  else s.sendPitch 6 reason rank 0 (parentOf s.myRank) []

/-! ## Reports (R358 to R373) -/

/-- Ask for a package reset (R373). -/
def State.requestReset (s : State) (code : Nat) : State :=
  let t := s.event 0x0102 srcPackage code
  { t with err := { t.err with resetRequested := true, st := 6 }, start := { t.start with rstreqLow := true } }.put (.rstreq true)

/-- No core: an error of another unit. -/
def noCore : Nat := 65536

/-- Note the first error of the attempt (Table 16.10); the core that the entry names for an error of another unit is
open. -/
def State.noteFirst (s : State) (code core level : Nat) : State :=
  match s.err.first with
  | some _ => s
  | none =>
    let c := if core < 256 then core else (Config.freeWord s.free).toNat % 65536
    let t := if core < 256 then s else s.taken
    { t with err := { t.err with first := some ⟨code, s.job.rank, c, level, s.job.attempt, s.job.step, s.ns⟩ } }

/-- Record an escalation (R372). -/
def State.escalate (s : State) (code old new : Nat) : State :=
  let t := s.event 0x0804 srcPackage (code + old * 2 ^ 16 + new * 2 ^ 24)
  { t with err := { t.err with escalations := count 32 t.err.escalations 1 } }

/-- Is a strike under way on this package (R352)? -/
def State.striking (s : State) : Bool := s.err.st == 5

/-- An error at job level: the job is struck; during a strike a package reset is asked for; a pitch fails (R345, Table
16.1, Table 16.6). The event has been recorded. -/
def State.jobError (s : State) (code core reason : Nat) : State :=
  if s.striking then s.requestReset code
  else if s.pitching then s.pitchFail 0x0A s.myRank
  else if s.pitch.st == .ready || s.pitch.st == .running || s.pitch.st == .quiesced then
    (s.noteFirst code core 3).strikeAll reason
  else s

/-- Report an error at job level (R359). -/
def State.reportJob (s : State) (code source payload core : Nat) (reason : Nat := 3) : State :=
  (s.event code source payload).jobError code core reason

/-- Has the commit decision of the current step been made, as far as this package knows (R31)? -/
def State.decidedStep (s : State) : Bool := s.guy.held.isSome || s.guy.commit != .none

/-- Is a step replay in progress on this package (R371)? -/
def State.replaying (s : State) : Bool := 1 ≤ s.err.st && s.err.st ≤ 4

/-- An error at step level: the step fails; it escalates within a replay, strikes after the commit
decision, asks for a reset during a strike (R31, R362, R372). -/
def State.stepError (s : State) (code core : Nat) : State :=
  if s.striking then s.requestReset code
  else if s.pitching then s.pitchFail 0x0A s.myRank
  else if s.pitch.st != .running && s.pitch.st != .quiesced then s
  else if s.replaying then (s.escalate code 2 3).jobError code core 3
  else if s.decidedStep then s.jobError code core 3
  else
    let t := s.noteFirst code core 2
    { t with err := { t.err with stepFailed := true, failCode := if s.err.stepFailed then s.err.failCode else code
                                 failRank := s.job.rank } }

/-- Report an error at step level (R359). -/
def State.reportStep (s : State) (code source payload core : Nat) : State :=
  (s.event code source payload).stepError code core

/-- A PARITY event: its level, and a location that the spec does not fix (Table 23.3). -/
def State.parityEvent (s : State) (source level : Nat) : State :=
  (s.event 0x0801 source (level + (Config.eventField 0x0801 s.free).toNat * 2 ^ 8)).taken

/-- A unit error that re-executes its command once: counted and recorded (R361). -/
def State.unitRetry (s : State) (source pos : Nat) : State :=
  let t := (s.parityEvent source 1).event 0x0802 source pos
  { t with err := { t.err with unitRetries := count 64 t.err.unitRetries 1 } }

/-- The second error of a re-executed command escalates to step level (Table 16.6). -/
def State.unitAgain (s : State) (source core : Nat) : State :=
  ((s.parityEvent source 1).escalate 0x0801 1 2).stepError 0x0801 core

/-- A parity error that is never re-executed: step level (Table 16.2). -/
def State.parityStep (s : State) (source core : Nat) : State := (s.parityEvent source 2).stepError 0x0801 core

/-- A parity error at job level: fabric state of a gateway die (Table 16.2). -/
def State.parityJob (s : State) (source core : Nat) : State := (s.parityEvent source 3).jobError 0x0801 core 3

/-- A step-level error in an engine: within a re-execution there it is a job-level one (Table 16.6). -/
def State.engineError (s : State) (retrying : Bool) (code source payload core : Nat) : State :=
  if retrying && !s.striking && !s.pitching then ((s.event code source payload).escalate code 2 3).jobError code core 3
  else s.reportStep code source payload core

/-- A stack parity error on a channel: counted; at the threshold of one step the channel is marked for retraining
(Tables 9.4, 9.7). -/
def State.stackParity (s : State) (ch : Nat) : State :=
  let n := nget 0 s.hbm.stepParity ch + 1
  let t := s.modStack (ch / 32) (fun x => { x with parity := count 64 x.parity 1 })
  let t := { t with hbm := { t.hbm with stepParity := nset 0 t.hbm.stepParity ch n } }
  if n = s.dnat 0x3010 9 then
    ({ t with hbm := { t.hbm with retrain := if t.hbm.retrain.contains ch then t.hbm.retrain
                                                   else t.hbm.retrain ++ [ch] } }).event 0x0203 (srcChannel ch) n
  else t

end Sys2Proof.Machine
end

