-- ==== Sys2Proof/Machine/CollOps.lean ====
section
/-!
DEFINITION. The progress of a collective on its member: the ring, the tree, retirement (14_collectives.md R330 to R338).
-/
namespace Sys2Proof.Machine

open Sys2Proof

/-- Packets that carry a row (R330). -/
def CollDesc.perRow (d : CollDesc) : Nat := ceilDiv d.rowb 256

/-- Packets of a piece. -/
def CollDesc.packets (d : CollDesc) : Nat := d.rows * d.perRow

/-- Offset and length of packet `k` in its row. -/
def CollDesc.cut (d : CollDesc) (k : Nat) : Nat × Nat :=
  let o := k % d.perRow * 256
  (o, min 256 (d.rowb - o))

/-- Address of packet `k` where rows of `stride` start at `base`. -/
def CollDesc.at_ (d : CollDesc) (base stride k : Nat) : Nat := base + k / d.perRow * stride + (d.cut k).1

/-- Row groups: a row, or with PAIR a block of 128 rows (R332). -/
def CollDesc.groupRows (d : CollDesc) : Nat := if d.pair then 128 else 1

/-- Number of row groups. -/
def CollDesc.groups (d : CollDesc) : Nat := d.rows / d.groupRows

/-- Base of work slot `l` (R328). -/
def CollDesc.slot (d : CollDesc) (l : Nat) : Nat := d.work + l * (d.rows * d.rowb)

/-- The key of results that come down. -/
def resultKey : Nat := 1000

/-- Base and row stride of a source of packets: a work slot or the results (reductions), or a piece (ALLGATHER). -/
def CollDesc.place (d : CollDesc) (key : Nat) : Nat × Nat :=
  if d.op = 0 then (d.dst + key * d.pstep, d.dstride)
  else if key = resultKey then (d.dst, d.dstride) else (d.slot key, d.rowb)

/-- The keys that a member takes packets in under. -/
def CollRun.keys (r : CollRun) : List Nat :=
  if r.d.op = 0 then (List.range r.d.n).filter (fun p => p != r.i)
  else
    (if r.d.op = 3 then [] else combineLevels r.d.n r.i) ++ (if r.d.op ≠ 1 ∧ r.i ≠ 0 then [resultKey] else [])

/-- Take landed packets of a key in order (R329). -/
def takeIn (core : Nat) (d : CollDesc) (key : Nat) : Nat → List CollIn → Nat → List CollIn × Nat
  | 0, box, n => (box, n)
  | fuel + 1, box, n =>
    if d.packets ≤ n then (box, n) else
    let a := d.at_ (d.place key).1 (d.place key).2 n
    if box.any (fun e => e.core == core && e.addr == a) then
      takeIn core d key fuel (box.filter (fun e => !(e.core == core && e.addr == a))) (n + 1)
    else (box, n)

/-- Take landed packets under every key. -/
def takeKeys (r : CollRun) : List Nat → List CollIn → CollRun × List CollIn
  | [], box => (r, box)
  | k :: ks, box =>
    let x := takeIn r.core r.d k box.length box (nget 0 r.arrived k)
    takeKeys { r with arrived := nset 0 r.arrived k x.2 } ks x.1

/-- Packets taken in under a key. -/
def CollRun.got (r : CollRun) (k : Nat) : Nat := nget 0 r.arrived k

/-- Read a row group from scratch. -/
def groupBytes (m : Cells) (base stride rowb g : Nat) (rows : Nat) : List (List Byte) :=
  (List.range rows).map (fun k => readBytes m (base + (g * rows + k) * stride) rowb)

/-- Write a row group to scratch. -/
def putGroup (m : Cells) (base stride g rows : Nat) (l : List (List Byte)) : Cells :=
  ((List.range rows).zip l).foldl (fun m e => writeBytes m (base + (g * rows + e.1) * stride) e.2) m

/-- Combine two row groups (R332, R333, R326, R336). -/
def combineGroup (d : CollDesc) (a b : List (List Byte)) : List (List Byte) :=
  if d.pair then
    let x := List.zipWith (fun (p q : List Byte × List Byte) => collCombinePair d.fmt p.1 p.2 q.1 q.2)
      ((a.take 64).zip (a.drop 64)) ((b.take 64).zip (b.drop 64))
    x.map Prod.fst ++ x.map Prod.snd
  else List.zipWith (collCombineBytes d.fmt d.red) a b

/-- Groups combined at level number `m` of a member's levels, or all where it combines at none below. -/
def CollRun.doneAt (r : CollRun) (m : Nat) : Nat := if m = 0 then r.d.groups else r.comb.getD (m - 1) 0

/-- Groups whose partial is final on this member. -/
def CollRun.final (r : CollRun) : Nat := r.doneAt r.comb.length

/-- Combine what can be combined at level number `m` (R334). -/
def combineLevel (c m l : Nat) : Nat → State → CollRun → State × CollRun
  | 0, s, r => (s, r)
  | fuel + 1, s, r =>
    let g := r.comb.getD m 0
    let gr := r.d.groupRows
    if decide (g < r.doneAt m) && decide ((g + 1) * gr * r.d.perRow ≤ r.got l) then
      let sc := (s.core c).scratch
      let v := combineGroup r.d (groupBytes sc r.d.dst r.d.dstride r.d.rowb g gr) (groupBytes sc (r.d.slot l) r.d.rowb r.d.rowb g gr)
      let s := s.modCore c (fun k => { k with scratch := putGroup k.scratch r.d.dst r.d.dstride g gr v })
      let u := gdOfCore c * 8 + c % 8
      let ub := setAt s.coll.unitBytes u (count 64 (s.coll.unitBytes.getD u 0) (gr * r.d.rowb))
      let s := { s with coll := { s.coll with unitBytes := ub } }
      combineLevel c m l fuel s { r with comb := setAt r.comb m (g + 1) }
    else (s, r)

/-- Combine at every level in order. -/
def combineAll (c : Nat) : List (Nat × Nat) → State → CollRun → State × CollRun
  | [], s, r => (s, r)
  | (m, l) :: t, s, r =>
    let x := combineLevel c m l r.d.groups s r
    combineAll c t x.1 x.2

/-- A COLL packet of this member (R338). -/
def collPacket (r : CollRun) (dst addr : Nat) (flag : Option Nat) (bs : List Byte) : Packet :=
  { kind := kCOLL, tc := 1, job := 0, attempt := 0, step := 0, seq := 0, arg := deliveryArg addr r.d.repoch flag none
    path := 0, srcRank := 0, srcCore := r.core, dstRank := r.d.lo + dst, dstCore := r.d.core, sgd := 0, payload := bs }

/-- The flag that the last packet of a piece or result carries. -/
def CollRun.flagFor (r : CollRun) (k f : Nat) : Option Nat := if r.d.flagEn && k + 1 == r.d.packets then some f else none

/-- The next packet round the ring or up the tree: destination member, packet; none where it must wait (R330, R334). -/
def CollRun.nextUp (s : State) (r : CollRun) : Option Packet :=
  let d := r.d
  if d.packets = 0 then none else
  let sc := (s.core r.core).scratch
  if d.op = 0 then
    if (d.n - 1) * d.packets ≤ r.pos then none else
    let j := r.pos / d.packets + 1
    let k := r.pos % d.packets
    let p := (r.i + d.n - (j - 1)) % d.n
    if p = r.i ∨ k < r.got p then
      let a := d.at_ (d.dst + p * d.pstep) d.dstride k
      some (collPacket r ((r.i + 1) % d.n) a (r.flagFor k (d.flag0 + p)) (readBytes sc a (d.cut k).2))
    else none
  else if d.op = 3 ∨ r.i = 0 ∨ d.packets ≤ r.pos then none
  else
    let k := r.pos
    let t := lowBit 10 r.i
    if k / d.perRow / d.groupRows < r.final then
      some (collPacket r (r.i - 2 ^ t) (d.at_ (d.slot t) d.rowb k) none (readBytes sc (d.at_ d.dst d.dstride k) (d.cut k).2))
    else none

/-- Result packets that are in DST on this member (R335). -/
def CollRun.resultHere (r : CollRun) : Nat :=
  if r.i ≠ 0 then r.got resultKey
  else if r.d.op = 3 then r.d.packets else r.final * r.d.groupRows * r.d.perRow

/-- The next packet down the tree (R335). -/
def CollRun.nextDown (s : State) (r : CollRun) : Option Packet :=
  let d := r.d
  if d.op ≠ 2 ∧ d.op ≠ 3 then none else
  let ch := downChildren d.n r.i
  if ch.isEmpty then none else
  let k := r.down / ch.length
  if k < d.packets ∧ k < r.resultHere then
    let a := d.at_ d.dst d.dstride k
    some (collPacket r (ch.getD (r.down % ch.length) 0) a (r.flagFor k d.flag0)
      (readBytes (s.core r.core).scratch a (d.cut k).2))
  else none

/-- May the next packet of a run go? A row's packets carry consecutive numbers, so at its first packet there must be
entries for all of them (R272, R283). -/
def State.collRoom (s : State) (r : CollRun) (k : Packet) (nth : Nat) : Bool :=
  let gd := gdOfCore r.core
  s.spaceFree (spaceKey k.dstRank gd 1) 0
    && (if nth % r.d.perRow = 0 then s.mayInjectAll gd r.d.perRow else s.mayInject gd 1)

/-- Send what can be sent (R283, R330, R334, R335). -/
def collSend : Nat → State → CollRun → State × CollRun
  | 0, s, r => (s, r)
  | fuel + 1, s, r =>
    let gd := gdOfCore r.core
    match r.nextUp s with
    | some k =>
      if s.collRoom r k r.pos then collSend fuel (s.inject gd k (.coll r.core)) { r with pos := r.pos + 1 }
      else (s.injectWait gd, r)
    | none => match r.nextDown s with
      | some k =>
        let ch := (downChildren r.d.n r.i).length
        if s.collRoom r k (r.down / ch) then collSend fuel (s.inject gd k (.coll r.core)) { r with down := r.down + 1 }
        else (s.injectWait gd, r)
      | none => (s, r)

/-- Is the collective's work on this member done and every packet of it acknowledged (Table 14.3)? -/
def CollRun.complete (s : State) (r : CollRun) : Bool :=
  let d := r.d
  let acked := !s.fab.track.any (fun t => t.owner == .coll r.core)
  let nd := (downChildren d.n r.i).length
  match d.op with
  | 0 => acked && decide ((d.n - 1) * d.packets ≤ r.pos)
      && ((List.range d.n).all (fun p => p == r.i || decide (d.packets ≤ r.got p)))
  | 1 => if r.i = 0 then decide (d.groups ≤ r.final) else acked && decide (d.packets ≤ r.pos)
  | 2 => acked && decide (d.packets ≤ r.resultHere) && decide (d.packets * nd ≤ r.down)
      && (r.i == 0 || decide (d.packets ≤ r.pos))
  | _ => acked && decide (d.packets ≤ r.resultHere) && decide (d.packets * nd ≤ r.down)

/-- Set an arrival flag (R73). -/
def Core.setFlag (k : Core) (f : Nat) : Core := { k with flags := k.flags ||| (1#1024 <<< (f % 1024)) }

/-- Add to a counter (R69). -/
def Core.addCtr (k : Core) (i n : Nat) : Core := { k with ctr := k.ctr.setIfInBounds i (k.ctr.toList.getD i 0 + BitVec.ofNat 32 n) }

/-- Put a run back. -/
def State.putRun (s : State) (r : CollRun) : State :=
  { s with coll := { s.coll with runs := s.coll.runs.map (fun q => if q.core = r.core then r else q) } }

/-- Advance the collective of a core as far as it can go, and retire it where it is complete (R337). -/
def State.collAdvance (s : State) (c : Nat) : State :=
  match s.coll.runs.find? (fun r => r.core == c) with
  | none => s
  | some r0 =>
    let x := takeKeys r0 r0.keys s.coll.inbox
    let r := x.1
    let s := { s with coll := { s.coll with inbox := x.2 } }
    let y := if r.d.op = 1 ∨ r.d.op = 2 then
        combineAll c ((List.range r.comb.length).zip (combineLevels r.d.n r.i)) s r else (s, r)
    let before := r0.final
    let s := if r.i = 0 ∧ (r.d.op = 1 ∨ r.d.op = 2) ∧ r.d.flagEn ∧ before < r.d.groups ∧ r.d.groups ≤ y.2.final then
        y.1.modCore c (fun k => k.setFlag r.d.flag0) else y.1
    let z := collSend (r.d.packets * (r.d.n + 12)) s y.2
    let s := z.1.putRun z.2
    if z.2.complete s then
      let s := { s with coll := { s.coll with runs := s.coll.runs.filter (fun q => q.core != c)
                                              retired := count 64 s.coll.retired 1 } }
      s.modCore c (fun k =>
        let k := if r.d.cntEn then k.addCtr r.d.cnt 1 else k
        { k with qXe := k.qXe.drop 1 })
    else s

end Sys2Proof.Machine
end

