-- ==== Sys2Proof/Machine/PitchOps.lean ====
section
/-!
DEFINITION. The transitions that a pitch takes when a package's own part and its children's are complete
(15_pitch_and_strike.md R345, R350; 13_time_and_step.md R306, R307, R311, R314).
-/
namespace Sys2Proof.Machine

open Sys2Proof

/-! ## Operating points (18.3) -/

/-- The point that the job or the idle setting asks for (R395). -/
def State.requestedPoint (s : State) : Nat := s.power.job.getD (s.dnat 0x2110 3)

/-- The effective point (R395). -/
def State.effectivePoint (s : State) : Nat := max s.requestedPoint (max s.power.thermalCap s.power.powerCap)

/-- Aim the sequencer at the effective point (R394 to R396): to a slower point the frequency switches at once and the
voltage follows, to a faster one the voltage rises first. It rises for a faster point that a RELEASE has announced as
well (Table 13.6). Time spent capped is kept (Table 18.11). -/
def State.retarget (s : State) : State :=
  let e := s.effectivePoint
  let p := s.power
  let cap := max p.thermalCap p.powerCap
  let capped := decide (s.requestedPoint < cap)
  let v := match p.next with
    | some o => min e (max o cap)
    | none => e
  let p := if p.freq ≠ e ∧ (p.freq < e ∨ p.volt ≤ e) then { p with freq := e, counter := { p.counter with switched := true } } else p
  let p := { p with rampTo := if p.volt = v then none else some v }
  { s with power := match p.cappedSince with
      | none => if capped then { p with cappedSince := some s.ns } else p
      | some t => if capped then p else { p with cappedSince := none, cappedTime := count 64 p.cappedTime (s.ns - t) } }

/-! ## Releases and the pitch -/

/-- The address of the record line of a slot (R382). -/
def recordAddr (x : Nat) : Nat := 0x7FFFF000 + 128 * x

/-- A GUYLINE argument (Table 13.5). -/
def guyArg (ty opp : Nat) (input : Bool) : Nat := ty + opp * 2 ^ 8 + (if input then 2 ^ 16 else 0)

/-- Send a GUYLINE packet (R311). -/
def State.sendGuy (s : State) (ty opp : Nat) (input : Bool) (dst : Nat) (e : Epoch) (payload : List Byte) : State :=
  s.ctl kGUY (guyArg ty opp input) dst e payload

/-- Ridgepole raised to whole nanoseconds (R21, R313). -/
def State.nsUp (s : State) : Nat := (s.now + 255) / 256

/-- Hold a RELEASE and pass it on to the children (R313, R315): one that comes after T releases on the next multiple of
10 ns. -/
def State.holdRelease (s : State) (step attempt t opp : Nat) : State :=
  let u := s.children.foldl (fun s c => s.sendGuy 3 opp false c ⟨s.job.id, attempt, step⟩ (leBytes 8 t)) s
  let late := decide (t < s.nsUp)
  { u with guy := { u.guy with held := some ⟨step, attempt, t, opp, if late then tenNs s.nsUp else t, late⟩ } }

/-- The margin of the root: depth of the deepest rank times the hop allowance (R314). -/
def State.marginNs (s : State) : Nat := depthOf 16 (s.job.ranks - 1) * s.dnat 0x8020 3

/-- The root's RELEASE without a commit: the first one, the one after RESUME, the one that ends a restore (R350, R354,
R367). -/
def State.plainRelease (s : State) (step : Nat) : State :=
  s.holdRelease step s.job.attempt (tenNs (s.nsUp + s.guy.margin)) 0xFF

/-- Every record that this package holds, and those of its stage, become zero; its drain ends (Table 17.2). -/
def State.dropRecords (s : State) : State :=
  let m := clearRange (clearRange s.mem (recordAddr 0) 128) (recordAddr 1) 128
  let m := match s.ckpt.stage with
    | some p => clearRange m (p.base + p.size - 256) 256
    | none => m
  { s with mem := m, ckpt := { s.ckpt with drain := none, newest := none } }

/-- ALIGNED and every child has sent ACK: ACK goes up, or at the root the first RELEASE goes down (R345, R350). -/
def State.maybeReady (s : State) : State :=
  if s.pitch.st == .aligned && s.children.all (fun c => s.pitch.acked.contains c) then
    let t := { s with pitch := { s.pitch with st := .ready }, guy := { s.guy with commit := .done false } }
    let t := if s.job.kind = 3 then t.dropRecords else t
    if s.job.rank = 0 then
      ({ t with guy := { t.guy with margin := s.marginNs } } : State).plainRelease s.job.first
    else t.sendPitch 5 0 0 0 (parentOf s.job.rank) []
  else s

/-- The package is aligned: ALIGN to each child (R307, R345). -/
def State.alignDone (s : State) : State :=
  let t := { s with pitch := { s.pitch with st := .aligned }, rp := { s.rp with st := .locked } }
  (t.children.foldl (fun s c => s.sendPitch 4 0 0 0 c []) t).maybeReady

/-- ACCEPTED, own load complete and LOADED from every child: the job's start point is asked for (R395) and LOADED goes up;
the root aligns its children (R345). -/
def State.maybeLoaded (s : State) : State :=
  if s.pitch.st == .accepted && s.pitch.ownLoaded && s.children.all (fun c => s.pitch.loaded.contains c) then
    let t := ({ s with pitch := { s.pitch with st := .loaded }
                       power := { s.power with job := some (s.dnat 0x2110 2) } } : State).retarget
    if s.job.rank = 0 then t.alignDone
    else t.sendPitch 3 0 0 0 (parentOf s.job.rank) []
  else s

/-- Begin a measurement against the parent (R306). -/
def State.measure (s : State) (u : RpUse) : State :=
  { s with rp := { s.rp with parent := some (parentOf s.job.rank), measure := some { use := u } } }

end Sys2Proof.Machine
end

