-- ==== Sys2Proof/Machine/Slots.lean ====
section
/-!
DEFINITION. Step state, flysheets, bivouac and stage slots and their records (17_checkpoint.md R375 to R386).
-/
namespace Sys2Proof.Machine

open Sys2Proof

/-- Local memory written by an agent other than a hart: reservations on its lines are lost (R185, Table 7.4). -/
def State.storeAgent (s : State) (a : Nat) (bs : List Byte) : State :=
  let t := s.store a bs
  let hit (r : Nat × Nat) : Bool := decide (r.1 / 128 ≤ (a + bs.length - 1) / 128) && decide (a / 128 ≤ (r.1 + r.2 - 1) / 128)
  { t with harts := t.harts.map (fun e => (e.1, match e.2.resv with
    | some r => if hit r then { e.2 with resv := none } else e.2
    | none => e.2)) }

/-- Is a commit record valid for a ward (R382, Table 17.1)? -/
def recordValid (r : List Byte) (ward : Nat) : Bool := fieldAt r 0 4 == 0x43415642 && fieldAt r 6 2 == ward

/-- The record line of a bivouac slot held here (R382). -/
def State.bivouacRecord (s : State) (x : Nat) : List Byte := s.load (recordAddr x) 128

/-- The record of a stage slot (R383). -/
def State.stageRecord (s : State) (x : Nat) : List Byte :=
  match s.ckpt.stage with
  | some p => s.load (p.base + p.size - 256 + 128 * x) 128
  | none => zeros 128

/-- The slot (0 A, 1 B) whose bivouac copy holds a line, and the line's region and offset. -/
def State.slotOf (s : State) (a : Nat) : Option (Nat × Nat × Nat) :=
  let f (x : Nat) : Option (Nat × Nat × Nat) :=
    (s.regionsOf .state).findSome? (fun p =>
      let b := p.bases.getD (2 + x) 0
      if b ≤ a ∧ a < b + p.r.size then some (x, p.r.id, a - b) else none)
  (f 0).orElse (fun _ => f 1)

/-- A copy of the step state: the STATE regions in ascending identifier (R375); copy 0 is the working copy, 1 the
flysheet, 2 and 3 the slots. -/
def State.stepState (s : State) (copy : Nat) : List Byte :=
  ((s.regionsOf .state).map (fun p => s.load (p.bases.getD copy 0) p.r.size)).flatten

/-- Bytes of step state (R375). -/
def State.stateSize (s : State) : Nat := ((s.regionsOf .state).map (fun p => p.r.size)).sum

/-- Lines of step state. -/
def State.stateLines (s : State) : Nat := s.stateSize / 128

/-- The address of line `i` of a copy of the step state (R379). -/
def stateLineAt (copy : Nat) : List Placed → Nat → Nat
  | [], _ => 0
  | p :: ps, i => if i < p.r.size / 128 then p.bases.getD copy 0 + 128 * i else stateLineAt copy ps (i - p.r.size / 128)

/-- Put bytes into the STATE regions of a copy. -/
def putState (copy : Nat) : List Placed → List Byte → State → State
  | [], _, s => s
  | p :: ps, bs, s => putState copy ps (bs.drop p.r.size) (s.storeAgent (p.bases.getD copy 0) (bs.take p.r.size))

/-- Copy one copy of the step state to another (R365, R377). -/
def State.copyState (s : State) (src dst : Nat) : State :=
  (s.regionsOf .state).foldl (fun s p =>
    let a := p.bases.getD src 0
    let b := p.bases.getD dst 0
    ({ s with mem := copyCells s.mem a s.mem b p.r.size } : State).countLines a false p.r.size p.r.size
      |>.countLines b true p.r.size p.r.size) s

/-- The step state has come back: the flysheet is that of F (R386). -/
def State.restored (s : State) (slot : Option Nat) : State :=
  let t := { s with ckpt := { s.ckpt with flyStep := s.job.first - 1, restoring := false
                                          newest := s.ckpt.newest.orElse (fun _ => slot) }
                    pitch := { s.pitch with ownLoaded := true } }
  t.maybeLoaded

/-- Restore from a stage slot of step F, or fail the pitch where there is none (R386). -/
def State.restoreStage (s : State) : State :=
  let f := s.job.first - 1
  match [0, 1].find? (fun x => recordValid (s.stageRecord x) s.job.rank && fieldAt (s.stageRecord x) 8 8 == f), s.ckpt.stage with
  | some x, some p =>
    let bs := s.load (p.base + x * p.state) p.state
    if slice (s.stageRecord x) 32 64 = chunkedDigest bs then
      (putState 1 (s.regionsOf .state) bs (putState 0 (s.regionsOf .state) bs s)).restored none
    else (s.event 0x080A srcPackage s.job.rank).pitchFail 0x0A s.job.rank
  | _, _ => (s.event 0x0809 srcPackage (f % 2 ^ 48)).pitchFail 0x0A s.job.rank

/-- The holder's record has come, which closes its lines: its digest is checked, or the stage is used where the holder
has no slot of step F (R386). -/
def State.closeRestore (s : State) (rec_ : List Byte) (holder : Nat) : State :=
  if recordValid rec_ s.job.rank && fieldAt rec_ 8 8 == s.job.first - 1 then
    if slice rec_ 32 64 = chunkedDigest (s.stepState 0) then s.restored (some (fieldAt rec_ 24 1))
    else (s.event 0x080A srcPackage holder).pitchFail 0x0A s.job.rank
  else s.restoreStage

/-- The slot of a bivouac held here for the ward whose record is of a step. -/
def State.wardSlot (s : State) (step : Nat) : Option Nat :=
  [0, 1].find? (fun x => recordValid (s.bivouacRecord x) (s.dnat 0xA010 4) && fieldAt (s.bivouacRecord x) 8 8 == step)

/-! ## Sending slots (R379, R380, R386) -/

/-- One line for the copy engines of another package (R379, R381). -/
def slotPacket (dst addr : Nat) (line : List Byte) : Packet :=
  { kind := kLWRITE, tc := 1, job := 0, attempt := 0, step := 0, seq := 0, arg := canopyAddr dst addr, path := 0
    srcRank := 0, srcCore := 0x3FF, dstRank := dst, dstCore := 0x3FF, sgd := 0
    payload := List.replicate 16 0xFF ++ line }

/-- The drain sends its next line within its share of each 10 us, and writes it to the stage (R379, R380, R383). -/
def State.drainTick (s : State) : State :=
  match s.ckpt.drain with
  | none => s
  | some d =>
    let w := s.now / 2560000
    let used := if d.window = w then d.inWindow else 0
    let on := (s.pitch.st == .running || s.pitch.st == .quiesced) && (s.err.st != 2 || s.guy.restored)
    if !on || d.recordOut || s.stateLines ≤ d.next || s.dnat 0xA010 2 * 240000 < used + 128 || !s.mayInject 0 1 then s else
    let ps := s.regionsOf .state
    let a := stateLineAt 1 ps d.next
    let line := s.load a 128
    let t := s.countMem a 128 false
    let t := match s.ckpt.stage with
      | some p => t.store (p.base + d.slot * p.state + 128 * d.next) line
      | none => t
    let t := t.inject 0 (slotPacket (s.dnat 0xA010 3) (stateLineAt (2 + d.slot) ps d.next) line) .drain
    { t with ckpt := { t.ckpt with drain := some { d with next := d.next + 1, unacked := d.unacked + 1, window := w
                                                          inWindow := used + 128 } } }

/-- A holder sends its ward's slot line by line and its record last (R386). -/
def State.giveTick (s : State) : State :=
  match s.ckpt.give with
  | none => s
  | some d =>
    if !s.mayInject 0 1 then s else
    let dst := s.dnat 0xA010 4
    if d.next < s.stateLines then
      let a := stateLineAt (2 + d.slot) (s.regionsOf .state) d.next
      let t := (s.countMem a 128 false).inject 0 (slotPacket dst a (s.load a 128)) .restore
      { t with ckpt := { t.ckpt with give := some { d with next := d.next + 1 } } }
    else
      let t := s.inject 0 (slotPacket dst (recordAddr d.slot) (s.bivouacRecord d.slot)) .restore
      { t with ckpt := { t.ckpt with give := none } }

end Sys2Proof.Machine
end

