-- ==== Sys2Proof/Machine/Deliver.lean ====
section
/-!
DEFINITION. Delivery: the checks a receiver makes on a packet or transfer, core ingress, the home of canopy operations,
bivouac lines and the passing on of a sequence space (R80, R92, R282, R288 to R296, R316, R322, R366, R381, R386).
-/
namespace Sys2Proof.Machine

open Sys2Proof

/-- The role epoch check (Table 3.7). -/
inductive Verdict where
  | ok
  | early
  | stale
  deriving DecidableEq, Repr

/-- The verdict on an expected role epoch (R92). -/
def verdict (expected cur : Nat) : Verdict :=
  let d := (expected + 65536 - cur % 65536) % 65536
  if d = 0 then .ok else if d < 32768 then .early else .stale

/-- Accepted bytes, flag and count of a transfer at a core; out of bounds they are discarded and reported (R73, R80). -/
def State.land (s : State) (c addr : Nat) (bs : List Byte) (flag cnt : Option Nat) : State :=
  if 8388608 < addr + bs.length then s.reportStep 0x0609 (srcCore c) 3 c
  else s.modCore c (fun k =>
    let k := { k with scratch := writeBytes k.scratch addr bs }
    let k := match flag with
      | some f => k.setFlag f
      | none => k
    match cnt with
    | some i => k.addCtr i 1
    | none => k)

/-- Count an early or stale verdict at the receiving core (Table 3.9). -/
def State.countVerdict (s : State) (c : Nat) (v : Verdict) : State :=
  s.modCore c (fun k => match v with
    | .ok => k
    | .early => { k with stats := { k.stats with early := count 32 k.stats.early 1 } }
    | .stale => { k with stats := { k.stats with stale := count 32 k.stats.stale 1 } })

/-! ## Epochs (R366) -/

/-- What a receiver does with an epoch tag. -/
inductive EpochCheck where
  | here
  | next
  | older
  | newer
  | foreign
  deriving DecidableEq, Repr

/-- Compare an epoch tag with the package's own (R316, R366). -/
def State.checkEpoch (s : State) (e : Epoch) : EpochCheck :=
  if !s.job.held || e.job ≠ s.job.id then .foreign
  else if e.attempt < s.job.attempt then .older
  else if s.job.attempt < e.attempt then .newer
  else if e.step = (s.job.step + 1) % 2 ^ 64 ∨ (!s.job.stepRunning && e.step = s.job.step) then .next
  else .here

/-- The check of a packet: the lines that a holder sends at a RESTORE arrive before any step runs (R386). -/
def State.checkPacket (s : State) (k : Packet) : EpochCheck :=
  match s.checkEpoch ⟨k.job, k.attempt, k.step⟩ with
  | .next => if s.ckpt.restoring && k.dstCore == 0x3FF then .here else .next
  | e => e

/-- Count a discard of another attempt (R366). -/
def State.countDiscard (s : State) : EpochCheck → State
  | .older => { s with err := { s.err with stale := count 64 s.err.stale 1 } }
  | .newer => { s with err := { s.err with newer := count 64 s.err.newer 1 } }
  | _ => s

/-! ## Die-local transfers -/

/-- A transfer's sender learns that it has been delivered or retired (R80, R94, R193, R212). -/
def State.transferDone (s : State) (t : Transfer) (target : Nat) (stale : Bool) : State :=
  match t.sender with
  | .core c => s.modCore c (fun k => match k.qDm with
      | q :: rest => match q.prog with
        | .issued n => if n ≤ 1 ∧ q.todo = 0 then { k with qDm := rest } else { k with qDm := { q with prog := .issued (n - 1) } :: rest }
        | _ => k
      | [] => k)
  | .station n slot => s.modStation n (fun st =>
      { st with ctxs := st.ctxs.map (fun x =>
          if x.id = slot then { x with out := x.out.erase target, stale := if stale then target :: x.stale else x.stale,
                                       flagOut := if t.bytes.isEmpty then false else x.flagOut } else x)
                stale := if stale then count 32 st.stale 1 else st.stale })
  | .hart h => s.modHart h (fun x =>
      { x with db := (match x.db.findIdx? (fun d => d.out) with
          | some i => x.db.eraseIdx i
          | none => x.db), stats := if stale then { x.stats with stale := count 32 x.stats.stale 1 } else x.stats })
  | .none => s

/-- The index counters of a core under the image (R158). -/
def State.indexCtrs (s : State) (c : Nat) : List Nat :=
  match s.job.image with
  | some im => coreIndex im s.job.rank c
  | none => []

/-- Put a transfer into a core's ingress buffer of 32; `none` while it is full (R80). -/
def State.ingress (s : State) (c : Nat) (t : Transfer) : Option State :=
  if (s.core c).ingress.length < 32 then some (s.modCore c (fun k => { k with ingress := k.ingress ++ [t] })) else none

/-- The head of a core's ingress buffer is checked and taken (R80, R92, R191). -/
def State.arrive (s : State) (c : Nat) : State :=
  match (s.core c).ingress with
  | [] => s
  | t :: rest =>
    let s := s.modCore c (fun k => { k with ingress := rest })
    match s.checkEpoch t.epoch with
    | .here =>
      match verdict t.repoch (s.core c).roleEpoch.toNat with
      | .ok =>
        let isDb := match t.sender with
          | .hart _ => true
          | _ => false
        match t.cnt with
        | some i =>
          if isDb && (s.indexCtrs c).contains i then
            (s.reportStep 0x0703 (srcCore c) (c + i * 2 ^ 16) c).transferDone t c false
          else (s.land c t.addr t.bytes t.flag t.cnt).transferDone t c false
        | none => (s.land c t.addr t.bytes t.flag t.cnt).transferDone t c false
      | v => { s.countVerdict c v with nacks := s.nacks ++ [⟨t, c, v == .stale, (s.core c).roleEpoch.toNat⟩] }
    | e => s.countDiscard e

/-! ## Timetable arrivals (R322) -/

/-- The timetable entry that a TT packet ends, at this destination (R168, R319). -/
def State.ttEntryOf (s : State) (k : Packet) : Option (Nat × TtEntry) :=
  match s.job.image with
  | none => none
  | some im => ((ttReceives im s.job.rank).find? (fun e =>
      e.2.1 == k.srcRank && e.2.2.srcCore == k.srcCore && e.2.2.dstCore == k.dstCore
      && decide (e.2.2.dst ≤ bits 22 0 k.arg) && e.2.2.dst + e.2.2.len == bits 22 0 k.arg + k.payload.length)).map
        (fun e => (e.1, e.2.2))

/-- A timetable transfer has arrived: it counts, and it is late past the threshold (R322). -/
def State.ttArrived (s : State) (k : Packet) : State :=
  match s.ttEntryOf k with
  | none => s
  | some (i, e) =>
    let s := { s with tt := { s.tt with arrived := s.tt.arrived ++ [i] } }
    let due := s.job.relT + e.offset
    if due + s.dnat 0x8030 3 < s.ns then
      let late := s.ns - due
      let t := s.event 0x0507 (srcCore k.dstCore) (i + late % 2 ^ 32 * 2 ^ 16)
      { t with tt := { t.tt with lateCount := count 64 t.tt.lateCount 1,
                                 lastLate := leBytes 4 i ++ leBytes 4 late ++ leBytes 8 s.job.step } }
    else s

/-- Is a TT packet the last of its transfer? -/
def State.ttLast (s : State) (k : Packet) : Bool := (s.ttEntryOf k).isSome

/-! ## Delivery to a core (R92, R282) -/

/-- Flag and counter of a delivery argument (Table 11.5). -/
def argFlag (arg : Nat) : Option Nat := if bitAt 33 arg then some (bits 32 23 arg) else none
def argCnt (arg : Nat) : Option Nat := if bitAt 37 arg then some (bits 36 34 arg) else none

/-- Note a SEQ answered EARLY, or drop it (R282). -/
def State.setEarly (s : State) (k : Packet) (on : Bool) : State :=
  s.modFab (fun b => { b with rxSpace := nmod {} b.rxSpace (rxKey k) (fun r =>
    { r with early := if on then (if r.early.contains k.seq then r.early else r.early ++ [k.seq])
                      else r.early.filter (fun q => q != k.seq) }) })

/-- A TT, SEND or COLL packet at its core. -/
def State.toCore (s : State) (k : Packet) : State :=
  let c := k.dstCore
  let cur := (s.core c).roleEpoch.toNat
  match verdict (bits 53 38 k.arg) cur with
  | .early => ((s.countVerdict c .early).setEarly k true).answer k kNACK cur []
  | .stale =>
    let s := (s.countVerdict c .stale).setEarly k false
    let s := if k.kind = kTT ∧ s.ttLast k then s.ttArrived k else s
    s.answerKept k kNACK (cur + 2 ^ 16) []
  | .ok =>
    let s := (s.setEarly k false).land c (bits 22 0 k.arg) k.payload (argFlag k.arg) (argCnt k.arg)
    let s := if k.kind = kTT ∧ s.ttLast k then s.ttArrived k else s
    let s := if k.kind = kCOLL then
        let inb : CollIn := ⟨c, k.srcRank, bits 22 0 k.arg, k.payload.length⟩
        { s with coll := { s.coll with inbox := s.coll.inbox ++ [inb] } }
      else s
    let s := s.answerKept k kACK 0 []
    if k.kind = kCOLL then s.collAdvance c else s

/-! ## The home (12.2) -/

/-- Does the home accept an operation on a line (Table 12.1)? -/
def State.homeOk (s : State) (a : Nat) (write : Bool) : Bool :=
  match s.regionAt a with
  | none => false
  | some (r, _) => match r.kind with
    | .sealed => !write
    | .input => !write
    | .host => false
    | _ => true

/-- A refused operation (R288). -/
def State.refuseCanopy (s : State) (k : Packet) : State :=
  let s := { s with canopy := { s.canopy with refusals := count 32 s.canopy.refusals 1 } }
  s.reportJob 0x0401 (srcGateway (k.sgd % 2)) (k.srcRank + k.srcCore * 2 ^ 16) noCore

/-- Bytes of a line under a mask. -/
def maskBytes (mask : Nat) (old new : List Byte) : List Byte :=
  (List.range 128).map (fun i => if bitAt i mask then new.getD i 0 else old.getD i 0)

/-- Does a mask lie within one sector (R237)? -/
def maskSector (mask : Nat) : Bool :=
  mask != 0 && (List.range 4).any (fun q => mask == bits (32 * q + 31) (32 * q) mask * 2 ^ (32 * q))

/-- Apply an LWRITE to its line and acknowledge it (R289, R290). -/
def State.applyLine (s : State) (k : Packet) : State :=
  let a := bits 40 0 k.arg
  let m := fieldAt k.payload 0 16
  let s := s.storeAgent a (maskBytes m (s.load a 128) (k.payload.drop 16))
  let s := s.countMem a 128 true
  let sw := if maskSector m then count 64 s.hbm.sectorWrites 1 else s.hbm.sectorWrites
  let s := { s with hbm := { s.hbm with sectorWrites := sw } }
  let s := s.modFab (fun b => { b with lineLast := nset 0 b.lineLast (a / 128) (s.now + 1) })
  s.answerKept k kACK 0 []

/-- Answer an LREAD with its line (R289). -/
def State.readLine (s : State) (k : Packet) : State :=
  let a := bits 40 0 k.arg
  (s.countMem a 128 false).answerKept k kLRESP 0 (s.load a 128)

/-- The line of a packet at the home. -/
def lineOf (k : Packet) : Nat := bits 40 7 k.arg

/-- Must an operation wait in the line queue (R292, R296)? -/
def State.lineBusy (s : State) (k : Packet) : Bool :=
  s.fab.lineQ.any (fun o => lineOf o.pkt == lineOf k && (k.kind == kLWRITE || (o.pkt.srcRank == k.srcRank && o.pkt.srcCore == k.srcCore)))
  || (k.kind == kLWRITE && (match nget 0 s.fab.lineLast (lineOf k) with
    | 0 => false
    | t => decide (s.now < t - 1 + 1024)))

/-- Queue an operation behind its line; an LWRITE that waits is counted and recorded once per step (R296). -/
def State.lineWait (s : State) (k : Packet) : State :=
  let s := s.modFab (fun b => { b with lineQ := b.lineQ ++ [⟨k⟩] })
  if k.kind ≠ kLWRITE then s else
  let s := { s with canopy := { s.canopy with hotWrites := count 64 s.canopy.hotWrites 1, hotLast := k.arg } }
  if s.fab.hotStep then s
  else (s.event 0x0402 (srcGateway (k.sgd % 2)) (bits 49 2 k.arg)).modFab (fun b => { b with hotStep := true })

/-- A canopy operation at the home; `bad` is a parity error there (Table 12.2). -/
def State.atHome (s : State) (k : Packet) (bad : Bool) : State :=
  let a := bits 40 0 k.arg
  let s := s.modFab (fun b => { b with unanswered := b.unanswered ++ [k] })
  if !s.homeOk a (k.kind == kLWRITE) then s.refuseCanopy k
  else if bad then s.parityStep (srcGateway (k.sgd % 2)) noCore
  else if s.lineBusy k then s.lineWait k
  else if k.kind = kLWRITE then s.applyLine k else s.readLine k

/-! ## Bivouac lines (R381, R386) -/

/-- An LWRITE to DST_CORE 0x3FF: a drained line or record from the ward, or a restored one from the holder. -/
def State.bivouac (s : State) (k : Packet) : State :=
  let a := bits 40 0 k.arg
  let line := maskBytes (fieldAt k.payload 0 16) (s.load a 128) (k.payload.drop 16)
  let isRec := a == recordAddr 0 || a == recordAddr 1
  if s.ckpt.restoring && k.srcRank == s.dnat 0xA010 3 && (isRec || (s.slotOf a).isSome) then
    if isRec then (s.answerKept k kACK 0 []).closeRestore line k.srcRank
    else match s.slotOf a with
      | some (_, id, off) =>
        let s := (s.storeAgent (s.copyBase id 0 + off) line).storeAgent (s.copyBase id 1 + off) line
        s.answerKept k kACK 0 []
      | none => s
  else if k.srcRank == s.dnat 0xA010 4 && isRec then (s.storeAgent a line).answerKept k kACK 0 []
  else match (if k.srcRank == s.dnat 0xA010 4 then s.slotOf a else none) with
    | some (x, _, _) =>
      let s := s.storeAgent (recordAddr x) (zeros 128)
      (s.storeAgent a line).answerKept k kACK 0 []
    | none =>
      let s := { s with ckpt := { s.ckpt with foreign := count 32 s.ckpt.foreign 1 } }
      (s.event 0x0808 srcPackage k.srcRank).answerKept k kACK 0 []

/-! ## Sequence spaces (R282, R316) -/

/-- Pass a packet on to its destination. -/
def State.passOn (s : State) (k : Packet) (bad : Bool) : State :=
  if k.kind = kLREAD ∨ k.kind = kLWRITE then
    if k.dstCore = 0x3FF ∧ k.kind = kLWRITE then s.bivouac k else s.atHome k bad
  else s.toCore k

/-- Hold a packet in the reorder buffer of its gateway die: 1,024 places; it is held once (R282, R294, R316). -/
def State.holdBack (s : State) (k : Packet) : State :=
  let g := k.sgd % 2
  if s.fab.reorder.any (fun e => e.1 == g && rxKey e.2 == rxKey k && e.2.seq == k.seq) then s
  else if 1024 ≤ (s.fab.reorder.filter (fun e => e.1 == g)).length then s
  else s.modFab (fun b => { b with reorder := b.reorder ++ [(g, k)] })

/-- The held packet that a space expects next, where its step has come. -/
def State.nextHeld (s : State) (key : Nat) : Option Packet :=
  let n := (nget {} s.fab.rxSpace key).next
  (s.fab.reorder.find? (fun e => rxKey e.2 == key && e.2.seq == n
    && s.checkPacket e.2 == .here)).map Prod.snd

/-- Pass on the held packets that follow in a space. -/
def State.drainSpace (key : Nat) : Nat → State → State
  | 0, s => s
  | fuel + 1, s => match s.nextHeld key with
    | none => s
    | some k =>
      let s := s.modFab (fun b =>
        { b with reorder := b.reorder.filter (fun e => !(rxKey e.2 == key && e.2.seq == k.seq))
                 rxSpace := nmod {} b.rxSpace key (fun r => { r with next := (r.next + 1) % 2 ^ 32 }) })
      State.drainSpace key fuel (s.passOn k false)

/-- A TC0 or TC1 packet reaches the gateway of its destination (R282, R316, R366). -/
def State.accept (s : State) (k : Packet) (bad : Bool) : State :=
  match s.checkPacket k with
  | .next => s.holdBack k
  | .here =>
    let key := rxKey k
    let r := nget {} s.fab.rxSpace key
    let d := (k.seq + 2 ^ 32 - r.next % 2 ^ 32) % 2 ^ 32
    if d = 0 then
      let s := s.modFab (fun b => { b with rxSpace := nmod {} b.rxSpace key (fun r => { r with next := (r.next + 1) % 2 ^ 32 }) })
      let s := s.passOn k bad
      s.drainSpace key s.fab.reorder.length
    else if 2 ^ 31 ≤ d then
      if r.early.contains k.seq then s.passOn k bad else s.answerAgain k
    else s.holdBack k
  | e => s.countDiscard e

/-- Take a packet out of the local input where it waits there; which port brought it (24 none). -/
def State.takeLocal (s : State) (k : Packet) : State × Nat :=
  match s.fab.localIn.findIdx? (fun e => e.pkt == k) with
  | some i => (s.modFab (fun b => { b with localIn := b.localIn.eraseIdx i }), (s.fab.localIn.map RxPkt.port).getD i 24)
  | none => (s, 24)

/-- Is a packet a duplicate that is discarded (R282)? -/
def State.isDuplicate (s : State) (k : Packet) : Bool :=
  let r := nget {} s.fab.rxSpace (rxKey k)
  s.checkPacket k == .here
    && decide (2 ^ 31 ≤ (k.seq + 2 ^ 32 - r.next % 2 ^ 32) % 2 ^ 32) && !r.early.contains k.seq

/-- Deliver a TC0 or TC1 packet that came in on a port (Table 11.14 counts its duplicates). -/
def State.deliver (s : State) (k : Packet) (bad : Bool) : State :=
  let x := s.takeLocal k
  let dup := x.1.isDuplicate k
  let s := if dup && decide (x.2 < 24) then x.1.modPort x.2 (fun p =>
      { p with stats := { p.stats with duplicates := count 64 p.stats.duplicates 1 } }) else x.1
  s.accept k bad

end Sys2Proof.Machine
end

