-- ==== Sys2Proof/Machine/DictRead.lean ====
section
/-!
DEFINITION. What every dictionary entry reads (chapter 21 and the tables that Table 21.2 names), snapshots (R448) and
the NOTIFYs that follow a change (R417, R437).
-/
namespace Sys2Proof.Machine

open Sys2Proof

/-! ## Values computed from the state -/

/-- The UTF-8 bytes of an ASCII string. -/
def asciiBytes (t : String) : List Byte := t.toList.map (fun c => BitVec.ofNat 8 c.toNat)

/-- The image stored in a firmware slot; empty where the slot is empty (R459). -/
def State.slotImage (s : State) (n : Nat) : List Byte :=
  match if n = 0 then s.mram.slot0 else s.mram.slot1 with
  | .manufactured => Config.firmware n
  | .stored img => img

/-- The digest of a slot (R459); zeros for an empty slot (Table 21.10). -/
def State.slotDigest (s : State) (n : Nat) : List Byte :=
  if s.slotImage n = [] then zeros 64 else shake512 (s.slotImage n)

/-- A u32 or u16 field of an image's header (Table 22.3). -/
def imgField (img : List Byte) (off len : Nat) : Nat := fieldAt img off len

/-- The seed of the identity key (R464). -/
def State.idSeed (s : State) : List Byte :=
  shake256 (leBytes 32 Config.uds.toNat ++ asciiBytes "DRUELLE-ID-1" ++ s.sec.ownerKey) 96

/-- The seed of the attestation key (R464). -/
def State.akSeed (s : State) : List Byte :=
  shake256 (leBytes 32 Config.uds.toNat ++ asciiBytes "DRUELLE-AK-1" ++ s.sec.ownerKey
    ++ s.slotDigest (s.sec.activeSlot.getD 0)) 96

/-- Was the UDS lock set when the running start-up derived its keys (R464, R470)? -/
def State.keysLocked (s : State) : Bool := s.mram.udsLocked && !s.sec.transitionDone

/-- `Attestation.DevicePublicKey` (R464). -/
def State.deviceKey (s : State) : List Byte :=
  if s.keysLocked then zeros 64
  else if s.sec.activeSlot.isNone then leBytes 64 (Config.noFirmware (dictKey 0x1020 1)).toNat
  else leBytes 64 (Config.slhPublic 0 s.idSeed).toNat

/-- The contents of a command-store bank (Table 3.9). -/
def Bank.bytes (b : Bank) : List Byte :=
  if b.st = .empty then []
  else if !b.cmds.isEmpty then Config.native b.cmds b.descs else readBytes b.raw 0 b.len

/-- Bits as a byte string of `len` bytes. -/
def maskBits (len : Nat) (l : List Nat) : List Byte :=
  leBytes len ((List.range (8 * len)).foldl (fun a i => if l.contains i then a + 2 ^ i else a) 0)

/-- Milliseconds that remain of a lease (R425). -/
def State.leaseLeft (s : State) (l : AreaLock) : Nat := (l.renewed + 5000000000 - s.ns) / 1000000

/-- `HostPorts.Locks` (Table 19.8). -/
def State.locksValue (s : State) : List Byte :=
  (List.range 21).flatMap (fun a =>
    let code := areaCode a
    match s.dict.locks.find? (fun l => l.area == code) with
    | some l => leBytes 1 code ++ leBytes 1 l.owner.code ++ zeros 2 ++ leBytes 4 (s.leaseLeft l)
    | none => leBytes 1 code ++ zeros 7)

/-- `HostPorts.RegionMap` (Table 19.8). -/
def State.regionMap (s : State) : List Byte :=
  (sortRegions ((s.job.placed.map Placed.r).filter (fun r => r.kind == .output || r.kind == .input))).flatMap (fun r =>
    leBytes 1 r.id ++ leBytes 1 r.kind.code ++ zeros 6 ++ leBytes 8 (s.copyBase r.id 0) ++ leBytes 8 r.size)

/-- An entry of a digest table (Table 8.11). -/
def digestTable (t : List (Nat × List Byte)) : List Byte := t.flatMap (fun e => leBytes 4 e.1 ++ zeros 4 ++ e.2)

/-- The native image digest (R173). -/
def nativeDigest (im : Image) : List Byte :=
  shake512 (im.sections.flatMap (fun x =>
    if x.ty = 5 then (match im.roles.find? (fun r => r.cmdOff - roleCmdOff r.pace.length == x.off) with
      | some r => Config.native r.cmds r.descs
      | none => [])
    else if x.ty = 8 ∨ x.ty = 9 ∨ x.ty = 10 then Config.nativeSection x.ty x.bytes else []))

/-- `Errors.FirstError` (Table 16.10). -/
def FirstError.bytes (e : FirstError) : List Byte :=
  leBytes 2 e.code ++ leBytes 2 e.rank ++ leBytes 2 e.core ++ leBytes 1 e.level ++ leBytes 1 e.attempt
  ++ leBytes 8 e.step ++ leBytes 8 e.ns

/-- A header sample (R285). -/
def Sample.bytes (x : Sample) : List Byte :=
  leBytes 32 x.header ++ leBytes 8 (x.time / 256) ++ leBytes 1 (x.time % 256) ++ leBytes 1 x.dir ++ zeros 2
  ++ leBytes 4 x.num ++ zeros 16

/-- A counter of cycles or waits, whose timing is not modelled. -/
def State.cycleCount (s : State) (idx sub : Nat) : List Byte :=
  leBytes 8 (Config.cycleCounter (dictKey idx sub) s.now).toNat

/-- One holding: step, RANKS and 8 bytes of image digest of a valid record (Table 17.5). -/
def holdingBytes (r : List Byte) (ward : Nat) : List Byte :=
  if recordValid r ward then leBytes 8 (fieldAt r 8 8) ++ leBytes 2 (fieldAt r 25 2) ++ zeros 6 ++ slice r 96 8
  else leBytes 8 (2 ^ 64 - 1) ++ zeros 16

/-- `Checkpoint.Holdings` (Table 17.5). -/
def State.holdings (s : State) : List Byte :=
  let w := s.dnat 0xA010 4
  leBytes 2 w ++ zeros 6 ++ holdingBytes (s.bivouacRecord 0) w ++ holdingBytes (s.bivouacRecord 1) w
  ++ holdingBytes (s.stageRecord 0) s.myRank ++ holdingBytes (s.stageRecord 1) s.myRank

/-- Flits queued per class at a port (Table 11.14). -/
def Port.depths (p : Port) : List Byte := (List.range 4).flatMap (fun c => leBytes 4 (p.queued c))

/-- A list of u64, u32 or u16 values. -/
def packLe (w : Nat) (l : List Nat) : List Byte := l.flatMap (leBytes w)

/-- `PortMap` as bytes (R275). -/
def State.portMapBytes (s : State) : List Byte := packLe 4 s.fab.portMap

/-- A peg table as bytes (R277). -/
def Tables.pegBytes (t : Tables) : List Byte := packLe 2 ((List.range 512).map (fun r => nget 0xFFFF t.peg r))

/-- A route table as bytes (R277). -/
def Tables.routeBytes (t : Tables) : List Byte := packLe 8 ((List.range 512).map (fun r => nget 0 t.route r))

/-- The operating points (Table 18.3): MHz and mV. -/
def opTable : List (Nat × Nat) :=
  [(3300, 850), (3000, 815), (2700, 780), (2400, 745), (2000, 710), (1600, 675), (1200, 640), (800, 600)]

/-- A slot of the recorder's ring, as its number (Table 23.1). -/
def State.ringSlot (s : State) (i : Nat) : Nat := nget 0 s.mram.ring i

/-! ## Per-unit entries -/

/-- Tables 3.9, 4.7 and 5.10. -/
def State.readCore (s : State) (idx sub : Nat) : List Byte :=
  let c := idx % 256
  let k := s.core c
  let st := k.stats
  match idx / 256, sub with
  | 0x51, 1 => leBytes 2 k.roleEpoch.toNat
  | 0x51, 2 => leBytes 1 (k.bank0.st.code + 16 * k.bank1.st.code)
  | 0x51, 3 => leBytes 1 (if k.pgang < 255 then k.pgang else k.gang)
  | 0x51, 4 => leBytes 8 (st.starve.getD 0 0)
  | 0x51, 5 => leBytes 8 (st.starve.getD 1 0)
  | 0x51, 6 => leBytes 8 (st.starve.getD 2 0)
  | 0x51, 7 => leBytes 8 (st.starve.getD 3 0)
  | 0x51, 8 => leBytes 8 st.fullStall
  | 0x51, 9 => leBytes 8 st.waitStall
  | 0x51, 11 => leBytes 4 st.stale
  | 0x51, 12 => leBytes 4 st.early
  | 0x51, 13 => leBytes 4 st.scratchParity
  | 0x51, 14 => k.bank0.bytes
  | 0x51, 15 => k.bank1.bytes
  | 0x52, 5 => leBytes 4 st.latchParity
  | 0x52, 6 => leBytes 4 st.accParity
  | 0x53, 3 => leBytes 8 st.draws
  | 0x53, 4 => leBytes 4 st.maintPasses
  | 0x53, 5 => leBytes 4 st.stageParity
  | _, _ => s.cycleCount idx sub

/-- Tables 9.6 and 9.7. -/
def State.readStacks (s : State) (idx sub : Nat) : Option (List Byte) :=
  let k := s.hbm
  let n := (goodChannels k.out).length
  let nd (d : Nat) : Nat := (dieChannels k.out d).length
  if idx = 0x3010 then
    match sub with
    | 1 => some (leBytes 2 n)
    | 2 => some (maskBits 128 k.out)
    | 3 => some (packLe 1 ((List.range 8).map nd))
    | 4 => some (leBytes 8 (globalExposure n))
    | 5 => some (packLe 8 ((List.range 8).map (fun d => localExposure (nd d))))
    | 7 => some (packLe 1 ((List.range 528).map (fun i => nget 0 k.slabs i)))
    | 8 => some (leBytes 4 k.wipeUs)
    | 10 => some (maskBits 128 k.retrain)
    | 11 => some (leBytes 8 k.sectorReads)
    | 12 => some (leBytes 8 k.sectorWrites)
    | _ => none
  else
    let t := idx - 0x3100
    let st := nget {} k.stats t
    let rs := k.repairs.filter (fun r => r.channel / 32 == t)
    match sub with
    | 1 => some (rs.flatMap (fun r => packLe 1 [r.channel % 32, r.pseudo, r.lane, r.spare]))
    | 2 => some (leBytes 2 rs.length)
    | 3 => some (maskBits 4 ((k.out.filter (fun c => c / 32 == t)).map (fun c => c % 32)))
    | 4 => some (leBytes 8 st.parity)
    | 5 => some (leBytes 8 st.ecc)
    | 6 => some (leBytes 8 st.readBytes)
    | 7 => some (leBytes 8 st.writeBytes)
    | 8 => some (leBytes 1 (if decide (0x550 < sext 16 (s.power.stackTemp.getD t 0)) then 1 else 0))
    | _ => none

/-- Table 11.14. -/
def State.readPort (s : State) (idx sub : Nat) : Option (List Byte) :=
  let q := s.fport (idx - 0x4300)
  let st := q.stats
  match sub with
  | 2 => some (leBytes 1 q.st.code)
  | 3 => some (leBytes 4 q.farId)
  | 4 => some (leBytes 4 q.roundTrip)
  | 5 => some (packLe 8 [st.flitsTx, st.flitsRx])
  | 6 => some (packLe 8 [st.bytesTx, st.bytesRx])
  | 7 => some (leBytes 8 st.retries)
  | 8 => some (leBytes 8 st.fecCorrected)
  | 9 => some (leBytes 8 st.fecUncorrected)
  | 10 => some (leBytes 8 st.crcErrors)
  | 11 => some (leBytes 4 st.malformed)
  | 12 => some ((List.range 4).flatMap (fun c => s.cycleCount idx (16 * c + 12)))
  | 13 => some q.depths
  | 14 => some (packLe 4 st.highWater)
  | 15 => some (q.samples.flatMap Sample.bytes)
  | 16 => some (leBytes 4 st.downEvents)
  | 17 => some (leBytes 8 st.duplicates)
  | _ => none

/-- Tables 11.11 to 11.13 and 12.5. -/
def State.readFabric (s : State) (idx sub : Nat) : Option (List Byte) :=
  let b := s.fab
  match idx, sub with
  | 0x4010, 1 => some (leBytes 1 b.tabSt.code)
  | 0x4010, 3 => some (leBytes 4 b.generation)
  | 0x4100, 1 => some (leBytes 2 b.tabs.own)
  | 0x4100, 2 => some s.portMapBytes
  | 0x4400, 1 => some b.tabs.pegBytes
  | 0x4500, 1 => some b.tabs.routeBytes
  | 0x4210, 1 => some (maskBits 4 ((List.range 24).filter (fun p => (s.fport p).st == .up)))
  | 0x4210, 7 => some ((List.range 2).flatMap (fun g =>
      let t := b.trackStats.getD g {}
      leBytes 2 (s.tracked g).length ++ leBytes 2 t.high ++ leBytes 4 t.waits ++ leBytes 8 t.reissues))
  | 0x4810, 2 => some (leBytes 8 s.canopy.hotWrites)
  | 0x4810, 3 => some (leBytes 8 s.canopy.hotLast)
  | 0x4810, 4 => some (leBytes 4 s.canopy.refusals)
  | 0x4810, 5 => some (leBytes 2 s.canopy.deadTarget)
  | 0x4810, 6 => some (leBytes 4 s.canopy.timeouts)
  | 0x4810, 7 => some (leBytes 8 s.canopy.keepalives)
  | _, _ => none

/-- Tables 7.12, 7.13, 8.11, 8.12 and 10.9. -/
def State.readUnits (s : State) (idx sub : Nat) : Option (List Byte) :=
  if idx = 0x6010 then
    match sub with
    | 6 => some (leBytes 4 s.canopy.l3Sd0)
    | 7 => some (leBytes 4 s.canopy.l3Sd1)
    | _ => none
  else if 0x6100 ≤ idx ∧ idx < 0x6180 then
    let h := s.hart (idx - 0x6100)
    match sub with
    | 1 => some (leBytes 1 h.st.code)
    | 2 => some (s.cycleCount idx sub)
    | 3 => some (leBytes 8 h.stats.instret)
    | 4 => some (leBytes 4 h.stats.stale)
    | 5 => some (leBytes 4 h.stats.dropped)
    | 6 => some (leBytes 4 h.stats.parity)
    | 7 => some (leBytes 8 h.stats.trapCause)
    | 8 => some (leBytes 8 h.stats.trapPc)
    | 9 => some (leBytes 8 h.stats.trapValue)
    | _ => none
  else if 0x7100 ≤ idx ∧ idx < 0x7120 then
    let n := s.station (idx - 0x7100)
    match sub with
    | 1 => some (leBytes 8 n.retired)
    | 2 => some (leBytes 2 n.ringHigh)
    | 3 => some (leBytes 1 n.ctxHigh)
    | 4 => some (s.cycleCount idx sub)
    | 5 => some (leBytes 4 n.early)
    | 6 => some (leBytes 4 n.stale)
    | 7 => some (leBytes 4 n.parity)
    | 8 => some (s.cycleCount idx sub)
    | _ => none
  else if 0x5900 ≤ idx ∧ idx < 0x5908 then
    let e := s.link (idx - 0x5900)
    match sub with
    | 1 => some (leBytes 8 e.solved)
    | 2 => some (leBytes 8 e.converged)
    | 3 => some (leBytes 8 e.capped)
    | 4 => some (leBytes 8 e.saturated)
    | 5 => some (leBytes 8 e.clamps)
    | 6 => some (leBytes 4 e.warmRejected)
    | 7 => some (leBytes 2 e.high)
    | 8 => some (s.cycleCount idx sub)
    | 9 => some (leBytes 4 e.parity)
    | _ => none
  else
    match idx, sub with
    | 0x7030, 3 => some (digestTable s.outputs.sealedTab)
    | 0x7030, 4 => some (digestTable s.outputs.inputTab)
    | 0x7030, 5 => some s.outputs.lastProv
    | _, _ => none

/-- Tables 13.8 to 13.10 and 14.6. -/
def State.readTime (s : State) (idx sub : Nat) : Option (List Byte) :=
  let r := s.rp
  let g := s.guy
  match idx, sub with
  | 0x8010, 1 => some (leBytes 8 s.ns)
  | 0x8010, 2 => some (leBytes 2 (r.parent.getD 0xFFFF))
  | 0x8010, 3 => some (leBytes 8 (wrap 64 r.offset))
  | 0x8010, 4 => some (leBytes 8 (wrap 64 r.delay))
  | 0x8010, 6 => some (leBytes 1 r.st.code)
  | 0x8010, 7 => some (leBytes 4 r.drifts)
  | 0x8020, 1 => some (leBytes 8 (match g.held with
      | some h => h.t
      | none => 0))
  | 0x8020, 2 => some (leBytes 4 g.margin)
  | 0x8020, 5 => some (leBytes 8 g.lastRelease)
  | 0x8020, 7 => some (leBytes 8 g.lastArrival)
  | 0x8020, 8 => some (leBytes 4 g.late)
  | 0x8020, 9 => some (leBytes 4 g.discards)
  | 0x8030, 1 => some (leBytes 2 (match s.job.image with
      | some im => (ttSends im s.job.rank).length
      | none => 0))
  | 0x8030, 4 => some (leBytes 8 s.tt.lateCount)
  | 0x8030, 5 => some s.tt.lastLate
  | 0x8810, 2 => some (leBytes 8 s.coll.retired)
  | 0x8810, 3 => some (packLe 8 s.coll.unitBytes)
  | 0x8810, 4 => some ((List.range 16).flatMap (fun u => s.cycleCount idx (16 * u + 4)))
  | 0x8810, 5 => some (leBytes 4 s.coll.parity)
  | _, _ => none

/-- Tables 1.9, 6.21, 15.8, 16.10 and 17.5. -/
def State.readJob (s : State) (idx sub : Nat) : Option (List Byte) :=
  let e := s.err
  match idx, sub with
  | 0x9010, 1 => some (leBytes 2 (if s.job.held then s.job.id else 0))
  | 0x9010, 2 => some (leBytes 8 (if s.job.steps = 0 then 0 else s.job.step))
  | 0x9010, 3 => some (leBytes 8 s.job.committed)
  | 0x9010, 4 => some (leBytes 1 s.job.attempt)
  | 0x9020, 1 => some (match s.job.image with
      | some im => im.digest
      | none => [])
  | 0x9020, 2 => some (match s.job.image with
      | some im => nativeDigest im
      | none => [])
  | 0x9020, 3 => some (leBytes 2 (match s.reject with
      | some r => r.code
      | none => 0))
  | 0x9020, 4 => some (leBytes 2 (match s.reject with
      | some r => r.sect
      | none => 0xFFFF))
  | 0x9020, 5 => some (leBytes 8 (match s.reject with
      | some r => r.off
      | none => 0))
  | 0x9020, 6 => some (leBytes 4 (match s.reject with
      | some r => r.entry
      | none => 0))
  | 0x9020, 7 => some (asciiBytes "A1")
  | 0x9030, 4 => some (leBytes 1 s.pitch.st.code)
  | 0x9030, 5 => some (leBytes 1 s.pitch.reason ++ leBytes 1 s.pitch.strikeReason ++ leBytes 2 s.pitch.resultRank
      ++ leBytes 2 s.pitch.resultJob ++ zeros 2)
  | 0x9810, 2 => some (leBytes 1 e.st)
  | 0x9810, 3 => some (match e.first with
      | some f => f.bytes
      | none => zeros 24)
  | 0x9810, 4 => some (leBytes 8 e.unitRetries)
  | 0x9810, 5 => some (leBytes 4 e.replays)
  | 0x9810, 6 => some (leBytes 4 e.escalations)
  | 0x9810, 7 => some (leBytes 8 e.stale)
  | 0x9810, 8 => some (leBytes 8 e.newer)
  | 0x9810, 9 => some (leBytes 1 (if e.inputChanged then 1 else 0))
  | 0xA010, 6 => some (leBytes 8 s.ckpt.flyStep)
  | 0xA010, 7 => some (leBytes 1 (if s.ckpt.drain.isSome then 1 else 0))
  | 0xA010, 8 => some (leBytes 8 s.ckpt.drainedStep)
  | 0xA010, 9 => some s.holdings
  | 0xA010, 11 => some s.ckpt.surveyResult
  | 0xA010, 12 => some (leBytes 4 s.ckpt.restarts)
  | 0xA010, 13 => some (leBytes 4 s.ckpt.foreign)
  | _, _ => none

/-- `Attestation.ConfigDigest` of a list of configuration entries (R465). -/
def configDigest (entries : List (Nat × Nat × DictEntry × List Byte)) : List Byte :=
  shake512 (entries.flatMap (fun e =>
    leBytes 2 e.1 ++ leBytes 1 e.2.1 ++ leBytes 1 e.2.2.1.ty.code ++ leBytes 4 e.2.2.2.length ++ e.2.2.2))

/-- Tables 18.10 to 18.12, 19.8, 19.9, 20.6, 21.5 to 21.11 and 9.8. -/
def State.readPackage (s : State) (idx sub : Nat) : Option (List Byte) :=
  let p := s.power
  let m := s.mram
  match idx, sub with
  | 0x1000, 1 => some (asciiBytes "Keamer")
  | 0x1000, 2 => some (asciiBytes "Druelle SN20")
  | 0x1000, 3 => some (asciiBytes "KMR-SN20-A1")
  | 0x1000, 5 => some (leBytes 8 Config.serial.toNat)
  | 0x1000, 6 => some (leBytes 4 (match s.sec.activeSlot with
      | some n => imgField (s.slotImage n) 8 4
      | none => (Config.noFirmware (dictKey 0x1000 6)).toNat))
  | 0x1000, 7 => some (leBytes 4 Config.romVersion.toNat)
  | 0x1020, 1 => some s.deviceKey
  | 0x1020, 3 => some (leBytes 1 s.sec.attState)
  | 0x1020, 4 => some s.sec.quote
  | 0x1110, 2 => some (leBytes 6 Config.mac.toNat)
  | 0x1110, 3 => some (leBytes 1 s.start.nodeid)
  | 0x1110, 6 => some (leBytes 2 (s.dict.subs.filter (fun x => x.path != .mgmt)).length
      ++ leBytes 2 (s.dict.subs.filter (fun x => x.path == .mgmt)).length)
  | 0x1110, 7 => some (leBytes 4 s.dict.drops)
  | 0x2020, 4 => some (leBytes 1 p.counter.st)
  | 0x2020, 5 => some (leBytes 8 p.counter.result)
  | 0x2110, 1 => some (leBytes 1 s.effectivePoint)
  | 0x2110, 4 => some (leBytes 1 p.thermalCap)
  | 0x2110, 5 => some (leBytes 4 p.throttles)
  | 0x2110, 6 => some (leBytes 1 p.powerCap)
  | 0x2110, 7 => some (opTable.flatMap (fun e => leBytes 2 e.1 ++ leBytes 2 e.2))
  | 0x2110, 8 => some (leBytes 8 (min (2 ^ 64 - 1) (p.cappedTime + (match p.cappedSince with
      | some t => s.ns - t
      | none => 0))))
  | 0x2120, 2 => some ([230, 260, 45, 40, 130].flatMap (leBytes 2))
  | 0x2120, 4 => some (leBytes 2 p.measured)
  | 0x2120, 5 => some (leBytes 4 p.capEvents)
  | 0x2120, 6 => some (leBytes 2 p.peak)
  | 0x2210, 2 => some (leBytes 1 s.start.cause.code)
  | 0x2210, 3 => some (leBytes 4 s.start.startupUs)
  | 0x2210, 4 => some (leBytes 1 (if s.start.phase = .ready then 1 else if s.start.phase = .fault then 2 else 0))
  | 0x2210, 5 => some (leBytes 1 s.start.faultStep)
  | 0x2210, 6 => some (leBytes 4 s.start.resets)
  | 0x2210, 7 => some (leBytes 1 s.start.clkset)
  | 0xB010, 1 => some (leBytes 4 m.powerCycles)
  | 0xB010, 2 => some (leBytes 8 (s.recorder.opsec % 2 ^ 40))
  | 0xB010, 3 => some (leBytes 4 (m.written % 131072))
  | 0xB010, 4 => some (leBytes 8 m.written)
  | 0xB010, 8 => some (leBytes 8 s.recorder.suppressed)
  | 0xB010, 9 => some ((List.range 131072).flatMap (fun i => leBytes 32 (s.ringSlot i)))
  | 0xC010, 1 => some (leBytes 1 s.sec.life.code)
  | 0xC010, 3 => some s.sec.ownerKey
  | 0xC010, 4 => some (leBytes 4 m.transitions)
  | 0xC010, 5 => some (leBytes 8 m.signedSeq)
  | 0xC020, 1 => some (leBytes 1 (match s.sec.activeSlot with
      | some n => n
      | none => (Config.noFirmware (dictKey 0xC020 1)).toNat))
  | 0xC020, 2 => some (s.slotDigest 0 ++ s.slotDigest 1)
  | 0xC020, 3 => some (leBytes 4 (imgField (s.slotImage 0) 8 4) ++ leBytes 4 (imgField (s.slotImage 1) 8 4))
  | 0xC020, 4 => some (leBytes 1 m.bootSlot)
  | 0xC020, 6 => some (leBytes 4 m.fallBacks)
  | 0x1110, 5 => some (leBytes 8 m.pathMask)
  | 0xD010, 1 => some (packLe 2 p.dieTemp)
  | 0xD010, 2 => some (packLe 2 p.stackTemp)
  | 0xD010, 3 => some (packLe 2 p.diePeak)
  | 0xD010, 4 => some (packLe 2 p.stackPeak)
  | 0xD010, 5 => some (leBytes 4 p.sensorFaults)
  | 0xE010, 1 => some s.locksValue
  | 0xE010, 5 => some s.regionMap
  | _, _ => none

/-- Tables 19.9 and 9.8. -/
def State.readHostPort (s : State) (idx sub : Nat) : Option (List Byte) :=
  if 0xE200 ≤ idx then
    let f := s.far (idx - 0xE200)
    match sub with
    | 1 => some (leBytes 1 f.link)
    | 2 => some (leBytes 1 f.rate)
    | 3 => some (leBytes 8 f.device)
    | 6 => some (leBytes 4 f.poison)
    | _ => none
  else
    let h := s.hp (idx - 0xE100)
    match sub with
    | 1 => some (leBytes 1 h.link.code)
    | 2 => some (leBytes 1 h.rate)
    | 3 => some (leBytes 1 h.width)
    | 6 => some (leBytes 4 h.discarded)
    | 7 => some (leBytes 4 h.lostTransfers)
    | 8 => some (leBytes 4 h.notifyDrops)
    | 9 => some (leBytes 4 h.perstCount)
    | _ => none

/-- An entry as the state gives it now, `ConfigDigest` apart; what no rule computes is a setting. -/
def State.readPlain (s : State) (idx sub : Nat) : List Byte :=
  let r :=
    if sub = 0 then none
    else if 0x3000 ≤ idx ∧ idx < 0x4000 then s.readStacks idx sub
    else if 0x4300 ≤ idx ∧ idx < 0x4318 then s.readPort idx sub
    else if 0x4000 ≤ idx ∧ idx < 0x5000 then s.readFabric idx sub
    else if 0x5100 ≤ idx ∧ idx < 0x5400 then some (s.readCore idx sub)
    else if 0x5800 ≤ idx ∧ idx < 0x8000 then s.readUnits idx sub
    else if 0x8000 ≤ idx ∧ idx < 0x9000 then s.readTime idx sub
    else if 0x9000 ≤ idx ∧ idx < 0xB000 then s.readJob idx sub
    else if 0xE100 ≤ idx ∧ idx < 0xE300 then s.readHostPort idx sub
    else s.readPackage idx sub
  r.getD (s.dval idx sub)

/-- Every RW entry in ascending index and subindex (R465). -/
def rwEntries : List (Nat × Nat × DictEntry) :=
  dictTable.flatMap (fun d => (List.range d.count).flatMap (fun i =>
    ((List.range d.entries.length).zip d.entries).filterMap (fun e =>
      if e.2.acc = .rw then some (d.base + i, e.1 + 1, e.2) else none)))

/-- The value that an entry has now. -/
def State.currentValue (s : State) (idx sub : Nat) : List Byte :=
  if idx = 0x1020 ∧ sub = 5 then
    configDigest (rwEntries.map (fun e => (e.1, e.2.1, e.2.2, s.readPlain e.1 e.2.1)))
  else s.readPlain idx sub

/-- The active value that a READ returns: a snapshot while a job is held, where the entry takes one (R448). -/
def State.dictRead (s : State) (idx sub : Nat) : List Byte :=
  match dictEntry idx sub with
  | none => []
  | some e =>
    if e.snap ≠ .no ∧ s.jobHeld then
      match nget [] s.dict.snap (dictKey idx sub) with
      | [] => e.defaultBytes
      | b => b
    else s.currentValue idx sub

/-- The keys of the entries that take a snapshot under a rule, at the indexes of one unit or of the package. -/
def snapKeys (k : DictSnap) (unit : Nat) : List (Nat × Nat) :=
  dictTable.flatMap (fun d => (List.range d.count).flatMap (fun i =>
    ((List.range d.entries.length).zip d.entries).filterMap (fun e =>
      if e.2.snap = k ∧ (k = .pkg ∨ i = unit) then some (d.base + i, e.1 + 1) else none)))

/-- Capture the snapshots of a core, a hart or the package (R448). -/
def State.snapshot (s : State) (k : DictSnap) (unit : Nat) : State :=
  let put (m : NMap (List Byte)) (e : Nat × Nat) : NMap (List Byte) :=
    nset [] m (dictKey e.1 e.2) (s.currentValue e.1 e.2)
  { s with dict := { s.dict with snap := (snapKeys k unit).foldl put s.dict.snap } }

/-! ## NOTIFY (R417, R437) -/

/-- A message header (Table 20.1). -/
def msgHeader (opcode tag idx sub flags len off : Nat) : List Byte :=
  leBytes 1 1 ++ leBytes 1 opcode ++ leBytes 2 tag ++ leBytes 2 idx ++ leBytes 1 sub ++ leBytes 1 flags
  ++ leBytes 4 len ++ leBytes 4 off

/-- The tag of the next NOTIFY of a path, which counts the NOTIFYs sent on it, itself among them (R428, R437). -/
def State.nextTag (s : State) (p : DictPath) : Nat × State :=
  let t := (nget 0 s.dict.tags p.code + 1) % 65536
  (t, { s with dict := { s.dict with tags := nset 0 s.dict.tags p.code t } })

/-- The payload of a READ of an entry: the active value, then the pending one where there is one (R430). -/
def State.pendingOf (s : State) (idx sub : Nat) : Option (List Byte) :=
  if s.fab.tabSt = .drained ∧ ((idx = 0x4100 ∧ sub = 1) ∨ (idx = 0x4400 ∧ sub = 1) ∨ (idx = 0x4500 ∧ sub = 1)) then
    some (if idx = 0x4100 then leBytes 2 s.fab.shadow.own
          else if idx = 0x4400 then s.fab.shadow.pegBytes else s.fab.shadow.routeBytes)
  else if (s.dict.pend.any (fun e => e.1 == dictKey idx sub)) then some (nget [] s.dict.pend (dictKey idx sub))
  else none

/-- Send one NOTIFY: into the ring of a host port with vector 1, or as a frame. -/
def State.sendNotify (s : State) (x : Subscription) : State :=
  let idx := x.key / 256
  let sub := x.key % 256
  let pend := s.pendingOf idx sub
  let v := s.dictRead idx sub ++ pend.getD []
  let t := s.nextTag x.path
  let head := msgHeader 0x06 t.1 idx sub (if pend.isSome then 4 else 0) v.length 0
  match x.path with
  | .mgmt => t.2.put (.frame x.mac (head ++ v.take 1484))
  | hp =>
    let p := if hp = .hp0 then 0 else 1
    let h := s.hp p
    if 256 ≤ (h.prod - h.cons).toNat then
      if x.key = dictKey (0xE100 + p) 8 then t.2
      else t.2.modHp p (fun h => { h with notifyDrops := count 32 h.notifyDrops 1 })
    else
      let m := head ++ v.take 240
      (t.2.modHp p (fun h =>
        { h with ring := writeBytes h.ring (256 * (h.prod.toNat % 256)) (m ++ zeros (256 - m.length)), prod := h.prod + 1 })).msix p 1

/-- What counts as a change of an entry: its active value, and for `HostPorts.Locks` the owners alone, since its lease
times run by themselves. -/
def State.watched (s : State) (key : Nat) : List Byte :=
  if key = dictKey 0xE010 1 then s.dict.locks.flatMap (fun l => [BitVec.ofNat 8 l.area, BitVec.ofNat 8 l.owner.code])
  else s.dictRead (key / 256) (key % 256)

/-- NOTIFYs for the subscriptions in turn. -/
def notifyLoop (s0 : State) : List Subscription → State → State
  | [], s => s
  | x :: xs, s =>
    notifyLoop s0 xs (if s0.watched x.key = s.watched x.key then s else s.sendNotify x)

/-- After a command: a NOTIFY to each subscriber of an entry whose active value it changed (R437). -/
def notifyAll (s0 s : State) : State := notifyLoop s0 (s0.dict.subs.filter (fun x => s.dict.subs.contains x)) s

/-- How a meaning ends: the state it leaves, with the NOTIFYs that its changes call for; the queue of waiting commands is
as it was, since a meaning does not touch it. -/
def finish (s0 s : State) : Res := .next { notifyAll s0 s with pending := s0.pending }

end Sys2Proof.Machine
end

