-- ==== Sys2Proof/Machine/Startup.lean ====
section
/-!
DEFINITION. Power, start-up and package reset (18_clocks_reset_power.md R389 to R409, 22 R458 to R464, 24 R485 to
R494): the meanings of the start-up rows.
-/
namespace Sys2Proof.Machine

open Sys2Proof

/-- How a meaning ends that needs running clocks and a condition: without them nothing happens (R403). -/
def act (s : State) (ok : Bool) (t : State) : Res := if s.clocked && ok then finish s t else .next s

/-- A command that names a unit which the package does not have. -/
def only (ok : Bool) (r : Res) : Res := if ok then r else .fault .noSuchUnit

/-! ## Records (Table 23.1) -/

/-- The 256 bits of a record with a STATE and a SEQ. -/
def Occurrence.record (o : Occurrence) (state seq : Nat) : Nat :=
  seq % 2 ^ 30 + state * 2 ^ 30 + o.code % 2 ^ 16 * 2 ^ 32 + o.source % 2 ^ 16 * 2 ^ 48 + o.cycles % 2 ^ 32 * 2 ^ 64
  + o.opseconds % 2 ^ 40 * 2 ^ 96 + o.payload % 2 ^ 56 * 2 ^ 136 + o.ns % 2 ^ 64 * 2 ^ 192

/-- What a power loss leaves of the record being written: 0 not begun, 1 its first bytes, 2 all but the closing write
(R403, R476). -/
def Mram.torn (m : Mram) (q : List Occurrence) (mid : Nat) : Mram :=
  match q with
  | [] => m
  | o :: _ =>
    let slot := m.written % 131072
    let full := o.record 3 m.written
    if mid = 1 then { m with ring := nset 0 m.ring slot (nget 0 m.ring slot / 2 ^ 32 * 2 ^ 32 + full % 2 ^ 32) }
    else if mid = 2 then { m with ring := nset 0 m.ring slot full } else m

/-- Every bucket is full; the counts of the closing second stay (R478). -/
def Recorder.refilled (r : Recorder) : Recorder :=
  { r with buckets := nall {} (fun b => { b with taken := 0 }) r.buckets }

/-! ## Reset -/

/-- The settings that a package reset returns to their defaults (Table 21.3). -/
def resetSetting (key : Nat) : Bool :=
  let idx := key / 256
  idx == 0x2010 || (0x4010 ≤ idx && idx ≤ 0x4500) || [dictKey 0x9030 3, dictKey 0x9030 6, dictKey 0x9030 7,
    dictKey 0xA010 3, dictKey 0xA010 4, dictKey 0xA010 5].contains key

/-- Is an entry of change class RESET? -/
def resetClass (key : Nat) : Bool :=
  match dictEntry (key / 256) (key % 256) with
  | some e => e.cls == .reset
  | none => false

/-- Put a pending value in force (R434, R404); MRAM keeps `DictComm.PathMask` and `Firmware.BootSlot`. -/
def State.applyValue (s : State) (key : Nat) (v : List Byte) : State :=
  if key = dictKey 0x1110 5 then { s with mram := { s.mram with pathMask := leNat v } }
  else if key = dictKey 0xC020 4 then { s with mram := { s.mram with bootSlot := leNat v } }
  else s.setDval (key / 256) (key % 256) v

/-- Apply the pending values that `p` selects. -/
def State.applyPending (s : State) (p : Nat → Bool) : State :=
  let t := (s.dict.pend.filter (fun e => p e.1)).foldl (fun s e => s.applyValue e.1 e.2) s
  { t with dict := { t.dict with pend := t.dict.pend.filter (fun e => !p e.1) } }

/-- A port's link after a reset (R402, R407): it keeps its PERST pin and its count of PERSTs. -/
def HostPort.afterReset (h : HostPort) : HostPort := { inPerst := h.inPerst, perstCount := h.perstCount }

/-- Bytes of stacked memory (R230, R11). -/
def stackedBytes : Nat := 0x10800000000

/-- A package reset (R401, R402, R404, Table 21.3): MRAM, OTP, straps and Ridgepole stay, everything else returns to
its reset state; pending LIVE values are applied, pending RESET values wait for step 3. -/
def State.packageReset (s : State) (cause : ResetCause) : State :=
  let t := s.applyPending (fun k => !resetClass k)
  let vals := t.dict.vals.filter (fun e => !resetSetting e.1)
  let r : State := { State.reset with
    pending := s.pending
    free := s.free
    out := if s.start.rstreqLow then s.out ++ [Output.rstreq false] else s.out
    start := { s.start with phase := .romBoot, cause := cause, startedAt := s.ns, faultStep := 0
                            resets := count 32 s.start.resets 1, rstreqLow := false, resetDue := none }
    power := { freq := s.power.freq, volt := s.power.volt, rampTo := s.power.rampTo, dieTemp := s.power.dieTemp
               stackTemp := s.power.stackTemp, measured := s.power.measured }
    recorder := { s.recorder with suppressed := 0 }
    mram := t.mram
    dict := { vals := vals, pend := t.dict.pend }
    hp0 := s.hp0.afterReset
    hp1 := s.hp1.afterReset
    mem := s.mem
    hbm := { wipeUs := s.hbm.wipeUs }
    sec := { life := s.sec.life, ownerKey := s.sec.ownerKey, quoteBody := [], quote := [] }
    rp := { now := s.rp.now } }
  r.retarget

/-- Everything volatile is lost when power goes (R403, R404, R486, Table 21.3). -/
def State.powerLoss (s : State) (mid : Nat) : State :=
  { State.reset with
      pending := s.pending
      free := s.free
      out := if s.start.thermtripLow then s.out ++ [Output.thermtrip false] else s.out
      mram := s.mram.torn (if s.recording then s.recorder.queue else []) mid
      rp := { now := s.rp.now }
      mem := s.mem.filter (fun c => stackedBytes ≤ c.1)
      hp0 := { inPerst := s.hp0.inPerst }
      hp1 := { inPerst := s.hp1.inPerst } }

/-- PWRGOOD_RISE: straps latched, Ridgepole cleared, the edge count starts (R390, R301, R493). -/
def execPwrgoodRise (clkset nodeid : Nat) (s : State) : Res :=
  if s.start.phase = .off then
    finish s { s with start := { phase := .edgeCount, clkset := clkset % 8, nodeid := nodeid % 16 }
                      rp := {}, recorder := { opsec := s.mram.opSeconds } }
  else .next s

/-- PWRGOOD_FALL: a power loss; an MRAM write is left as far as it has come (R403, R486). -/
def execPwrgoodFall (mid : Nat) (s : State) : Res :=
  if s.start.phase = .off then .next s else finish s (s.powerLoss mid)

/-- REFCLK_LOSS: as if PWRGOOD had fallen (R494). -/
def execRefclkLoss (mid : Nat) (s : State) : Res := act s true (s.powerLoss mid)

/-- EDGE_COUNT_DONE: the PLLs start (R390, R405). -/
def execEdgeCountDone (s : State) : Res :=
  act s (s.start.phase == .edgeCount) { s with start := { s.start with phase := .pllLock } }

/-- PLL_LOCK: step 2 ends (R405, R406). -/
def execPllLock (s : State) : Res :=
  act s (s.start.phase == .pllLock) { s with start := { s.start with phase := .romBoot } }

/-- PLL_LOCK_TIMEOUT: the PLL is reset and tried again, without limit (R406). -/
def execPllLockTimeout (s : State) : Res :=
  act s (s.start.phase == .pllLock) { s with start := { s.start with pllRetries := s.start.pllRetries + 1 } }

/-- The package enters FAULT (R409). -/
def State.startupFail (s : State) (step : Nat) : State :=
  let t := s.event 0x0101 srcPackage step
  { t with start := { t.start with phase := .fault, faultStep := step, startupUs := t.start.startupUs } }

/-- A host port trains once step 3 has ended and its PERST is over (R407). -/
def HostPort.train (h : HostPort) : HostPort := if h.inPerst then h else { h with link := .training }

/-- A start-up after power-up counts a power cycle (R474, Table 18.12). -/
def State.countPowerUp (s : State) : State :=
  if s.start.fullStart then { s with mram := { s.mram with powerCycles := count 32 s.mram.powerCycles 1 } } else s

/-- What step 3 leaves in every case: pending RESET values apply, the life-cycle state takes force, the buckets are full,
host ports train (R404, R407, R458, R478). -/
def State.bootRom (s : State) : State :=
  let t := s.countPowerUp.applyPending resetClass
  { t with sec := { s.sec with life := s.mram.life, ownerKey := s.mram.ownerKey }
           recorder := s.recorder.refilled
           start := { s.start with phase := .verify, fullStart := false }
           hp0 := s.hp0.train, hp1 := s.hp1.train }

/-- ROM_BOOT_DONE: power cycles count, pending RESET values apply, the life-cycle state takes force, the OTP copies are
compared (R404, R405, R407, R458, R474). -/
def execRomBootDone (otpEqual : Bool) (s : State) : Res :=
  act s (s.start.phase == .romBoot) (if otpEqual then s.bootRom else s.bootRom.startupFail 3)

/-! ## Firmware images (R459 to R462) -/

/-- The shape checks of an image (R460, Table 22.3). -/
def imgShape (img : List Byte) : Bool :=
  let c := imgField img 16 4
  imgField img 0 4 == 0x4957464B && imgField img 4 4 == 1 && decide (imgField img 12 2 ≤ 63) && imgField img 14 2 == 0
  && decide (c ≤ 988864) && decide (imgField img 20 4 ≤ 1) && slice img 96 32 == zeros 32
  && img.length == 29920 + c + (if imgField img 20 4 = 1 then 29792 else 0)

/-- Does an image verify in a life-cycle state (R460)? -/
def State.imgVerifies (s : State) (img : List Byte) : Bool :=
  let c := imgField img 16 4
  let key := slice img 32 64
  imgShape img && (imgField img 24 8 == 0 || imgField img 24 8 == Config.serial.toNat)
  && shake512 key == leBytes 64 Config.rootDigest.toNat
  && Config.slhVerify key (img.take (128 + c)) (slice img (128 + c) 29792)
  && decide (s.mram.minSvn ≤ imgField img 12 2)
  && (s.sec.life != .owned || (imgField img 20 4 == 1
    && Config.slhVerify s.sec.ownerKey (img.take (29920 + c)) (slice img (29920 + c) 29792)))

/-- Does the image of a slot verify? -/
def State.slotOk (s : State) (n : Nat) : Bool := s.imgVerifies (s.slotImage n)

/-- Raise the minimum security version (R462). -/
def State.raiseSvn (s : State) : State :=
  let a := imgField (s.slotImage 0) 12 2
  let b := imgField (s.slotImage 1) 12 2
  let m := s.mram.minSvn
  if s.slotOk 0 && s.slotOk 1 && decide (m < a) && decide (m < b) then
    ({ s with mram := { s.mram with minSvn := min a b } }).event 0x0104 srcPackage (m + min a b * 2 ^ 8)
  else s

/-- Start a firmware slot: keys derive from it and the dictionary service starts (R408, R461, R464). -/
def State.startSlot (s : State) (n : Nat) : State :=
  let t := s.raiseSvn
  { t with sec := { t.sec with activeSlot := some n, attState := 0, endorsed := false }
           start := { t.start with phase := .wipe } }

/-- FIRMWARE_VERIFICATION: the boot slot, or the other one, or FAULT (R461). -/
def execFirmwareVerification (s : State) : Res :=
  let b := s.mram.bootSlot % 2
  let o := 1 - b
  act s (s.start.phase == .verify)
    (if s.slotOk b then s.startSlot b
     else if s.slotOk o then
      let t := s.event 0x0106 srcPackage o
      ({ t with mram := { t.mram with fallBacks := count 32 t.mram.fallBacks 1 } }).startSlot o
     else s.startupFail 4)

/-- ONDIE_WIPE_DONE: scratch, latches, caches, command stores and contexts are zero (R241). -/
def execOndieWipeDone (s : State) : Res :=
  act s (s.start.phase == .wipe)
    { s with cores := [], harts := [], stations := [], links := [], start := { s.start with phase := .stackTrain } }

/-! ## Stack training (R239, R240) -/

/-- Insert a channel into the mapped-out list, in rising order. -/
def insertNat (x : Nat) : List Nat → List Nat
  | [] => [x]
  | y :: ys => if x < y then x :: y :: ys else if x = y then y :: ys else y :: insertNat x ys

/-- A channel is mapped out (Table 9.4). -/
def State.mapOut (s : State) (ch : Nat) : State :=
  if s.hbm.out.contains ch then s
  else ({ s with hbm := { s.hbm with out := insertNat ch s.hbm.out } }).event 0x0202 (srcChannel ch) 0

/-- Spares of a lane group: two per pseudo-channel, one for command and address (R239). -/
def sparesOf (pseudo : Nat) : Nat := if pseudo = 0xFF then 1 else 2

/-- Have all failing lanes of a channel a spare of their group? -/
def repairable (fails : List LaneFail) (ch : Nat) : Bool :=
  [0, 1, 0xFF].all (fun g => decide ((fails.filter (fun f => f.ch == ch && f.pseudo == g)).length ≤ sparesOf g))

/-- Repair a failing lane, or map its channel out (Table 9.4). -/
def State.repairLane (fails : List LaneFail) (s : State) (f : LaneFail) : State :=
  if s.hbm.out.contains f.ch then s
  else if repairable fails f.ch then
    let used := (s.hbm.repairs.filter (fun r => r.channel == f.ch && r.pseudo == f.pseudo)).length
    ({ s with hbm := { s.hbm with repairs := s.hbm.repairs ++ [(⟨f.ch, f.pseudo, f.lane, used⟩ : LaneRepair)] } }).event
      0x0201 (srcChannel f.ch) (f.pseudo % 256 + f.lane % 256 * 2 ^ 8 + used * 2 ^ 16)
  else s.mapOut f.ch

/-- STACK_TRAINING_DONE: repairs and map-outs, then every good line is zero (R239 to R242). -/
def execStackTrainingDone (fails : List LaneFail) (wipeUs : Nat) (s : State) : Res :=
  only (fails.all (fun f => f.ch < 1024 && [0, 1, 0xFF].contains f.pseudo))
    (let t := fails.foldl (State.repairLane fails) s
     act s (s.start.phase == .stackTrain)
      { t with mem := t.mem.filter (fun c => stackedBytes ≤ c.1)
               hbm := { t.hbm with trained := true, wiped := true, wipeUs := min wipeUs (2 ^ 32 - 1) }
               start := { t.start with phase := .d2dTrain } })

/-- CHANNEL_TRAIN_TIMEOUT: the channel is mapped out (R239). -/
def execChannelTrainTimeout (ch : Nat) (s : State) : Res :=
  only (ch < 1024) (act s (s.start.phase == .stackTrain) (s.mapOut ch))

/-- D2D_TRAINING_DONE: step 7 ends, or FAULT (R405, R409). -/
def execD2dTrainingDone (ok : Bool) (s : State) : Res :=
  act s (s.start.phase == .d2dTrain)
    (if ok then { s with start := { s.start with phase := .hostReady } } else s.startupFail 7)

/-- `ClockEnable.Blocks` with every block that is present and trained (R398, Table 18.5). -/
def State.blocksReady (s : State) : Nat :=
  0xFFFFFF + (if s.far0.link = 2 then 2 ^ 24 else 0) + (if s.far1.link = 2 then 2 ^ 25 else 0)

/-- Every clock enable of a block that is present and trained is set (R398). -/
def State.enableClocks (s : State) : State :=
  ((((s.setDval 0x2010 1 (List.replicate 32 0xFF)).setDval 0x2010 2 (List.replicate 16 0xFF)).setDval 0x2010 3
    (leBytes 4 s.blocksReady)).setDval 0x2010 4 (leBytes 4 0xFFFFFFFF)).setDval 0x2010 5 (leBytes 4 0xFFFFFF)

/-- HOST_PORT_READY: clock enables set, start-up ends (R398, R405). -/
def execHostPortReady (s : State) : Res :=
  act s (s.start.phase == .hostReady)
    { s.enableClocks with
        start := { s.start with phase := .ready, startupUs := min ((s.ns - s.start.startedAt) / 1000) (2 ^ 32 - 1) } }

/-- RESET_N: a package reset on its rising edge; it counts as RSTREQ while RSTREQ_N was low (R401, R403). -/
def execResetN (s : State) : Res :=
  act s true (s.packageReset (if s.start.rstreqLow then .rstreq else .resetN))

/-- What the package does when no command waits: a tick, and a reset that a command asked for (R402, R454). -/
def idle (s : State) : State :=
  match s.start.resetDue with
  | some c => (tick s).packageReset c
  | none => (tick s).drainTick.giveTick

end Sys2Proof.Machine
end

