-- ==== Sys2Proof/Machine/Sequencer.lean ====
section
/-!
DEFINITION. The sequencer and the tally unit: SIGNAL, WAIT, WAITFLAG, REPEAT, STEPEND, SWAP, TSET, TADD, TMOV, TCMP and
the command store (03_tensor_core.md R63 to R73, R83 to R91, 06_brynno_commands.md R156, R161).
-/
namespace Sys2Proof.Machine

open Sys2Proof

/-! ## Comparators (R70, R71) -/

/-- Source A of a comparator (Table 3.2). -/
def Core.source (k : Core) (a : Nat) : BitVec 32 :=
  if a < 8 then k.ctr.toList.getD a 0
  else match a with
    | 8 => BitVec.ofNat 32 k.qMe.length
    | 9 => BitVec.ofNat 32 k.qVe.length
    | 10 => BitVec.ofNat 32 k.qDm.length
    | 11 => BitVec.ofNat 32 k.qXe.length
    | _ => BitVec.ofNat 32 (vestUsed k.vest)

/-- A relation of Table 3.2 on `d`. -/
def relHolds (rel : Nat) (d : Int) : Bool :=
  match rel with
  | 0 => d == 0
  | 1 => d != 0
  | 2 => decide (d < 0)
  | 3 => decide (d ≤ 0)
  | 4 => decide (0 < d)
  | _ => decide (0 ≤ d)

/-- Is comparator `i` true (R71)? -/
def Core.compare (k : Core) (i : Nat) : Bool :=
  let c := k.cmp.toList.getD i {}
  let b := if c.useConst then BitVec.ofNat 32 c.const else k.source c.bcnt
  relHolds c.rel (k.source c.src - b).toInt

/-! ## Step end and swap of one core -/

/-- Are all four queues empty (R67, R89)? -/
def Core.queuesEmpty (k : Core) : Bool := k.qMe.isEmpty && k.qVe.isEmpty && k.qDm.isEmpty && k.qXe.isEmpty

/-- Has the core reached its part of step end (R67)? A core that runs nothing has. -/
def Core.atEnd (k : Core) : Bool :=
  k.seq == .idle || (k.seq == .ended && k.queuesEmpty && k.vest.isEmpty && k.latch.isEmpty)

/-- Queues that empty behind STEPEND or SWAP: a vestibule or a latch that is not empty is an assertion error (R83, R101);
at step end the core's entries take their snapshot (R67, R448). -/
def State.settle (s : State) (c : Nat) : State :=
  let k := s.core c
  let waits := match k.seq with
    | .swapping _ => true
    | .ended => true
    | _ => false
  if !waits || !k.queuesEmpty then s
  else if !k.vest.isEmpty then (s.modCore c (fun k => { k with seq := .stopped })).reportStep 0x0609 (srcCore c) 1 c
  else if !k.latch.isEmpty then (s.modCore c (fun k => { k with seq := .stopped })).reportStep 0x0609 (srcCore c) 2 c
  else if k.seq = .ended then s.snapshot .core c
  else s

/-- Settle every core whose queues have emptied since `s0`. -/
def State.settleFrom (s0 s : State) : State :=
  (s.cores.map Prod.fst).foldl (fun t c =>
    if !(s0.core c).queuesEmpty && (t.core c).queuesEmpty then t.settle c else t) s

/-- How a meaning ends that may retire commands of other cores. -/
def actSettled (s : State) (ok : Bool) (t : State) : Res := act s ok (State.settleFrom s t)

/-- A sequencer position taken by the whole gang in one cycle; `wait` is what the core does while a member cannot
(R72, R73, R84). -/
def State.position (s : State) (c : Nat) (f : Core → Option Core) (wait : Core → Core) : State :=
  let g := s.gangOf c
  if g.all (fun d => (f (s.core d)).isSome) then g.foldl State.settle (s.lockstep c f)
  else s.modCore c wait

/-- The word at the position where its opcode is `op`. -/
def Core.at? (k : Core) (op : Nat) : Option Nat :=
  match k.word? with
  | some w => if bits 7 0 w = op then some w else none
  | none => none

/-- Is the sequencer at a command of this opcode? -/
def Core.isAt (k : Core) (op : Nat) : Bool := (k.at? op).isSome

/-- Go on to the next position. -/
def Core.next (k : Core) : Core := { k with seq := .run, pos := k.pos + 1 }

/-! ## Commands -/

/-- SIGNAL: it reaches the head of its engine queue and adds its amount to its counter (R69). -/
def execSignal (c : Nat) (e : Engine) (s : State) : Res :=
  match (s.core c).queue e with
  | q :: rest =>
    only (c < 256) (act s (bits 7 0 q.word == 0x01)
      ((s.modCore c (fun k => (k.putQueue e rest).addCtr (bits 18 16 q.word) (bits 63 32 q.word))).settle c))
  | [] => only (c < 256) (.next s)

/-- WAIT on a core: done where its comparator is true (R72). -/
def waitDone (k : Core) : Option Core :=
  match k.seq with
  | .waiting i => if k.compare i then some k.next else none
  | _ => match k.at? 0x02 with
    | some w => if k.compare (bits 9 8 w) then some k.next else none
    | none => none

/-- WAIT: it completes in the cycle it is reached or holds the sequencer (R72). -/
def execWait (c : Nat) (s : State) : Res :=
  only (c < 256) (act s ((s.core c).isAt 0x02)
    (s.position c waitDone (fun k => { k with seq := .waiting (bits 9 8 ((k.at? 0x02).getD 0)) })))

/-- WAIT_COMPLETE: the comparator has come true (R72). -/
def execWaitComplete (c : Nat) (s : State) : Res :=
  let held := match (s.core c).seq with
    | .waiting _ => true
    | _ => false
  only (c < 256) (act s held (s.position c waitDone id))

/-- A flag that a WAITFLAG waits for, cleared where its CLEAR bit says so (R73). -/
def Core.takeFlag (k : Core) (f : Nat) (clear : Bool) : Option Core :=
  if k.flags.getLsbD f then
    some { k.next with flags := if clear then k.flags &&& ~~~(1#1024 <<< f) else k.flags }
  else none

/-- WAITFLAG on a core. -/
def waitflagDone (k : Core) : Option Core :=
  match k.seq with
  | .waitFlag f cl => k.takeFlag f cl
  | _ => match k.at? 0x03 with
    | some w => k.takeFlag (bits 17 8 w) (bitAt 18 w)
    | none => none

/-- WAITFLAG: it completes in the first cycle in which its flag is set (R73). -/
def execWaitflag (c : Nat) (s : State) : Res :=
  only (c < 256) (act s ((s.core c).isAt 0x03)
    (s.position c waitflagDone (fun k =>
      let w := (k.at? 0x03).getD 0
      { k with seq := .waitFlag (bits 17 8 w) (bitAt 18 w) })))

/-- WAITFLAG_COMPLETE: the flag has been set (R73). -/
def execWaitflagComplete (c : Nat) (s : State) : Res :=
  let held := match (s.core c).seq with
    | .waitFlag _ _ => true
    | _ => false
  only (c < 256) (act s held (s.position c waitflagDone id))

/-- REPEAT (R156). -/
def execRepeat (c : Nat) (s : State) : Res :=
  let f (k : Core) : Option Core := (k.at? 0x04).map (fun w =>
    let n := repeatNext w k.pos k.reps
    { k with pos := n.1, reps := n.2 })
  only (c < 256) (act s ((s.core c).isAt 0x04) (s.position c f id))

/-- STEPEND: dispatch stops; the core ends once its queues are empty (R67). -/
def execStepend (c : Nat) (s : State) : Res :=
  let f (k : Core) : Option Core := (k.at? 0x05).map (fun _ => { k with seq := .ended })
  only (c < 256) (act s ((s.core c).isAt 0x05) (s.position c f id))

/-- SWAP: dispatch stops until the queues and the vestibule are empty (R89). -/
def execSwap (c : Nat) (s : State) : Res :=
  let f (k : Core) : Option Core := (k.at? 0x06).map (fun w => { k with seq := .swapping (bits 23 8 w) })
  only (c < 256) (act s ((s.core c).isAt 0x06) (s.position c f id))

/-- The role that a core's SWAP expects, once its queues, vestibule and latch are empty. -/
def Core.swapReady (k : Core) : Option Nat :=
  match k.seq with
  | .swapping r => if k.queuesEmpty && k.vest.isEmpty && k.latch.isEmpty then some r else none
  | _ => none

/-- The banks exchange states and the role epoch counts (Table 3.5, R89, R91); REPEATs and the auxiliary registers
clear (R156, R162). -/
def Core.exchange (k : Core) : Core :=
  { k with seq := .run, pos := 0, reps := [], roleEpoch := k.roleEpoch + 1, activeIs1 := !k.activeIs1
           bank0 := { k.bank0 with st := if k.activeIs1 then .active else .ready }
           bank1 := { k.bank1 with st := if k.activeIs1 then .ready else .active }
           mescl := none, meexp := none, megath := none }

/-- SWAP_EXCHANGE: with every member drained and every standby READY, the banks of the gang exchange on one edge, or a
role mismatch is reported (R84, R89, R90). -/
def execSwapExchange (c : Nat) (s : State) : Res :=
  let g := s.gangOf c
  let ready := g.all (fun d => (s.core d).swapReady.isSome && (s.core d).standby.st == .ready)
  let bad := g.filter (fun d => (s.core d).standby.role != (s.core d).swapReady)
  let t :=
    if bad.isEmpty then g.foldl (fun s d => s.modCore d Core.exchange) s
    else bad.foldl (fun s d =>
      (s.modCore d (fun k => { k with seq := .stopped })).reportStep 0x0602 (srcCore d)
        ((s.core d).swapReady.getD 0 + (s.core d).standby.role.getD 0 * 2 ^ 16) d) s
  only (c < 256) (act s ready t)

/-- SWAP_TIMEOUT: no READY standby in time (R90). -/
def execSwapTimeout (c : Nat) (s : State) : Res :=
  match (s.core c).swapReady with
  | some r => only (c < 256) (act s ((s.core c).standby.st != .ready)
      ((s.modCore c (fun k => { k with seq := .stopped })).reportStep 0x0601 (srcCore c) r c))
  | none => only (c < 256) (.next s)

/-- A tally command changes the counters of every member and goes on. -/
def State.tally (s : State) (c op : Nat) (f : Nat → Core → Core) : State :=
  s.position c (fun k => (k.at? op).map (fun w => (f w k).next)) id

/-- TSET: C[D] = IMM. -/
def execTset (c : Nat) (s : State) : Res :=
  only (c < 256) (act s ((s.core c).isAt 0x10) (s.tally c 0x10 (fun w k =>
    { k with ctr := k.ctr.setIfInBounds (bits 10 8 w) (BitVec.ofNat 32 (bits 63 32 w)) })))

/-- TADD: C[D] = C[D] + IMM modulo 2^32. -/
def execTadd (c : Nat) (s : State) : Res :=
  only (c < 256) (act s ((s.core c).isAt 0x11) (s.tally c 0x11 (fun w k => k.addCtr (bits 10 8 w) (bits 63 32 w))))

/-- TMOV: C[D] = C[S] + IMM modulo 2^32. -/
def execTmov (c : Nat) (s : State) : Res :=
  only (c < 256) (act s ((s.core c).isAt 0x12) (s.tally c 0x12 (fun w k =>
    { k with ctr := k.ctr.setIfInBounds (bits 10 8 w) (k.source (bits 14 12 w) + BitVec.ofNat 32 (bits 63 32 w)) })))

/-- TCMP: comparator K is configured (R71). -/
def execTcmp (c : Nat) (s : State) : Res :=
  only (c < 256) (act s ((s.core c).isAt 0x13) (s.tally c 0x13 (fun w k =>
    { k with cmp := k.cmp.setIfInBounds (bits 9 8 w)
              { src := bits 13 10 w, useConst := bitAt 14 w, bcnt := bits 18 16 w, const := bits 63 32 w
                rel := bits 22 20 w } })))

/-- LOADER_BANK_COMPLETE: the standby bank holds a role of the image and its identifier (R87, R88). -/
def execLoaderBankComplete (c role : Nat) (s : State) : Res :=
  match s.job.image.bind (fun im => im.role role) with
  | some r => only (c < 256) (act s s.job.held
      (s.modCore c (fun k => k.putStandby { st := .ready, role := some role, cmds := r.cmds, descs := r.descs })))
  | none => only (c < 256) (.next s)

end Sys2Proof.Machine
end

