-- ==== Sys2Proof/Machine/Compute.lean ====
section
/-!
DEFINITION. The commands of the matrix engine and the vector engine, and the re-execution of a command that meets a
parity error (04_matrix_engine.md R99 to R118, 05_vector_engine.md R119 to R143, 16_errors_and_recovery.md R361).
-/
namespace Sys2Proof.Machine

open Sys2Proof

/-! ## Parity errors in engines (R79, R118, R143, R361) -/

/-- Count a parity error of a guard of the core (Tables 3.9, 4.7, 5.10). -/
def CoreStats.parity (t : CoreStats) : UpsetSite → CoreStats
  | .scratch => { t with scratchParity := count 32 t.scratchParity 1 }
  | .latch => { t with latchParity := count 32 t.latchParity 1 }
  | .accumulator => { t with accParity := count 32 t.accParity 1 }
  | .stage => { t with stageParity := count 32 t.stageParity 1 }
  | _ => t

/-- Count an error at its guard: the core's own, a stack channel's, or a poisoned far read (R228, R246). -/
def State.countSite (s : State) (c : Nat) : UpsetSite → State
  | .stack ch => s.stackParity ch
  | .farPoison p => s.modFar p (fun f => { f with poison := count 32 f.poison 1 })
  | site => s.modCore c (fun k => { k with stats := k.stats.parity site })

/-- Put command `q` at place `i` of an engine queue. -/
def State.putCmd (s : State) (c : Nat) (e : Engine) (i : Nat) (q : EngCmd) : State :=
  s.modCore c (fun k => k.putQueue e ((k.queue e).set i q))

/-- Retire command `i` of an engine queue. -/
def State.retire (s : State) (c : Nat) (e : Engine) (i : Nat) : State :=
  (s.modCore c (fun k => k.putQueue e ((k.queue e).eraseIdx i))).settle c

/-- A poisoned far read is a step-level error (R246). -/
def isPoison : UpsetSite → Bool
  | .farPoison _ => true
  | _ => false

/-- A unit error that a command meets: it stops, or executes once more where Table 16.3 lists it; a second error
escalates (R361, R372). `s` is the state at the error. -/
def State.unitError (s : State) (c : Nat) (e : Engine) (i : Nat) (q : EngCmd) (reexec : Bool) (u : Upset)
    (rerun : State → State) : State :=
  let stopped := { q with prog := .stopped }
  let t := s.countSite c u.site
  if 0 < q.retries then (t.putCmd c e i stopped).unitAgain (srcCore c) c
  else if !reexec || isPoison u.site then (t.putCmd c e i stopped).parityStep (srcCore c) c
  else
    let t := (t.unitRetry (srcCore c) q.pos).putCmd c e i { q with retries := 1 }
    if u.again then ((t.countSite c u.site).putCmd c e i stopped).unitAgain (srcCore c) c else rerun t

/-- Event code and payload of an engine's own step-level error (Table 23.3). -/
def CoreErr.code : CoreErr → Nat
  | .meChainShape => 0x0605 | .f64sRange => 0x0606 | .gatherTimeout => 0x0607 | .veTileForm => 0x0608

/-- What a run of command `i` leaves. -/
def State.finishRun (s : State) (c : Nat) (e : Engine) (i : Nat) : Run → State
  | .stay k q => (s.putCore c k).putCmd c e i q
  | .done k => (s.putCore c k).retire c e i
  | .err r k q => ((s.putCore c k).putCmd c e i q).engineError (0 < q.retries) r.code (srcCore c) q.pos c

/-- The opcode of a command. -/
def EngCmd.op (q : EngCmd) : Nat := bits 7 0 q.word

/-- The command at the head of an engine queue, where it has an opcode. -/
def Core.head (k : Core) (e : Engine) (op : Nat) : Option EngCmd :=
  match k.queue e with
  | q :: _ => if q.op = op then some q else none
  | [] => none

/-! ## The matrix engine -/

/-- The command that the matrix engine works on: the first that does not wait for its emission alone (R110). -/
def Core.meFront (k : Core) : Option (Nat × EngCmd) :=
  match k.qMe.findIdx? (fun q => q.prog != .emitting) with
  | some i => (k.qMe[i]?).map (fun q => (i, q))
  | none => none

/-- Run a MEMUL without an error. -/
def State.runMul (s : State) (c i : Nat) : State :=
  match (s.core c).qMe[i]? with
  | some q => s.finishRun c .me i (mulRun (s.core c) q none)
  | none => s

/-- MEMUL: multiply as far as latch, pieces and sets allow; emit after the last tile (R99, R108 to R111, R115). -/
def execMemul (c : Nat) (u : Option Upset) (s : State) : Res :=
  match (s.core c).meFront with
  | some (i, q) =>
    let t := match u with
      | none => s.runMul c i
      | some x =>
        match mulRun (s.core c) q (some x.at_) with
        | .stay k r =>
          if r.prog = .part (min x.at_ (mulOf q).t) then
            (s.putCore c k).unitError c .me i { r with prog := if x.at_ = 0 then .fresh else r.prog }
              ((mulOf q).start && x.at_ == 0) x (fun s => s.runMul c i)
          else s.finishRun c .me i (.stay k r)
        | r => s.finishRun c .me i r
    only (c < 256) (act s (q.op == 0x20 && q.prog != .stopped) t)
  | none => only (c < 256) (.next s)

/-- ME_TILE_VISIBLE: the next tile of the oldest emission enters free slots of the vestibule; with its last tile the
command retires (R81, R111, R117). -/
def execMeTileVisible (c : Nat) (s : State) : Res :=
  let k := s.core c
  match k.emits with
  | e :: es =>
    let t := match e.tiles with
      | tile :: rest =>
        let s1 := s.modCore c (fun k =>
          { k with vest := k.vest ++ [tile], emits := if rest.isEmpty then es else { e with tiles := rest } :: es })
        if rest.isEmpty then s1.retire c .me 0 else s1
      | [] => s
    only (c < 256) (act s (vestUsed k.vest + ((e.tiles.map (fun x => x.form.slots)).headD 9) ≤ 8) t)
  | [] => only (c < 256) (.next s)

/-- An auxiliary register is set by the command at the head, which retires (R162). -/
def State.auxSet (s : State) (c op : Nat) (f : EngCmd → Core → Core) : Res :=
  match (s.core c).head .me op with
  | some q => only (c < 256) (act s true ((s.modCore c (f q)).retire c .me 0))
  | none => only (c < 256) (.next s)

/-- MESCL: the activation-scale registers (R162). -/
def execMescl (c : Nat) (s : State) : Res :=
  s.auxSet c 0x21 (fun q k =>
    { k with mescl := some (ixAdd (bits 15 8 q.word) q.cnt (bits 38 16 q.word), bits 61 39 q.word) })

/-- MEEXP: the exponent addresses (R113). -/
def execMeexp (c : Nat) (s : State) : Res :=
  s.auxSet c 0x22 (fun q k =>
    { k with meexp := some (ixAdd (bits 15 8 q.word) q.cnt (bits 46 24 q.word),
                            ixAdd (bits 23 16 q.word) q.cnt (bits 69 47 q.word)) })

/-- MEGATH: the piece table (R114). -/
def execMegath (c : Nat) (s : State) : Res :=
  s.auxSet c 0x23 (fun q k =>
    { k with megath := some (ixAdd (bits 15 8 q.word) q.cnt (bits 54 32 q.word), bits 24 16 q.word + 1) })

/-- MESCANR: the row exponents (R112). -/
def execMescanr (c : Nat) (u : Option Upset) (s : State) : Res :=
  match (s.core c).head .me 0x24 with
  | some q =>
    let run (s : State) : State := s.finishRun c .me 0 (.done (scanRows (s.core c) q))
    let t := match u with
      | none => run s
      | some x => s.unitError c .me 0 q true x run
    only (c < 256) (act s (q.prog != .stopped) t)
  | none => only (c < 256) (.next s)

/-- MESCANC: the column exponents, tile by tile; an error is never re-executed (R112, R361). -/
def execMescanc (c : Nat) (u : Option Upset) (s : State) : Res :=
  match (s.core c).head .me 0x25 with
  | some q =>
    let t := match u with
      | none => s.finishRun c .me 0 (scanCols (s.core c) q)
      | some x => s.unitError c .me 0 q false x id
    only (c < 256) (act s (q.prog != .stopped) t)
  | none => only (c < 256) (.next s)

/-- The piece whose flag the matrix engine waits for. -/
def waitingPiece (k : Core) (q : EngCmd) : Option Nat :=
  let p := mulOf q
  let j := match q.prog with
    | .part j => j
    | _ => 0
  if p.gather && decide (j < p.t) && !pieceReady k p j then some (j / (p.t / (k.megath.getD (0, 1)).2)) else none

/-- GATHER_TIMEOUT: a piece's flag has not come in time (R116). -/
def execGatherTimeout (c : Nat) (s : State) : Res :=
  match (s.core c).meFront with
  | some (i, q) =>
    match (if q.op = 0x20 ∧ q.prog ≠ .stopped then waitingPiece (s.core c) q else none) with
    | some p => only (c < 256) (act s true
        ((s.putCmd c .me i { q with prog := .stopped }).engineError (0 < q.retries) 0x0607 (srcCore c) (q.pos + p * 2 ^ 16) c))
    | none => only (c < 256) (.next s)
  | none => only (c < 256) (.next s)

/-! ## The vector engine -/

/-- The draw of a stage (R136, Table 8.8). -/
def State.veDraw (s : State) (c stream e : Nat) : Nat := genDraw ⟨s.job.seed, s.job.rank, s.job.step⟩ 0 c stream e

/-- Bytes of a row of a stream. -/
def Stream.rowBytes (x : Stream) : Nat := if x.i32 || x.fmt ≤ 1 then 256 else Machine.rowBytes x.fmt 64

/-- Bytes of an output row of a chain (R124, R125). -/
def VeChain.outBytes (ch : VeChain) : Nat :=
  match ch.stages.getLast? with
  | none => 256
  | some w => if stOp w = 0x30 then Machine.rowBytes (stFmt w) 64 else if stOp w = 0x33 then 512
    else if stOp w = 0x3A then 8 * packWidth (stFmt w) else 256

/-- Is a chain re-executed after an error: X from scratch, its destination apart from stream X (Table 16.3)? -/
def VeChain.again (ch : VeChain) : Bool :=
  let meet (b st w : Nat) : Bool := areasMeet ch.count b st w ch.count ch.x.base ch.x.stride ch.x.rowBytes
    || (ch.x.mx && areasMeet ch.count b st w ch.count ch.x.sbase ch.x.sstride 2)
  let last := ch.stages.getLastD 0
  !ch.vest && !meet ch.dst ch.dstStride ch.outBytes
  && !(!ch.stages.isEmpty && stOp last == 0x30 && stMx last && meet ch.ds ch.dsStride 2)

/-- Run a chain without an error. -/
def State.runChain (s : State) (c : Nat) : State :=
  match (s.core c).head .ve 0x30 with
  | some q => s.finishRun c .ve 0 (chainRun (s.veDraw c) (s.core c) q none)
  | none => s

/-- A chain that meets an error at row `r`: the rows before it are written (R143). -/
def State.chainError (s : State) (c : Nat) (q : EngCmd) (x : Upset) : State :=
  let ch := veChainOf q
  if ch.vest then
    let k0 := s.core c
    let q1 := if q.prog = .fresh then { q with held := constRows k0.scratch ch.stages } else q
    let u0 := match q.prog with
      | .part n => n
      | _ => 0
    match veTiles (s.veDraw c) ch (x.at_ / 64 - u0) k0 q1 u0 with
    | .stay k r =>
      match k.vest, (if r.prog = .part (x.at_ / 64) ∧ x.at_ / 64 < ch.count then some (x.at_ / 64) else none) with
      | tile :: _, some v =>
        if tile.toDm then s.finishRun c .ve 0 (.stay k r)
        else if tileFits ch tile.form then
          ((s.putCore c { k with scratch := veTile (s.veDraw c) ch r.held v (x.at_ % 64) tile k.scratch }).putCmd c .ve 0 r).unitError
            c .ve 0 r false x id
        else s.finishRun c .ve 0 (.err .veTileForm k { r with prog := .stopped })
      | _, _ => s.finishRun c .ve 0 (.stay k r)
    | r => s.finishRun c .ve 0 r
  else if ch.count ≤ x.at_ then s.runChain c
  else match chainRun (s.veDraw c) (s.core c) q (some x.at_) with
    | .done k => (s.putCore c k).unitError c .ve 0 q ch.again x (fun s => s.runChain c)
    | r => s.finishRun c .ve 0 r

/-- VECHAIN: a pass over its rows or tiles (R120 to R143). -/
def execVechain (c : Nat) (u : Option Upset) (s : State) : Res :=
  match (s.core c).head .ve 0x30 with
  | some q =>
    let t := match u with
      | none => s.runChain c
      | some x => s.chainError c q x
    only (c < 256) (act s (q.prog != .stopped) t)
  | none => only (c < 256) (.next s)

end Sys2Proof.Machine
end

