-- ==== Sys2Proof/Machine/DataMover.lean ====
section
/-!
DEFINITION. The commands of the data mover: DMWLOAD, DMXFER, DMLINK, and the arrival of die-local transfers
(03_tensor_core.md R80, R99, 06_brynno_commands.md R161, R165, 10_linkage_engine.md R249 to R252).
-/
namespace Sys2Proof.Machine

open Sys2Proof

/-! ## DMWLOAD (R99, R100) -/

/-- The bytes of tile `j` of a weight load, and the state with their read counted. -/
def State.weightTile (s : State) (c : Nat) (q : EngCmd) (j : Nat) : List Byte × State :=
  let w := q.word
  let n := tileSize (bits 11 8 w) (bitAt 12 w)
  if bitAt 13 w then
    (readBytes (s.core c).scratch (sAddr (ixAdd (bits 31 24 w) q.cnt (bits 102 80 w) + j * n)) n, s)
  else
    let a := s.copyBase (bits 39 32 w) 0 + ixAdd (bits 31 24 w) q.cnt (bits 79 40 w) + j * n
    (s.load a n, s.countLines a false (n / 128 + 2) n)

/-- Load tiles into free latch halves, up to tile `lim` (R99). -/
def weightLoop (c lim : Nat) : Nat → State → EngCmd → Nat → State × EngCmd
  | 0, s, q, j => (s, { q with prog := .part j })
  | n + 1, s, q, j =>
    if lim ≤ j ∨ 2 ≤ (s.core c).latch.length then (s, { q with prog := .part j })
    else
      let r := s.weightTile c q j
      weightLoop c lim n (r.2.modCore c (fun k => { k with latch := k.latch ++ [r.1] })) q (j + 1)

/-- Tiles that a weight load has put into the latch. -/
def EngCmd.done (q : EngCmd) : Nat :=
  match q.prog with
  | .part j => j
  | _ => 0

/-- Run a weight load without an error; with its last tile in the latch it retires (Table 6.12). -/
def State.runWload (s : State) (c : Nat) : State :=
  match (s.core c).head .dm 0x40 with
  | some q =>
    let t := bits 23 14 q.word + 1
    let r := weightLoop c t t s q q.done
    if t ≤ r.2.done then r.1.retire c .dm 0 else r.1.putCmd c .dm 0 r.2
  | none => s

/-- DMWLOAD: it fills the next free half in order; after an error it resumes with the tile it was loading (Table
16.3). -/
def execDmwload (c : Nat) (u : Option Upset) (s : State) : Res :=
  match (s.core c).head .dm 0x40 with
  | some q =>
    let n := bits 23 14 q.word + 1
    let t := match u with
      | none => s.runWload c
      | some x =>
        if n ≤ x.at_ then s.runWload c
        else
          let r := weightLoop c x.at_ n s q q.done
          if r.2.done = x.at_ ∧ (r.1.core c).latch.length < 2 then
            r.1.unitError c .dm 0 r.2 true x (fun s => s.runWload c)
          else r.1.putCmd c .dm 0 r.2
    only (c < 256) (act s (q.prog != .stopped) t)
  | none => only (c < 256) (.next s)

/-! ## DMXFER (R165, Table 6.16) -/

/-- A transfer descriptor with its effective addresses. -/
structure Xfer where
  dir : Nat
  rows : Nat
  rb : Nat
  src : Nat
  dst : Nat
  sStride : Nat
  dStride : Nat
  sRegion : Nat
  dRegion : Nat
  peer : Nat
  repoch : Nat
  flag : Option Nat
  cnt : Option Nat
  deriving DecidableEq, Repr

/-- Read a transfer descriptor at its dispatch. -/
def xferOf (q : EngCmd) : Xfer :=
  let d := packNat 128 q.desc
  { dir := bits 10 8 d, rows := bits 47 32 d + 1, rb := bits 31 16 d + 1
    src := ixAdd (bits 31 24 q.word) q.cnt (bits 167 128 d), dst := ixAdd (bits 39 32 q.word) q.cnt (bits 207 168 d)
    sStride := bits 231 208 d, dStride := bits 255 232 d, sRegion := bits 103 96 d, dRegion := bits 111 104 d
    peer := bits 52 48 d, repoch := bits 79 64 d
    flag := if bitAt 53 d then some (bits 63 54 d) else none
    cnt := if bitAt 83 d then some (bits 82 80 d) else none }

/-- Does a transfer read its source from a region? -/
def Xfer.fromRegion (x : Xfer) : Bool := x.dir == 0 || x.dir == 3

/-- Does a transfer write its destination to a region? -/
def Xfer.toRegion (x : Xfer) : Bool := x.dir == 1 || x.dir == 3 || x.dir == 5

/-- Is a region of kind HOST? -/
def State.isHost (s : State) (id : Nat) : Bool :=
  match s.job.image.bind (fun im => im.region id) with
  | some r => r.kind == .host
  | none => false

/-- Count a data-mover row on the sector path (R237, Table 9.6). -/
def State.countSector (s : State) (a len : Nat) (write : Bool) : State :=
  if oneSector a len && decide (a < stackedBytes) then
    if write then { s with hbm := { s.hbm with sectorWrites := count 64 s.hbm.sectorWrites 1 } }
    else { s with hbm := { s.hbm with sectorReads := count 64 s.hbm.sectorReads 1 } }
  else s

/-- Count a row of a region. -/
def State.countRow (s : State) (a len : Nat) (write : Bool) : State :=
  (s.countLines a write (len / 128 + 2) len).countSector a len write

/-- The bytes of a row at its source. -/
def State.xferRead (s : State) (c : Nat) (x : Xfer) (i : Nat) : List Byte × State :=
  if x.fromRegion then
    let a := s.copyBase x.sRegion 0 + x.src + i * x.sStride
    (s.load a x.rb, s.countRow a x.rb false)
  else (readBytes (s.core c).scratch (sAddr (x.src % 8388608 + i * x.sStride)) x.rb, s)

/-- Add a row to the last host-bound transfer of a core, or begin one (R25). -/
def State.hostRow (s : State) (c : Nat) (x : Xfer) (i : Nat) (bs : List Byte) : State :=
  let row := (x.dst + i * x.dStride, bs)
  let q := s.outputs.queue
  let q2 :=
    if i = 0 then q ++ [({ core := c, region := x.dRegion, rows := [row] } : HostXfer)]
    else match q.reverse with
      | h :: t => if h.core = c then ({ h with rows := h.rows ++ [row] } :: t).reverse
                  else (match q.findIdx? (fun e => e.core == c && e.region == x.dRegion) with
                    | some j => q.modify j (fun e => { e with rows := e.rows ++ [row] })
                    | none => q)
      | [] => q
  { s with outputs := { s.outputs with queue := q2 } }

/-- A row at its destination. -/
def State.xferWrite (s : State) (c : Nat) (x : Xfer) (i : Nat) (bs : List Byte) : State :=
  if x.toRegion then
    if s.isHost x.dRegion then s.hostRow c x i bs
    else
      let a := s.copyBase x.dRegion 0 + x.dst + i * x.dStride
      (s.storeAgent a bs).countRow a bs.length true
  else s.modCore c (fun k => { k with scratch := writeBytes k.scratch (sAddr (x.dst % 8388608 + i * x.dStride)) bs })

/-- Move rows `i` to `lim - 1` in ascending order. -/
def moveRows (c : Nat) (x : Xfer) (lim : Nat) : Nat → Nat → State → State
  | 0, _, s => s
  | n + 1, i, s =>
    if lim ≤ i then s
    else
      let r := s.xferRead c x i
      moveRows c x lim n (i + 1) (r.2.xferWrite c x i r.1)

/-- The peer core of DIR 2. -/
def Xfer.target (x : Xfer) (c : Nat) : Nat := c / 32 * 32 + x.peer

/-- Send rows to the peer while its ingress buffer has room; flag and count go with the last row (R80, R92, R165). -/
def sendRows (c : Nat) (x : Xfer) : Nat → State → EngCmd → State × EngCmd
  | 0, s, q => (s, q)
  | n + 1, s, q =>
    if q.todo = 0 then (s, q) else
    let i := x.rows - q.todo
    let last := q.todo == 1
    let t : Transfer :=
      { sender := .core c, epoch := s.epoch, repoch := x.repoch, addr := x.dst % 8388608 + i * x.dStride
        bytes := (s.xferRead c x i).1, flag := if last then x.flag else none, cnt := if last then x.cnt else none }
    match s.ingress (x.target c) t with
    | some s2 =>
      let out := match q.prog with
        | .issued k => k + 1
        | _ => 1
      sendRows c x n s2 { q with todo := q.todo - 1, prog := .issued out }
    | none => (s, q)

/-- The rows of a tile as a transfer writes them: hi, then lo (R165). -/
def tileRows (t : Tile) : List (List Byte) :=
  let row (l : List Nat) : List Byte :=
    if t.form = .f64s then leBytes 512 (packNat 64 l) else leBytes 256 (packNat 32 l)
  (t.hi ++ t.lo).map row

/-- Consume head tiles addressed to the data mover (R82). -/
def drainTiles (c : Nat) (x : Xfer) : Nat → Nat → State → Nat × State
  | 0, i, s => (i, s)
  | n + 1, i, s =>
    if x.rows ≤ i then (i, s) else
    match (s.core c).vest with
    | t :: rest =>
      if t.toDm then
        let rows := tileRows t
        let s := s.modCore c (fun k => { k with vest := rest })
        let s := ((List.range rows.length).zip rows).foldl (fun s e => s.xferWrite c x (i + e.1) (e.2.take x.rb)) s
        drainTiles c x n (i + rows.length) s
      else (i, s)
    | [] => (i, s)

/-- Run a transfer without an error (R165). -/
def State.runXfer (s : State) (c : Nat) : State :=
  match (s.core c).head .dm 0x41 with
  | some q =>
    let x := xferOf q
    if x.dir = 2 then
      let q1 := if q.prog = .fresh then { q with todo := x.rows } else q
      let r := sendRows c x x.rows s q1
      r.1.putCmd c .dm 0 r.2
    else if 5 ≤ x.dir then
      let r := drainTiles c x 9 q.done s
      if x.rows ≤ r.1 then r.2.retire c .dm 0 else r.2.putCmd c .dm 0 { q with prog := .part r.1 }
    else (moveRows c x x.rows x.rows 0 s).retire c .dm 0
  | none => s

/-- Is a transfer re-executed after an error (Table 16.3)? -/
def State.xferAgain (s : State) (x : Xfer) : Bool :=
  if x.dir = 0 then true
  else if x.dir = 3 then
    !areasMeet x.rows (s.copyBase x.sRegion 0 + x.src) x.sStride x.rb x.rows (s.copyBase x.dRegion 0 + x.dst) x.dStride x.rb
  else if x.dir = 4 then
    !areasMeet x.rows (x.src % 8388608) x.sStride x.rb x.rows (x.dst % 8388608) x.dStride x.rb
  else false

/-- DMXFER: rows move between regions, scratch, a peer, the vestibule and the commit queue (R165). -/
def execDmxfer (c : Nat) (u : Option Upset) (s : State) : Res :=
  match (s.core c).head .dm 0x41 with
  | some q =>
    let x := xferOf q
    let t := match u with
      | none => s.runXfer c
      | some e =>
        if x.rows ≤ e.at_ then s.runXfer c
        else if x.dir = 2 ∨ 5 ≤ x.dir then s.unitError c .dm 0 q false e id
        else (moveRows c x e.at_ e.at_ 0 s).unitError c .dm 0 q (s.xferAgain x) e (fun s => s.runXfer c)
    only (c < 256) (act s (q.prog != .stopped) t)
  | none => only (c < 256) (.next s)

/-! ## DMLINK (R249, R252) -/

/-- DMLINK: the problem enters the queue of the die's engine, which holds 256 (Table 10.1). -/
def execDmlink (c : Nat) (s : State) : Res :=
  match (s.core c).head .dm 0x42 with
  | some q =>
    let w := q.word
    let d := c / 32
    let p : LinkProb :=
      { core := c, sched := bits 23 8 w, addr := s.copyBase (bits 39 32 w) 0 + ixAdd (bits 31 24 w) q.cnt (bits 79 40 w)
        cnt := if bitAt 83 w then some (bits 82 80 w) else none, repoch := (s.core c).roleEpoch.toNat }
    only (c < 256) (act s (decide ((s.link d).queue.length < 256))
      ((s.modLink d (fun e =>
        { e with queue := e.queue ++ [p], high := max e.high (e.queue.length + 1) })).retire c .dm 0))
  | none => only (c < 256) (.next s)

/-! ## TRANSFER_ARRIVAL (R80) -/

/-- TRANSFER_ARRIVAL: the transfer at the head of a core's ingress buffer is checked and taken (R80, R92). -/
def execTransferArrival (c : Nat) (s : State) : Res :=
  only (c < 256) (actSettled s (!(s.core c).ingress.isEmpty) (s.arrive c))

/-! ## Linkage engines (10.4 to 10.7) -/

/-- The schedule that a problem runs under. -/
def State.schedule (s : State) (p : LinkProb) : Schedule :=
  match s.job.image with
  | some im => scheduleOf (im.scheds.getD p.sched [])
  | none => scheduleOf []

/-- The problem at the head of an engine's queue. -/
def State.problem (s : State) (d : Nat) : Option LinkProb := (s.link d).queue.head?

/-- Put the solve of the problem at the head. -/
def State.putSolve (s : State) (d : Nat) (x : Solve) : State :=
  s.modLink d (fun e => match e.queue with
    | p :: t => { e with queue := { p with active := some x } :: t }
    | [] => e)

/-- A problem ends without a result: dropped, a step-level error (R263). -/
def State.dropProblem (s : State) (d code : Nat) (parity : Bool) : State :=
  match s.problem d with
  | some p =>
    (s.modLink d (fun e => { e with queue := e.queue.drop 1, parity := if parity then count 32 e.parity 1 else e.parity })).reportStep
      code (srcLink d) p.sched noCore
  | none => s

/-- PROBLEM_START: the problem block is read and the slots are loaded (R259, R260). -/
def execProblemStart (d : Nat) (bad : Bool) (s : State) : Res :=
  match s.problem d with
  | some p =>
    let sc := s.schedule p
    let n := blockBytes sc
    let t := (s.countLines p.addr false (n / 128 + 2) n).putSolve d (solveStart sc (s.load p.addr n))
    only (d < 8) (act s p.active.isNone (if bad then s.dropProblem d 0x060C true else t))
  | none => only (d < 8) (.next s)

/-- The solve under way on an engine, where its next operation has code `op`. -/
def State.solving (s : State) (d op : Nat) : Option (LinkProb × Schedule × Solve × Nat) :=
  match s.problem d with
  | some p => match p.active with
    | some x =>
      let sc := s.schedule p
      let w := sc.ops.getD x.pc 0
      if opCode w = op then some (p, sc, x, w) else none
    | none => none
  | none => none

/-- LINK_DOT (R256). -/
def execLinkDot (d : Nat) (bad : Bool) (s : State) : Res :=
  match s.solving d 1 with
  | some (_, sc, x, w) =>
    only (d < 8) (act s true (if bad then s.dropProblem d 0x060C true else s.putSolve d (solveNext sc (opDot sc w x))))
  | none => only (d < 8) (.next s)

/-- LINK_PIVOT (R256). -/
def execLinkPivot (d : Nat) (bad : Bool) (s : State) : Res :=
  match s.solving d 2 with
  | some (_, sc, x, w) =>
    only (d < 8) (act s true (if bad then s.dropProblem d 0x060C true else s.putSolve d (solveNext sc (opPivot sc w x))))
  | none => only (d < 8) (.next s)

/-- A solve finishes: solution, status and digest are written, then the count goes to the core (R252, R259). -/
def State.finishSolve (s : State) (d : Nat) (p : LinkProb) (sc : Schedule) (x : Solve) (e : SolveEnd) : State :=
  let s := (solveWrites sc x e).foldl (fun s w =>
    (s.storeAgent (p.addr + w.1) w.2).countLines (p.addr + w.1) true (w.2.length / 128 + 2) w.2.length) s
  let s := s.modLink d (fun g =>
    { g with queue := g.queue.drop 1, solved := count 64 g.solved 1
             converged := count 64 g.converged (if e = .converged then 1 else 0)
             capped := count 64 g.capped (if e = .capped then 1 else 0)
             saturated := count 64 g.saturated (if e = .saturated then 1 else 0)
             clamps := count 64 g.clamps x.clamps, warmRejected := count 32 g.warmRejected (if x.warmRejected then 1 else 0) })
  match p.cnt with
  | some i =>
    let t : Transfer :=
      { sender := .none, epoch := s.epoch, repoch := p.repoch, addr := 0, bytes := [], flag := none, cnt := some i }
    (s.ingress p.core t).getD s
  | none => s

/-- LINK_NORM: the residual test; it ends the solve or goes on (R261). -/
def execLinkNorm (d : Nat) (bad : Bool) (s : State) : Res :=
  match s.solving d 3 with
  | some (p, sc, x, w) =>
    let r := opNorm sc w x
    let t := match r.2 with
      | some e => s.finishSolve d p sc r.1 e
      | none => s.putSolve d (solveNext sc r.1)
    only (d < 8) (act s (p.cnt.isNone || decide ((s.core p.core).ingress.length < 32))
      (if bad then s.dropProblem d 0x060C true else t))
  | none => only (d < 8) (.next s)

/-- LINK_TIMEOUT: a problem has stayed ACTIVE too long (R263). -/
def execLinkTimeout (d : Nat) (s : State) : Res :=
  match s.problem d with
  | some p => only (d < 8) (act s p.active.isSome (s.dropProblem d 0x060D false))
  | none => only (d < 8) (.next s)

end Sys2Proof.Machine
end

