-- ==== Sys2Proof/Machine/HostPorts.lean ====
section
/-!
DEFINITION. Host ports: link, configuration, BAR0 registers, mailbox, doorbells, command-store window and BAR2
(19_host_ports.md R407 to R426).
-/
namespace Sys2Proof.Machine

open Sys2Proof

/-! ## Clock enables (R398, R399) -/

/-- Is a core's clock enabled? -/
def State.coreOn (s : State) (c : Nat) : Bool := bitAt c (s.dnat 0x2010 1)

/-- Is a hart's clock enabled? -/
def State.hartOn (s : State) (h : Nat) : Bool := bitAt h (s.dnat 0x2010 2)

/-! ## BAR2 (R421) -/

/-- Where a BAR2 read of a piece within one line is served from: the active visible copy or the staging copy. -/
def State.bar2Source (s : State) (a len : Nat) : Option Nat :=
  s.job.placed.findSome? (fun p =>
    let b := p.bases.getD 0 0
    if p.r.kind = .output ∧ b ≤ a ∧ a + len ≤ b + p.r.size + 64 then
      some (p.bases.getD (1 + nget 0 s.outputs.active p.r.id) 0 + (a - b))
    else if p.r.kind = .input ∧ b ≤ a ∧ a + len ≤ b + p.r.size then some (p.bases.getD 1 0 + (a - b))
    else none)

/-- Is a local address within some copy of a region of the job? -/
def State.owned (s : State) (a : Nat) : Bool :=
  s.job.placed.any (fun p =>
    let len := if p.r.kind = .output then p.r.size + 64 else p.r.size
    p.bases.any (fun b => decide (b ≤ a) && decide (a < b + len)))

/-- The staging address of a piece that a host writes to an INPUT region. -/
def State.bar2Staging (s : State) (a len : Nat) : Option Nat :=
  s.job.placed.findSome? (fun p =>
    let b := p.bases.getD 0 0
    if p.r.kind = .input ∧ b ≤ a ∧ a + len ≤ b + p.r.size then some (p.bases.getD 1 0 + (a - b)) else none)

/-- Cut a request by line: address and length of each piece. -/
def linePieces : Nat → Nat → Nat → List (Nat × Nat)
  | 0, _, _ => []
  | fuel + 1, a, len =>
    if len = 0 then [] else
    let k := min len (128 - a % 128)
    (a, k) :: linePieces fuel (a + k) (len - k)

/-- Local address of a BAR2 offset. -/
def State.bar2Addr (s : State) (p off : Nat) : Nat := s.dnat (0xE100 + p) 4 + off

/-- A completer abort, or the data of a read. -/
def State.bar2Read (s : State) (p off len : Nat) (bad : Bool) : State :=
  let a := s.bar2Addr p off
  match (linePieces (len + 1) a len).mapM (fun x => (s.bar2Source x.1 x.2).map (fun b => (b, x.2))) with
  | none => s.put (.abort p)
  | some ps =>
    let t := ps.foldl (fun s x => s.countMem x.1 x.2 false) s
    let t := if oneSector a len then
        { t with hbm := { t.hbm with sectorReads := count 64 t.hbm.sectorReads 1 } } else t
    if bad then
      let t := match ps.head?.bind (fun x => s.channelOf x.1) with
        | some ch => t.stackParity ch
        | none => t
      (t.parityEvent (srcHost p) 1).put (.abort p)
    else t.put (.readData p ((ps.map (fun x => s.load x.1 x.2)).flatten))

/-- One piece of a write: stored in a staging copy, or noted as discarded. -/
def State.bar2Piece (s : State) (x : Nat × List Byte) : State × Option Nat × Bool :=
  match s.bar2Staging x.1 x.2.length with
  | some b =>
    let t := (s.storeAgent b x.2).countMem b x.2.length true
    ({ t with err := { t.err with staged := true } }, none, false)
  | none => if s.owned x.1 then (s, some x.1, false) else (s, none, true)

/-- The pieces of a write in turn: the state, the first address discarded and recorded, whether one was discarded and
counted. -/
def bar2Pieces : List (Nat × List Byte) → State → State × Option Nat × Bool
  | [], s => (s, none, false)
  | x :: xs, s =>
    let q := s.bar2Piece x
    let r := bar2Pieces xs q.1
    (r.1, q.2.1.orElse (fun _ => r.2.1), q.2.2 || r.2.2)

/-- A write: each piece under its own row; what is discarded is recorded or counted once for the request (R414). -/
def State.bar2Write (s : State) (p off : Nat) (bs : List Byte) : State :=
  let a := s.bar2Addr p off
  let ps := (linePieces (bs.length + 1) a bs.length).map (fun x => (x.1, slice bs (x.1 - a) x.2))
  let r := bar2Pieces ps s
  let t := if oneSector a bs.length && r.2.1.isNone && !r.2.2 then
      { r.1 with hbm := { r.1.hbm with sectorWrites := count 64 r.1.hbm.sectorWrites 1 } } else r.1
  let t := match r.2.1 with
    | some b => t.event 0x0903 (srcHost p) (b % 2 ^ 41)
    | none => t
  if r.2.2 then t.modHp p (fun h => { h with discarded := count 32 h.discarded 1 }) else t

/-- Serve one request. -/
def State.bar2Serve (s : State) (p : Nat) : Bar2Req → State
  | .read off len bad => s.bar2Read p off len bad
  | .write off bs => s.bar2Write p off bs

/-- Must BAR2 requests wait: before the wipe, during a job reset, behind others, and writes during commit action 4 (R29,
R242, R422)? -/
def State.bar2Waits (s : State) (p : Nat) (write : Bool) : Bool :=
  let act4 := match s.guy.commit with
    | .running a _ _ => a == 4
    | _ => false
  !s.hbm.wiped || s.pitch.resetting.isSome || !(s.hp p).held.isEmpty || (write && act4)

/-- Serve the held requests of a port. -/
def State.serveHeld (s : State) (p : Nat) : State :=
  (s.hp p).held.foldl (fun s r => s.bar2Serve p r) (s.modHp p (fun h => { h with held := [] }))

/-! ## What a port accepts -/

/-- Does a port accept memory requests: link up, and start-up over (R407, R409)? -/
def State.hostOpen (s : State) (p : Nat) : Bool :=
  !(s.hp p).inPerst && (s.hp p).link == .up && (s.start.phase == .ready || s.start.phase == .fault)

/-- A BAR request: unsupported in D3hot (R411). -/
def barRequest (s : State) (p : Nat) (t : State) : Res :=
  only (p < 2) (act s (s.hostOpen p) (if (s.hp p).d3hot then s.put (.unsupported p) else t))

/-- BAR2_READ: served from visible or staging copies or aborted (R27, R421). -/
def execBar2Read (p off len : Nat) (bad : Bool) (s : State) : Res :=
  if 0 < len ∧ off + len ≤ 2 ^ ((s.hp p).bar2Enc + 20) then
    barRequest s p (if s.bar2Waits p false then s.modHp p (fun h => { h with held := h.held ++ [.read off len bad] })
      else s.bar2Read p off len bad)
  else only (p < 2) (.next s)

/-- BAR2_WRITE: to a staging copy, or discarded (R29, R30, R421). -/
def execBar2Write (p off : Nat) (bytes : List Byte) (s : State) : Res :=
  if bytes ≠ [] ∧ off + bytes.length ≤ 2 ^ ((s.hp p).bar2Enc + 20) then
    barRequest s p (if s.bar2Waits p true then s.modHp p (fun h => { h with held := h.held ++ [.write off bytes] })
      else s.bar2Write p off bytes)
  else only (p < 2) (.next s)

/-! ## PERST and link (R407, R426) -/

/-- Free a lock: LOCK_EXPIRED with the area and its former owner (R425). -/
def State.freeLock (s : State) (l : AreaLock) : State :=
  let t := s.event 0x0901 (srcPath l.owner) (l.area % 256 + l.owner.code * 2 ^ 8)
  { t with dict := { t.dict with locks := t.dict.locks.filter (fun x => x.area != l.area) } }

/-- What PERST leaves of a port: its counters and the BAR2 writes that it has accepted. -/
def HostPort.perst (h : HostPort) : HostPort :=
  { inPerst := true, link := .down, lost := h.busy, busy := h.busy, reqBuf := h.reqBuf, rspBuf := h.rspBuf
    discarded := h.discarded, lostTransfers := h.lostTransfers, notifyDrops := h.notifyDrops
    perstCount := count 32 h.perstCount 1
    held := h.held.filter (fun r => match r with
      | .write _ _ => true
      | .read _ _ _ => false) }

/-- Is the image of a pitch being fetched through port `p`? -/
def State.fetching (s : State) (p : Nat) : Bool :=
  s.pitch.st == .accepted && !s.pitch.ownLoaded && !s.pitch.failSent && !s.ckpt.restoring
    && fieldAt (s.dval 0x9030 6) 0 1 == p

/-- PERST_ASSERT (R426). -/
def execPerstAssert (p : Nat) (s : State) : Res :=
  let path := pathOfPort p
  let t := (s.dict.locks.filter (fun l => l.owner == path)).foldl State.freeLock s
  let t := { t with dict := { t.dict with subs := t.dict.subs.filter (fun x => x.path != path) } }
  let t := t.modHp p HostPort.perst
  let t := if s.fetching p then
      ({ t with pitch := { t.pitch with failSent := true } } : State).pitchFail 0x06 s.myRank else t
  only (p < 2)
    (if (s.hp p).inPerst then .next s
     else if s.clocked then finish s t
     else finish s (s.modHp p (fun h => { h with inPerst := true })))

/-- PERST_DEASSERT: link training begins, once start-up step 3 has ended (R407). -/
def execPerstDeassert (p : Nat) (s : State) : Res :=
  only (p < 2)
    (if (s.hp p).inPerst then
      finish s (s.modHp p (fun h =>
        { h with inPerst := false, link := if 4 ≤ s.start.phase.stepNo then .training else .down }))
     else .next s)

/-- HOST_LINK_UP: training ends at a rate and a width of R411. -/
def execHostLinkUp (p rate width : Nat) (s : State) : Res :=
  only (p < 2 && [64, 32, 16, 8, 5, 2].contains rate && [16, 8, 4, 2, 1].contains width)
    (act s ((s.hp p).link == .training) (s.modHp p (fun h => { h with link := .up, rate := rate, width := width })))

/-! ## Configuration space (R411, R412, Table 19.1) -/

/-- The bytes of Table 19.1 at the offsets of a PCI Express type 0 header. -/
def cfgFixed (i : Nat) : Option Byte :=
  match i with
  | 0x00 => some 0x4E | 0x01 => some 0x1F | 0x02 => some 0x20 | 0x03 => some 0x50
  | 0x08 => some 0xA1 | 0x09 => some 0x00 | 0x0A => some 0x00 | 0x0B => some 0x12
  | 0x2C => some 0x4E | 0x2D => some 0x1F | 0x2E => some 0x20 | 0x2F => some 0x50
  | 0x10 => some 0x04 | 0x11 => some 0x00 | 0x12 => some 0x00 | 0x18 => some 0x0C
  | 0x20 => some 0x00 | 0x21 => some 0x00 | 0x22 => some 0x00 | 0x23 => some 0x00
  | 0x24 => some 0x00 | 0x25 => some 0x00 | 0x26 => some 0x00 | 0x27 => some 0x00
  | 0x30 => some 0x00 | 0x31 => some 0x00 | 0x32 => some 0x00 | 0x33 => some 0x00
  | _ => none

/-- The reset value of a byte of configuration space. -/
def cfgReset (p i : Nat) : Byte :=
  match cfgFixed i with
  | some b => b
  | none => if (0x13 ≤ i ∧ i ≤ 0x1F) then 0 else Config.configByte p i

/-- The bits of a byte that a host can write: BAR0 from 16 MiB on, BAR2 from its size on. -/
def cfgMask (enc i : Nat) : Byte :=
  if 0x13 ≤ i ∧ i ≤ 0x17 then 0xFF
  else if 0x18 ≤ i ∧ i ≤ 0x1F then BitVec.ofNat 8 ((2 ^ 64 - 2 ^ (enc + 20)) / 2 ^ (8 * (i - 0x18)))
  else match cfgFixed i with
    | some _ => 0
    | none => Config.configMask i

/-- A byte of configuration space; `cfg` holds what differs from reset. -/
def State.cfgByte (s : State) (p i : Nat) : Byte := cfgReset p i ^^^ readByte (s.hp p).cfg i

/-- Write a byte of configuration space. -/
def State.cfgWrite (p : Nat) (s : State) (x : Nat × Byte) : State :=
  let m := cfgMask (s.hp p).bar2Enc x.1
  let v := (s.cfgByte p x.1 &&& ~~~m) ||| (x.2 &&& m)
  s.modHp p (fun h => { h with cfg := writeByte h.cfg x.1 (v ^^^ cfgReset p x.1) })

/-- Send the pending MSI-X messages whose vector is no longer masked (R418). -/
def State.msixFlush (s : State) (p : Nat) : State :=
  let h := s.hp p
  if !h.msixEnable || h.msixMaskAll then s else
  (h.pba.map Prod.fst).foldl (fun s v =>
    if (s.hp p).masked v then s
    else (s.modHp p (fun h => { h with pba := nset false h.pba v false })).msix p v) s

/-- A configuration request that is served. -/
def State.configure (s : State) (p : Nat) : CfgReq → State
  | .read off len => s.put (.configData p ((List.range len).map (fun i => s.cfgByte p (off + i))))
  | .write off bs => (((List.range bs.length).zip bs).foldl (fun s e => State.cfgWrite p s (off + e.1, e.2)) s).put (.configDone p)
  | .power d3 => (s.modHp p (fun h => { h with d3hot := d3 })).put (.configDone p)
  | .bar2Size enc =>
    (if 10 ≤ enc ∧ enc ≤ 21 then s.modHp p (fun h => { h with bar2Enc := enc }) else s).put (.configDone p)
  | .msix en all => ((s.modHp p (fun h => { h with msixEnable := en, msixMaskAll := all })).put (.configDone p)).msixFlush p

/-- CONFIG_REQUEST: Retry Status until step 8 completes (R407). -/
def execConfigRequest (p : Nat) (req : CfgReq) (s : State) : Res :=
  only (p < 2) (act s (!(s.hp p).inPerst && (s.hp p).link == .up)
    (if s.start.phase = .ready ∨ s.start.phase = .fault then s.configure p req else s.put (.configRetry p)))

/-! ## The mailbox (R416) -/

/-- MBX_GO: the request is copied and queued for the dictionary service. -/
def State.mbxGo (s : State) (p len : Nat) : State :=
  if len < 16 ∨ 4096 < len then s
  else if (s.hp p).busy then s.modHp p (fun h => { h with overrun := true })
  else
    let r : DictReq := { path := pathOfPort p, msg := readBytes (s.hp p).reqBuf 0 len }
    let t := s.modHp p (fun h => { h with busy := true })
    { t with dict := { t.dict with queue := t.dict.queue ++ [r] } }

/-- MBX_GO (R416). -/
def execMbxGo (p len : Nat) (s : State) : Res := barRequest s p (s.mbxGo p len)

/-! ## Doorbells and the command-store window (R419, R420) -/

/-- A write to the doorbell of a hart; a gated hart's completes with a completer abort (R399, R414). -/
def State.hostDoorbell (s : State) (p h : Nat) : State := if s.hartOn h then s.msi h 2 else s.put (.abort p)

/-- HOST_DOORBELL (R419). -/
def execHostDoorbell (p h : Nat) (s : State) : Res := only (h < 128) (barRequest s p (s.hostDoorbell p h))

/-- A bank that takes bytes from a host: LOADING, its role identifier cleared (R88, Table 3.5). -/
def Bank.write (b : Bank) (off : Nat) (bs : List Byte) : Bank :=
  let old := b.bytes
  let raw := if b.cmds.isEmpty then b.raw else writeBytes [] 0 old
  { st := .loading, role := none, cmds := [], descs := [], raw := writeBytes raw off bs, len := max old.length (off + bs.length) }

/-- Does an access stay within a window of `size` bytes, within 512 bytes and within a 4 KiB page (R415)? -/
def windowOk (off len size : Nat) : Bool :=
  decide (0 < len) && decide (len ≤ 512) && decide (off % 4096 + len ≤ 4096) && decide (off + len ≤ size)

/-- An access to the selected bank through the command-store window. -/
def State.cswAccess (s : State) (p off : Nat) (acc : MemAcc) : State :=
  let c := (s.hp p).cswCore
  let k := s.core c
  let b := if (s.hp p).cswBank = 1 then k.bank1 else k.bank0
  match acc with
  | .read len =>
    if windowOk off len 131072 && s.coreOn c then
      s.put (.readData p ((List.range len).map (fun i => b.bytes.getD (off + i) 0)))
    else s.put (.abort p)
  | .write bs =>
    if windowOk off bs.length 131072 && s.coreOn c && !s.jobBusy && b.st != .active then
      s.modCore c (fun k => if (s.hp p).cswBank = 1 then { k with bank1 := k.bank1.write off bs }
        else { k with bank0 := k.bank0.write off bs })
    else s.put (.abort p)

/-- CSW_ACCESS (R420). -/
def execCswAccess (p off : Nat) (acc : MemAcc) (s : State) : Res := barRequest s p (s.cswAccess p off acc)

/-! ## BAR0 registers (R415, Tables 19.2 to 19.5) -/

/-- A register takes aligned accesses of 4 or 8 bytes. -/
def regAccess (off len : Nat) : Bool := (len == 4 && off % 4 == 0) || (len == 8 && off % 8 == 0)

/-- Bytes as the MSI-X table holds them: the mask bit of each Vector Control complemented. -/
def msixBytes : Nat → List Byte → List Byte
  | _, [] => []
  | i, b :: bs => (if i % 16 = 12 then b ^^^ 1 else b) :: msixBytes (i + 1) bs

/-- A write to a port register (Table 19.3). -/
def State.writeReg (s : State) (p off : Nat) (bs : List Byte) : State :=
  let v := leNat bs
  match off with
  | 0x008 => s.mbxGo p v
  | 0x010 => if bitAt 1 v then s.modHp p (fun h => { h with overrun := false }) else s
  | 0x020 => s.modHp p (fun h => { h with cons := BitVec.ofNat 32 v })
  | 0x028 => s.modHp p (fun h => { h with cswCore := bits 7 0 v, cswBank := bits 8 8 v })
  | _ => s

/-- A write to BAR0 by its offset. -/
def State.writeBar0 (s : State) (p off : Nat) (bs : List Byte) : State :=
  let n := bs.length
  if off < 0x1000 then if regAccess off n then s.writeReg p off bs else s.put (.abort p)
  else if off < 0x1400 then if regAccess off n then s.hostDoorbell p ((off - 0x1000) / 8) else s.put (.abort p)
  else if 0x2000 ≤ off ∧ off < 0x3000 then
    if windowOk (off - 0x2000) n 4096 then s.modHp p (fun h => { h with reqBuf := writeBytes h.reqBuf (off - 0x2000) bs })
    else s.put (.abort p)
  else if 0x3000 ≤ off ∧ off < 0x4000 then s.put (.abort p)
  else if 0x10000 ≤ off ∧ off < 0x20000 then s.put (.abort p)
  else if 0x20000 ≤ off ∧ off < 0x28000 then
    if regAccess off n then
      (s.modHp p (fun h => { h with msix := writeBytes h.msix (off - 0x20000) (msixBytes (off - 0x20000) bs) })).msixFlush p
    else s.put (.abort p)
  else if 0x28000 ≤ off ∧ off < 0x28100 then s.put (.abort p)
  else if 0x40000 ≤ off ∧ off < 0x60000 then s.cswAccess p (off - 0x40000) (.write bs)
  else if 0x400000 ≤ off ∧ off < 0x800000 then s.put (.abort p)
  else s

/-- BAR0_REGISTER_WRITE (R415). -/
def execBar0RegisterWrite (p off : Nat) (bytes : List Byte) (s : State) : Res :=
  barRequest s p (s.writeBar0 p off bytes)

/-- LEASE_EXPIRY: a lock whose lease has run out becomes free (R425). -/
def execLeaseExpiry (area : Nat) (s : State) : Res :=
  match s.dict.locks.find? (fun l => l.area == area) with
  | some l => act s (decide (l.renewed + 5000000000 ≤ s.ns)) (s.freeLock l)
  | none => .next s

end Sys2Proof.Machine
end

