-- ==== Sys2Proof/Machine/Power.lean ====
section
/-!
DEFINITION. Operating points, caps, the frequency counter, telemetry and operating seconds (18.3, 18.4, 24.3, 24.4,
21.8, 23.1).
-/
namespace Sys2Proof.Machine

open Sys2Proof

/-- A move of a cap: THROTTLE with old cap, new cap and die byte (R396, R488). -/
def State.throttle (s : State) (old new die : Nat) : State :=
  s.event 0x0103 srcPackage (old + new * 2 ^ 8 + die % 256 * 2 ^ 16)

/-- Move the thermal cap (R396). -/
def State.setThermalCap (s : State) (new die : Nat) : State :=
  if new = s.power.thermalCap then s else
  let t := s.throttle s.power.thermalCap new die
  ({ t with power := { t.power with thermalCap := new, throttles := count 32 t.power.throttles 1 } }).retarget

/-- Move the power cap; its die byte is 0xFF (R488). -/
def State.setPowerCap (s : State) (new : Nat) : State :=
  if new = s.power.powerCap then s else
  let t := s.throttle s.power.powerCap new 0xFF
  ({ t with power := { t.power with powerCap := new, capEvents := count 32 t.power.capEvents 1 } }).retarget

/-- THERMAL_HOT: a junction of a tensor or solver die is above 105 °C (R396). -/
def execThermalHot (die : Nat) (s : State) : Res :=
  only (die < 20) (act s (decide (die < 10))
    (let t := s.setThermalCap (min 7 (s.power.thermalCap + 1)) die
     { t with power := { t.power with hot := true } }))

/-- THERMAL_HOLD_TIMER: a further 100 µs above 105 °C (R396). -/
def execThermalHoldTimer (die : Nat) (s : State) : Res :=
  only (die < 20) (act s (decide (die < 10) && s.power.hot) (s.setThermalCap (min 7 (s.power.thermalCap + 1)) die))

/-- THERMAL_COOL_TIMER: every junction at 100 °C or below for 1 ms (R396); the spec names no die for this move. -/
def execThermalCoolTimer (s : State) : Res :=
  let t := if s.power.thermalCap = 0 then s
    else (s.setThermalCap (s.power.thermalCap - 1) (Config.coolDie s.free).toNat).taken
  act s true { t with power := { t.power with hot := false } }

/-- THERMTRIP: every clock stops and THERMTRIP_N goes low until PWRGOOD falls (R490). -/
def execThermtrip (s : State) : Res :=
  act s true (({ s with start := { s.start with phase := .tripped, thermtripLow := true } }).put (.thermtrip true))

/-- The limit that the power cap holds (R452, R488). -/
def State.powerLimit (s : State) : Nat := min (s.dnat 0x2120 1) (s.dnat 0x2120 3)

/-- POWER_COMPARISON: the mean of the last millisecond against the limit (R487, R488, Table 24.6). -/
def execPowerComparison (mean : Nat) (s : State) : Res :=
  let mean := mean % 2 ^ 16
  let s1 := { s with power := { s.power with measured := mean, peak := max s.power.peak mean } }
  let p := s.power
  let t :=
    if s.powerLimit < mean then
      { s1 with power := { s1.power with lowRuns := 0 } }.setPowerCap (min 7 (p.powerCap + 1))
    else if 100 * mean ≤ 95 * s.powerLimit then
      if 9 ≤ p.lowRuns then { s1 with power := { s1.power with lowRuns := 0 } }.setPowerCap (p.powerCap - 1)
      else { s1 with power := { s1.power with lowRuns := p.lowRuns + 1 } }
    else { s1 with power := { s1.power with lowRuns := 0 } }
  act s (decide (3 ≤ s.start.phase.stepNo)) t

/-- OVERCURRENT: the power cap goes to P7 at once (R488). -/
def execOvercurrent (s : State) : Res := act s (decide (3 ≤ s.start.phase.stepNo)) (s.setPowerCap 7)

/-- VOLTAGE_REACHED: the ramp is over and the frequency of the effective point may run (R394). -/
def execVoltageReached (s : State) : Res :=
  let p := s.power
  let v := p.rampTo.getD p.volt
  let f := if v ≤ s.effectivePoint then s.effectivePoint else p.freq
  act s p.rampTo.isSome
    { s with power := { p with volt := v, rampTo := none, freq := f
                               counter := if f = p.freq then p.counter else { p.counter with switched := true } } }

/-! ## The frequency counter (R397) -/

/-- Is a clock code assigned (Table 18.4)? -/
def clockCode (c : Nat) : Bool :=
  c ≤ 2 || (0x10 ≤ c && c ≤ 0x19) || (0x20 ≤ c && c ≤ 0x29) || (0x30 ≤ c && c ≤ 0x43) || (0x48 ≤ c && c ≤ 0x4B)

/-- The frequency of a clock in kHz (Tables 18.2, 18.3). -/
def State.clockKhz (s : State) (c : Nat) : Nat :=
  if c = 0 then 100000 else if c = 1 then 1000000 else if c = 2 then 400000
  else if c < 0x20 then (opTable.getD s.power.freq (0, 0)).1 * 1000
  else if c < 0x28 then 1600000 else if c < 0x30 then 1562500 else if c < 0x48 then 2000000 else 1000000

/-- Is a clock gated (R397, R398)? -/
def State.clockGated (s : State) (c : Nat) : Bool :=
  let blocks := s.dnat 0x2010 3
  if 0x10 ≤ c ∧ c ≤ 0x17 then fieldAt (s.dval 0x2010 1) (4 * (c - 0x10)) 4 == 0 && !bitAt (16 + (c - 0x10)) blocks
  else if c = 0x18 ∨ c = 0x19 then fieldAt (s.dval 0x2010 2) (8 * (c - 0x18)) 8 == 0
  else if c = 0x4A ∨ c = 0x4B then !bitAt (24 + (c - 0x4A)) blocks else false

/-- May a window give this count: within 1 of target × Window ÷ reference, unless a switch fell into it (R397)? -/
def State.countPossible (s : State) (edges : Nat) : Bool :=
  let k := s.power.counter
  k.switched || (decide (edges * s.clockKhz k.reference ≤ s.clockKhz k.target * k.window + s.clockKhz k.reference)
    && decide (s.clockKhz k.target * k.window ≤ edges * s.clockKhz k.reference + s.clockKhz k.reference))

/-- A measurement begins, abandoning one in progress (R397). -/
def State.startCounter (s : State) : State :=
  let sel := s.dnat 0x2020 1
  { s with power := { s.power with counter := { s.power.counter with
      st := 1, target := bits 7 0 sel, reference := bits 15 8 sel, window := s.dnat 0x2020 2, switched := false } } }

/-- FREQ_WINDOW_END: the count is the result; a gated target counts no edges (R397). -/
def execFreqWindowEnd (edges : Nat) (s : State) : Res :=
  let k := s.power.counter
  let r := if s.clockGated k.target then 0 else edges
  act s (k.st == 1 && (s.clockGated k.target || s.countPossible edges))
    { s with power := { s.power with counter := { k with st := 2, result := min r (2 ^ 64 - 1) } } }

/-! ## Telemetry (R456, R229, R474) -/

/-- The higher of two readings in 1/16 °C (R456). -/
def hotter (a b : Nat) : Nat := if sext 16 a < sext 16 b then b else a

/-- TELEMETRY_UPDATE: temperatures, peaks and failed sensors (R456). -/
def execTelemetryUpdate (dies hbm : List Nat) (s : State) : Res :=
  let p := s.power
  let d := dies.map (fun x => x % 65536)
  let t := hbm.map (fun x => x % 65536)
  only (dies.length == 20 && hbm.length == 32) (act s true
    { s with power := { p with dieTemp := d, stackTemp := t
                               diePeak := List.zipWith hotter p.diePeak d, stackPeak := List.zipWith hotter p.stackPeak t
                               sensorFaults := count 32 p.sensorFaults ((d ++ t).filter (fun x => x == 0x7FFF)).length } })

/-- Add what each stack has corrected (R229). -/
def addEcc : Nat → List Nat → State → State
  | _, [], s => s
  | t, n :: ns, s => addEcc (t + 1) ns (s.modStack t (fun x => { x with ecc := count 64 x.ecc n }))

/-- ECC_SAMPLE: the stacks' own correction counts (R229). -/
def execEccSample (counts : List Nat) (s : State) : Res :=
  only (counts.length == 32) (act s s.hbm.trained (addEcc 0 counts s))

/-- OPSECONDS_TICK: a second of powered time; every 60 s MRAM keeps the count (R474). -/
def execOpsecondsTick (s : State) : Res :=
  let n := s.recorder.opsec + 1
  act s true { s with recorder := { s.recorder with opsec := n }
                      mram := if n % 60 = 0 then { s.mram with opSeconds := n } else s.mram }

end Sys2Proof.Machine
end

