-- ==== Sys2Proof/Machine/Links.lean ====
section
/-!
DEFINITION. Die-to-die links, fabric port coding and retry, port identity, transit and the table state machine
(11_fabric.md R265 to R284).
-/
namespace Sys2Proof.Machine

open Sys2Proof

/-! ## Die-to-die links (R265, Table 1.2) -/

/-- The half of the package that a die lies in; dies are numbered TD0–TD7, SD0–SD1, MD0–MD7, GD0–GD1. -/
def dieHalf (d : Nat) : Nat :=
  if d < 8 then d / 4 else if d < 10 then d - 8 else if d < 18 then (d - 10) / 4 else d - 18

/-- Is there a direct link from a lower die to a higher one (Table 1.2)? -/
def linkUp (a b : Nat) : Bool :=
  let same := dieHalf a == dieHalf b
  if a < 8 then b == a + 10 || (same && (b == 8 || b == 9 || b == 18 || b == 19))
  else if a < 10 then (a == 8 && b == 9) || (same && 10 ≤ b && b < 20)
  else if a < 18 then (b < 18 && (b == a + 1 || (a == 10 && b == 17))) || (same && 18 ≤ b && b < 20)
  else a == 18 && b == 19

/-- Does the package have a link between two dies? (R12). -/
def d2dExists (a b : Nat) : Bool := decide (a < 20) && decide (b < 20) && (if a < b then linkUp a b else decide (b < a) && linkUp b a)

/-- One direction of a link, from die `a` to die `b`. -/
def State.d2d (s : State) (a b : Nat) : D2dLink := nget {} s.fab.d2d (32 * a + b)

/-- Put a direction of a link. -/
def State.putD2d (s : State) (a b : Nat) (l : D2dLink) : State :=
  s.modFab (fun f => { f with d2d := nset {} f.d2d (32 * a + b) l })

/-- A flit NAKed beyond the limit: the link fails, a job-level error (R265). -/
def State.d2dFail (s : State) (a b : Nat) (l : D2dLink) (naks : Nat) : State :=
  (s.putD2d a b { l with failed := true }).reportJob 0x0301 (srcD2d (min a b) (max a b)) (naks % 256) noCore

/-- D2D_FLIT_RECEIVE: an expected flit with good parity is taken; a bad one and every later one are discarded and a
NAK names it (R265). -/
def execD2dFlitReceive (a b num : Nat) (parityOk : Bool) (s : State) : Res :=
  let l := s.d2d a b
  let t :=
    if parityOk then
      if num = l.rxNext then s.putD2d a b { l with rxNext := l.rxNext + 1, rxHold := false, rxRun := 0, resend := none } else s
    else if l.rxHold && num != l.rxNext then s
    else if num = l.rxNext then
      let l := { l with rxHold := true, rxRun := l.rxRun + 1 }
      let t := (s.putD2d a b l).put (.d2dNak a b num)
      if s.dnat 0x4210 3 < l.rxRun then t.d2dFail a b l l.rxRun else t
    else s
  only (d2dExists a b) (act s (!l.failed) t)

/-- D2D_NAK: the sender resends from the named flit (R265). -/
def execD2dNak (a b num : Nat) (s : State) : Res :=
  let l := s.d2d a b
  let run := if num = l.nakNum ∧ 0 < l.nakRun then l.nakRun + 1 else 1
  let l2 := { l with nakNum := num, nakRun := run, resend := some num }
  only (d2dExists a b) (act s (!l.failed)
    (if s.dnat 0x4210 3 < run then s.d2dFail a b l2 run else s.putD2d a b l2))

/-! ## Ports: training and failure (Table 11.6, R284) -/

/-- May a port train: enabled by `FPort.AdminEnable` and by its clock, and wired (Table 11.6, R399)? -/
def State.mayTrain (s : State) (p : Nat) : Bool :=
  s.dnat (0x4300 + p) 1 == 1 && bits 15 0 (s.fab.portMap.getD p 0xFFFF) != 0xFFFF && bitAt p (s.dnat 0x2010 5)

/-- Training starts from DOWN; the map entry of this training is the one now held (R275). -/
def State.tryTrain (s : State) (p : Nat) : State :=
  if (s.fport p).st == .down && !(s.fport p).retrain && s.mayTrain p then
    s.modPort p (fun q => { q with st := .training, trained := s.fab.portMap.getD p 0xFFFF })
  else s

/-- Insert a packet by SEQ. -/
def insertSeq (e : Nat × Packet) : List (Nat × Packet) → List (Nat × Packet)
  | [] => [e]
  | x :: xs => if e.2.seq < x.2.seq then e :: x :: xs else x :: insertSeq e xs

/-- Packets in the order of a failover: TC2 and TC3 as they come, TC0 and TC1 by SEQ (R284). -/
def failoverOrder (l : List (Nat × Packet)) : List (Nat × Packet) :=
  l.filter (fun e => 2 ≤ e.2.tc) ++ (l.filter (fun e => e.2.tc < 2)).foldr insertSeq []

/-- What a port that goes DOWN gives back: its replay buffer, its lanes, the tracker entries sent through it (R284). -/
def State.failover (s : State) (p : Nat) : State :=
  let q := s.fport p
  let held := q.replay.map (fun e => (e.lane, e.pkt))
    ++ (List.range 8).flatMap (fun l => (q.lanes.getD l []).map (fun k => (l, k)))
  let out := s.fab.track.filter (fun t => t.port == some p)
  let again := out.filter (fun t => !held.any (fun e => { e.2 with path := t.pkt.path } == t.pkt))
  let cnt (g : Nat) : Nat := (out.filter (fun t => t.gd == g)).length
  let s := s.modFab (fun b =>
    { b with ports := nmod {} b.ports p (fun q => { q with replay := [], lanes := List.replicate 8 [] })
             track := b.track.map (fun t => if t.port == some p then { t with port := none } else t)
             trackStats := (b.trackStats.modify 0 (fun t => { t with reissues := count 64 t.reissues (cnt 0) })).modify 1
               (fun t => { t with reissues := count 64 t.reissues (cnt 1) }) })
  (failoverOrder (held ++ again.map (fun t => (2 * t.pkt.tc, t.pkt)))).foldl (fun s e => s.route e.1 e.2 none) s

/-- An UP port goes DOWN: event, failover; after a failure it waits for its retrain delay (Table 11.6). -/
def State.portDown (s : State) (p cause : Nat) : State :=
  let s := s.event 0x0305 (srcPort p) cause
  let s := s.modPort p (fun q =>
    { q with st := .down, joined := false, retrain := cause != 3
             stats := { q.stats with downEvents := count 32 q.stats.downEvents 1 } })
  s.failover p

/-- A link that comes up numbers its codewords afresh and holds full credit (R267, R273). -/
def Port.fresh (q : Port) : Port :=
  { q with txFlit := 0, acked := 0, rxCur := 0, nakCw := 0, nakRun := 0, rxNext := 0, rxHold := false, credit := laneCredit }

/-- FEC_LOCK: identity frames are exchanged (R276). -/
def execFecLock (p : Nat) (s : State) : Res :=
  only (p < 24) (act s ((s.fport p).st == .training)
    ((s.modPort p (fun q => { q with st := .idcheck })).put (.identity p s.fab.tabs.own p)))

/-- PORT_TRAIN_TIMEOUT: DOWN until the retrain delay is over (Table 11.6). -/
def execPortTrainTimeout (p : Nat) (s : State) : Res :=
  only (p < 24) (act s ((s.fport p).st == .training)
    ((s.event 0x0302 (srcPort p) 0).modPort p (fun q => { q with st := .down, retrain := true })))

/-- A mismatch: HELD, with the far position and port last received (R276). -/
def State.holdPort (s : State) (p : Nat) : State :=
  (s.event 0x0304 (srcPort p) (bits 20 0 (s.fport p).farId)).modPort p (fun q => { q with st := .held })

/-- IDENTITY_FRAME: UP where both ends report what their maps expect (R276). -/
def execIdentityFrame (p pos farPort : Nat) (farAgrees : Bool) (roundTrip : Nat) (s : State) : Res :=
  let id := pos % 65536 + farPort % 32 * 65536
  let s1 := s.modPort p (fun q => { q with farId := id })
  let t :=
    if bits 20 0 (s.fport p).trained = id ∧ farAgrees then
      ((s1.event 0x0303 (srcPort p) (roundTrip % 2 ^ 32)).modPort p (fun q =>
        { q.fresh with st := .up, joined := !s.jobBusy, roundTrip := roundTrip % 2 ^ 32 })).retryWaiting
    else s1.holdPort p
  only (p < 24) (act s ((s.fport p).st == .idcheck) t)

/-- IDENTITY_TIMEOUT: no frame within 1 ms (Table 11.6). -/
def execIdentityTimeout (p : Nat) (s : State) : Res :=
  only (p < 24) (act s ((s.fport p).st == .idcheck) (s.holdPort p))

/-- RETRAIN_DELAY_EXPIRY: a failed port trains again (Table 11.6). -/
def execRetrainDelayExpiry (p : Nat) (s : State) : Res :=
  only (p < 24) (act s ((s.fport p).st == .down && (s.fport p).retrain)
    ((s.modPort p (fun q => { q with retrain := false })).tryTrain p))

/-- LOSS_OF_SIGNAL: an UP port goes DOWN with failover (Table 11.6, R284). -/
def execLossOfSignal (p : Nat) (s : State) : Res :=
  only (p < 24) (act s ((s.fport p).st == .up) (s.portDown p 2))

/-- A write of `FPort.AdminEnable` (Table 11.6); the value has been stored. -/
def State.adminChanged (s : State) (p : Nat) : State :=
  if s.dnat (0x4300 + p) 1 = 1 then s.tryTrain p
  else match (s.fport p).st with
    | .up => s.portDown p 3
    | .down => s.modPort p (fun q => { q with retrain := false })
    | _ => s.modPort p (fun q => { q with st := .down, retrain := false })

/-- A write of `DomainMap.PortMap` (R275): a HELD port whose entry changes goes DOWN and may train again. -/
def State.putPortMap (s : State) (m : List Nat) : State :=
  let old := s.fab.portMap
  (List.range 24).foldl (fun s p =>
    if old.getD p 0 = m.getD p 0 then s
    else
      let s := if (s.fport p).st == .held then s.modPort p (fun q => { q with st := .down, retrain := false }) else s
      s.tryTrain p) (s.modFab (fun b => { b with portMap := m }))

/-! ## Codewords (R266 to R269) -/

/-- The running number that a 12-bit number stands for, from `base` on. -/
def running (base num : Nat) : Nat := base + (num + 4096 - base % 4096) % 4096

/-- An ACK frees every codeword up to its number (R268). -/
def State.linkAck (s : State) (p num : Nat) : State :=
  let q := s.fport p
  let n := running q.acked (num + 1)
  if n ≤ q.txFlit / 10 then
    (s.modPort p (fun q => { q with acked := n, replay := q.replay.filter (fun e => n ≤ e.cw)
                                    nakRun := if q.nakCw < n then 0 else q.nakRun })).pump p
  else s

/-- A NAK resends from its codeword and counts a retry; beyond the limit the port goes DOWN (R268). -/
def State.linkNak (s : State) (p num : Nat) : State :=
  let q := s.fport p
  let n := running q.acked num
  if n < q.txFlit / 10 then
    let run := if n = q.nakCw ∧ 0 < q.nakRun then q.nakRun + 1 else 1
    let s := s.modPort p (fun q => { q with nakCw := n, nakRun := run
                                            stats := { q.stats with retries := count 64 q.stats.retries 1 } })
    if s.dnat 0x4210 2 < run then s.portDown p 1 else s.put (.linkWord p 0 (n % 4096))
  else s

/-- Credit comes back to a lane (R273). -/
def State.linkCredit (s : State) (p lane flits : Nat) : State :=
  (s.modPort p (fun q =>
    { q with credit := setAt q.credit lane (min (laneCredit.getD lane 0) (q.credit.getD lane 0 + flits)) })).pump p

/-- Take a link word (Table 11.2). -/
def State.takeLink (s : State) (p : Nat) : LinkWord → State
  | .idle => s
  | .seq _ => s
  | .ack n => s.linkAck p n
  | .nak n => s.linkNak p n
  | .credit l f => s.linkCredit p l f

/-- Packets of an accepted codeword go to the gateway; a packet that meets DRAINED tables makes them DRAINING again
(Table 11.9). -/
def State.rxPackets (s : State) (p : Nat) (pkts : List WirePacket) : State :=
  let s := pkts.foldl (fun s w =>
    let s := s.modPort p (fun q =>
      ({ q with stats := { q.stats with flitsRx := count 64 q.stats.flitsRx w.pkt.flits
                                        bytesRx := count 64 q.stats.bytesRx w.pkt.payload.length } }).sample
        (s.dnat 0x4210 6) s.now w.pkt 1)
    s.modFab (fun b => { b with rx := b.rx ++ [({ port := p, lane := w.lane % 8, pkt := w.pkt, time := s.now } : RxPkt)] })) s
  if pkts.isEmpty then s else s.modFab (fun b => { b with tabSt := if b.tabSt = .drained then .draining else b.tabSt })

/-- The receiver NAKs the first codeword that it does not accept and waits for the resend (R268). -/
def State.nakCodeword (s : State) (p : Nat) : State :=
  if (s.fport p).rxHold then s
  else (s.modPort p (fun q => { q with rxHold := true })).put (.linkWord p 2 ((s.fport p).rxNext % 4096))

/-- CODEWORD_RECEIVE: an RS codeword is decoded, accepted or NAKed, and its link word is taken (R266 to R268). -/
def execCodewordReceive (p errs : Nat) (link : LinkWord) (pkts : List WirePacket) (s : State) : Res :=
  let q := s.fport p
  let badCrc := (pkts.filter (fun w => w.crc != crc32c w.pkt.bytes)).length
  let t :=
    if 15 < errs then
      (s.modPort p (fun q => { q with rxCur := (q.rxCur + 1) % 4096
                                      stats := { q.stats with fecUncorrected := count 64 q.stats.fecUncorrected 1 } })).nakCodeword p
    else
      let num := match link with
        | .seq n => n % 4096
        | _ => q.rxCur
      let s := s.modPort p (fun q => { q with rxCur := (num + 1) % 4096
                                              stats := { q.stats with fecCorrected := count 64 q.stats.fecCorrected errs } })
      let s :=
        if num ≠ q.rxNext % 4096 then
          if (num + 4096 - q.rxNext % 4096) % 4096 < 2048 then s.nakCodeword p else s
        else if 0 < badCrc then
          (s.modPort p (fun q => { q with stats := { q.stats with crcErrors := count 64 q.stats.crcErrors badCrc
                                                                  malformed := count 32 q.stats.malformed badCrc } })).nakCodeword p
        else
          ((s.modPort p (fun q => { q with rxNext := q.rxNext + 1, rxHold := false })).rxPackets p pkts).put
            (.linkWord p 1 num)
      s.takeLink p link
  only (p < 24) (act s (q.st == .up) t)

/-- LINK_ACK (R268, R269). -/
def execLinkAck (p num : Nat) (s : State) : Res :=
  only (p < 24) (act s ((s.fport p).st == .up) (s.linkAck p (num % 4096)))

/-- LINK_NAK (R268). -/
def execLinkNak (p num : Nat) (s : State) : Res :=
  only (p < 24) (act s ((s.fport p).st == .up) (s.linkNak p (num % 4096)))

/-- LINK_CREDIT (R273). -/
def execLinkCredit (p lane flits : Nat) (s : State) : Res :=
  only (p < 24 && lane < 8) (act s ((s.fport p).st == .up) (s.linkCredit p lane flits))

/-! ## Transit (R271, R279, R280, R305) -/

/-- A TIMESYNC packet takes its residence time into CORR as it is forwarded (R305). -/
def residence (k : Packet) (dt : Nat) : Packet :=
  if k.kind = kTSYNC then
    { k with arg := k.arg % 2 ^ 16 + (bits 47 16 k.arg + dt) % 2 ^ 32 * 2 ^ 16 + k.arg / 2 ^ 48 * 2 ^ 48 }
  else k

/-- Does the home's full line queue hold back the TC1 packets of a port (R296)? -/
def State.heldBack (s : State) (k : Packet) : Bool := k.tc == 1 && decide (4096 ≤ s.fab.lineQ.length)

/-- TRANSIT_PACKET: a packet at a gateway is checked, then delivered here or forwarded; its buffer's credit returns
(R271, R273, R279, R280). -/
def execTransitPacket (p lane : Nat) (pkt : Packet) (s : State) : Res :=
  let hit (e : RxPkt) : Bool := e.port == p && e.lane == lane && e.pkt == pkt
  let t := match s.fab.rx.findIdx? hit with
    | none => s
    | some i =>
      let came := (s.fab.rx.map RxPkt.time).getD i 0
      let s := (s.modFab (fun b => { b with rx := b.rx.eraseIdx i })).put (.linkWord p 3 (lane * 512 + pkt.flits))
      if !pkt.wellFormed then
        s.modPort p (fun q => { q with stats := { q.stats with malformed := count 32 q.stats.malformed 1 } })
      else if bitAt 33 (nget 0 s.fab.tabs.route pkt.dstRank) || (s.job.held && pkt.dstRank == s.job.rank) then
        s.modFab (fun b => { b with localIn := b.localIn ++ [({ port := p, lane := lane, pkt := pkt, time := came } : RxPkt)] })
      else s.route lane (residence pkt (s.now - came)) none
  only (p < 24 && lane < 8) (act s (!s.heldBack pkt) t)

/-! ## Tables (R277, R278, R281) -/

/-- Are every lane, every gateway queue and both trackers empty (Table 11.9)? -/
def State.fabricEmpty (s : State) : Bool :=
  s.fab.ports.all (fun e => e.2.lanes.all List.isEmpty) && s.fab.rx.isEmpty && s.fab.localIn.isEmpty
  && s.fab.waiting.isEmpty && s.fab.track.isEmpty

/-- TABLES_DRAINED: the shadows are loaded from the active tables (Table 11.9). -/
def execTablesDrained (s : State) : Res :=
  act s (s.fab.tabSt == .draining && s.fabricEmpty) (s.modFab (fun b => { b with tabSt := .drained, shadow := b.tabs }))

/-- No member of a list twice. -/
def noRepeat : List Nat → Bool
  | [] => true
  | x :: xs => !xs.contains x && noRepeat xs

/-- The checks of an APPLY (R278). -/
def Tables.applyOk (t : Tables) : Bool :=
  let ranks := t.ranks
  let own := ranks.filter (fun r => t.pegOf r == t.own)
  own.length == 1 && noRepeat (ranks.map t.pegOf)
  && ranks.all (fun r => bitAt 33 (nget 0 t.route r) == own.contains r)
  && (t.route.filter (fun e => e.1 < 512)).all (fun e =>
    let ps := (psMembers e.2).map (fun m => m.2.1)
    ps.all (fun p => decide (p < 24)) && noRepeat ps)

/-- DRAIN (Table 11.9). -/
def State.drainTables (s : State) : State := s.modFab (fun b => { b with tabSt := .draining })

/-- APPLY: the shadows become active (Table 11.9). -/
def State.applyTables (s : State) : State :=
  (s.modFab (fun b => { b with tabSt := .active, tabs := b.shadow, generation := count 32 b.generation 1 })).retryWaiting

/-- CANCEL: the shadows are discarded (Table 11.9). -/
def State.cancelTables (s : State) : State := s.modFab (fun b => { b with tabSt := .active, shadow := {} })

end Sys2Proof.Machine
end

