-- ==== Sys2Proof/Machine/Stations.lean ====
section
/-!
DEFINITION. Conversion stations: submission, contexts, narrowing, widening, generation and completion
(08_field_exchange.md R206 to R217, R226).
-/
namespace Sys2Proof.Machine

open Sys2Proof

/-- The conversion descriptor of a number. -/
def State.convDesc (s : State) (i : Nat) : ConvDesc :=
  convDescOf (match s.job.image with
    | some im => im.conv.getD i 0
    | none => 0)

/-- A context of a station. -/
def State.convCtx (s : State) (n id : Nat) : Option ConvCtx := (s.station n).ctxs.find? (fun x => x.id == id)

/-- Change a context. -/
def State.modCtx (s : State) (n id : Nat) (f : ConvCtx → ConvCtx) : State :=
  s.modStation n (fun st => { st with ctxs := st.ctxs.map (fun x => if x.id = id then f x else x) })

/-- Free a context. -/
def State.freeCtx (s : State) (n id : Nat) : State :=
  s.modStation n (fun st => { st with ctxs := st.ctxs.filter (fun x => x.id != id) })

/-- A descriptor stops with a step-level error and frees its context (Table 8.2). -/
def State.convError (s : State) (n id code desc : Nat) : State :=
  (s.freeCtx n id).reportStep code (srcStation n) desc noCore

/-- Room in a core's ingress buffer (R80). -/
def State.room (s : State) (c : Nat) : Nat := 32 - (s.core c).ingress.length

/-- Send one delivery of a context (R212). -/
def State.convSend (s : State) (n id c addr repoch : Nat) (bs : List Byte) (flag cnt : Option Nat) : State :=
  let t : Transfer :=
    { sender := .station n id, epoch := s.epoch, repoch := repoch, addr := addr, bytes := bs, flag := flag, cnt := cnt }
  match s.ingress c t with
  | some s2 => if bs.isEmpty then s2.modCtx n id (fun x => { x with flagOut := true })
               else s2.modCtx n id (fun x => { x with out := x.out ++ [c] })
  | none => s

/-- Flag and count of a descriptor. -/
def ConvDesc.flag? (d : ConvDesc) : Option Nat := if d.flagEn then some d.flag else none
def ConvDesc.cnt? (d : ConvDesc) : Option Nat := if d.cntEn then some d.cnt else none

/-- Flags go to the cores in ascending order once every delivery of a core has been answered; a core that answered STALE
gets none (R212). -/
def convFlags (n id : Nat) (d : ConvDesc) : Nat → State → State
  | 0, s => s
  | k + 1, s =>
    match s.convCtx n id with
    | none => s
    | some x =>
      let c := d.core0 + x.flagged
      if d.ncore ≤ x.flagged ∨ x.flagOut ∨ x.row < min d.rows ((x.flagged + 1) * d.rpc) ∨ x.out.contains c then s
      else if x.stale.contains c ∨ (!d.flagEn && !d.cntEn) then
        convFlags n id d k (s.modCtx n id (fun x => { x with flagged := x.flagged + 1 }))
      else if s.room c = 0 then s
      else
        convFlags n id d k ((s.convSend n id c 0 d.repoch [] d.flag? d.cnt?).modCtx n id
          (fun x => { x with flagged := x.flagged + 1 }))

/-- A binary64 element after the affine step (R210, R215). -/
def affineStep (d : ConvDesc) (aff : List Byte) (ch x : Nat) : Nat :=
  if d.aff then affine x (fieldAt aff (16 * ch) 8) (fieldAt aff (16 * ch + 8) 8) else x

/-- Row `r` of a NARROW descriptor: its packed bytes and its scales (R210, R211, R213). -/
def State.narrowBytes (s : State) (d : ConvDesc) (idx : Nat) (aff : List Byte) (r : Nat) : List Byte × List Byte :=
  let w := fmtBits d.sfmt / 8
  let a := s.copyBase d.region 0 + d.roff + r * d.rstride
  narrowRow d.dfmt d.mx ((List.range d.ch).map (fun ch =>
    let raw := leNat (s.load (a + ch * w) w)
    let x := affineStep d aff ch (if d.sfmt = 0 then raw else widen64 (decode 1 raw))
    (decode 0 x, if d.rnd = 0 then Narrow.nearest
      else Narrow.draw (genDraw ⟨s.job.seed, s.job.rank, s.job.step⟩ 1 0x1FF idx (r * d.ch + ch)))))

/-- Row `r` of a GENERATE descriptor (R217). -/
def State.drawBytes (s : State) (d : ConvDesc) (r : Nat) : List Byte :=
  (List.range d.ch).flatMap (fun ch =>
    leBytes 4 (genDraw ⟨s.job.seed, s.job.rank, s.job.step⟩ 2 0x1FF d.stream (r * d.ch + ch)))

/-- Deliver rows while the ingress buffers have room (R212). -/
def deliverRows (n id : Nat) (d : ConvDesc) : Nat → State → State
  | 0, s => s
  | k + 1, s =>
    match s.convCtx n id with
    | none => s
    | some x =>
      let s := convFlags n id d d.ncore s
      let r := x.row
      let c := d.core0 + r / d.rpc
      if d.rows ≤ r ∨ s.room c < (if d.mx then 2 else 1) then s
      else
        let rc := r % d.rpc
        let o := if d.op = .generate then (s.drawBytes d r, []) else s.narrowBytes d x.item.desc x.aff r
        let s := if d.op = .generate then s
          else s.countLines (s.copyBase d.region 0 + d.roff + r * d.rstride) false (d.ch / 16 + 2) (d.ch * (fmtBits d.sfmt / 8))
        let s := s.convSend n id c (d.saddr + rc * d.sstride) d.repoch o.1 none none
        let s := if d.mx then s.convSend n id c (d.scaddr + rc * d.scstride) d.repoch o.2 none none else s
        deliverRows n id d k (s.modCtx n id (fun x => { x with row := x.row + 1 }))

/-- Write row `r` of a WIDEN descriptor, given its binary64 elements (R215). -/
def State.widenWrite (s : State) (d : ConvDesc) (aff : List Byte) (pair : Bool) (r : Nat) (xs : List Nat) : State :=
  let a := s.copyBase d.region 0 + d.roff + r * d.rstride
  let bs := (xs.mapIdx (fun ch x => widenOut d.dfmt (d.aff || pair) (affineStep d aff ch x))).flatMap
    (leBytes (fmtBits d.dfmt / 8))
  (s.storeAgent a bs).countLines a true (bs.length / 128 + 2) bs.length

/-- The binary64 elements of row `r` in scratch (R214, R215). -/
def State.widenRead (s : State) (d : ConvDesc) (r : Nat) : List Nat :=
  let c := d.core0 + r / d.rpc
  let rc := r % d.rpc
  let m := (s.core c).scratch
  (unpackRow d.sfmt d.ch (readBytes m (sAddr (d.saddr + rc * d.sstride)) (rowBytes d.sfmt d.ch))).mapIdx (fun ch x =>
    widen64 (decodeMx d.sfmt
      (if d.mx then some (readByte m (sAddr (d.scaddr + rc * d.scstride + ch / 32))).toNat else none) x))

/-- Widen every row from scratch. -/
def State.widenRows (s : State) (n id : Nat) (d : ConvDesc) : State :=
  match s.convCtx n id with
  | none => s
  | some x =>
    ((List.range d.rows).foldl (fun s r => s.widenWrite d x.aff false r (s.widenRead d r)) s).modCtx n id
      (fun x => { x with row := d.rows })

/-- Does a tile's form match the descriptor (R209, R214)? -/
def ConvDesc.tileOk (d : ConvDesc) (t : Tile) : Bool :=
  match t.form with
  | .fp32 => d.sfmt == 1 && !d.spair
  | .pair => d.sfmt == 1 && d.spair
  | .f64s => d.sfmt == 0 && d.spair

/-- The binary64 elements of row `i` of a tile (R214, R215). -/
def tileElems (t : Tile) (i : Nat) : List Nat :=
  let hi := t.hi.getD i []
  match t.form with
  | .fp32 => hi.map (fun x => widen64 (decode 1 x))
  | .pair => hi.mapIdx (fun j x => floorTo 0 ((decode 1 x).add (decode 1 ((t.lo.getD i []).getD j 0))))
  | .f64s => hi.mapIdx (fun j x => floorTo 0 ((decode 0 x).add (decode 0 ((t.lo.getD i []).getD j 0))))

/-- Consume the vestibule tiles of a VEST descriptor; with the last row its DMCONV retires (R82, R214, Table 6.12). -/
def widenTiles (n id : Nat) (d : ConvDesc) : Nat → State → State
  | 0, s => s
  | k + 1, s =>
    match s.convCtx n id with
    | none => s
    | some x =>
      let c := x.item.core
      match (if x.row < d.rows then (s.core c).vest else []) with
      | t :: rest =>
        if !t.toDm then s
        else if !d.tileOk t then s.convError n id 0x060B x.item.desc
        else
          let s := s.modCore c (fun k => { k with vest := rest })
          let s := (List.range 64).foldl (fun s i => s.widenWrite d x.aff d.spair (x.row + i) (tileElems t i)) s
          let s := s.modCtx n id (fun x => { x with row := x.row + 64 })
          widenTiles n id d k (if d.rows ≤ x.row + 64 then s.retire c .dm 0 else s)
      | [] => s

/-- DMCONV reaches its station: the ring takes the descriptor, or the command waits at its queue head (Table 8.2). -/
def State.convSubmit (s : State) (op : ConvOp) (c : Nat) : Res :=
  match (s.core c).head .dm 0x43 with
  | some q =>
    let i := bits 19 8 q.word
    let d := s.convDesc i
    let st := s.station d.station
    let t := s.modStation d.station (fun st =>
      { st with ring := st.ring ++ [⟨c, i⟩], ringHigh := max st.ringHigh (st.ring.length + 1) })
    only (c < 256) (act s (d.op == op && q.prog == .fresh && decide (st.ring.length < 256))
      (if d.vest then t.putCmd c .dm 0 { q with prog := .issued 0 } else t.retire c .dm 0))
  | none => only (c < 256) (.next s)

/-- The work of a context on a descriptor of a kind; `bad` is a parity error (R226). -/
def State.convWork (s : State) (op : ConvOp) (n id : Nat) (bad : Bool) (f : ConvDesc → State → State) : Res :=
  match s.convCtx n id with
  | some x =>
    let d := s.convDesc x.item.desc
    let t := if bad then
        ((s.modStation n (fun st => { st with parity := count 32 st.parity 1 })).freeCtx n id).parityStep (srcStation n) noCore
      else f d s
    only (n < 32) (act s (d.op == op) t)
  | none => only (n < 32) (.next s)

/-- DMCONV_NARROW (R206, R210 to R213). -/
def execDmconvNarrow (ph : ConvPhase) (s : State) : Res :=
  match ph with
  | .submit c => s.convSubmit .narrow c
  | .work n id bad => s.convWork .narrow n id bad (fun d s => convFlags n id d d.ncore (deliverRows n id d d.rows s))

/-- DMCONV_WIDEN (R206, R214, R215). -/
def execDmconvWiden (ph : ConvPhase) (s : State) : Res :=
  match ph with
  | .submit c => s.convSubmit .widen c
  | .work n id bad => s.convWork .widen n id bad (fun d s => if d.vest then widenTiles n id d 8 s else s.widenRows n id d)

/-- DMCONV_GENERATE (R206, R217). -/
def execDmconvGenerate (ph : ConvPhase) (s : State) : Res :=
  match ph with
  | .submit c => s.convSubmit .generate c
  | .work n id bad => s.convWork .generate n id bad (fun d s => convFlags n id d d.ncore (deliverRows n id d d.rows s))

/-- CONTEXT_ALLOCATE: the descriptor at the ring head takes a free context; its affine table is read (Table 8.2). -/
def execContextAllocate (n : Nat) (s : State) : Res :=
  let st := s.station n
  match st.ring with
  | it :: rest =>
    let d := s.convDesc it.desc
    let aff := if d.aff then s.load (s.copyBase d.affRegion 0 + d.affOff) (16 * d.ch) else []
    only (n < 32) (act s (decide (st.ctxs.length < 64))
      (s.modStation n (fun st =>
        { st with ring := rest, ctxs := st.ctxs ++ [{ id := st.next, item := it, aff := aff }], next := st.next + 1
                  ctxHigh := max st.ctxHigh (st.ctxs.length + 1) })))
  | [] => only (n < 32) (.next s)

/-- The context is freed and counts (Table 8.2). -/
def State.convRetire (s : State) (n id : Nat) : State :=
  (s.freeCtx n id).modStation n (fun st => { st with retired := count 64 st.retired 1 })

/-- The completion of a WIDEN: completion word, identity 1, then flag and count (R216). -/
def State.widenDone (s : State) (n id : Nat) (d : ConvDesc) : State :=
  let s := if d.cmpl then s.storeAgent (s.copyBase d.cmplRegion 0 + d.cmplOff) (leBytes 8 s.job.step) else s
  let s := if d.irq then s.msi d.hart 1 else s
  if d.flagEn || d.cntEn then
    (s.convSend n id d.core0 0 d.repoch [] d.flag? d.cnt?).modCtx n id (fun x => { x with flagged := 1 })
  else s.convRetire n id

/-- CONV_DESCRIPTOR_DONE: last write, completion and flag; then the context is freed (Table 8.2, R212, R216). -/
def execConvDescriptorDone (n ctx : Nat) (s : State) : Res :=
  match s.convCtx n ctx with
  | some x =>
    let d := s.convDesc x.item.desc
    let t :=
      if d.op = .widen then
        if x.flagged = 0 then s.widenDone n ctx d else s.convRetire n ctx
      else
        let s := convFlags n ctx d d.ncore s
        match s.convCtx n ctx with
        | some y => if d.ncore ≤ y.flagged && !y.flagOut then s.convRetire n ctx else s
        | none => s
    only (n < 32) (act s (decide (d.rows ≤ x.row) && x.out.isEmpty && !x.flagOut
      && (d.op != .widen || decide (0 < x.flagged) || decide (0 < s.room d.core0))) t)
  | none => only (n < 32) (.next s)

/-- CONV_TIMEOUT: a descriptor has stayed ACTIVE too long (R207). -/
def execConvTimeout (n ctx : Nat) (s : State) : Res :=
  match s.convCtx n ctx with
  | some x => only (n < 32) (act s true (s.convError n ctx 0x060A x.item.desc))
  | none => only (n < 32) (.next s)

end Sys2Proof.Machine
end

