-- ==== Sys2Proof/Machine/Exchange.lean ====
section
/-!
DEFINITION. The commands of the exchange engine: XMOV, XFENCE, XARM, XCOLL, and the firing of timetable entries
(06_brynno_commands.md R166, R167, 12_canopy.md R289 to R295, 13_time_and_step.md R319, 14_collectives.md R325 to R339).
-/
namespace Sys2Proof.Machine

open Sys2Proof

/-! ## XMOV (R166, Table 6.17) -/

/-- An exchange descriptor with its effective addresses. -/
structure Exch where
  op : Nat
  rank : Nat
  core : Nat
  region : Nat
  len : Nat
  saddr : Nat
  remote : Nat
  repoch : Nat
  flag : Option Nat
  cnt : Option Nat
  deriving DecidableEq, Repr

/-- Ranks of the image. -/
def State.imageRanks (s : State) : Nat :=
  match s.job.image with
  | some im => im.ranks
  | none => 0

/-- A target rank: absolute, or an offset from the own rank (R166, R168). -/
def State.targetRank (s : State) (rel : Bool) (r : Nat) : Nat := if rel then (s.job.rank + r) % s.imageRanks else r

/-- Read an exchange descriptor at its dispatch. -/
def State.exchOf (s : State) (q : EngCmd) : Exch :=
  let d := packNat 128 q.desc
  let op := bits 9 8 d
  let ixr (v : Nat) : Nat := ixAdd (bits 39 32 q.word) q.cnt v
  { op := op, rank := s.targetRank (bitAt 10 d) (bits 19 11 d), core := bits 27 20 d, region := bits 71 64 d
    len := bits 251 232 d + 1, saddr := ixAdd (bits 31 24 q.word) q.cnt (bits 150 128 d)
    remote := if op = 0 then ixr (bits 182 160 d) else ixr (bits 231 192 d), repoch := bits 47 32 d
    flag := if bitAt 58 d then some (bits 57 48 d) else none
    cnt := if bitAt 62 d then some (bits 61 59 d) else none }

/-- Bytes of own scratch from an address on. -/
def State.scratchBytes (s : State) (c a len : Nat) : List Byte := readBytes (s.core c).scratch (sAddr a) len

/-- A packet of an exchange engine. -/
def xePacket (kind tc c rank core arg : Nat) (bs : List Byte) : Packet :=
  { kind := kind, tc := tc, job := 0, attempt := 0, step := 0, seq := 0, arg := arg, path := 0, srcRank := 0
    srcCore := c, dstRank := rank, dstCore := core, sgd := 0, payload := bs }

/-- The canopy address of the first byte of a PUT or GET (R286). -/
def State.exchAddr (s : State) (x : Exch) : Nat := canopyAddr x.rank (s.copyBase x.region 0 + x.remote)

/-- Packets of an exchange. -/
def State.exchCount (s : State) (x : Exch) : Nat :=
  if x.op = 0 then ceilDiv x.len 256 else (linesOf (s.exchAddr x) x.len).length

/-- Packet `i` of an exchange (R166, R272, R289). -/
def State.exchPacket (s : State) (c : Nat) (x : Exch) (i : Nat) : Packet :=
  if x.op = 0 then
    let last := decide (ceilDiv x.len 256 ≤ i + 1)
    let n := min 256 (x.len - 256 * i)
    xePacket kSEND 1 c x.rank x.core
      (deliveryArg (x.remote + 256 * i) x.repoch (if last then x.flag else none) (if last then x.cnt else none))
      (s.scratchBytes c (x.saddr + 256 * i) n)
  else
    let a := s.exchAddr x
    let line := (linesOf a x.len).getD i 0
    if x.op = 2 then xePacket kLREAD 1 c x.rank 0 line []
    else
      let lo := max a line
      let hi := min (a + x.len) (line + 128)
      xePacket kLWRITE 1 c x.rank 0 line (maskedLine (lo - line) (s.scratchBytes c (x.saddr + (lo - a)) (hi - lo)))

/-- One more unacknowledged LWRITE of a source (R295). -/
def State.addUnacked (s : State) (src : Nat) : State := s.modFab (fun b => { b with unacked := nmod 0 b.unacked src (· + 1) })

/-- The key under which a hart counts its unacknowledged LWRITEs. -/
def hartKey (h : Nat) : Nat := 256 + h

/-- Issue packets of the exchange at the head of the queue while entries are free (R283). -/
def exchLoop (c : Nat) (x : Exch) (total put : Nat) : Nat → State → EngCmd → State × EngCmd
  | 0, s, q => (s, q)
  | n + 1, s, q =>
    if q.todo = 0 then (s, q) else
    let gd := gdOfCore c
    let key := spaceKey x.rank gd 1
    if s.mayInject gd 1 && s.spaceFree key (c + 1) then
      let k := s.exchPacket c x (total - q.todo)
      let s := s.inject gd k (if x.op = 1 then .put c put else .xe c)
      let s := if x.op = 1 then s.addUnacked c else s
      let s := if x.op = 0 then s.lockSpace key (c + 1) (1 < q.todo) else s
      let out := match q.prog with
        | .issued m => m
        | _ => 0
      exchLoop c x total put n s { q with todo := q.todo - 1, prog := .issued (if x.op = 1 then out else out + 1) }
    else (s.injectWait gd, q)

/-- The number under which the PUT at the head of a core's queue is known. -/
def State.putNumber (s : State) (c : Nat) : Nat :=
  match (s.fab.puts.filter (fun p => p.1 == c)).getLast? with
  | some p => p.2.1
  | none => 0

/-- Run an exchange: start it where it is fresh, issue what can be issued; a PUT retires with its last LWRITE (R167). -/
def State.runExch (s : State) (c : Nat) : State :=
  match (s.core c).head .xe 0x50 with
  | some q =>
    let x := s.exchOf q
    let total := s.exchCount x
    let fresh := q.prog == .fresh
    let s := if fresh && x.op == 1 then
        s.modFab (fun b => { b with puts := b.puts ++ [(c, b.putNext, total, x.cnt)], putNext := b.putNext + 1 }) else s
    let r := exchLoop c x total (s.putNumber c) total s (if fresh then { q with todo := total, prog := .issued 0 } else q)
    if x.op = 1 ∧ r.2.todo = 0 then r.1.retire c .xe 0 else r.1.putCmd c .xe 0 r.2
  | none => s

/-- The meaning of an XMOV of one OP; a scratch parity error on its reads is never re-executed (R79, R361). -/
def State.xmov (s : State) (c op : Nat) (u : Option Upset) : Res :=
  match (s.core c).head .xe 0x50 with
  | some q =>
    let t := match u with
      | none => s.runExch c
      | some e => s.unitError c .xe 0 q false e id
    only (c < 256) (act s (q.prog != .stopped && (s.exchOf q).op == op) t)
  | none => only (c < 256) (.next s)

/-- XMOV SEND (R166, R167). -/
def execXmovSend (c : Nat) (u : Option Upset) (s : State) : Res := s.xmov c 0 u

/-- XMOV PUT (R166, R167). -/
def execXmovPut (c : Nat) (u : Option Upset) (s : State) : Res := s.xmov c 1 u

/-- XMOV GET (R166, R167). -/
def execXmovGet (c : Nat) (u : Option Upset) (s : State) : Res := s.xmov c 2 u

/-- XFENCE: every earlier LWRITE of the core is acknowledged (R295). -/
def execXfence (c : Nat) (s : State) : Res :=
  match (s.core c).head .xe 0x51 with
  | some _ => only (c < 256) (act s (nget 0 s.fab.unacked c == 0) (s.retire c .xe 0))
  | none => only (c < 256) (.next s)

/-- XARM: the named timetable entry is armed (R168). -/
def execXarm (c : Nat) (s : State) : Res :=
  match (s.core c).head .xe 0x52 with
  | some q =>
    let i := bits 23 8 q.word
    let t := { s with tt := { s.tt with waiting := s.tt.waiting.map (fun (w : TtWait) => if w.entry = i then { w with armed := true } else w) } }
    only (c < 256) (act s true (t.retire c .xe 0))
  | none => only (c < 256) (.next s)

/-! ## XCOLL (R325 to R339) -/

/-- Copy the rows of a contribution (R330, R332, R335). -/
def copyRows (d : CollDesc) (dst stride : Nat) (f : List Byte → List Byte) (m : Cells) : Cells :=
  (List.range d.rows).foldl (fun k r =>
    writeBytes k (sAddr (dst + r * stride)) (f (readBytes m (sAddr (d.src + r * d.sstride)) d.rowb))) m

/-- What a member does when its XCOLL reaches the head: its own piece or contribution, and the flag that this already
completes (R330, R331, R332, R335). -/
def Core.collStart (k : Core) (d : CollDesc) (i : Nat) : Core :=
  let flag (k : Core) (f : Nat) : Core := if d.flagEn then k.setFlag f else k
  match d.op with
  | 0 => flag { k with scratch := copyRows d (d.dst + i * d.pstep) d.dstride id k.scratch } (d.flag0 + i)
  | 3 => if i = 0 then flag { k with scratch := copyRows d d.dst d.dstride id k.scratch } d.flag0 else k
  | _ =>
    let k := { k with scratch := copyRows d d.dst d.dstride (collReadBytes d.fmt) k.scratch }
    if i = 0 ∧ d.n = 1 then flag k d.flag0 else k

/-- Start or continue the XCOLL at the head of a core's queue. -/
def State.runColl (s : State) (c : Nat) : State :=
  match (s.core c).head .xe 0x53 with
  | some q =>
    let d := collDescOf (packNat 128 q.desc) (ixAdd (bits 31 24 q.word) q.cnt)
    if q.prog = .fresh then
      let i := s.job.rank - d.lo
      let r : CollRun := { core := c, d := d, i := i, pos := 0, comb := List.replicate (combineLevels d.n i).length 0 }
      let s := (s.modCore c (fun k => k.collStart d i)).putCmd c .xe 0 { q with prog := .issued 0 }
      ({ s with coll := { s.coll with runs := s.coll.runs ++ [r] } }).collAdvance c
    else s.collAdvance c
  | none => s

/-- The collective of a core stops with a parity error: COLL_PARITY names the reduction unit (R339). -/
def State.collParity (s : State) (c : Nat) : State :=
  let t := { s with coll := { s.coll with runs := s.coll.runs.filter (fun r => r.core != c), parity := count 32 s.coll.parity 1 } }
  (t.modCore c (fun k => { k with qXe := match k.qXe with
    | q :: rest => if q.op = 0x53 then { q with prog := .stopped } :: rest else k.qXe
    | [] => [] })).reportStep 0x060F (srcCore c) (c % 8) c

/-- The meaning of an XCOLL of one OP. -/
def State.xcoll (s : State) (c op : Nat) (u : Option Upset) : Res :=
  match (s.core c).head .xe 0x53 with
  | some q =>
    let t := match u with
      | none => s.runColl c
      | some e => (s.countSite c e.site).collParity c
    only (c < 256) (actSettled s (q.prog != .stopped && bits 10 8 (packNat 128 q.desc) == op) t)
  | none => only (c < 256) (.next s)

/-- XCOLL ALLGATHER (R330, R331). -/
def execXcollAllgather (c : Nat) (u : Option Upset) (s : State) : Res := s.xcoll c 0 u

/-- XCOLL REDUCE (R332 to R334). -/
def execXcollReduce (c : Nat) (u : Option Upset) (s : State) : Res := s.xcoll c 1 u

/-- XCOLL ALLREDUCE (R335). -/
def execXcollAllreduce (c : Nat) (u : Option Upset) (s : State) : Res := s.xcoll c 2 u

/-- XCOLL BCAST (R335). -/
def execXcollBcast (c : Nat) (u : Option Upset) (s : State) : Res := s.xcoll c 3 u

/-- COLL_TIMEOUT: an XCOLL has not retired in time (R339). -/
def execCollTimeout (c : Nat) (s : State) : Res :=
  match (s.core c).head .xe 0x53 with
  | some q =>
    let t := { s with coll := { s.coll with runs := s.coll.runs.filter (fun r => r.core != c) } }
    only (c < 256) (act s (q.prog != .stopped)
      ((t.putCmd c .xe 0 { q with prog := .stopped }).reportStep 0x060E (srcCore c) q.pos c))
  | none => only (c < 256) (.next s)

/-! ## The timetable (R319) -/

/-- The number under which a timetable entry holds a space. -/
def ttLockKey (entry : Nat) : Nat := 1000 + entry

/-- Send packets of a firing entry while entries are free (R272, R283). -/
def ttLoop (i : Nat) (e : TtEntry) (rank : Nat) : Nat → State → Nat → State × Nat
  | 0, s, sent => (s, sent)
  | n + 1, s, sent =>
    let total := ceilDiv e.len 256
    if total ≤ sent then (s, sent) else
    let gd := gdOfCore e.srcCore
    let key := spaceKey rank gd 0
    if s.mayInject gd 0 && s.spaceFree key (ttLockKey i) then
      let last := decide (total ≤ sent + 1)
      let k := xePacket kTT 0 e.srcCore rank e.dstCore
        (deliveryArg (e.dst + 256 * sent) e.repoch (if last && e.flagEn then some e.flag else none)
          (if last && e.cntEn then some e.cnt else none))
        (s.scratchBytes e.srcCore (e.src + 256 * sent) (min 256 (e.len - 256 * sent)))
      ttLoop i e rank n ((s.inject gd k (.tt i)).lockSpace key (ttLockKey i) (!last)) (sent + 1)
    else (s.injectWait gd, sent)

/-- The timetable entry of a number. -/
def State.ttEntry (s : State) (i : Nat) : Option TtEntry := s.job.image.bind (fun im => im.timetable[i]?)

/-- Is a waiting entry due (R319)? -/
def State.ttDue (s : State) (w : TtWait) : Bool :=
  match s.ttEntry w.entry with
  | some e => w.armed && decide (s.job.relT + e.offset ≤ s.ns)
  | none => false

/-- Does another due entry of the core fire before this one: ascending OFFSET, then ascending index (R319)? -/
def State.ttBefore (s : State) (i : Nat) (e : TtEntry) : Bool :=
  s.tt.waiting.any (fun w => s.ttDue w && (match s.ttEntry w.entry with
    | some f => f.srcCore == e.srcCore && (decide (f.offset < e.offset) || (f.offset == e.offset && decide (w.entry < i)))
    | none => false))

/-- TIMETABLE_FIRE: an entry that is due and armed reads its bytes and sends them (R319). -/
def execTimetableFire (entry : Nat) (s : State) : Res :=
  match s.tt.waiting.find? (fun w => w.entry == entry), s.ttEntry entry with
  | some w, some e =>
    let r := ttLoop entry e (s.targetRank e.rel e.rank) (ceilDiv e.len 256) s w.sent
    let done := decide (ceilDiv e.len 256 ≤ r.2)
    let ws : List TtWait :=
      if done then r.1.tt.waiting.filter (fun v => v.entry != entry)
      else r.1.tt.waiting.map (fun (v : TtWait) => if v.entry = entry then { v with sent := r.2 } else v)
    let t := { r.1 with tt := { r.1.tt with waiting := ws } }
    act s (s.ttDue w && !s.ttBefore entry e) t
  | _, _ => .next s

end Sys2Proof.Machine
end

