-- ==== Sys2Proof/Machine/Packets.lean ====
section
/-!
DEFINITION. The packets of TC0, TC1 and TC2 at their destination: transfers, canopy operations, answers, role NACKs,
reissues, keepalives and timeouts (03_tensor_core.md R92 to R94, 11_fabric.md R282, R283, 12_canopy.md R288 to R300).
-/
namespace Sys2Proof.Machine

open Sys2Proof

/-- A packet of a kind, of its shape, addressed to this package (R271, R279). -/
def State.isMine (s : State) (k : Packet) (kind : Nat) : Bool :=
  k.kind == kind && k.wellFormed && k.dstRank == s.myRank

/-- TT_PACKET (R322). -/
def execTtPacket (pkt : Packet) (s : State) : Res := actSettled s (s.isMine pkt kTT) (s.deliver pkt false)

/-- SEND_PACKET (R282). -/
def execSendPacket (pkt : Packet) (s : State) : Res := actSettled s (s.isMine pkt kSEND) (s.deliver pkt false)

/-- COLL_PACKET; `bad` is a parity error in the reduction unit that serves the core (R334, R339). -/
def execCollPacket (pkt : Packet) (bad : Bool) (s : State) : Res :=
  actSettled s (s.isMine pkt kCOLL)
    (if bad && s.coll.runs.any (fun r => r.core == pkt.dstCore) then (s.collParity pkt.dstCore).deliver pkt false
     else s.deliver pkt false)

/-- LREAD_PACKET; `bad` is a parity error at the home (R288, R289, Table 12.2). -/
def execLreadPacket (pkt : Packet) (bad : Bool) (s : State) : Res :=
  actSettled s (s.isMine pkt kLREAD) (s.deliver pkt bad)

/-- LWRITE_PACKET (R288 to R290). -/
def execLwritePacket (pkt : Packet) (s : State) : Res :=
  actSettled s (s.isMine pkt kLWRITE && pkt.dstCore != 0x3FF) (s.deliver pkt false)

/-- BIVOUAC_LWRITE: a line for the bivouac (R381, R382, R386). -/
def execBivouacLwrite (pkt : Packet) (s : State) : Res :=
  actSettled s (s.isMine pkt kLWRITE && pkt.dstCore == 0x3FF) (s.deliver pkt false)

/-- LINE_QUEUE_APPLY: the first operation queued on a line is served, an LWRITE once 4 ns have passed since the last
write (R292, R296). -/
def execLineQueueApply (line : Nat) (s : State) : Res :=
  match s.fab.lineQ.findIdx? (fun o => lineOf o.pkt == line) with
  | some i =>
    match s.fab.lineQ[i]? with
    | some o =>
      let t := s.modFab (fun b => { b with lineQ := b.lineQ.eraseIdx i })
      let w := nget 0 s.fab.lineLast line
      act s (o.pkt.kind != kLWRITE || w == 0 || decide (w - 1 + 1024 ≤ s.now))
        (if o.pkt.kind = kLWRITE then t.applyLine o.pkt else t.readLine o.pkt)
    | none => .next s
  | none => .next s

/-! ## Answers (R283) -/

/-- Does a packet answer a tracker entry? -/
def answers (k : Packet) (t : Track) : Bool :=
  t.gd == bits 33 33 k.arg && t.pkt.dstRank == k.srcRank && t.pkt.tc == bits 32 32 k.arg && t.pkt.seq == k.seq
  && (t.pkt.kind == kLREAD) == (k.kind == kLRESP)

/-- The exchange at the head of a core's queue has one answer more; with the last it retires, a GET with its flag and
count (R166, R167). -/
def State.xeAnswered (s : State) (c : Nat) : State :=
  match (s.core c).head .xe 0x50 with
  | some q =>
    match q.prog with
    | .issued n =>
      if n ≤ 1 ∧ q.todo = 0 then
        let x := s.exchOf q
        s.modCore c (fun k =>
          let k := { k with qXe := k.qXe.drop 1 }
          if x.op = 2 then
            let k := match x.flag with
              | some f => k.setFlag f
              | none => k
            match x.cnt with
            | some i => k.addCtr i 1
            | none => k
          else k)
      else s.putCmd c .xe 0 { q with prog := .issued (n - 1) }
    | _ => s
  | none => s

/-- The line of a GET lands in scratch, as far as the GET reads it (R166). -/
def State.getLine (s : State) (c line : Nat) (bs : List Byte) : State :=
  match (s.core c).head .xe 0x50 with
  | some q =>
    let x := s.exchOf q
    let a := s.exchAddr x
    let lo := max a line
    let hi := min (a + x.len) (line + 128)
    s.modCore c (fun k =>
      { k with scratch := writeBytes k.scratch (sAddr (x.saddr + (lo - a))) (slice bs (lo - line) (hi - lo)) })
  | none => s

/-- A PUT's LWRITE is acknowledged; with the last its counter counts (R166). -/
def State.putAcked (s : State) (c op : Nat) : State :=
  let hit (p : Nat × Nat × Nat × Option Nat) : Bool := p.1 == c && p.2.1 == op
  match s.fab.puts.find? hit with
  | some p =>
    if p.2.2.1 ≤ 1 then
      let s := s.modFab (fun b => { b with puts := b.puts.filter (fun p => !hit p) })
      match p.2.2.2 with
      | some i => s.modCore c (fun k => k.addCtr i 1)
      | none => s
    else s.modFab (fun b => { b with puts := b.puts.map (fun p => if hit p then (p.1, p.2.1, p.2.2.1 - 1, p.2.2.2) else p) })
  | none => s

/-- One LWRITE of a source is acknowledged (R295). -/
def State.subUnacked (s : State) (src : Nat) : State := s.modFab (fun b => { b with unacked := nmod 0 b.unacked src (· - 1) })

/-- What the answer to a tracker entry completes. -/
def State.complete (s : State) (t : Track) (k : Packet) : State :=
  match t.owner with
  | .xe c => (if t.pkt.kind = kLREAD then s.getLine c t.pkt.arg k.payload else s).xeAnswered c
  | .put c op => (s.subUnacked c).putAcked c op
  | .coll c => s.collAdvance c
  | .hartLoad h => s.modHart h (fun x =>
      { x with want := x.want.filter (fun a => a != t.pkt.arg), buf := x.buf ++ [(t.pkt.arg, k.payload)] })
  | .hartStore h => s.subUnacked (hartKey h)
  | .drain => { s with ckpt := { s.ckpt with drain := s.ckpt.drain.map (fun d => { d with unacked := d.unacked - 1 }) } }
  | _ => s

/-- An answer to this package: its epoch is checked, its entry is freed and what it serves goes on (R283, R294, R366). -/
def State.answered (s : State) (k : Packet) (f : State → Track → State) : State :=
  let s := (s.takeLocal k).1
  match s.checkEpoch ⟨k.job, k.attempt, k.step⟩ with
  | .older => s.countDiscard .older
  | .newer => s.countDiscard .newer
  | .foreign => s
  | _ =>
    match s.fab.track.find? (answers k) with
    | some t => f s t
    | none => s

/-- Free a tracker entry. -/
def State.untrack (s : State) (t : Track) : State := s.modFab (fun b => { b with track := b.track.erase t })

/-- LRESP_PACKET: a line comes back (R283, R289). -/
def execLrespPacket (pkt : Packet) (s : State) : Res :=
  actSettled s (s.isMine pkt kLRESP) (s.answered pkt (fun s t => (s.untrack t).complete t pkt))

/-- ACK_PACKET: the packet was accepted or applied (R283). -/
def execAckPacket (pkt : Packet) (s : State) : Res :=
  actSettled s (s.isMine pkt kACK) (s.answered pkt (fun s t => (s.untrack t).complete t pkt))

/-! ## Role-epoch NACKs (R93, R94) -/

/-- The source of a die-local sender in events. -/
def senderSrc : Sender → Nat
  | .core c => srcCore c
  | .station n _ => srcStation n
  | .hart h => srcHart h
  | .none => srcPackage

/-- The core of a die-local sender. -/
def senderCore : Sender → Nat
  | .core c => c
  | _ => noCore

/-- The oldest die-local NACK of a kind, and the rest. -/
def State.popNack (s : State) (stale : Bool) : Option (DieNack × State) :=
  match s.nacks.findIdx? (fun n => n.stale == stale) with
  | some i => (s.nacks[i]?).map (fun n => (n, { s with nacks := s.nacks.eraseIdx i }))
  | none => none

/-- ROLE_NACK_EARLY: the sender will reissue the transfer unchanged, or has reached its limit (R93). -/
def execRoleNackEarly (src : NackSrc) (s : State) : Res :=
  let lim := s.dnat 0x5010 2
  match src with
  | .die =>
    match s.popNack false with
    | some (n, t) =>
      let t := match n.transfer.sender with
        | .station i _ => t.modStation i (fun st => { st with early := count 32 st.early 1 })
        | _ => t
      act s true
        (if lim ≤ n.transfer.tries then
          t.reportStep 0x0603 (senderSrc n.transfer.sender) (n.target + n.cur * 2 ^ 16) (senderCore n.transfer.sender)
         else { t with reissues := t.reissues ++ [n] })
    | none => .next s
  | .fabric pkt =>
    actSettled s (s.isMine pkt kNACK && !bitAt 16 pkt.arg) (s.answered pkt (fun s t =>
      if lim ≤ t.early then s.reportStep 0x0603 (srcCore t.pkt.srcCore) (t.pkt.dstCore + bits 15 0 pkt.arg * 2 ^ 16) t.pkt.srcCore
      else s.modFab (fun b => { b with track := b.track.map (fun u => if u = t then { u with due := true } else u) })))

/-- ROLE_NACK_STALE: the transfer is retired, as if delivered; the event is recorded (R94). -/
def execRoleNackStale (src : NackSrc) (s : State) : Res :=
  match src with
  | .die =>
    match s.popNack true with
    | some (n, t) =>
      actSettled s true ((t.event 0x0604 (senderSrc n.transfer.sender) (n.target + n.cur * 2 ^ 16)).transferDone n.transfer n.target true)
    | none => .next s
  | .fabric pkt =>
    actSettled s (s.isMine pkt kNACK && bitAt 16 pkt.arg) (s.answered pkt (fun s t =>
      ((s.event 0x0604 (srcCore t.pkt.srcCore) (t.pkt.dstCore + bits 15 0 pkt.arg * 2 ^ 16)).untrack t).complete t pkt))

/-- EARLY_REISSUE: a transfer refused early is sent again unchanged (R93). -/
def execEarlyReissue (src : ReissueSrc) (s : State) : Res :=
  match src with
  | .die =>
    match s.reissues with
    | n :: rest =>
      match ({ s with reissues := rest } : State).ingress n.target { n.transfer with tries := n.transfer.tries + 1 } with
      | some t => act s true t
      | none => .next s
    | [] => .next s
  | .fabric i =>
    match s.fab.track[i]? with
    | some t =>
      act s t.due ((s.modFab (fun b =>
        { b with track := b.track.set i { t with due := false, early := t.early + 1 } })).send t.pkt)
    | none => .next s

/-! ## Keepalives, reissues and timeouts (R283, R298 to R300) -/

/-- KEEPALIVE_PACKET: the home has everything up to a number (R298). -/
def execKeepalivePacket (pkt : Packet) (s : State) : Res :=
  let t := (s.takeLocal pkt).1
  let u := match t.checkEpoch ⟨pkt.job, pkt.attempt, pkt.step⟩ with
    | .older => t.countDiscard .older
    | .newer => t.countDiscard .newer
    | .foreign => t
    | _ => t.modFab (fun b =>
        { b with keepSeq := nset 0 b.keepSeq (spaceKey pkt.srcRank (bits 33 33 pkt.arg) (bits 32 32 pkt.arg)) (pkt.seq + 1) })
  act s (s.isMine pkt kKEEP) u

/-- The sequence number before another (R282). -/
def seqBefore (n : Nat) : Nat := (n + (2 ^ 32 - 1)) % 2 ^ 32

/-- KEEPALIVE_TIMER: an operation passed on has gone 10 us without a response; its space hears how far it has got
(R298). -/
def execKeepaliveTimer (i : Nat) (s : State) : Res :=
  match s.fab.unanswered[i]? with
  | some k =>
    let next := (nget {} s.fab.rxSpace (rxKey k)).next
    let a := { k with seq := seqBefore next }
    act s true (({ s with canopy := { s.canopy with keepalives := count 64 s.canopy.keepalives 1 } } : State).answer a kKEEP 0 [])
  | none => .next s

/-- Is a tracker entry covered by the latest KEEPALIVE of its space (R298)? -/
def State.keptAlive (s : State) (t : Track) : Bool :=
  match nget 0 s.fab.keepSeq (spaceKey t.pkt.dstRank t.gd t.pkt.tc) with
  | 0 => false
  | n => decide ((n - 1 + 2 ^ 32 - t.pkt.seq) % 2 ^ 32 < 2 ^ 31)

/-- REISSUE_TIMER: an unacknowledged packet is sent again with its SEQ (R283, R298). -/
def execReissueTimer (i : Nat) (s : State) : Res :=
  match s.fab.track[i]? with
  | some t =>
    act s (!s.keptAlive t) ((s.modFab (fun b =>
      { b with trackStats := b.trackStats.modify t.gd (fun x => { x with reissues := count 64 x.reissues 1 }) })).send t.pkt)
  | none => .next s

/-- REQUEST_TIMEOUT: nothing has come from a rank for too long; the rank is reported dead (R299, R300). -/
def execRequestTimeout (rank : Nat) (s : State) : Res :=
  let n := (s.fab.track.filter (fun t => t.pkt.dstRank == rank)).length
  let t := { s with canopy := { s.canopy with deadTarget := rank, timeouts := count 32 s.canopy.timeouts n } }
  act s (decide (0 < n)) (t.reportJob 0x0403 srcPackage rank noCore)

end Sys2Proof.Machine
end

