-- ==== Sys2Proof/Machine/Steps.lean ====
section
/-!
DEFINITION. Ridgepole's measurements, step end, arrivals, the commit decision, commit, release, replay and the drain
(01_anatomy.md R17 to R32, 13_time_and_step.md R305 to R318, 16_errors_and_recovery.md R362 to R371, 17_checkpoint.md
R376 to R384).
-/
namespace Sys2Proof.Machine

open Sys2Proof

/-! ## TIMESYNC (R305 to R309) -/

/-- Send the REQ of an exchange (Tables 13.1, 13.2). -/
def State.sendReq (s : State) (i : Nat) : State :=
  s.ctl kTSYNC (1 + i * 2 ^ 8) (parentOf s.job.rank) s.epoch (leBytes 8 s.now ++ zeros 24)

/-- TIMESYNC_REQ: the parent answers at once (R305, R306). -/
def execTimesyncReq (pkt : Packet) (s : State) : Res :=
  let t := (s.takeLocal pkt).1
  let p := pkt.payload.take 8 ++ leBytes 8 s.now ++ leBytes 8 s.now ++ leBytes 4 (bits 47 16 pkt.arg) ++ zeros 4
  act s (s.isMine pkt kTSYNC && bits 7 0 pkt.arg == 1)
    (t.ctl kTSYNC (2 + bits 15 8 pkt.arg * 2 ^ 8) pkt.srcRank s.epoch p)

/-- `offset` of R306: theta and d of 64 exchanges. -/
def rpOffset (xs : List Exchange) : Int × Int :=
  let fwd (x : Exchange) : Int := sext 64 (wrap 64 ((x.t2 : Int) - x.t1)) - x.cout
  let bwd (x : Exchange) : Int := sext 64 (wrap 64 ((x.t4 : Int) - x.t3)) - x.cback
  let sf := (xs.map fwd).sum
  let sb := (xs.map bwd).sum
  ((sf - sb) / 128, (sf + sb) / 128)

/-- Step Ridgepole by theta (R302, R307). -/
def State.stepRp (s : State) (theta : Int) : State :=
  ({ s with rp := { s.rp with now := s.rp.now + BitVec.ofInt 72 theta } }).event 0x0501 srcPackage (wrap 56 theta)

/-- Sixty-four exchanges are made: align (R307) or monitor (Table 13.3). -/
def State.measured (s : State) (m : RpMeasure) : State :=
  let r := rpOffset (m.done.map Prod.snd)
  let a := r.1.natAbs
  let s := { s with rp := { s.rp with offset := r.1, delay := r.2, measure := none } }
  match m.use with
  | .align n =>
    if n = 0 then (s.stepRp r.1).measure (.align 1)
    else if a ≤ 64 then s.alignDone
    else if 4 ≤ n then (s.event 0x0502 srcPackage (wrap 32 r.1)).pitchFail 0x09 s.job.rank
    else (s.stepRp r.1).measure (.align (n + 1))
  | .monitor =>
    if a ≤ 64 then s
    else if a ≤ 256 then { s with rp := { s.rp with slew := r.1, slewPhase := 0 } }
    else if a ≤ 768 then
      ({ s with rp := { s.rp with slew := r.1, slewPhase := 0, drifts := count 32 s.rp.drifts 1 } }).event 0x0503 srcPackage (wrap 32 r.1)
    else ({ s with rp := { s.rp with st := .lost } }).reportJob 0x0504 srcPackage (wrap 32 r.1) noCore

/-- TIMESYNC_RESP: the child takes t4; the last exchange ends the measurement (R306). -/
def execTimesyncResp (pkt : Packet) (s : State) : Res :=
  let i := bits 15 8 pkt.arg
  match s.rp.measure with
  | some m =>
    let x : Exchange := ⟨fieldAt pkt.payload 0 8, fieldAt pkt.payload 8 8, fieldAt pkt.payload 16 8, s.now % 2 ^ 64,
      fieldAt pkt.payload 24 4, bits 47 16 pkt.arg⟩
    let m := { m with waiting := m.waiting.erase i, done := m.done ++ [(i, x)], missed := 0 }
    let t := (s.takeLocal pkt).1
    act s (s.isMine pkt kTSYNC && bits 7 0 pkt.arg == 2 && pkt.srcRank == parentOf s.job.rank
        && (s.rp.measure.map (fun m => m.waiting.contains i)).getD false)
      (if m.done.length = 64 then t.measured m else { t with rp := { t.rp with measure := some m } })
  | none => .next s

/-- TIMESYNC_INTERVAL: the next REQ goes out (R306). -/
def execTimesyncInterval (s : State) : Res :=
  match s.rp.measure with
  | some m => act s (decide (m.next < 64))
      ({ s with rp := { s.rp with measure := some { m with next := m.next + 1, waiting := m.waiting ++ [m.next] } } }.sendReq m.next)
  | none => .next s

/-- TIMESYNC_NO_RESP: the oldest exchange without a RESP is repeated; 64 in a row end a monitor in LOST (R306, R309). -/
def execTimesyncNoResp (s : State) : Res :=
  match s.rp.measure with
  | some m =>
    match m.waiting with
    | i :: rest =>
      let lost := m.use == .monitor && decide (64 ≤ m.missed + 1)
      act s true
        (if lost then
          ({ s with rp := { s.rp with st := .lost, measure := none } }).reportJob 0x0504 srcPackage 0x80000000 noCore
         else ({ s with rp := { s.rp with measure := some { m with waiting := rest ++ [i], missed := m.missed + 1 } } }).sendReq i)
    | [] => .next s
  | none => .next s

/-- RIDGEPOLE_CHECK: while a job runs, a package other than rank 0 measures (R309). -/
def execRidgepoleCheck (s : State) : Res :=
  act s ((s.pitch.st == .running || s.pitch.st == .quiesced) && s.job.rank != 0 && s.rp.st == .locked && s.rp.measure.isNone)
    (s.measure .monitor)

/-! ## Commit (R25, R26, Table 1.8) -/

/-- Copy bytes of local memory as the copy engines do. -/
def State.copyBytes (s : State) (a b len : Nat) : State :=
  (({ s with mem := copyCells s.mem a s.mem b len } : State).countLines a false len len).countLines b true len len

/-- The host port and bus address of a HOST region (R357, Table 15.8). -/
def State.binding (s : State) (id : Nat) : Option (Nat × Nat) :=
  let b := s.dval 0x9030 7
  ((List.range (b.length / 16)).find? (fun i => fieldAt b (16 * i) 1 == id)).map (fun i =>
    (fieldAt b (16 * i + 1) 1, fieldAt b (16 * i + 8) 8))

/-- A provenance record (R222, Table 8.6). -/
def State.provenance (s : State) (id : Nat) (copied : List Byte) : List Byte :=
  let im := s.job.image
  let inputs := s.outputs.inputTab.flatMap (fun e => if s.dnat 0x7030 2 = 1 then e.2 else zeros 64)
  shake512 (leBytes 4 1 ++ leBytes 4 s.job.rank ++ leBytes 4 id ++ zeros 4 ++ leBytes 8 s.job.step ++ leBytes 8 s.job.seed
    ++ (im.map Image.digest).getD (zeros 64) ++ (im.map nativeDigest).getD (zeros 64) ++ chunkedDigest copied
    ++ s.outputs.sealedTab.flatMap Prod.snd ++ inputs)

/-- Action 1 on one OUTPUT region: its working copy into its inactive visible copy, then its record. -/
def State.publish (s : State) (p : Placed) : State :=
  let w := p.bases.getD 0 0
  let v := p.bases.getD (2 - nget 0 s.outputs.active p.r.id) 0
  let t := s.copyBytes w v p.r.size
  let on := s.dnat 0x7030 1 == 1
  let r := if on then s.provenance p.r.id (s.load w p.r.size) else zeros 64
  let t := t.store (v + p.r.size) r
  if on then { t with outputs := { t.outputs with lastProv := leBytes 4 p.r.id ++ zeros 4 ++ leBytes 8 s.job.step ++ r } } else t

/-- Action 3 on one transfer: its rows leave, or it is lost in PERST (R25, R426). -/
def State.issue (s : State) (x : HostXfer) : State :=
  match s.binding x.region with
  | none => s
  | some (p, a) =>
    if (s.hp p).inPerst then
      (s.modHp p (fun h => { h with lostTransfers := count 32 h.lostTransfers 1 })).event 0x0902 (srcHost p) (x.core / 32)
    else x.rows.foldl (fun s r => s.put (.hostWrite p (a + r.1) r.2)) s

/-- The commit message of a port (R418). -/
def State.commitMessage (s : State) (p : Nat) : State := if s.dnat (0xE100 + p) 5 = 1 then s.msix p 2 else s

/-- Actions 1 to 3: copies and records, the flip, the host-bound transfers and messages. -/
def State.commitOut (s : State) : State :=
  let outs := s.regionsOf .output
  let s := outs.foldl State.publish s
  let act := outs.foldl (fun m p => nset 0 m p.r.id (1 - nget 0 m p.r.id)) s.outputs.active
  let s := { s with outputs := { s.outputs with active := act }, job := { s.job with committed := s.job.step } }
  let q := s.outputs.queue
  let s := q.foldl State.issue { s with outputs := { s.outputs with queue := [] } }
  (s.commitMessage 0).commitMessage 1

/-- The digests of the INPUT regions (R221). -/
def State.digestInputs (s : State) : State :=
  let on := s.dnat 0x7030 2 == 1
  { s with outputs := { s.outputs with inputTab := (s.regionsOf .input).map (fun p =>
      (p.r.id, if on then chunkedDigest (s.load (p.bases.getD 0 0) p.r.size) else zeros 64)) } }

/-- Action 4: staging copies into working copies; what hosts wrote meanwhile lands after it (R29, R370). -/
def State.commitIn (s : State) : State :=
  let s := (s.regionsOf .input).foldl (fun s p => s.copyBytes (p.bases.getD 1 0) (p.bases.getD 0 0) p.r.size) s
  { s with err := { s.err with inputChanged := s.err.inputChanged || s.err.staged, staged := false } }.digestInputs

/-- Is a flysheet due at the commit of the current step (R376)? -/
def State.flyDue (s : State) : Bool :=
  s.job.step == s.job.first || (decide (0 < s.dnat 0xA010 1) && s.job.step % s.dnat 0xA010 1 == 0)

/-- Is the current step a catch-up step (R368)? -/
def State.catchup (s : State) : Bool :=
  match s.err.replayTo with
  | some r => decide (s.job.step < r)
  | none => false

/-- The commit decision of the current step has reached the package: a replay ends with that of its step (R371), and
the commit sequence begins (R26); a catch-up step commits nothing (R368). -/
def State.beginCommit (s : State) (quiesce : Bool) : State :=
  if s.catchup then
    { s with outputs := { s.outputs with queue := [] }, guy := { s.guy with commit := .done quiesce } }
  else
    let due := s.flyDue
    let s := { s with err := { s.err with st := if s.err.st ≤ 4 then 0 else s.err.st, replayTo := none } }.commitOut
    { s with guy := { s.guy with commit := .running 4 (!due) quiesce } }

/-- The children and the package itself have quiesced: QUIESCED goes up, or the root's subscribers hear of it (R354). -/
def State.maybeQuiesced (s : State) : State :=
  if s.pitch.st == .quiesced && s.children.all (fun c => s.pitch.quiesced.contains c) then
    if s.job.rank = 0 then
      (s.dict.subs.filter (fun x => x.key == dictKey 0x9030 4)).foldl State.sendNotify s
    else s.sendPitch 9 0 0 0 (parentOf s.job.rank) []
  else s

/-- COMMIT_SEQUENCE_COMPLETE: the package may release, late where T has passed (R32), or is QUIESCED (R354). -/
def execCommitSequenceComplete (s : State) : Res :=
  match s.guy.commit with
  | .running a true q =>
    let t := if a = 4 then s.commitIn else s
    let t := { t with guy := { t.guy with commit := .done q } }
    let t := (t.serveHeld 0).serveHeld 1
    let t := match t.guy.held with
      | some r =>
        if r.t < s.nsUp then
          ({ t with guy := { t.guy with held := some { r with at_ := max r.at_ (tenNs s.nsUp) } } }).event 0x0508 srcPackage
            ((s.nsUp - r.t) % 2 ^ 32)
        else t
      | none => t
    act s true (if q then ({ t with pitch := { t.pitch with st := .quiesced } } : State).maybeQuiesced else t)
  | _ => .next s

/-! ## The drain (R377 to R384) -/

/-- Zero the record of a stage slot before its first line (R383). -/
def State.zeroStage (s : State) (x : Nat) : State :=
  match s.ckpt.stage with
  | some p => { s with mem := clearRange s.mem (p.base + p.size - 256 + 128 * x) 128 }
  | none => s

/-- The drain of a new flysheet starts, or restarts into its slot (R379, Table 17.2). -/
def State.startDrain (s : State) : State :=
  if s.dnat 0xA010 3 = 0xFFFF then s else
  match s.ckpt.drain with
  | some d =>
    let t := s.event 0x0807 srcPackage d.slot
    ({ t with ckpt := { t.ckpt with restarts := count 32 t.ckpt.restarts 1
                                    drain := some { slot := d.slot, step := s.job.step, unacked := d.unacked } } }).zeroStage d.slot
  | none =>
    let x := if s.ckpt.newest = some 0 then 1 else 0
    ({ s with ckpt := { s.ckpt with drain := some { slot := x, step := s.job.step } } }).zeroStage x

/-- CAPTURE_COMPLETE: action 5 is done (R377). -/
def execCaptureComplete (s : State) : Res :=
  match s.guy.commit with
  | .running 4 false q =>
    let t := s.commitIn.copyState 0 1
    let t := { t with guy := { t.guy with commit := .running 5 true q }
                      ckpt := { t.ckpt with flyStep := t.job.step }, err := { t.err with inputChanged := false } }
    act s true (((t.serveHeld 0).serveHeld 1).startDrain)
  | _ => .next s

/-- The commit record of a drain (Table 17.1). -/
def State.commitRecord (s : State) (d : Drain) : List Byte :=
  leBytes 4 0x43415642 ++ leBytes 2 s.job.id ++ leBytes 2 s.job.rank ++ leBytes 8 d.step ++ leBytes 8 s.stateSize
  ++ leBytes 1 d.slot ++ leBytes 2 s.job.ranks ++ zeros 5 ++ chunkedDigest (s.stepState 1)
  ++ ((s.job.image.map Image.digest).getD (zeros 64)).take 32

/-- DRAIN_LINES_ACKED: the commit record follows the last line (R382, R383). -/
def execDrainLinesAcked (s : State) : Res :=
  match s.ckpt.drain with
  | some d =>
    let r := s.commitRecord d
    let t := match s.ckpt.stage with
      | some p => s.store (p.base + p.size - 256 + 128 * d.slot) r
      | none => s
    let t := t.inject 0 (slotPacket (s.dnat 0xA010 3) (recordAddr d.slot) r) .record
    act s (decide (s.stateLines ≤ d.next) && d.unacked == 0 && !d.recordOut && s.mayInject 0 1)
      { t with ckpt := { t.ckpt with drain := some { d with recordOut := true } } }
  | none => .next s

/-- DRAIN_RECORD_ACKED: the slot is valid (R382). -/
def execDrainRecordAcked (s : State) : Res :=
  match s.ckpt.drain with
  | some d => act s (d.recordOut && !s.fab.track.any (fun t => t.owner == .record))
      { s with ckpt := { s.ckpt with drain := none, drainedStep := d.step, newest := some d.slot } }
  | none => .next s

/-! ## Replay (R363 to R368) -/

/-- Everything of the attempt stops and is dropped; command stores and gangs stay (Table 16.5, actions 1 and 2). -/
def Core.halt (k : Core) : Core :=
  { ({} : Core) with scratch := k.scratch, bank0 := k.bank0, bank1 := k.bank1, activeIs1 := k.activeIs1, entry := k.entry
                     gang := k.gang, pgang := k.pgang, stats := k.stats }

/-- A hart after ABANDON: its architectural state is discarded (R202). -/
def Hart.halt (h : Hart) : Hart := { ({} : Hart) with st := if h.st = .off then .off else .halted, stats := h.stats }

/-- A package acts on ABANDON (Table 16.5): its new attempt, the abandoned step, the step F of the flysheet. -/
def State.abandon (s : State) (attempt step f : Nat) : State :=
  let t := s.event 0x0803 srcPackage (attempt % 256 + step % 2 ^ 48 * 2 ^ 8)
  { t with
      job := { t.job with attempt := attempt, stepRunning := false }
      err := { t.err with st := 2, first := none, replays := count 32 t.err.replays 1, stepFailed := false
                          replayTo := some step, restoreStep := f }
      cores := nall {} Core.halt t.cores
      harts := nall {} Hart.halt t.harts
      stations := t.stations.map (fun e => (e.1, { e.2 with ring := [], ctxs := [] }))
      links := t.links.map (fun e => (e.1, { e.2 with queue := [] }))
      coll := { t.coll with runs := [], inbox := [] }, nacks := [], reissues := [], tt := { t.tt with waiting := [], arrived := [] }
      outputs := { t.outputs with queue := [] }
      fab := { t.fab with track := [], txSeq := [], rxSpace := [], reorder := [], keepSeq := [], unanswered := [], lineQ := []
                          lineLast := [], unacked := [], puts := [], spaceLock := [] }
      guy := { t.guy with arrivals := t.guy.arrivals.filter (fun a => decide (attempt ≤ a.attempt)), ownEnd := none
                          sentClean := false, sentFailed := false, restored := false, held := none, commit := .none }
      ckpt := { t.ckpt with
        restarts := if t.ckpt.drain.isSome then count 32 t.ckpt.restarts 1 else t.ckpt.restarts
        drain := t.ckpt.drain.map (fun d => { slot := d.slot, step := d.step }) } }

/-- The root replays: ABANDON to its children, then it acts itself (R364, R18, R22). -/
def State.replay (s : State) (rank code : Nat) : State :=
  let a := s.job.attempt + 1
  let p := leBytes 8 s.ckpt.flyStep ++ leBytes 2 rank ++ leBytes 2 code ++ zeros 4
  (s.children.foldl (fun s c => s.sendGuy 4 0 false c ⟨s.job.id, a, s.job.step⟩ p) s).abandon a s.job.step s.ckpt.flyStep

/-- The root's decision on a failed step: replay, or strike (R363, R31, Table 16.6, R18). -/
def State.rootFailed (s : State) (child : Option Nat) : State :=
  if s.decidedStep || s.err.replayTo.isSome then s.strikeAll 3
  else if s.dnat 0x9810 1 ≠ 1 then s.strikeAll 3
  else if 255 ≤ s.job.attempt then s.strikeAll 4
  else if s.ckpt.flyStep = 0xFFFFFFFFFFFFFFFF then s.strikeAll 3
  else match child with
    | some c => s.taken.replay c ((Config.freeWord s.free).toNat % 65536)
    | none => s.replay s.err.failRank s.err.failCode

/-! ## Arrivals and the commit decision (R312, R313) -/

/-- Ramp time to a higher voltage, in ns (R317). -/
def State.rampNs (s : State) (opp : Nat) : Nat :=
  if opp = 0xFF then 0
  else 200 * ((opTable.getD opp (0, 0)).2 - (opTable.getD s.requestedPoint (0, 0)).2)

/-- A RELEASE announces an operating point (R317). -/
def State.takeOpp (s : State) (opp : Nat) : State :=
  if opp = 0xFF then s else { s with power := { s.power with next := some opp } }.retarget

/-- The root's commit decision (R17, R21, R313, R317, R354, R368, R19, R23). -/
def State.commitDecision (s : State) : State :=
  if s.job.step = 0xFFFFFFFFFFFFFFFF then s.strikeAll 5
  else if !s.catchup && (s.dnat 0x9030 3 == s.job.step || s.pitch.quiescing) then
    let t := s.children.foldl (fun s c => s.sendPitch 8 0 0 0 c []) s
    ({ t with pitch := { t.pitch with quiescing := false } } : State).beginCommit true
  else
    let opp := s.dnat 0x8020 6
    let us (f : Image → Nat) : Nat := 1000 * (s.job.image.map f).getD 0
    let c := if s.catchup then 0 else if s.flyDue then us Image.flyUs else us Image.commitUs
    let t0 := s.nsUp + s.guy.margin + c + s.rampNs opp
    let t := if s.err.replayTo.isSome then t0 else max t0 (if us Image.periodUs = 0 then 0 else s.job.relT + us Image.periodUs)
    (((s.setDval 0x8020 6 [0xFF]).takeOpp opp).holdRelease (s.job.step + 1) s.job.attempt (tenNs t) opp).beginCommit false

/-- The arrivals of one tag. -/
def State.tagged (s : State) (attempt step : Nat) : List Arrival :=
  s.guy.arrivals.filter (fun a => a.attempt == attempt && a.step == step)

/-- The gathered bit of an arrival (R365). -/
def State.gatheredBit (s : State) (l : List Arrival) : Bool := s.err.inputChanged || l.any Arrival.input

/-- What the arrivals and the package's own step end call for (R312, R313, R363, R365, R367). -/
def State.gather (s : State) : State :=
  let up := parentOf s.job.rank
  if s.guy.restored then
    let l := s.tagged s.job.attempt (s.job.step - 1)
    if !s.guy.sentClean && s.children.all (fun c => l.any (fun a => a.child == c && a.clean)) then
      let t := { s with guy := { s.guy with sentClean := true } }
      if s.job.rank = 0 then (if s.gatheredBit l then t.strikeAll 3 else t.plainRelease s.job.step)
      else t.sendGuy 1 0 (s.gatheredBit l) up ⟨s.job.id, s.job.attempt, s.job.step - 1⟩ []
    else s
  else if !s.job.stepRunning then s
  else
    let l := s.tagged s.job.attempt s.job.step
    let bad := l.find? (fun a => !a.clean)
    if s.guy.ownEnd = some false ∨ bad.isSome then
      if s.guy.sentFailed then s else
      let t := { s with guy := { s.guy with sentFailed := true } }
      if s.job.rank = 0 then t.rootFailed (if s.guy.ownEnd = some false then none else bad.map Arrival.child)
      else t.sendGuy 2 0 (s.gatheredBit l) up s.epoch []
    else if s.guy.ownEnd = some true ∧ !s.guy.sentClean ∧ s.children.all (fun c => l.any (fun a => a.child == c && a.clean)) then
      let t := { s with guy := { s.guy with sentClean := true } }
      if s.job.rank = 0 then t.commitDecision else t.sendGuy 1 0 (s.gatheredBit l) up s.epoch []
    else s

/-- Have all transfers of the timetable that are addressed to the package arrived (R20)? -/
def State.ttComplete (s : State) : Bool :=
  match s.job.image with
  | none => true
  | some im =>
    let r := (ttReceives im s.job.rank).map Prod.fst
    r.all (fun i => decide (r.count i ≤ s.tt.arrived.count i))

/-- Has a hart reached its part of step end (R179, R180)? -/
def Hart.atEnd (h : Hart) : Bool := h.st == .off || h.ended

/-- Is every condition of R20 met? -/
def State.stepDone (s : State) : Bool :=
  s.cores.all (fun e => e.2.atEnd) && s.harts.all (fun e => e.2.atEnd) && s.links.all (fun e => e.2.queue.isEmpty)
  && s.stations.all (fun e => e.2.ring.isEmpty && e.2.ctxs.isEmpty) && s.ttComplete && s.fab.unacked.isEmpty

/-- PACKAGE_STEP_END: step end is reached clean, or failed (R20, R362); the package's entries take their snapshot, and
those of the harts that have not reached their part (R448). -/
def execPackageStepEnd (s : State) : Res :=
  let late := (s.harts.filter (fun e => !e.2.atEnd)).map Prod.fst
  let fresh := s.guy.ownEnd.isNone && (s.stepDone || s.err.stepFailed)
  let again := s.guy.ownEnd == some true && s.err.stepFailed
  let t := { s with guy := { s.guy with ownEnd := some (!s.err.stepFailed) } }
  let t := if fresh then late.foldl (fun s h => s.snapshot .hart h) (t.snapshot .pkg 0) else t
  act s (s.pitch.st == .running && s.job.stepRunning && !s.decidedStep && (fresh || again)) t.gather

/-- An arrival of a child (R311, R312). -/
def State.arrival (s : State) (k : Packet) (clean : Bool) : State :=
  let s := (s.takeLocal k).1
  if !s.job.held || k.job ≠ s.job.id then { s with guy := { s.guy with discards := count 32 s.guy.discards 1 } }
  else if !s.children.contains k.srcRank then s
  else
    let a : Arrival := ⟨k.srcRank, k.attempt, k.step, clean, bitAt 16 k.arg⟩
    let s := { s with guy := { s.guy with lastArrival := s.ns } }
    if k.attempt < s.job.attempt then s
    else if !clean && s.job.rank == 0 && s.decidedStep && k.step == s.job.step && k.attempt == s.job.attempt then s.strikeAll 3
    else ({ s with guy := { s.guy with arrivals := s.guy.arrivals ++ [a] } } : State).gather

/-- ARRIVE_CLEAN (R312). -/
def execArriveClean (pkt : Packet) (s : State) : Res :=
  act s (s.isMine pkt kGUY && bits 7 0 pkt.arg == 1) (s.arrival pkt true)

/-- ARRIVE_FAILED (R312). -/
def execArriveFailed (pkt : Packet) (s : State) : Res :=
  act s (s.isMine pkt kGUY && bits 7 0 pkt.arg == 2) (s.arrival pkt false)

/-- GUYLINE_CHILD_TIMEOUT: a child's arrival is missing after the package's own step end (R318). -/
def execGuylineChildTimeout (child : Nat) (s : State) : Res :=
  act s (s.job.stepRunning && s.guy.ownEnd.isSome && s.children.contains child && !s.decidedStep
      && !(s.tagged s.job.attempt s.job.step).any (fun a => a.child == child))
    (s.reportJob 0x0506 srcPackage child noCore)

/-! ## RELEASE (R313 to R317) -/

/-- A RELEASE from the parent: passed on, held, and where it closes a step its commit begins (R26, R313). -/
def State.gotRelease (s : State) (k : Packet) : State :=
  let s := (s.takeLocal k).1
  if !s.job.held || k.job ≠ s.job.id then { s with guy := { s.guy with discards := count 32 s.guy.discards 1 } }
  else
    let opp := bits 15 8 k.arg
    let next := if s.job.stepRunning then s.job.step + 1 else s.job.step
    let ready := s.pitch.st == .ready || s.pitch.st == .quiesced || s.guy.restored || s.guy.sentClean
    if k.srcRank ≠ parentOf s.job.rank ∨ s.job.rank = 0 ∨ k.attempt ≠ s.job.attempt ∨ k.step ≠ next ∨ !ready
        ∨ s.guy.held.isSome then s
    else
      let commits := s.pitch.st == .running && s.job.stepRunning
      let t := (s.takeOpp opp).holdRelease k.step k.attempt (fieldAt k.payload 0 8) opp
      if commits then t.beginCommit false else t

/-- RELEASE (R26, R313). -/
def execRelease (pkt : Packet) (s : State) : Res :=
  act s (s.isMine pkt kGUY && bits 7 0 pkt.arg == 3) (s.gotRelease pkt)

/-- The address of the region table (R181). -/
def regionTable : Nat := Config.regionTablePage % 0x7FFFF * 4096

/-- A core at a release (R67, R69, R73, R91, R107, R156, R162). -/
def Core.start (k : Core) : Core :=
  { k with seq := if k.entry.isSome then .run else .ended, pos := 0, reps := [], ctr := Vector.replicate 8 0
           cmp := Vector.replicate 4 {}, flags := 0, roleEpoch := 0, latch := [], set0 := {}, set1 := {}
           mescl := none, meexp := none, megath := none }

/-- Every core at a release. -/
def startCores (m : NMap Core) : NMap Core :=
  nall {} Core.start m

/-- Is a hart enabled (R178)? -/
def State.hartEnabled (s : State) (h : Nat) : Bool :=
  if h < 64 then bitAt h (s.dnat 0x6010 3) else bitAt (h - 64) (s.dnat 0x6010 4)

/-- A hart at a release (R178, Table 7.2). -/
def State.startHart (s : State) (h : Nat) : Hart :=
  let x := (List.range 32).map (fun i =>
    if i = 10 then BitVec.ofNat 64 s.job.rank else if i = 11 then BitVec.ofNat 64 h
    else if i = 12 then BitVec.ofNat 64 regionTable else if i = 13 then BitVec.ofNat 64 s.job.step
    else if i = 14 then BitVec.ofNat 64 s.job.attempt else (0 : Word))
  { ({} : Hart) with st := .running, pc := BitVec.ofNat 64 (s.copyBase (s.dnat 0x6010 1) 0 + s.dnat 0x6010 2)
                     x := Vector.ofFn (fun i => x.getD i.val 0), csr := { mstatus := 0x3A00 }, release := s.ns
                     stats := (s.hart h).stats }

/-- Every hart at a release (R178, R179). -/
def State.startHarts (s : State) : State :=
  (List.range 128).foldl (fun t h =>
    t.putHart h (if s.hartEnabled h then s.startHart h else { ({} : Hart) with stats := (s.hart h).stats })) s

/-- Is a pending value of a LIVE entry due at this release (R434)? -/
def State.liveDue (s : State) (key : Nat) : Bool :=
  match dictEntry (key / 256) (key % 256) with
  | some e => e.cls == .live && !s.dict.afterRelease.contains key
  | none => false

/-- Ports that came up while the job ran join their path sets (R276). -/
def State.joinPorts (s : State) : State :=
  let join (e : Nat × Port) : Nat × Port := (e.1, if e.2.st = .up then { e.2 with joined := true } else e.2)
  (s.modFab (fun b => { b with ports := b.ports.map join })).retryWaiting

/-- The step starts (R67, R178, R315, R316, R319, R434). -/
def State.release (s : State) (r : Release) : State :=
  let s := s.applyPending s.liveDue
  let s := { s with dict := { s.dict with afterRelease := [] } }
  let s := if r.late then
      ({ s with guy := { s.guy with late := count 32 s.guy.late 1 } }).event 0x0505 srcPackage ((r.at_ - r.t) % 2 ^ 32)
    else s
  let own := match s.job.image with
    | some im => (ttSends im s.job.rank).map (fun e => ({ entry := e.1, armed := !e.2.arm } : TtWait))
    | none => []
  let st := match s.err.replayTo with
    | some q => if r.step < q then 3 else 4
    | none => s.err.st
  let s := { s with
      job := { s.job with step := r.step, relT := r.t, relNow := s.ns, stepRunning := true, steps := s.job.steps + 1 }
      pitch := { s.pitch with st := .running, quiesced := [] }
      err := { s.err with st := st, stepFailed := false }
      guy := { s.guy with held := none, commit := .none, ownEnd := none, sentClean := false, sentFailed := false
                          restored := false, lastRelease := r.t
                          arrivals := s.guy.arrivals.filter (fun a => decide (r.step ≤ a.step)) }
      tt := { s.tt with waiting := own, arrived := [] }
      fab := { s.fab with hotStep := false, pathEmpty := [] }
      hbm := { s.hbm with stepParity := [] }
      cores := startCores s.cores }
  let idle := (s.cores.filter (fun e => e.2.seq == .ended)).map Prod.fst
  let s := idle.foldl (fun s c => State.snapshot s .core c) s
  let s := s.startHarts.joinPorts
  let keys := (s.fab.reorder.map (fun e => rxKey e.2)).eraseDups
  keys.foldl (fun s k => State.drainSpace k s.fab.reorder.length s) s

/-- RELEASE_AT_T: at T, or when a late package is ready (R26, R315). -/
def execReleaseAtT (s : State) : Res :=
  let ready := match s.guy.commit with
    | .running _ _ _ => false
    | _ => true
  match s.guy.held with
  | some r => act s (ready && s.power.next.isNone && decide (256 * r.at_ ≤ s.now)) (s.release r)
  | none => .next s

/-- OPPOINT_SWITCH: an idle package switches to the announced point from T - 2 us on (R317, Table 13.6). -/
def execOppointSwitch (s : State) : Res :=
  let idle := match s.guy.commit with
    | .running _ _ _ => false
    | _ => true
  match s.power.next, s.guy.held with
  | some o, some r =>
    let cap := max s.power.thermalCap s.power.powerCap
    act s (idle && decide (256 * r.t ≤ s.now + 512000) && decide (s.power.volt ≤ max o cap))
      ({ s with power := { s.power with job := some o, next := none } }).retarget
  | _, _ => .next s

/-! ## ABANDON (R364, R365) -/

/-- ABANDON: passed on, then acted on; one of an attempt not above the own is discarded (R364, R365). -/
def execAbandon (pkt : Packet) (s : State) : Res :=
  let t := (s.takeLocal pkt).1
  let u :=
    if !t.job.held || pkt.job ≠ t.job.id then { t with guy := { t.guy with discards := count 32 t.guy.discards 1 } }
    else if pkt.srcRank ≠ parentOf t.job.rank ∨ t.job.rank = 0 ∨ pkt.attempt ≤ t.job.attempt then t
    else (t.children.foldl (fun s c => s.sendGuy 4 0 false c ⟨pkt.job, pkt.attempt, pkt.step⟩ pkt.payload) t).abandon
      pkt.attempt pkt.step (fieldAt pkt.payload 0 8)
  act s (s.isMine pkt kGUY && bits 7 0 pkt.arg == 4) u

/-- The entry role of a core is made active (R68, Table 16.5 action 4). -/
def Core.reenter (im : Image) (k : Core) : Core :=
  match k.entry with
  | none => k
  | some e =>
    if k.bank.role = some e then k
    else
      let b : Bank := if k.standby.role = some e ∧ k.standby.st = .ready then k.standby
        else match im.role e with
          | some r => { st := .ready, role := some e, cmds := r.cmds, descs := r.descs }
          | none => k.standby
      let old := { k.bank with st := .ready }
      { k with activeIs1 := !k.activeIs1, bank0 := if k.activeIs1 then { b with st := .active } else old
               bank1 := if k.activeIs1 then old else { b with st := .active } }

/-- The maintenance passes that the loader makes on a core: how many the spec does not say (R139). -/
def Core.maintained (k : Core) (n : Nat) : Core :=
  { k with stats := { k.stats with maintPasses := count 32 k.stats.maintPasses (Config.freeWord n).toNat } }

/-- Recovery re-layout of a core (Table 16.5, action 4). -/
def Core.relayout (im : Image) (n : Nat) (k : Core) : Core :=
  let z : Core := { k.halt with scratch := [] }
  (z.reenter im).maintained n

/-- Recovery re-layout of every core. -/
def relayoutCores (im : Image) (n : Nat) (m : NMap Core) : NMap Core :=
  m.map (fun e => (e.1, Core.relayout im (n + e.1) e.2))

/-- RECOVERY_RELAYOUT_COMPLETE: step state restored, cores laid out again (Table 16.5, actions 3 to 5). -/
def execRecoveryRelayoutComplete (s : State) : Res :=
  match s.job.image with
  | some im =>
    let t := s.copyState 1 0
    let t := { t with cores := relayoutCores im t.free t.cores
                      free := t.free + 256
                      job := { t.job with step := s.err.restoreStep + 1 }, guy := { t.guy with restored := true } }
    act s (s.err.st == 2 && !s.guy.restored) t.gather
  | none => .next s

end Sys2Proof.Machine
end

