-- ==== Sys2Proof/Machine/Load.lean ====
section
/-!
DEFINITION. The end of a job reset and the load of an image (15_pitch_and_strike.md R344, R347, R356; 06_brynno_commands.md
R149, R171; 09_memory.md R231, R245; 17_checkpoint.md R383, R386; 18_clocks_reset_power.md R400).
-/
namespace Sys2Proof.Machine

open Sys2Proof

/-! ## Job reset (R344) -/

/-- A core after a job reset: its count of maintenance passes runs since the package reset (Table 5.10). -/
def Core.afterJob (k : Core) : Core := { ({} : Core) with stats := { maintPasses := k.stats.maintPasses } }

/-- Cores after a job reset. -/
def coresAfterJob (m : NMap Core) : NMap Core :=
  nall {} Core.afterJob m

/-- Stack counters after a job reset: those since pitch are zero (Table 9.7). -/
def StackStats.afterJob (t : StackStats) : StackStats := { parity := t.parity, ecc := t.ecc }

/-- Stack counters of the package after a job reset. -/
def stacksAfterJob (m : NMap StackStats) : NMap StackStats :=
  nall {} StackStats.afterJob m

/-- Counters since pitch are zero (R447, Table 21.3). -/
def State.sincePitch (s : State) : State :=
  { s with
      cores := coresAfterJob s.cores, harts := [], stations := [], links := [], coll := {}, tt := {}
      hbm := { s.hbm with sectorReads := 0, sectorWrites := 0, stats := stacksAfterJob s.hbm.stats, stepParity := [] }
      far0 := { s.far0 with poison := 0 }, far1 := { s.far1 with poison := 0 }
      canopy := { hotLast := s.canopy.hotLast, deadTarget := s.canopy.deadTarget }
      rp := { s.rp with drifts := 0 }
      guy := { lastRelease := s.guy.lastRelease, lastArrival := s.guy.lastArrival, margin := s.guy.margin }
      err := { st := s.err.st, resetRequested := s.err.resetRequested }
      ckpt := { s.ckpt with restarts := 0 } }

/-- Does a job reset leave a byte of memory: the far tier, and the bivouac where it is kept (R245, R344)? -/
def State.keepsByte (s : State) (a : Nat) : Bool :=
  decide (stackedBytes ≤ a)
  || (s.pitch.keepBivouac
      && ((decide (recordAddr 0 ≤ a) && decide (a < recordAddr 0 + 256))
          || s.ckpt.slots.any (fun r => decide (r.1 ≤ a) && decide (a < r.1 + r.2))))

/-- The wipe of a job reset (R241, R344): memory, snapshots, outputs; pending LIVE values apply (Table 21.3). -/
def State.jobWipe (s : State) (wipeUs : Nat) : State :=
  let k := s.pitch.keepBivouac
  let t := s.sincePitch.applyPending (fun key => !resetClass key)
  { t with
      mem := s.mem.filter (fun c => s.keepsByte c.1)
      hbm := { t.hbm with wipeUs := min wipeUs (2 ^ 32 - 1) }
      outputs := {}
      dict := { t.dict with snap := [], afterRelease := [] }
      ckpt := { t.ckpt with flyStep := 2 ^ 64 - 1, slots := if k then t.ckpt.slots else []
                            newest := if k then t.ckpt.newest else none
                            drainedStep := if k then t.ckpt.drainedStep else 2 ^ 64 - 1 }
      pitch := { t.pitch with resetting := none, keepBivouac := false } }

/-- The package holds no job (R345, R352): it is IDLE, its point is the idle one (R395), its ports join their path sets
and its hosts are served. -/
def State.toIdle (s : State) : State :=
  let t := { s with
      job := {}
      pitch := { s.pitch with st := .idle, recv := [], accepted := [], loaded := [], acked := [], failed := [], quiesced := []
                              ownLoaded := false, failSent := false, quiescing := false }
      err := { s.err with st := if s.err.st = 6 then 6 else 0 }
      rp := { s.rp with parent := none }
      power := { s.power with job := none, next := none } }
  ((t.joinPorts.serveHeld 0).serveHeld 1).retarget

/-- JOB_RESET_DONE: the wipe is complete (R344, R345, R352). -/
def execJobResetDone (wipeUs : Nat) (s : State) : Res :=
  match s.pitch.resetting with
  | some .idle => act s true (s.jobWipe wipeUs).toIdle
  | some .load => act s true (s.jobWipe wipeUs).retarget
  | none => .next s

/-! ## What an image needs of a package (R171, R400) -/

/-- What the package offers an image (R233, R244). -/
def State.capacity (s : State) : Capacity :=
  { nGood := (goodChannels s.hbm.out).length
    nd := (List.range 8).map (fun d => (dieChannels s.hbm.out d).length)
    farBytes := [s.far0.device, s.far1.device]
    farBase := [s.dnat 0xE200 4, s.dnat 0xE201 4] }

/-- A numeric entry of the dictionary, for FAMILY requirements (R148, R14). -/
def State.familyValue (s : State) (idx sub : Nat) : Option Nat :=
  match dictEntry idx sub with
  | some e => e.ty.size.map (fun _ => leNat (s.currentValue idx sub))
  | none => none

/-- The roles that a core runs on a rank. -/
def rolesOf (im : Image) (rank c : Nat) : List Role :=
  match entryOf im rank c with
  | some e => distinctRoles (stepRoles im e)
  | none => []

/-- The cores that have a role on a rank. -/
def usedCores (im : Image) (rank : Nat) : List Nat := (List.range 256).filter (fun c => (entryOf im rank c).isSome)

/-- The blocks of `ClockEnable.Blocks` that a rank needs: linkage engines, reduction units, far ports (Table 18.5). -/
def usedBlocks (im : Image) (rank : Nat) (placed : List Placed) : List Nat :=
  let far := placed.filter (fun p => p.r.kind == .far && decide (0 < p.r.size))
  let end0 := stackedBytes + farWindow
  (usedCores im rank).flatMap (fun c =>
    (rolesOf im rank c).flatMap (fun r => r.cmds.flatMap (fun w =>
      if bits 7 0 w = 0x42 then [16 + c / 32]
      else if bits 7 0 w = 0x53 ∧ (bits 10 8 ((descOf r.descs w).headD 0) = 1 ∨ bits 10 8 ((descOf r.descs w).headD 0) = 2) then
        [8 * gdOfCore c + c % 8]
      else [])))
  ++ (if far.any (fun p => decide (p.bases.headD 0 < end0)) then [24] else [])
  ++ (if far.any (fun p => decide (end0 < p.bases.headD 0 + p.r.size)) then [25] else [])

/-- The stations that a rank needs. -/
def usedStations (im : Image) (rank : Nat) : List Nat :=
  (usedCores im rank).flatMap (fun c => (rolesOf im rank c).flatMap (fun r => r.cmds.filterMap (fun w =>
    if bits 7 0 w = 0x43 then some (convDescOf (im.conv.getD (bits 19 8 w) 0)).station else none)))

/-- The first `ClockEnable` entry that holds a gated block which the image needs (R400). -/
def State.gatedEntry (s : State) (im : Image) (rank : Nat) (placed : List Placed) : Option Nat :=
  let off (sub : Nat) (l : List Nat) : Bool := l.any (fun b => !bitAt b (s.dnat 0x2010 sub))
  if off 1 (usedCores im rank) then some 0x201001
  else if off 3 (usedBlocks im rank placed) then some 0x201003
  else if off 4 (usedStations im rank) then some 0x201004
  else none

/-! ## The load (R347) -/

/-- Set the modes of the slabs in use (R230, R231); slab 0 is the package's own. -/
def slabModes (st : PlaceSt) : NMap Nat := st.slabs.foldl (fun m e => nset 0 m e.1 e.2) (nset 0 [] 0 0xFF)

/-- The copies of a region that take initial contents (R149). -/
def initCopies (p : Placed) : List Nat := if p.r.kind = .state then p.bases.take 2 else p.bases

/-- Put the initial contents of a region into its copies; every other byte of every copy is zero (R149, R344). -/
def initRegion (im : Image) (m : Cells) (p : Placed) : Cells :=
  let len := if p.r.kind = .output then p.r.size + 64 else p.r.size
  let init := regionInit im p.r
  let m := p.bases.foldl (fun m b => clearRange m b len) m
  (initCopies p).foldl (fun m b => writeBytes m b init) m

/-- Lay out the weights of one entry (R153). -/
def layWeights (im : Image) (placed : List Placed) (m : Cells) (n : Nat) : Cells :=
  match placed.find? (fun p => p.r.id == bits 23 16 n) with
  | some p => (wlWrites im n).foldl (fun m e => p.bases.foldl (fun m b => writeBytes m (b + e.1) e.2) m) m
  | none => m

/-- One entry of the region table (R181). -/
def tableEntry (placed : List Placed) (i : Nat) : List Byte :=
  match placed.find? (fun p => p.r.id == i) with
  | some p => if p.r.kind = .host then zeros 16 else leBytes 8 (p.bases.headD 0) ++ leBytes 8 p.r.size
  | none => zeros 16

/-- The region table (R181). -/
def tableBytes (placed : List Placed) : List Byte := (List.range 256).flatMap (tableEntry placed)

/-- A core as the loader leaves it (R83, R88, R151). -/
def loadCore (im : Image) (rank n : Nat) (stats : CoreStats) (c : Nat) : Core :=
  let gangs := im.gangs.filter (fun g => decide (g.lo ≤ rank) && decide (rank ≤ g.hi) && (gangCores im g).contains c)
  let k : Core :=
    { gang := ((gangs.find? (fun g => g.gang < 16)).map Gang.gang).getD 255
      pgang := ((gangs.find? (fun g => 16 ≤ g.gang)).map Gang.gang).getD 255
      stats := stats }
  match (entryOf im rank c).bind (fun e => (im.role e)) with
  | some r => ({ k with entry := some r.id, bank0 := { st := .active, role := some r.id, cmds := r.cmds, descs := r.descs } }
      : Core).maintained n
  | none => { k with bank0 := { st := .active, cmds := [5] } }

/-- The loader places an image that has passed its checks, with what memory, cores and digests hold then. `keep` keeps
the contents of every region copy (R356). -/
def State.placeJob (s : State) (im : Image) (st : PlaceSt) (placed : List Placed) (keep : Bool) : State :=
  let stage := s.dnat 0xA010 5
  let spared (p : Placed) : Bool := p.r.kind == .far && p.r.id == stage && s.job.kind != 1
  let m := if keep then s.mem
    else im.wlayout.foldl (layWeights im placed) ((placed.filter (fun (p : Placed) => !spared p)).foldl (initRegion im) s.mem)
  let states := placed.filter (fun (p : Placed) => p.r.kind == RegionKind.state)
  let size := (states.map (fun (p : Placed) => p.r.size)).sum
  let t := { s with
      mem := writeBytes m regionTable (tableBytes placed)
      hbm := { s.hbm with slabs := slabModes st }
      job := { s.job with image := some im, placed := placed }
      cores := ((List.range 256).map (fun c => (c, loadCore im s.job.rank (s.free + c) (s.core c).stats c)))
      free := s.free + 256
      outputs := { s.outputs with active := if keep then s.outputs.active else [] }
      ckpt := { s.ckpt with
        flyStep := if keep then s.ckpt.flyStep else 2 ^ 64 - 1
        stage := (placed.find? (fun (p : Placed) => p.r.kind == RegionKind.far && p.r.id == stage)).map (fun (p : Placed) => ⟨p.bases.headD 0, p.r.size, size⟩)
        slots := states.flatMap (fun (p : Placed) => (p.bases.drop 2).map (fun b => (b, p.r.size))) } }
  let digests := (t.regionsOf .sealed).map (fun (p : Placed) => (p.r.id, chunkedDigest (t.load (p.bases.headD 0) p.r.size)))
  ({ t with outputs := { t.outputs with sealedTab := digests } } : State).digestInputs

/-- The load failed (Table 15.4). -/
def State.loadFail (s : State) (reason : Nat) : State :=
  ({ s with pitch := { s.pitch with failSent := true } } : State).pitchFail reason s.job.rank

/-- The own load is complete; at a RESTORE the package gives and takes step state before it is loaded (R386). -/
def State.loadDone (s : State) : State :=
  if s.job.kind ≠ 2 then ({ s with pitch := { s.pitch with ownLoaded := true } } : State).maybeLoaded
  else
    let f := s.job.first - 1
    let give : Option Drain :=
      if s.dnat 0xA010 4 = 0xFFFF then none
      else match s.wardSlot f with
        | some x => some { slot := x, step := f }
        | none => some { slot := 0, step := f, next := s.stateLines }
    let t := { s with ckpt := { s.ckpt with give := give, restoring := s.dnat 0xA010 3 != 0xFFFF } }
    if t.ckpt.restoring then
      let keys := (t.fab.reorder.map (fun e => rxKey e.2)).eraseDups
      keys.foldl (fun s k => State.drainSpace k s.fab.reorder.length s) t
    else t.restoreStage

/-- Are the region entries of two images equal (R356)? -/
def sameRegions (a b : List Region) : Bool :=
  let f (r : Region) : Nat × RegionKind × Bool × Nat × Nat := (r.id, r.kind, r.isLocal, r.die, r.size)
  (sortRegions a).map f == (sortRegions b).map f

/-- Check and load a fetched image (R347). -/
def State.loadImage (s : State) (img : List Byte) : State :=
  match checkImage img s.job.ranks (slice s.pitch.record 64 64) s.familyValue s.capacity with
  | .error r => ({ s with reject := some r } : State).loadFail 0x07
  | .ok im =>
    let p := placeImage im s.capacity
    let size := ((p.2.filter (fun (q : Placed) => q.r.kind == .state)).map (fun (q : Placed) => q.r.size)).sum
    let small := p.2.any (fun (q : Placed) => q.r.kind == .far && q.r.id == s.dnat 0xA010 5 && decide (q.r.size < 2 * size + 256))
    match s.gatedEntry im s.job.rank p.2 with
    | some e => ({ s with reject := some ⟨rjCapacity, 0xFFFF, 0, e⟩ } : State).loadFail 0x07
    | none =>
      let t := { s with reject := none }
      if im.regions.any (fun r => r.kind == .host && (s.binding r.id).isNone) then t.loadFail 0x08
      else if small then t.loadFail 0x07
      else
        let keep := match s.job.image with
          | some old => s.job.kind == 3 && sameRegions old.regions im.regions
          | none => false
        (t.placeJob im p.1 p.2 keep).loadDone

/-- LOAD_COMPLETE: the image has come over its host port, or the fetch has failed (R347, Table 15.4). -/
def execLoadComplete (img : Option (List Byte)) (s : State) : Res :=
  let src := s.dval 0x9030 6
  let okFetch (b : List Byte) : Bool :=
    b.length == fieldAt src 16 8 && fieldAt b 16 8 == b.length && !(s.hp (fieldAt src 0 1)).inPerst
  act s (s.pitch.st == .accepted && s.pitch.resetting.isNone && !s.pitch.ownLoaded && !s.pitch.failSent && !s.ckpt.restoring)
    (match img with
     | some b => if okFetch b then s.loadImage b else s.loadFail 0x06
     | none => s.loadFail 0x06)

end Sys2Proof.Machine
end

