-- ==== Sys2Proof/Machine/Pitch.lean ====
section
/-!
DEFINITION. The pitch, its messages and its failures, strike, quiesce and leave (15_pitch_and_strike.md R341 to R357).
-/
namespace Sys2Proof.Machine

open Sys2Proof

/-! ## The record (R341, R343, R346) -/

/-- The rank at which the own position stands in a record's peg table, below its RANKS. -/
def State.rankIn (s : State) (r : List Byte) : Option Nat :=
  if s.fab.tabs.own = 0xFFFF then none
  else (List.range (fieldAt r 8 2)).find? (fun k => (recordPeg r).getD k 0xFFFF == s.fab.tabs.own)

/-- The checks of R346: the reason of a failure, or the rank. -/
def State.recordCheck (s : State) (r : List Byte) : Except Nat Nat :=
  match s.rankIn r with
  | none => .error 0x05
  | some k =>
    if recordPeg r != (List.range 512).map s.fab.tabs.pegOf then .error 0x05
    else if s.jobHeld && !(s.pitch.st == .quiesced && fieldAt r 4 2 == 3 && fieldAt r 6 2 == s.job.id) then .error 0x04
    else .ok k

/-- Send the held record to a child: 5 packets in ascending offset (R343). -/
def State.sendRecord (s : State) (dst : Nat) : State :=
  (List.range 5).foldl (fun s i => s.sendPitch 1 0 0 (256 * i) dst (slice s.pitch.record (256 * i) 256)) s

/-- A continuing package takes the record of a RESIZE (Tables 15.3, 15.7): sequence spaces restart, the checkpoint
settings of R388 apply. -/
def State.continuePitch (s : State) (r : List Byte) (rank : Nat) : State :=
  let t := s.applyPending (fun k => [dictKey 0xA010 3, dictKey 0xA010 4, dictKey 0xA010 5].contains k)
  { t with
      job := { t.job with first := fieldAt r 16 8, kind := 3, rank := rank, ranks := fieldAt r 8 2, seed := fieldAt r 24 8
                          peg := recordPeg r }
      guy := { t.guy with arrivals := [] }
      fab := { t.fab with track := [], txSeq := [], rxSpace := [], reorder := [], keepSeq := [], unanswered := [], lineQ := []
                          lineLast := [], unacked := [], puts := [], spaceLock := [] } }

/-- A package takes the record of a job that is new to it: a job reset comes first (R344). -/
def State.newPitch (s : State) (r : List Byte) (rank : Nat) : State :=
  let t := { s with job :=
      { held := true, id := fieldAt r 6 2, attempt := fieldAt r 32 1, step := fieldAt r 16 8, first := fieldAt r 16 8
        kind := fieldAt r 4 2, rank := rank, ranks := fieldAt r 8 2, seed := fieldAt r 24 8, peg := recordPeg r } }
  t.beginReset .load (fieldAt r 4 2 == 2)

/-- A record that has passed its checks: ACCEPT to the parent, RECORD to each child, ACCEPTED (Table 15.3). -/
def State.acceptPitch (s : State) (r : List Byte) (rank : Nat) : State :=
  let t := if s.jobHeld then s.continuePitch r rank else s.newPitch r rank
  let t := { t with pitch := { t.pitch with
      st := .accepted, recv := [], record := r, accepted := [], loaded := [], acked := [], failed := [], quiesced := []
      ownLoaded := false, failSent := false, struck := none, quiescing := false } }
  let t := if rank = 0 then t else t.sendPitch 2 0 0 0 (parentOf rank) []
  t.children.foldl State.sendRecord t

/-- The root's record fails its own checks: the result is written; a RESIZE is struck, any other pitch is aborted
(R348, R356). -/
def State.rootRecordFail (s : State) (r : List Byte) (reason : Nat) : State :=
  let t := { s with pitch := { s.pitch with reason := reason, resultRank := 0, resultJob := fieldAt r 6 2 } }
  if s.jobHeld then (t.sendStrike 6).strikeSelf 6
  else
    let ranks := (((List.range 512).zip (recordPeg r)).filter (fun e => e.2 != 0xFFFF && e.1 != 0)).map Prod.fst
    ranks.foldl (fun s k => s.ctl kPITCH 7 k (recordEpoch r) []) t

/-- A pitch record written at the root, past the refusals of R341. -/
def State.requestPitch (s : State) (r : List Byte) : State :=
  match s.recordCheck r with
  | .ok k => s.acceptPitch r k
  | .error e => s.rootRecordFail r e

/-- A packet of another job is discarded and counted (R343). -/
def State.discardPitch (s : State) : State := { s with guy := { s.guy with discards := count 32 s.guy.discards 1 } }

/-- A complete record from the parent (R343, R346). -/
def State.recordDone (s : State) (k : Packet) (r : List Byte) : State :=
  if s.jobHeld && s.job.id == fieldAt r 6 2 && fieldAt r 4 2 != 3 then s.discardPitch
  else match s.recordCheck r with
    | .ok rank => s.acceptPitch r rank
    | .error e => s.ctl kPITCH (6 + k.dstRank % 512 * 2 ^ 23 + e * 2 ^ 32) k.srcRank (recordEpoch r) []

/-- A RECORD packet: the segments of a record come in ascending offset (R343). -/
def State.recordPacket (s : State) (k : Packet) : State :=
  let s := (s.takeLocal k).1
  let off := bits 22 11 k.arg
  let got := if off = 0 then k.payload
    else if off = s.pitch.recv.length then s.pitch.recv ++ k.payload else s.pitch.recv
  if got.length < 1152 then { s with pitch := { s.pitch with recv := got } }
  else ({ s with pitch := { s.pitch with recv := [] } } : State).recordDone k (got.take 1152)

/-- The type of a PITCH packet (Table 15.2). -/
def pitchType (k : Packet) : Nat := bits 7 0 k.arg

/-- PITCH_RECORD (R343, R345, R346). -/
def execPitchRecord (pkt : Packet) (s : State) : Res :=
  act s (s.isMine pkt kPITCH && pitchType pkt == 1) (s.recordPacket pkt)

/-! ## Gathering (Table 15.3) -/

/-- A PITCH packet other than RECORD: of the package's own job, else discarded (R343). -/
def State.ownPitch (s : State) (k : Packet) (f : State → State) : State :=
  let s := (s.takeLocal k).1
  if !s.job.held || k.job ≠ s.job.id then s.discardPitch else f s

/-- Is a package leaving its job by a job reset? -/
def State.ending (s : State) : Bool := s.pitch.resetting == some .idle

/-- Add a member to a list of children, once. -/
def addOnce (l : List Nat) (c : Nat) : List Nat := if l.contains c then l else l ++ [c]

/-- PITCH_ACCEPT: a child has accepted (R345). -/
def execPitchAccept (pkt : Packet) (s : State) : Res :=
  act s (s.isMine pkt kPITCH && pitchType pkt == 2) (s.ownPitch pkt (fun s =>
    if s.pitching && s.children.contains pkt.srcRank then
      { s with pitch := { s.pitch with accepted := addOnce s.pitch.accepted pkt.srcRank } }
    else s))

/-- PITCH_LOADED: a child and all below it have loaded (R345). -/
def execPitchLoaded (pkt : Packet) (s : State) : Res :=
  act s (s.isMine pkt kPITCH && pitchType pkt == 3) (s.ownPitch pkt (fun s =>
    if s.pitch.st == .accepted && s.children.contains pkt.srcRank && !s.ending then
      ({ s with pitch := { s.pitch with loaded := addOnce s.pitch.loaded pkt.srcRank } } : State).maybeLoaded
    else s))

/-- PITCH_ALIGN: the parent is aligned, the package measures against it (R307). -/
def execPitchAlign (pkt : Packet) (s : State) : Res :=
  act s (s.isMine pkt kPITCH && pitchType pkt == 4) (s.ownPitch pkt (fun s =>
    if s.pitch.st == .loaded && s.job.rank != 0 && pkt.srcRank == parentOf s.job.rank && s.rp.measure.isNone && !s.ending then
      s.measure (.align 0)
    else s))

/-- PITCH_ACK: a child and all below it are READY (R345, R350). -/
def execPitchAck (pkt : Packet) (s : State) : Res :=
  act s (s.isMine pkt kPITCH && pitchType pkt == 5) (s.ownPitch pkt (fun s =>
    if s.pitching && s.children.contains pkt.srcRank && !s.ending then
      ({ s with pitch := { s.pitch with acked := addOnce s.pitch.acked pkt.srcRank } } : State).maybeReady
    else s))

/-- A failure below: FAIL goes up naming its rank, or the root aborts (R345, R348). -/
def State.childFail (s : State) (child reason rank : Nat) : State :=
  let t := { s with pitch := { s.pitch with failed := addOnce s.pitch.failed child } }
  t.pitchFail reason rank

/-- PITCH_FAIL (R345, R348). -/
def execPitchFail (pkt : Packet) (s : State) : Res :=
  act s (s.isMine pkt kPITCH && pitchType pkt == 6) (s.ownPitch pkt (fun s =>
    if s.pitching && s.children.contains pkt.srcRank && !s.ending then
      s.childFail pkt.srcRank (bits 39 32 pkt.arg) (bits 31 23 pkt.arg)
    else s))

/-- PITCH_ABORT: a job reset without bivouac (Table 15.3). -/
def execPitchAbort (pkt : Packet) (s : State) : Res :=
  act s (s.isMine pkt kPITCH && pitchType pkt == 7) (s.ownPitch pkt (fun s =>
    if s.pitch.st != .running && s.jobHeld && !s.ending then s.beginReset .idle false else s))

/-- PITCH_CHILD_TIMEOUT: NO_ACCEPT, NO_LOADED or NO_ACK (Table 15.4, R349). -/
def execPitchChildTimeout (child : Nat) (s : State) : Res :=
  let p := s.pitch
  let due := s.children.contains child && !p.failed.contains child && !s.ending
  let reason :=
    if p.st = .accepted ∧ !p.accepted.contains child then some 1
    else if p.st = .accepted ∧ !p.loaded.contains child then some 2
    else if p.st = .aligned ∧ !p.acked.contains child then some 3
    else none
  match reason with
  | some r => act s due (s.childFail child r child)
  | none => .next s

/-- PITCH_ABANDON_TIMEOUT: no READY in time (Table 15.3). -/
def execPitchAbandonTimeout (s : State) : Res :=
  act s (s.pitching && !s.ending) ((s.event 0x0806 srcPackage s.job.id).beginReset .idle false)

/-! ## Quiesce (R354) -/

/-- PITCH_QUIESCE: in place of the RELEASE; it is passed down and the commit sequence begins. -/
def execPitchQuiesce (pkt : Packet) (s : State) : Res :=
  act s (s.isMine pkt kPITCH && pitchType pkt == 8) (s.ownPitch pkt (fun s =>
    if s.pitch.st == .running && s.job.rank != 0 && pkt.srcRank == parentOf s.job.rank && s.job.stepRunning
        && s.guy.sentClean && !s.decidedStep && !s.ending then
      (s.children.foldl (fun s c => s.sendPitch 8 0 0 0 c []) s).beginCommit true
    else s))

/-- PITCH_QUIESCED: a child and all below it have quiesced. -/
def execPitchQuiesced (pkt : Packet) (s : State) : Res :=
  act s (s.isMine pkt kPITCH && pitchType pkt == 9) (s.ownPitch pkt (fun s =>
    if s.children.contains pkt.srcRank && !s.ending then
      ({ s with pitch := { s.pitch with quiesced := addOnce s.pitch.quiesced pkt.srcRank } } : State).maybeQuiesced
    else s))

/-! ## Strike and commands (R351, R352, R357) -/

/-- STRIKE_PACKET: of the own or the pitching job, and not of one already struck (R351, R352). -/
def execStrikePacket (pkt : Packet) (s : State) : Res :=
  let t := (s.takeLocal pkt).1
  act s (s.isMine pkt kSTRIKE)
    (if t.job.held && pkt.job == t.job.id && t.pitch.struck != some pkt.job && !t.ending then t.strikeSelf (bits 7 0 pkt.arg) else t)

/-- STRIKE written to `Pitch.Command` (R351); without a job it strikes none. -/
def State.commandStrike (s : State) : State := if s.jobHeld && !s.ending then s.strikeAll 1 else s

/-- QUIESCE written at the root (R354, R357). -/
def State.commandQuiesce (s : State) : State := { s with pitch := { s.pitch with quiescing := s.jobHeld } }

/-- RESUME written at a quiesced root: the RELEASE of the next step (R350, R354). -/
def State.commandResume (s : State) : State := if s.guy.held.isSome then s else s.plainRelease (s.job.step + 1)

/-- LEAVE written at a quiesced package (R355, R357). -/
def State.commandLeave (s : State) : State := if s.ending then s else s.beginReset .idle false

end Sys2Proof.Machine
end

