-- ==== Sys2Proof/Machine/DictCheck.lean ====
section
/-!
DEFINITION. What the dictionary service checks of a request: its header, its entry, gating, rights, signature, locks,
length, range and change class, in the order of Table 20.3 (20_dictionary_access.md R428 to R436, 21_dictionary_reference.md
R442 to R455, 22_security_lifecycle.md R468 to R471 and the entries' own rules).
-/
namespace Sys2Proof.Machine

open Sys2Proof

/-! ## Requests (R428, Table 20.1) -/

/-- A request as its header gives it; `fits` tells whether LENGTH agrees with the message. -/
structure Req where
  path : DictPath
  mac : Nat
  version : Nat
  opcode : Nat
  tag : Nat
  idx : Nat
  sub : Nat
  flags : Nat
  off : Nat
  body : List Byte
  fits : Bool
  deriving DecidableEq, Repr

/-- The largest payload of a path (R428). -/
def pathLimit : DictPath → Nat
  | .mgmt => 1484
  | _ => 4080

/-- Read a message. On the management port LENGTH bounds the message in a frame padded to 46 bytes (R441). -/
def parseReq (q : DictReq) : Req :=
  let m := if q.path = .mgmt then q.msg ++ zeros (46 - q.msg.length) else q.msg
  let len := fieldAt m 8 4
  let body := if q.path = .mgmt then (m.drop 16).take len else m.drop 16
  { path := q.path, mac := q.mac, version := fieldAt m 0 1, opcode := fieldAt m 1 1, tag := fieldAt m 2 2
    idx := fieldAt m 4 2, sub := fieldAt m 6 1, flags := fieldAt m 7 1, off := fieldAt m 12 4, body := body
    fits := body.length == len && decide (len ≤ pathLimit q.path) }

/-- Abort codes (Table 20.4). -/
def abNoEntry : Nat := 1
def abType : Nat := 2
def abRange : Nat := 3
def abReadOnly : Nat := 4
def abBusy : Nat := 5
def abGated : Nat := 6
def abBank : Nat := 7
def abDenied : Nat := 8
def abSigNeeded : Nat := 9
def abSigBad : Nat := 10
def abHeld : Nat := 11
def abTable : Nat := 12
def abBad : Nat := 13
def abRelay : Nat := 14

/-- The first non-zero code. -/
def firstCode : List Nat → Nat
  | [] => 0
  | c :: cs => if c = 0 then firstCode cs else c

/-- A code where a check fails. -/
def failing (ok : Bool) (c : Nat) : Nat := if ok then 0 else c

/-- Does a request write? -/
def Req.writes (r : Req) : Bool := r.opcode == 2 || r.opcode == 4 || r.opcode == 7

/-- Header flags. -/
def Req.last (r : Req) : Bool := bitAt 1 r.flags
def Req.pending (r : Req) : Bool := bitAt 2 r.flags
def Req.relay (r : Req) : Bool := bitAt 3 r.flags
def Req.segmented (r : Req) : Bool := r.opcode == 4 || r.opcode == 7

/-- Check 1 (R428, R439). -/
def Req.headerOk (r : Req) : Bool :=
  r.version == 1 && [1, 2, 3, 4, 5, 7].contains r.opcode && decide (r.flags < 16) && !bitAt 0 r.flags && r.fits
  && (r.off == 0 || r.opcode == 3 || r.segmented) && (!r.pending || r.opcode == 3) && (!r.last || r.segmented)

/-- The key of a request's entry. -/
def Req.key (r : Req) : Nat := dictKey r.idx r.sub

/-! ## Entry, gating and rights (checks 2 to 4) -/

/-- Check 2: the entry exists; 0xFF is the REC form of READ_BLOCK (R442, R443). -/
def Req.exists? (r : Req) : Bool :=
  if r.sub = 0xFF then r.opcode == 3 && (dictEntry r.idx 0).isSome else (dictEntry r.idx r.sub).isSome

/-- The first index of the area that holds an index. -/
def areaFirst (idx : Nat) : Nat := areaStarts.getD (areaOf idx) 0

/-- Is the block of an index gated (R399)? -/
def State.gated (s : State) (idx : Nat) : Bool :=
  let off (sub b : Nat) : Bool := !bitAt b (s.dnat 0x2010 sub)
  if 0x5100 ≤ idx ∧ idx < 0x5400 then off 1 (idx % 256)
  else if 0x6100 ≤ idx ∧ idx < 0x6180 then off 2 (idx - 0x6100)
  else if 0x7100 ≤ idx ∧ idx < 0x7120 then off 4 (idx - 0x7100)
  else if 0x5900 ≤ idx ∧ idx < 0x5908 then off 3 (16 + idx - 0x5900)
  else if 0x4300 ≤ idx ∧ idx < 0x4318 then off 5 (idx - 0x4300)
  else if 0xE200 ≤ idx ∧ idx < 0xE202 then off 3 (24 + idx - 0xE200)
  else false

/-- Check 3 (R399, R408, R409). -/
def State.gateOk (s : State) (r : Req) : Bool :=
  !(s.start.phase == .fault && !([0x1000, 0x2200, 0xB000, 0xC000].contains (areaFirst r.idx)))
  && !(r.sub != 0 && s.gated r.idx)

/-- A write that neither path rights nor locks refuse: STRIKE, and the reset command (R424, R436). -/
def freeWrite (r : Req) (v : Option (List Byte)) : Bool :=
  (r.key == dictKey 0x9030 2 && v == some [1]) || (r.key == dictKey 0x2210 1 && v == some [0x53, 0x52])

/-- Rights of the life-cycle state (Table 20.5). -/
def State.lifeAllows (s : State) (r : Req) : Bool :=
  let a := areaFirst r.idx
  match s.sec.life with
  | .blank => if r.writes then a == 0xC000 || r.key == dictKey 0x2210 1 else [0x1000, 0x1100, 0x2200, 0xB000, 0xC000].contains a
  | .returned => !r.writes || a == 0xC000 || r.key == dictKey 0x2210 1
  | .scrap => !r.writes && [0x1000, 0xB000, 0xC000].contains a
  | _ => true

/-- Check 4: path, life-cycle rights, a package that has asked for its reset (R373, R436). `v` is the value, where one
segment holds it whole. -/
def State.rightsOk (s : State) (r : Req) (v : Option (List Byte)) : Bool :=
  let bit := 2 * areaOf r.idx + (if r.path = .mgmt then 1 else 0)
  !(s.err.resetRequested && !((r.opcode == 1 || r.opcode == 3) && [0x9800, 0xB000].contains (areaFirst r.idx)))
  && s.lifeAllows r
  && (!r.writes || freeWrite r v || bitAt bit s.mram.pathMask)

/-- Checks 1 to 4. -/
def State.check14 (s : State) (r : Req) (v : Option (List Byte)) : Nat :=
  firstCode [failing r.headerOk abBad, failing r.exists? abNoEntry, failing (s.gateOk r) abGated, failing (s.rightsOk r v) abDenied]

/-! ## Access and signatures (checks 5 to 8) -/

/-- Check 5. -/
def accessCode (r : Req) (e : DictEntry) : Nat :=
  if r.writes then (if e.acc = .ro then abReadOnly else 0) else if e.acc = .wo then abDenied else 0

/-- Does an entry take SIGNED_WRITE alone (R454, Table 20.5)? -/
def State.needsSignature (s : State) (r : Req) : Bool :=
  r.key == dictKey 0xC010 2 || (areaFirst r.idx == 0xC000 && s.sec.life != .test)
  || (s.sec.life == .owned && r.key == dictKey 0x1110 5)

/-- The Keamer root public key, from the header of the running slot (R463). -/
def State.rootKey (s : State) : Option (List Byte) := s.sec.activeSlot.map (fun n => slice (s.slotImage n) 32 64)

/-- The key that verifies a SIGNED_WRITE (Table 22.5). -/
def State.signKey (s : State) (key : Nat) : Option (List Byte) :=
  match s.sec.life with
  | .owned => some s.sec.ownerKey
  | .test => if key = dictKey 0xC010 2 then s.rootKey else none
  | .scrap => none
  | _ => s.rootKey

/-- The value of an assembled SIGNED_WRITE and its sequence number (R435). -/
def signedValue (p : List Byte) : List Byte := slice p 16 (fieldAt p 0 4)
def signedNumber (p : List Byte) : Nat := fieldAt p 8 8

/-- Check 7: shape, sequence number and signature (R435, R468). -/
def State.signatureOk (s : State) (r : Req) (p : List Byte) : Bool :=
  let v := fieldAt p 0 4
  let msg := leBytes 2 r.idx ++ leBytes 1 r.sub ++ zeros 1 ++ leBytes 4 v ++ leBytes 8 (signedNumber p)
    ++ leBytes 8 Config.serial.toNat ++ signedValue p
  p.length == 16 + v + 29792 && fieldAt p 4 4 == 0 && decide (s.mram.signedSeq < signedNumber p)
  && (match s.signKey r.key with
    | some k => Config.slhVerify k msg (p.drop (16 + v))
    | none => false)

/-- Check 8: another path holds the area's lock (R424). -/
def State.lockOk (s : State) (r : Req) (v : List Byte) : Bool :=
  freeWrite r (some v) || !s.dict.locks.any (fun l => l.area == areaCode (areaOf r.idx) && l.owner != r.path)

/-! ## Length and range (checks 9 and 10) -/

/-- Check 9 (R429, R450). -/
def lengthOk (key : Nat) (e : DictEntry) (v : List Byte) : Bool :=
  let n := v.length
  let idx := key / 256
  match e.ty.size with
  | some k => n == k
  | none =>
    if key = dictKey 0x9030 7 then n % 16 == 0 && decide (n ≤ 4096)
    else if 0x5100 ≤ idx ∧ idx < 0x5200 then n % 16 == 0 && decide (16 ≤ n) && decide (n ≤ 131072)
    else if key = dictKey 0xB010 7 then n % 8 == 0 && decide (n ≤ 512)
    else if key = dictKey 0xC020 5 then decide (1 ≤ n) && decide (n ≤ 1048576)
    else if key = dictKey 0xC010 2 then n == 72
    else if key = dictKey 0x9030 1 then n == 1152
    else if key = dictKey 0xA010 10 then n == 16
    else if key = dictKey 0x1020 2 then n == 32
    else n == e.dflt.len

/-- The range of a numeric entry, from its table. -/
def rangeOf (key : Nat) : Option (Nat × Nat) :=
  match key with
  | 0x111004 => some (2, 16)
  | 0x202002 => some (16, 4294967295)
  | 0x202003 => some (1, 1)
  | 0x211002 => some (0, 7)
  | 0x211003 => some (0, 7)
  | 0x212003 => some (1000, 4200)
  | 0x221001 => some (0x5253, 0x5253)
  | 0x301009 => some (1, 65535)
  | 0x401002 => some (1, 3)
  | 0x421002 => some (1, 64)
  | 0x421003 => some (1, 64)
  | 0x421004 => some (1, 4000000)
  | 0x421005 => some (1, 1000)
  | 0x481001 => some (20, 100000)
  | 0x501001 => some (1, 40000)
  | 0x501002 => some (1, 65535)
  | 0x502001 => some (1, 40000)
  | 0x581002 => some (1, 4000000)
  | 0x601005 => some (1, 4000000000)
  | 0x701003 => some (1, 4000000)
  | 0x801005 => some (1000, 10000000)
  | 0x802003 => some (1000, 1000000)
  | 0x802004 => some (1000, 4000000000)
  | 0x803002 => some (0, 8)
  | 0x803003 => some (100, 1000000000)
  | 0x881001 => some (1, 4000000)
  | 0x903002 => some (1, 4)
  | 0x903008 => some (100, 600000)
  | 0x903009 => some (1000, 3600000)
  | 0xA01001 => some (0, 1000000)
  | 0xA01002 => some (1, 50)
  | 0xB01005 => some (1, 1000)
  | 0xB01006 => some (1, 1024)
  | 0xC02004 => some (0, 1)
  | _ => none

/-- The bindings of R357: ports 0 and 1, no region twice, zeros where Table 15.8 gives them. -/
def bindingsOk (v : List Byte) : Bool :=
  let es := (List.range (v.length / 16)).map (fun i => slice v (16 * i) 16)
  es.all (fun e => decide (fieldAt e 1 1 ≤ 1) && fieldAt e 2 6 == 0) && noRepeat (es.map (fun e => fieldAt e 0 1))

/-- The entries of `Recorder.CodeLimits` (R453, R479). -/
def codeLimitsOk (v : List Byte) : Bool :=
  (wordsOf 8 (v.length / 8) v).all (fun e =>
    limitedCode (bits 15 0 e) && decide (1 ≤ bits 31 16 e) && decide (bits 31 16 e ≤ 1000) && decide (1 ≤ bits 47 32 e)
    && decide (bits 47 32 e ≤ 1024) && bits 63 48 e == 0)

/-- A life-cycle state of a code. -/
def lifeOf (n : Nat) : Option LifeSt :=
  match n with
  | 0 => some .blank | 1 => some .test | 2 => some .owned | 3 => some .returned | 4 => some .scrap | _ => none

/-- The transitions of Table 22.7 (R469). -/
def transitionOk (old : LifeSt) (v : List Byte) : Bool :=
  let key := v.drop 8
  fieldAt v 1 7 == 0
  && (match old, lifeOf (fieldAt v 0 1) with
    | .blank, some .test => key == zeros 64
    | .test, some .owned => key != zeros 64
    | .test, some .scrap => key == zeros 64
    | .owned, some .owned => key != zeros 64
    | .owned, some .returned => key == zeros 64
    | .owned, some .scrap => key == zeros 64
    | .returned, some .test => key == zeros 64
    | .returned, some .scrap => key == zeros 64
    | _, _ => false)

/-- A pitch record that this package may be given (R341, R16). -/
def State.recordOk (s : State) (v : List Byte) : Bool :=
  fieldAt v 0 4 == 0x48435450 && decide (1 ≤ fieldAt v 4 2) && decide (fieldAt v 4 2 ≤ 3) && fieldAt v 6 2 != 0
  && decide (1 ≤ fieldAt v 8 2) && decide (fieldAt v 8 2 ≤ 512) && (recordPeg v).headD 0 == s.fab.tabs.own && s.fab.tabs.own != 0xFFFF

/-- The oldest step whose commit decision the root has not yet made (R354). -/
def State.undecidedStep (s : State) : Nat := if s.decidedStep then s.job.step + 1 else s.job.step

/-- `Pitch.Command` outside its conditions (R357). -/
def State.commandOk (s : State) (v : Nat) : Bool :=
  match v with
  | 4 => s.pitch.st == .quiesced
  | 2 => s.myRank == 0
  | 3 => s.myRank == 0
  | _ => true

/-- Check 10: ranges and the entries' own rules that answer OUT OF RANGE. -/
def State.valueOk (s : State) (key : Nat) (e : DictEntry) (v : List Byte) : Bool :=
  let n := leNat v
  let idx := key / 256
  (e.ty != .bool || decide (n ≤ 1))
  && (match rangeOf key with
    | some (lo, hi) => decide (lo ≤ n) && decide (n ≤ hi)
    | none => true)
  && (if key = dictKey 0x2020 1 then clockCode (n % 256) && clockCode (n / 256)
      else if key = dictKey 0x6010 2 then n % 2 == 0
      else if key = dictKey 0x8020 6 then decide (n ≤ 7) || n == 0xFF
      else if key = dictKey 0x9030 1 then s.recordOk v
      else if key = dictKey 0x9030 2 then s.commandOk n
      else if key = dictKey 0x9030 3 then !(s.jobHeld && s.job.rank == 0 && decide (n < s.undecidedStep))
      else if key = dictKey 0x9030 6 then decide (fieldAt v 0 1 ≤ 1) && fieldAt v 1 7 == 0
      else if key = dictKey 0x9030 7 then bindingsOk v
      else if key = dictKey 0xA010 10 then
        decide (fieldAt v 0 1 ≤ 1) && fieldAt v 1 1 == 0 && decide (1 ≤ fieldAt v 2 2) && decide (fieldAt v 2 2 ≤ 512) && fieldAt v 4 4 == 0
      else if key = dictKey 0xB010 7 then codeLimitsOk v
      else if key = dictKey 0xC010 2 then transitionOk s.sec.life v
      else if key = dictKey 0xE010 2 ∨ key = dictKey 0xE010 3 then (areaStarts.map (· / 256)).contains n
      else if 0xE100 ≤ idx ∧ idx ≤ 0xE101 ∧ key % 256 = 4 then
        n % 2 ^ 30 == 0 && decide (n + 2 ^ ((s.hp (idx - 0xE100)).bar2Enc + 20) ≤ 2 ^ 41)
      else if 0xE200 ≤ idx ∧ idx ≤ 0xE201 ∧ key % 256 = 4 then
        n % 2 ^ 33 == 0 && decide (n < (s.far (idx - 0xE200)).device)
      else true)

/-! ## Change class and state (check 11) -/

/-- The bits that the running job uses of a `ClockEnable` entry (R400). -/
def State.usedBits (s : State) (sub : Nat) : List Nat :=
  match s.job.image with
  | none => []
  | some im =>
    match sub with
    | 1 => usedCores im s.job.rank
    | 2 => (List.range 128).filter (fun h => s.hartEnabled h)
    | 3 => usedBlocks im s.job.rank s.job.placed
    | 4 => usedStations im s.job.rank
    | _ => (s.fab.tabs.route.flatMap (fun e => (psMembers e.2).map (fun m => m.2.1))).eraseDups

/-- Does a job with a FAR region run (R247)? -/
def State.farRuns (s : State) : Bool := s.jobBusy && s.job.placed.any (fun p => p.r.kind == .far)

/-- `FabricTables.Command` in its state machine (Table 11.9, R281). -/
def State.tablesCode (s : State) (v : Nat) : Nat :=
  match v, s.fab.tabSt with
  | 1, .active => if s.jobBusy then abBusy else 0
  | 1, _ => abBusy
  | 2, .drained => if s.fab.shadow.applyOk then 0 else abRange
  | 2, _ => abTable
  | _, .active => abRange
  | _, _ => 0

/-- A 24-entry map of 4 bytes each; Reserved bits ignore writes (R6, R275). -/
def mapEntries (v : List Byte) : List Nat := (wordsOf 4 24 v).map (fun n => n % 2 ^ 21)

/-- Does a write of `DomainMap.PortMap` change the entry of a port that is not DOWN or HELD (R275)? -/
def State.mapBusy (s : State) (v : List Byte) : Bool :=
  (List.range 24).any (fun p => s.fab.portMap.getD p 0 != (mapEntries v).getD p 0
    && (s.fport p).st != .down && (s.fport p).st != .held)

/-- The banks of a core, by the subindexes of Table 3.9. -/
def Core.bankOf (c : Core) (sub : Nat) : Bank := if sub = 14 then c.bank0 else c.bank1

/-- Check 11, and the entries' own rules that answer with another code. -/
def State.stateCode (s : State) (r : Req) (e : DictEntry) (v : List Byte) : Nat :=
  let key := r.key
  let n := leNat v
  if s.sec.transitionDone then abBusy
  else if r.idx = 0x2010 then
    failing (!(s.jobBusy && (s.usedBits r.sub).any (fun b => bitAt b (s.dnat 0x2010 r.sub) && !bitAt b n))) abBusy
  else if key = dictKey 0x2020 1 ∨ key = dictKey 0x2020 2 then failing (!(s.jobBusy || s.power.counter.st == 1)) abBusy
  else if key = dictKey 0x4010 2 then s.tablesCode n
  else if key = dictKey 0x4100 1 ∨ key = dictKey 0x4400 1 ∨ key = dictKey 0x4500 1 then failing (s.fab.tabSt == .drained) abTable
  else if key = dictKey 0x4100 2 then failing (!(s.jobBusy || s.mapBusy v)) abBusy
  else if 0x5100 ≤ r.idx ∧ r.idx < 0x5200 then failing (((s.core (r.idx % 256)).bankOf r.sub).st != .active) abBank
  else if key = dictKey 0x9030 1 then
    failing (!s.jobHeld || (s.pitch.st == .quiesced && fieldAt v 4 2 == 3)) abBusy
  else if key = dictKey 0x9030 2 then failing (n != 3 || s.pitch.st == .quiesced) abBusy
  else if key = dictKey 0xA010 3 ∨ key = dictKey 0xA010 4 ∨ key = dictKey 0xA010 5 then failing (s.pitch.st != .running) abBusy
  else if key = dictKey 0xA010 10 then failing (!(s.jobHeld || s.ckpt.survey.isSome)) abBusy
  else if key = dictKey 0xC010 2 then failing (!s.jobHeld) abBusy
  else if key = dictKey 0xC020 5 then
    firstCode [failing (s.imgVerifies v) abSigBad, failing (!s.jobHeld) abBusy]
  else if key = dictKey 0x1020 2 then
    firstCode [failing (!(s.keysLocked || s.sec.activeSlot.isNone)) abDenied, failing (s.sec.attState != 1) abBusy]
  else if key = dictKey 0xE010 2 ∨ key = dictKey 0xE010 3 then
    failing (!s.dict.locks.any (fun l => l.area == n && l.owner != r.path)) abHeld
  else if 0xE200 ≤ r.idx then failing (!s.farRuns) abBusy
  else if key = dictKey 0x2020 3 ∨ key = dictKey 0x2210 1 ∨ r.idx = 0xB010 then 0
  else failing (!(e.cls == .quiesce && s.jobBusy)) abBusy

/-- Checks 5 to 11 of a write whose payload (or assembled payload) is `p`: the code, and the value. -/
def State.checkWrite (s : State) (r : Req) (e : DictEntry) (p : List Byte) : Nat × List Byte :=
  let signed := r.opcode == 7
  let v := if signed then signedValue p else p
  (firstCode [accessCode r e, failing (signed || !s.needsSignature r) abSigNeeded,
    failing (!signed || s.signatureOk r p) abSigBad, failing (s.lockOk r v) abHeld,
    failing (lengthOk r.key e v) abType, failing (s.valueOk r.key e v) abRange, s.stateCode r e v], v)

end Sys2Proof.Machine
end

