-- ==== Sys2Proof/Machine/DictService.lean ====
section
/-!
DEFINITION. What the dictionary service does with a request: which row a request is, taking it, reading, taking a value,
block transfers, relays, responding (20_dictionary_access.md R428 to R441, and the entries' own rules).
-/
namespace Sys2Proof.Machine

open Sys2Proof

/-! ## Responses (R416, R438, R441) -/

/-- A response: the request's header with RESPONSE, its code and a payload (Table 20.1). -/
def Req.response (r : Req) (code flags : Nat) (body : List Byte) : List Byte :=
  msgHeader r.opcode r.tag r.idx r.sub (1 + flags + (if r.relay then 8 else 0)) body.length code ++ body

/-- A port's mailbox takes a response, unless a PERST has discarded it (R416, R426). -/
def HostPort.take (h : HostPort) (m : List Byte) : HostPort :=
  if h.lost then { h with busy := false, lost := false }
  else { h with rspBuf := writeBytes h.rspBuf 0 m, rspLen := m.length, seq := h.seq + 1, busy := false }

/-- The response goes to the request's path; the management port keeps the last 16 (R438). -/
def State.respond (s : State) (q : DictReq) (r : Req) (code flags : Nat) (body : List Byte) : State :=
  let m := r.response code flags body
  let host (p : Nat) : State :=
    let t := s.modHp p (fun h => h.take m)
    if (s.hp p).lost then t else t.msix p 0
  match q.path with
  | .hp0 => host 0
  | .hp1 => host 1
  | .mgmt =>
    let old := s.dict.kept.filter (fun k => !(k.mac == q.mac && k.tag == r.tag))
    let all := old ++ [({ mac := q.mac, tag := r.tag, time := s.ns, msg := m } : KeptResponse)]
    ({ s with dict := { s.dict with kept := all.drop (all.length - 16) } } : State).put (.frame q.mac m)

/-- A refusal (R433). -/
def State.refuse (s : State) (q : DictReq) (r : Req) (code : Nat) : State := s.respond q r code 0 []

/-- The kept response to a request that repeats within 1 s (R438). -/
def State.keptFor (s : State) (q : DictReq) : Option (List Byte) :=
  if q.path = .mgmt then
    (s.dict.kept.find? (fun k => k.mac == q.mac && k.tag == (parseReq q).tag && decide (s.ns ≤ k.time + 1000000000))).map
      KeptResponse.msg
  else none

/-- A request renews its path's locks (R425). -/
def State.renewLeases (s : State) (p : DictPath) : State :=
  { s with dict := { s.dict with
      locks := s.dict.locks.map (fun l => if l.owner = p then { l with renewed := s.ns } else l) } }

/-! ## Reading (R429 to R431) -/

/-- The REC form of an index (R429). -/
def State.recValue (s : State) (idx : Nat) : List Byte :=
  (List.range (leNat (s.dictRead idx 0) + 1)).flatMap (fun sub =>
    match dictEntry idx sub with
    | none => []
    | some e =>
      let v := if e.acc = .wo then [] else s.dictRead idx sub
      leBytes 1 sub ++ leBytes 1 e.ty.code ++ (if 65535 ≤ v.length then leBytes 2 0xFFFF else leBytes 2 v.length ++ v))

/-- What a READ or READ_BLOCK that has passed checks 1 to 4 answers: code, flags, payload. -/
def State.readAnswer (s : State) (r : Req) : Nat × Nat × List Byte :=
  let denied := match dictEntry r.idx r.sub with
    | some e => accessCode r e
    | none => 0
  let pend := s.pendingOf r.idx r.sub
  if denied ≠ 0 then (denied, 0, [])
  else if r.opcode = 1 then
    let v := s.dictRead r.idx r.sub ++ pend.getD []
    if pathLimit r.path < v.length then (abRange, 0, []) else (0, if pend.isSome then 4 else 0, v)
  else
    let x := if r.sub = 0xFF then (s.recValue r.idx, 0)
      else match r.pending, pend with
        | true, some p => (p, 4)
        | _, _ => (s.dictRead r.idx r.sub, 0)
    if x.1 ≠ [] ∧ x.1.length ≤ r.off then (abRange, 0, [])
    else
      let b := (x.1.drop r.off).take (pathLimit r.path)
      (0, x.2 + (if x.1.length ≤ r.off + b.length then 2 else 0), b)

/-- SUBSCRIBE (R437): code and state. -/
def State.subscribe (s : State) (q : DictReq) (r : Req) : Nat × State :=
  let x : Subscription := { path := q.path, mac := q.mac, key := r.key }
  let denied := match dictEntry r.idx r.sub with
    | some e => accessCode r e
    | none => 0
  let n := leNat r.body
  let others := s.dict.subs.filter (fun y => y != x)
  if denied ≠ 0 then (denied, s)
  else if r.body.length ≠ 1 then (abType, s)
  else if 1 < n then (abRange, s)
  else if n = 0 then (0, { s with dict := { s.dict with subs := others } })
  else if s.dict.subs.contains x then (0, s)
  else if 64 ≤ (s.dict.subs.filter (fun y => y.path == q.path)).length then (abRange, s)
  else (0, { s with dict := { s.dict with subs := s.dict.subs ++ [x] } })

/-! ## Relays (R439) -/

/-- Send a message in MGMT packets of at most 256 bytes: ARG holds the relay's number in [15:0], the path in [17:16],
[18] for an answer, [19] for the last packet and the offset in [35:20]. -/
def State.sendMgmt (s : State) (dst id path : Nat) (answer : Bool) (m : List Byte) : State :=
  (List.range (ceilDiv m.length 256)).foldl (fun s i =>
    let arg := id % 2 ^ 16 + path % 4 * 2 ^ 16 + (if answer then 2 ^ 18 else 0)
      + (if m.length ≤ 256 * (i + 1) then 2 ^ 19 else 0) + 256 * i * 2 ^ 20
    s.ctl kMGMT arg dst s.epoch (slice m (256 * i) 256)) s

/-- Send an inner message to a rank and wait for its answer. -/
def State.startRelay (s : State) (path : DictPath) (mac rank : Nat) (outer inner : List Byte) (survey : Bool) : State :=
  let id := s.dict.relayNext
  let x : Relay := { id := id, path := path, mac := mac, outer := outer, rank := rank, survey := survey }
  ({ s with dict := { s.dict with relays := s.dict.relays ++ [x], relayNext := (id + 1) % 65536 } } : State).sendMgmt
    rank id path.code false inner

/-- A request with RELAY set. -/
def State.serveRelay (s : State) (q : DictReq) (r : Req) : State :=
  let rank := fieldAt r.body 0 2
  let inner := r.body.drop 8
  let ok := (r.opcode == 1 || r.opcode == 3) && decide (24 ≤ r.body.length) && fieldAt r.body 2 6 == 0
    && [1, 3].contains (fieldAt inner 1 1) && !bitAt 3 (fieldAt inner 7 1)
    && decide (rank < 512) && s.fab.tabs.pegOf rank != 0xFFFF
  if s.err.resetRequested then s.refuse q r abDenied
  else if ok then s.startRelay q.path q.mac rank q.msg inner false
  else s.refuse q r abBad

/-- The target serves an inner message under the rights of the originating path. -/
def State.serveInner (s : State) (path : DictPath) (m : List Byte) : List Byte :=
  let r := parseReq { path := path, msg := m }
  let c := if r.relay || !(r.opcode == 1 || r.opcode == 3) then abBad else s.check14 r none
  if c ≠ 0 then { r with flags := 0 }.response c 0 []
  else
    let a := s.readAnswer r
    r.response a.1 a.2.1 a.2.2

/-- A relayed request ends with an answer: the outer request is answered with the inner response's code, flags and
payload; a survey takes the holdings. -/
def State.relayDone (s : State) (x : Relay) (code flags : Nat) (body : List Byte) : State :=
  let t : State := { s with dict := { s.dict with relays := s.dict.relays.filter (fun y => y.id != x.id) } }
  if x.survey then
    { t with ckpt := { t.ckpt with survey := t.ckpt.survey.map (fun v =>
        { v with answers := nset [] v.answers x.rank (if code = 0 then body else []) }) } }
  else
    let q : DictReq := { path := x.path, mac := x.mac, msg := x.outer }
    t.respond q (parseReq q) code flags body

/-- A path of its code. -/
def pathOf (code : Nat) : DictPath := if code = 1 then .hp0 else if code = 2 then .hp1 else .mgmt

/-- An MGMT packet: a part of a request to serve, or of an answer that a relay waits for. -/
def State.mgmtPacket (s : State) (k : Packet) : State :=
  let s := (s.takeLocal k).1
  let id := bits 15 0 k.arg
  let off := bits 35 20 k.arg
  let last := bitAt 19 k.arg
  if bitAt 18 k.arg then
    match s.dict.relays.find? (fun x => x.id == id && x.rank == k.srcRank && x.got.length == off) with
    | none => s
    | some x =>
      let got := x.got ++ k.payload
      if last then s.relayDone x (fieldAt got 12 4) (2 * bits 2 1 (fieldAt got 7 1)) (got.drop 16)
      else { s with dict := { s.dict with relays := s.dict.relays.map (fun y => if y.id = id then { y with got := got } else y) } }
  else
    let isIt (y : RelayIn) : Bool := y.src == k.srcRank && y.id == id
    let got := match s.dict.relayIn.find? isIt with
      | some y => y.bytes
      | none => []
    let rest := s.dict.relayIn.filter (fun y => !isIt y)
    let now := if off = 0 then some k.payload else if off = got.length then some (got ++ k.payload) else none
    match now with
    | none => s
    | some m =>
      if last then
        let p := bits 17 16 k.arg
        ({ s with dict := { s.dict with relayIn := rest } } : State).sendMgmt k.srcRank id p true (s.serveInner (pathOf p) m)
      else { s with dict := { s.dict with relayIn := rest ++ [({ src := k.srcRank, id := id, path := bits 17 16 k.arg, bytes := m } : RelayIn)] } }

/-! ## Values of the command entries -/

/-- `Reset.Command`: STRIKE to every rank of the peg table while a job is held, then the reset (R402). -/
def State.commandReset (s : State) : State :=
  let t := if s.jobHeld then s.sendStrike 1 else s
  { t with start := { t.start with resetDue := some .dictionary } }

/-- `FabricTables.Command` (Table 11.9). -/
def State.commandTables (s : State) (n : Nat) : State :=
  if n = 1 then s.drainTables else if n = 2 then s.applyTables else s.cancelTables

/-- `Pitch.Command` (R357). -/
def State.commandPitch (s : State) (n : Nat) : State :=
  if n = 1 then s.commandStrike else if n = 2 then s.commandQuiesce else if n = 3 then s.commandResume else s.commandLeave

/-- A command-store bank takes a host's bytes: LOADING, its role identifier cleared (R95, Table 3.5). -/
def State.loadBank (s : State) (c sub : Nat) (v : List Byte) : State :=
  let b : Bank := { st := .loading, role := none, cmds := [], descs := [], raw := writeBytes [] 0 v, len := v.length }
  s.modCore c (fun k => if sub = 14 then { k with bank0 := b } else { k with bank1 := b })

/-- `HostPorts.LockTake` (R423). -/
def State.takeLock (s : State) (area : Nat) (p : DictPath) : State :=
  let rest := s.dict.locks.filter (fun l => l.area != area)
  { s with dict := { s.dict with locks := rest ++ [({ area := area, owner := p, renewed := s.ns } : AreaLock)] } }

/-- `HostPorts.LockRelease` (R423). -/
def State.releaseLock (s : State) (area : Nat) : State :=
  { s with dict := { s.dict with locks := s.dict.locks.filter (fun l => l.area != area) } }

/-- Bytes 0 to 447 of a quote (Table 22.4). -/
def State.quoteHead (s : State) (nonce : List Byte) : List Byte :=
  let n := s.sec.activeSlot.getD 0
  leBytes 4 0x544F5551 ++ leBytes 2 1 ++ leBytes 1 s.sec.life.code ++ leBytes 1 n ++ leBytes 8 Config.serial.toNat
  ++ leBytes 4 s.mram.powerCycles ++ leBytes 2 s.mram.minSvn ++ leBytes 2 (imgField (s.slotImage n) 12 2)
  ++ leBytes 2 (if s.job.held then s.job.id else 0) ++ zeros 6 ++ nonce ++ s.slotDigest 0 ++ s.slotDigest 1
  ++ s.currentValue 0x1020 5
  ++ (match s.job.held, s.job.image with
    | true, some im => im.digest
    | _, _ => zeros 64)
  ++ s.sec.ownerKey ++ leBytes 64 (Config.slhPublic 1 s.akSeed).toNat

/-- `Attestation.Nonce`: a quote begins, and the last one is readable no longer (R451, R467). -/
def State.takeNonce (s : State) (v : List Byte) : State :=
  { s with sec := { s.sec with attState := 1, quoteBody := s.quoteHead v, quote := [] } }

/-- `LifeCycle.Transition` (R454, R470): MRAM, the UDS lock, the event, then the reset. -/
def State.takeTransition (s : State) (v : List Byte) : State :=
  match lifeOf (fieldAt v 0 1) with
  | none => s
  | some new =>
    let m := { s.mram with
      life := new, ownerKey := if new = .owned then slice v 8 64 else zeros 64
      udsLocked := s.mram.udsLocked || (new == .scrap), transitions := count 32 s.mram.transitions 1 }
    ({ s with mram := m, sec := { s.sec with transitionDone := true }
              start := { s.start with resetDue := some .lifeCycle } } : State).event 0x0105 srcPackage
      (s.sec.life.code + new.code * 2 ^ 8)

/-- The slot that `Firmware.Update` writes (R455, R461). -/
def State.updateSlot (s : State) : Nat :=
  match s.sec.activeSlot with
  | some n => 1 - n
  | none => s.mram.bootSlot

/-- `Firmware.Update` (R455). -/
def State.takeFirmware (s : State) (v : List Byte) : State :=
  if s.updateSlot = 0 then { s with mram := { s.mram with slot0 := .stored v } }
  else { s with mram := { s.mram with slot1 := .stored v } }

/-- READ of `Checkpoint.Holdings`, as the message of a survey (R385). -/
def holdingsRead : List Byte := msgHeader 1 0 0xA010 9 0 0 0

/-- `Checkpoint.Survey`: the holdings of every rank of the active peg table are read by relay (R385). -/
def State.startSurvey (s : State) (v : List Byte) : State :=
  let rs := s.fab.tabs.ranks
  let x : Survey := { mode := fieldAt v 0 1, ranks := fieldAt v 2 2, digest := slice v 8 8, asked := rs }
  let t : State := { s with ckpt := { s.ckpt with survey := some x } }
  rs.foldl (fun s r => s.startRelay .mgmt 0 r [] holdingsRead true) t

/-! ## Values of the other entries -/

/-- A path set with its Reserved bits clear (R6, Table 11.8). -/
def cleanPath (n : Nat) : Nat :=
  let member (i : Nat) : Nat := (bits (8 * i + 4) (8 * i) n + bits (8 * i + 7) (8 * i + 6) n * 64) * 2 ^ (8 * i)
  member 0 + member 1 + member 2 + member 3 + bits 33 32 n * 2 ^ 32

/-- Put a value in force. -/
def State.putSetting (s : State) (key : Nat) (v : List Byte) : State :=
  let idx := key / 256
  let sub := key % 256
  if key = dictKey 0x4100 1 then s.modFab (fun b => { b with shadow := { b.shadow with own := leNat v } })
  else if key = dictKey 0x4400 1 then
    s.modFab (fun b => { b with shadow := { b.shadow with
      peg := ((List.range 512).zip (wordsOf 2 512 v)).filter (fun e => e.2 != 0xFFFF) } })
  else if key = dictKey 0x4500 1 then
    s.modFab (fun b => { b with shadow := { b.shadow with
      route := ((List.range 512).zip ((wordsOf 8 512 v).map cleanPath)).filter (fun e => e.2 != 0) } })
  else if key = dictKey 0x4100 2 then s.putPortMap (mapEntries v)
  else if key = dictKey 0x2010 3 then s.setDval idx sub (leBytes 4 (leNat v % 2 ^ 26))
  else if key = dictKey 0x2010 5 then s.setDval idx sub (leBytes 4 (leNat v % 2 ^ 24))
  else
    let t := s.setDval idx sub v
    if key = dictKey 0xB010 5 ∨ key = dictKey 0xB010 6 ∨ key = dictKey 0xB010 7 then
      { t with recorder := t.recorder.refilled }
    else if key = dictKey 0x2110 3 then t.retarget
    else if 0x4300 ≤ idx ∧ idx < 0x4318 then t.adminChanged (idx - 0x4300)
    else t

/-- Leave a value pending; one that comes after the next release's commit decision waits for the release after
(R434). -/
def State.putPending (s : State) (key : Nat) (v : List Byte) (cls : DictCls) : State :=
  let late := cls == .live && (s.guy.held.isSome || s.err.st == 1 || s.err.st == 2)
  let after := s.dict.afterRelease.filter (fun k => k != key)
  { s with dict := { s.dict with pend := nset [] s.dict.pend key v, afterRelease := if late then after ++ [key] else after } }

/-- Does an accepted value stay pending (R388, R434, R354)? -/
def State.staysPending (s : State) (key : Nat) (e : DictEntry) : Bool :=
  match e.cls with
  | .reset => true
  | .live => s.jobHeld && !(key == dictKey 0x9030 3 && s.job.rank == 0)
  | .quiesce => s.pitch.st == .quiesced && [dictKey 0xA010 3, dictKey 0xA010 4, dictKey 0xA010 5].contains key

/-- An accepted value takes effect: the state, and whether the value is left pending (R434, R446). -/
def State.takeValue (s : State) (p : DictPath) (key : Nat) (e : DictEntry) (v : List Byte) : State × Bool :=
  let n := leNat v
  let idx := key / 256
  if key = dictKey 0x2210 1 then (s.commandReset, false)
  else if key = dictKey 0x2020 3 then (s.startCounter, false)
  else if key = dictKey 0x4010 2 then (s.commandTables n, false)
  else if key = dictKey 0x9030 1 then (s.requestPitch v, false)
  else if key = dictKey 0x9030 2 then (s.commandPitch n, false)
  else if key = dictKey 0xA010 10 then (s.startSurvey v, false)
  else if key = dictKey 0xE010 2 then (s.takeLock n p, false)
  else if key = dictKey 0xE010 3 then (s.releaseLock n, false)
  else if key = dictKey 0x1020 2 then (s.takeNonce v, false)
  else if key = dictKey 0xC010 2 then (s.takeTransition v, false)
  else if key = dictKey 0xC020 5 then (s.takeFirmware v, false)
  else if 0x5100 ≤ idx ∧ idx < 0x5200 then (s.loadBank (idx % 256) (key % 256) v, false)
  else if s.staysPending key e then (s.putPending key v e.cls, true)
  else (s.putSetting key v, false)

/-! ## Writes (R432 to R435) -/

/-- The bytes of a transfer with the segment at hand, where it continues one (R432). -/
def State.joinSegment (s : State) (r : Req) : Option (List Byte) :=
  if r.off = 0 then some r.body
  else match s.dict.xfers.find? (fun x => x.path == r.path) with
    | some x => if x.opcode = r.opcode ∧ x.key = r.key ∧ x.bytes.length = r.off then some (x.bytes ++ r.body) else none
    | none => none

/-- The transfer in progress on a path is discarded. -/
def State.dropXfer (s : State) (p : DictPath) : State :=
  { s with dict := { s.dict with xfers := s.dict.xfers.filter (fun x => x.path != p) } }

/-- The value that a write delivers with this request, where it is complete. -/
def State.wholeValue (s : State) (r : Req) : Option (List Byte) :=
  if r.opcode = 2 then some r.body
  else if r.segmented && r.last then (s.joinSegment r).map (fun b => if r.opcode = 7 then signedValue b else b) else none

/-- Checks 5 to 11 of a complete payload, then its effect and the response. -/
def State.serveValue (s : State) (q : DictReq) (r : Req) (payload : List Byte) : State :=
  match dictEntry r.idx r.sub with
  | none => s.refuse q r abNoEntry
  | some e =>
    let x := s.checkWrite r e payload
    if x.1 ≠ 0 then s.refuse q r x.1
    else
      let t := if r.opcode = 7 then { s with mram := { s.mram with signedSeq := signedNumber payload } } else s
      let y := t.takeValue r.path r.key e x.2
      y.1.respond q r 0 (if y.2 then 4 else 0) []

/-- A segment that has passed checks 1 to 4 (R432). -/
def State.serveSegment (s : State) (q : DictReq) (r : Req) : State :=
  let limit := if r.opcode = 7 then 1048576 + 29808 else 1048576
  let t := s.dropXfer r.path
  match s.joinSegment r with
  | none => t.refuse q r abRange
  | some b =>
    if limit < b.length then t.refuse q r abRange
    else if r.last then t.serveValue q r b
    else
      ({ t with dict := { t.dict with
        xfers := t.dict.xfers ++ [({ path := r.path, opcode := r.opcode, key := r.key, bytes := b } : BlockXfer)] } } : State).respond
          q r 0 0 []

/-! ## Serving -/

/-- A request is executed and answered (R433). -/
def State.executeReq (s : State) (q : DictReq) (r : Req) : State :=
  if r.relay && r.headerOk then s.serveRelay q r
  else
    let c := s.check14 r (s.wholeValue r)
    if c ≠ 0 then (if r.segmented then s.dropXfer r.path else s).refuse q r c
    else match r.opcode with
      | 1 => let a := s.readAnswer r; s.respond q r a.1 a.2.1 a.2.2
      | 2 => s.serveValue q r r.body
      | 3 => let a := s.readAnswer r; s.respond q r a.1 a.2.1 a.2.2
      | 5 => let x := s.subscribe q r; x.2.respond q r x.1 0 []
      | _ => s.serveSegment q r

/-- A request is served; a repeated one has its kept response sent again (R438). -/
def State.serve (s : State) (q : DictReq) : State :=
  let s := s.renewLeases q.path
  match s.keptFor q with
  | some m => s.put (.frame q.mac m)
  | none => s.executeReq q (parseReq q)

/-- Does the dictionary service run (R408, R409)? -/
def State.serviceUp (s : State) : Bool := decide (5 ≤ s.start.phase.stepNo)

/-- A request arrives at the management port: discarded when 16 wait, served at once when none waits (R438). -/
def State.frameArrives (s : State) (q : DictReq) : State :=
  if 16 ≤ (s.dict.queue.filter (fun x => x.path == .mgmt)).length then
    { s with dict := { s.dict with drops := count 32 s.dict.drops 1 } }
  else if s.dict.queue.isEmpty then s.serve q
  else { s with dict := { s.dict with queue := s.dict.queue ++ [q] } }

/-! ## Rows -/

/-- The dictionary rows of the opcode table. -/
inductive DictRow where
  | resetCommand
  | freqCounterStart
  | fportAdminEnable
  | portMapWrite
  | fabricDrain
  | fabricApply
  | fabricCancel
  | commandBankWrite
  | pitchRequest
  | commandStrike
  | commandQuiesce
  | commandResume
  | commandLeave
  | quiesceStepWrite
  | survey
  | lockTake
  | lockRelease
  | clockEnableWrite
  | attestationNonce
  | lifecycleTransition
  | firmwareUpdate
  | read
  | write
  | readBlock
  | writeBlock
  | signedWrite
  | subscribe
  | relay
  deriving DecidableEq, Repr

/-- The row of a value written to an entry that has one. -/
def entryRow (key : Nat) (v : Option Nat) : Option DictRow :=
  let idx := key / 256
  let sub := key % 256
  if key = dictKey 0x2210 1 then some .resetCommand
  else if key = dictKey 0x2020 3 then some .freqCounterStart
  else if 0x4300 ≤ idx ∧ idx < 0x4318 ∧ sub = 1 then some .fportAdminEnable
  else if key = dictKey 0x4100 2 then some .portMapWrite
  else if key = dictKey 0x4010 2 then
    (match v with
      | some 1 => some .fabricDrain
      | some 2 => some .fabricApply
      | some 3 => some .fabricCancel
      | _ => none)
  else if 0x5100 ≤ idx ∧ idx < 0x5200 ∧ (sub = 14 ∨ sub = 15) then some .commandBankWrite
  else if key = dictKey 0x9030 1 then some .pitchRequest
  else if key = dictKey 0x9030 2 then
    (match v with
      | some 1 => some .commandStrike
      | some 2 => some .commandQuiesce
      | some 3 => some .commandResume
      | some 4 => some .commandLeave
      | _ => none)
  else if key = dictKey 0x9030 3 then some .quiesceStepWrite
  else if key = dictKey 0xA010 10 then some .survey
  else if key = dictKey 0xE010 2 then some .lockTake
  else if key = dictKey 0xE010 3 then some .lockRelease
  else if idx = 0x2010 then some .clockEnableWrite
  else if key = dictKey 0x1020 2 then some .attestationNonce
  else if key = dictKey 0xC010 2 then some .lifecycleTransition
  else if key = dictKey 0xC020 5 then some .firmwareUpdate
  else none

/-- The row of a request. A SIGNED_WRITE has its own row but for the transition and the firmware, which are signed by
rule; so has a request that RELAY or a malformed header marks. -/
def State.rowOf (s : State) (r : Req) : DictRow :=
  let e := entryRow r.key ((s.wholeValue r).map leNat)
  if r.relay then .relay
  else match r.opcode with
    | 2 => e.getD .write
    | 3 => .readBlock
    | 4 => e.getD .writeBlock
    | 5 => .subscribe
    | 7 => if e = some .lifecycleTransition ∨ e = some .firmwareUpdate then e.getD .signedWrite else .signedWrite
    | _ => .read

/-- A dictionary row: the request at the front of the service's queue, or a frame that arrives now; a request of
another row is left alone. A broadcast frame is served only where it carries READ (R416, R441). -/
def dictRow (row : DictRow) (src : DictSrc) (s : State) : Res :=
  match src with
  | .queued =>
    match s.dict.queue with
    | [] => .next s
    | q :: rest =>
      act s (s.serviceUp && s.rowOf (parseReq q) == row)
        (({ s with dict := { s.dict with queue := rest } } : State).serve q)
  | .frame mac broadcast msg =>
    let q : DictReq := { path := .mgmt, mac := mac, broadcast := broadcast, msg := msg }
    let r := parseReq q
    act s (s.serviceUp && s.rowOf r == row && decide (msg.length ≤ 1500) && (!broadcast || r.opcode == 1))
      (s.frameArrives q)

end Sys2Proof.Machine
end

