-- ==== Sys2Proof/Machine/Dict.lean ====
section
/-!
DEFINITION. The dictionary rows (20_dictionary_access.md, 21_dictionary_reference.md and the entries' own chapters), and
the rows that complete what a request began: relays, surveys, quotes, idle transfers.
-/
namespace Sys2Proof.Machine

open Sys2Proof

/-- RESET_COMMAND: a reset by the dictionary (R402). -/
def execResetCommand (src : DictSrc) (s : State) : Res := dictRow .resetCommand src s

/-- FREQ_COUNTER_START: a frequency measurement begins or starts again (R397). -/
def execFreqCounterStart (src : DictSrc) (s : State) : Res := dictRow .freqCounterStart src s

/-- FPORT_ADMIN_ENABLE: a port may train, or goes DOWN (R276). -/
def execFportAdminEnable (src : DictSrc) (s : State) : Res := dictRow .fportAdminEnable src s

/-- PORT_MAP_WRITE: the expected far ends of the ports (R275). -/
def execPortMapWrite (src : DictSrc) (s : State) : Res := dictRow .portMapWrite src s

/-- FABRIC_DRAIN: DRAIN (R281). -/
def execFabricDrain (src : DictSrc) (s : State) : Res := dictRow .fabricDrain src s

/-- FABRIC_APPLY: APPLY (R278, R281). -/
def execFabricApply (src : DictSrc) (s : State) : Res := dictRow .fabricApply src s

/-- FABRIC_CANCEL: CANCEL (R281). -/
def execFabricCancel (src : DictSrc) (s : State) : Res := dictRow .fabricCancel src s

/-- COMMAND_BANK_WRITE: a command-store bank is written (R95). -/
def execCommandBankWrite (src : DictSrc) (s : State) : Res := dictRow .commandBankWrite src s

/-- PITCH_REQUEST: a pitch record at rank 0 (R341). -/
def execPitchRequest (src : DictSrc) (s : State) : Res := dictRow .pitchRequest src s

/-- COMMAND_STRIKE: STRIKE (R351, R357). -/
def execCommandStrike (src : DictSrc) (s : State) : Res := dictRow .commandStrike src s

/-- COMMAND_QUIESCE: QUIESCE (R357). -/
def execCommandQuiesce (src : DictSrc) (s : State) : Res := dictRow .commandQuiesce src s

/-- COMMAND_RESUME: RESUME (R354, R357). -/
def execCommandResume (src : DictSrc) (s : State) : Res := dictRow .commandResume src s

/-- COMMAND_LEAVE: LEAVE (R355, R357). -/
def execCommandLeave (src : DictSrc) (s : State) : Res := dictRow .commandLeave src s

/-- QUIESCE_STEP_WRITE: the step after which the job quiesces (R354). -/
def execQuiesceStepWrite (src : DictSrc) (s : State) : Res := dictRow .quiesceStepWrite src s

/-- SURVEY: a survey of holdings begins (R385, R388). -/
def execSurvey (src : DictSrc) (s : State) : Res := dictRow .survey src s

/-- LOCK_TAKE: an area's lock is taken or renewed (R423). -/
def execLockTake (src : DictSrc) (s : State) : Res := dictRow .lockTake src s

/-- LOCK_RELEASE: an area's lock is freed (R423). -/
def execLockRelease (src : DictSrc) (s : State) : Res := dictRow .lockRelease src s

/-- CLOCK_ENABLE_WRITE: blocks are gated or ungated (R398, R400). -/
def execClockEnableWrite (src : DictSrc) (s : State) : Res := dictRow .clockEnableWrite src s

/-- ATTESTATION_NONCE: a quote begins (R451, R467). -/
def execAttestationNonce (src : DictSrc) (s : State) : Res := dictRow .attestationNonce src s

/-- LIFECYCLE_TRANSITION: a signed transition (R454, R469, R470). -/
def execLifecycleTransition (src : DictSrc) (s : State) : Res := dictRow .lifecycleTransition src s

/-- FIRMWARE_UPDATE: an image for the slot that is not active (R455). -/
def execFirmwareUpdate (src : DictSrc) (s : State) : Res := dictRow .firmwareUpdate src s

/-- DICT_READ: READ (R430). -/
def execDictRead (src : DictSrc) (s : State) : Res := dictRow .read src s

/-- DICT_WRITE: WRITE (R433, R434). -/
def execDictWrite (src : DictSrc) (s : State) : Res := dictRow .write src s

/-- DICT_READ_BLOCK: READ_BLOCK (R429 to R431). -/
def execDictReadBlock (src : DictSrc) (s : State) : Res := dictRow .readBlock src s

/-- DICT_WRITE_BLOCK: WRITE_BLOCK (R432). -/
def execDictWriteBlock (src : DictSrc) (s : State) : Res := dictRow .writeBlock src s

/-- DICT_SIGNED_WRITE: SIGNED_WRITE (R432, R435). -/
def execDictSignedWrite (src : DictSrc) (s : State) : Res := dictRow .signedWrite src s

/-- DICT_SUBSCRIBE: SUBSCRIBE (R437). -/
def execDictSubscribe (src : DictSrc) (s : State) : Res := dictRow .subscribe src s

/-- DICT_RELAY: a request with RELAY set (R439). -/
def execDictRelay (src : DictSrc) (s : State) : Res := dictRow .relay src s

/-! ## Relays (R439) and surveys (R385) -/

/-- MGMT_PACKET: a part of a relayed message, at the target or at the package that relays (R439). -/
def execMgmtPacket (pkt : Packet) (s : State) : Res :=
  act s (s.isMine pkt kMGMT && s.serviceUp) (s.mgmtPacket pkt)

/-- RELAY_TIMEOUT: no response within 10 ms; a survey goes on without the rank (R439). -/
def execRelayTimeout (id : Nat) (s : State) : Res :=
  match s.dict.relays.find? (fun x => x.id == id) with
  | some x => act s true (s.relayDone x abRelay 0 [])
  | none => .next s

/-- The steps of the valid copies of rank `r` that match a survey: bivouac slots where its ward is `r`, stage slots of `r`
itself (R385, Table 17.5). -/
def Survey.copies (v : Survey) (r : Nat) : List Nat :=
  v.answers.flatMap (fun e =>
    let slot (i : Nat) : List Nat :=
      let o := 8 + 24 * i
      if fieldAt e.2 o 8 != 2 ^ 64 - 1 && fieldAt e.2 (o + 8) 2 == v.ranks && slice e.2 (o + 16) 8 == v.digest then
        [fieldAt e.2 o 8] else []
    if e.2.length ≠ 104 then []
    else (if fieldAt e.2 0 2 = r then slot 0 ++ slot 1 else []) ++ (if e.1 = r then slot 2 ++ slot 3 else []))

/-- The greatest of some steps; 0 of none. -/
def newestOf (l : List Nat) : Nat := l.foldl max 0

/-- `Checkpoint.SurveyResult` (Table 17.5): a code, a step, the ranks listed with their steps. -/
def surveyBytes (code step : Nat) (l : List (Nat × Nat)) : List Byte :=
  leBytes 2 code ++ leBytes 2 l.length ++ zeros 4 ++ leBytes 8 step
  ++ l.flatMap (fun e => leBytes 2 e.1 ++ zeros 6 ++ leBytes 8 e.2)

/-- The outcome of a survey (Table 17.3). What it leaves open is `free`: the step where some rank holds no copy, and the
whole result where no rank was asked. -/
def Survey.result (v : Survey) (free : Nat) : List Byte :=
  let cs := v.asked.map (fun r => (r, v.copies r))
  let none_ := cs.filter (fun e => e.2.isEmpty)
  let open_ := (Config.freeWord free).toNat
  if cs.isEmpty then surveyBytes (open_ % 2 ^ 16) open_ []
  else if !none_.isEmpty then surveyBytes 4 open_ ((none_.take 64).map (fun e => (e.1, open_)))
  else if v.mode = 0 then
    let top := newestOf (cs.map (fun e => newestOf e.2))
    let low := cs.filter (fun e => newestOf e.2 < top)
    if low.isEmpty then surveyBytes 1 top [] else surveyBytes 2 top ((low.take 64).map (fun e => (e.1, newestOf e.2)))
  else
    match (cs.headD (0, [])).2.filter (fun st => cs.all (fun e => e.2.contains st)) with
    | [] => surveyBytes 3 (2 ^ 64 - 1) []
    | l => surveyBytes 1 (newestOf l) []

/-- The result is written and NOTIFYs go out, whether or not it differs from the last (R385). -/
def State.endSurvey (s : State) (v : Survey) : State :=
  let t : State := ({ s with ckpt := { s.ckpt with survey := none, surveyResult := v.result s.free } } : State).taken
  if t.ckpt.surveyResult = s.ckpt.surveyResult then
    (t.dict.subs.filter (fun x => x.key == dictKey 0xA010 11)).foldl State.sendNotify t
  else t

/-- SURVEY_DONE: every relay of the survey has ended (R385). -/
def execSurveyDone (s : State) : Res :=
  match s.ckpt.survey with
  | some v => act s (s.dict.relays.all (fun x => !x.survey)) (s.endSurvey v)
  | none => .next s

/-! ## Block transfers and quotes -/

/-- BLOCK_IDLE_TIMEOUT: a transfer idle for 1 s is discarded (R432). -/
def execBlockIdleTimeout (path : DictPath) (s : State) : Res :=
  act s (s.dict.xfers.any (fun x => x.path == path)) (s.dropXfer path)

/-- A signature of its length (Table 22.1). -/
def signature (len : Nat) (b : List Byte) : List Byte := (b ++ zeros len).take len

/-- The endorsement of the attestation key (R466). -/
def State.endorsement (s : State) : List Byte :=
  let n := s.sec.activeSlot.getD 0
  signature 29792 (Config.slhSign 0 (Config.slhSecret 0 s.idSeed)
    (asciiBytes "DRUELLE-EN-1" ++ leBytes 1 n ++ s.slotDigest n ++ leBytes 64 (Config.slhPublic 1 s.akSeed).toNat))

/-- A complete quote (Table 22.4). -/
def State.fullQuote (s : State) : List Byte :=
  let b := s.sec.quoteBody ++ s.endorsement
  b ++ signature 49856 (Config.slhSign 1 (Config.slhSecret 1 s.akSeed) b)

/-- QUOTE_DONE: the signatures complete and the state is DONE (R451, R466). -/
def execQuoteDone (s : State) : Res :=
  act s (s.sec.attState == 1) { s with sec := { s.sec with attState := 2, endorsed := true, quote := s.fullQuote } }

end Sys2Proof.Machine
end

