-- ==== Sys2Proof/Machine/RvFloat.lean ====
section
/-!
DEFINITION. Binary32 and binary64 arithmetic of the solver cores as the RISC-V F, D and V extensions define it (R60,
R175; the extensions themselves are PRESUMED). A value is its bits; `c` is 0 for binary64, 1 for binary32.
-/
namespace Sys2Proof.Machine.Rv

open Sys2Proof.Machine

/-- The accrued exception flags: NV 16, DZ 8, OF 4, UF 2, NX 1. -/
abbrev Flags := Nat

/-- Union of flags. -/
def fOr (a b : Flags) : Flags := Nat.lor a b

/-- The layout of a code. -/
def lay (c : Nat) : FpFmt := if c = 0 then fp64 else fp32

/-- Width in bits. -/
def fw (c : Nat) : Nat := if c = 0 then 64 else 32

/-- The rounding direction of a frm or rm value; `none` for a reserved one. -/
def rndOf (rm : Nat) : Option Rnd :=
  match rm with
  | 0 => some .nearestEven | 1 => some .trunc | 2 => some .floor | 3 => some .ceil | 4 => some .nearestAway | _ => none

/-- The value of some bits. -/
def fdec (c n : Nat) : FNum := decode c (n % 2 ^ fw c)

/-- The sign bit. -/
def fneg? (c n : Nat) : Bool := bitAt (fw c - 1) n

/-- Is a NaN signaling? -/
def isSnan (c n : Nat) : Bool := (fdec c n).isNan && !bitAt ((lay c).p - 2) n

/-- NV for a signaling operand. -/
def snanFlag (c : Nat) (l : List Nat) : Flags := if l.any (isSnan c) then 16 else 0

/-- Round an exact value: bits and flags. -/
def fround (c : Nat) (rm : Rnd) (x : FNum) : Nat × Flags :=
  match x with
  | .nan => (canonNan c, 0)
  | .inf s => (overflowBits c s, 0)
  | .zero s => (signBit c s, 0)
  | .fin m e =>
    let f := lay c
    let neg := decide (m < 0)
    let q := quantum f m e
    let k := roundInt rm m (e - q)
    let exact := if q ≤ e then true else decide (shiftInt k (q - e) = m)
    let u := msb m + e - ((f.p : Int) - 1)
    let ku := roundInt rm m (e - u)
    let tiny := ltMe ((ku.natAbs : Int), u) (1, 1 - (f.bias : Int))
    if exceeds c k q then
      let toInf := match rm with
        | .nearestEven => true
        | .nearestAway => true
        | .trunc => false
        | .floor => neg
        | .ceil => !neg
      (if toInf then overflowBits c neg else largestBits c + signBit c neg, 5)
    else
      (if k = 0 then signBit c neg else encodeGrid c k q, if exact then 0 else if tiny then 3 else 1)

/-- An exact zero sum takes the sign of the rounding direction unless both terms are zeros of one sign. -/
def zeroSign (rm : Rnd) (a b r : FNum) : FNum :=
  match r, a, b with
  | .zero _, .zero s, .zero t => if s = t then .zero s else .zero (rm == .floor)
  | .zero _, _, _ => .zero (rm == .floor)
  | y, _, _ => y

/-- The sum of two exact values, rounded. -/
def faddNum (c : Nat) (rm : Rnd) (a b : FNum) : Nat × Flags :=
  let r := a.add b
  let nv := if r.isNan && !a.isNan && !b.isNan then 16 else 0
  let x := fround c rm (zeroSign rm a b r)
  (x.1, fOr nv x.2)

/-- Sum. -/
def fadd (c : Nat) (rm : Rnd) (a b : Nat) : Nat × Flags :=
  let x := faddNum c rm (fdec c a) (fdec c b)
  (x.1, fOr x.2 (snanFlag c [a, b]))

/-- Difference. -/
def fsub (c : Nat) (rm : Rnd) (a b : Nat) : Nat × Flags :=
  let x := faddNum c rm (fdec c a) (fdec c b).negate
  (x.1, fOr x.2 (snanFlag c [a, b]))

/-- Exact product and the NV of infinity times zero. -/
def fprod (c a b : Nat) : FNum × Flags :=
  let x := fdec c a
  let y := fdec c b
  let r := x.mul y
  (r, if r.isNan && !x.isNan && !y.isNan then 16 else 0)

/-- Product. -/
def fmul (c : Nat) (rm : Rnd) (a b : Nat) : Nat × Flags :=
  let p := fprod c a b
  let x := fround c rm p.1
  (x.1, fOr x.2 (fOr p.2 (snanFlag c [a, b])))

/-- Fused `±(a * b) ± d`. -/
def fmadd (c : Nat) (rm : Rnd) (negP negD : Bool) (a b d : Nat) : Nat × Flags :=
  let p := fprod c a b
  let pr := if negP then p.1.negate else p.1
  let dv := if negD then (fdec c d).negate else fdec c d
  let x := faddNum c rm pr dv
  (x.1, fOr x.2 (fOr p.2 (snanFlag c [a, b, d])))

/-- A magnitude known to be in `(k, k + 1)` units or exactly `k`: one more bit tells which. -/
def jam (k : Nat) (exact : Bool) : Int := ((2 * k + (if exact then 0 else 1) : Nat) : Int)

/-- The exact quotient, or a value that rounds like it. -/
def fquot (x y : Int × Int) : FNum :=
  let n := x.1.natAbs * 2 ^ (Nat.log2 y.1.natAbs + 70)
  let d := y.1.natAbs
  let m := jam (n / d) (n % d == 0)
  let s := (decide (x.1 < 0)) != (decide (y.1 < 0))
  .fin (if s then -m else m) (x.2 - y.2 - ((Nat.log2 d + 70 : Nat) : Int) - 1)

/-- Quotient. -/
def fdiv (c : Nat) (rm : Rnd) (a b : Nat) : Nat × Flags :=
  let x := fdec c a
  let y := fdec c b
  let s := x.neg? != y.neg?
  let sn := snanFlag c [a, b]
  match x, y with
  | .nan, _ => (canonNan c, sn)
  | _, .nan => (canonNan c, sn)
  | .inf _, .inf _ => (canonNan c, 16)
  | .inf _, _ => (overflowBits c s, 0)
  | _, .inf _ => (signBit c s, 0)
  | .zero _, .zero _ => (canonNan c, 16)
  | .zero _, _ => (signBit c s, 0)
  | _, .zero _ => (overflowBits c s, 8)
  | u, v => fround c rm (fquot u.me v.me)

/-- Square root. -/
def fsqrt (c : Nat) (rm : Rnd) (a : Nat) : Nat × Flags :=
  match fdec c a with
  | .nan => (canonNan c, snanFlag c [a])
  | .zero s => (signBit c s, 0)
  | .inf s => if s then (canonNan c, 16) else (overflowBits c false, 0)
  | .fin m e =>
    if m < 0 then (canonNan c, 16)
    else
      let odd := decide (e % 2 ≠ 0)
      let n := m.natAbs * 2 ^ (if odd then 141 else 140)
      let r := isqrt n
      fround c rm (.fin (jam r (r * r == n)) ((e - (if odd then 1 else 0)) / 2 - 70 - 1))

/-- Is `a` the lesser for a minimum: -0 before +0? -/
def fless (c a b : Nat) : Bool :=
  let x := fdec c a
  let y := fdec c b
  x.lt y || (x.isZero && y.isZero && fneg? c a && !fneg? c b)

/-- Minimum and maximum. -/
def fminmax (c : Nat) (maxi : Bool) (a b : Nat) : Nat × Flags :=
  let sn := snanFlag c [a, b]
  let na := (fdec c a).isNan
  let nb := (fdec c b).isNan
  if na && nb then (canonNan c, sn) else if na then (b % 2 ^ fw c, sn) else if nb then (a % 2 ^ fw c, sn)
  else (if fless c a b != maxi then a % 2 ^ fw c else b % 2 ^ fw c, 0)

/-- Comparisons: 0 FLE, 1 FLT, 2 FEQ (quiet). -/
def fcmp (c op a b : Nat) : Bool × Flags :=
  let x := fdec c a
  let y := fdec c b
  let nan := x.isNan || y.isNan
  let nv := if op = 2 then snanFlag c [a, b] else if nan then 16 else 0
  (!nan && (match op with
    | 0 => x.lt y || x.feq y
    | 1 => x.lt y
    | _ => x.feq y), nv)

/-- Classification. -/
def fclass (c a : Nat) : Nat :=
  match fdec c a with
  | .nan => if isSnan c a then 256 else 512
  | .inf s => if s then 1 else 128
  | .zero s => if s then 8 else 16
  | .fin m _ =>
    let sub := decide (bits ((lay c).p + (lay c).eb - 2) ((lay c).p - 1) a = 0)
    if m < 0 then (if sub then 4 else 2) else (if sub then 32 else 64)

/-- Conversion to an integer of `w` bits. -/
def ftoi (c w : Nat) (signed : Bool) (rm : Rnd) (a : Nat) : Nat × Flags :=
  let hi : Int := if signed then ((2 ^ (w - 1) : Nat) : Int) - 1 else ((2 ^ w : Nat) : Int) - 1
  let lo : Int := if signed then -((2 ^ (w - 1) : Nat) : Int) else 0
  match fdec c a with
  | .nan => (wrap w hi, 16)
  | .inf s => (wrap w (if s then lo else hi), 16)
  | .zero _ => (0, 0)
  | .fin m e =>
    let k := roundInt rm m e
    if k < lo then (wrap w lo, 16) else if hi < k then (wrap w hi, 16)
    else (wrap w k, if 0 ≤ e ∨ shiftInt k (-e) = m then 0 else 1)

/-- Conversion from an integer. -/
def itof (c : Nat) (rm : Rnd) (i : Int) : Nat × Flags := fround c rm (FNum.mk i 0)

/-- Conversion between the two formats. -/
def fcvt (src dst : Nat) (rm : Rnd) (a : Nat) : Nat × Flags :=
  let x := fround dst rm (fdec src a)
  (x.1, fOr x.2 (snanFlag src [a]))

/-- Round to odd, for vfncvt.rod. -/
def froundOdd (c : Nat) (x : FNum) : Nat × Flags :=
  let r := fround c .trunc x
  match x with
  | .fin _ _ => if r.2 = 0 then r else (if r.1 % 2 = 0 then r.1 + 1 else r.1, r.2)
  | _ => r

/-- Sign injection: 0 FSGNJ, 1 FSGNJN, 2 FSGNJX. -/
def fsgnj (c op a b : Nat) : Nat :=
  let s := match op with
    | 0 => fneg? c b
    | 1 => !fneg? c b
    | _ => fneg? c a != fneg? c b
  a % 2 ^ (fw c - 1) + (if s then 2 ^ (fw c - 1) else 0)

/-! ### Estimates (vfrec7, vfrsqrt7) -/

/-- The seven bits of the reciprocal of `1.i`. -/
def rec7Bits (i : Nat) : Nat := (131072 + (257 + 2 * i)) / (2 * (257 + 2 * i)) - 128

/-- The seven bits of the reciprocal square root: `odd` for an exponent whose low bit is set. -/
def rsqrt7Bits (odd : Bool) (j : Nat) : Nat :=
  (isqrt (33554432 / ((129 + 2 * j) * (if odd then 1 else 2))) + 1) / 2 - 128

/-- Significand without its hidden bit and exponent of a non-zero finite value, a subnormal one normalised. -/
def normParts (c a : Nat) : Int × Nat :=
  let mw := (lay c).p - 1
  let ex := bits (fw c - 2) mw a
  let fr := a % 2 ^ mw
  if ex = 0 then
    let sh := mw - Nat.log2 fr
    (1 - (sh : Int), fr * 2 ^ sh % 2 ^ mw)
  else (ex, fr)

/-- vfrsqrt7. -/
def frsqrt7 (c a : Nat) : Nat × Flags :=
  match fdec c a with
  | .nan => (canonNan c, snanFlag c [a])
  | .zero s => (overflowBits c s, 8)
  | .inf s => if s then (canonNan c, 16) else (0, 0)
  | .fin m _ =>
    if m < 0 then (canonNan c, 16)
    else
      let mw := (lay c).p - 1
      let n := normParts c a
      let r := rsqrt7Bits (decide (n.1 % 2 ≠ 0)) (n.2 / 2 ^ (mw - 6))
      let ex := (3 * ((lay c).bias : Int) - 1 - n.1) / 2
      (ex.toNat * 2 ^ mw + r * 2 ^ (mw - 7), 0)

/-- vfrec7. -/
def frec7 (c : Nat) (rm : Rnd) (a : Nat) : Nat × Flags :=
  let s := fneg? c a
  match fdec c a with
  | .nan => (canonNan c, snanFlag c [a])
  | .zero t => (overflowBits c t, 8)
  | .inf t => (signBit c t, 0)
  | .fin _ _ =>
    let mw := (lay c).p - 1
    let n := normParts c a
    if n.1 < -1 then
      let toMax := rm == .trunc || (rm == .floor && !s) || (rm == .ceil && s)
      (if toMax then largestBits c + signBit c s else overflowBits c s, 5)
    else
      let r := rec7Bits (n.2 / 2 ^ (mw - 7)) * 2 ^ (mw - 7)
      let ex := 2 * ((lay c).bias : Int) - 1 - n.1
      let mag := if ex = 0 then 2 ^ (mw - 1) + r / 2
        else if ex = -1 then 2 ^ (mw - 2) + r / 4
        else ex.toNat * 2 ^ mw + r
      (mag + signBit c s, 0)

end Sys2Proof.Machine.Rv
end

