-- ==== Sys2Proof/Machine/RvBase.lean ====
section
/-!
DEFINITION. Registers, modes and traps of a hart (R175 to R178, R196, R198, R200). The RISC-V extensions and the
privileged architecture that the spec names without restating them are PRESUMED.
-/
namespace Sys2Proof.Machine.Rv

open Sys2Proof Sys2Proof.Machine

/-! ## Registers -/

/-- An x register; x0 reads zero. -/
def rx (h : Hart) (i : Nat) : Nat := if i = 0 then 0 else (h.x[i]?.getD 0).toNat

/-- Write an x register; x0 discards. -/
def wx (h : Hart) (i v : Nat) : Hart :=
  if i = 0 then h else { h with x := h.x.setIfInBounds i (BitVec.ofNat 64 v) }

/-- An f register's 64 bits. -/
def rf (h : Hart) (i : Nat) : Nat := (h.f[i]?.getD 0).toNat

/-- A value of format `c` in an f register: a binary32 value that is not NaN-boxed reads as the canonical NaN. -/
def rfc (h : Hart) (c i : Nat) : Nat :=
  let v := rf h i
  if c = 0 then v else if v / 2 ^ 32 = 0xFFFFFFFF then v % 2 ^ 32 else canonNan 1

/-- mstatus.FS becomes Dirty. -/
def dirtyF (h : Hart) : Hart := { h with csr := { h.csr with mstatus := h.csr.mstatus ||| 0x6000 } }

/-- mstatus.VS becomes Dirty. -/
def dirtyV (h : Hart) : Hart := { h with csr := { h.csr with mstatus := h.csr.mstatus ||| 0x600 } }

/-- Write an f register, NaN-boxing binary32. -/
def wf (h : Hart) (c i v : Nat) : Hart :=
  let b := if c = 0 then v % 2 ^ 64 else 0xFFFFFFFF * 2 ^ 32 + v % 2 ^ 32
  dirtyF { h with f := h.f.setIfInBounds i (BitVec.ofNat 64 b) }

/-- Accrue floating-point flags. -/
def accrue (h : Hart) (f : Flags) : Hart :=
  if f = 0 then h else dirtyF { h with csr := { h.csr with fcsr := h.csr.fcsr ||| BitVec.ofNat 8 (f % 32) } }

/-- The rounding direction of a rm field: 7 is dynamic. -/
def rmOf (h : Hart) (rm : Nat) : Option Rnd := rndOf (if rm = 7 then bits 7 5 h.csr.fcsr.toNat else rm)

/-- Are the f registers on (mstatus.FS), and the v registers (mstatus.VS)? -/
def fsOn (h : Hart) : Bool := bits 14 13 h.csr.mstatus.toNat != 0
def vsOn (h : Hart) : Bool := bits 10 9 h.csr.mstatus.toNat != 0

/-- Signed readings. -/
def s64 (n : Nat) : Int := sext 64 n
def s32 (n : Nat) : Int := sext 32 n

/-- The 64-bit image of a signed value; a 32-bit result sign-extended. -/
def w64 (i : Int) : Nat := wrap 64 i
def w32 (i : Int) : Nat := wrap 64 (sext 32 (wrap 32 i))

/-! ## Vector registers -/

/-- Element `i` of width `w` of the group that starts at register `v`. -/
def vget (h : Hart) (v w i : Nat) : Nat :=
  let r := (h.v[v + i * w / 1024]?.getD 0).toNat
  r / 2 ^ (i * w % 1024) % 2 ^ w

/-- Write an element. -/
def vset (h : Hart) (v w i n : Nat) : Hart :=
  let k := v + i * w / 1024
  let r := (h.v[k]?.getD 0).toNat
  let sh := i * w % 1024
  let old := r / 2 ^ sh % 2 ^ w
  { h with v := h.v.setIfInBounds k (BitVec.ofNat 1024 (r - old * 2 ^ sh + n % 2 ^ w * 2 ^ sh)) }

/-- A mask bit. -/
def vbit (h : Hart) (v i : Nat) : Bool := vget h v 1 i == 1

/-- SEW. -/
def sew (h : Hart) : Nat := 8 * 2 ^ bits 5 3 h.csr.vtype.toNat

/-- LMUL in eighths. -/
def lmul8 (h : Hart) : Nat :=
  match bits 2 0 h.csr.vtype.toNat with
  | 0 => 8 | 1 => 16 | 2 => 32 | 3 => 64 | 5 => 1 | 6 => 2 | _ => 4

/-- vtype.vill. -/
def vill (h : Hart) : Bool := bitAt 63 h.csr.vtype.toNat

/-- VLMAX for an LMUL in eighths and a SEW. -/
def vlmaxOf (l8 w : Nat) : Nat := 128 * l8 / w

/-- VLMAX. -/
def vlmax (h : Hart) : Nat := vlmaxOf (lmul8 h) (sew h)

/-! ## Modes and traps -/

/-- Causes of exceptions. -/
def cFetchFault : Nat := 1
def cIllegal : Nat := 2
def cBreak : Nat := 3
def cLoadMis : Nat := 4
def cLoadFault : Nat := 5
def cStoreMis : Nat := 6
def cStoreFault : Nat := 7
def cEcallU : Nat := 8
def cEcallM : Nat := 11

/-- Set or clear a bit of mstatus. -/
def setMst (m : Word) (i : Nat) (b : Bool) : Word := if b then m ||| (1#64 <<< i) else m &&& ~~~(1#64 <<< i)

/-- A trap taken to mtvec: mepc, mcause, mtval and mstatus are written, the mode becomes machine (R200). -/
def enterTrap (h : Hart) (cause tval : Nat) : Hart :=
  let m := h.csr.mstatus
  let m := setMst m 7 (bitAt 3 m.toNat)
  let m := setMst m 3 false
  let m := setMst (setMst m 11 h.machine) 12 h.machine
  let tv := h.csr.mtvec.toNat
  let base := tv / 4 * 4
  let pc := if tv % 4 = 1 ∧ bitAt 63 cause then base + 4 * (cause % 2 ^ 63) else base
  { h with machine := true, pc := BitVec.ofNat 64 pc
           csr := { h.csr with mstatus := m, mepc := h.pc, mcause := BitVec.ofNat 64 cause, mtval := BitVec.ofNat 64 tval } }

/-- A trap taken while mtvec is 0 halts the hart (R200). -/
def stopTrap (h : Hart) (cause tval : Nat) : Hart :=
  { h with st := .stopped, stats := { h.stats with trapCause := cause % 2 ^ 64, trapPc := h.pc.toNat, trapValue := tval % 2 ^ 64 } }

/-- MRET. -/
def mret (h : Hart) : Hart :=
  let m := h.csr.mstatus
  let mach := bits 12 11 m.toNat == 3
  let m := setMst m 3 (bitAt 7 m.toNat)
  let m := setMst m 7 true
  let m := setMst (setMst m 11 false) 12 false
  let m := if mach then m else setMst m 17 false
  { h with machine := mach, pc := h.csr.mepc, csr := { h.csr with mstatus := m } }

/-! ## The interrupt file and interrupts (R196, R198) -/

/-- The lowest pending and enabled identity under the threshold; 0 none. -/
def topIdent (c : HartCsr) : Nat :=
  let t := c.eithreshold.toNat
  let ok (i : Nat) : Bool := bitAt i c.eip.toNat && bitAt i c.eie.toNat && (t == 0 || decide (i < t))
  (((List.range 256).drop 1).find? ok).getD 0

/-- mip at a time: MEIP of the interrupt file, MTIP of `kfxtimecmp`. -/
def mip (h : Hart) (time : Nat) : Nat :=
  (if h.csr.eidelivery = 1 ∧ topIdent h.csr ≠ 0 then 2 ^ 11 else 0)
  + (if h.csr.timecmp.toNat ≤ time then 2 ^ 7 else 0)

/-- The interrupt that is pending and enabled, in the order external, software, timer. -/
def pendingInt (h : Hart) (time : Nat) : Option Nat :=
  let p := mip h time
  [11, 3, 7].find? (fun i => bitAt i p && bitAt i h.csr.mie.toNat)

/-- The interrupt that is taken: in user mode always, in machine mode under mstatus.MIE. -/
def takenInt (h : Hart) (time : Nat) : Option Nat :=
  if !h.machine || bitAt 3 h.csr.mstatus.toNat then pendingInt h time else none

/-! ## Physical memory protection -/

/-- Does entry `i` match an access: none, part, or all of its bytes? -/
inductive PmpHit where
  | miss
  | part
  | all
  deriving DecidableEq, Repr

/-- The byte range of entry `i`: off, top of range, four bytes, or a naturally aligned power of two. -/
def pmpRange (c : HartCsr) (i : Nat) : Option (Nat × Nat) :=
  let cfg := (c.pmpcfg[i]?.getD 0).toNat
  let a (k : Nat) : Nat := (c.pmpaddr[k]?.getD 0).toNat
  match bits 4 3 cfg with
  | 0 => none
  | 1 => some (if i = 0 then 0 else 4 * a (i - 1), 4 * a i)
  | 2 => some (4 * a i, 4 * a i + 4)
  | _ =>
    let ones := ((List.range 55).find? (fun k => !bitAt k (a i))).getD 54
    let size := 2 ^ (ones + 3)
    some (4 * a i / size * size, 4 * a i / size * size + size)

/-- How entry `i` meets an access. -/
def pmpHit (c : HartCsr) (i addr len : Nat) : PmpHit :=
  match pmpRange c i with
  | none => .miss
  | some (lo, hi) =>
    if addr + len ≤ lo ∨ hi ≤ addr then .miss else if lo ≤ addr ∧ addr + len ≤ hi then .all else .part

/-- Does PMP allow an access: `bit` is 0 for reads, 1 for writes, 2 for fetches? -/
def pmpOk (c : HartCsr) (machine : Bool) (bit addr len : Nat) : Bool :=
  match (List.range 16).find? (fun i => pmpHit c i addr len != .miss) with
  | none => machine
  | some i =>
    let cfg := (c.pmpcfg[i]?.getD 0).toNat
    pmpHit c i addr len == .all && ((machine && !bitAt 7 cfg) || bitAt bit cfg)

/-- The mode of data accesses (mstatus.MPRV). -/
def dataMode (h : Hart) : Bool :=
  if h.machine && bitAt 17 h.csr.mstatus.toNat then bits 12 11 h.csr.mstatus.toNat == 3 else h.machine

end Sys2Proof.Machine.Rv
end

