-- ==== Sys2Proof/Machine/RvCsr.lean ====
section
/-!
DEFINITION. The control and status registers of a hart (R174, R175, R178, R196, R198, Tables 7.2 and 7.11).
-/
namespace Sys2Proof.Machine.Rv

open Sys2Proof Sys2Proof.Machine

/-- What a hart reads of the package: Ridgepole nanoseconds, cycles, its own number and its step's identity. -/
structure Env where
  time : Nat
  cycle : Nat
  hart : Nat
  step : Nat
  epoch : Nat
  rank : Nat
  release : Nat

/-- misa: RV64 with A, C, D, F, I, M, U, V and a non-standard extension (R175). -/
def misa : Nat :=
  2 * 2 ^ 62 + 2 ^ 0 + 2 ^ 2 + 2 ^ 3 + 2 ^ 5 + 2 ^ 8 + 2 ^ 12 + 2 ^ 20 + 2 ^ 21 + 2 ^ 23

/-- The bits of mstatus that software writes: MIE, MPIE, VS, MPP, FS, MPRV, TW. -/
def mstatusMask : Nat := 0x3 * 2 ^ 9 + 2 ^ 3 + 2 ^ 7 + 0x3 * 2 ^ 11 + 0x3 * 2 ^ 13 + 2 ^ 17 + 2 ^ 21

/-- mstatus as it reads: UXL is 2; SD tells of a dirty unit. -/
def mstatusRead (h : Hart) : Nat :=
  let m := h.csr.mstatus.toNat
  m + 2 * 2 ^ 32 + (if bits 14 13 m = 3 ∨ bits 10 9 m = 3 then 2 ^ 63 else 0)

/-- mstatus as it is written: a mode that does not exist leaves MPP unchanged. -/
def mstatusWrite (old v : Nat) : Nat :=
  let n := Nat.land v mstatusMask
  if bits 12 11 n = 0 ∨ bits 12 11 n = 3 then n else n - bits 12 11 n * 2 ^ 11 + bits 12 11 old * 2 ^ 11

/-- The registers behind miselect: those that R196 names, for 255 identities; `none` raises an illegal-instruction
exception (R196). -/
def mireg (c : HartCsr) : Option Nat :=
  let sel := c.miselect.toNat
  if sel = 0x70 then some c.eidelivery.toNat
  else if sel = 0x72 then some c.eithreshold.toNat
  else if 0x80 ≤ sel ∧ sel < 0x88 ∧ sel % 2 = 0 then some (bits (32 * (sel - 0x80) + 63) (32 * (sel - 0x80)) c.eip.toNat)
  else if 0xC0 ≤ sel ∧ sel < 0xC8 ∧ sel % 2 = 0 then some (bits (32 * (sel - 0xC0) + 63) (32 * (sel - 0xC0)) c.eie.toNat)
  else none

/-- Replace 64 bits of an array of 256; identity 0 does not exist. -/
def putIdents (w : BitVec 256) (k v : Nat) : BitVec 256 :=
  let old := bits (32 * k + 63) (32 * k) w.toNat
  let n := w.toNat - old * 2 ^ (32 * k) + v % 2 ^ 64 * 2 ^ (32 * k)
  BitVec.ofNat 256 (n - n % 2)

/-- A write through mireg. -/
def miregWrite (c : HartCsr) (v : Nat) : HartCsr :=
  let sel := c.miselect.toNat
  if sel = 0x70 then { c with eidelivery := if v % 2 ^ 64 = 1 then 1 else 0 }
  else if sel = 0x72 then { c with eithreshold := BitVec.ofNat 64 (v % 256) }
  else if 0x80 ≤ sel ∧ sel < 0x88 then { c with eip := putIdents c.eip (sel - 0x80) v }
  else if 0xC0 ≤ sel ∧ sel < 0xC8 then { c with eie := putIdents c.eie (sel - 0xC0) v }
  else c

/-- Is a PMP entry locked, or the base of a locked top-of-range entry? -/
def pmpLocked (c : HartCsr) (i : Nat) : Bool :=
  let cfg (k : Nat) : Nat := (c.pmpcfg[k]?.getD 0).toNat
  bitAt 7 (cfg i) || (decide (i + 1 < 16) && bitAt 7 (cfg (i + 1)) && bits 4 3 (cfg (i + 1)) == 1)

/-- A write of one pmpcfg byte: a locked entry keeps its value, and W without R is not writable. -/
def pmpCfgWrite (c : HartCsr) (i v : Nat) : HartCsr :=
  let old := (c.pmpcfg[i]?.getD 0).toNat
  let n := Nat.land v 0x9F
  if bitAt 7 old || (bitAt 1 n && !bitAt 0 n) then c else { c with pmpcfg := c.pmpcfg.setIfInBounds i (BitVec.ofNat 8 n) }

/-- Is a CSR number one of the floating-point ones, and one of the vector ones? -/
def fpCsr (a : Nat) : Bool := a == 1 || a == 2 || a == 3
def vecCsr (a : Nat) : Bool := a == 8 || a == 9 || a == 0xA || a == 0xF || a == 0xC20 || a == 0xC21 || a == 0xC22

/-- May this mode, with this status, reach a CSR number? -/
def csrAllowed (h : Hart) (a : Nat) (write : Bool) : Bool :=
  !(bits 9 8 a == 3 && !h.machine) && !(bits 9 8 a == 1) && !(bits 9 8 a == 2) && !(bits 11 10 a == 3 && write)
  && (!fpCsr a || fsOn h) && (!vecCsr a || vsOn h)
  && (!(0xC00 ≤ a && a ≤ 0xC02) || h.machine || bitAt (a - 0xC00) h.csr.mcounteren.toNat)

/-- The value of a CSR; `none` where it does not exist (R174, R199). -/
def csrValue (e : Env) (h : Hart) (a : Nat) : Option Nat :=
  let c := h.csr
  if 0x3B0 ≤ a ∧ a ≤ 0x3BF then some (c.pmpaddr[a - 0x3B0]?.getD 0).toNat
  else if (0x323 ≤ a ∧ a ≤ 0x33F) ∨ (0xB03 ≤ a ∧ a ≤ 0xB1F) then some 0
  else if a = 0x3A0 ∨ a = 0x3A2 then
    some (leNat ((List.range 8).map (fun i => c.pmpcfg[4 * (a - 0x3A0) + i]?.getD 0)))
  else match a with
  | 0x001 => some (bits 4 0 c.fcsr.toNat)
  | 0x002 => some (bits 7 5 c.fcsr.toNat)
  | 0x003 => some c.fcsr.toNat
  | 0x008 => some c.vstart
  | 0x009 => some c.vxsat.toNat
  | 0x00A => some c.vxrm.toNat
  | 0x00F => some (c.vxsat.toNat + 2 * c.vxrm.toNat)
  | 0xC20 => some c.vl
  | 0xC21 => some c.vtype.toNat
  | 0xC22 => some 128
  | 0xC00 => some e.cycle
  | 0xC01 => some e.time
  | 0xC02 => some c.minstret.toNat
  | 0xB00 => some e.cycle
  | 0xB02 => some c.minstret.toNat
  | 0xF11 => some (Config.idCsr a).toNat
  | 0xF12 => some (Config.idCsr a).toNat
  | 0xF13 => some (Config.idCsr a).toNat
  | 0xF14 => some e.hart
  | 0xF15 => some 0
  | 0x300 => some (mstatusRead h)
  | 0x301 => some misa
  | 0x304 => some c.mie.toNat
  | 0x305 => some c.mtvec.toNat
  | 0x306 => some c.mcounteren.toNat
  | 0x30A => some c.menvcfg.toNat
  | 0x320 => some c.mcountinhibit.toNat
  | 0x340 => some c.mscratch.toNat
  | 0x341 => some c.mepc.toNat
  | 0x342 => some c.mcause.toNat
  | 0x343 => some c.mtval.toNat
  | 0x344 => some (mip h e.time)
  | 0x350 => some c.miselect.toNat
  | 0x351 => mireg c
  | 0x35C => some (topIdent c * 65537)
  | 0x7C0 => some c.timecmp.toNat
  | 0xFC0 => some e.step
  | 0xFC1 => some e.epoch
  | 0xFC2 => some e.rank
  | 0xFC3 => some e.release
  | _ => none

/-- Write a CSR that exists; a read-only field keeps its value. minstret is written one short of its value, since the
instruction itself is still to be counted. -/
def csrPut (h : Hart) (a v : Nat) : Hart :=
  let c := h.csr
  let w : Word := BitVec.ofNat 64 v
  if 0x3B0 ≤ a ∧ a ≤ 0x3BF then
    if pmpLocked c (a - 0x3B0) then h
    else { h with csr := { c with pmpaddr := c.pmpaddr.setIfInBounds (a - 0x3B0) (BitVec.ofNat 64 (v % 2 ^ 54)) } }
  else if a = 0x3A0 ∨ a = 0x3A2 then
    { h with csr := (List.range 8).foldl (fun c i => pmpCfgWrite c (4 * (a - 0x3A0) + i) (bits (8 * i + 7) (8 * i) v)) c }
  else match a with
  | 0x001 => dirtyF { h with csr := { c with fcsr := BitVec.ofNat 8 (bits 7 5 c.fcsr.toNat * 32 + v % 32) } }
  | 0x002 => dirtyF { h with csr := { c with fcsr := BitVec.ofNat 8 (v % 8 * 32 + bits 4 0 c.fcsr.toNat) } }
  | 0x003 => dirtyF { h with csr := { c with fcsr := BitVec.ofNat 8 v } }
  | 0x008 => dirtyV { h with csr := { c with vstart := v % 1024 } }
  | 0x009 => dirtyV { h with csr := { c with vxsat := bitAt 0 v } }
  | 0x00A => dirtyV { h with csr := { c with vxrm := BitVec.ofNat 2 v } }
  | 0x00F => dirtyV { h with csr := { c with vxsat := bitAt 0 v, vxrm := BitVec.ofNat 2 (v / 2) } }
  | 0xB02 => { h with csr := { c with minstret := if bitAt 2 c.mcountinhibit.toNat then w else w - 1 } }
  | 0x300 => { h with csr := { c with mstatus := BitVec.ofNat 64 (mstatusWrite c.mstatus.toNat v) } }
  | 0x304 => { h with csr := { c with mie := w &&& 0x880 } }
  | 0x305 => { h with csr := { c with mtvec := w &&& ~~~2 } }
  | 0x306 => { h with csr := { c with mcounteren := BitVec.ofNat 32 (v % 8) } }
  | 0x30A => { h with csr := { c with menvcfg := w &&& 1 } }
  | 0x320 => { h with csr := { c with mcountinhibit := BitVec.ofNat 32 v &&& 5 } }
  | 0x340 => { h with csr := { c with mscratch := w } }
  | 0x341 => { h with csr := { c with mepc := w &&& ~~~1 } }
  | 0x342 => { h with csr := { c with mcause := w } }
  | 0x343 => { h with csr := { c with mtval := w } }
  | 0x350 => { h with csr := { c with miselect := w } }
  | 0x351 => { h with csr := miregWrite c v }
  | 0x35C => { h with csr := { c with eip := c.eip &&& ~~~(1#256 <<< topIdent c) } }
  | 0x7C0 => { h with csr := { c with timecmp := w } }
  | _ => h

/-- A CSR instruction: the value read, and the hart after the write; `none` raises an illegal-instruction exception. -/
def csrOp (e : Env) (h : Hart) (a : Nat) (write : Bool) (f : Nat → Nat) : Option (Nat × Hart) :=
  if csrAllowed h a write then
    (csrValue e h a).map (fun v => (v, if write then csrPut h a (f v % 2 ^ 64) else h))
  else none

end Sys2Proof.Machine.Rv
end

