-- ==== Sys2Proof/Machine/RvScalar.lean ====
section
/-!
DEFINITION. The scalar instructions of a hart: RV64I, M, A, F, D, C, Zicsr, Zifencei and Xkfx's doorbell and fence
(R175, R186, R189, R194).
-/
namespace Sys2Proof.Machine.Rv

open Sys2Proof Sys2Proof.Machine

/-! ## Effects -/

/-- Where loaded bytes go: an x register, an f register, or an element of a vector register group. -/
inductive Dst where
  | x (rd : Nat) (signed : Bool)
  | f (c rd : Nat)
  | v (reg w i : Nat)

/-- One element of a load. -/
structure Elem where
  idx : Nat
  addr : Nat
  size : Nat
  dst : Dst

/-- One element of a store. -/
structure Put where
  idx : Nat
  addr : Nat
  bytes : List Byte

/-- What an instruction does, beside `h`, the hart with its pc advanced: nothing else, a trap, a load, a first-fault load
(of Xkfx or of V), a store, an atomic operation, a doorbell, a canopy fence. -/
inductive Eff where
  | done (h : Hart)
  | trap (cause tval : Nat)
  | load (l : List Elem) (h : Hart)
  | first (kfx : Bool) (l : List Elem) (h : Hart)
  | store (l : List Put) (h : Hart)
  | lr (addr size rd : Nat) (h : Hart)
  | sc (addr size val rd : Nat) (h : Hart)
  | amo (op addr size val rd : Nat) (h : Hart)
  | doorbell (ident payload : Nat) (h : Hart)
  | cfence (h : Hart)

/-- An illegal instruction. -/
def illegal (w : Nat) : Eff := .trap cIllegal (Config.trapValue cIllegal w).toNat

/-! ## Compressed instructions -/

/-- Encodings of the full-length formats. -/
def encR (op f3 f7 rd rs1 rs2 : Nat) : Nat := op + rd * 2 ^ 7 + f3 * 2 ^ 12 + rs1 * 2 ^ 15 + rs2 * 2 ^ 20 + f7 * 2 ^ 25
def encI (op f3 rd rs1 : Nat) (imm : Int) : Nat := op + rd * 2 ^ 7 + f3 * 2 ^ 12 + rs1 * 2 ^ 15 + wrap 12 imm * 2 ^ 20
def encS (op f3 rs1 rs2 : Nat) (imm : Int) : Nat :=
  let i := wrap 12 imm
  op + bits 4 0 i * 2 ^ 7 + f3 * 2 ^ 12 + rs1 * 2 ^ 15 + rs2 * 2 ^ 20 + bits 11 5 i * 2 ^ 25
def encB (f3 rs1 rs2 : Nat) (imm : Int) : Nat :=
  let i := wrap 13 imm
  0x63 + bits 11 11 i * 2 ^ 7 + bits 4 1 i * 2 ^ 8 + f3 * 2 ^ 12 + rs1 * 2 ^ 15 + rs2 * 2 ^ 20 + bits 10 5 i * 2 ^ 25
    + bits 12 12 i * 2 ^ 31
def encU (op rd : Nat) (imm : Int) : Nat := op + rd * 2 ^ 7 + bits 31 12 (wrap 32 imm) * 2 ^ 12
def encJ (rd : Nat) (imm : Int) : Nat :=
  let i := wrap 21 imm
  0x6F + rd * 2 ^ 7 + bits 19 12 i * 2 ^ 12 + bits 11 11 i * 2 ^ 20 + bits 10 1 i * 2 ^ 21 + bits 20 20 i * 2 ^ 31

/-- Expand a compressed instruction of quadrant 0. -/
def expand0 (n : Nat) : Option Nat :=
  let rd := bits 4 2 n + 8
  let rs := bits 9 7 n + 8
  let i8 := bits 12 10 n * 8 + bits 6 5 n * 64
  let i4 := bits 12 10 n * 8 + bits 6 6 n * 4 + bits 5 5 n * 64
  match bits 15 13 n with
  | 0 =>
    let i := bits 12 11 n * 16 + bits 10 7 n * 64 + bits 6 6 n * 4 + bits 5 5 n * 8
    if i = 0 then none else some (encI 0x13 0 rd 2 i)
  | 1 => some (encI 0x07 3 rd rs i8)
  | 2 => some (encI 0x03 2 rd rs i4)
  | 3 => some (encI 0x03 3 rd rs i8)
  | 5 => some (encS 0x27 3 rs rd i8)
  | 6 => some (encS 0x23 2 rs rd i4)
  | 7 => some (encS 0x23 3 rs rd i8)
  | _ => none

/-- Expand a compressed instruction of quadrant 1. -/
def expand1 (n : Nat) : Option Nat :=
  let rd := bits 11 7 n
  let i6 := sext 6 (bits 12 12 n * 32 + bits 6 2 n)
  let rp := bits 9 7 n + 8
  let jimm := sext 12 (bits 12 12 n * 2048 + bits 11 11 n * 16 + bits 10 9 n * 256 + bits 8 8 n * 1024 + bits 7 7 n * 64
    + bits 6 6 n * 128 + bits 5 3 n * 2 + bits 2 2 n * 32)
  let bimm := sext 9 (bits 12 12 n * 256 + bits 11 10 n * 8 + bits 6 5 n * 64 + bits 4 3 n * 2 + bits 2 2 n * 32)
  match bits 15 13 n with
  | 0 => some (encI 0x13 0 rd rd i6)
  | 1 => if rd = 0 then none else some (encI 0x1B 0 rd rd i6)
  | 2 => some (encI 0x13 0 rd 0 i6)
  | 3 =>
    if i6 = 0 then none
    else if rd = 2 then
      some (encI 0x13 0 2 2 (sext 10 (bits 12 12 n * 512 + bits 6 6 n * 16 + bits 5 5 n * 64 + bits 4 3 n * 128
        + bits 2 2 n * 32)))
    else some (encU 0x37 rd (i6 * 4096))
  | 4 =>
    let sh : Nat := bits 12 12 n * 32 + bits 6 2 n
    let r2 := bits 4 2 n + 8
    match bits 11 10 n with
    | 0 => some (encI 0x13 5 rp rp sh)
    | 1 => some (encI 0x13 5 rp rp (sh + 1024))
    | 2 => some (encI 0x13 7 rp rp i6)
    | _ =>
      match bits 12 12 n, bits 6 5 n with
      | 0, 0 => some (encR 0x33 0 32 rp rp r2)
      | 0, 1 => some (encR 0x33 4 0 rp rp r2)
      | 0, 2 => some (encR 0x33 6 0 rp rp r2)
      | 0, 3 => some (encR 0x33 7 0 rp rp r2)
      | 1, 0 => some (encR 0x3B 0 32 rp rp r2)
      | 1, 1 => some (encR 0x3B 0 0 rp rp r2)
      | _, _ => none
  | 5 => some (encJ 0 jimm)
  | 6 => some (encB 0 rp 0 bimm)
  | _ => some (encB 1 rp 0 bimm)

/-- Expand a compressed instruction of quadrant 2. -/
def expand2 (n : Nat) : Option Nat :=
  let rd := bits 11 7 n
  let rs2 := bits 6 2 n
  let l8 := bits 12 12 n * 32 + bits 6 5 n * 8 + bits 4 2 n * 64
  let l4 := bits 12 12 n * 32 + bits 6 4 n * 4 + bits 3 2 n * 64
  let s8 := bits 12 10 n * 8 + bits 9 7 n * 64
  let s4 := bits 12 9 n * 4 + bits 8 7 n * 64
  match bits 15 13 n with
  | 0 => some (encI 0x13 1 rd rd (bits 12 12 n * 32 + rs2 : Nat))
  | 1 => some (encI 0x07 3 rd 2 l8)
  | 2 => if rd = 0 then none else some (encI 0x03 2 rd 2 l4)
  | 3 => if rd = 0 then none else some (encI 0x03 3 rd 2 l8)
  | 4 =>
    if bits 12 12 n = 0 then
      if rs2 = 0 then (if rd = 0 then none else some (encI 0x67 0 0 rd 0)) else some (encR 0x33 0 0 rd 0 rs2)
    else if rs2 = 0 then (if rd = 0 then some 0x00100073 else some (encI 0x67 0 1 rd 0))
    else some (encR 0x33 0 0 rd rd rs2)
  | 5 => some (encS 0x27 3 2 rs2 s8)
  | 6 => some (encS 0x23 2 2 rs2 s4)
  | _ => some (encS 0x23 3 2 rs2 s8)

/-- The full-length instruction of a compressed one (R175). -/
def expandC (n : Nat) : Option Nat :=
  match n % 4 with
  | 0 => expand0 n
  | 1 => expand1 n
  | 2 => expand2 n
  | _ => none

/-! ## Fields -/

def fRd (w : Nat) : Nat := bits 11 7 w
def fRs1 (w : Nat) : Nat := bits 19 15 w
def fRs2 (w : Nat) : Nat := bits 24 20 w
def fF3 (w : Nat) : Nat := bits 14 12 w
def fF7 (w : Nat) : Nat := bits 31 25 w
def immI (w : Nat) : Int := sext 12 (bits 31 20 w)
def immS (w : Nat) : Int := sext 12 (bits 31 25 w * 32 + bits 11 7 w)
def immB (w : Nat) : Int :=
  sext 13 (bits 31 31 w * 4096 + bits 7 7 w * 2048 + bits 30 25 w * 32 + bits 11 8 w * 2)
def immU (w : Nat) : Int := sext 32 (bits 31 12 w * 4096)
def immJ (w : Nat) : Int :=
  sext 21 (bits 31 31 w * 2 ^ 20 + bits 19 12 w * 4096 + bits 20 20 w * 2048 + bits 30 21 w * 2)

/-- The hart with its pc at an address. -/
def goto (h : Hart) (a : Nat) : Hart := { h with pc := BitVec.ofNat 64 a }

/-! ## Integer computation -/

/-- Signed quotient and remainder with the corners of the M extension. -/
def sdivRem (w a b : Nat) : Nat × Nat :=
  let x := sext w a
  let y := sext w b
  if y = 0 then (wrap w (-1), wrap w x) else (wrap w (x.tdiv y), wrap w (x.tmod y))

/-- Unsigned quotient and remainder. -/
def udivRem (w a b : Nat) : Nat × Nat :=
  let x := a % 2 ^ w
  let y := b % 2 ^ w
  if y = 0 then (2 ^ w - 1, x) else (x / y, x % y)

/-- Register-register operations of 64 bits. -/
def aluR (f7 f3 a b : Nat) : Option Nat :=
  match f7, f3 with
  | 0, 0 => some (w64 (s64 a + s64 b))
  | 32, 0 => some (w64 (s64 a - s64 b))
  | 0, 1 => some (a * 2 ^ (b % 64) % 2 ^ 64)
  | 0, 2 => some (if s64 a < s64 b then 1 else 0)
  | 0, 3 => some (if a < b then 1 else 0)
  | 0, 4 => some (Nat.xor a b)
  | 0, 5 => some (a / 2 ^ (b % 64))
  | 32, 5 => some (w64 (s64 a / 2 ^ (b % 64)))
  | 0, 6 => some (Nat.lor a b)
  | 0, 7 => some (Nat.land a b)
  | 1, 0 => some (a * b % 2 ^ 64)
  | 1, 1 => some (w64 (s64 a * s64 b / 2 ^ 64))
  | 1, 2 => some (w64 (s64 a * (b : Int) / 2 ^ 64))
  | 1, 3 => some (a * b / 2 ^ 64)
  | 1, 4 => some (sdivRem 64 a b).1
  | 1, 5 => some (udivRem 64 a b).1
  | 1, 6 => some (sdivRem 64 a b).2
  | 1, 7 => some (udivRem 64 a b).2
  | _, _ => none

/-- Register-register operations of 32 bits. -/
def aluW (f7 f3 a b : Nat) : Option Nat :=
  match f7, f3 with
  | 0, 0 => some (w32 (s64 a + s64 b))
  | 32, 0 => some (w32 (s64 a - s64 b))
  | 0, 1 => some (w32 ((a * 2 ^ (b % 32) : Nat) : Int))
  | 0, 5 => some (w32 ((a % 2 ^ 32 / 2 ^ (b % 32) : Nat) : Int))
  | 32, 5 => some (w32 (s32 a / 2 ^ (b % 32)))
  | 1, 0 => some (w32 ((a * b : Nat) : Int))
  | 1, 4 => some (w32 ((sdivRem 32 a b).1 : Int))
  | 1, 5 => some (w32 ((udivRem 32 a b).1 : Int))
  | 1, 6 => some (w32 ((sdivRem 32 a b).2 : Int))
  | 1, 7 => some (w32 ((udivRem 32 a b).2 : Int))
  | _, _ => none

/-- Register-immediate operations of 64 bits. -/
def aluI (w a : Nat) : Option Nat :=
  let i := wrap 64 (immI w)
  match fF3 w with
  | 1 => if bits 31 26 w = 0 then aluR 0 1 a (bits 25 20 w) else none
  | 5 => if bits 31 26 w = 0 then aluR 0 5 a (bits 25 20 w) else if bits 31 26 w = 16 then aluR 32 5 a (bits 25 20 w) else none
  | k => aluR 0 k a i

/-- Register-immediate operations of 32 bits. -/
def aluIW (w a : Nat) : Option Nat :=
  match fF3 w with
  | 0 => some (w32 (s64 a + immI w))
  | 1 => if fF7 w = 0 then aluW 0 1 a (fRs2 w) else none
  | 5 => if fF7 w = 0 then aluW 0 5 a (fRs2 w) else if fF7 w = 32 then aluW 32 5 a (fRs2 w) else none
  | _ => none

/-- Is a branch taken? -/
def branch (f3 a b : Nat) : Option Bool :=
  match f3 with
  | 0 => some (a == b)
  | 1 => some (a != b)
  | 4 => some (decide (s64 a < s64 b))
  | 5 => some (decide (s64 b ≤ s64 a))
  | 6 => some (decide (a < b))
  | 7 => some (decide (b ≤ a))
  | _ => none

/-- The new value of an atomic operation of `w` bits: the value in memory, the operand. -/
def amoValue (op w a b : Nat) : Option Nat :=
  let x := sext w a
  let y := sext w b
  match op with
  | 0 => some ((a + b) % 2 ^ w)
  | 1 => some (b % 2 ^ w)
  | 4 => some (Nat.xor a b % 2 ^ w)
  | 8 => some (Nat.lor a b % 2 ^ w)
  | 12 => some (Nat.land a b % 2 ^ w)
  | 16 => some (wrap w (if x ≤ y then x else y))
  | 20 => some (wrap w (if x ≤ y then y else x))
  | 24 => some (min (a % 2 ^ w) (b % 2 ^ w))
  | 28 => some (max (a % 2 ^ w) (b % 2 ^ w))
  | _ => none

/-! ## Floating point -/

/-- The result of a floating-point operation into an f register. -/
def fRes (h : Hart) (c rd : Nat) (r : Nat × Flags) : Eff := .done (accrue (wf h c rd r.1) r.2)

/-- The result of a floating-point operation into an x register. -/
def xRes (h : Hart) (rd : Nat) (r : Nat × Flags) : Eff := .done (accrue (wx h rd r.1) r.2)

/-- The integer type of a conversion: W, WU, L, LU. -/
def cvtWidth (rs2 : Nat) : Nat × Bool := (if rs2 < 2 then 32 else 64, rs2 % 2 == 0)

/-- The value of an x register as the integer type of a conversion reads it. -/
def cvtInt (rs2 v : Nat) : Int :=
  match rs2 with
  | 0 => s32 v
  | 1 => ((v % 2 ^ 32 : Nat) : Int)
  | 2 => s64 v
  | _ => (v : Int)

/-- OP-FP; `n` is the hart with its pc advanced. -/
def opFp (h n : Hart) (w : Nat) : Eff :=
  let c := if bits 26 25 w = 1 then 0 else 1
  let a := rfc h c (fRs1 w)
  let b := rfc h c (fRs2 w)
  let rd := fRd w
  let rs2 := fRs2 w
  let f3 := fF3 w
  let withRm (f : Rnd → Eff) : Eff := match rmOf h f3 with
    | some r => f r
    | none => illegal w
  if 2 ≤ bits 26 25 w then illegal w else
  match bits 31 27 w with
  | 0 => withRm (fun r => fRes n c rd (fadd c r a b))
  | 1 => withRm (fun r => fRes n c rd (fsub c r a b))
  | 2 => withRm (fun r => fRes n c rd (fmul c r a b))
  | 3 => withRm (fun r => fRes n c rd (fdiv c r a b))
  | 11 => if rs2 = 0 then withRm (fun r => fRes n c rd (fsqrt c r a)) else illegal w
  | 4 => if f3 < 3 then .done (wf n c rd (fsgnj c f3 a b)) else illegal w
  | 5 => if f3 < 2 then fRes n c rd (fminmax c (f3 == 1) a b) else illegal w
  | 8 => if rs2 = c then withRm (fun r => fRes n c rd (fcvt (1 - c) c r (rfc h (1 - c) (fRs1 w)))) else illegal w
  | 20 =>
    if f3 < 3 then
      let r := fcmp c f3 a b
      xRes n rd (r.1.toNat, r.2)
    else illegal w
  | 24 =>
    if rs2 < 4 then withRm (fun r =>
      let k := ftoi c (cvtWidth rs2).1 (cvtWidth rs2).2 r a
      xRes n rd (if rs2 < 2 then w32 (k.1 : Int) else k.1, k.2))
    else illegal w
  | 26 => if rs2 < 4 then withRm (fun r => fRes n c rd (itof c r (cvtInt rs2 (rx h (fRs1 w))))) else illegal w
  | 28 =>
    if rs2 = 0 ∧ f3 = 0 then .done (wx n rd (if c = 0 then rf h (fRs1 w) else w32 ((rf h (fRs1 w) : Nat) : Int)))
    else if rs2 = 0 ∧ f3 = 1 then .done (wx n rd (fclass c a))
    else illegal w
  | 30 => if rs2 = 0 ∧ f3 = 0 then .done (wf n c rd (rx h (fRs1 w))) else illegal w
  | _ => illegal w

/-- The fused multiply-adds. -/
def opFma (h n : Hart) (w : Nat) (negP negD : Bool) : Eff :=
  let c := if bits 26 25 w = 1 then 0 else 1
  if 2 ≤ bits 26 25 w then illegal w else
  match rmOf h (fF3 w) with
  | some r =>
    fRes n c (fRd w) (fmadd c r negP negD (rfc h c (fRs1 w)) (rfc h c (fRs2 w)) (rfc h c (bits 31 27 w)))
  | none => illegal w

/-! ## The doorbell (Table 7.8) -/

/-- Is a doorbell's identifier and payload as Table 7.8 lays them out? -/
def dbOk (ident payload : Nat) : Bool :=
  let arg := payload % 65536
  ident / 2 ^ 32 == 0 && payload / 65536 == 0 && bits 14 10 ident == 0
  && (match bits 31 28 ident with
    | 0 => bits 27 0 ident == 0 && arg == 0
    | 1 => true
    | 2 => bits 27 27 ident == 0 && bits 19 0 ident == 0 && decide (16 ≤ arg) && decide (arg < 256)
    | _ => false)

/-- The effect that a doorbell asks for. -/
def dbKind (ident payload : Nat) : DbKind :=
  match bits 31 28 ident with
  | 1 => .tcflag (bits 27 20 ident) (if bitAt 19 ident then some (bits 18 16 ident) else none)
           (if bitAt 15 ident then some (bits 9 0 ident) else none) (payload % 65536)
  | 2 => .hart (bits 26 20 ident) (payload % 256)
  | _ => .stepEnd

/-! ## System instructions -/

/-- SYSTEM. -/
def system (e : Env) (h n : Hart) (w : Nat) : Eff :=
  let a := bits 31 20 w
  let rd := fRd w
  let src := if 4 ≤ fF3 w then fRs1 w else rx h (fRs1 w)
  let run (write : Bool) (f : Nat → Nat) : Eff :=
    match csrOp e n a write f with
    | some r => .done (wx r.2 rd r.1)
    | none => illegal w
  match fF3 w % 4 with
  | 1 => run true (fun _ => src)
  | 2 => run (fRs1 w != 0) (fun v => Nat.lor v src)
  | 3 => run (fRs1 w != 0) (fun v => Nat.land v (2 ^ 64 - 1 - src))
  | _ =>
    if fF3 w = 4 then illegal w
    else if w = 0x00000073 then .trap (if h.machine then cEcallM else cEcallU) 0
    else if w = 0x00100073 then .trap cBreak (Config.trapValue cBreak h.pc.toNat).toNat
    else if w = 0x30200073 then (if h.machine then .done (mret n) else illegal w)
    else if w = 0x10500073 then (if h.machine || !bitAt 21 h.csr.mstatus.toNat then .done n else illegal w)
    else illegal w

/-! ## Scalar dispatch -/

/-- The result of an integer operation. -/
def aluRes (n : Hart) (w : Nat) : Option Nat → Eff
  | some v => .done (wx n (fRd w) v)
  | none => illegal w

/-- The bytes of a store of a register. -/
def put1 (a size v : Nat) (n : Hart) : Eff := .store [⟨0, a, leBytes size v⟩] n

/-- A scalar instruction; `len` is its length, `none` for an opcode that is not scalar. -/
def scalar (e : Env) (h : Hart) (w len : Nat) : Option Eff :=
  let pc := h.pc.toNat
  let n := goto h (pc + len)
  let a := rx h (fRs1 w)
  let b := rx h (fRs2 w)
  let f3 := fF3 w
  let ea := w64 (s64 a + immI w)
  let es := w64 (s64 a + immS w)
  match w % 128 with
  | 0x03 =>
    some (if f3 = 7 then illegal w
      else .load [⟨0, ea, 2 ^ (f3 % 4), .x (fRd w) (decide (f3 < 4))⟩] n)
  | 0x07 =>
    if f3 = 2 ∨ f3 = 3 then
      some (if fsOn h then .load [⟨0, ea, 2 ^ f3, .f (3 - f3) (fRd w)⟩] n else illegal w)
    else none
  | 0x0B =>
    some (if f3 = 0 ∧ fF7 w = 0 ∧ fRd w = 0 then
        (if dbOk a b then .doorbell a b n else .trap cStoreFault a)
      else if f3 = 1 ∧ bits 31 15 w = 0 ∧ fRd w = 0 then .cfence n
      else illegal w)
  | 0x0F => some (if f3 < 2 then .done n else illegal w)
  | 0x13 => some (aluRes n w (aluI w a))
  | 0x17 => some (.done (wx n (fRd w) (w64 (s64 pc + immU w))))
  | 0x1B => some (aluRes n w (aluIW w a))
  | 0x23 => some (if f3 < 4 then put1 es (2 ^ f3) b n else illegal w)
  | 0x27 =>
    if f3 = 2 ∨ f3 = 3 then some (if fsOn h then put1 es (2 ^ f3) (rf h (fRs2 w)) n else illegal w) else none
  | 0x2F =>
    let op := bits 31 27 w
    let size := 2 ^ f3
    some (if f3 ≠ 2 ∧ f3 ≠ 3 then illegal w
      else if op = 2 then (if fRs2 w = 0 then .lr a size (fRd w) n else illegal w)
      else if op = 3 then .sc a size b (fRd w) n
      else if (amoValue op 64 0 0).isSome then .amo op a size b (fRd w) n
      else illegal w)
  | 0x33 => some (aluRes n w (aluR (fF7 w) f3 a b))
  | 0x37 => some (.done (wx n (fRd w) (w64 (immU w))))
  | 0x3B => some (aluRes n w (aluW (fF7 w) f3 a b))
  | 0x43 => some (if fsOn h then opFma h n w false false else illegal w)
  | 0x47 => some (if fsOn h then opFma h n w false true else illegal w)
  | 0x4B => some (if fsOn h then opFma h n w true false else illegal w)
  | 0x4F => some (if fsOn h then opFma h n w true true else illegal w)
  | 0x53 => some (if fsOn h then opFp h n w else illegal w)
  | 0x63 =>
    some (match branch f3 a b with
      | some t => .done (if t then goto h (w64 (s64 pc + immB w)) else n)
      | none => illegal w)
  | 0x67 =>
    some (if f3 = 0 then .done (wx (goto h (w64 (s64 a + immI w) / 2 * 2)) (fRd w) ((pc + len) % 2 ^ 64)) else illegal w)
  | 0x6F => some (.done (wx (goto h (w64 (s64 pc + immJ w))) (fRd w) ((pc + len) % 2 ^ 64)))
  | 0x73 => some (system e h n w)
  | _ => none

end Sys2Proof.Machine.Rv
end

