-- ==== Sys2Proof/Machine/RvVec.lean ====
section
/-!
DEFINITION. The vector arithmetic instructions of a hart: configuration, integer, fixed-point, floating-point, reduction,
mask and permutation (R175 to R177). No tail or masked-off element is ever written (R176).
-/
namespace Sys2Proof.Machine.Rv

open Sys2Proof Sys2Proof.Machine

/-! ## Register groups -/

/-- Registers of a group of an EMUL in eighths. -/
def groupRegs (l8 : Nat) : Nat := if l8 ≤ 8 then 1 else l8 / 8

/-- A legal EMUL, with a register number that it divides. -/
def groupOk (l8 v : Nat) : Bool := decide (1 ≤ l8) && decide (l8 ≤ 64) && v % groupRegs l8 == 0

/-- Do two groups share a register? -/
def groupsMeet (v l8 u k8 : Nat) : Bool := decide (v < u + groupRegs k8) && decide (u < v + groupRegs l8)

/-- May a destination group of elements of `dw` bits overlap a source group of elements of `sw` bits? -/
def overlapOk (vd dl8 dw vs sl8 sw : Nat) : Bool :=
  !groupsMeet vd dl8 vs sl8 || dw == sw || (decide (dw < sw) && vd == vs)
  || (decide (sw < dw) && decide (8 ≤ sl8) && vs + groupRegs sl8 == vd + groupRegs dl8)

/-- One register is not read as elements of two widths. -/
def readsOk (v l8 w u k8 x : Nat) : Bool := !groupsMeet v l8 u k8 || w == x

/-- The unmasked bit of an instruction, its operands. -/
def fVm (w : Nat) : Bool := bitAt 25 w
def fVd (w : Nat) : Nat := bits 11 7 w
def fVs1 (w : Nat) : Nat := bits 19 15 w
def fVs2 (w : Nat) : Nat := bits 24 20 w
def fF6 (w : Nat) : Nat := bits 31 26 w

/-- The active elements from vstart to `vl`. -/
def active (h : Hart) (vm : Bool) (vl : Nat) : List Nat :=
  ((List.range vl).drop h.csr.vstart).filter (fun i => vm || vbit h 0 i)

/-- A vector instruction is complete: vstart is 0, the unit is Dirty. -/
def vdone (h : Hart) : Hart := dirtyV { h with csr := { h.csr with vstart := 0 } }

/-- Write elements of width `w` into the group at `vd`; sources are read from the old registers. -/
def vwrite (h n : Hart) (vm : Bool) (vd w : Nat) (f : Nat → Nat) : Hart :=
  vdone ((active h vm h.csr.vl).foldl (fun n i => vset n vd w i (f i)) n)

/-- The same with flags that accrue. -/
def vwriteF (h n : Hart) (vm : Bool) (vd w : Nat) (f : Nat → Nat × Flags) : Hart :=
  vdone ((active h vm h.csr.vl).foldl (fun n i => accrue (vset n vd w i (f i).1) (f i).2) n)

/-- The same with vxsat. -/
def vwriteS (h n : Hart) (vm : Bool) (vd w : Nat) (f : Nat → Nat × Bool) : Hart :=
  vdone ((active h vm h.csr.vl).foldl (fun n i =>
    let n := vset n vd w i (f i).1
    if (f i).2 then { n with csr := { n.csr with vxsat := true } } else n) n)

/-! ## Configuration -/

/-- Is a vtype supported: SEW up to 64, a fractional LMUL no less than SEW over ELEN? -/
def vtypeOk (t : Nat) : Bool :=
  decide (t < 256) && decide (bits 5 3 t ≤ 3) && bits 2 0 t != 4
  && (match bits 2 0 t with
    | 5 => decide (bits 5 3 t = 0)
    | 6 => decide (bits 5 3 t ≤ 1)
    | 7 => decide (bits 5 3 t ≤ 2)
    | _ => true)

/-- The vl for an AVL: the architecture leaves a choice between VLMAX and twice VLMAX, within bounds. -/
def vlFor (avl mx : Nat) : Nat :=
  if avl ≤ mx then avl else if 2 * mx ≤ avl then mx
  else
    let k := Config.vlChoice avl mx
    if k < (avl + 1) / 2 then (avl + 1) / 2 else if mx < k then mx else k

/-- Set vtype and vl. -/
def setVl (h : Hart) (rd t : Nat) (avl : Nat → Option Nat) : Hart :=
  let vt : Hart := { h with csr := { h.csr with vtype := BitVec.ofNat 64 t } }
  let bad : Hart := vdone (wx { h with csr := { h.csr with vtype := 0x8000000000000000, vl := 0 } } rd 0)
  if !vtypeOk t then bad else
  match avl (vlmax vt) with
  | some k => vdone (wx { vt with csr := { vt.csr with vl := vlFor k (vlmax vt) } } rd (vlFor k (vlmax vt)))
  | none => bad

/-- vsetvli, vsetivli and vsetvl. -/
def vsetOp (h n : Hart) (w : Nat) : Eff :=
  let rd := fRd w
  let rs1 := fRs1 w
  let fromReg (mx : Nat) : Option Nat :=
    if rs1 ≠ 0 then some (rx h rs1) else if rd ≠ 0 then some (2 ^ 64 - 1)
    else if !vill h && vlmax h == mx then some h.csr.vl else none
  if bitAt 31 w = false then .done (setVl n rd (bits 30 20 w) fromReg)
  else if bits 31 30 w = 3 then .done (setVl n rd (bits 29 20 w) (fun _ => some rs1))
  else if fF7 w = 64 then .done (setVl n rd (rx h (fRs2 w)) fromReg)
  else illegal w

/-! ## Element arithmetic -/

/-- Rounding of a right shift under vxrm (R177). -/
def roundoff (mode : Nat) (v : Int) (d : Nat) : Int :=
  if d = 0 then v else
  let q := v / 2 ^ d
  let rest := (v % 2 ^ d).toNat
  let half := 2 ^ (d - 1)
  let up : Bool := match mode with
    | 0 => decide (half ≤ rest)
    | 1 => decide (half < rest) || (rest == half && q % 2 == 1)
    | 2 => false
    | _ => q % 2 == 0 && rest != 0
  if up then q + 1 else q

/-- Bounds of a signed and of an unsigned element. -/
def smax (w : Nat) : Int := ((2 ^ (w - 1) : Nat) : Int) - 1
def smin (w : Nat) : Int := -((2 ^ (w - 1) : Nat) : Int)
def umax (w : Nat) : Int := ((2 ^ w : Nat) : Int) - 1

/-- Saturate a value: element and whether it saturated. -/
def satS (w : Nat) (i : Int) : Nat × Bool := (wrap w (clampInt (smin w) (smax w) i), decide (i < smin w) || decide (smax w < i))
def satU (w : Nat) (i : Int) : Nat × Bool := (wrap w (clampInt 0 (umax w) i), decide (i < 0) || decide (umax w < i))

/-- Simple operations of OPI: `a` is vs2's element, `b` the other operand's. -/
def opiAlu (f6 w a b : Nat) : Option Nat :=
  let sa := sext w a
  let sb := sext w b
  let lg := Nat.log2 w
  match f6 with
  | 0x00 => some (a + b)
  | 0x02 => some (wrap w (sa - sb))
  | 0x03 => some (wrap w (sb - sa))
  | 0x04 => some (min a b)
  | 0x05 => some (if sa ≤ sb then a else b)
  | 0x06 => some (max a b)
  | 0x07 => some (if sa ≤ sb then b else a)
  | 0x09 => some (Nat.land a b)
  | 0x0A => some (Nat.lor a b)
  | 0x0B => some (Nat.xor a b)
  | 0x25 => some (a * 2 ^ (b % 2 ^ lg))
  | 0x28 => some (a / 2 ^ (b % 2 ^ lg))
  | 0x29 => some (wrap w (sa / 2 ^ (b % 2 ^ lg)))
  | _ => none

/-- Fixed-point operations of OPI (R177). -/
def opiSat (f6 mode w a b : Nat) : Option (Nat × Bool) :=
  let sa := sext w a
  let sb := sext w b
  let sh := b % 2 ^ Nat.log2 w
  match f6 with
  | 0x20 => some (satU w ((a : Int) + b))
  | 0x21 => some (satS w (sa + sb))
  | 0x22 => some (satU w ((a : Int) - b))
  | 0x23 => some (satS w (sa - sb))
  | 0x27 => some (satS w (roundoff mode (sa * sb) (w - 1)))
  | 0x2A => some (wrap w (roundoff mode (a : Int) sh), false)
  | 0x2B => some (wrap w (roundoff mode sa sh), false)
  | _ => none

/-- Integer comparisons. -/
def opiCmp (f6 w a b : Nat) : Option Bool :=
  let sa := sext w a
  let sb := sext w b
  match f6 with
  | 0x18 => some (a == b)
  | 0x19 => some (a != b)
  | 0x1A => some (decide (a < b))
  | 0x1B => some (decide (sa < sb))
  | 0x1C => some (decide (a ≤ b))
  | 0x1D => some (decide (sa ≤ sb))
  | 0x1E => some (decide (b < a))
  | 0x1F => some (decide (sb < sa))
  | _ => none

/-- The forms of OPI that exist: bit 0 vector, bit 1 scalar, bit 2 immediate. -/
def opiForms (f6 : Nat) : Nat :=
  match f6 with
  | 0x02 => 3 | 0x03 => 6 | 0x04 => 3 | 0x05 => 3 | 0x06 => 3 | 0x07 => 3 | 0x12 => 3 | 0x13 => 3
  | 0x0E => 7 | 0x0F => 6 | 0x1A => 3 | 0x1B => 3 | 0x1E => 6 | 0x1F => 6 | 0x22 => 3 | 0x23 => 3
  | 0x30 => 1 | 0x31 => 1 | _ => 7

/-- Operations of OPM of one width: `d` is the old destination's element. -/
def opmAlu (f6 mode w a b d : Nat) : Option Nat :=
  let sa := sext w a
  let sb := sext w b
  match f6 with
  | 0x08 => some (wrap w (roundoff mode ((a : Int) + b) 1))
  | 0x09 => some (wrap w (roundoff mode (sa + sb) 1))
  | 0x0A => some (wrap w (roundoff mode ((a : Int) - b) 1))
  | 0x0B => some (wrap w (roundoff mode (sa - sb) 1))
  | 0x20 => some (udivRem w a b).1
  | 0x21 => some (sdivRem w a b).1
  | 0x22 => some (udivRem w a b).2
  | 0x23 => some (sdivRem w a b).2
  | 0x24 => some (a * b / 2 ^ w)
  | 0x25 => some (a * b)
  | 0x26 => some (wrap w (sa * (b : Int) / 2 ^ w))
  | 0x27 => some (wrap w (sa * sb / 2 ^ w))
  | 0x29 => some (b * d + a)
  | 0x2B => some (wrap w ((a : Int) - (b : Int) * d))
  | 0x2D => some (b * a + d)
  | 0x2F => some (wrap w ((d : Int) - (b : Int) * a))
  | _ => none

/-- Widening operations of OPM: operands of `w` bits (`a` of `2w` for the .w forms), old destination of `2w`. -/
def opmWide (f6 w a b d : Nat) : Option Int :=
  let sa := sext w a
  let sb := sext w b
  match f6 with
  | 0x30 => some ((a : Int) + b)
  | 0x31 => some (sa + sb)
  | 0x32 => some ((a : Int) - b)
  | 0x33 => some (sa - sb)
  | 0x34 => some ((a : Int) + b)
  | 0x35 => some (sext (2 * w) a + sb)
  | 0x36 => some ((a : Int) - b)
  | 0x37 => some (sext (2 * w) a - sb)
  | 0x38 => some ((a : Int) * b)
  | 0x3A => some (sa * (b : Int))
  | 0x3B => some (sa * sb)
  | 0x3C => some ((a : Int) * b + d)
  | 0x3D => some (sa * sb + d)
  | 0x3E => some ((b : Int) * sa + d)
  | 0x3F => some (sb * (a : Int) + d)
  | _ => none

/-- Integer reductions. -/
def redOp (f6 w acc x : Nat) : Nat :=
  match f6 with
  | 0 => (acc + x) % 2 ^ w
  | 1 => Nat.land acc x
  | 2 => Nat.lor acc x
  | 3 => Nat.xor acc x
  | 4 => min acc x
  | 5 => if sext w acc ≤ sext w x then acc else x
  | 6 => max acc x
  | _ => if sext w acc ≤ sext w x then x else acc

/-! ## Shared checks -/

/-- A masked instruction does not write the mask register. -/
def maskOk (w : Nat) : Bool := fVm w || fVd w != 0

/-- The legality of an elementwise instruction: destination of `dw` bits, vs2 of `aw`, vs1 (where it is a vector) of
`bw`; EMUL scales with the width. -/
def elemOk (h : Hart) (w dw aw : Nat) (bw : Option Nat) : Bool :=
  let s := sew h
  let em (x : Nat) : Nat := lmul8 h * x / s
  let ok1 (x v : Nat) : Bool := decide (x ≤ 64) && decide (8 ≤ x) && groupOk (em x) v
  ok1 dw (fVd w) && ok1 aw (fVs2 w) && maskOk w
  && overlapOk (fVd w) (em dw) dw (fVs2 w) (em aw) aw
  && (fVm w || (readsOk 0 8 1 (fVs2 w) (em aw) aw))
  && (match bw with
    | some x => ok1 x (fVs1 w) && overlapOk (fVd w) (em dw) dw (fVs1 w) (em x) x
                && readsOk (fVs2 w) (em aw) aw (fVs1 w) (em x) x && (fVm w || readsOk 0 8 1 (fVs1 w) (em x) x)
    | none => true)

/-- The legality of an instruction with a mask destination: sources of SEW; `vm` says that v0 is read as a mask. -/
def cmpOk (h : Hart) (w : Nat) (vec readsMask : Bool) : Bool :=
  let s := sew h
  let l := lmul8 h
  groupOk l (fVs2 w) && overlapOk (fVd w) 8 1 (fVs2 w) l s && (!readsMask || readsOk 0 8 1 (fVs2 w) l s)
  && (!vec || (groupOk l (fVs1 w) && overlapOk (fVd w) 8 1 (fVs1 w) l s && (!readsMask || readsOk 0 8 1 (fVs1 w) l s)))

/-- The second operand of OPI: vector, scalar, immediate (zero-extended for shifts and slides). -/
def opiB (h : Hart) (w i : Nat) : Nat :=
  match fF3 w with
  | 0 => vget h (fVs1 w) (sew h) i
  | 4 => rx h (fRs1 w) % 2 ^ sew h
  | _ => wrap (sew h) (sext 5 (fRs1 w))

/-- Shift amounts: an immediate is unsigned. -/
def shiftB (h : Hart) (w i : Nat) : Nat := if fF3 w = 3 then fRs1 w else opiB h w i

/-! ## OPI -/

/-- Slides and gathers read any element of the source group; beyond it, zero. -/
def srcElem (h : Hart) (v w : Nat) (i : Nat) : Nat := if i < vlmax h then vget h v w i else 0

/-- vrgather, vrgatherei16, vslideup, vslidedown. -/
def permute (h n : Hart) (w : Nat) : Eff :=
  let s := sew h
  let l := lmul8 h
  let vd := fVd w
  let vs2 := fVs2 w
  let f3 := fF3 w
  let basic := groupOk l vd && groupOk l vs2 && maskOk w && (fVm w || readsOk 0 8 1 vs2 l s)
  let apart := !groupsMeet vd l vs2 l
  let off := if f3 = 4 then rx h (fRs1 w) else fRs1 w
  match fF6 w with
  | 0x0C =>
    let ok := basic && apart && (f3 != 0 || (groupOk l (fVs1 w) && !groupsMeet vd l (fVs1 w) l && (fVm w || readsOk 0 8 1 (fVs1 w) l s)))
    if ok then .done (vwrite h n (fVm w) vd s (fun i => srcElem h vs2 s (if f3 = 0 then vget h (fVs1 w) s i else off)))
    else illegal w
  | 0x0E =>
    if f3 = 0 then
      let k := l * 16 / s
      if basic && apart && groupOk k (fVs1 w) && !groupsMeet vd l (fVs1 w) k && readsOk vs2 l s (fVs1 w) k 16
          && (fVm w || readsOk 0 8 1 (fVs1 w) k 16) then
        .done (vwrite h n (fVm w) vd s (fun i => srcElem h vs2 s (vget h (fVs1 w) 16 i)))
      else illegal w
    else if basic && apart then
      .done (vdone (((active h (fVm w) h.csr.vl).filter (fun i => decide (off ≤ i))).foldl
        (fun n i => vset n vd s i (vget h vs2 s (i - off))) n))
    else illegal w
  | _ => if basic then .done (vwrite h n (fVm w) vd s (fun i => srcElem h vs2 s (i + off))) else illegal w

/-- Carry-in of vadc and its kin: element of v0. -/
def carry (h : Hart) (i : Nat) : Nat := (vbit h 0 i).toNat

/-- vadc, vmadc, vsbc, vmsbc, vmerge, vmv.v. -/
def carryOps (h n : Hart) (w : Nat) : Eff :=
  let s := sew h
  let l := lmul8 h
  let vec := fF3 w == 0
  let a (i : Nat) : Nat := vget h (fVs2 w) s i
  let b (i : Nat) : Nat := opiB h w i
  let c (i : Nat) : Nat := if fVm w then 0 else carry h i
  let vecOk := groupOk l (fVd w) && groupOk l (fVs2 w) && (!vec || groupOk l (fVs1 w)) && fVd w != 0
    && readsOk 0 8 1 (fVs2 w) l s && (!vec || readsOk 0 8 1 (fVs1 w) l s)
  let all (f : Nat → Nat) : Eff := .done (vwrite h n true (fVd w) s f)
  let maskRes (f : Nat → Bool) : Eff := .done (vwrite h n true (fVd w) 1 (fun i => (f i).toNat))
  match fF6 w with
  | 0x10 => if vecOk && !fVm w then all (fun i => a i + b i + c i) else illegal w
  | 0x12 => if vecOk && !fVm w then all (fun i => wrap s ((a i : Int) - b i - c i)) else illegal w
  | 0x11 => if cmpOk h w vec (!fVm w) then maskRes (fun i => decide (2 ^ s ≤ a i + b i + c i)) else illegal w
  | 0x13 => if cmpOk h w vec (!fVm w) then maskRes (fun i => decide (a i < b i + c i)) else illegal w
  | _ =>
    if fVm w then
      if fVs2 w = 0 ∧ groupOk l (fVd w) ∧ (!vec || groupOk l (fVs1 w)) then all b else illegal w
    else if vecOk then all (fun i => if vbit h 0 i then b i else a i) else illegal w

/-- vmv1r, vmv2r, vmv4r, vmv8r. -/
def moveWhole (h n : Hart) (w : Nat) : Eff :=
  let k := fRs1 w + 1
  if fVm w && (k == 1 || k == 2 || k == 4 || k == 8) && fVd w % k == 0 && fVs2 w % k == 0 then
    let s := sew h
    let l := (List.range (k * 1024 / s)).drop h.csr.vstart
    .done (vdone (l.foldl (fun n i => vset n (fVd w) s i (vget h (fVs2 w) s i)) n))
  else illegal w

/-- Narrowing shifts and clips: vs2 has twice the width. -/
def narrowOps (h n : Hart) (w : Nat) : Eff :=
  let s := sew h
  let vec := fF3 w == 0
  let mode := h.csr.vxrm.toNat
  if !(decide (s ≤ 32) && elemOk h w s (2 * s) (if vec then some s else none)) then illegal w else
  let a (i : Nat) : Nat := vget h (fVs2 w) (2 * s) i
  let sh (i : Nat) : Nat := shiftB h w i % (2 * s)
  let sa (i : Nat) : Int := sext (2 * s) (a i)
  match fF6 w with
  | 0x2C => .done (vwrite h n (fVm w) (fVd w) s (fun i => a i / 2 ^ sh i))
  | 0x2D => .done (vwrite h n (fVm w) (fVd w) s (fun i => wrap s (sa i / 2 ^ sh i)))
  | 0x2E => .done (vwriteS h n (fVm w) (fVd w) s (fun i => satU s (roundoff mode (a i : Int) (sh i))))
  | _ => .done (vwriteS h n (fVm w) (fVd w) s (fun i => satS s (roundoff mode (sa i) (sh i))))

/-- A reduction into element 0 of vd: `dw` is the accumulator's width, `f` folds in an element of vs2. -/
def reduce (h n : Hart) (w dw : Nat) (f : Nat → Nat → Nat × Flags) : Eff :=
  if h.csr.vstart ≠ 0 ∨ !groupOk (lmul8 h) (fVs2 w) then illegal w
  else if h.csr.vl = 0 then .done (vdone n)
  else
    let s := sew h
    let r := (active h (fVm w) h.csr.vl).foldl (fun (r : Nat × Flags) i =>
      let x := f r.1 (vget h (fVs2 w) s i)
      (x.1, fOr r.2 x.2)) (vget h (fVs1 w) dw 0, 0)
    .done (vdone (accrue (vset n (fVd w) dw 0 r.1) r.2))

/-- OPIVV, OPIVX, OPIVI. -/
def opi (h n : Hart) (w : Nat) : Eff :=
  let s := sew h
  let f6 := fF6 w
  let f3 := fF3 w
  let vec := f3 == 0
  let form := if f3 = 0 then 0 else if f3 = 4 then 1 else 2
  let bw := if vec then some s else none
  let mode := h.csr.vxrm.toNat
  if !bitAt form (opiForms f6) then illegal w
  else if f6 = 0x0C ∨ f6 = 0x0E ∨ f6 = 0x0F then permute h n w
  else if (0x10 ≤ f6 ∧ f6 ≤ 0x13) ∨ f6 = 0x17 then carryOps h n w
  else if f6 = 0x27 ∧ f3 = 3 then moveWhole h n w
  else if 0x2C ≤ f6 ∧ f6 ≤ 0x2F then narrowOps h n w
  else if f6 = 0x30 ∨ f6 = 0x31 then
    if 32 < s then illegal w
    else reduce h n w (2 * s) (fun acc x =>
      ((acc + (if f6 = 0x30 then x else wrap (2 * s) (sext s x))) % 2 ^ (2 * s), 0))
  else if 0x18 ≤ f6 ∧ f6 ≤ 0x1F then
    if cmpOk h w vec (!fVm w) then
      .done (vwrite h n (fVm w) (fVd w) 1 (fun i => ((opiCmp f6 s (vget h (fVs2 w) s i) (opiB h w i)).getD false).toNat))
    else illegal w
  else
    let shift := f6 == 0x25 || (decide (0x28 ≤ f6) && decide (f6 ≤ 0x2B))
    let b (i : Nat) : Nat := if shift then shiftB h w i else opiB h w i
    if !elemOk h w s s bw then illegal w
    else if (opiAlu f6 8 0 0).isSome then
      .done (vwrite h n (fVm w) (fVd w) s (fun i => (opiAlu f6 s (vget h (fVs2 w) s i) (b i)).getD 0))
    else if (opiSat f6 0 8 0 0).isSome then
      .done (vwriteS h n (fVm w) (fVd w) s (fun i => (opiSat f6 mode s (vget h (fVs2 w) s i) (b i)).getD (0, false)))
    else illegal w

/-! ## OPM -/

/-- Mask logic. -/
def maskLogic (f6 : Nat) (a b : Bool) : Bool :=
  match f6 with
  | 0x18 => a && !b
  | 0x19 => a && b
  | 0x1A => a || b
  | 0x1B => a != b
  | 0x1C => a || !b
  | 0x1D => !(a && b)
  | 0x1E => !(a || b)
  | _ => a == b

/-- The active elements of a mask register. -/
def setElems (h : Hart) (w : Nat) : List Nat := (active h (fVm w) h.csr.vl).filter (fun i => vbit h (fVs2 w) i)

/-- vmv.x.s, vcpop, vfirst; vmv.s.x. -/
def moveScalar (h n : Hart) (w : Nat) : Eff :=
  let s := sew h
  if fF3 w = 6 then
    if fVs2 w = 0 ∧ fVm w then
      .done (vdone (if h.csr.vstart < h.csr.vl then vset n (fVd w) s 0 (rx h (fRs1 w)) else n))
    else illegal w
  else match fVs1 w with
  | 0 => if fVm w then .done (vdone (wx n (fVd w) (w64 (sext s (vget h (fVs2 w) s 0))))) else illegal w
  | 16 => if h.csr.vstart = 0 then .done (vdone (wx n (fVd w) (setElems h w).length)) else illegal w
  | 17 =>
    if h.csr.vstart = 0 then .done (vdone (wx n (fVd w) (match (setElems h w).head? with
      | some i => i
      | none => 2 ^ 64 - 1)))
    else illegal w
  | _ => illegal w

/-- vzext and vsext. -/
def extend (h n : Hart) (w : Nat) : Eff :=
  let s := sew h
  let go (k : Nat) (signed : Bool) : Eff :=
    if elemOk h w s (s / k) none then
      .done (vwrite h n (fVm w) (fVd w) s (fun i =>
        let x := vget h (fVs2 w) (s / k) i
        if signed then wrap s (sext (s / k) x) else x))
    else illegal w
  match fVs1 w with
  | 2 => go 8 false
  | 3 => go 8 true
  | 4 => go 4 false
  | 5 => go 4 true
  | 6 => go 2 false
  | 7 => go 2 true
  | _ => illegal w

/-- vmsbf, vmsof, vmsif, viota, vid. -/
def maskUnary (h n : Hart) (w : Nat) : Eff :=
  let s := sew h
  let l := lmul8 h
  let vd := fVd w
  let vs2 := fVs2 w
  let first := ((setElems h w).head?).getD h.csr.vl
  let setOk := h.csr.vstart == 0 && vd != vs2 && maskOk w
  match fVs1 w with
  | 1 => if setOk then .done (vwrite h n (fVm w) vd 1 (fun i => (decide (i < first)).toNat)) else illegal w
  | 2 => if setOk then .done (vwrite h n (fVm w) vd 1 (fun i => (decide (i = first)).toNat)) else illegal w
  | 3 => if setOk then .done (vwrite h n (fVm w) vd 1 (fun i => (decide (i ≤ first)).toNat)) else illegal w
  | 16 =>
    if h.csr.vstart = 0 ∧ groupOk l vd ∧ maskOk w ∧ !groupsMeet vd l vs2 8 then
      .done (vwrite h n (fVm w) vd s (fun i => ((setElems h w).filter (fun j => decide (j < i))).length))
    else illegal w
  | 17 => if vs2 = 0 ∧ groupOk l vd ∧ maskOk w then .done (vwrite h n (fVm w) vd s (fun i => i)) else illegal w
  | _ => illegal w

/-- vslide1up, vslide1down. -/
def slide1 (h n : Hart) (w : Nat) (up : Bool) (x : Nat) : Eff :=
  let s := sew h
  let l := lmul8 h
  if groupOk l (fVd w) && groupOk l (fVs2 w) && maskOk w && (fVm w || readsOk 0 8 1 (fVs2 w) l s)
      && (!up || !groupsMeet (fVd w) l (fVs2 w) l) then
    .done (vwrite h n (fVm w) (fVd w) s (fun i =>
      if up then (if i = 0 then x else vget h (fVs2 w) s (i - 1))
      else (if i + 1 = h.csr.vl then x else srcElem h (fVs2 w) s (i + 1))))
  else illegal w

/-- vcompress. -/
def compress (h n : Hart) (w : Nat) : Eff :=
  let s := sew h
  let l := lmul8 h
  if h.csr.vstart = 0 ∧ fVm w ∧ groupOk l (fVd w) ∧ groupOk l (fVs2 w) ∧ !groupsMeet (fVd w) l (fVs2 w) l
      ∧ !groupsMeet (fVd w) l (fVs1 w) 8 ∧ readsOk (fVs1 w) 8 1 (fVs2 w) l s then
    let picks := (List.range h.csr.vl).filter (fun i => vbit h (fVs1 w) i)
    .done (vdone ((picks.foldl (fun (r : Nat × Hart) i => (r.1 + 1, vset r.2 (fVd w) s r.1 (vget h (fVs2 w) s i))) (0, n)).2))
  else illegal w

/-- OPMVV, OPMVX. -/
def opm (h n : Hart) (w : Nat) : Eff :=
  let s := sew h
  let f6 := fF6 w
  let vec := fF3 w == 2
  let bw := if vec then some s else none
  let mode := h.csr.vxrm.toNat
  let x := rx h (fRs1 w) % 2 ^ s
  let b (i : Nat) : Nat := if vec then vget h (fVs1 w) s i else x
  if f6 < 8 then (if vec then reduce h n w s (fun acc y => (redOp f6 s acc y, 0)) else illegal w)
  else if f6 = 0x0E then (if vec then illegal w else slide1 h n w true (wrap s (s64 (rx h (fRs1 w)))))
  else if f6 = 0x0F then (if vec then illegal w else slide1 h n w false (wrap s (s64 (rx h (fRs1 w)))))
  else if f6 = 0x10 then moveScalar h n w
  else if f6 = 0x12 then (if vec then extend h n w else illegal w)
  else if f6 = 0x14 then (if vec then maskUnary h n w else illegal w)
  else if f6 = 0x17 then (if vec then compress h n w else illegal w)
  else if 0x18 ≤ f6 ∧ f6 ≤ 0x1F then
    if vec ∧ fVm w then
      .done (vwrite h n true (fVd w) 1 (fun i => (maskLogic f6 (vbit h (fVs2 w) i) (vbit h (fVs1 w) i)).toNat))
    else illegal w
  else if 0x30 ≤ f6 then
    let wide := decide (0x34 ≤ f6) && decide (f6 ≤ 0x37)
    let aw := if wide then 2 * s else s
    if 32 < s ∨ (opmWide f6 8 0 0 0).isNone ∨ (f6 = 0x3E ∧ vec) ∨ !elemOk h w (2 * s) aw bw then illegal w
    else .done (vwrite h n (fVm w) (fVd w) (2 * s) (fun i =>
      wrap (2 * s) ((opmWide f6 s (vget h (fVs2 w) aw i) (b i) (vget h (fVd w) (2 * s) i)).getD 0)))
  else if (opmAlu f6 0 8 0 0 0).isNone ∨ !elemOk h w s s bw then illegal w
  else .done (vwrite h n (fVm w) (fVd w) s (fun i =>
    (opmAlu f6 mode s (vget h (fVs2 w) s i) (b i) (vget h (fVd w) s i)).getD 0))

/-! ## OPF -/

/-- The format code of an element width; 16 and 8 bits have no floating-point format (R175). -/
def fpCode (w : Nat) : Nat := if w = 64 then 0 else 1

/-- Simple operations of OPF: `a` of vs2, `b` of vs1 or rs1, `d` the old destination. -/
def opfAlu (f6 c : Nat) (r : Rnd) (a b d : Nat) : Option (Nat × Flags) :=
  match f6 with
  | 0x00 => some (fadd c r a b)
  | 0x02 => some (fsub c r a b)
  | 0x04 => some (fminmax c false a b)
  | 0x06 => some (fminmax c true a b)
  | 0x08 => some (fsgnj c 0 a b, 0)
  | 0x09 => some (fsgnj c 1 a b, 0)
  | 0x0A => some (fsgnj c 2 a b, 0)
  | 0x20 => some (fdiv c r a b)
  | 0x21 => some (fdiv c r b a)
  | 0x24 => some (fmul c r a b)
  | 0x27 => some (fsub c r b a)
  | 0x28 => some (fmadd c r false false b d a)
  | 0x29 => some (fmadd c r true true b d a)
  | 0x2A => some (fmadd c r false true b d a)
  | 0x2B => some (fmadd c r true false b d a)
  | 0x2C => some (fmadd c r false false b a d)
  | 0x2D => some (fmadd c r true true b a d)
  | 0x2E => some (fmadd c r false true b a d)
  | 0x2F => some (fmadd c r true false b a d)
  | _ => none

/-- Floating-point comparisons. -/
def opfCmp (f6 c a b : Nat) : Option (Bool × Flags) :=
  match f6 with
  | 0x18 => some (fcmp c 2 a b)
  | 0x19 => some (fcmp c 0 a b)
  | 0x1B => some (fcmp c 1 a b)
  | 0x1C => some (!(fcmp c 2 a b).1, (fcmp c 2 a b).2)
  | 0x1D => some (fcmp c 1 b a)
  | 0x1F => some (fcmp c 0 b a)
  | _ => none

/-- Widening operations of OPF: operands already binary64, old destination binary64. -/
def opfWide (f6 : Nat) (r : Rnd) (a b d : Nat) : Option (Nat × Flags) :=
  match f6 with
  | 0x30 => some (fadd 0 r a b)
  | 0x32 => some (fsub 0 r a b)
  | 0x34 => some (fadd 0 r a b)
  | 0x36 => some (fsub 0 r a b)
  | 0x38 => some (fmul 0 r a b)
  | 0x3C => some (fmadd 0 r false false b a d)
  | 0x3D => some (fmadd 0 r true true b a d)
  | 0x3E => some (fmadd 0 r false true b a d)
  | 0x3F => some (fmadd 0 r true false b a d)
  | _ => none

/-- Binary32 widened exactly, with the NV of a signaling NaN. -/
def widen32 (a : Nat) : Nat × Flags := fcvt 1 0 .nearestEven a

/-- VFUNARY0: conversions between SEW, half and twice. -/
def convert (h n : Hart) (w : Nat) (r : Rnd) : Eff :=
  let s := sew h
  let k := fVs1 w
  let run (dw aw : Nat) (ok : Bool) (f : Nat → Nat × Flags) : Eff :=
    if ok && elemOk h w dw aw none then
      .done (vwriteF h n (fVm w) (fVd w) dw (fun i => f (vget h (fVs2 w) aw i)))
    else illegal w
  let fp (x : Nat) : Bool := x == 32 || x == 64
  match k with
  | 0 => run s s (fp s) (ftoi (fpCode s) s false r)
  | 1 => run s s (fp s) (ftoi (fpCode s) s true r)
  | 2 => run s s (fp s) (fun a => itof (fpCode s) r (a : Int))
  | 3 => run s s (fp s) (fun a => itof (fpCode s) r (sext s a))
  | 6 => run s s (fp s) (ftoi (fpCode s) s false .trunc)
  | 7 => run s s (fp s) (ftoi (fpCode s) s true .trunc)
  | 8 => run (2 * s) s (s == 32) (ftoi 1 64 false r)
  | 9 => run (2 * s) s (s == 32) (ftoi 1 64 true r)
  | 10 => run (2 * s) s (s == 16 || s == 32) (fun a => itof (fpCode (2 * s)) r (a : Int))
  | 11 => run (2 * s) s (s == 16 || s == 32) (fun a => itof (fpCode (2 * s)) r (sext s a))
  | 12 => run (2 * s) s (s == 32) widen32
  | 14 => run (2 * s) s (s == 32) (ftoi 1 64 false .trunc)
  | 15 => run (2 * s) s (s == 32) (ftoi 1 64 true .trunc)
  | 16 => run s (2 * s) (s == 16 || s == 32) (ftoi (fpCode (2 * s)) s false r)
  | 17 => run s (2 * s) (s == 16 || s == 32) (ftoi (fpCode (2 * s)) s true r)
  | 18 => run s (2 * s) (s == 32) (fun a => itof 1 r (a : Int))
  | 19 => run s (2 * s) (s == 32) (fun a => itof 1 r (sext 64 a))
  | 20 => run s (2 * s) (s == 32) (fcvt 0 1 r)
  | 21 => run s (2 * s) (s == 32) (fun a =>
      let x := froundOdd 1 (fdec 0 a)
      (x.1, fOr x.2 (snanFlag 0 [a])))
  | 22 => run s (2 * s) (s == 16 || s == 32) (ftoi (fpCode (2 * s)) s false .trunc)
  | 23 => run s (2 * s) (s == 16 || s == 32) (ftoi (fpCode (2 * s)) s true .trunc)
  | _ => illegal w

/-- VFUNARY1. -/
def unary (h n : Hart) (w : Nat) (r : Rnd) : Eff :=
  let s := sew h
  let c := fpCode s
  let run (f : Nat → Nat × Flags) : Eff :=
    if (s == 32 || s == 64) && elemOk h w s s none then
      .done (vwriteF h n (fVm w) (fVd w) s (fun i => f (vget h (fVs2 w) s i)))
    else illegal w
  match fVs1 w with
  | 0 => run (fsqrt c r)
  | 4 => run (frsqrt7 c)
  | 5 => run (frec7 c r)
  | 16 => run (fun a => (fclass c a, 0))
  | _ => illegal w

/-- OPFVV, OPFVF. -/
def opf (h n : Hart) (w : Nat) : Eff :=
  let s := sew h
  let c := fpCode s
  let f6 := fF6 w
  let vec := fF3 w == 1
  let bw := if vec then some s else none
  let x := rfc h c (fRs1 w) % 2 ^ s
  let b (i : Nat) : Nat := if vec then vget h (fVs1 w) s i else x
  let fp := s == 32 || s == 64
  match rmOf h 7 with
  | none => illegal w
  | some r =>
    if f6 = 0x12 then (if vec then convert h n w r else illegal w)
    else if f6 = 0x13 then (if vec then unary h n w r else illegal w)
    else if !fp then illegal w
    else if f6 = 0x01 ∨ f6 = 0x03 then (if vec then reduce h n w s (fun acc y => fadd c r acc y) else illegal w)
    else if f6 = 0x05 ∨ f6 = 0x07 then
      (if vec then reduce h n w s (fun acc y => fminmax c (f6 == 0x07) acc y) else illegal w)
    else if f6 = 0x31 ∨ f6 = 0x33 then
      (if vec && s == 32 then reduce h n w 64 (fun acc y =>
        let z := fadd 0 r acc (widen32 y).1
        (z.1, fOr z.2 (widen32 y).2)) else illegal w)
    else if f6 = 0x0E then (if vec then illegal w else slide1 h n w true x)
    else if f6 = 0x0F then (if vec then illegal w else slide1 h n w false x)
    else if f6 = 0x10 then
      if vec then
        if fVs1 w = 0 ∧ fVm w then .done (vdone (wf n c (fVd w) (vget h (fVs2 w) s 0))) else illegal w
      else if fVs2 w = 0 ∧ fVm w then
        .done (vdone (if h.csr.vstart < h.csr.vl then vset n (fVd w) s 0 x else n))
      else illegal w
    else if f6 = 0x17 then
      if vec then illegal w
      else if fVm w then
        if fVs2 w = 0 ∧ groupOk (lmul8 h) (fVd w) then .done (vwrite h n true (fVd w) s (fun _ => x)) else illegal w
      else if elemOk h w s s none then
        .done (vwrite h n true (fVd w) s (fun i => if vbit h 0 i then x else vget h (fVs2 w) s i))
      else illegal w
    else if 0x18 ≤ f6 ∧ f6 ≤ 0x1F then
      if (opfCmp f6 c 0 0).isSome && cmpOk h w vec (!fVm w) && (decide (f6 ≤ 0x1C) || !vec) then
        .done (vwriteF h n (fVm w) (fVd w) 1 (fun i =>
          let z := (opfCmp f6 c (vget h (fVs2 w) s i) (b i)).getD (false, 0)
          (z.1.toNat, z.2)))
      else illegal w
    else if 0x30 ≤ f6 then
      let wide := f6 == 0x34 || f6 == 0x36
      let aw := if wide then 64 else 32
      if s = 32 ∧ (opfWide f6 r 0 0 0).isSome ∧ elemOk h w 64 aw bw then
        .done (vwriteF h n (fVm w) (fVd w) 64 (fun i =>
          let a := vget h (fVs2 w) aw i
          let u := if wide then (a, 0) else widen32 a
          let v := widen32 (b i)
          let z := (opfWide f6 r u.1 v.1 (vget h (fVd w) 64 i)).getD (0, 0)
          (z.1, fOr z.2 (fOr u.2 v.2))))
      else illegal w
    else if (opfAlu f6 c r 0 0 0).isNone ∨ !elemOk h w s s bw ∨ ((f6 = 0x21 ∨ f6 = 0x27) ∧ vec) then illegal w
    else .done (vwriteF h n (fVm w) (fVd w) s (fun i =>
      (opfAlu f6 c r (vget h (fVs2 w) s i) (b i) (vget h (fVd w) s i)).getD (0, 0)))

/-- A vector arithmetic or configuration instruction (opcode 0x57). -/
def vecArith (h n : Hart) (w : Nat) : Eff :=
  if !vsOn h then illegal w
  else if fF3 w = 7 then vsetOp h n w
  else if vill h then illegal w
  else match fF3 w with
  | 1 => if fsOn h then opf h n w else illegal w
  | 5 => if fsOn h then opf h n w else illegal w
  | 2 => opm h n w
  | 6 => opm h n w
  | _ => opi h n w

end Sys2Proof.Machine.Rv
end

