-- ==== Sys2Proof/Machine/RvVecMem.lean ====
section
/-!
DEFINITION. The vector loads and stores of a hart and Xkfx's first-fault indexed loads (R175, R187, R188), and the
dispatch of an instruction.
-/
namespace Sys2Proof.Machine.Rv

open Sys2Proof Sys2Proof.Machine

/-- The element width of a width field; `none` for a scalar or reserved one. -/
def eewOf (f3 : Nat) : Option Nat :=
  match f3 with
  | 0 => some 8 | 5 => some 16 | 6 => some 32 | 7 => some 64 | _ => none

/-- The elements of an access in order: element, field, address. -/
def elements (act : List Nat) (nf : Nat) (at_ : Nat → Nat → Nat) : List (Nat × Nat × Nat) :=
  act.flatMap (fun i => (List.range nf).map (fun k => (i, k, at_ i k % 2 ^ 64)))

/-- Loads into `nf` register groups of `regs` registers from `vd` on. -/
def loads (vd regs w : Nat) (es : List (Nat × Nat × Nat)) : List Elem :=
  es.map (fun e => { idx := e.1, addr := e.2.2, size := w / 8, dst := .v (vd + e.2.1 * regs) w e.1 })

/-- Stores from register groups. -/
def puts (h : Hart) (vd regs w : Nat) (es : List (Nat × Nat × Nat)) : List Put :=
  es.map (fun e => { idx := e.1, addr := e.2.2, bytes := leBytes (w / 8) (vget h (vd + e.2.1 * regs) w e.1) })

/-- Legality of the data groups: EMUL, the last register, and the mask register. -/
def dataOk (l8 vd nf : Nat) (vm load : Bool) : Bool :=
  groupOk l8 vd && decide (nf * groupRegs l8 ≤ 8) && decide (vd + nf * groupRegs l8 ≤ 32) && (vm || !load || vd != 0)

/-- Unit-stride and strided accesses. -/
def strided (h n : Hart) (w eew : Nat) (load ff : Bool) (stride : Nat → Int) : Eff :=
  let l8 := lmul8 h * eew / sew h
  let nf := bits 31 29 w + 1
  let vm := fVm w
  let vd := fVd w
  if vill h || !dataOk l8 vd nf vm load || !(vm || load || readsOk 0 8 1 vd l8 eew) then illegal w else
  let base : Int := (rx h (fRs1 w) : Nat)
  let es := elements (active h vm h.csr.vl) nf (fun i k => wrap 64 (base + (i : Int) * stride nf + ((k * (eew / 8) : Nat) : Int)))
  let regs := groupRegs l8
  if load then (if ff then .first false (loads vd regs eew es) (vdone n) else .load (loads vd regs eew es) (vdone n))
  else .store (puts h vd regs eew es) (vdone n)

/-- Whole-register accesses and mask accesses: elements of `eew` bits, `evl` of them. -/
def plain (h n : Hart) (w eew evl : Nat) (load : Bool) : Eff :=
  let es := elements (active h true evl) 1 (fun i _ => rx h (fRs1 w) + i * (eew / 8))
  if load then .load (loads (fVd w) 1 eew es) (vdone n) else .store (puts h (fVd w) 1 eew es) (vdone n)

/-- The legality of an indexed access: index groups of `ix` bits, `nf` data groups. -/
def indexedOk (h : Hart) (w ix nf : Nat) (load : Bool) : Bool :=
  let s := sew h
  let l := lmul8 h
  let k := l * ix / s
  let vd := fVd w
  let vs2 := fVs2 w
  !vill h && dataOk l vd nf (fVm w) load && groupOk k vs2 && (fVm w || readsOk 0 8 1 vs2 k ix)
  && (if load then
        (if nf = 1 then overlapOk vd l s vs2 k ix
         else (List.range nf).all (fun j => !groupsMeet (vd + j * groupRegs l) l vs2 k))
      else (List.range nf).all (fun j => readsOk (vd + j * groupRegs l) l s vs2 k ix)
           && (fVm w || (List.range nf).all (fun j => readsOk 0 8 1 (vd + j * groupRegs l) l s)))

/-- The elements of an indexed access: base plus zero-extended index. -/
def indexed (h : Hart) (w ix nf : Nat) : List (Nat × Nat × Nat) :=
  elements (active h (fVm w) h.csr.vl) nf (fun i k => rx h (fRs1 w) + vget h (fVs2 w) ix i + k * (sew h / 8))

/-- A vector load or store (opcodes 0x07 and 0x27). -/
def vecMem (h n : Hart) (w : Nat) (load : Bool) : Eff :=
  let nf := bits 31 29 w + 1
  if !vsOn h || bitAt 28 w then illegal w else
  match eewOf (fF3 w) with
  | none => illegal w
  | some eew =>
    match bits 27 26 w with
    | 0 =>
      match fRs2 w with
      | 0 => strided h n w eew load false (fun nf => ((nf * (eew / 8) : Nat) : Int))
      | 8 =>
        if fVm w && (nf == 1 || nf == 2 || nf == 4 || nf == 8) && fVd w % nf == 0 && (load || eew == 8) then
          plain h n w eew (nf * 1024 / eew) load
        else illegal w
      | 11 => if nf = 1 ∧ fVm w ∧ eew = 8 ∧ !vill h then plain h n w 8 ((h.csr.vl + 7) / 8) load else illegal w
      | 16 => if load then strided h n w eew true true (fun nf => ((nf * (eew / 8) : Nat) : Int)) else illegal w
      | _ => illegal w
    | 2 => strided h n w eew load false (fun _ => s64 (rx h (fRs2 w)))
    | _ =>
      if !indexedOk h w eew nf load then illegal w
      else if load then .load (loads (fVd w) (groupRegs (lmul8 h)) (sew h) (indexed h w eew nf)) (vdone n)
      else .store (puts h (fVd w) (groupRegs (lmul8 h)) (sew h) (indexed h w eew nf)) (vdone n)

/-- A first-fault indexed load (R187, R188, Table 7.6). -/
def firstFault (h n : Hart) (w : Nat) : Eff :=
  match eewOf (fF3 w) with
  | none => illegal w
  | some ix =>
    if !vsOn h || bits 31 28 w != 0 || bits 26 26 w != 1 || !indexedOk h w ix 1 true then illegal w
    else .first true (loads (fVd w) (groupRegs (lmul8 h)) (sew h) (indexed h w ix 1)) (vdone n)

/-- What an instruction of `len` bytes does. -/
def execute (e : Env) (h : Hart) (w len : Nat) : Eff :=
  let n := goto h (h.pc.toNat + len)
  match scalar e h w len with
  | some r => r
  | none =>
    match w % 128 with
    | 0x07 => vecMem h n w true
    | 0x27 => vecMem h n w false
    | 0x2B => firstFault h n w
    | 0x57 => vecArith h n w
    | _ => illegal w

end Sys2Proof.Machine.Rv
end

