-- ==== Sys2Proof/Machine/Harts.lean ====
section
/-!
DEFINITION. The solver cores in the package: address map, fetch, memory, the canopy window, doorbells, interrupts, traps
and parity errors (07_solver_cores.md R174 to R203, 12_canopy.md R286, R287, R291, R295).
-/
namespace Sys2Proof.Machine

open Sys2Proof Rv

/-! ## Access checks (R181 to R183, R188, R287) -/

/-- The kind of an access. -/
inductive Access where
  | load
  | store
  | fetch
  | loadReserved
  | atomic
  deriving DecidableEq, Repr

/-- The causes of an access: access fault and misaligned address. -/
def Access.causes : Access → Nat × Nat
  | .load => (cLoadFault, cLoadMis)
  | .store => (cStoreFault, cStoreMis)
  | .fetch => (cFetchFault, cFetchFault)
  | .loadReserved => (cLoadFault, cLoadMis)
  | .atomic => (cStoreFault, cStoreMis)

/-- Does an access write? -/
def Access.writes (k : Access) : Bool := k == .store || k == .atomic

/-- The canopy window (Table 7.3). -/
def inCanopy (a : Nat) : Bool := decide (2 ^ 50 ≤ a) && decide (a < 2 ^ 51)

/-- The canopy address of a canopy-window address (R286). -/
def canopyOf (a : Nat) : Nat := a % 2 ^ 50

/-- May a hart reach bytes of the local window: the region table to read, a region's working copy, and no store to the
table, a SEALED or an INPUT region (R182)? -/
def State.localOk (s : State) (write : Bool) (a len : Nat) : Bool :=
  match s.regionAt a with
  | some (r, off) => decide (off + len ≤ r.size) && !(write && (r.kind == .sealed || r.kind == .input))
  | none => decide (regionTable ≤ a) && decide (a + len ≤ regionTable + 4096) && !write

/-- Does PMP allow an access? -/
def pmpAllows (h : Hart) (k : Access) (a len : Nat) : Bool :=
  match k with
  | .fetch => pmpOk h.csr h.machine 2 a len
  | .atomic => pmpOk h.csr (dataMode h) 0 a len && pmpOk h.csr (dataMode h) 1 a len
  | .store => pmpOk h.csr (dataMode h) 1 a len
  | _ => pmpOk h.csr (dataMode h) 0 a len

/-- The exception that an access raises; `elem` is an element of a vector. -/
def State.accessFault (s : State) (h : Hart) (k : Access) (elem : Bool) (a len : Nat) : Option Nat :=
  let c := k.causes
  if inCanopy a then
    if k == .loadReserved || k == .atomic then some cStoreFault
    else if k == .fetch || s.fab.tabs.pegOf (canopyOf a / 2 ^ 41) == 0xFFFF || !pmpAllows h k a len then some c.1
    else if a / 128 ≠ (a + len - 1) / 128 ∨ (elem ∧ a % len ≠ 0) then some c.2
    else none
  else if (elem || k == .loadReserved || k == .atomic) && a % len != 0 then some c.2
  else if s.localOk k.writes a len && pmpAllows h k a len then none
  else some c.1

/-! ## Fetch -/

/-- The instruction at the pc: its full-length form and its length; `Except.error` is the faulting address. -/
def State.fetchAt (s : State) (h : Hart) : Except Nat (Option Nat × Nat × Nat) :=
  let pc := h.pc.toNat
  match s.accessFault h .fetch false pc 2 with
  | some _ => .error pc
  | none =>
    let lo := readN s.mem pc 2
    if lo % 4 ≠ 3 then .ok (expandC lo, 2, lo)
    else match s.accessFault h .fetch false (pc + 2) 2 with
      | some _ => .error (pc + 2)
      | none => let w := readN s.mem pc 4
                .ok (some w, 4, w)

/-! ## What a hart does next -/

/-- What the instruction at the pc does here: it traps, changes registers, loads accessible elements, stores, works
atomically, rings a doorbell or fences. A vector access that meets a fault after some element does the elements before
it and leaves vstart at it; such an instruction does not retire yet. -/
inductive Plan where
  | trap (h : Hart) (cause tval : Nat)
  | reg (h : Hart)
  | load (kfx : Bool) (l : List Elem) (h : Hart) (retires : Bool)
  | store (l : List Put) (h : Hart) (retires : Bool)
  | lr (addr size rd : Nat) (h : Hart)
  | sc (addr size val rd : Nat) (h : Hart)
  | amo (op addr size val rd : Nat) (h : Hart)
  | doorbell (ident payload : Nat) (h : Hart)
  | cfence (h : Hart)

/-- The hart stopped at an element of a vector access. -/
def atElement (h : Hart) (i : Nat) : Hart := { h with csr := { h.csr with vstart := i } }

/-- Is a loaded value an element of a vector? -/
def Rv.Elem.elem (a : Elem) : Bool :=
  match a.dst with
  | .v _ _ _ => true
  | _ => false

/-- The plan of a load: what is accessible of it. -/
def State.planLoad (s : State) (h : Hart) (l : List Elem) (n : Hart) : Plan :=
  match l.find? (fun a => (s.accessFault h .load a.elem a.addr a.size).isSome) with
  | none => .load false l n true
  | some b =>
    let pre := l.filter (fun a => decide (a.idx < b.idx))
    let cause := (s.accessFault h .load b.elem b.addr b.size).getD 0
    if pre.isEmpty then .trap (if b.elem then atElement h b.idx else h) cause b.addr
    else .load false pre (dirtyV (atElement h b.idx)) false

/-- The plan of a first-fault load: vl is trimmed at the first fault; a fault at the first active element (of Xkfx) or at
element 0 (of V) traps (R188). -/
def State.planFirst (s : State) (h : Hart) (kfx : Bool) (l : List Elem) (n : Hart) : Plan :=
  match l.find? (fun a => (s.accessFault h .load true a.addr a.size).isSome) with
  | none => .load kfx l n true
  | some b =>
    let pre := l.filter (fun a => decide (a.idx < b.idx))
    if (kfx && pre.isEmpty) || b.idx == 0 then
      .trap (atElement h b.idx) ((s.accessFault h .load true b.addr b.size).getD 0) b.addr
    else .load kfx pre { n with csr := { n.csr with vl := b.idx } } true

/-- The plan of a store; `elem` tells a vector store. -/
def State.planStore (s : State) (h : Hart) (elem : Bool) (l : List Put) (n : Hart) : Plan :=
  match l.find? (fun p => (s.accessFault h .store elem p.addr p.bytes.length).isSome) with
  | none => .store l n true
  | some b =>
    let pre := l.filter (fun p => decide (p.idx < b.idx))
    if pre.isEmpty then
      .trap (if elem then atElement h b.idx else h) ((s.accessFault h .store elem b.addr b.bytes.length).getD 0) b.addr
    else .store pre (dirtyV (atElement h b.idx)) false

/-- What a hart reads of the package. -/
def State.env (s : State) (i : Nat) (h : Hart) : Env :=
  { time := s.ns % 2 ^ 64, cycle := (Config.cycleCounter (0xC00000 + i) s.now).toNat, hart := i, step := s.job.step
    epoch := s.job.attempt + s.job.id * 2 ^ 8, rank := s.job.rank, release := h.release }

/-- A trap where an access faults, else the plan. -/
def State.orTrap (s : State) (h : Hart) (k : Access) (a size : Nat) (p : Plan) : Plan :=
  match s.accessFault h k false a size with
  | some c => .trap h c a
  | none => p

/-- The plan of hart `i`. -/
def State.plan (s : State) (i : Nat) : Plan :=
  let h := s.hart i
  match s.fetchAt h with
  | .error a => .trap h cFetchFault a
  | .ok (none, _, raw) => .trap h cIllegal (Config.trapValue cIllegal raw).toNat
  | .ok (some w, len, _) =>
    match execute (s.env i h) h w len with
    | .done n => .reg n
    | .trap c v => .trap h c v
    | .load l n => s.planLoad h l n
    | .first k l n => s.planFirst h k l n
    | .store l n => s.planStore h (w % 128 == 0x27 && (eewOf (fF3 w)).isSome) l n
    | .lr a size rd n => s.orTrap h .loadReserved a size (.lr a size rd n)
    | .sc a size v rd n => s.orTrap h .atomic a size (.sc a size v rd n)
    | .amo op a size v rd n => s.orTrap h .atomic a size (.amo op a size v rd n)
    | .doorbell a b n => .doorbell a b n
    | .cfence n => .cfence n

/-! ## Carrying a plan out -/

/-- May a hart execute: RUNNING, present, its STEPEND not yet issued (R180, R190)? -/
def State.hartRuns (s : State) (i : Nat) : Bool :=
  (s.hart i).st == .running && !(s.hart i).ending && s.hartOn i

/-- Put a hart after an instruction, counting it where it retires (R198, Table 7.13). -/
def State.retired (s : State) (i : Nat) (n : Hart) (retires : Bool) : State :=
  let n := { n with want := [], buf := [], sent := false }
  s.putHart i (if !retires then n else
    { n with stats := { n.stats with instret := count 64 n.stats.instret 1 }
             csr := { n.csr with minstret := if bitAt 2 n.csr.mcountinhibit.toNat then n.csr.minstret else n.csr.minstret + 1 } })

/-- A byte as a hart's load sees it: local memory, or the canopy lines that have come. -/
def State.hartByte (s : State) (h : Hart) (a : Nat) : Byte :=
  if inCanopy a then
    match h.buf.find? (fun b => b.1 == canopyOf a / 128 * 128) with
    | some b => b.2.getD (a % 128) 0
    | none => 0
  else readByte s.mem a

/-- Put one loaded value where it goes. -/
def State.putLoaded (s : State) (h n : Hart) (a : Elem) : Hart :=
  let v := leNat ((List.range a.size).map (fun k => s.hartByte h (a.addr + k)))
  match a.dst with
  | .x rd signed => wx n rd (if signed then wrap 64 (sext (8 * a.size) v) else v)
  | .f c rd => wf n c rd v
  | .v r w i => vset n r w i v

/-- The loaded hart. -/
def State.loaded (s : State) (h n : Hart) (l : List Elem) : Hart := l.foldl (fun n a => s.putLoaded h n a) n

/-- The canopy lines that a load touches, in element order (R183). -/
def loadLines (l : List Elem) : List Nat :=
  ((l.filter (fun a => inCanopy a.addr)).map (fun a => canopyOf a.addr / 128 * 128)).eraseDups

/-- A hart's local store: other harts lose their reservations on its lines. -/
def State.hartStore (s : State) (i a : Nat) (bs : List Byte) : State :=
  let own := (s.hart i).resv
  (s.storeAgent a bs).modHart i (fun h => { h with resv := own })

/-- The canopy bytes of a store, the later element's value for a byte that two write (R183): value plus one by canopy
address. -/
def canopyBytes (l : List Put) : NMap Nat :=
  (l.filter (fun p => inCanopy p.addr)).foldl (fun m p =>
    (p.bytes.mapIdx (fun k b => (canopyOf p.addr + k, b))).foldl (fun m e => nset 0 m e.1 (e.2.toNat + 1)) m) []

/-- The LWRITE payload of one line of them: byte mask and bytes (R289). -/
def linePayload (m : NMap Nat) (line : Nat) : List Byte :=
  let bs := (List.range 128).map (fun k => nget 0 m (line + k))
  leBytes 16 ((bs.mapIdx (fun k b => if b = 0 then 0 else 2 ^ k)).sum) ++ bs.map (fun b => BitVec.ofNat 8 (b - 1))

/-- The canopy lines that a store touches. -/
def storeLines (l : List Put) : List Nat :=
  ((l.filter (fun p => inCanopy p.addr)).map (fun p => canopyOf p.addr / 128 * 128)).eraseDups

/-- The local part of a store. -/
def State.storeLocal (s : State) (i : Nat) (l : List Put) : State :=
  (l.filter (fun p => !inCanopy p.addr)).foldl (fun s p => s.hartStore i p.addr p.bytes) s

/-- The gateway die of a hart (R291). -/
def gdOfHart (i : Nat) : Nat := i / 64

/-- One LWRITE for each line (R183, R291, R295). -/
def State.storeCanopy (s : State) (i : Nat) (l : List Put) : State :=
  let m := canopyBytes l
  (storeLines l).foldl (fun s line =>
    ((s.inject (gdOfHart i) (xePacket kLWRITE 1 (256 + i) (line / 2 ^ 41) 0 line (linePayload m line)) (.hartStore i)).addUnacked (hartKey i))) s

/-- One LREAD for each line; the load completes when all have come (R183). -/
def State.askLines (s : State) (i : Nat) (lines : List Nat) : State :=
  lines.foldl (fun s line => s.inject (gdOfHart i) (xePacket kLREAD 1 (256 + i) (line / 2 ^ 41) 0 line []) (.hartLoad i))
    (s.modHart i (fun h => { h with want := lines, buf := [], sent := true }))

/-- A load with canopy lines: asked for, awaited, complete. -/
def State.canopyLoad (s : State) (i : Nat) (l : List Elem) (n : Hart) (retires : Bool) : State :=
  let h := s.hart i
  let lines := loadLines l
  if !h.sent && !lines.isEmpty then (if s.mayInjectAll (gdOfHart i) lines.length then s.askLines i lines else s.injectWait (gdOfHart i))
  else if h.want.isEmpty then s.retired i (s.loaded h n l) retires
  else s

/-- HART_FIRST_FAULT_LOAD: an Xkfx first-fault indexed load (R187, R188). -/
def execHartFirstFaultLoad (h : Nat) (s : State) : Res :=
  only (h < 128) (match s.plan h with
    | .load true l n r => act s (s.hartRuns h) (s.canopyLoad h l n r)
    | _ => .next s)

/-- HART_CANOPY_LOAD: a load that touches the canopy window (R183). -/
def execHartCanopyLoad (h : Nat) (s : State) : Res :=
  only (h < 128) (match s.plan h with
    | .load false l n r => act s (s.hartRuns h && !(loadLines l).isEmpty) (s.canopyLoad h l n r)
    | _ => .next s)

/-- HART_CANOPY_STORE: a store that touches the canopy window (R183). -/
def execHartCanopyStore (h : Nat) (s : State) : Res :=
  only (h < 128) (match s.plan h with
    | .store l n r =>
      let lines := storeLines l
      act s (s.hartRuns h && !lines.isEmpty)
        (if s.mayInjectAll (gdOfHart h) lines.length then ((s.retired h n r).storeLocal h l).storeCanopy h l
         else s.injectWait (gdOfHart h))
    | _ => .next s)

/-! ## Ordinary instructions and parity errors (R201) -/

/-- LR, SC and AMO on local memory (R175, R182). -/
def State.atomicOp (s : State) (i : Nat) : Plan → Option State
  | .lr a size rd n =>
    let v := readN s.mem a size
    some (s.retired i { wx n rd (wrap 64 (sext (8 * size) v)) with resv := some (a, size) } true)
  | .sc a size v rd n =>
    let ok := match n.resv with
      | some r => decide (r.1 ≤ a) && decide (a + size ≤ r.1 + r.2)
      | none => false
    let s := if ok then s.hartStore i a (leBytes size v) else s
    some (s.retired i { wx n rd (if ok then 0 else 1) with resv := none } true)
  | .amo op a size v rd n =>
    let old := readN s.mem a size
    let s := s.hartStore i a (leBytes size ((amoValue op (8 * size) old v).getD 0))
    some (s.retired i (wx n rd (wrap 64 (sext (8 * size) old))) true)
  | _ => none

/-- The instruction at the pc, where it is an ordinary one. -/
def State.ordinary (s : State) (i : Nat) : Option State :=
  match s.plan i with
  | .reg n => some (s.retired i n true)
  | .load false l n r => if (loadLines l).isEmpty then some (s.retired i (s.loaded (s.hart i) n l) r) else none
  | .store l n r => if (storeLines l).isEmpty then some ((s.retired i n r).storeLocal i l) else none
  | p => s.atomicOp i p

/-- Count a parity error of a hart's caches (Tables 7.12, 7.13). -/
def State.cacheParity (s : State) (i : Nat) (l3 : Bool) : State :=
  if !l3 then s.modHart i (fun h => { h with stats := { h.stats with parity := count 32 h.stats.parity 1 } })
  else if i < 64 then { s with canopy := { s.canopy with l3Sd0 := count 32 s.canopy.l3Sd0 1 } }
  else { s with canopy := { s.canopy with l3Sd1 := count 32 s.canopy.l3Sd1 1 } }

/-- A hart stops with a parity error that delivers no data: a step-level error (R201). -/
def State.hartParityStop (s : State) (i : Nat) : State :=
  (s.modHart i (fun h => { h with st := .stopped })).parityStep (srcHart i) noCore

/-- HART_INSTRUCTION: an ordinary instruction, or the parity error that it meets: a clean line is refetched and the
instruction executes (R201, R361); a second error there, and every other, stops the hart. -/
def execHartInstruction (h : Nat) (u : Option Upset) (s : State) : Res :=
  only (h < 128) (match s.ordinary h, u with
    | some t, none => act s (s.hartRuns h) t
    | some _, some e =>
      let r := match e.site with
        | .cacheClean l3 =>
          let t := (s.cacheParity h l3).unitRetry (srcHart h) 0
          if e.again then ((t.cacheParity h l3).modHart h (fun x => { x with st := .stopped })).unitAgain (srcHart h) noCore
          else (t.ordinary h).getD t
        | .stack ch => (s.stackParity ch).hartParityStop h
        | .farPoison p => (s.modFar p (fun f => { f with poison := count 32 f.poison 1 })).hartParityStop h
        | _ => s.hartParityStop h
      act s (s.hartRuns h) r
    | none, _ => .next s)

/-! ## Doorbells (R189 to R193) and the canopy fence (R194) -/

/-- Ring a doorbell of one kind: at most 8 are outstanding (R193). -/
def State.ringDoorbell (s : State) (i kind : Nat) : Res :=
  only (i < 128) (match s.plan i with
    | .doorbell a b n =>
      let m := { n with db := n.db ++ [({ kind := dbKind a b } : Doorbell)], ending := kind == 0 }
      act s (s.hartRuns i && bits 31 28 a == kind && decide (n.db.length < 8)) (s.retired i m true)
    | _ => .next s)

/-- KFX_DB_STEPEND (R180, R190). -/
def execKfxDbStepend (h : Nat) (s : State) : Res := s.ringDoorbell h 0

/-- KFX_DB_TCFLAG (R191). -/
def execKfxDbTcflag (h : Nat) (s : State) : Res := s.ringDoorbell h 1

/-- KFX_DB_HART (R192). -/
def execKfxDbHart (h : Nat) (s : State) : Res := s.ringDoorbell h 2

/-- The transfer of a TCFLAG doorbell (R191). -/
def State.dbTransfer (s : State) (i : Nat) (cnt flag : Option Nat) (repoch : Nat) : Transfer :=
  { sender := .hart i, epoch := s.epoch, repoch := repoch, addr := 0, bytes := [], flag := flag, cnt := cnt }

/-- The oldest doorbell of a hart takes effect: a transfer goes to its core, an identity is raised, the hart halts
(R180, R190 to R192). -/
def State.doorbellEffect (s : State) (i : Nat) : Option State :=
  let h := s.hart i
  match h.db with
  | [] => none
  | d :: rest =>
    if d.out then none else
    match d.kind with
    | .tcflag c cnt flag e =>
      (s.ingress c (s.dbTransfer i cnt flag e)).map (fun t => t.modHart i (fun x => { x with db := { d with out := true } :: rest }))
    | .hart k ident => some ((s.putHart i { h with db := rest }).msi k ident)
    | .stepEnd => some ((s.putHart i { h with db := rest, st := .halted, ended := true }).snapshot .hart i)

/-- DOORBELL_EFFECT (R190 to R193). Stores are visible at once here, so a doorbell waits for the earlier doorbells
alone. -/
def execDoorbellEffect (h : Nat) (s : State) : Res :=
  only (h < 128) (match s.doorbellEffect h with
    | some t => act s ((s.hart h).st == .running) t
    | none => .next s)

/-- KFX_CFENCE: complete once every LWRITE of the hart is acknowledged (R194, R295). -/
def execKfxCfence (h : Nat) (s : State) : Res :=
  only (h < 128) (match s.plan h with
    | .cfence n => act s (s.hartRuns h && nget 0 s.fab.unacked (hartKey h) == 0) (s.retired h n true)
    | _ => .next s)

/-! ## Interrupts, traps and the time-out (R180, R196 to R200) -/

/-- MSI_ARRIVAL: an identity of Table 7.10 (R196, R197). -/
def execMsiArrival (h ident : Nat) (s : State) : Res :=
  only (h < 128) (act s (ident == 1 || ident == 2 || (decide (16 ≤ ident) && decide (ident < 256))) (s.msi h ident))

/-- The trap that a hart takes: an interrupt that is taken, else the exception of its instruction. -/
def State.nextTrap (s : State) (i : Nat) : Option (Hart × Nat × Nat) :=
  match takenInt (s.hart i) (s.ns % 2 ^ 64) with
  | some k => some (s.hart i, 2 ^ 63 + k, 0)
  | none => match s.plan i with
    | .trap h c v => some (h, c, v)
    | _ => none

/-- HART_TRAP: to mtvec; a trap taken while mtvec is 0 halts the hart as STOPPED and is a step-level error (R200). -/
def execHartTrap (h : Nat) (s : State) : Res :=
  only (h < 128) (match s.nextTrap h with
    | some (x, c, v) =>
      let t := if x.csr.mtvec = 0 then
          (s.putHart h (stopTrap x c v)).reportStep 0x0702 (srcHart h)
            (c % 128 + (c / 2 ^ 63) * 2 ^ 7 + x.pc.toNat % 2 ^ 48 * 2 ^ 8) noCore
        else s.putHart h (enterTrap x c v)
      act s (s.hartRuns h && !(s.hart h).sent) t
    | none => .next s)

/-- SOLVER_STEP_TIMEOUT: a RUNNING hart has not reached its part of step end in time (R180). -/
def execSolverStepTimeout (h : Nat) (s : State) : Res :=
  only (h < 128) (act s ((s.hart h).st == .running && !(s.hart h).ended && s.job.stepRunning)
    (s.reportStep 0x0701 (srcHart h) 0 noCore))

end Sys2Proof.Machine
end

