-- ==== Sys2Proof/Machine/Recorder.lean ====
section
/-!
DEFINITION. The event recorder's writes, buckets and summaries, and the links of the far ports (23_event_recorder.md R472
to R479, 09_memory.md R243 to R246).
-/
namespace Sys2Proof.Machine

open Sys2Proof

/-- RECORDER_WRITE: the next occurrence becomes record n in slot n mod 131,072 (R472, R473, R475, R476). -/
def execRecorderWrite (s : State) : Res :=
  match s.recorder.queue with
  | o :: rest =>
    let n := s.mram.written
    act s s.recording
      { s with recorder := { s.recorder with queue := rest }
               mram := { s.mram with written := n + 1, ring := nset 0 s.mram.ring (n % 131072) (o.record 1 n) } }
  | [] => .next s

/-- TOKEN_REFILL: the bucket of a limited code gains a token, up to its burst (R478). -/
def execTokenRefill (code : Nat) (s : State) : Res :=
  act s (s.recording && limitedCode code)
    { s with recorder := { s.recorder with buckets := nmod {} s.recorder.buckets code (fun b => { b with taken := b.taken - 1 }) } }

/-- One SUPPRESSED record for a code, whose count becomes zero (R479). -/
def State.summarise (s : State) (e : Nat × Bucket) : State :=
  if e.2.suppressed = 0 then s
  else
    let t := s.event 0x0001 srcPackage (e.1 % 2 ^ 16 + e.2.suppressed * 2 ^ 16)
    { t with recorder := { t.recorder with buckets := nmod {} t.recorder.buckets e.1 (fun b => { b with suppressed := 0 }) } }

/-- SUPPRESSED_SUMMARY: at each whole second of Ridgepole (R479). -/
def execSuppressedSummary (s : State) : Res :=
  act s s.recording (s.recorder.buckets.foldl State.summarise s)

/-- FAR_LINK_UP: the port has trained and its device is enumerated (R243, R244). -/
def execFarLinkUp (p rate device : Nat) (s : State) : Res :=
  only (p < 2) (act s ((s.far p).link != 2)
    (s.modFar p (fun f => { f with link := 2, rate := rate % 256, device := device % 2 ^ 64 })))

/-- FAR_LINK_DOWN: a step-level error (R246); the capacity found at enumeration stays. -/
def execFarLinkDown (p : Nat) (s : State) : Res :=
  only (p < 2) (act s ((s.far p).link == 2)
    ((s.modFar p (fun f => { f with link := 0, rate := 0 })).reportStep 0x0204 (srcFar p) 0 noCore))

end Sys2Proof.Machine
end

