-- ==== Sys2Proof/Machine/Dispatch.lean ====
section
/-!
DEFINITION. One arm per command of the opcode table.
-/
namespace Sys2Proof.Machine

open Sys2Proof

/-- The meaning of a command. -/
def exec (i : Instr) (s : State) : Host.Outcome State Fault Refusal :=
  match i with
  | .pwrgoodRise clkset nodeid => Sys2Proof.Machine.execPwrgoodRise clkset nodeid s
  | .pwrgoodFall mid => Sys2Proof.Machine.execPwrgoodFall mid s
  | .refclkLoss mid => Sys2Proof.Machine.execRefclkLoss mid s
  | .edgeCountDone => Sys2Proof.Machine.execEdgeCountDone s
  | .pllLock => Sys2Proof.Machine.execPllLock s
  | .pllLockTimeout => Sys2Proof.Machine.execPllLockTimeout s
  | .romBootDone otpEqual => Sys2Proof.Machine.execRomBootDone otpEqual s
  | .firmwareVerification => Sys2Proof.Machine.execFirmwareVerification s
  | .ondieWipeDone => Sys2Proof.Machine.execOndieWipeDone s
  | .stackTrainingDone fails wipeUs => Sys2Proof.Machine.execStackTrainingDone fails wipeUs s
  | .channelTrainTimeout ch => Sys2Proof.Machine.execChannelTrainTimeout ch s
  | .d2dTrainingDone ok => Sys2Proof.Machine.execD2dTrainingDone ok s
  | .hostPortReady => Sys2Proof.Machine.execHostPortReady s
  | .resetN => Sys2Proof.Machine.execResetN s
  | .resetCommand src => Sys2Proof.Machine.execResetCommand src s
  | .perstAssert p => Sys2Proof.Machine.execPerstAssert p s
  | .perstDeassert p => Sys2Proof.Machine.execPerstDeassert p s
  | .configRequest p req => Sys2Proof.Machine.execConfigRequest p req s
  | .thermalHot die => Sys2Proof.Machine.execThermalHot die s
  | .thermalHoldTimer die => Sys2Proof.Machine.execThermalHoldTimer die s
  | .thermalCoolTimer => Sys2Proof.Machine.execThermalCoolTimer s
  | .thermtrip => Sys2Proof.Machine.execThermtrip s
  | .powerComparison mean => Sys2Proof.Machine.execPowerComparison mean s
  | .overcurrent => Sys2Proof.Machine.execOvercurrent s
  | .voltageReached => Sys2Proof.Machine.execVoltageReached s
  | .freqCounterStart src => Sys2Proof.Machine.execFreqCounterStart src s
  | .freqWindowEnd edges => Sys2Proof.Machine.execFreqWindowEnd edges s
  | .telemetryUpdate dies hbm => Sys2Proof.Machine.execTelemetryUpdate dies hbm s
  | .eccSample counts => Sys2Proof.Machine.execEccSample counts s
  | .opsecondsTick => Sys2Proof.Machine.execOpsecondsTick s
  | .d2dFlitReceive a b num parityOk => Sys2Proof.Machine.execD2dFlitReceive a b num parityOk s
  | .d2dNak a b num => Sys2Proof.Machine.execD2dNak a b num s
  | .codewordReceive p errs link pkts => Sys2Proof.Machine.execCodewordReceive p errs link pkts s
  | .linkAck p num => Sys2Proof.Machine.execLinkAck p num s
  | .linkNak p num => Sys2Proof.Machine.execLinkNak p num s
  | .linkCredit p lane flits => Sys2Proof.Machine.execLinkCredit p lane flits s
  | .fecLock p => Sys2Proof.Machine.execFecLock p s
  | .portTrainTimeout p => Sys2Proof.Machine.execPortTrainTimeout p s
  | .identityFrame p pos farPort farAgrees roundTrip => Sys2Proof.Machine.execIdentityFrame p pos farPort farAgrees roundTrip s
  | .identityTimeout p => Sys2Proof.Machine.execIdentityTimeout p s
  | .retrainDelayExpiry p => Sys2Proof.Machine.execRetrainDelayExpiry p s
  | .lossOfSignal p => Sys2Proof.Machine.execLossOfSignal p s
  | .fportAdminEnable src => Sys2Proof.Machine.execFportAdminEnable src s
  | .portMapWrite src => Sys2Proof.Machine.execPortMapWrite src s
  | .transitPacket p lane pkt => Sys2Proof.Machine.execTransitPacket p lane pkt s
  | .ttPacket pkt => Sys2Proof.Machine.execTtPacket pkt s
  | .sendPacket pkt => Sys2Proof.Machine.execSendPacket pkt s
  | .collPacket pkt bad => Sys2Proof.Machine.execCollPacket pkt bad s
  | .lreadPacket pkt bad => Sys2Proof.Machine.execLreadPacket pkt bad s
  | .lwritePacket pkt => Sys2Proof.Machine.execLwritePacket pkt s
  | .lineQueueApply line => Sys2Proof.Machine.execLineQueueApply line s
  | .lrespPacket pkt => Sys2Proof.Machine.execLrespPacket pkt s
  | .ackPacket pkt => Sys2Proof.Machine.execAckPacket pkt s
  | .roleNackEarly src => Sys2Proof.Machine.execRoleNackEarly src s
  | .roleNackStale src => Sys2Proof.Machine.execRoleNackStale src s
  | .earlyReissue src => Sys2Proof.Machine.execEarlyReissue src s
  | .keepalivePacket pkt => Sys2Proof.Machine.execKeepalivePacket pkt s
  | .keepaliveTimer entry => Sys2Proof.Machine.execKeepaliveTimer entry s
  | .reissueTimer entry => Sys2Proof.Machine.execReissueTimer entry s
  | .requestTimeout rank => Sys2Proof.Machine.execRequestTimeout rank s
  | .fabricDrain src => Sys2Proof.Machine.execFabricDrain src s
  | .tablesDrained => Sys2Proof.Machine.execTablesDrained s
  | .fabricApply src => Sys2Proof.Machine.execFabricApply src s
  | .fabricCancel src => Sys2Proof.Machine.execFabricCancel src s
  | .mgmtPacket pkt => Sys2Proof.Machine.execMgmtPacket pkt s
  | .timesyncReq pkt => Sys2Proof.Machine.execTimesyncReq pkt s
  | .timesyncResp pkt => Sys2Proof.Machine.execTimesyncResp pkt s
  | .timesyncInterval => Sys2Proof.Machine.execTimesyncInterval s
  | .timesyncNoResp => Sys2Proof.Machine.execTimesyncNoResp s
  | .ridgepoleCheck => Sys2Proof.Machine.execRidgepoleCheck s
  | .packageStepEnd => Sys2Proof.Machine.execPackageStepEnd s
  | .arriveClean pkt => Sys2Proof.Machine.execArriveClean pkt s
  | .arriveFailed pkt => Sys2Proof.Machine.execArriveFailed pkt s
  | .release pkt => Sys2Proof.Machine.execRelease pkt s
  | .releaseAtT => Sys2Proof.Machine.execReleaseAtT s
  | .abandon pkt => Sys2Proof.Machine.execAbandon pkt s
  | .guylineChildTimeout child => Sys2Proof.Machine.execGuylineChildTimeout child s
  | .oppointSwitch => Sys2Proof.Machine.execOppointSwitch s
  | .timetableFire entry => Sys2Proof.Machine.execTimetableFire entry s
  | .signal c e => Sys2Proof.Machine.execSignal c e s
  | .wait c => Sys2Proof.Machine.execWait c s
  | .waitComplete c => Sys2Proof.Machine.execWaitComplete c s
  | .waitflag c => Sys2Proof.Machine.execWaitflag c s
  | .waitflagComplete c => Sys2Proof.Machine.execWaitflagComplete c s
  | .repeat_ c => Sys2Proof.Machine.execRepeat c s
  | .stepend c => Sys2Proof.Machine.execStepend c s
  | .swap c => Sys2Proof.Machine.execSwap c s
  | .swapExchange c => Sys2Proof.Machine.execSwapExchange c s
  | .swapTimeout c => Sys2Proof.Machine.execSwapTimeout c s
  | .tset c => Sys2Proof.Machine.execTset c s
  | .tadd c => Sys2Proof.Machine.execTadd c s
  | .tmov c => Sys2Proof.Machine.execTmov c s
  | .tcmp c => Sys2Proof.Machine.execTcmp c s
  | .memul c u => Sys2Proof.Machine.execMemul c u s
  | .meTileVisible c => Sys2Proof.Machine.execMeTileVisible c s
  | .mescl c => Sys2Proof.Machine.execMescl c s
  | .meexp c => Sys2Proof.Machine.execMeexp c s
  | .megath c => Sys2Proof.Machine.execMegath c s
  | .mescanr c u => Sys2Proof.Machine.execMescanr c u s
  | .mescanc c u => Sys2Proof.Machine.execMescanc c u s
  | .gatherTimeout c => Sys2Proof.Machine.execGatherTimeout c s
  | .vechain c u => Sys2Proof.Machine.execVechain c u s
  | .dmwload c u => Sys2Proof.Machine.execDmwload c u s
  | .dmxfer c u => Sys2Proof.Machine.execDmxfer c u s
  | .dmlink c => Sys2Proof.Machine.execDmlink c s
  | .dmconvNarrow ph => Sys2Proof.Machine.execDmconvNarrow ph s
  | .dmconvWiden ph => Sys2Proof.Machine.execDmconvWiden ph s
  | .dmconvGenerate ph => Sys2Proof.Machine.execDmconvGenerate ph s
  | .contextAllocate n => Sys2Proof.Machine.execContextAllocate n s
  | .convDescriptorDone n ctx => Sys2Proof.Machine.execConvDescriptorDone n ctx s
  | .convTimeout n ctx => Sys2Proof.Machine.execConvTimeout n ctx s
  | .xmovSend c u => Sys2Proof.Machine.execXmovSend c u s
  | .xmovPut c u => Sys2Proof.Machine.execXmovPut c u s
  | .xmovGet c u => Sys2Proof.Machine.execXmovGet c u s
  | .xfence c => Sys2Proof.Machine.execXfence c s
  | .xarm c => Sys2Proof.Machine.execXarm c s
  | .xcollAllgather c u => Sys2Proof.Machine.execXcollAllgather c u s
  | .xcollReduce c u => Sys2Proof.Machine.execXcollReduce c u s
  | .xcollAllreduce c u => Sys2Proof.Machine.execXcollAllreduce c u s
  | .xcollBcast c u => Sys2Proof.Machine.execXcollBcast c u s
  | .collTimeout c => Sys2Proof.Machine.execCollTimeout c s
  | .transferArrival c => Sys2Proof.Machine.execTransferArrival c s
  | .loaderBankComplete c role => Sys2Proof.Machine.execLoaderBankComplete c role s
  | .commandBankWrite src => Sys2Proof.Machine.execCommandBankWrite src s
  | .cswAccess p off acc => Sys2Proof.Machine.execCswAccess p off acc s
  | .hartFirstFaultLoad h => Sys2Proof.Machine.execHartFirstFaultLoad h s
  | .hartCanopyLoad h => Sys2Proof.Machine.execHartCanopyLoad h s
  | .hartCanopyStore h => Sys2Proof.Machine.execHartCanopyStore h s
  | .kfxDbTcflag h => Sys2Proof.Machine.execKfxDbTcflag h s
  | .kfxDbHart h => Sys2Proof.Machine.execKfxDbHart h s
  | .kfxDbStepend h => Sys2Proof.Machine.execKfxDbStepend h s
  | .doorbellEffect h => Sys2Proof.Machine.execDoorbellEffect h s
  | .kfxCfence h => Sys2Proof.Machine.execKfxCfence h s
  | .msiArrival h ident => Sys2Proof.Machine.execMsiArrival h ident s
  | .hartTrap h => Sys2Proof.Machine.execHartTrap h s
  | .solverStepTimeout h => Sys2Proof.Machine.execSolverStepTimeout h s
  | .problemStart d bad => Sys2Proof.Machine.execProblemStart d bad s
  | .linkDot d bad => Sys2Proof.Machine.execLinkDot d bad s
  | .linkPivot d bad => Sys2Proof.Machine.execLinkPivot d bad s
  | .linkNorm d bad => Sys2Proof.Machine.execLinkNorm d bad s
  | .linkTimeout d => Sys2Proof.Machine.execLinkTimeout d s
  | .pitchRequest src => Sys2Proof.Machine.execPitchRequest src s
  | .pitchRecord pkt => Sys2Proof.Machine.execPitchRecord pkt s
  | .loadComplete img => Sys2Proof.Machine.execLoadComplete img s
  | .pitchAccept pkt => Sys2Proof.Machine.execPitchAccept pkt s
  | .pitchLoaded pkt => Sys2Proof.Machine.execPitchLoaded pkt s
  | .pitchAlign pkt => Sys2Proof.Machine.execPitchAlign pkt s
  | .pitchAck pkt => Sys2Proof.Machine.execPitchAck pkt s
  | .pitchFail pkt => Sys2Proof.Machine.execPitchFail pkt s
  | .pitchAbort pkt => Sys2Proof.Machine.execPitchAbort pkt s
  | .pitchQuiesce pkt => Sys2Proof.Machine.execPitchQuiesce pkt s
  | .pitchQuiesced pkt => Sys2Proof.Machine.execPitchQuiesced pkt s
  | .pitchChildTimeout child => Sys2Proof.Machine.execPitchChildTimeout child s
  | .pitchAbandonTimeout => Sys2Proof.Machine.execPitchAbandonTimeout s
  | .commandStrike src => Sys2Proof.Machine.execCommandStrike src s
  | .commandQuiesce src => Sys2Proof.Machine.execCommandQuiesce src s
  | .commandResume src => Sys2Proof.Machine.execCommandResume src s
  | .commandLeave src => Sys2Proof.Machine.execCommandLeave src s
  | .quiesceStepWrite src => Sys2Proof.Machine.execQuiesceStepWrite src s
  | .strikePacket pkt => Sys2Proof.Machine.execStrikePacket pkt s
  | .jobResetDone wipeUs => Sys2Proof.Machine.execJobResetDone wipeUs s
  | .captureComplete => Sys2Proof.Machine.execCaptureComplete s
  | .drainLinesAcked => Sys2Proof.Machine.execDrainLinesAcked s
  | .drainRecordAcked => Sys2Proof.Machine.execDrainRecordAcked s
  | .bivouacLwrite pkt => Sys2Proof.Machine.execBivouacLwrite pkt s
  | .survey src => Sys2Proof.Machine.execSurvey src s
  | .surveyDone => Sys2Proof.Machine.execSurveyDone s
  | .mbxGo p len => Sys2Proof.Machine.execMbxGo p len s
  | .bar0RegisterWrite p off bytes => Sys2Proof.Machine.execBar0RegisterWrite p off bytes s
  | .hostDoorbell p h => Sys2Proof.Machine.execHostDoorbell p h s
  | .bar2Read p off len bad => Sys2Proof.Machine.execBar2Read p off len bad s
  | .bar2Write p off bytes => Sys2Proof.Machine.execBar2Write p off bytes s
  | .lockTake src => Sys2Proof.Machine.execLockTake src s
  | .lockRelease src => Sys2Proof.Machine.execLockRelease src s
  | .leaseExpiry area => Sys2Proof.Machine.execLeaseExpiry area s
  | .dictRead src => Sys2Proof.Machine.execDictRead src s
  | .dictWrite src => Sys2Proof.Machine.execDictWrite src s
  | .dictReadBlock src => Sys2Proof.Machine.execDictReadBlock src s
  | .dictWriteBlock src => Sys2Proof.Machine.execDictWriteBlock src s
  | .dictSignedWrite src => Sys2Proof.Machine.execDictSignedWrite src s
  | .dictSubscribe src => Sys2Proof.Machine.execDictSubscribe src s
  | .dictRelay src => Sys2Proof.Machine.execDictRelay src s
  | .relayTimeout id => Sys2Proof.Machine.execRelayTimeout id s
  | .blockIdleTimeout path => Sys2Proof.Machine.execBlockIdleTimeout path s
  | .clockEnableWrite src => Sys2Proof.Machine.execClockEnableWrite src s
  | .attestationNonce src => Sys2Proof.Machine.execAttestationNonce src s
  | .quoteDone => Sys2Proof.Machine.execQuoteDone s
  | .lifecycleTransition src => Sys2Proof.Machine.execLifecycleTransition src s
  | .firmwareUpdate src => Sys2Proof.Machine.execFirmwareUpdate src s
  | .recorderWrite => Sys2Proof.Machine.execRecorderWrite s
  | .tokenRefill code => Sys2Proof.Machine.execTokenRefill code s
  | .suppressedSummary => Sys2Proof.Machine.execSuppressedSummary s
  | .farLinkDown p => Sys2Proof.Machine.execFarLinkDown p s
  | .hartInstruction h u => Sys2Proof.Machine.execHartInstruction h u s
  | .commitSequenceComplete => Sys2Proof.Machine.execCommitSequenceComplete s
  | .recoveryRelayoutComplete => Sys2Proof.Machine.execRecoveryRelayoutComplete s
  | .hostLinkUp p rate width => Sys2Proof.Machine.execHostLinkUp p rate width s
  | .farLinkUp p rate device => Sys2Proof.Machine.execFarLinkUp p rate device s

end Sys2Proof.Machine
end

