-- ==== Sys2Proof/Safety.lean ====
section
/-!
DEFINITION. The terms in which statements speak: parts of the state and what it means that a command leaves them alone,
completion, the canonical form of every byte store, and the counts of MRAM that only rise.
-/

set_option Elab.async false
namespace Sys2Proof

open Machine

/-! ## Frames -/

/-- The parts of the state that a frame speaks of. -/
inductive Part where
  /-- Start-up, reset and pins (18). -/
  | start
  /-- Operating points, caps and telemetry (18, 24). -/
  | power
  /-- The event recorder outside MRAM (23). -/
  | recorder
  /-- MRAM and OTP (22). -/
  | mram
  /-- Identity, attestation and life-cycle state in force (22). -/
  | sec
  /-- The active and pending values of RW entries (21). -/
  | settings
  /-- The snapshots of R448. -/
  | snaps
  /-- The dictionary service: requests, locks, subscriptions, block transfers, relays (20). -/
  | service
  /-- Host port 0, what NOTIFYs write in it apart (19). -/
  | hp0
  /-- Host port 1, what NOTIFYs write in it apart (19). -/
  | hp1
  /-- Far port 0 (9). -/
  | far0
  /-- Far port 1 (9). -/
  | far1
  /-- Channels, repairs and counters of the stacks (9). -/
  | hbm
  /-- Every byte of stacked and far memory (9). -/
  | mem
  /-- The tensor cores (3 to 6). -/
  | cores
  /-- The solver harts (7). -/
  | harts
  /-- The conversion stations (8). -/
  | stations
  /-- The linkage engines (10). -/
  | links
  /-- The collectives (14). -/
  | coll
  /-- Ports, tables, lanes, trackers and sequence spaces of the fabric (11, 12). -/
  | fab
  /-- Canopy telemetry (12). -/
  | canopy
  /-- Ridgepole (13). -/
  | rp
  /-- Guyline (13). -/
  | guy
  /-- The timetable (13). -/
  | tt
  /-- The job held (15). -/
  | job
  /-- The pitch (15). -/
  | pitch
  /-- Errors and recovery (16). -/
  | err
  /-- Flysheet, bivouac and survey (17). -/
  | ckpt
  /-- What commits publish (1, 8). -/
  | outputs
  /-- The record of a rejected image (15). -/
  | reject
  /-- Role-epoch NACKs on the dies (3). -/
  | nacks
  /-- Die-local reissues due (3). -/
  | reissues
  /-- What the package sends beside NOTIFYs. -/
  | out
  deriving DecidableEq, Repr

/-- What a NOTIFY sends: a frame of the management port or vector 1 of a host port (R417, R437). -/
def Machine.Output.isNotify : Output → Bool
  | .frame _ _ => true
  | .msix _ v _ _ => v == 1
  | _ => false

/-- A host port without what NOTIFYs write in it: its ring, that ring's producer count, the pending bits and the count
of dropped NOTIFYs (R417). -/
def Machine.HostPort.quiet (h : HostPort) : HostPort := { h with ring := [], prod := 0, pba := [], notifyDrops := 0 }

/-- The dictionary service without the values of entries, their snapshots and the tags of NOTIFYs. -/
def Machine.DictSt.service (d : DictSt) : DictSt := { d with vals := [], pend := [], snap := [], tags := [] }

/-- A part is the same in two states. The dictionary's tags, which count NOTIFYs, belong to no part. -/
def Part.same : Part → State → State → Prop
  | .start, s, t => t.start = s.start
  | .power, s, t => t.power = s.power
  | .recorder, s, t => t.recorder = s.recorder
  | .mram, s, t => t.mram = s.mram
  | .sec, s, t => t.sec = s.sec
  | .settings, s, t => t.dict.vals = s.dict.vals ∧ t.dict.pend = s.dict.pend
  | .snaps, s, t => t.dict.snap = s.dict.snap
  | .service, s, t => t.dict.service = s.dict.service
  | .hp0, s, t => t.hp0.quiet = s.hp0.quiet
  | .hp1, s, t => t.hp1.quiet = s.hp1.quiet
  | .far0, s, t => t.far0 = s.far0
  | .far1, s, t => t.far1 = s.far1
  | .hbm, s, t => t.hbm = s.hbm
  | .mem, s, t => t.mem = s.mem
  | .cores, s, t => t.cores = s.cores
  | .harts, s, t => t.harts = s.harts
  | .stations, s, t => t.stations = s.stations
  | .links, s, t => t.links = s.links
  | .coll, s, t => t.coll = s.coll
  | .fab, s, t => t.fab = s.fab
  | .canopy, s, t => t.canopy = s.canopy
  | .rp, s, t => t.rp = s.rp
  | .guy, s, t => t.guy = s.guy
  | .tt, s, t => t.tt = s.tt
  | .job, s, t => t.job = s.job
  | .pitch, s, t => t.pitch = s.pitch
  | .err, s, t => t.err = s.err
  | .ckpt, s, t => t.ckpt = s.ckpt
  | .outputs, s, t => t.outputs = s.outputs
  | .reject, s, t => t.reject = s.reject
  | .nacks, s, t => t.nacks = s.nacks
  | .reissues, s, t => t.reissues = s.reissues
  | .out, s, t => ∃ l : List Output, t.out = s.out ++ l ∧ l.all Output.isNotify = true

/-- Every part outside `l` is as it was, and so is the queue of waiting commands. -/
def Frame (l : List Part) (s t : State) : Prop := t.pending = s.pending ∧ ∀ p, p ∉ l → p.same s t

/-- Every core but `c` is as it was. -/
def OtherCores (c : Nat) (s t : State) : Prop := ∀ d, d ≠ c → t.core d = s.core d

/-- Every member of the gang of core `c` has changed by `f`, and no other core has changed (R84). -/
def GangOnly (c : Nat) (f : Core → Core) (s t : State) : Prop :=
  (∀ d ∈ s.gangOf c, t.core d = f (s.core d)) ∧ ∀ d, d ∉ s.gangOf c → t.core d = s.core d

/-- A core with nothing left in its queues, its vestibule and its latch. -/
def Machine.Core.drained (k : Core) : Prop := k.queuesEmpty = true ∧ k.vest = [] ∧ k.latch = []

/-- The sequencer dispatches or waits: the end of a command ends neither a step nor a role (R67, R89). -/
def Machine.Core.going (k : Core) : Prop := k.seq ≠ .ended ∧ ∀ r, k.seq ≠ .swapping r

/-- A command of a core is stopped by an error at step level: it keeps its place and the step fails (R79, R358). -/
def StoppedInPlace (c : Nat) (e : Engine) (q : EngCmd) (rest : List EngCmd) (t : State) : Prop :=
  (t.core c).queue e = { q with prog := .stopped } :: rest ∧ t.err.stepFailed = true

/-- A hart after an instruction that retires: it is counted, and nothing of a canopy load remains (R183, R198). -/
def Machine.Hart.counted (n : Hart) : Hart :=
  { n with want := [], buf := [], sent := false, stats := { n.stats with instret := min (n.stats.instret + 1) (2 ^ 64 - 1) }
           csr := { n.csr with minstret := if bitAt 2 n.csr.mcountinhibit.toNat then n.csr.minstret else n.csr.minstret + 1 } }

/-- An MSI that arrived for a hart has been dropped and counted, as its dictionary entry reads (R197). -/
def Dropped (h : Nat) (s t : State) : Prop :=
  (t.hart h).csr.eip = (s.hart h).csr.eip ∧ (t.hart h).st = (s.hart h).st
  ∧ t.currentValue (0x6100 + h) 5 = leBytes 4 (min ((s.hart h).stats.dropped + 1) (2 ^ 32 - 1))

/-- Every hart but `h` is as it was. -/
def OtherHarts (h : Nat) (s t : State) : Prop := ∀ g, g ≠ h → t.hart g = s.hart g

/-- Every fabric port but `p` is as it was. -/
def OtherPorts (p : Nat) (s t : State) : Prop := ∀ q, q ≠ p → t.fport q = s.fport q

/-- Every direction of every die-to-die link but that from die `a` to die `b` is as it was. -/
def OtherDirections (a b : Nat) (s t : State) : Prop :=
  ∀ x y, x < 20 → y < 20 → (x, y) ≠ (a, b) → t.d2d x y = s.d2d x y

/-- A packet waits on a lane of a port or has left through it and can be resent. -/
def Machine.Port.carries (q : Port) (k : Packet) : Prop := (∃ l ∈ q.lanes, k ∈ l) ∨ ∃ e ∈ q.replay, e.pkt = k

/-- The fabric but for its ports is as it was. -/
def PortsOnly (s t : State) : Prop := { t.fab with ports := [] } = ({ s.fab with ports := [] } : Fabric)

/-! ## Deliveries -/

/-- A packet for this package that the clocks let it take: of its shape, of the running step, the one that its sequence
space expects next, with nothing held back behind it (R271, R282, R366). -/
def NextInSpace (k : Packet) (s : State) : Prop :=
  s.clocked = true ∧ k.wellFormed = true ∧ k.dstRank = s.myRank ∧ s.checkPacket k = .here
  ∧ k.seq % 2 ^ 32 = (nget {} s.fab.rxSpace (rxKey k)).next ∧ k.seq < 2 ^ 32 ∧ s.fab.reorder = []

/-- The space of a packet expects the number after it (R282). -/
def SpaceAdvanced (k : Packet) (s t : State) : Prop :=
  (nget {} t.fab.rxSpace (rxKey k)).next = ((nget {} s.fab.rxSpace (rxKey k)).next + 1) % 2 ^ 32

/-- A core as it is after bytes have landed in its scratch with a flag and a count (R69, R73, R80). -/
def Machine.Core.taking (x : Core) (addr : Nat) (bs : List Byte) (flag cnt : Option Nat) : Core :=
  { x with
    scratch := writeBytes x.scratch addr bs
    flags := match flag with
      | some f => x.flags ||| (1#1024 <<< (f % 1024))
      | none => x.flags
    ctr := match cnt with
      | some i => x.ctr.setIfInBounds i (x.ctr.toList.getD i 0 + 1)
      | none => x.ctr }

/-- The part of a host port. -/
def hpPart (p : Nat) : Part := if p = 0 then .hp0 else .hp1

/-- The part of a far port. -/
def farPart (p : Nat) : Part := if p = 0 then .far0 else .far1

/-- The package has sent these, in this order, and then nothing but NOTIFYs. -/
def Sends (os : List Output) (s t : State) : Prop := ∃ l, t.out = s.out ++ os ++ l ∧ l.all Output.isNotify = true

/-- The pieces, one per line, of a BAR2 write (R421). -/
def bar2Cut (a : Nat) (bs : List Byte) : List (Nat × List Byte) :=
  (linePieces (bs.length + 1) a bs.length).map (fun x => (x.1, slice bs (x.1 - a) x.2))

/-! ## Commits and checkpoints -/

/-- Local memory after the staging copies of the INPUT regions have been copied into their working copies (R25). -/
def inputsTaken (s : State) : Cells :=
  (s.regionsOf .input).foldl (fun m p => copyCells m (p.bases.getD 1 0) m (p.bases.getD 0 0) p.r.size) s.mem

/-- A memory after one copy of the step state has been copied to another: 0 working, 1 flysheet (R365, R377). -/
def stateCopied (s : State) (src dst : Nat) (m : Cells) : Cells :=
  (s.regionsOf .state).foldl (fun m p => copyCells m (p.bases.getD src 0) m (p.bases.getD dst 0) p.r.size) m

/-- The digest table of the INPUT regions over a memory: digests where they are enabled, else zeros (R221). -/
def inputDigests (s : State) (m : Cells) : List (Nat × List Byte) :=
  (s.regionsOf .input).map (fun p =>
    (p.r.id, if s.dnat 0x7030 2 = 1 then chunkedDigest (readBytes m (p.bases.getD 0 0) p.r.size) else zeros 64))

/-- The slot into which the next drain of a flysheet goes: that of the drain it ends, else the one whose record is not
the newest (R379). -/
def drainSlot (s : State) : Nat :=
  match s.ckpt.drain with
  | some d => d.slot
  | none => if s.ckpt.newest = some 0 then 1 else 0

/-! ## The dictionary service -/

/-- The command of a dictionary row. -/
def rowInstr : DictRow → DictSrc → Instr
  | .resetCommand => .resetCommand
  | .freqCounterStart => .freqCounterStart
  | .fportAdminEnable => .fportAdminEnable
  | .portMapWrite => .portMapWrite
  | .fabricDrain => .fabricDrain
  | .fabricApply => .fabricApply
  | .fabricCancel => .fabricCancel
  | .commandBankWrite => .commandBankWrite
  | .pitchRequest => .pitchRequest
  | .commandStrike => .commandStrike
  | .commandQuiesce => .commandQuiesce
  | .commandResume => .commandResume
  | .commandLeave => .commandLeave
  | .quiesceStepWrite => .quiesceStepWrite
  | .survey => .survey
  | .lockTake => .lockTake
  | .lockRelease => .lockRelease
  | .clockEnableWrite => .clockEnableWrite
  | .attestationNonce => .attestationNonce
  | .lifecycleTransition => .lifecycleTransition
  | .firmwareUpdate => .firmwareUpdate
  | .read => .dictRead
  | .write => .dictWrite
  | .readBlock => .dictReadBlock
  | .writeBlock => .dictWriteBlock
  | .signedWrite => .dictSignedWrite
  | .subscribe => .dictSubscribe
  | .relay => .dictRelay

/-- What serving a request touches beside what the request does. -/
def servedParts : List Part := [.service, .hp0, .hp1, .out]

/-- A request of a row is next to be served, from the service's queue or as a frame that arrives while none waits (R416,
R438). -/
def Arrives (row : DictRow) (src : DictSrc) (q : DictReq) (s : State) : Prop :=
  s.clocked = true ∧ s.serviceUp = true ∧ s.rowOf (parseReq q) = row
  ∧ ((src = .queued ∧ s.dict.queue.head? = some q)
    ∨ (src = .frame q.mac q.broadcast q.msg ∧ q.path = .mgmt ∧ s.dict.queue = [] ∧ q.msg.length ≤ 1500
      ∧ (q.broadcast = false ∨ (parseReq q).opcode = 1)))

/-- A request that arrives and that no kept response answers (R438). -/
def Asks (row : DictRow) (src : DictSrc) (q : DictReq) (s : State) : Prop := Arrives row src q s ∧ s.keptFor q = none

/-- The package as a request finds it: the request is out of the queue, its path's leases are renewed, and a segment has
ended the transfer in progress on its path (R425, R432). -/
def Machine.State.opened (s : State) (q : DictReq) : State :=
  let t := ({ s with dict := { s.dict with queue := s.dict.queue.drop 1 } } : State).renewLeases q.path
  if (parseReq q).segmented then t.dropXfer q.path else t

/-- A port's mailbox holds a response with the next sequence number and is free, and vector 0 has gone out where it could;
a response that a PERST discards only frees it (R416, R418, R426). -/
def MailboxTook (p : Nat) (m : List Byte) (s t : State) : Prop :=
  (t.hp p).busy = false
  ∧ ((s.hp p).lost = false → (t.hp p).rspBuf = writeBytes (s.hp p).rspBuf 0 m ∧ (t.hp p).rspLen = m.length ∧ (t.hp p).seq = (s.hp p).seq + 1
    ∧ ((s.hp p).msixEnable = true → (s.hp p).inPerst = false → (s.hp p).msixMaskAll = false → (s.hp p).masked 0 = false →
      ∃ a d, .msix p 0 a d ∈ t.out))

/-- A request has been answered on its path with a code, flags beside RESPONSE, and a payload (R416, R428, R438, R441). -/
def Answered (q : DictReq) (code flags : Nat) (body : List Byte) (s t : State) : Prop :=
  match q.path with
  | .hp0 => MailboxTook 0 ((parseReq q).response code flags body) s t
  | .hp1 => MailboxTook 1 ((parseReq q).response code flags body) s t
  | .mgmt => .frame q.mac ((parseReq q).response code flags body) ∈ t.out

/-- A write of an entry passes checks 1 to 4 with its payload complete, and the other checks give a code and a value
(R432, R433). -/
def WriteChecked (row : DictRow) (src : DictSrc) (q : DictReq) (e : DictEntry) (payload : List Byte) (code : Nat) (v : List Byte)
    (s : State) : Prop :=
  Asks row src q s ∧ (parseReq q).relay = false
  ∧ s.check14 (parseReq q) (s.wholeValue (parseReq q)) = 0 ∧ dictEntry (parseReq q).idx (parseReq q).sub = some e
  ∧ (((parseReq q).opcode = 2 ∧ payload = (parseReq q).body)
    ∨ ((parseReq q).segmented = true ∧ (parseReq q).last = true ∧ s.joinSegment (parseReq q) = some payload
      ∧ payload.length ≤ if (parseReq q).opcode = 7 then 1078384 else 1048576))
  ∧ (s.opened q).checkWrite (parseReq q) e payload = (code, v)

/-- A plain write of an entry passes every check with a value. -/
def WriteTaken (row : DictRow) (src : DictSrc) (q : DictReq) (e : DictEntry) (v : List Byte) (s : State) : Prop :=
  (parseReq q).opcode ≠ 7 ∧ WriteChecked row src q e v 0 v s

/-- The active and pending values of every other entry are as they were. -/
def OtherEntries (key : Nat) (s t : State) : Prop :=
  ∀ k, k ≠ key → nget [] t.dict.vals k = nget [] s.dict.vals k ∧ nget [] t.dict.pend k = nget [] s.dict.pend k

/-! ## Failures -/

/-- A step runs whose failure is a failed step and no more: no replay, no strike, no commit decision (R31, R362, R372). -/
def StepMayFail (s : State) : Prop := s.pitch.st = .running ∧ s.err.st = 0 ∧ s.decidedStep = false

/-- The job of a running or quiesced package that no strike has met can be struck (R351). -/
def MayBeStruck (s : State) : Prop := (s.pitch.st = .running ∨ s.pitch.st = .quiesced) ∧ s.err.st ≤ 4

/-- What a strike may touch. -/
def strikeParts : List Part :=
  [.recorder, .fab, .pitch, .err, .rp, .cores, .harts, .stations, .links, .coll, .nacks, .reissues, .tt, .guy, .job, .ckpt]

/-- The package has struck itself for a reason: every core and hart has stopped, no step runs, a job reset to IDLE that
keeps the bivouac is due, and no byte of memory has changed (R352). -/
def Struck (reason : Nat) (s t : State) : Prop :=
  t.pitch.struck = some s.job.id ∧ t.pitch.strikeReason = reason ∧ t.pitch.resetting = some .idle ∧ t.pitch.keepBivouac = true
  ∧ t.err.st = 5 ∧ t.job.stepRunning = false ∧ (∀ c, (t.core c).seq = .idle) ∧ (∀ h, (t.hart h).st = .off) ∧ t.mem = s.mem

/-- The package has acted on ABANDON (Table 16.5): its new attempt, the step given up, the flysheet's step that comes back;
everything of the attempt is dropped, and scratch, command banks and memory are as they were. -/
def Abandoned (attempt step flysheet : Nat) (s t : State) : Prop :=
  t.job.attempt = attempt ∧ t.job.stepRunning = false ∧ t.err.st = 2 ∧ t.err.replayTo = some step ∧ t.err.restoreStep = flysheet
  ∧ t.err.stepFailed = false ∧ t.fab.track = [] ∧ t.fab.reorder = [] ∧ t.outputs.queue = [] ∧ t.coll.runs = [] ∧ t.tt.waiting = []
  ∧ t.guy.ownEnd = none ∧ t.guy.held = none ∧ t.guy.commit = .none ∧ t.mem = s.mem
  ∧ (∀ c, (t.core c).seq = .idle ∧ (t.core c).qMe = [] ∧ (t.core c).qVe = [] ∧ (t.core c).qDm = [] ∧ (t.core c).qXe = []
      ∧ (t.core c).scratch = (s.core c).scratch ∧ (t.core c).bank0 = (s.core c).bank0 ∧ (t.core c).bank1 = (s.core c).bank1)

/-! ## Completion -/

/-- The command is executed and answers a next state of which `Q` holds. -/
def Completes (i : Instr) (s : State) (Q : State → Prop) : Prop := ∃ t, exec i s = .next t ∧ Q t

/-! ## Canonical byte stores -/

/-- Every byte of stacked and far memory is listed in canonical form. -/
def MemoryCanonical (s : State) : Prop := Memory.wf s.mem = true

/-! ## Counts of MRAM that only rise (R435, R447, R462, R468, R470, R473) -/

/-- The counts of MRAM that the spec gives 32 bits are within them. -/
def MramInRange (s : State) : Prop :=
  s.mram.powerCycles < 2 ^ 32 ∧ s.mram.transitions < 2 ^ 32 ∧ s.mram.fallBacks < 2 ^ 32

/-- From one state to a later one no count of MRAM has gone back and no lock of it has opened. -/
def MramForward (s t : State) : Prop :=
  s.mram.powerCycles ≤ t.mram.powerCycles ∧ s.mram.written ≤ t.mram.written ∧ s.mram.transitions ≤ t.mram.transitions
  ∧ s.mram.fallBacks ≤ t.mram.fallBacks ∧ s.mram.minSvn ≤ t.mram.minSvn ∧ s.mram.signedSeq ≤ t.mram.signedSeq
  ∧ (s.mram.udsLocked = true → t.mram.udsLocked = true)

/-- A step of MRAM that the spec allows: from counts in range to counts in range, none going back. -/
def MramStep (s t : State) : Prop := MramInRange s → MramInRange t ∧ MramForward s t

end Sys2Proof
end

