-- ==== Sys2Proof/WellFormed.lean ====
section
/-!
DEFINITION. Which commands name what the package has: die links, fabric ports, lanes, channels, dies, cores, stations,
linkage engines, harts, host ports and far ports (Table 1.2, Table 1.5, R411).
-/
namespace Sys2Proof

open Machine

/-- A lane of the package: a channel, and a lane group of it (R239). -/
def LaneFail.wellFormed (f : LaneFail) : Bool := decide (f.ch < 1024) && [0, 1, 0xFF].contains f.pseudo

/-- A conversion names a core or a station that exists. -/
def ConvPhase.wellFormed : ConvPhase → Bool
  | .submit c => decide (c < 256)
  | .work n _ _ => decide (n < 32)

/-- A link rate and width of R411. -/
def linkForm (rate width : Nat) : Bool := [64, 32, 16, 8, 5, 2].contains rate && [16, 8, 4, 2, 1].contains width

/-- Does a command name only units that the package has? -/
def Instr.wellFormed : Instr → Bool
  | .pwrgoodRise _ _ => true
  | .pwrgoodFall _ => true
  | .refclkLoss _ => true
  | .edgeCountDone => true
  | .pllLock => true
  | .pllLockTimeout => true
  | .romBootDone _ => true
  | .firmwareVerification => true
  | .ondieWipeDone => true
  | .stackTrainingDone fails _ => fails.all LaneFail.wellFormed
  | .channelTrainTimeout ch => decide (ch < 1024)
  | .d2dTrainingDone _ => true
  | .hostPortReady => true
  | .resetN => true
  | .resetCommand _ => true
  | .perstAssert p => decide (p < 2)
  | .perstDeassert p => decide (p < 2)
  | .configRequest p _ => decide (p < 2)
  | .thermalHot die => decide (die < 20)
  | .thermalHoldTimer die => decide (die < 20)
  | .thermalCoolTimer => true
  | .thermtrip => true
  | .powerComparison _ => true
  | .overcurrent => true
  | .voltageReached => true
  | .freqCounterStart _ => true
  | .freqWindowEnd _ => true
  | .telemetryUpdate dies hbm => dies.length == 20 && hbm.length == 32
  | .eccSample counts => counts.length == 32
  | .opsecondsTick => true
  | .d2dFlitReceive a b _ _ => d2dExists a b
  | .d2dNak a b _ => d2dExists a b
  | .codewordReceive p _ _ _ => decide (p < 24)
  | .linkAck p _ => decide (p < 24)
  | .linkNak p _ => decide (p < 24)
  | .linkCredit p lane _ => decide (p < 24) && decide (lane < 8)
  | .fecLock p => decide (p < 24)
  | .portTrainTimeout p => decide (p < 24)
  | .identityFrame p _ _ _ _ => decide (p < 24)
  | .identityTimeout p => decide (p < 24)
  | .retrainDelayExpiry p => decide (p < 24)
  | .lossOfSignal p => decide (p < 24)
  | .fportAdminEnable _ => true
  | .portMapWrite _ => true
  | .transitPacket p lane _ => decide (p < 24) && decide (lane < 8)
  | .ttPacket _ => true
  | .sendPacket _ => true
  | .collPacket _ _ => true
  | .lreadPacket _ _ => true
  | .lwritePacket _ => true
  | .lineQueueApply _ => true
  | .lrespPacket _ => true
  | .ackPacket _ => true
  | .roleNackEarly _ => true
  | .roleNackStale _ => true
  | .earlyReissue _ => true
  | .keepalivePacket _ => true
  | .keepaliveTimer _ => true
  | .reissueTimer _ => true
  | .requestTimeout _ => true
  | .fabricDrain _ => true
  | .tablesDrained => true
  | .fabricApply _ => true
  | .fabricCancel _ => true
  | .mgmtPacket _ => true
  | .timesyncReq _ => true
  | .timesyncResp _ => true
  | .timesyncInterval => true
  | .timesyncNoResp => true
  | .ridgepoleCheck => true
  | .packageStepEnd => true
  | .arriveClean _ => true
  | .arriveFailed _ => true
  | .release _ => true
  | .releaseAtT => true
  | .abandon _ => true
  | .guylineChildTimeout _ => true
  | .oppointSwitch => true
  | .timetableFire _ => true
  | .signal c _ => decide (c < 256)
  | .wait c => decide (c < 256)
  | .waitComplete c => decide (c < 256)
  | .waitflag c => decide (c < 256)
  | .waitflagComplete c => decide (c < 256)
  | .repeat_ c => decide (c < 256)
  | .stepend c => decide (c < 256)
  | .swap c => decide (c < 256)
  | .swapExchange c => decide (c < 256)
  | .swapTimeout c => decide (c < 256)
  | .tset c => decide (c < 256)
  | .tadd c => decide (c < 256)
  | .tmov c => decide (c < 256)
  | .tcmp c => decide (c < 256)
  | .memul c _ => decide (c < 256)
  | .meTileVisible c => decide (c < 256)
  | .mescl c => decide (c < 256)
  | .meexp c => decide (c < 256)
  | .megath c => decide (c < 256)
  | .mescanr c _ => decide (c < 256)
  | .mescanc c _ => decide (c < 256)
  | .gatherTimeout c => decide (c < 256)
  | .vechain c _ => decide (c < 256)
  | .dmwload c _ => decide (c < 256)
  | .dmxfer c _ => decide (c < 256)
  | .dmlink c => decide (c < 256)
  | .dmconvNarrow ph => ph.wellFormed
  | .dmconvWiden ph => ph.wellFormed
  | .dmconvGenerate ph => ph.wellFormed
  | .contextAllocate n => decide (n < 32)
  | .convDescriptorDone n _ => decide (n < 32)
  | .convTimeout n _ => decide (n < 32)
  | .xmovSend c _ => decide (c < 256)
  | .xmovPut c _ => decide (c < 256)
  | .xmovGet c _ => decide (c < 256)
  | .xfence c => decide (c < 256)
  | .xarm c => decide (c < 256)
  | .xcollAllgather c _ => decide (c < 256)
  | .xcollReduce c _ => decide (c < 256)
  | .xcollAllreduce c _ => decide (c < 256)
  | .xcollBcast c _ => decide (c < 256)
  | .collTimeout c => decide (c < 256)
  | .transferArrival c => decide (c < 256)
  | .loaderBankComplete c _ => decide (c < 256)
  | .commandBankWrite _ => true
  | .cswAccess p _ _ => decide (p < 2)
  | .hartFirstFaultLoad h => decide (h < 128)
  | .hartCanopyLoad h => decide (h < 128)
  | .hartCanopyStore h => decide (h < 128)
  | .kfxDbTcflag h => decide (h < 128)
  | .kfxDbHart h => decide (h < 128)
  | .kfxDbStepend h => decide (h < 128)
  | .doorbellEffect h => decide (h < 128)
  | .kfxCfence h => decide (h < 128)
  | .msiArrival h _ => decide (h < 128)
  | .hartTrap h => decide (h < 128)
  | .solverStepTimeout h => decide (h < 128)
  | .problemStart d _ => decide (d < 8)
  | .linkDot d _ => decide (d < 8)
  | .linkPivot d _ => decide (d < 8)
  | .linkNorm d _ => decide (d < 8)
  | .linkTimeout d => decide (d < 8)
  | .pitchRequest _ => true
  | .pitchRecord _ => true
  | .loadComplete _ => true
  | .pitchAccept _ => true
  | .pitchLoaded _ => true
  | .pitchAlign _ => true
  | .pitchAck _ => true
  | .pitchFail _ => true
  | .pitchAbort _ => true
  | .pitchQuiesce _ => true
  | .pitchQuiesced _ => true
  | .pitchChildTimeout _ => true
  | .pitchAbandonTimeout => true
  | .commandStrike _ => true
  | .commandQuiesce _ => true
  | .commandResume _ => true
  | .commandLeave _ => true
  | .quiesceStepWrite _ => true
  | .strikePacket _ => true
  | .jobResetDone _ => true
  | .captureComplete => true
  | .drainLinesAcked => true
  | .drainRecordAcked => true
  | .bivouacLwrite _ => true
  | .survey _ => true
  | .surveyDone => true
  | .mbxGo p _ => decide (p < 2)
  | .bar0RegisterWrite p _ _ => decide (p < 2)
  | .hostDoorbell p h => decide (p < 2) && decide (h < 128)
  | .bar2Read p _ _ _ => decide (p < 2)
  | .bar2Write p _ _ => decide (p < 2)
  | .lockTake _ => true
  | .lockRelease _ => true
  | .leaseExpiry _ => true
  | .dictRead _ => true
  | .dictWrite _ => true
  | .dictReadBlock _ => true
  | .dictWriteBlock _ => true
  | .dictSignedWrite _ => true
  | .dictSubscribe _ => true
  | .dictRelay _ => true
  | .relayTimeout _ => true
  | .blockIdleTimeout _ => true
  | .clockEnableWrite _ => true
  | .attestationNonce _ => true
  | .quoteDone => true
  | .lifecycleTransition _ => true
  | .firmwareUpdate _ => true
  | .recorderWrite => true
  | .tokenRefill _ => true
  | .suppressedSummary => true
  | .farLinkDown p => decide (p < 2)
  | .hartInstruction h _ => decide (h < 128)
  | .commitSequenceComplete => true
  | .recoveryRelayoutComplete => true
  | .hostLinkUp p rate width => decide (p < 2) && linkForm rate width
  | .farLinkUp p _ _ => decide (p < 2)

end Sys2Proof
end

