-- ==== Sys2Proof/Certificates/Slice0/Obligations.lean ====
section
/-!
DEFINITION. The statements about the package.
-/

set_option Elab.async false

open Sys2Proof Sys2Proof.Machine

/-- A step on a state whose queue has the command c at its front is exec of c on the same state with the rest of the queue.
How commands wait in a queue is the model's own choice (log entry 1). -/
def Obligations.StepRunsTheFrontCommand : Prop :=
  ∀ (c : Instr) (rest : List Instr) (s : State), step { s with pending := c :: rest } = exec c { s with pending := rest }

/-- With an empty queue a step always answers a next state, whose queue is empty. Without a reset that a command asked for,
a package whose clocks run and whose Ridgepole has no slew to make sees Ridgepole advance by 256 units of 2^-8 ns (R301),
and one whose clocks stand sees no change of Ridgepole. That a tick is what an empty queue does is the model's choice
(log entry 2). -/
def Obligations.EmptyQueueLetsATickPass : Prop :=
  ∀ s : State, s.pending = [] →
    ∃ t, step s = .next t ∧ t.pending = []
      ∧ (s.start.resetDue = none → s.clocked = true → s.rp.slew = 0 → t.rp.now = s.rp.now + 256)
      ∧ (s.start.resetDue = none → s.clocked = false → t.rp = s.rp)

/-- For every command and state: where the command names only dies, channels, cores, stations, linkage engines, harts, fabric
ports, lanes, host ports and far ports that the package has (Tables 1.2 and 1.5), exec answers a next state; where it names
one that the package does not have, exec answers the fault noSuchUnit. There is no other fault and no refusal. That fault
is the model's own (log entry 3). -/
def Obligations.CommandsCompleteExactlyWhenTheirUnitsExist : Prop :=
  ∀ (i : Instr) (s : State),
    (i.wellFormed = true → ∃ t, exec i s = .next t) ∧ (i.wellFormed = false → exec i s = .fault .noSuchUnit)

/-- Whatever command is executed, a next state that it answers has the queue of waiting commands that the state had before
(the queue is the model's own, log entry 1). -/
def Obligations.NoCommandTouchesTheQueue : Prop :=
  ∀ (i : Instr) (s t : State), exec i s = .next t → t.pending = s.pending

/-- While every clock stands, before PWRGOOD has risen and after a THERMTRIP (R403, R486, R490), every command but
PWRGOOD_RISE, PWRGOOD_FALL, PERST_ASSERT and PERST_DEASSERT leaves the whole state as it was. That an event which needs a
clock has no effect without one is DEDUCED (log entry 4). -/
def Obligations.StoppedClocksHoldEverything : Prop :=
  ∀ (i : Instr) (s t : State), s.clocked = false →
    (∀ a b, i ≠ .pwrgoodRise a b) → (∀ a, i ≠ .pwrgoodFall a) → (∀ p, i ≠ .perstAssert p) → (∀ p, i ≠ .perstDeassert p) →
    exec i s = .next t → t = s

/-- After reset PWRGOOD is low and no clock runs; every core is IDLE with zero counters, flags and scratch and no command
bank; every hart is OFF; memory reads zero everywhere; every fabric port is DOWN with its far end unknown; the own position
is 0xFFFF; both host ports are in PERST and down; no job is held and Ridgepole reads 0; the point is P7 with caps at P0; the
life-cycle state is BLANK and no UDS lock is set. Values without a reset value in the spec are the model's choice (log
entry 5). -/
def Obligations.ResetLeavesWhatTheSpecStates : Prop :=
  State.reset.clocked = false ∧ State.reset.pending = []
  ∧ (∀ c, (State.reset.core c).seq = .idle ∧ (State.reset.core c).flags = 0 ∧ (∀ i, (State.reset.core c).ctr.toList.getD i 0 = 0)
      ∧ (∀ a, readByte (State.reset.core c).scratch a = 0) ∧ (State.reset.core c).bank0.st = .empty
      ∧ (State.reset.core c).bank1.st = .empty ∧ (State.reset.core c).roleEpoch = 0)
  ∧ (∀ h, (State.reset.hart h).st = .off)
  ∧ (∀ a, readByte State.reset.mem a = 0)
  ∧ (∀ p, (State.reset.fport p).st = .down ∧ (State.reset.fport p).farId = 0xFFFFFFFF) ∧ State.reset.fab.tabs.own = 0xFFFF
  ∧ (∀ p, (State.reset.hp p).inPerst = true ∧ (State.reset.hp p).link = .down)
  ∧ State.reset.jobHeld = false ∧ State.reset.rp.now = 0 ∧ State.reset.rp.st = .unaligned
  ∧ State.reset.power.freq = 7 ∧ State.reset.power.thermalCap = 0 ∧ State.reset.power.powerCap = 0
  ∧ State.reset.mram.life = .blank ∧ State.reset.mram.udsLocked = false

/-- From every state whose memory is in canonical form (addresses rising, no listed byte equal to the zero that unlisted bytes
read as), whatever command is at the front of the queue, and on a tick too, the next state has its memory in that form. The
form itself is the model's (log entry 6); that wiped memory reads zero is R241. -/
def Obligations.MemoryStaysCanonical : Prop :=
  ∀ s t : State, MemoryCanonical s → step s = .next t → MemoryCanonical t

/-- The state after reset has its memory in canonical form, with no byte listed (log entry 6). -/
def Obligations.ResetMemoryIsCanonical : Prop :=
  MemoryCanonical State.reset ∧ State.reset.mem = []

/-- From every state whose 32-bit counts of MRAM are in range, every step, a power loss and a package reset among them,
leaves them in range and not lower: power cycles, records written, life-cycle transitions, firmware fall-backs, the minimum
security version (R462) and the number of the last signed write (R435); and a UDS lock (R470) never opens. Without the
range a saturating count could fall (R447); it is the model's invariant for states no run reaches. -/
def Obligations.MramNeverGoesBack : Prop :=
  ∀ s t : State, MramInRange s → step s = .next t → MramInRange t ∧ MramForward s t

/-- A rising PWRGOOD latches both straps, clears Ridgepole and starts the REFCLK edge count, with operating seconds taken from
MRAM (R390, R301, R474). The end of the count starts the PLLs; their lock ends step 2, while a PLL that has not locked in
time is tried again without limit and step 2 goes on (R405, R406). Nothing else changes. -/
def Obligations.StartUpBeginsAndPllsLock : Prop :=
  ∀ s : State,
    (s.start.phase = .off → ∀ clkset nodeid, Completes (.pwrgoodRise clkset nodeid) s (fun t =>
      t.start.phase = .edgeCount ∧ t.start.clkset = clkset % 8 ∧ t.start.nodeid = nodeid % 16 ∧ t.rp.now = 0
      ∧ t.recorder.opsec = s.mram.opSeconds ∧ t.recorder.queue = [] ∧ Frame [.start, .rp, .recorder] s t))
    ∧ (s.start.phase = .edgeCount → Completes .edgeCountDone s (fun t =>
      t.start = { s.start with phase := .pllLock } ∧ Frame [.start] s t))
    ∧ (s.start.phase = .pllLock → Completes .pllLock s (fun t =>
      t.start = { s.start with phase := .romBoot } ∧ Frame [.start] s t))
    ∧ (s.start.phase = .pllLock → Completes .pllLockTimeout s (fun t =>
      t.start = { s.start with pllRetries := s.start.pllRetries + 1 } ∧ Frame [.start] s t))

/-- At the end of step 3 the life-cycle state of MRAM takes force, a power-up counts a power cycle, a host port out of PERST
trains, and verification begins; OTP copies that differ put the package into FAULT with step 3 (R404, R407, R409, R458,
R474). Step 4 starts the boot slot where its image verifies, else the other slot with a fall-back counted, else FAULT with
step 4 (R409, R461); a started slot is the active one and step 5 begins. -/
def Obligations.StartUpStepsThreeAndFourRun : Prop :=
  ∀ s : State,
    (s.start.phase = .romBoot → Completes (.romBootDone true) s (fun t =>
      t.start.phase = .verify ∧ t.start.fullStart = false ∧ t.sec.life = s.mram.life
      ∧ t.mram.powerCycles = (if s.start.fullStart then min (s.mram.powerCycles + 1) (2 ^ 32 - 1) else s.mram.powerCycles)
      ∧ (s.hp0.inPerst = false → t.hp0.link = .training) ∧ (s.hp1.inPerst = false → t.hp1.link = .training)
      ∧ Frame [.start, .mram, .sec, .recorder, .settings, .hp0, .hp1] s t))
    ∧ (s.start.phase = .romBoot → Completes (.romBootDone false) s (fun t =>
      t.start.phase = .fault ∧ t.start.faultStep = 3 ∧ t.mem = s.mem ∧ t.cores = s.cores ∧ t.fab = s.fab))
    ∧ (s.start.phase = .verify → s.slotOk (s.mram.bootSlot % 2) = true → Completes .firmwareVerification s (fun t =>
      t.start.phase = .wipe ∧ t.sec.activeSlot = some (s.mram.bootSlot % 2) ∧ t.mram.fallBacks = s.mram.fallBacks
      ∧ s.mram.minSvn ≤ t.mram.minSvn ∧ Frame [.start, .sec, .mram, .recorder] s t))
    ∧ (s.start.phase = .verify → s.slotOk (s.mram.bootSlot % 2) = false → s.slotOk (1 - s.mram.bootSlot % 2) = true →
      Completes .firmwareVerification s (fun t =>
        t.start.phase = .wipe ∧ t.sec.activeSlot = some (1 - s.mram.bootSlot % 2)
        ∧ t.mram.fallBacks = min (s.mram.fallBacks + 1) (2 ^ 32 - 1) ∧ Frame [.start, .sec, .mram, .recorder] s t))
    ∧ (s.start.phase = .verify → s.slotOk (s.mram.bootSlot % 2) = false → s.slotOk (1 - s.mram.bootSlot % 2) = false →
      Completes .firmwareVerification s (fun t =>
        t.start.phase = .fault ∧ t.start.faultStep = 4 ∧ t.sec = s.sec ∧ t.mram = s.mram ∧ Frame [.start, .recorder] s t))

/-- Step 5 leaves every core, hart, station and linkage engine wiped (R241). In step 6 a channel without a response is mapped
out and recorded (R239), and at its end every byte of stacked memory reads zero while far memory is as it was (R241, R245).
Step 7 goes on to step 8, or a link that does not train puts the package into FAULT with step 7 (R409). Step 8 sets the
clock enables and ends start-up (R398, R405). -/
def Obligations.StartUpStepsFiveToEightRun : Prop :=
  ∀ s : State,
    (s.start.phase = .wipe → Completes .ondieWipeDone s (fun t =>
      t.start = { s.start with phase := .stackTrain } ∧ t.cores = [] ∧ t.harts = [] ∧ t.stations = [] ∧ t.links = []
      ∧ Frame [.start, .cores, .harts, .stations, .links] s t))
    ∧ (s.start.phase = .stackTrain → ∀ ch, ch < 1024 → Completes (.channelTrainTimeout ch) s (fun t =>
      ch ∈ t.hbm.out ∧ (∀ x ∈ s.hbm.out, x ∈ t.hbm.out) ∧ Frame [.hbm, .recorder] s t))
    ∧ (s.start.phase = .stackTrain → ∀ fails us, fails.all LaneFail.wellFormed = true →
      Completes (.stackTrainingDone fails us) s (fun t =>
        t.start.phase = .d2dTrain ∧ t.hbm.trained = true ∧ t.hbm.wiped = true
        ∧ (∀ a, a < stackedBytes → readByte t.mem a = 0) ∧ (∀ a, stackedBytes ≤ a → readByte t.mem a = readByte s.mem a)
        ∧ Frame [.start, .hbm, .recorder, .mem] s t))
    ∧ (s.start.phase = .d2dTrain → Completes (.d2dTrainingDone true) s (fun t =>
      t.start = { s.start with phase := .hostReady } ∧ Frame [.start] s t))
    ∧ (s.start.phase = .d2dTrain → Completes (.d2dTrainingDone false) s (fun t =>
      t.start.phase = .fault ∧ t.start.faultStep = 7 ∧ Frame [.start, .recorder] s t))
    ∧ (s.start.phase = .hostReady → Completes .hostPortReady s (fun t =>
      t.start.phase = .ready ∧ t.dval 0x2010 1 = s.enableClocks.dval 0x2010 1 ∧ t.dval 0x2010 5 = s.enableClocks.dval 0x2010 5
      ∧ Frame [.start, .settings] s t))

/-- A fall of PWRGOOD, and a missing REFCLK as if it had fallen (R486, R494), stop every clock; cores, harts, fabric and job
are gone, stacked memory reads zero, far memory and the counts of MRAM are as they were (R403, R245). RESET_N starts the
package again at step 3 with the cause RESET_N, or RSTREQ while RSTREQ_N was low (R401), with straps, Ridgepole and memory
as they were and the job gone. A thermal trip stops every clock and drives THERMTRIP_N low (R490). That far memory keeps
its contents without power is the model's choice (log entry 7). -/
def Obligations.ResetAndPowerLossStopEverything : Prop :=
  ∀ s : State,
    (s.start.phase ≠ .off → ∀ mid, Completes (.pwrgoodFall mid) s (fun t =>
      t.clocked = false ∧ t.start.phase = .off ∧ t.cores = [] ∧ t.harts = [] ∧ t.fab = {} ∧ t.job = {}
      ∧ (∀ a, a < stackedBytes → readByte t.mem a = 0) ∧ (∀ a, stackedBytes ≤ a → readByte t.mem a = readByte s.mem a)
      ∧ t.mram.written = s.mram.written ∧ t.mram.powerCycles = s.mram.powerCycles ∧ t.mram.life = s.mram.life))
    ∧ (s.clocked = true → ∀ mid, Completes (.refclkLoss mid) s (fun t =>
      t.clocked = false ∧ t.start.phase = .off ∧ t.cores = [] ∧ t.harts = [] ∧ t.fab = {} ∧ t.job = {}
      ∧ (∀ a, a < stackedBytes → readByte t.mem a = 0) ∧ t.mram.written = s.mram.written))
    ∧ (s.clocked = true → Completes .resetN s (fun t =>
      t.start.phase = .romBoot ∧ t.start.cause = (if s.start.rstreqLow then .rstreq else .resetN)
      ∧ t.start.resets = min (s.start.resets + 1) (2 ^ 32 - 1) ∧ t.start.clkset = s.start.clkset
      ∧ t.start.nodeid = s.start.nodeid ∧ t.start.rstreqLow = false ∧ t.rp.now = s.rp.now ∧ t.mem = s.mem
      ∧ t.mram.life = s.mram.life ∧ t.mram.written = s.mram.written ∧ t.cores = [] ∧ t.harts = [] ∧ t.fab = {} ∧ t.job = {}
      ∧ t.jobHeld = false))
    ∧ (s.clocked = true → Completes .thermtrip s (fun t =>
      t.clocked = false ∧ t.start.thermtripLow = true ∧ Output.thermtrip true ∈ t.out ∧ Frame [.start, .out] s t))

/-- A tensor or solver die above 105 °C moves the thermal cap one point slower at once and again at each further 100 µs, never
beyond P7; a millisecond at 100 °C or below moves it one point faster (R396). The comparison of a millisecond's mean with
the limit moves the power cap one point slower above the limit; at or below 95 % it counts a run, and the tenth run in a row
moves the cap one point faster; overcurrent sets it to P7 at once (R487, R488). Events apart, only power state changes. A
junction of a gateway die moves no cap. -/
def Obligations.CapsMoveWithTemperatureAndPower : Prop :=
  ∀ s : State,
    (s.clocked = true → ∀ die, die < 10 → Completes (.thermalHot die) s (fun t =>
      t.power.thermalCap = min 7 (s.power.thermalCap + 1) ∧ t.power.hot = true ∧ t.power.powerCap = s.power.powerCap
      ∧ Frame [.power, .recorder] s t))
    ∧ (∀ die, 10 ≤ die → die < 20 → Completes (.thermalHot die) s (fun t => t = s))
    ∧ (s.clocked = true → s.power.hot = true → ∀ die, die < 10 → Completes (.thermalHoldTimer die) s (fun t =>
      t.power.thermalCap = min 7 (s.power.thermalCap + 1) ∧ t.power.powerCap = s.power.powerCap ∧ Frame [.power, .recorder] s t))
    ∧ (s.clocked = true → Completes .thermalCoolTimer s (fun t =>
      t.power.thermalCap = s.power.thermalCap - 1 ∧ t.power.hot = false ∧ t.power.powerCap = s.power.powerCap
      ∧ Frame [.power, .recorder] s t))
    ∧ (3 ≤ s.start.phase.stepNo → ∀ mean, mean < 2 ^ 16 → Completes (.powerComparison mean) s (fun t =>
      t.power.measured = mean ∧ t.power.peak = max s.power.peak mean ∧ t.power.thermalCap = s.power.thermalCap
      ∧ (s.powerLimit < mean → t.power.powerCap = min 7 (s.power.powerCap + 1) ∧ t.power.lowRuns = 0)
      ∧ (mean ≤ s.powerLimit → 100 * mean ≤ 95 * s.powerLimit → 9 ≤ s.power.lowRuns →
          t.power.powerCap = s.power.powerCap - 1 ∧ t.power.lowRuns = 0)
      ∧ (mean ≤ s.powerLimit → 100 * mean ≤ 95 * s.powerLimit → s.power.lowRuns < 9 →
          t.power.powerCap = s.power.powerCap ∧ t.power.lowRuns = s.power.lowRuns + 1)
      ∧ (mean ≤ s.powerLimit → 95 * s.powerLimit < 100 * mean → t.power.powerCap = s.power.powerCap ∧ t.power.lowRuns = 0)
      ∧ Frame [.power, .recorder] s t))
    ∧ (3 ≤ s.start.phase.stepNo → Completes .overcurrent s (fun t =>
      t.power.powerCap = 7 ∧ t.power.thermalCap = s.power.thermalCap ∧ Frame [.power, .recorder] s t))

/-- A ramp that reaches its target sets the voltage and, where the voltage suffices, the frequency to the effective point (R394).
A measurement in progress ends with its edge count, 0 for a gated target (R397). Telemetry takes all 52 readings, keeps the
hotter of each peak and counts failed sensors (R456). The correction counts of trained stacks grow by their samples (R229).
An operating second counts one, and every sixtieth is written to MRAM (R474). Sampled counts being increments is the model's
choice (log entry 8). -/
def Obligations.VoltageFrequencyAndTelemetryRun : Prop :=
  ∀ s : State,
    (s.clocked = true → ∀ v, s.power.rampTo = some v → Completes .voltageReached s (fun t =>
      t.power.volt = v ∧ t.power.rampTo = none ∧ (v ≤ s.effectivePoint → t.power.freq = s.effectivePoint)
      ∧ (s.effectivePoint < v → t.power.freq = s.power.freq) ∧ Frame [.power] s t))
    ∧ (s.clocked = true → s.power.counter.st = 1 → ∀ edges,
        (s.clockGated s.power.counter.target = true ∨ s.countPossible edges = true) →
        Completes (.freqWindowEnd edges) s (fun t =>
          t.power.counter.st = 2 ∧ t.power.counter.target = s.power.counter.target
          ∧ t.power.counter.result = (if s.clockGated s.power.counter.target then 0 else min edges (2 ^ 64 - 1))
          ∧ Frame [.power] s t))
    ∧ (s.clocked = true → ∀ dies hbm, dies.length = 20 → hbm.length = 32 → Completes (.telemetryUpdate dies hbm) s (fun t =>
      t.power.dieTemp = dies.map (· % 65536) ∧ t.power.stackTemp = hbm.map (· % 65536)
      ∧ t.power.diePeak = List.zipWith hotter s.power.diePeak (dies.map (· % 65536))
      ∧ t.power.freq = s.power.freq ∧ t.power.thermalCap = s.power.thermalCap ∧ Frame [.power] s t))
    ∧ (s.clocked = true → s.hbm.trained = true → ∀ counts, counts.length = 32 → Completes (.eccSample counts) s (fun t =>
      (∀ i, i < 32 → (nget {} t.hbm.stats i).ecc = min ((nget {} s.hbm.stats i).ecc + counts.getD i 0) (2 ^ 64 - 1))
      ∧ t.hbm.out = s.hbm.out ∧ t.hbm.repairs = s.hbm.repairs ∧ Frame [.hbm] s t))
    ∧ (s.clocked = true → Completes .opsecondsTick s (fun t =>
      t.recorder = { s.recorder with opsec := s.recorder.opsec + 1 }
      ∧ t.mram = (if (s.recorder.opsec + 1) % 60 = 0 then { s.mram with opSeconds := s.recorder.opsec + 1 } else s.mram)
      ∧ Frame [.recorder, .mram] s t))

/-- From step 3 on the recorder takes the front of its queue, writes it as the next record into slot written mod 131,072 of MRAM
and counts it; no other slot changes (R473, R474, R476). A refill gives a limited code one token back, never beyond its burst
(R478). Each whole second every code with suppressed occurrences gets its summary and its count begins again, none else
(R479). -/
def Obligations.RecorderWritesInOrder : Prop :=
  ∀ s : State, 3 ≤ s.start.phase.stepNo →
    (∀ o rest, s.recorder.queue = o :: rest → Completes .recorderWrite s (fun t =>
      t.recorder = { s.recorder with queue := rest } ∧ t.mram.written = s.mram.written + 1
      ∧ nget 0 t.mram.ring (s.mram.written % 131072) = o.record 1 s.mram.written
      ∧ (∀ i, i ≠ s.mram.written % 131072 → nget 0 t.mram.ring i = nget 0 s.mram.ring i)
      ∧ Frame [.recorder, .mram] s t))
    ∧ (∀ code, limitedCode code = true → Completes (.tokenRefill code) s (fun t =>
      (nget {} t.recorder.buckets code).taken = (nget {} s.recorder.buckets code).taken - 1
      ∧ (∀ c, c ≠ code → nget {} t.recorder.buckets c = nget {} s.recorder.buckets c)
      ∧ t.recorder.queue = s.recorder.queue ∧ Frame [.recorder] s t))
    ∧ Completes .suppressedSummary s (fun t =>
      s.recorder.queue <+: t.recorder.queue ∧ t.mram = s.mram ∧ Frame [.recorder] s t)

/-- On a direction of a die-to-die link that has not failed, an expected flit with good parity is taken and ends any hold; an
expected flit with a parity error is not, a NAK names it and the direction holds; while it holds, every other flit is
discarded. A NAK makes the sender resend from the flit it names. A flit NAKed more than D2dRetryLimit times in a row fails
the link (R265). Nothing but that direction changes, the failure of a link apart. -/
def Obligations.DieLinksKeepFlitsInOrder : Prop :=
  ∀ (s : State) (a b : Nat), s.clocked = true → d2dExists a b = true → (s.d2d a b).failed = false →
    (Completes (.d2dFlitReceive a b (s.d2d a b).rxNext true) s (fun t =>
      t.d2d a b = { s.d2d a b with rxNext := (s.d2d a b).rxNext + 1, rxHold := false, rxRun := 0, resend := none }
      ∧ OtherDirections a b s t ∧ Frame [.fab] s t))
    ∧ ((s.d2d a b).rxRun < s.dnat 0x4210 3 → Completes (.d2dFlitReceive a b (s.d2d a b).rxNext false) s (fun t =>
      t.d2d a b = { s.d2d a b with rxHold := true, rxRun := (s.d2d a b).rxRun + 1 }
      ∧ Output.d2dNak a b (s.d2d a b).rxNext ∈ t.out ∧ OtherDirections a b s t ∧ Frame [.fab, .out] s t))
    ∧ (∀ num ok, num ≠ (s.d2d a b).rxNext → Completes (.d2dFlitReceive a b num ok) s (fun t => t.pending = s.pending ∧ ∀ p : Part, p.same s t))
    ∧ (s.dnat 0x4210 3 ≤ (s.d2d a b).rxRun → Completes (.d2dFlitReceive a b (s.d2d a b).rxNext false) s (fun t =>
      (t.d2d a b).failed = true))
    ∧ (∀ num, (num = (s.d2d a b).nakNum → (s.d2d a b).nakRun < s.dnat 0x4210 3) → 0 < s.dnat 0x4210 3 →
      Completes (.d2dNak a b num) s (fun t =>
        (t.d2d a b).resend = some num ∧ (t.d2d a b).nakNum = num ∧ (t.d2d a b).failed = false
        ∧ (t.d2d a b).rxNext = (s.d2d a b).rxNext ∧ OtherDirections a b s t ∧ Frame [.fab] s t))

/-- A training port whose FEC locks exchanges identity frames; without a lock it goes DOWN with its retrain delay running. An
identity frame that matches the map of this training on both ends brings the port UP with fresh link numbers and full
credit, joined to its path sets at once only while no job runs; any other frame, or none in time, leaves it HELD. A failed
port trains again after its delay where it may train. Loss of signal takes an UP port DOWN, out of its path sets, with
nothing left on its lanes or in its replay buffer (R276, R284, Table 11.6). Only the fabric and the recorder change, and
what identity frames a port sends. -/
def Obligations.PortsTrainAndComeUp : Prop :=
  ∀ (s : State) (p : Nat), s.clocked = true → p < 24 →
    ((s.fport p).st = .training → Completes (.fecLock p) s (fun t =>
      t.fport p = { s.fport p with st := .idcheck } ∧ Output.identity p s.fab.tabs.own p ∈ t.out
      ∧ OtherPorts p s t ∧ PortsOnly s t ∧ Frame [.fab, .out] s t))
    ∧ ((s.fport p).st = .training → Completes (.portTrainTimeout p) s (fun t =>
      t.fport p = { s.fport p with st := .down, retrain := true } ∧ OtherPorts p s t ∧ PortsOnly s t ∧ Frame [.fab, .recorder] s t))
    ∧ ((s.fport p).st = .idcheck → ∀ pos far rtt, pos < 2 ^ 16 → far < 32 → rtt < 2 ^ 32 →
        bits 20 0 (s.fport p).trained = pos + far * 65536 → Completes (.identityFrame p pos far true rtt) s (fun t =>
      (t.fport p).st = .up ∧ (t.fport p).farId = pos + far * 65536 ∧ (t.fport p).joined = !s.jobBusy
      ∧ (t.fport p).roundTrip = rtt ∧ Frame [.fab, .recorder] s t))
    ∧ ((s.fport p).st = .idcheck → ∀ pos far agrees rtt, pos < 2 ^ 16 → far < 32 →
        (bits 20 0 (s.fport p).trained ≠ pos + far * 65536 ∨ agrees = false) →
        Completes (.identityFrame p pos far agrees rtt) s (fun t =>
      t.fport p = { s.fport p with st := .held, farId := pos + far * 65536 } ∧ OtherPorts p s t ∧ PortsOnly s t
      ∧ Frame [.fab, .recorder] s t))
    ∧ ((s.fport p).st = .idcheck → Completes (.identityTimeout p) s (fun t =>
      t.fport p = { s.fport p with st := .held } ∧ OtherPorts p s t ∧ PortsOnly s t ∧ Frame [.fab, .recorder] s t))
    ∧ ((s.fport p).st = .down → (s.fport p).retrain = true → Completes (.retrainDelayExpiry p) s (fun t =>
      t.fport p = (if s.mayTrain p then { s.fport p with retrain := false, st := .training, trained := s.fab.portMap.getD p 0xFFFF }
                   else { s.fport p with retrain := false })
      ∧ OtherPorts p s t ∧ PortsOnly s t ∧ Frame [.fab] s t))
    ∧ ((s.fport p).st = .up → Completes (.lossOfSignal p) s (fun t =>
      (t.fport p).st = .down ∧ (t.fport p).joined = false ∧ (t.fport p).retrain = true ∧ (t.fport p).replay = []
      ∧ (t.fport p).lanes = List.replicate 8 [] ∧ Frame [.fab, .recorder] s t))

/-- On a port that is UP, the expected codeword that decodes and whose packets all have a good CRC is taken whatever its link
word: its packets enter the gateway in order, its number is acknowledged and the next one is expected. One that does not
decode, or in which a CRC fails, is discarded, counted, and NAKed unless a resend is already awaited (R266 to R268, R270).
Only the fabric changes, what the link sends and, where a NAK that it carried takes the port down, the recorder. -/
def Obligations.CodewordsAreTakenInOrder : Prop :=
  ∀ (s : State) (p errs : Nat) (link : LinkWord) (pkts : List WirePacket), s.clocked = true → p < 24 → (s.fport p).st = .up →
    (errs ≤ 15 → (match link with | .seq n => n % 4096 | _ => (s.fport p).rxCur) = (s.fport p).rxNext % 4096 →
      (∀ w ∈ pkts, w.crc = crc32c w.pkt.bytes) → Completes (.codewordReceive p errs link pkts) s (fun t =>
        (t.fport p).rxNext = (s.fport p).rxNext + 1 ∧ (t.fport p).rxHold = false
        ∧ t.fab.rx = s.fab.rx ++ pkts.map (fun w => ({ port := p, lane := w.lane % 8, pkt := w.pkt, time := s.now } : RxPkt))
        ∧ Output.linkWord p 1 ((s.fport p).rxNext % 4096) ∈ t.out ∧ Frame [.fab, .out, .recorder] s t))
    ∧ (15 < errs → Completes (.codewordReceive p errs link pkts) s (fun t =>
        t.fport p = { s.fport p with rxCur := ((s.fport p).rxCur + 1) % 4096, rxHold := true
                                     stats := { (s.fport p).stats with
                                       fecUncorrected := min ((s.fport p).stats.fecUncorrected + 1) (2 ^ 64 - 1) } }
        ∧ ((s.fport p).rxHold = false → Output.linkWord p 2 ((s.fport p).rxNext % 4096) ∈ t.out)
        ∧ OtherPorts p s t ∧ PortsOnly s t ∧ Frame [.fab, .out] s t))
    ∧ (errs ≤ 15 → (∃ w ∈ pkts, w.crc ≠ crc32c w.pkt.bytes) →
      (match link with | .seq n => n % 4096 | _ => (s.fport p).rxCur) = (s.fport p).rxNext % 4096 →
      (match link with | .seq _ => True | .idle => True | _ => False) →
      Completes (.codewordReceive p errs link pkts) s (fun t =>
        (t.fport p).rxNext = (s.fport p).rxNext ∧ (t.fport p).rxHold = true ∧ t.fab.rx = s.fab.rx
        ∧ ((s.fport p).rxHold = false → Output.linkWord p 2 ((s.fport p).rxNext % 4096) ∈ t.out)
        ∧ OtherPorts p s t ∧ PortsOnly s t ∧ Frame [.fab, .out] s t))

/-- On a port that is UP, an ACK of a codeword sent and not yet acknowledged frees every packet that ends at or before it and no
other. A NAK of such a codeword is counted and asks for the resend from it; once more than RetryLimit NAKs in a row name the
same codeword the port goes DOWN. Credit comes back to its lane, at most to the full amount of Table 11.7, and with nothing
waiting on the port it stays there (R267 to R269, R273). -/
def Obligations.LinkWordsFreeResendAndGiveCredit : Prop :=
  ∀ (s : State) (p : Nat), s.clocked = true → p < 24 → (s.fport p).st = .up →
    (∀ num, running (s.fport p).acked (num % 4096 + 1) ≤ (s.fport p).txFlit / 10 → Completes (.linkAck p num) s (fun t =>
      (t.fport p).acked = running (s.fport p).acked (num % 4096 + 1)
      ∧ (∀ e ∈ (t.fport p).replay, running (s.fport p).acked (num % 4096 + 1) ≤ e.cw)
      ∧ (∀ e ∈ (s.fport p).replay, running (s.fport p).acked (num % 4096 + 1) ≤ e.cw → e ∈ (t.fport p).replay)
      ∧ OtherPorts p s t ∧ Frame [.fab] s t))
    ∧ (∀ num, running (s.fport p).acked (num % 4096) < (s.fport p).txFlit / 10 →
        (running (s.fport p).acked (num % 4096) = (s.fport p).nakCw → (s.fport p).nakRun < s.dnat 0x4210 2) → 0 < s.dnat 0x4210 2 →
        Completes (.linkNak p num) s (fun t =>
      (t.fport p).nakCw = running (s.fport p).acked (num % 4096) ∧ (t.fport p).replay = (s.fport p).replay
      ∧ (t.fport p).stats.retries = min ((s.fport p).stats.retries + 1) (2 ^ 64 - 1) ∧ (t.fport p).st = .up
      ∧ Output.linkWord p 0 (running (s.fport p).acked (num % 4096) % 4096) ∈ t.out
      ∧ OtherPorts p s t ∧ PortsOnly s t ∧ Frame [.fab, .out] s t))
    ∧ (∀ num, running (s.fport p).acked (num % 4096) < (s.fport p).txFlit / 10 →
        running (s.fport p).acked (num % 4096) = (s.fport p).nakCw → 0 < (s.fport p).nakRun → s.dnat 0x4210 2 ≤ (s.fport p).nakRun →
        Completes (.linkNak p num) s (fun t => (t.fport p).st = .down ∧ (t.fport p).replay = [] ∧ Frame [.fab, .recorder] s t))
    ∧ (∀ lane flits, lane < 8 → (s.fport p).lanes = List.replicate 8 [] → (s.fport p).txFlit % 10 = 0 →
        Completes (.linkCredit p lane flits) s (fun t =>
      (t.fport p).credit = (s.fport p).credit.set lane (min (laneCredit.getD lane 0) ((s.fport p).credit.getD lane 0 + flits))
      ∧ t.fport p = { s.fport p with credit := (t.fport p).credit }
      ∧ OtherPorts p s t ∧ Frame [.fab] s t))

/-- A packet that waits at a gateway and is not held back leaves its buffer and its credit returns (R273). Of wrong class, kind or
length it is discarded and counted (R271); for the own rank it enters the local input (R279); for another rank it is queued
on, or leaves through, the live member port that R279 chooses, with its residence time added where it is a TIMESYNC packet
(R305); with no live member it waits (R280). TABLES_DRAINED loads the shadows from the active tables once everything is
empty (R281, Table 11.9). -/
def Obligations.TransitPacketsAreCheckedAndForwarded : Prop :=
  ∀ s : State, s.clocked = true →
    (∀ (p lane i : Nat) (k : Packet), p < 24 → lane < 8 → s.heldBack k = false →
      s.fab.rx.findIdx? (fun e => e.port == p && e.lane == lane && e.pkt == k) = some i →
      (k.wellFormed = false → Completes (.transitPacket p lane k) s (fun t =>
        t.fab.rx = s.fab.rx.eraseIdx i ∧ t.fab.localIn = s.fab.localIn ∧ t.fab.waiting = s.fab.waiting
        ∧ (t.fport p).stats.malformed = min ((s.fport p).stats.malformed + 1) (2 ^ 32 - 1)
        ∧ Output.linkWord p 3 (lane * 512 + k.flits) ∈ t.out ∧ Frame [.fab, .out] s t))
      ∧ (k.wellFormed = true → (bitAt 33 (nget 0 s.fab.tabs.route k.dstRank) = true ∨ (s.job.held = true ∧ k.dstRank = s.job.rank)) →
        Completes (.transitPacket p lane k) s (fun t =>
          t.fab = { s.fab with rx := s.fab.rx.eraseIdx i, localIn := s.fab.localIn
                      ++ [({ port := p, lane := lane, pkt := k, time := (s.fab.rx.map RxPkt.time).getD i 0 } : RxPkt)] }
          ∧ Output.linkWord p 3 (lane * 512 + k.flits) ∈ t.out ∧ Frame [.fab, .out] s t))
      ∧ (k.wellFormed = true → bitAt 33 (nget 0 s.fab.tabs.route k.dstRank) = false → (s.job.held = true → k.dstRank ≠ s.job.rank) →
        k.srcRank ≠ s.myRank → ∀ x, x = residence k (s.now - (s.fab.rx.map RxPkt.time).getD i 0) →
        (∀ m q up, choosePort s (nget 0 s.fab.tabs.route k.dstRank) (packetKey s x none) k.tc = some (m, q, up) →
          (s.fport q).lanes.length = 8 → Completes (.transitPacket p lane k) s (fun t =>
            (t.fport q).carries x ∧ t.fab.rx = s.fab.rx.eraseIdx i ∧ t.fab.localIn = s.fab.localIn ∧ t.fab.waiting = s.fab.waiting
            ∧ OtherPorts q s t ∧ Frame [.fab, .out] s t))
        ∧ (choosePort s (nget 0 s.fab.tabs.route k.dstRank) (packetKey s x none) k.tc = none →
          Completes (.transitPacket p lane k) s (fun t =>
            t.fab.waiting = s.fab.waiting ++ [(lane, x)] ∧ t.fab.rx = s.fab.rx.eraseIdx i ∧ t.fab.localIn = s.fab.localIn
            ∧ t.fab.ports = s.fab.ports ∧ Frame [.fab, .out, .recorder] s t))))
    ∧ (s.fab.tabSt = .draining → s.fabricEmpty = true → Completes .tablesDrained s (fun t =>
      t.fab = { s.fab with tabSt := .drained, shadow := s.fab.tabs } ∧ Frame [.fab] s t))

/-- A TT, SEND or COLL packet that its sequence space expects next and whose role epoch is the core's own lands: its bytes are in
the core's scratch at its address, its flag is set, its counter has counted one, the space goes on, and no other core
changes (R73, R80, R92, R282). Bytes of a COLL packet wait for an XCOLL that has not started (R329). A TT packet may end a
timetable transfer (R322). -/
def Obligations.TransfersFromTheFabricLand : Prop :=
  ∀ (s : State) (k : Packet), NextInSpace k s → verdict (bits 53 38 k.arg) (s.core k.dstCore).roleEpoch.toNat = .ok →
    bits 22 0 k.arg + k.payload.length ≤ 8388608 →
    (k.kind = kSEND → Completes (.sendPacket k) s (fun t =>
      t.core k.dstCore = (s.core k.dstCore).taking (bits 22 0 k.arg) k.payload (argFlag k.arg) (argCnt k.arg)
      ∧ OtherCores k.dstCore s t ∧ SpaceAdvanced k s t ∧ Frame [.cores, .fab, .recorder] s t))
    ∧ (k.kind = kTT → Completes (.ttPacket k) s (fun t =>
      t.core k.dstCore = (s.core k.dstCore).taking (bits 22 0 k.arg) k.payload (argFlag k.arg) (argCnt k.arg)
      ∧ OtherCores k.dstCore s t ∧ SpaceAdvanced k s t ∧ Frame [.cores, .fab, .tt, .recorder] s t))
    ∧ (k.kind = kCOLL → (∀ r ∈ s.coll.runs, r.core ≠ k.dstCore) → ∀ bad, Completes (.collPacket k bad) s (fun t =>
      t.core k.dstCore = (s.core k.dstCore).taking (bits 22 0 k.arg) k.payload (argFlag k.arg) (argCnt k.arg)
      ∧ OtherCores k.dstCore s t ∧ SpaceAdvanced k s t
      ∧ t.coll.inbox = s.coll.inbox ++ [⟨k.dstCore, k.srcRank, bits 22 0 k.arg, k.payload.length⟩]
      ∧ Frame [.cores, .fab, .coll, .recorder] s t))

/-- A TT, SEND or COLL packet next in its space that arrives before its role is counted EARLY at its core and answered so, and one of
a past role is counted STALE (R92, R282). One ahead in its space is held in the reorder buffer while that has room, and a
duplicate of one answered before leaves every core as it was (R282). A packet of an earlier or later attempt is discarded and
counted (R366). In none of these cases does any core's scratch, flag or counter change. -/
def Obligations.TransfersOutOfTurnAreRefusedOrHeld : Prop :=
  ∀ (s : State) (k : Packet) (i : Instr), s.clocked = true → k.wellFormed = true → k.dstRank = s.myRank →
    ((i = .sendPacket k ∧ k.kind = kSEND) ∨ (i = .ttPacket k ∧ k.kind = kTT) ∨ (i = .collPacket k false ∧ k.kind = kCOLL)) →
    (NextInSpace k s → verdict (bits 53 38 k.arg) (s.core k.dstCore).roleEpoch.toNat = .early → Completes i s (fun t =>
      t.core k.dstCore = { s.core k.dstCore with stats := { (s.core k.dstCore).stats with
                                                  early := min ((s.core k.dstCore).stats.early + 1) (2 ^ 32 - 1) } }
      ∧ OtherCores k.dstCore s t ∧ k.seq ∈ (nget {} t.fab.rxSpace (rxKey k)).early ∧ SpaceAdvanced k s t
      ∧ Frame [.cores, .fab, .recorder] s t))
    ∧ (NextInSpace k s → verdict (bits 53 38 k.arg) (s.core k.dstCore).roleEpoch.toNat = .stale → Completes i s (fun t =>
      t.core k.dstCore = { s.core k.dstCore with stats := { (s.core k.dstCore).stats with
                                                  stale := min ((s.core k.dstCore).stats.stale + 1) (2 ^ 32 - 1) } }
      ∧ OtherCores k.dstCore s t ∧ SpaceAdvanced k s t ∧ Frame [.cores, .fab, .tt, .recorder] s t))
    ∧ (s.checkPacket k = .here → 0 < (k.seq + 2 ^ 32 - (nget {} s.fab.rxSpace (rxKey k)).next % 2 ^ 32) % 2 ^ 32 →
        (k.seq + 2 ^ 32 - (nget {} s.fab.rxSpace (rxKey k)).next % 2 ^ 32) % 2 ^ 32 < 2 ^ 31 → s.fab.reorder = [] →
        Completes i s (fun t => t.fab.reorder = [(k.sgd % 2, k)] ∧ Frame [.fab] s t))
    ∧ (s.isDuplicate k = true → Completes i s (fun t => t.cores = s.cores ∧ t.mem = s.mem ∧ Frame [.fab, .recorder] s t))
    ∧ (s.checkPacket k = .older → Completes i s (fun t =>
        t.err = { s.err with stale := min (s.err.stale + 1) (2 ^ 64 - 1) } ∧ Frame [.fab, .err] s t))
    ∧ (s.checkPacket k = .newer → Completes i s (fun t =>
        t.err = { s.err with newer := min (s.err.newer + 1) (2 ^ 64 - 1) } ∧ Frame [.fab, .err] s t))

/-- An LREAD next in its space, of a line that the home may read and that is not busy, is answered with the line as memory holds it,
and no byte of memory changes (R288, R289). An LWRITE of a line that it may write stores exactly the bytes that its mask
selects, at the address in its argument, and is acknowledged; every other byte of memory is as it was (R289, R290). An
operation on a busy line waits in the line queue and stores nothing; the first one queued on a line is served as it would
have been, an LWRITE once 4 ns have passed since the last (R292, R296). A refused operation stores nothing and is counted
(R288). -/
def Obligations.TheHomeServesLines : Prop :=
  ∀ (s : State) (k : Packet),
    (NextInSpace k s → k.kind = kLREAD → s.homeOk (bits 40 0 k.arg) false = true → s.lineBusy k = false → Completes (.lreadPacket k false) s (fun t =>
      { k with kind := kLRESP, arg := 0, payload := s.load (bits 40 0 k.arg) 128 } ∈ (nget {} t.fab.rxSpace (rxKey k)).answers
      ∧ SpaceAdvanced k s t ∧ Frame [.fab, .hbm, .recorder] s t))
    ∧ (NextInSpace k s → k.kind = kLWRITE → k.dstCore ≠ 0x3FF → s.homeOk (bits 40 0 k.arg) true = true → s.lineBusy k = false →
      Completes (.lwritePacket k) s (fun t =>
        (∀ i, i < 128 → readByte t.mem (bits 40 0 k.arg + i) = if bitAt i (fieldAt k.payload 0 16) then k.payload.getD (16 + i) 0
                                                              else readByte s.mem (bits 40 0 k.arg + i))
        ∧ (∀ a, a < bits 40 0 k.arg ∨ bits 40 0 k.arg + 128 ≤ a → readByte t.mem a = readByte s.mem a)
        ∧ { k with kind := kACK, arg := 0, payload := [] } ∈ (nget {} t.fab.rxSpace (rxKey k)).answers
        ∧ SpaceAdvanced k s t ∧ Frame [.mem, .harts, .fab, .hbm, .recorder] s t))
    ∧ (NextInSpace k s → k.kind = kLWRITE → k.dstCore ≠ 0x3FF → s.homeOk (bits 40 0 k.arg) true = true → s.lineBusy k = true →
      Completes (.lwritePacket k) s (fun t =>
        t.fab.lineQ = s.fab.lineQ ++ [⟨k⟩] ∧ t.canopy.hotWrites = min (s.canopy.hotWrites + 1) (2 ^ 64 - 1)
        ∧ SpaceAdvanced k s t ∧ Frame [.fab, .canopy, .recorder] s t))
    ∧ (NextInSpace k s → k.kind = kLREAD → s.homeOk (bits 40 0 k.arg) false = false → Completes (.lreadPacket k false) s (fun t =>
        t.canopy.refusals = min (s.canopy.refusals + 1) (2 ^ 32 - 1) ∧ t.mem = s.mem))
    ∧ (s.clocked = true → ∀ line rest, s.fab.lineQ = ⟨k⟩ :: rest → lineOf k = line → k.kind = kLWRITE → k.payload.length = 144 →
        (nget 0 s.fab.lineLast line = 0 ∨ nget 0 s.fab.lineLast line - 1 + 1024 ≤ s.now) →
      Completes (.lineQueueApply line) s (fun t =>
        t.fab.lineQ = rest
        ∧ (∀ i, i < 128 → readByte t.mem (bits 40 0 k.arg + i) = if bitAt i (fieldAt k.payload 0 16) then k.payload.getD (16 + i) 0
                                                              else readByte s.mem (bits 40 0 k.arg + i))
        ∧ (∀ a, a < bits 40 0 k.arg ∨ bits 40 0 k.arg + 128 ≤ a → readByte t.mem a = readByte s.mem a)
        ∧ Frame [.mem, .harts, .fab, .hbm, .recorder] s t))
    ∧ (s.clocked = true → ∀ line rest, s.fab.lineQ = ⟨k⟩ :: rest → lineOf k = line → k.kind = kLREAD →
      Completes (.lineQueueApply line) s (fun t =>
        t.fab.lineQ = rest ∧ { k with kind := kLRESP, arg := 0, payload := s.load (bits 40 0 k.arg) 128 } ∈ (nget {} t.fab.rxSpace (rxKey k)).answers
        ∧ Frame [.fab, .hbm, .recorder] s t))

/-- An ACK or LRESP of the package's attempt that answers an entry of its trackers frees that entry (R283) and completes what it
serves: one LWRITE less of a hart is unacknowledged (R295); one line less of the drain (R382); a PUT with its last LWRITE
counts and another PUT has one less to wait for (R166); the SEND at the head of an exchange queue retires with its last
answer (R167); a line comes to the hart load that asked for it (R183); the bytes of a line that a GET reads are in scratch
(R166). An answer to no entry changes nothing but the gateway's buffer, and one of another attempt is counted (R366). -/
def Obligations.AnswersFreeTheirEntry : Prop :=
  ∀ (s : State) (k : Packet), s.clocked = true → k.wellFormed = true → k.dstRank = s.myRank →
    s.checkEpoch ⟨k.job, k.attempt, k.step⟩ = .here →
    (∀ x, s.fab.track.find? (answers k) = some x →
      (k.kind = kACK → (x.owner = .none ∨ x.owner = .restore ∨ x.owner = .record ∨ ∃ e, x.owner = .tt e) →
        Completes (.ackPacket k) s (fun t => t.fab.track = s.fab.track.erase x ∧ t.fab.unacked = s.fab.unacked ∧ Frame [.fab] s t))
      ∧ (k.kind = kACK → ∀ h, x.owner = .hartStore h → Completes (.ackPacket k) s (fun t =>
        t.fab.track = s.fab.track.erase x ∧ nget 0 t.fab.unacked (hartKey h) = nget 0 s.fab.unacked (hartKey h) - 1
        ∧ (∀ c, c ≠ hartKey h → nget 0 t.fab.unacked c = nget 0 s.fab.unacked c) ∧ Frame [.fab] s t))
      ∧ (k.kind = kACK → x.owner = .drain → ∀ d, s.ckpt.drain = some d → Completes (.ackPacket k) s (fun t =>
        t.fab.track = s.fab.track.erase x ∧ t.ckpt = { s.ckpt with drain := some { d with unacked := d.unacked - 1 } }
        ∧ Frame [.fab, .ckpt] s t))
      ∧ (k.kind = kACK → ∀ c op n f, x.owner = .put c op → n ≤ 1 →
        s.fab.puts.find? (fun p => p.1 == c && p.2.1 == op) = some (c, op, n, f) → Completes (.ackPacket k) s (fun t =>
          t.fab.track = s.fab.track.erase x ∧ nget 0 t.fab.unacked c = nget 0 s.fab.unacked c - 1
          ∧ (t.core c).ctr = (match f with | some i => (s.core c).ctr.setIfInBounds i ((s.core c).ctr.toList.getD i 0 + 1) | none => (s.core c).ctr)
          ∧ (∀ p ∈ t.fab.puts, ¬ (p.1 = c ∧ p.2.1 = op)) ∧ OtherCores c s t ∧ Frame [.fab, .cores] s t))
      ∧ (k.kind = kACK → ∀ c q rest, x.owner = .xe c → x.pkt.kind ≠ kLREAD → (s.core c).seq = .run → (s.core c).qXe = q :: rest →
        q.op = 0x50 → (s.exchOf q).op ≠ 2 → q.prog = .issued 1 → q.todo = 0 → Completes (.ackPacket k) s (fun t =>
          t.fab.track = s.fab.track.erase x ∧ t.core c = { s.core c with qXe := rest } ∧ OtherCores c s t ∧ Frame [.fab, .cores] s t))
      ∧ (k.kind = kLRESP → ∀ h, x.owner = .hartLoad h → Completes (.lrespPacket k) s (fun t =>
        t.fab.track = s.fab.track.erase x
        ∧ t.hart h = { s.hart h with want := (s.hart h).want.filter (fun a => a != x.pkt.arg), buf := (s.hart h).buf ++ [(x.pkt.arg, k.payload)] }
        ∧ OtherHarts h s t ∧ Frame [.fab, .harts] s t))
      ∧ (k.kind = kLRESP → ∀ c q rest n, x.owner = .xe c → x.pkt.kind = kLREAD → (s.core c).qXe = q :: rest →
        q.op = 0x50 → q.prog = .issued n → 1 < n → ∀ e, e = s.exchOf q → Completes (.lrespPacket k) s (fun t =>
          t.fab.track = s.fab.track.erase x
          ∧ (t.core c).scratch = writeBytes (s.core c).scratch (sAddr (e.saddr + (max (s.exchAddr e) x.pkt.arg - s.exchAddr e)))
              (slice k.payload (max (s.exchAddr e) x.pkt.arg - x.pkt.arg)
                (min (s.exchAddr e + e.len) (x.pkt.arg + 128) - max (s.exchAddr e) x.pkt.arg))
          ∧ (t.core c).qXe = { q with prog := .issued (n - 1) } :: rest ∧ OtherCores c s t ∧ Frame [.fab, .cores] s t)))
    ∧ (s.fab.track.find? (answers k) = none → (k.kind = kACK → Completes (.ackPacket k) s (fun t => t.fab.track = s.fab.track ∧ Frame [.fab] s t))
        ∧ (k.kind = kLRESP → Completes (.lrespPacket k) s (fun t => t.fab.track = s.fab.track ∧ Frame [.fab] s t)))

/-- An EARLY NACK below RoleNackLimit makes its transfer due for a reissue, on a die and over the fabric; at the limit the step
fails. A reissue sends the transfer again unchanged, one try more counted. A STALE NACK retires the transfer as if it had
been delivered: over the fabric its tracker entry is freed, on a die it waits no longer (R93, R94). -/
def Obligations.RoleNacksAreReissuedOrRetired : Prop :=
  ∀ s : State, s.clocked = true →
    (∀ i n, s.nacks.findIdx? (fun n => n.stale == false) = some i → s.nacks[i]? = some n → n.transfer.tries < s.dnat 0x5010 2 →
      Completes (.roleNackEarly .die) s (fun t => t.nacks = s.nacks.eraseIdx i ∧ t.reissues = s.reissues ++ [n]
        ∧ Frame [.nacks, .reissues, .stations] s t))
    ∧ (StepMayFail s → ∀ i n, s.nacks.findIdx? (fun n => n.stale == false) = some i → s.nacks[i]? = some n → s.dnat 0x5010 2 ≤ n.transfer.tries →
      Completes (.roleNackEarly .die) s (fun t => t.nacks = s.nacks.eraseIdx i ∧ t.err.stepFailed = true
        ∧ Frame [.nacks, .stations, .err, .recorder] s t))
    ∧ (∀ k x, k.kind = kNACK → k.wellFormed = true → k.dstRank = s.myRank → s.checkEpoch ⟨k.job, k.attempt, k.step⟩ = .here →
      s.fab.track.find? (answers k) = some x →
      (bitAt 16 k.arg = false → x.early < s.dnat 0x5010 2 → Completes (.roleNackEarly (.fabric k)) s (fun t =>
        t.fab.track = s.fab.track.map (fun u => if u = x then { u with due := true } else u) ∧ Frame [.fab] s t))
      ∧ (bitAt 16 k.arg = true → (∃ e, x.owner = .tt e) → Completes (.roleNackStale (.fabric k)) s (fun t =>
        t.fab.track = s.fab.track.erase x ∧ Frame [.fab, .recorder] s t)))
    ∧ (∀ i n, s.nacks.findIdx? (fun n => n.stale == true) = some i → s.nacks[i]? = some n → n.transfer.sender = .none →
      Completes (.roleNackStale .die) s (fun t => t.nacks = s.nacks.eraseIdx i ∧ Frame [.nacks, .recorder] s t))
    ∧ (∀ i n c q rest, s.nacks.findIdx? (fun n => n.stale == true) = some i → s.nacks[i]? = some n → n.transfer.sender = .core c →
      (s.core c).seq = .run → (s.core c).qDm = q :: rest → q.prog = .issued 1 → q.todo = 0 →
      Completes (.roleNackStale .die) s (fun t => t.nacks = s.nacks.eraseIdx i ∧ t.core c = { s.core c with qDm := rest }
        ∧ OtherCores c s t ∧ Frame [.nacks, .recorder, .cores] s t))
    ∧ (∀ n rest, s.reissues = n :: rest → (s.core n.target).ingress.length < 32 → Completes (.earlyReissue .die) s (fun t =>
      t.reissues = rest
      ∧ t.core n.target = { s.core n.target with ingress := (s.core n.target).ingress ++ [{ n.transfer with tries := n.transfer.tries + 1 }] }
      ∧ OtherCores n.target s t ∧ Frame [.reissues, .cores] s t))
    ∧ (∀ i x, s.fab.track[i]? = some x → x.due = true → Completes (.earlyReissue (.fabric i)) s (fun t =>
      (∃ y, t.fab.track[i]? = some y ∧ y.pkt = x.pkt ∧ y.due = false ∧ y.early = x.early + 1 ∧ y.owner = x.owner)
      ∧ Frame [.fab, .recorder] s t))

/-- A KEEPALIVE sets how far its space is known at the home, for that space alone; an operation that goes unanswered at the home
makes it send one, counted (R298). An unacknowledged packet that no KEEPALIVE covers is sent again with its sequence number
and counted as a reissue of its die (R283). Silence from a rank that the package waits for is counted with its entries,
names the rank as the dead target and strikes the job (R299, R300). -/
def Obligations.UnansweredPacketsAreKeptAliveReissuedOrReported : Prop :=
  ∀ s : State, s.clocked = true →
    (∀ k, k.kind = kKEEP → k.wellFormed = true → k.dstRank = s.myRank → s.checkEpoch ⟨k.job, k.attempt, k.step⟩ = .here →
      Completes (.keepalivePacket k) s (fun t =>
        nget 0 t.fab.keepSeq (spaceKey k.srcRank (bits 33 33 k.arg) (bits 32 32 k.arg)) = k.seq + 1
        ∧ (∀ key, key ≠ spaceKey k.srcRank (bits 33 33 k.arg) (bits 32 32 k.arg) → nget 0 t.fab.keepSeq key = nget 0 s.fab.keepSeq key)
        ∧ t.fab.track = s.fab.track ∧ Frame [.fab] s t))
    ∧ (∀ i k, s.fab.unanswered[i]? = some k → Completes (.keepaliveTimer i) s (fun t =>
      t.canopy = { s.canopy with keepalives := min (s.canopy.keepalives + 1) (2 ^ 64 - 1) }
      ∧ t.fab.unanswered = s.fab.unanswered ∧ Frame [.canopy, .fab, .recorder] s t))
    ∧ (∀ i x, s.fab.track[i]? = some x → s.keptAlive x = false → x.gd < s.fab.trackStats.length → Completes (.reissueTimer i) s (fun t =>
      (t.fab.trackStats.getD x.gd {}).reissues = min ((s.fab.trackStats.getD x.gd {}).reissues + 1) (2 ^ 64 - 1)
      ∧ (∃ y, t.fab.track[i]? = some y ∧ y.pkt = x.pkt ∧ y.owner = x.owner ∧ y.early = x.early) ∧ Frame [.fab, .recorder] s t))
    ∧ (MayBeStruck s → ∀ rank, 0 < (s.fab.track.filter (fun x => x.pkt.dstRank == rank)).length → Completes (.requestTimeout rank) s (fun t =>
      t.canopy = { s.canopy with deadTarget := rank
                                 timeouts := min (s.canopy.timeouts + (s.fab.track.filter (fun x => x.pkt.dstRank == rank)).length) (2 ^ 32 - 1) }
      ∧ Struck 3 s t ∧ Frame (.canopy :: strikeParts) s t))

/-- A parent answers a REQ at once with the times of Table 13.1 (R305). A child that runs begins to monitor at each check interval
(R309); each interval sends the next of 64 REQs, and one without a RESP is sent again (R306). A RESP is recorded with its
index; the last one ends the measurement with the offset and delay of R306: a monitor within 250 ns changes nothing else,
one within 1 us slews Ridgepole by it, one within 3 us counts a drift as well, and beyond that Ridgepole is LOST, which
strikes the job (Table 13.3). Ridgepole's count itself steps in none of these cases. -/
def Obligations.RidgepoleIsMeasuredAndCorrected : Prop :=
  ∀ s : State, s.clocked = true →
    (∀ k, s.isMine k kTSYNC = true → bits 7 0 k.arg = 1 → Completes (.timesyncReq k) s (fun t =>
      t.fab = (((s.takeLocal k).1).ctl kTSYNC (2 + bits 15 8 k.arg * 2 ^ 8) k.srcRank s.epoch
        (k.payload.take 8 ++ leBytes 8 s.now ++ leBytes 8 s.now ++ leBytes 4 (bits 47 16 k.arg) ++ zeros 4)).fab
      ∧ Frame [.fab, .recorder] s t))
    ∧ ((s.pitch.st = .running ∨ s.pitch.st = .quiesced) → s.job.rank ≠ 0 → s.rp.st = .locked → s.rp.measure = none →
      Completes .ridgepoleCheck s (fun t =>
        t.rp = { s.rp with parent := some (parentOf s.job.rank), measure := some { use := .monitor } } ∧ Frame [.rp] s t))
    ∧ (∀ m, s.rp.measure = some m → m.next < 64 → Completes .timesyncInterval s (fun t =>
      t.rp = { s.rp with measure := some { m with next := m.next + 1, waiting := m.waiting ++ [m.next] } }
      ∧ t.fab = (s.ctl kTSYNC (1 + m.next * 2 ^ 8) (parentOf s.job.rank) s.epoch (leBytes 8 s.now ++ zeros 24)).fab
      ∧ Frame [.rp, .fab, .recorder] s t))
    ∧ (∀ m i rest, s.rp.measure = some m → m.waiting = i :: rest → (m.use = .monitor → m.missed + 1 < 64) →
      Completes .timesyncNoResp s (fun t =>
        t.rp = { s.rp with measure := some { m with waiting := rest ++ [i], missed := m.missed + 1 } }
        ∧ t.fab = (s.ctl kTSYNC (1 + i * 2 ^ 8) (parentOf s.job.rank) s.epoch (leBytes 8 s.now ++ zeros 24)).fab
        ∧ Frame [.rp, .fab, .recorder] s t))
    ∧ (∀ m, s.rp.measure = some m → m.waiting ≠ [] → m.use = .monitor → 64 ≤ m.missed + 1 → MayBeStruck s →
      Completes .timesyncNoResp s (fun t => t.rp.measure = none ∧ Struck 3 s t))
    ∧ (∀ k m x, s.rp.measure = some m → s.isMine k kTSYNC = true → bits 7 0 k.arg = 2 → k.srcRank = parentOf s.job.rank →
        bits 15 8 k.arg ∈ m.waiting →
        x = ⟨fieldAt k.payload 0 8, fieldAt k.payload 8 8, fieldAt k.payload 16 8, s.now % 2 ^ 64, fieldAt k.payload 24 4, bits 47 16 k.arg⟩ →
      (m.done.length ≠ 63 → Completes (.timesyncResp k) s (fun t =>
        t.rp = { s.rp with measure := some { m with waiting := m.waiting.erase (bits 15 8 k.arg),
                                                    done := m.done ++ [(bits 15 8 k.arg, x)], missed := 0 } }
        ∧ Frame [.rp, .fab] s t))
      ∧ (m.done.length = 63 → m.use = .monitor → ∀ o, o = rpOffset (m.done.map Prod.snd ++ [x]) → o.1.natAbs ≤ 64 →
        Completes (.timesyncResp k) s (fun t =>
          t.rp = { s.rp with offset := o.1, delay := o.2, measure := none } ∧ Frame [.rp, .fab] s t))
      ∧ (m.done.length = 63 → m.use = .monitor → ∀ o, o = rpOffset (m.done.map Prod.snd ++ [x]) → 64 < o.1.natAbs → o.1.natAbs ≤ 256 →
        Completes (.timesyncResp k) s (fun t =>
          t.rp = { s.rp with offset := o.1, delay := o.2, measure := none, slew := o.1, slewPhase := 0 } ∧ Frame [.rp, .fab] s t))
      ∧ (m.done.length = 63 → m.use = .monitor → ∀ o, o = rpOffset (m.done.map Prod.snd ++ [x]) → 256 < o.1.natAbs → o.1.natAbs ≤ 768 →
        Completes (.timesyncResp k) s (fun t =>
          t.rp = { s.rp with offset := o.1, delay := o.2, measure := none, slew := o.1, slewPhase := 0,
                             drifts := min (s.rp.drifts + 1) (2 ^ 32 - 1) }
          ∧ Frame [.rp, .fab, .recorder] s t))
      ∧ (m.done.length = 63 → m.use = .monitor → 768 < (rpOffset (m.done.map Prod.snd ++ [x])).1.natAbs → MayBeStruck s →
        Completes (.timesyncResp k) s (fun t => t.rp.now = s.rp.now ∧ Struck 3 s t)))

/-- On a package other than rank 0 whose step runs: at its own clean step end with every child's clean arrival in, it sends its
clean arrival to its parent, and a failed step end sends a failed arrival at once (R20, R311, R312). A clean arrival of a child
is kept while the package's own step end is open; the last one that was missing sends the clean arrival up, with the
gathered bit (R365). A failed arrival of the running step goes up at once. An arrival of another job is discarded and
counted (R316). -/
def Obligations.GuylineGathersArrivals : Prop :=
  ∀ s : State, s.clocked = true → s.pitch.st = .running → s.job.held = true → s.job.rank ≠ 0 → s.job.stepRunning = true →
    s.guy.restored = false → s.decidedStep = false → s.guy.sentClean = false → s.guy.sentFailed = false →
    (∀ a ∈ s.tagged s.job.attempt s.job.step, a.clean = true) →
    (s.guy.ownEnd = none → s.stepDone = true → s.err.stepFailed = false →
      (∀ c ∈ s.children, ∃ a ∈ s.tagged s.job.attempt s.job.step, a.child = c) → Completes .packageStepEnd s (fun t =>
        t.guy = { s.guy with ownEnd := some true, sentClean := true }
        ∧ t.fab = (s.sendGuy 1 0 (s.gatheredBit (s.tagged s.job.attempt s.job.step)) (parentOf s.job.rank) s.epoch []).fab
        ∧ Frame [.guy, .fab, .recorder, .snaps] s t))
    ∧ (s.guy.ownEnd = none → s.stepDone = true → s.err.stepFailed = false →
      (∃ c ∈ s.children, ∀ a ∈ s.tagged s.job.attempt s.job.step, a.child ≠ c) → Completes .packageStepEnd s (fun t =>
        t.guy = { s.guy with ownEnd := some true } ∧ Frame [.guy, .snaps] s t))
    ∧ (s.guy.ownEnd = none → s.err.stepFailed = true → Completes .packageStepEnd s (fun t =>
        t.guy = { s.guy with ownEnd := some false, sentFailed := true }
        ∧ t.fab = (s.sendGuy 2 0 (s.gatheredBit (s.tagged s.job.attempt s.job.step)) (parentOf s.job.rank) s.epoch []).fab
        ∧ Frame [.guy, .fab, .recorder, .snaps] s t))
    ∧ (∀ k : Packet, s.isMine k kGUY = true → k.job = s.job.id → k.srcRank ∈ s.children → k.attempt = s.job.attempt → k.step = s.job.step →
      (bits 7 0 k.arg = 1 → s.guy.ownEnd = none → Completes (.arriveClean k) s (fun t =>
        t.guy = { s.guy with arrivals := s.guy.arrivals ++ [⟨k.srcRank, k.attempt, k.step, true, bitAt 16 k.arg⟩], lastArrival := s.ns }
        ∧ Frame [.guy, .fab] s t))
      ∧ (bits 7 0 k.arg = 1 → s.guy.ownEnd = some true →
        (∀ c ∈ s.children, c = k.srcRank ∨ ∃ a ∈ s.tagged s.job.attempt s.job.step, a.child = c) → Completes (.arriveClean k) s (fun t =>
          t.guy.sentClean = true ∧ t.guy.lastArrival = s.ns
          ∧ t.fab = (((s.takeLocal k).1).sendGuy 1 0 (s.gatheredBit (s.tagged s.job.attempt s.job.step) || bitAt 16 k.arg)
              (parentOf s.job.rank) s.epoch []).fab
          ∧ Frame [.guy, .fab, .recorder] s t))
      ∧ (bits 7 0 k.arg = 2 → s.guy.ownEnd ≠ some false → Completes (.arriveFailed k) s (fun t =>
          t.guy.sentFailed = true ∧ t.guy.sentClean = false
          ∧ t.fab = (((s.takeLocal k).1).sendGuy 2 0 (s.gatheredBit (s.tagged s.job.attempt s.job.step) || bitAt 16 k.arg)
              (parentOf s.job.rank) s.epoch []).fab
          ∧ Frame [.guy, .fab, .recorder] s t)))
    ∧ (∀ k : Packet, s.isMine k kGUY = true → k.job ≠ s.job.id → bits 7 0 k.arg = 1 → Completes (.arriveClean k) s (fun t =>
        t.guy = { s.guy with discards := min (s.guy.discards + 1) (2 ^ 32 - 1) } ∧ Frame [.guy, .fab] s t))

/-- On rank 0 a failed arrival of a running step abandons it where replay is allowed: the attempt goes up by one, no step runs,
everything of the attempt is dropped and the flysheet's step is what comes back (R363 to R365, Table 16.5); where StepReplay
is off it strikes the job (Table 16.6). An ABANDON from the parent with a higher attempt does the same on any other package;
one of an attempt not above the own changes nothing (R364, R365). A child whose arrival stays missing after the package's own
step end strikes the job (R318). -/
def Obligations.TheRootReplaysOrStrikes : Prop :=
  ∀ s : State, s.clocked = true → s.job.held = true →
    (∀ k : Packet, s.isMine k kGUY = true → bits 7 0 k.arg = 2 → k.job = s.job.id → k.srcRank ∈ s.children → k.attempt = s.job.attempt →
        k.step = s.job.step → s.job.rank = 0 → s.job.stepRunning = true → s.guy.restored = false → s.guy.sentFailed = false → s.decidedStep = false →
        s.err.replayTo = none → s.job.attempt < 255 → s.ckpt.flyStep ≠ 0xFFFFFFFFFFFFFFFF →
      (s.dnat 0x9810 1 = 1 → Completes (.arriveFailed k) s (fun t => Abandoned (s.job.attempt + 1) s.job.step s.ckpt.flyStep s t))
      ∧ (s.dnat 0x9810 1 ≠ 1 → MayBeStruck s → Completes (.arriveFailed k) s (fun t => Struck 3 s t)))
    ∧ (∀ k : Packet, s.isMine k kGUY = true → bits 7 0 k.arg = 4 → k.job = s.job.id → k.srcRank = parentOf s.job.rank → s.job.rank ≠ 0 →
      (s.job.attempt < k.attempt → Completes (.abandon k) s (fun t => Abandoned k.attempt k.step (fieldAt k.payload 0 8) s t))
      ∧ (k.attempt ≤ s.job.attempt → Completes (.abandon k) s (fun t => Frame [.fab] s t)))
    ∧ (∀ c, s.job.stepRunning = true → s.guy.ownEnd ≠ none → c ∈ s.children → s.decidedStep = false → MayBeStruck s →
        (∀ a ∈ s.tagged s.job.attempt s.job.step, a.child ≠ c) →
      Completes (.guylineChildTimeout c) s (fun t => Struck 3 s t ∧ Frame strikeParts s t))

/-- A RELEASE of the parent for the step after the one that runs, after the package's clean arrival, is held with its T (R26, R313,
R315); one of another attempt changes nothing. From 2 us before T an idle package runs at the point that was announced
(R317). At T the step runs: every core with an entry role starts at position 0 with its counters, flags, role epoch and
REPEATs zero, its latch empty and its scratch as it was; every enabled hart runs from its entry address; the hold is over
(R67, R69, R73, R178, R315). A timetable entry that is due sends packets of its transfer in order, one tracker entry each, and
waits for the rest; with all sent it waits no longer (R319). -/
def Obligations.AReleaseIsHeldAndStartsItsStep : Prop :=
  ∀ s : State, s.clocked = true →
    (∀ k : Packet, s.isMine k kGUY = true → bits 7 0 k.arg = 3 → s.job.held = true → k.job = s.job.id → k.srcRank = parentOf s.job.rank → s.job.rank ≠ 0 →
        s.job.stepRunning = true → s.pitch.st = .running → s.guy.sentClean = true → s.guy.held = none →
      (k.attempt = s.job.attempt → k.step = s.job.step + 1 → Completes (.release k) s (fun t =>
        t.guy.held = some ⟨k.step, k.attempt, fieldAt k.payload 0 8, bits 15 8 k.arg,
          if fieldAt k.payload 0 8 < s.nsUp then tenNs s.nsUp else fieldAt k.payload 0 8, decide (fieldAt k.payload 0 8 < s.nsUp)⟩
        ∧ t.guy.commit ≠ .none ∧ t.job.step = s.job.step ∧ t.cores = s.cores))
      ∧ (k.attempt ≠ s.job.attempt → Completes (.release k) s (fun t => Frame [.fab] s t)))
    ∧ (∀ o r, s.power.next = some o → s.guy.held = some r → (s.guy.commit = .none ∨ ∃ q, s.guy.commit = .done q) →
        256 * r.t ≤ s.now + 512000 → s.power.volt ≤ max o (max s.power.thermalCap s.power.powerCap) →
      Completes .oppointSwitch s (fun t => t.power.job = some o ∧ t.power.next = none ∧ t.power.thermalCap = s.power.thermalCap
        ∧ t.power.powerCap = s.power.powerCap ∧ Frame [.power] s t))
    ∧ (∀ r, s.guy.held = some r → (s.guy.commit = .none ∨ ∃ q, s.guy.commit = .done q) → s.power.next = none → 256 * r.at_ ≤ s.now →
        s.dict.pend = [] → s.fab.reorder = [] → Completes .releaseAtT s (fun t =>
      t.job.step = r.step ∧ t.job.relT = r.t ∧ t.job.stepRunning = true ∧ t.pitch.st = .running ∧ t.guy.held = none ∧ t.guy.ownEnd = none
      ∧ (∀ c, (t.core c).scratch = (s.core c).scratch ∧ (t.core c).qMe = (s.core c).qMe ∧ (t.core c).roleEpoch = 0
          ∧ (t.core c).flags = 0 ∧ (∀ i, (t.core c).ctr.toList.getD i 0 = 0) ∧ (t.core c).latch = [] ∧ (t.core c).pos = 0 ∧ (t.core c).reps = []
          ∧ ((s.core c).entry.isSome = true → (t.core c).seq = .run))
      ∧ (∀ h, h < 128 → (t.hart h).st = if s.hartEnabled h then .running else .off)
      ∧ (∀ h, h < 128 → s.hartEnabled h = true → (t.hart h).pc = BitVec.ofNat 64 (s.copyBase (s.dnat 0x6010 1) 0 + s.dnat 0x6010 2))
      ∧ t.mem = s.mem ∧ t.outputs = s.outputs ∧ t.ckpt = s.ckpt))
    ∧ (∀ e w x, s.tt.waiting.find? (fun w => w.entry == e) = some w → s.ttEntry e = some x → s.ttDue w = true → s.ttBefore e x = false →
      Completes (.timetableFire e) s (fun t => ∃ n, w.sent ≤ n ∧ t.fab.track.length = s.fab.track.length + (n - w.sent)
        ∧ (ceilDiv x.len 256 ≤ n → ∀ v ∈ t.tt.waiting, v.entry ≠ e) ∧ (n < ceilDiv x.len 256 → { w with sent := n } ∈ t.tt.waiting)
        ∧ Frame [.tt, .fab, .recorder] s t))

/-- A WAIT whose comparator is true on every member of its gang passes at once; where it is not, the core that reached it holds on
that comparator and goes on once it is true on all (R71, R72, R84). WAITFLAG does the same on an arrival flag, which it
clears as it passes where its clear bit says so (R73). Passing moves each member one position on; nothing else of any core or
of the package changes. -/
def Obligations.WaitsHoldUntilTheyAreTrue : Prop :=
  ∀ (s : State) (c : Nat), s.clocked = true → c < 256 →
    ((∀ d ∈ s.gangOf c, ∃ w, (s.core d).at? 0x02 = some w ∧ (s.core d).compare (bits 9 8 w) = true) → Completes (.wait c) s (fun t =>
      GangOnly c (fun k => { k with seq := .run, pos := k.pos + 1 }) s t ∧ Frame [.cores] s t))
    ∧ (∀ w, (s.core c).at? 0x02 = some w → (∃ d ∈ s.gangOf c, waitDone (s.core d) = none) → Completes (.wait c) s (fun t =>
      t.core c = { s.core c with seq := .waiting (bits 9 8 w) } ∧ OtherCores c s t ∧ Frame [.cores] s t))
    ∧ ((∀ d ∈ s.gangOf c, ∃ k, (s.core d).seq = .waiting k ∧ (s.core d).compare k = true) → Completes (.waitComplete c) s (fun t =>
      GangOnly c (fun k => { k with seq := .run, pos := k.pos + 1 }) s t ∧ Frame [.cores] s t))
    ∧ (∀ f cl, (∀ d ∈ s.gangOf c, (s.core d).flags.getLsbD f = true
          ∧ ((s.core d).seq = .waitFlag f cl ∨ ∃ w, (s.core d).at? 0x03 = some w ∧ bits 17 8 w = f ∧ bitAt 18 w = cl)) →
        (((s.core c).isAt 0x03 = true → Completes (.waitflag c) s (fun t =>
          GangOnly c (fun k => { k with seq := .run, pos := k.pos + 1, flags := if cl then k.flags &&& ~~~(1#1024 <<< f) else k.flags }) s t
          ∧ Frame [.cores] s t))
        ∧ ((s.core c).seq = .waitFlag f cl → Completes (.waitflagComplete c) s (fun t =>
          GangOnly c (fun k => { k with seq := .run, pos := k.pos + 1, flags := if cl then k.flags &&& ~~~(1#1024 <<< f) else k.flags }) s t
          ∧ Frame [.cores] s t))))
    ∧ (∀ w, (s.core c).at? 0x03 = some w → (s.core c).flags.getLsbD (bits 17 8 w) = false → Completes (.waitflag c) s (fun t =>
      t.core c = { s.core c with seq := .waitFlag (bits 17 8 w) (bitAt 18 w) } ∧ OtherCores c s t ∧ Frame [.cores] s t))

/-- At their word, TSET sets counter D to IMM, TADD adds IMM to it and TMOV sets it to counter S plus IMM, all modulo 2^32, and TCMP
sets comparator K, on every member of the gang, which goes one position on (R71, R84, R161). A SIGNAL at the head of an engine
queue leaves the queue and adds its amount to its counter on that core alone (R69). A REPEAT reached for the first time with
count n > 1, or again with jumps left, goes to its target; else it is used up and the next position follows (R156). -/
def Obligations.TheTallyUnitCounts : Prop :=
  ∀ (s : State) (c w : Nat), s.clocked = true → c < 256 →
    ((∀ d ∈ s.gangOf c, (s.core d).at? 0x10 = some w) → Completes (.tset c) s (fun t =>
      GangOnly c (fun k => { k with pos := k.pos + 1, ctr := k.ctr.setIfInBounds (bits 10 8 w) (BitVec.ofNat 32 (bits 63 32 w)) }) s t ∧ Frame [.cores] s t))
    ∧ ((∀ d ∈ s.gangOf c, (s.core d).at? 0x11 = some w) → Completes (.tadd c) s (fun t =>
      GangOnly c (fun k => { k with pos := k.pos + 1, ctr := k.ctr.setIfInBounds (bits 10 8 w) (k.ctr.toList.getD (bits 10 8 w) 0 + BitVec.ofNat 32 (bits 63 32 w)) }) s t ∧ Frame [.cores] s t))
    ∧ ((∀ d ∈ s.gangOf c, (s.core d).at? 0x12 = some w) → Completes (.tmov c) s (fun t =>
      GangOnly c (fun k => { k with pos := k.pos + 1, ctr := k.ctr.setIfInBounds (bits 10 8 w) (k.ctr.toList.getD (bits 14 12 w) 0 + BitVec.ofNat 32 (bits 63 32 w)) }) s t ∧ Frame [.cores] s t))
    ∧ ((∀ d ∈ s.gangOf c, (s.core d).at? 0x13 = some w) → Completes (.tcmp c) s (fun t =>
      GangOnly c (fun k => { k with pos := k.pos + 1, cmp := k.cmp.setIfInBounds (bits 9 8 w) ⟨bits 13 10 w, bitAt 14 w, bits 18 16 w, bits 63 32 w, bits 22 20 w⟩ }) s t ∧ Frame [.cores] s t))
    ∧ (∀ e q rest, (s.core c).seq = .run → (s.core c).queue e = q :: rest → q.word = w → bits 7 0 w = 0x01 → Completes (.signal c e) s (fun t =>
      (t.core c).queue e = rest
      ∧ (t.core c).ctr = (s.core c).ctr.setIfInBounds (bits 18 16 w) ((s.core c).ctr.toList.getD (bits 18 16 w) 0 + BitVec.ofNat 32 (bits 63 32 w))
      ∧ (t.core c).flags = (s.core c).flags ∧ (t.core c).scratch = (s.core c).scratch ∧ (t.core c).seq = .run
      ∧ (∀ f, f ≠ e → (t.core c).queue f = (s.core c).queue f) ∧ OtherCores c s t ∧ Frame [.cores] s t))
    ∧ ((∀ d ∈ s.gangOf c, (s.core d).at? 0x04 = some w) → Completes (.repeat_ c) s (fun t =>
      (∀ d ∈ s.gangOf c, (nget 0 (s.core d).reps (s.core d).pos = 0 → 1 < bits 47 32 w →
          (t.core d).pos = bits 20 8 w ∧ nget 0 (t.core d).reps (s.core d).pos = bits 47 32 w - 1)
        ∧ (nget 0 (s.core d).reps (s.core d).pos = 0 → bits 47 32 w ≤ 1 → (t.core d).pos = (s.core d).pos + 1)
        ∧ (1 < nget 0 (s.core d).reps (s.core d).pos →
          (t.core d).pos = bits 20 8 w ∧ nget 0 (t.core d).reps (s.core d).pos = nget 0 (s.core d).reps (s.core d).pos - 1)
        ∧ (nget 0 (s.core d).reps (s.core d).pos = 1 → (t.core d).pos = (s.core d).pos + 1 ∧ nget 0 (t.core d).reps (s.core d).pos = 0)
        ∧ t.core d = { s.core d with pos := (t.core d).pos, reps := (t.core d).reps })
      ∧ (∀ d, d ∉ s.gangOf c → t.core d = s.core d) ∧ Frame [.cores] s t))

/-- STEPEND and SWAP stop dispatch on every member of the gang (R67, R89). Where the queues are empty and the vestibule is not, the
step fails with the core stopped (R83). Once every member has drained and its standby bank is READY with the role that SWAP
names, the banks exchange states, the role epoch counts one, position 0 comes next, and counters, flags, comparators,
accumulators and scratch stay (R71, R84, R89, R91, R107). A standby bank of another role, or none READY in time, fails the step
without an exchange (R90). -/
def Obligations.RolesEndAndSwap : Prop :=
  ∀ (s : State) (c : Nat), s.clocked = true → c < 256 →
    ((∀ d ∈ s.gangOf c, (s.core d).isAt 0x05 = true ∧ ((s.core d).queuesEmpty = true → (s.core d).drained)) → Completes (.stepend c) s (fun t =>
      GangOnly c (fun k => { k with seq := .ended }) s t ∧ Frame [.cores, .snaps] s t))
    ∧ (∀ w, (∀ d ∈ s.gangOf c, (s.core d).at? 0x06 = some w ∧ ((s.core d).queuesEmpty = true → (s.core d).drained)) → Completes (.swap c) s (fun t =>
      GangOnly c (fun k => { k with seq := .swapping (bits 23 8 w) }) s t ∧ Frame [.cores] s t))
    ∧ (s.gangOf c = [c] → (s.core c).isAt 0x05 = true → (s.core c).queuesEmpty = true → (s.core c).vest ≠ [] → StepMayFail s →
      Completes (.stepend c) s (fun t => t.core c = { s.core c with seq := .stopped } ∧ t.err.stepFailed = true
        ∧ OtherCores c s t ∧ Frame [.cores, .err, .recorder] s t))
    ∧ ((∀ d ∈ s.gangOf c, ∃ r, (s.core d).swapReady = some r ∧ (s.core d).standby.st = .ready ∧ (s.core d).standby.role = some r) →
      Completes (.swapExchange c) s (fun t =>
        (∀ d ∈ s.gangOf c, (t.core d).activeIs1 = !(s.core d).activeIs1 ∧ (t.core d).bank.st = .active ∧ (t.core d).standby.st = .ready
          ∧ (t.core d).bank.cmds = (s.core d).standby.cmds ∧ (t.core d).bank.role = (s.core d).standby.role
          ∧ (t.core d).standby.cmds = (s.core d).bank.cmds ∧ (t.core d).roleEpoch = (s.core d).roleEpoch + 1
          ∧ (t.core d).seq = .run ∧ (t.core d).pos = 0 ∧ (t.core d).reps = [] ∧ (t.core d).mescl = none ∧ (t.core d).meexp = none
          ∧ (t.core d).megath = none ∧ (t.core d).ctr = (s.core d).ctr ∧ (t.core d).cmp = (s.core d).cmp ∧ (t.core d).flags = (s.core d).flags
          ∧ (t.core d).scratch = (s.core d).scratch ∧ (t.core d).set0 = (s.core d).set0 ∧ (t.core d).set1 = (s.core d).set1
          ∧ (t.core d).ingress = (s.core d).ingress)
        ∧ (∀ d, d ∉ s.gangOf c → t.core d = s.core d) ∧ Frame [.cores] s t))
    ∧ (∀ r, s.gangOf c = [c] → (s.core c).swapReady = some r → (s.core c).standby.st = .ready → (s.core c).standby.role ≠ some r → StepMayFail s →
      Completes (.swapExchange c) s (fun t => t.core c = { s.core c with seq := .stopped } ∧ t.err.stepFailed = true
        ∧ OtherCores c s t ∧ Frame [.cores, .err, .recorder] s t))
    ∧ (∀ r, (s.core c).swapReady = some r → (s.core c).standby.st ≠ .ready → StepMayFail s →
      Completes (.swapTimeout c) s (fun t => t.core c = { s.core c with seq := .stopped } ∧ t.err.stepFailed = true
        ∧ OtherCores c s t ∧ Frame [.cores, .err, .recorder] s t))

/-- A MEMUL with START on a set without an emission opens a chain there: zero rows, in F64S zero slice sums with the exponents
read from scratch (R108, R113). One without START goes on with an open chain; with none open the step fails with
ME_CHAIN_SHAPE (R109). Each tile at the head of the latch whose piece has come multiplies every activation row into the set
and leaves the latch; a value beyond its exponent fails the step with F64S_RANGE (R99, R106, R113, R115). After the last tile
the command retires, or hands the set's tiles to emission and keeps its place (R110). An emitted tile enters the vestibule where its slots are free
(R81, R111); the last one retires the command. A piece that has not come in time fails the step (R116). -/
def Obligations.TheMatrixEngineMultiplies : Prop :=
  ∀ (s : State) (c : Nat) (q : EngCmd) (rest : List EngCmd), s.clocked = true → c < 256 → (s.core c).going →
    (s.core c).qMe = q :: rest → q.op = 0x20 → q.retries = 0 →
    (q.prog = .fresh → (∀ e ∈ (s.core c).emits, e.set ≠ (mulOf q).set) → (mulOf q).start = true → (s.core c).latch = [] →
      Completes (.memul c none) s (fun t =>
        (t.core c).set (mulOf q).set =
          (if (mulOf q).mode = .f64s then
            ⟨some ⟨.f64s, (mulOf q).m, 0, false, ((s.core c).meexp.getD (0, 0)).1, ((s.core c).meexp.getD (0, 0)).2,
                readI16s (s.core c).scratch ((s.core c).meexp.getD (0, 0)).1 (mulOf q).m,
                readI16s (s.core c).scratch ((s.core c).meexp.getD (0, 0)).2 64⟩,
              [], List.replicate (mulOf q).m (List.replicate 64 ⟨0, false⟩)⟩
          else ⟨some ⟨(mulOf q).mode, (mulOf q).m, 0, false, 0, 0, [], []⟩,
            List.replicate (mulOf q).m (List.replicate 64 Acc.zero), []⟩)
        ∧ t.core c = ({ s.core c with qMe := { q with prog := .part 0 } :: rest } : Core).putSet (mulOf q).set ((t.core c).set (mulOf q).set)
        ∧ OtherCores c s t ∧ Frame [.cores] s t))
    ∧ (q.prog = .fresh → (∀ e ∈ (s.core c).emits, e.set ≠ (mulOf q).set) → (mulOf q).start = false →
      ((s.core c).set (mulOf q).set).chain = none → StepMayFail s → Completes (.memul c none) s (fun t =>
        StoppedInPlace c .me q rest t ∧ OtherCores c s t ∧ Frame [.cores, .err, .recorder] s t))
    ∧ (∀ j tile more ch, q.prog = .part j → j < (mulOf q).t → (s.core c).latch = tile :: more → pieceReady (s.core c) (mulOf q) j = true →
      ((s.core c).set (mulOf q).set).chain = some ch → (more = [] ∨ j + 1 = (mulOf q).t) →
      let p := mulOf q
      let used := if j + 1 = p.t then p.klast else ktOf p.fa
      let acts := (List.range p.m).map (fun m => actRow (s.core c) p (pieceOf (s.core c) p j) m used)
      let wrows := (List.range used).map (tileRow p.fw p.sw tile)
      let old := (s.core c).set p.set
      let new : AccSet := if p.mode = .f64s then { old with sums := sumTile old.sums acts wrows ch.ea ch.fw }
        else { old with acc := accTile old.acc acts wrows }
      (p.mode = .f64s → rangeBroken acts wrows ch.ea ch.fw = true → StepMayFail s → Completes (.memul c none) s (fun t =>
        StoppedInPlace c .me q rest t ∧ OtherCores c s t ∧ Frame [.cores, .err, .recorder] s t))
      ∧ ((p.mode = .f64s → rangeBroken acts wrows ch.ea ch.fw = false) →
        (j + 1 < p.t → Completes (.memul c none) s (fun t =>
          t.core c = ({ s.core c with latch := more, qMe := { q with prog := .part (j + 1) } :: rest } : Core).putSet p.set
            { new with chain := some { ch with k := ch.k + used, short := used < ktOf p.fa } }
          ∧ OtherCores c s t ∧ Frame [.cores] s t))
        ∧ (j + 1 = p.t → p.emit = false → Completes (.memul c none) s (fun t =>
          t.core c = ({ s.core c with latch := more, qMe := rest } : Core).putSet p.set
            { new with chain := some { ch with k := ch.k + used, short := used < ktOf p.fa } }
          ∧ OtherCores c s t ∧ Frame [.cores] s t))
        ∧ (j + 1 = p.t → p.emit = true → Completes (.memul c none) s (fun t =>
          (t.core c).qMe = { q with prog := .emitting } :: rest ∧ (t.core c).latch = more ∧ (t.core c).set p.set = { new with chain := none }
          ∧ (∃ tiles, (t.core c).emits = (s.core c).emits ++ [⟨p.set, tiles⟩]
            ∧ (p.mode = .f64s → tiles = [emitSlices p { new with chain := some ch }])
            ∧ (p.mode ≠ .f64s → tiles = (List.range ((p.m + 63) / 64)).map (emitTile p new)))
          ∧ (t.core c).scratch = (s.core c).scratch ∧ (t.core c).flags = (s.core c).flags ∧ (t.core c).ctr = (s.core c).ctr ∧ (t.core c).vest = (s.core c).vest
          ∧ OtherCores c s t ∧ Frame [.cores] s t))))
    ∧ (∀ e es tile more, (s.core c).emits = e :: es → e.tiles = tile :: more → vestUsed (s.core c).vest + tile.form.slots ≤ 8 →
      Completes (.meTileVisible c) s (fun t =>
        t.core c = { s.core c with
            vest := (s.core c).vest ++ [tile], emits := if more = [] then es else { e with tiles := more } :: es
            qMe := if more = [] then rest else q :: rest }
        ∧ OtherCores c s t ∧ Frame [.cores] s t))
    ∧ (∀ j tile more, q.prog = .part j → j < (mulOf q).t → (mulOf q).gather = true → (s.core c).latch = tile :: more →
      pieceReady (s.core c) (mulOf q) j = false →
      Completes (.memul c none) s (fun t => t.core c = s.core c ∧ OtherCores c s t ∧ Frame [.cores] s t)
      ∧ (StepMayFail s → Completes (.gatherTimeout c) s (fun t =>
        StoppedInPlace c .me q rest t ∧ OtherCores c s t ∧ Frame [.cores, .err, .recorder] s t)))

/-- At the head of the matrix queue, MESCL, MEEXP and MEGATH set the auxiliary registers from their fields and IX bytes and retire
(R113, R114, R157, R162). MESCANR writes one i16 exponent for each of its rows: 32767 where an element is no finite
number, else that of the greatest magnitude (R112). MESCANC takes the tile at the head of the latch into its column maxima
and, after its last tile, writes the 64 column exponents. Nothing else in scratch changes. -/
def Obligations.MatrixRegistersAndScans : Prop :=
  ∀ (s : State) (c : Nat) (q : EngCmd) (rest : List EngCmd), s.clocked = true → c < 256 → (s.core c).going →
    (s.core c).qMe = q :: rest → q.prog ≠ .stopped →
    (q.op = 0x21 → Completes (.mescl c) s (fun t =>
      t.core c = { s.core c with qMe := rest, mescl := some (ixAdd (bits 15 8 q.word) q.cnt (bits 38 16 q.word), bits 61 39 q.word) }
      ∧ OtherCores c s t ∧ Frame [.cores] s t))
    ∧ (q.op = 0x22 → Completes (.meexp c) s (fun t =>
      t.core c = { s.core c with qMe := rest, meexp := some (ixAdd (bits 15 8 q.word) q.cnt (bits 46 24 q.word),
        ixAdd (bits 23 16 q.word) q.cnt (bits 69 47 q.word)) }
      ∧ OtherCores c s t ∧ Frame [.cores] s t))
    ∧ (q.op = 0x23 → Completes (.megath c) s (fun t =>
      t.core c = { s.core c with qMe := rest, megath := some (ixAdd (bits 15 8 q.word) q.cnt (bits 54 32 q.word), bits 24 16 q.word + 1) }
      ∧ OtherCores c s t ∧ Frame [.cores] s t))
    ∧ (q.op = 0x24 → Completes (.mescanr c none) s (fun t =>
      let out := ixAdd (bits 47 40 q.word) q.cnt (bits 110 88 q.word)
      let base := ixAdd (bits 39 32 q.word) q.cnt (bits 70 48 q.word)
      (∀ i, i < bits 13 8 q.word + 1 → readN (t.core c).scratch (sAddr (out + 2 * i)) 2 = wrap 16 (scanExp
        ((List.range (bits 28 16 q.word + 1)).map (fun j =>
          decode 0 (readN (s.core c).scratch (sAddr (base + i * (64 * bits 87 71 q.word) + 8 * j)) 8)))))
      ∧ (∀ a, (∀ i, i < bits 13 8 q.word + 1 → a ≠ sAddr (out + 2 * i) ∧ a ≠ sAddr (out + 2 * i) + 1) →
        readByte (t.core c).scratch a = readByte (s.core c).scratch a)
      ∧ t.core c = { s.core c with qMe := rest, scratch := (t.core c).scratch } ∧ OtherCores c s t ∧ Frame [.cores] s t))
    ∧ (∀ j tile more, q.op = 0x25 → (q.prog = .part j ∨ q.prog = .fresh ∧ j = 0) → j < bits 17 8 q.word + 1 → (s.core c).latch = tile :: more →
      let old := if q.colmax = [] then List.replicate 64 (FNum.zero false) else q.colmax
      let new := old.mapIdx (fun i x => (column ((List.range 8).map (tileRow 0 false tile)) i).foldl colMax x)
      let out := ixAdd (bits 31 24 q.word) q.cnt (bits 54 32 q.word)
      (j < bits 17 8 q.word → more = [] → Completes (.mescanc c none) s (fun t =>
        t.core c = { s.core c with latch := [], qMe := { q with prog := .part (j + 1), colmax := new } :: rest }
        ∧ OtherCores c s t ∧ Frame [.cores] s t))
      ∧ (j = bits 17 8 q.word → Completes (.mescanc c none) s (fun t =>
        (∀ i, i < 64 → readN (t.core c).scratch (sAddr (out + 2 * i)) 2 = wrap 16 (scanExp [new.getD i (FNum.zero false)]))
        ∧ (∀ a, (∀ i, i < 64 → a ≠ sAddr (out + 2 * i) ∧ a ≠ sAddr (out + 2 * i) + 1) →
          readByte (t.core c).scratch a = readByte (s.core c).scratch a)
        ∧ t.core c = { s.core c with latch := more, qMe := rest, scratch := (t.core c).scratch } ∧ OtherCores c s t ∧ Frame [.cores] s t)))

/-- At the head of the vector queue a scratch pass computes and writes rows 0 to COUNT - 1 in order, each read before it is written,
counts its draws and, where it is a maintenance pass, one pass more, and retires (R120, R124, R136, R140). No byte of scratch
outside the rows and scale bytes of its destination changes. A vestibule pass takes the head tile addressed to it, writes the
tile's rows and frees its slots, going on until COUNT tiles have come (R82, R123). While none is there it waits. A head tile of
a form that its stages cannot take fails the step with VE_TILE_FORM. -/
def Obligations.VectorChainsWriteTheirRows : Prop :=
  ∀ (s : State) (c : Nat) (q : EngCmd) (rest : List EngCmd), s.clocked = true → c < 256 → (s.core c).going →
    (s.core c).qVe = q :: rest → q.op = 0x30 → q.retries = 0 →
    let ch := veChainOf q
    (q.prog = .fresh → ch.vest = false → Completes (.vechain c none) s (fun t =>
      t.core c = { s.core c with
          qVe := rest
          scratch := (List.range ch.count).foldl (fun sc r =>
            veScratchRow (s.veDraw c) sc ch (constRows (s.core c).scratch ch.stages) r) (s.core c).scratch
          stats := { (s.core c).stats with
            draws := min ((s.core c).stats.draws + ch.count * drawsPerRow ch) (2 ^ 64 - 1)
            maintPasses := min ((s.core c).stats.maintPasses + (if isMaint ch then 1 else 0)) (2 ^ 32 - 1) } }
      ∧ ((ch.stages.length ≤ 1 ∨ ∀ w ∈ ch.stages, stOp w ≠ 0x3A ∧ stOp w ≠ 0x3B) → ∀ a,
          (∀ r, r < ch.count → (a < sAddr (ch.dst + r * ch.dstStride) ∨ sAddr (ch.dst + r * ch.dstStride) + ch.outBytes ≤ a)
            ∧ (a < sAddr (ch.ds + r * ch.dsStride) ∨ sAddr (ch.ds + r * ch.dsStride) + 2 ≤ a)) →
          readByte (t.core c).scratch a = readByte (s.core c).scratch a)
      ∧ OtherCores c s t ∧ Frame [.cores] s t))
    ∧ (∀ u, ch.vest = true → u < ch.count → (q.prog = .part u ∨ q.prog = .fresh ∧ u = 0) →
      let held := if q.prog = .fresh then constRows (s.core c).scratch ch.stages else q.held
      (∀ tile more, (s.core c).vest = tile :: more → tile.toDm = false → tileFits ch tile.form = true → (more = [] ∨ u + 1 = ch.count) →
        Completes (.vechain c none) s (fun t =>
          (t.core c).scratch = veTile (s.veDraw c) ch held u 64 tile (s.core c).scratch ∧ (t.core c).vest = more
          ∧ (t.core c).qVe = (if u + 1 = ch.count then rest else { q with prog := .part (u + 1), held := held } :: rest)
          ∧ (t.core c).stats.draws = min ((s.core c).stats.draws + 64 * drawsPerRow ch) (2 ^ 64 - 1)
          ∧ (t.core c).flags = (s.core c).flags ∧ (t.core c).ctr = (s.core c).ctr ∧ (t.core c).latch = (s.core c).latch
          ∧ OtherCores c s t ∧ Frame [.cores] s t))
      ∧ (((s.core c).vest = [] ∨ ∃ tile more, (s.core c).vest = tile :: more ∧ tile.toDm = true) → q.prog = .part u →
        Completes (.vechain c none) s (fun t => t.core c = s.core c ∧ OtherCores c s t ∧ Frame [.cores] s t))
      ∧ (∀ tile more, (s.core c).vest = tile :: more → tile.toDm = false → tileFits ch tile.form = false → StepMayFail s →
        Completes (.vechain c none) s (fun t =>
          (t.core c).queue .ve = { q with prog := .stopped, held := held } :: rest ∧ (t.core c).scratch = (s.core c).scratch
          ∧ t.err.stepFailed = true ∧ OtherCores c s t ∧ Frame [.cores, .err, .recorder] s t)))

/-- DMWLOAD puts as many of its next tiles into the latch as halves are free, in order, and retires with its last tile (R99, R100). A
DMXFER moves its rows in ascending order: from a region to scratch, from scratch to a region, within memory or within
scratch (R165). A transfer to a HOST region adds its rows to the commit queue (R25). One from the vestibule writes the
rows of the head tile, hi before lo, frees its slots and goes on until all rows have come (R82). It retires with its last
row. No other byte of scratch or memory changes; reservations of harts on lines written are lost (R185). -/
def Obligations.TheDataMoverMovesRows : Prop :=
  ∀ (s : State) (c : Nat) (q : EngCmd) (rest : List EngCmd), s.clocked = true → c < 256 → (s.core c).going →
    (s.core c).qDm = q :: rest → q.retries = 0 →
    (q.op = 0x40 → q.prog ≠ .stopped → q.done < bits 23 14 q.word + 1 → (s.core c).latch.length ≤ 2 → Completes (.dmwload c none) s (fun t =>
      let m := min (bits 23 14 q.word + 1 - q.done) (2 - (s.core c).latch.length)
      let n := tileSize (bits 11 8 q.word) (bitAt 12 q.word)
      let from_ (j : Nat) : List Byte :=
        if bitAt 13 q.word then readBytes (s.core c).scratch (sAddr (ixAdd (bits 31 24 q.word) q.cnt (bits 102 80 q.word) + j * n)) n
        else readBytes s.mem (s.copyBase (bits 39 32 q.word) 0 + ixAdd (bits 31 24 q.word) q.cnt (bits 79 40 q.word) + j * n) n
      t.core c = { s.core c with
          latch := (s.core c).latch ++ (List.range m).map (fun i => from_ (q.done + i))
          qDm := if q.done + m = bits 23 14 q.word + 1 then rest else { q with prog := .part (q.done + m) } :: rest }
      ∧ OtherCores c s t ∧ Frame [.cores, .hbm] s t))
    ∧ (q.op = 0x41 → q.prog = .fresh →
      let x := xferOf q
      let at_ (i : Nat) : Nat := sAddr (x.dst % 8388608 + i * x.dStride)
      let from_ (sc : Cells) (i : Nat) : List Byte := readBytes sc (sAddr (x.src % 8388608 + i * x.sStride)) x.rb
      (x.dir = 0 → Completes (.dmxfer c none) s (fun t =>
        t.core c = { s.core c with
            qDm := rest
            scratch := (List.range x.rows).foldl (fun sc i =>
              writeBytes sc (at_ i) (readBytes s.mem (s.copyBase x.sRegion 0 + x.src + i * x.sStride) x.rb)) (s.core c).scratch }
        ∧ OtherCores c s t ∧ Frame [.cores, .hbm] s t))
      ∧ (x.dir = 4 → Completes (.dmxfer c none) s (fun t =>
        t.core c = { s.core c with
            qDm := rest
            scratch := (List.range x.rows).foldl (fun sc i => writeBytes sc (at_ i) (from_ sc i)) (s.core c).scratch }
        ∧ OtherCores c s t ∧ Frame [.cores] s t))
      ∧ (x.dir = 1 → s.isHost x.dRegion = false → Completes (.dmxfer c none) s (fun t =>
        t.mem = (List.range x.rows).foldl (fun m i =>
            writeBytes m (s.copyBase x.dRegion 0 + x.dst + i * x.dStride) (from_ (s.core c).scratch i)) s.mem
        ∧ t.core c = { s.core c with qDm := rest } ∧ (∀ h, t.hart h = { s.hart h with resv := (t.hart h).resv })
        ∧ OtherCores c s t ∧ Frame [.cores, .mem, .harts, .hbm] s t))
      ∧ (x.dir = 3 → s.isHost x.dRegion = false → Completes (.dmxfer c none) s (fun t =>
        t.mem = (List.range x.rows).foldl (fun m i =>
            writeBytes m (s.copyBase x.dRegion 0 + x.dst + i * x.dStride)
              (readBytes m (s.copyBase x.sRegion 0 + x.src + i * x.sStride) x.rb)) s.mem
        ∧ t.core c = { s.core c with qDm := rest } ∧ (∀ h, t.hart h = { s.hart h with resv := (t.hart h).resv })
        ∧ OtherCores c s t ∧ Frame [.cores, .mem, .harts, .hbm] s t))
      ∧ (x.dir = 1 → s.isHost x.dRegion = true → Completes (.dmxfer c none) s (fun t =>
        t.outputs = { s.outputs with queue := s.outputs.queue ++ [⟨c, x.dRegion,
            (List.range x.rows).map (fun i => (x.dst + i * x.dStride, from_ (s.core c).scratch i))⟩] }
        ∧ t.core c = { s.core c with qDm := rest } ∧ OtherCores c s t ∧ Frame [.cores, .outputs] s t)))
    ∧ (∀ tile more, q.op = 0x41 → q.prog ≠ .stopped → (xferOf q).dir = 6 → q.done < (xferOf q).rows → (s.core c).vest = tile :: more →
      tile.toDm = true → (more = [] ∨ (xferOf q).rows ≤ q.done + (tileRows tile).length) → Completes (.dmxfer c none) s (fun t =>
        let x := xferOf q
        let n := q.done + (tileRows tile).length
        t.core c = { s.core c with
            qDm := if x.rows ≤ n then rest else { q with prog := .part n } :: rest
            vest := more
            scratch := (List.range (tileRows tile).length).foldl (fun sc i =>
              writeBytes sc (sAddr (x.dst % 8388608 + (q.done + i) * x.dStride)) (((tileRows tile).getD i []).take x.rb)) (s.core c).scratch }
        ∧ OtherCores c s t ∧ Frame [.cores] s t))
    ∧ (∀ tile more, q.op = 0x41 → q.prog ≠ .stopped → (xferOf q).dir = 5 → s.isHost (xferOf q).dRegion = false → q.done < (xferOf q).rows →
      (s.core c).vest = tile :: more → tile.toDm = true → (more = [] ∨ (xferOf q).rows ≤ q.done + (tileRows tile).length) →
      Completes (.dmxfer c none) s (fun t =>
        let x := xferOf q
        let n := q.done + (tileRows tile).length
        t.core c = { s.core c with qDm := if x.rows ≤ n then rest else { q with prog := .part n } :: rest, vest := more }
        ∧ t.mem = (List.range (tileRows tile).length).foldl (fun m i =>
            writeBytes m (s.copyBase x.dRegion 0 + x.dst + (q.done + i) * x.dStride) (((tileRows tile).getD i []).take x.rb)) s.mem
        ∧ OtherCores c s t ∧ Frame [.cores, .mem, .harts, .hbm] s t))
    ∧ (∀ tile more, q.op = 0x41 → q.prog = .fresh → (xferOf q).dir = 5 → s.isHost (xferOf q).dRegion = true → (s.core c).vest = tile :: more →
      tile.toDm = true → (xferOf q).rows = (tileRows tile).length → Completes (.dmxfer c none) s (fun t =>
        let x := xferOf q
        t.core c = { s.core c with qDm := rest, vest := more }
        ∧ t.outputs = { s.outputs with queue := s.outputs.queue ++ [⟨c, x.dRegion, (List.range x.rows).map (fun i =>
            (x.dst + i * x.dStride, ((tileRows tile).getD i []).take x.rb))⟩] }
        ∧ OtherCores c s t ∧ Frame [.cores, .outputs] s t))

/-- A DMXFER to a peer core puts its rows into that core's ingress buffer of 32 in order, the last with flag and count, and waits for
their arrival (R80, R165). The head of an ingress buffer whose role epoch is the core's own lands in scratch, sets its flag
and counts; early or stale, it is counted and answered with a NACK, scratch left alone (R92). Where it was its sender's last
one out, the sending command retires. A standby bank that the loader has filled is READY with the role's commands
(R87, R88). -/
def Obligations.TransfersOnADieArrive : Prop :=
  ∀ (s : State) (c : Nat), s.clocked = true → c < 256 →
    (∀ q rest, (s.core c).qDm = q :: rest → q.op = 0x41 → q.prog = .fresh → (xferOf q).dir = 2 →
      (s.core ((xferOf q).target c)).ingress.length + (xferOf q).rows ≤ 32 → Completes (.dmxfer c none) s (fun t =>
        let x := xferOf q
        (t.core (x.target c)).ingress = (s.core (x.target c)).ingress ++ (List.range x.rows).map (fun i =>
            ({ sender := .core c, epoch := s.epoch, repoch := x.repoch, addr := x.dst % 8388608 + i * x.dStride
               bytes := readBytes (s.core c).scratch (sAddr (x.src % 8388608 + i * x.sStride)) x.rb
               flag := if i + 1 = x.rows then x.flag else none, cnt := if i + 1 = x.rows then x.cnt else none } : Transfer))
        ∧ (t.core c).qDm = { q with todo := 0, prog := .issued x.rows } :: rest
        ∧ (∀ d, { t.core d with ingress := [], qDm := [] } = ({ s.core d with ingress := [], qDm := [] } : Core))
        ∧ (∀ d, d ≠ c → d ≠ x.target c → t.core d = s.core d) ∧ Frame [.cores] s t))
    ∧ (∀ x rest, (s.core c).ingress = x :: rest → s.checkEpoch x.epoch = .here → x.sender = .none → x.addr + x.bytes.length ≤ 8388608 →
      (verdict x.repoch (s.core c).roleEpoch.toNat = .ok → Completes (.transferArrival c) s (fun t =>
        t.core c = ({ s.core c with ingress := rest } : Core).taking x.addr x.bytes x.flag x.cnt ∧ OtherCores c s t ∧ Frame [.cores] s t))
      ∧ (verdict x.repoch (s.core c).roleEpoch.toNat = .early → Completes (.transferArrival c) s (fun t =>
        t.core c = { s.core c with
            ingress := rest, stats := { (s.core c).stats with early := min ((s.core c).stats.early + 1) (2 ^ 32 - 1) } }
        ∧ t.nacks = s.nacks ++ [⟨x, c, false, (s.core c).roleEpoch.toNat⟩] ∧ OtherCores c s t ∧ Frame [.cores, .nacks] s t))
      ∧ (verdict x.repoch (s.core c).roleEpoch.toNat = .stale → Completes (.transferArrival c) s (fun t =>
        t.core c = { s.core c with
            ingress := rest, stats := { (s.core c).stats with stale := min ((s.core c).stats.stale + 1) (2 ^ 32 - 1) } }
        ∧ t.nacks = s.nacks ++ [⟨x, c, true, (s.core c).roleEpoch.toNat⟩] ∧ OtherCores c s t ∧ Frame [.cores, .nacks] s t)))
    ∧ (∀ x rest b q qs, (s.core c).ingress = x :: rest → s.checkEpoch x.epoch = .here → x.sender = .core b → b ≠ c →
      x.addr + x.bytes.length ≤ 8388608 → verdict x.repoch (s.core c).roleEpoch.toNat = .ok →
      (s.core b).qDm = q :: qs → q.prog = .issued 1 → q.todo = 0 → (s.core b).going → Completes (.transferArrival c) s (fun t =>
        t.core c = ({ s.core c with ingress := rest } : Core).taking x.addr x.bytes x.flag x.cnt
        ∧ t.core b = { s.core b with qDm := qs } ∧ (∀ d, d ≠ b → d ≠ c → t.core d = s.core d) ∧ Frame [.cores] s t))
    ∧ (∀ role im r, s.job.image = some im → im.role role = some r → s.job.held = true → Completes (.loaderBankComplete c role) s (fun t =>
        (t.core c).standby = { st := .ready, role := some role, cmds := r.cmds, descs := r.descs }
        ∧ (t.core c).bank = (s.core c).bank ∧ t.core c = { s.core c with bank0 := (t.core c).bank0, bank1 := (t.core c).bank1 }
        ∧ OtherCores c s t ∧ Frame [.cores] s t))

/-- A parity error in scratch, the latch, an accumulator or a stage that an engine command meets is counted at its guard (R79, R118,
R143). A command that Table 16.3 lists runs again and completes as without the error, and the unit retry is counted: a
MESCANR, a DMXFER between regions and scratch before any row has moved. A MESCANC, a DMXFER to a peer or
from the vestibule, and a command that is being executed again, stops in its place and the step fails (R361, R372). -/
def Obligations.ParityErrorsInEngines : Prop :=
  ∀ (s : State) (c : Nat) (e : Engine) (q : EngCmd) (rest : List EngCmd) (u : Upset) (i : Option Upset → Instr),
    s.clocked = true → c < 256 → (s.core c).going → StepMayFail s → (s.core c).queue e = q :: rest → q.prog = .fresh → u.at_ = 0 →
    u.again = false → (u.site = .scratch ∨ u.site = .latch ∨ u.site = .accumulator ∨ u.site = .stage) →
    ((e = .me ∧ i = .mescanr c ∧ q.op = 0x24 ∨ e = .dm ∧ i = .dmxfer c ∧ q.op = 0x41 ∧ (xferOf q).dir = 0) → q.retries = 0 →
      Completes (i (some u)) s (fun t =>
        (∃ r, exec (i none) s = .next r ∧ (t.core c).scratch = (r.core c).scratch)
        ∧ (t.core c).queue e = rest ∧ (t.core c).stats = (s.core c).stats.parity u.site
        ∧ t.err = { s.err with unitRetries := min (s.err.unitRetries + 1) (2 ^ 64 - 1) }
        ∧ OtherCores c s t ∧ Frame [.cores, .err, .recorder, .hbm] s t))
    ∧ ((e = .me ∧ i = .mescanc c ∧ q.op = 0x25 ∨ e = .dm ∧ i = .dmxfer c ∧ q.op = 0x41 ∧ ((xferOf q).dir = 2 ∨ (xferOf q).dir = 5 ∨ (xferOf q).dir = 6)
        ∨ q.retries = 1 ∧ (e = .me ∧ i = .mescanr c ∧ q.op = 0x24 ∨ e = .dm ∧ i = .dmxfer c ∧ q.op = 0x41)) →
      Completes (i (some u)) s (fun t =>
        StoppedInPlace c e q rest t ∧ (t.core c).scratch = (s.core c).scratch ∧ (t.core c).stats = (s.core c).stats.parity u.site
        ∧ OtherCores c s t ∧ Frame [.cores, .err, .recorder] s t))

/-- A DMCONV at the head of the data-mover queue puts its descriptor at the end of its station's ring of 256 and retires, or keeps its
place where its source is the vestibule (R206, Table 8.2). The descriptor at the head of the ring takes a free one of 64
contexts, its affine table read. A NARROW or GENERATE context then sends row r, with its scale bytes where the format has
them, to core CORE0 + r / RPC in ascending order of r, while the ingress buffers have room (R80, R211 to R213, R217). -/
def Obligations.ConversionsAreTakenAndDeliverRows : Prop :=
  ∀ s : State, s.clocked = true →
    (∀ c q rest i, c < 256 → (s.core c).going → (s.core c).qDm = q :: rest → q.op = 0x43 → q.prog = .fresh →
      let d := s.convDesc (bits 19 8 q.word)
      (d.op = .narrow ∧ i = .dmconvNarrow (.submit c) ∨ d.op = .widen ∧ i = .dmconvWiden (.submit c)
        ∨ d.op = .generate ∧ i = .dmconvGenerate (.submit c)) →
      (s.station d.station).ring.length < 256 → Completes i s (fun t =>
        t.station d.station = { s.station d.station with
            ring := (s.station d.station).ring ++ [⟨c, bits 19 8 q.word⟩]
            ringHigh := max (s.station d.station).ringHigh ((s.station d.station).ring.length + 1) }
        ∧ (∀ m, m ≠ d.station → t.station m = s.station m)
        ∧ t.core c = { s.core c with qDm := if d.vest then { q with prog := .issued 0 } :: rest else rest }
        ∧ OtherCores c s t ∧ Frame [.cores, .stations] s t))
    ∧ (∀ n it rest, n < 32 → (s.station n).ring = it :: rest → (s.station n).ctxs.length < 64 → Completes (.contextAllocate n) s (fun t =>
        let d := s.convDesc it.desc
        t.station n = { s.station n with
            ring := rest, next := (s.station n).next + 1, ctxHigh := max (s.station n).ctxHigh ((s.station n).ctxs.length + 1)
            ctxs := (s.station n).ctxs ++ [{ id := (s.station n).next, item := it
                                             aff := if d.aff then readBytes s.mem (s.copyBase d.affRegion 0 + d.affOff) (16 * d.ch) else [] }] }
        ∧ (∀ m, m ≠ n → t.station m = s.station m) ∧ Frame [.stations] s t))
    ∧ (∀ n id x i, n < 32 → s.convCtx n id = some x → x.row = 0 → x.out = [] → x.flagged = 0 → x.flagOut = false →
      let d := s.convDesc x.item.desc
      let per := if d.mx then 2 else 1
      let to_ (r : Nat) : Nat := d.core0 + r / d.rpc
      let send (addr : Nat) (bs : List Byte) : Transfer :=
        { sender := .station n id, epoch := s.epoch, repoch := d.repoch, addr := addr, bytes := bs, flag := none, cnt := none }
      let bytes (r : Nat) : List Byte × List Byte := if d.op = .generate then (s.drawBytes d r, []) else s.narrowBytes d x.item.desc x.aff r
      let row (r : Nat) : List Transfer :=
        send (d.saddr + r % d.rpc * d.sstride) (bytes r).1
          :: (if d.mx then [send (d.scaddr + r % d.rpc * d.scstride) (bytes r).2] else [])
      (d.op = .narrow ∧ i = .dmconvNarrow (.work n id false) ∨ d.op = .generate ∧ i = .dmconvGenerate (.work n id false)) →
      (∀ r, r < d.rows → (bytes r).1 ≠ [] ∧ (d.mx = true → (bytes r).2 ≠ [])) →
      (∀ e, (s.core e).ingress.length + per * ((List.range d.rows).filter (fun r => to_ r == e)).length ≤ 32) → Completes i s (fun t =>
        (∀ e, t.core e = { s.core e with
            ingress := (s.core e).ingress ++ ((List.range d.rows).filter (fun r => to_ r == e)).flatMap row })
        ∧ t.convCtx n id = some { x with row := d.rows, out := (List.range d.rows).flatMap (fun r => List.replicate per (to_ r)) }
        ∧ (∀ m k, (m, k) ≠ (n, id) → t.convCtx m k = s.convCtx m k) ∧ (∀ m, (t.station m).ring = (s.station m).ring)
        ∧ Frame [.cores, .stations, .hbm] s t))

/-- A WIDEN context writes its rows in order from scratch, or from the head tile of the vestibule where its DMCONV waits, which retires
with its last row (R214, R215); a tile of another form drops the descriptor and fails the step. With every row answered a
NARROW or GENERATE sends the flag of its next core, and once all have gone the context is freed and counted (R212). A WIDEN
first writes its completion word and interrupts its hart, then frees the context or sends its flag (R216). A parity error or
a timeout drops the descriptor and fails the step (R207, R226). -/
def Obligations.ConversionsWidenCompleteOrFail : Prop :=
  ∀ (s : State) (n id : Nat) (x : ConvCtx), s.clocked = true → n < 32 → s.convCtx n id = some x →
    let d := s.convDesc x.item.desc
    (d.op = .widen → d.vest = false → Completes (.dmconvWiden (.work n id false)) s (fun t =>
      t.mem = (List.range d.rows).foldl (fun m r => writeBytes m (s.copyBase d.region 0 + d.roff + r * d.rstride)
        (((s.widenRead d r).mapIdx (fun ch e => widenOut d.dfmt d.aff (affineStep d x.aff ch e))).flatMap (leBytes (fmtBits d.dfmt / 8)))) s.mem
      ∧ t.convCtx n id = some { x with row := d.rows } ∧ (∀ m k, (m, k) ≠ (n, id) → t.convCtx m k = s.convCtx m k)
      ∧ (∀ h, t.hart h = { s.hart h with resv := (t.hart h).resv }) ∧ Frame [.mem, .stations, .harts, .hbm] s t))
    ∧ (∀ tile more q rest, d.op = .widen → d.vest = true → x.row + 64 = d.rows → (s.core x.item.core).vest = tile :: more → tile.toDm = true →
      (s.core x.item.core).qDm = q :: rest → (s.core x.item.core).going →
      (d.tileOk tile = true → Completes (.dmconvWiden (.work n id false)) s (fun t =>
        t.mem = (List.range 64).foldl (fun m i => writeBytes m (s.copyBase d.region 0 + d.roff + (x.row + i) * d.rstride)
          (((tileElems tile i).mapIdx (fun ch e => widenOut d.dfmt (d.aff || d.spair) (affineStep d x.aff ch e))).flatMap
            (leBytes (fmtBits d.dfmt / 8)))) s.mem
        ∧ t.core x.item.core = { s.core x.item.core with vest := more, qDm := rest } ∧ OtherCores x.item.core s t
        ∧ t.convCtx n id = some { x with row := d.rows } ∧ Frame [.mem, .stations, .harts, .hbm, .cores] s t))
      ∧ (d.tileOk tile = false → StepMayFail s → Completes (.dmconvWiden (.work n id false)) s (fun t =>
        t.convCtx n id = none ∧ t.err.stepFailed = true ∧ Frame [.stations, .err, .recorder] s t)))
    ∧ (d.op ≠ .widen → x.row = d.rows → x.out = [] → x.flagOut = false →
      (d.ncore ≤ x.flagged → Completes (.convDescriptorDone n id) s (fun t =>
        t.station n = { s.station n with
            ctxs := (s.station n).ctxs.filter (fun y => y.id != id), retired := min ((s.station n).retired + 1) (2 ^ 64 - 1) }
        ∧ (∀ m, m ≠ n → t.station m = s.station m) ∧ Frame [.stations] s t))
      ∧ (x.flagged < d.ncore → d.rows ≤ d.ncore * d.rpc → (d.flagEn = true ∨ d.cntEn = true) → d.core0 + x.flagged ∉ x.stale →
        (s.core (d.core0 + x.flagged)).ingress.length < 32 → Completes (.convDescriptorDone n id) s (fun t =>
          t.core (d.core0 + x.flagged) = { s.core (d.core0 + x.flagged) with
            ingress := (s.core (d.core0 + x.flagged)).ingress ++ [⟨.station n id, s.epoch, d.repoch, 0, [], d.flag?, d.cnt?, 0⟩] }
          ∧ t.convCtx n id = some { x with flagged := x.flagged + 1, flagOut := true }
          ∧ OtherCores (d.core0 + x.flagged) s t ∧ Frame [.stations, .cores] s t)))
    ∧ (d.op = .widen → d.rows ≤ x.row → x.out = [] → x.flagOut = false → x.flagged = 0 → (s.core d.core0).ingress.length < 32 →
      Completes (.convDescriptorDone n id) s (fun t =>
        t.mem = (if d.cmpl then writeBytes s.mem (s.copyBase d.cmplRegion 0 + d.cmplOff) (leBytes 8 s.job.step) else s.mem)
        ∧ (d.irq = true → (s.hart d.hart).st = .running → (t.hart d.hart).csr.eip = (s.hart d.hart).csr.eip ||| 2#256)
        ∧ (∀ h, h ≠ d.hart ∨ d.irq = false → t.hart h = { s.hart h with resv := (t.hart h).resv })
        ∧ (d.flagEn = false → d.cntEn = false → t.convCtx n id = none ∧ t.cores = s.cores)
        ∧ ((d.flagEn = true ∨ d.cntEn = true) → t.convCtx n id = some { x with flagged := 1, flagOut := true }
          ∧ (t.core d.core0).ingress = (s.core d.core0).ingress ++ [⟨.station n id, s.epoch, d.repoch, 0, [], d.flag?, d.cnt?, 0⟩])
        ∧ OtherCores d.core0 s t ∧ Frame [.mem, .stations, .harts, .cores] s t))
    ∧ (StepMayFail s → ∀ i, (i = .convTimeout n id ∨ d.op = .narrow ∧ i = .dmconvNarrow (.work n id true)
          ∨ d.op = .widen ∧ i = .dmconvWiden (.work n id true) ∨ d.op = .generate ∧ i = .dmconvGenerate (.work n id true)) →
      Completes i s (fun t => t.convCtx n id = none ∧ (∀ m k, (m, k) ≠ (n, id) → t.convCtx m k = s.convCtx m k)
        ∧ t.err.stepFailed = true ∧ Frame [.stations, .err, .recorder] s t))

/-- With entries free for all its packets, an XMOV at the head of the exchange queue puts them into the tracker of its half's gateway
die in order, each with the next number of its space and the package's job, attempt, step and rank (R166, R272, R282, R283).
A SEND or GET keeps its place until its answers come, a PUT retires with its last LWRITE, whose count of acknowledgements is kept
(R167, R295). A parity error in the scratch that it reads stops it and fails the step. XFENCE retires with no LWRITE of the core
unacknowledged, and waits otherwise (R295). XARM arms its timetable entry and retires (R168, R319). -/
def Obligations.ExchangesAreInjected : Prop :=
  ∀ (s : State) (c : Nat) (q : EngCmd) (rest : List EngCmd), s.clocked = true → c < 256 → (s.core c).going → (s.core c).qXe = q :: rest →
    (q.op = 0x50 → q.prog = .fresh →
      let x := s.exchOf q
      let n := s.exchCount x
      let gd := gdOfCore c
      let key := spaceKey x.rank gd 1
      let sent (o : Owner) : List (Nat × Packet × Owner) := (List.range n).map (fun i =>
        (gd, { s.exchPacket c x i with seq := (nget 0 s.fab.txSeq key + i) % 2 ^ 32, sgd := gd, srcRank := s.myRank, job := s.job.id
                                       attempt := s.job.attempt, step := s.job.step }, o))
      let tracked (t : State) : List (Nat × Packet × Owner) := t.fab.track.map (fun e => (e.gd, e.pkt, e.owner))
      s.fab.tabSt = .active → (s.tracked gd).length + n ≤ 4096 → ((s.tracked gd).filter (fun e => e.pkt.tc == 1)).length + n ≤ 3072 →
      (nget 0 s.fab.spaceLock key = 0 ∨ nget 0 s.fab.spaceLock key = c + 1) → nget 0 s.fab.txSeq key < 2 ^ 32 →
      (x.op = 0 → Completes (.xmovSend c none) s (fun t =>
        tracked t = tracked s ++ sent (.xe c) ∧ t.core c = { s.core c with qXe := { q with todo := 0, prog := .issued n } :: rest }
        ∧ OtherCores c s t ∧ Frame [.cores, .fab, .recorder] s t))
      ∧ (x.op = 2 → Completes (.xmovGet c none) s (fun t =>
        tracked t = tracked s ++ sent (.xe c) ∧ t.core c = { s.core c with qXe := { q with todo := 0, prog := .issued n } :: rest }
        ∧ OtherCores c s t ∧ Frame [.cores, .fab, .recorder] s t))
      ∧ (x.op = 1 → Completes (.xmovPut c none) s (fun t =>
        tracked t = tracked s ++ sent (.put c s.fab.putNext) ∧ t.fab.puts = s.fab.puts ++ [(c, s.fab.putNext, n, x.cnt)]
        ∧ nget 0 t.fab.unacked c = nget 0 s.fab.unacked c + n ∧ t.core c = { s.core c with qXe := rest }
        ∧ OtherCores c s t ∧ Frame [.cores, .fab, .recorder] s t)))
    ∧ (∀ u i, q.op = 0x50 → q.prog ≠ .stopped → u.site = .scratch → StepMayFail s →
      ((s.exchOf q).op = 0 ∧ i = .xmovSend c (some u) ∨ (s.exchOf q).op = 1 ∧ i = .xmovPut c (some u)
        ∨ (s.exchOf q).op = 2 ∧ i = .xmovGet c (some u)) → Completes i s (fun t =>
          StoppedInPlace c .xe q rest t ∧ (t.core c).stats = (s.core c).stats.parity u.site
          ∧ OtherCores c s t ∧ Frame [.cores, .err, .recorder] s t))
    ∧ (q.op = 0x51 → Completes (.xfence c) s (fun t =>
        t.core c = (if nget 0 s.fab.unacked c = 0 then { s.core c with qXe := rest } else s.core c)
        ∧ OtherCores c s t ∧ Frame [.cores] s t))
    ∧ (q.op = 0x52 → Completes (.xarm c) s (fun t =>
        t.core c = { s.core c with qXe := rest } ∧ OtherCores c s t
        ∧ t.tt = { s.tt with waiting := s.tt.waiting.map (fun w => { w with armed := w.armed || w.entry == bits 23 8 q.word }) }
        ∧ Frame [.cores, .tt] s t))

/-- In a group of one member each XCOLL copies its rows to DST, read as combine reads them in a reduction, sets its flag, counts and
retires (R330, R332, R335, R337). In a larger group it begins its run: in ALLGATHER its piece goes to the next member of the
ring, in REDUCE and ALLREDUCE a member that combines nothing sends its contribution to its parent's work slot, in BCAST member
0 sends each packet to its children, all in order (R330, R334, R335). Member 0 of a REDUCE of two with the other's rows in combines them row group by row
group into DST, sets the flag, counts and retires (R333, R334). A parity error or a timeout ends the run, stops the command
and fails the step (R339). -/
def Obligations.CollectivesCopyCombineAndPassOn : Prop :=
  ∀ (s : State) (c : Nat) (q : EngCmd) (rest : List EngCmd), s.clocked = true → c < 256 → (s.core c).going →
    (s.core c).qXe = q :: rest → q.op = 0x53 →
    let d := collDescOf (packNat 128 q.desc) (ixAdd (bits 31 24 q.word) q.cnt)
    let name (u : Option Upset) : Instr := match d.op with
      | 0 => .xcollAllgather c u | 1 => .xcollReduce c u | 2 => .xcollAllreduce c u | _ => .xcollBcast c u
    let me := s.job.rank - d.lo
    let own (dst : Nat) : Cells := copyRows d dst d.dstride (if d.op = 0 ∨ d.op = 3 then id else collReadBytes d.fmt) (s.core c).scratch
    let run : CollRun := { core := c, d := d, i := me, pos := 0, comb := List.replicate (combineLevels d.n me).length 0 }
    let tracked (t : State) : List (Nat × Packet × Owner) := t.fab.track.map (fun e => (e.gd, e.pkt, e.owner))
    let stamp (key i : Nat) (k : Packet) : Nat × Packet × Owner :=
      (gdOfCore c, { k with seq := (nget 0 s.fab.txSeq key + i) % 2 ^ 32, sgd := gdOfCore c, srcRank := s.myRank, job := s.job.id
                            attempt := s.job.attempt, step := s.job.step }, .coll c)
    let room (n : Nat) : Prop := s.fab.tabSt = .active ∧ (s.tracked (gdOfCore c)).length + n ≤ 4096 ∧ s.fab.spaceLock = []
      ∧ ((s.tracked (gdOfCore c)).filter (fun e => e.pkt.tc == 1)).length + n ≤ 3072 ∧ (∀ e ∈ s.fab.txSeq, e.2 < 2 ^ 32)
    d.op ≤ 3 →
    (q.prog = .fresh → (∀ r ∈ s.coll.runs, r.core ≠ c) → s.coll.inbox = [] → (∀ e ∈ s.fab.track, e.owner ≠ .coll c) →
      (d.n = 1 → me = 0 → d.rows % d.groupRows = 0 → Completes (name none) s (fun t =>
        (t.core c).scratch = own d.dst ∧ (t.core c).qXe = rest
        ∧ (t.core c).flags = (if d.flagEn then (s.core c).flags ||| (1#1024 <<< (d.flag0 % 1024)) else (s.core c).flags)
        ∧ (t.core c).ctr = (if d.cntEn then (s.core c).ctr.setIfInBounds d.cnt ((s.core c).ctr.toList.getD d.cnt 0 + 1) else (s.core c).ctr)
        ∧ t.coll = { s.coll with retired := min (s.coll.retired + 1) (2 ^ 64 - 1) } ∧ OtherCores c s t ∧ Frame [.cores, .coll] s t))
      ∧ (d.op = 0 → 2 ≤ d.n → me < d.n → room d.packets → Completes (name none) s (fun t =>
        let key := spaceKey (d.lo + (me + 1) % d.n) (gdOfCore c) 1
        (t.core c).scratch = own (d.dst + me * d.pstep) ∧ (t.core c).qXe = { q with prog := .issued 0 } :: rest
        ∧ tracked t = tracked s ++ (List.range d.packets).map (fun k =>
            stamp key k (collPacket run ((me + 1) % d.n) (d.at_ (d.dst + me * d.pstep) d.dstride k) (run.flagFor k (d.flag0 + me))
              (readBytes (t.core c).scratch (d.at_ (d.dst + me * d.pstep) d.dstride k) (d.cut k).2)))
        ∧ t.coll.runs.map CollRun.core = s.coll.runs.map CollRun.core ++ [c] ∧ OtherCores c s t ∧ Frame [.cores, .coll, .fab, .recorder] s t))
      ∧ (d.op = 1 ∨ d.op = 2 → 0 < me → me < d.n → d.n ≤ 512 → combineLevels d.n me = [] → d.rows % d.groupRows = 0 → room d.packets →
        Completes (name none) s (fun t =>
        let l := lowBit 10 me
        let key := spaceKey (d.lo + (me - 2 ^ l)) (gdOfCore c) 1
        (t.core c).scratch = own d.dst ∧ (t.core c).qXe = { q with prog := .issued 0 } :: rest ∧ (t.core c).flags = (s.core c).flags
        ∧ tracked t = tracked s ++ (List.range d.packets).map (fun k =>
            stamp key k (collPacket run (me - 2 ^ l) (d.at_ (d.slot l) d.rowb k) none
              (readBytes (t.core c).scratch (d.at_ d.dst d.dstride k) (d.cut k).2)))
        ∧ OtherCores c s t ∧ Frame [.cores, .coll, .fab, .recorder] s t))
      ∧ (d.op = 3 → me = 0 → d.n = 2 → room d.packets → Completes (name none) s (fun t =>
        let key := spaceKey (d.lo + 1) (gdOfCore c) 1
        (t.core c).scratch = own d.dst ∧ (t.core c).qXe = { q with prog := .issued 0 } :: rest
        ∧ tracked t = tracked s ++ (List.range d.packets).map (fun k =>
            stamp key k (collPacket run 1 (d.at_ d.dst d.dstride k) (run.flagFor k d.flag0)
              (readBytes (t.core c).scratch (d.at_ d.dst d.dstride k) (d.cut k).2)))
        ∧ OtherCores c s t ∧ Frame [.cores, .coll, .fab, .recorder] s t)))
    ∧ (∀ r, q.prog = .issued 0 → d.op = 1 → d.n = 2 → s.coll.runs = [r] → r.core = c → r.d = d → r.i = 0 → r.pos = 0 → r.down = 0 →
      r.comb = [0] → nget 0 r.arrived 0 = d.packets → s.coll.inbox = [] → 0 < d.groups → Completes (name none) s (fun t =>
        (t.core c).scratch = (List.range d.groups).foldl (fun sc g => putGroup sc d.dst d.dstride g d.groupRows
            (combineGroup d (groupBytes sc d.dst d.dstride d.rowb g d.groupRows) (groupBytes sc (d.slot 0) d.rowb d.rowb g d.groupRows)))
          (s.core c).scratch
        ∧ (t.core c).flags = (if d.flagEn then (s.core c).flags ||| (1#1024 <<< (d.flag0 % 1024)) else (s.core c).flags)
        ∧ (t.core c).ctr = (if d.cntEn then (s.core c).ctr.setIfInBounds d.cnt ((s.core c).ctr.toList.getD d.cnt 0 + 1) else (s.core c).ctr)
        ∧ (t.core c).qXe = rest ∧ t.coll.runs = [] ∧ OtherCores c s t ∧ Frame [.cores, .coll] s t))
    ∧ (∀ u, q.prog ≠ .stopped → u.site = .scratch → StepMayFail s → Completes (name (some u)) s (fun t =>
        StoppedInPlace c .xe q rest t ∧ (t.core c).scratch = (s.core c).scratch ∧ (∀ r ∈ t.coll.runs, r.core ≠ c)
        ∧ t.coll.parity = min (s.coll.parity + 1) (2 ^ 32 - 1) ∧ OtherCores c s t ∧ Frame [.cores, .coll, .err, .recorder] s t))
    ∧ (q.prog ≠ .stopped → StepMayFail s → Completes (.collTimeout c) s (fun t =>
        StoppedInPlace c .xe q rest t ∧ (t.core c).scratch = (s.core c).scratch ∧ (∀ r ∈ t.coll.runs, r.core ≠ c)
        ∧ OtherCores c s t ∧ Frame [.cores, .coll, .err, .recorder] s t))

/-- A running hart executes the instruction at its pc, in its 16-bit or 32-bit form, and is counted (R175, R198, Table 7.13). A
register-register operation writes its result to rd, x0 discarding it; a branch and a jump set the pc; a load writes rd from the
bytes at its address, a store writes its bytes there and nothing else; LR and SC work through the reservation, an AMO reads and
writes at once (R175, R182; the RISC-V extensions are PRESUMED from their own specification, log entry 21). Any other
instruction that changes registers alone does so. A clean-line parity error is counted and the instruction executes; a dirty one
stops the hart and fails the step (R201, R361). -/
def Obligations.HartsExecuteTheirInstructions : Prop :=
  ∀ (s : State) (h : Nat) (w len raw : Nat), s.clocked = true → h < 128 → s.hartRuns h = true →
    s.fetchAt (s.hart h) = .ok (some w, len, raw) →
    let a := Rv.rx (s.hart h) (Rv.fRs1 w)
    let b := Rv.rx (s.hart h) (Rv.fRs2 w)
    let pc := (s.hart h).pc.toNat
    let next := Rv.goto (s.hart h) (pc + len)
    let only_ (n : Hart) (t : State) : Prop := t.hart h = n.counted ∧ OtherHarts h s t ∧ Frame [.harts] s t
    (∀ n, s.plan h = .reg n → Completes (.hartInstruction h none) s (only_ n))
    ∧ (∀ v, w % 128 = 0x33 → Rv.aluR (Rv.fF7 w) (Rv.fF3 w) a b = some v →
      Completes (.hartInstruction h none) s (only_ (if Rv.fRd w = 0 then next
        else { next with x := next.x.setIfInBounds (Rv.fRd w) (BitVec.ofNat 64 v) })))
    ∧ (∀ taken, w % 128 = 0x63 → Rv.branch (Rv.fF3 w) a b = some taken → Completes (.hartInstruction h none) s
        (only_ (if taken then Rv.goto (s.hart h) (Rv.w64 (Rv.s64 pc + Rv.immB w)) else next)))
    ∧ (w % 128 = 0x6F → Completes (.hartInstruction h none) s
        (only_ (Rv.wx (Rv.goto (s.hart h) (Rv.w64 (Rv.s64 pc + Rv.immJ w))) (Rv.fRd w) ((pc + len) % 2 ^ 64))))
    ∧ (w % 128 = 0x03 → Rv.fF3 w ≠ 7 →
      let ea := Rv.w64 (Rv.s64 a + Rv.immI w)
      let size := 2 ^ (Rv.fF3 w % 4)
      let v := readN s.mem ea size
      ea + size ≤ 2 ^ 50 → s.accessFault (s.hart h) .load false ea size = none → Completes (.hartInstruction h none) s
        (only_ (Rv.wx next (Rv.fRd w) (if Rv.fF3 w < 4 then wrap 64 (sext (8 * size) v) else v))))
    ∧ (w % 128 = 0x23 → Rv.fF3 w < 4 →
      let ea := Rv.w64 (Rv.s64 a + Rv.immS w)
      let size := 2 ^ Rv.fF3 w
      inCanopy ea = false → s.accessFault (s.hart h) .store false ea size = none → Completes (.hartInstruction h none) s (fun t =>
        t.hart h = next.counted ∧ t.mem = writeBytes s.mem ea (leBytes size b)
        ∧ (∀ g, g ≠ h → t.hart g = { s.hart g with resv := (t.hart g).resv }) ∧ Frame [.harts, .mem] s t))
    ∧ (∀ r, w % 128 = 0x2F → (Rv.fF3 w = 2 ∨ Rv.fF3 w = 3) → r = 2 ^ Rv.fF3 w →
      (bits 31 27 w = 2 → Rv.fRs2 w = 0 → s.accessFault (s.hart h) .loadReserved false a r = none → Completes (.hartInstruction h none) s
        (only_ { Rv.wx next (Rv.fRd w) (wrap 64 (sext (8 * r) (readN s.mem a r))) with resv := some (a, r) }))
      ∧ (bits 31 27 w = 3 → s.accessFault (s.hart h) .atomic false a r = none → (∃ x n, (s.hart h).resv = some (x, n) ∧ x ≤ a ∧ a + r ≤ x + n) → Completes (.hartInstruction h none) s (fun t =>
        t.hart h = ({ Rv.wx next (Rv.fRd w) 0 with resv := none } : Hart).counted ∧ t.mem = writeBytes s.mem a (leBytes r b)
        ∧ (∀ g, g ≠ h → t.hart g = { s.hart g with resv := (t.hart g).resv }) ∧ Frame [.harts, .mem] s t))
      ∧ (bits 31 27 w = 3 → s.accessFault (s.hart h) .atomic false a r = none → (s.hart h).resv = none → Completes (.hartInstruction h none) s
        (only_ { Rv.wx next (Rv.fRd w) 1 with resv := none }))
      ∧ (∀ v, bits 31 27 w ≠ 2 → bits 31 27 w ≠ 3 → s.accessFault (s.hart h) .atomic false a r = none → Rv.amoValue (bits 31 27 w) (8 * r) (readN s.mem a r) b = some v →
        Completes (.hartInstruction h none) s (fun t =>
          t.hart h = (Rv.wx next (Rv.fRd w) (wrap 64 (sext (8 * r) (readN s.mem a r)))).counted
          ∧ t.mem = writeBytes s.mem a (leBytes r v)
          ∧ (∀ g, g ≠ h → t.hart g = { s.hart g with resv := (t.hart g).resv }) ∧ Frame [.harts, .mem] s t)))
    ∧ (∀ n u, s.plan h = .reg n → StepMayFail s → (u.site = .cacheDirty → Completes (.hartInstruction h (some u)) s (fun t =>
        t.hart h = { s.hart h with st := .stopped } ∧ t.err.stepFailed = true ∧ OtherHarts h s t ∧ Frame [.harts, .err, .recorder] s t))
      ∧ (u.site = .cacheClean true → u.again = false → Completes (.hartInstruction h (some u)) s (fun t =>
        t.hart h = n.counted ∧ (if h < 64 then t.canopy.l3Sd0 = min (s.canopy.l3Sd0 + 1) (2 ^ 32 - 1)
          else t.canopy.l3Sd1 = min (s.canopy.l3Sd1 + 1) (2 ^ 32 - 1))
        ∧ t.err = { s.err with unitRetries := min (s.err.unitRetries + 1) (2 ^ 64 - 1) }
        ∧ OtherHarts h s t ∧ Frame [.harts, .canopy, .err, .recorder] s t)))

/-- A load that touches the canopy first asks for each of its lines, with entries free, and completes once all have come, its
registers taking their bytes (R183). A store sends one masked LWRITE for each line and stores its local bytes (R183, R289,
R295). A first-fault load does the elements before a fault (R187, R188). A doorbell with fewer than 8 outstanding is queued and
the hart goes on (R193). The oldest takes effect: a transfer to its core, an identity at its hart, or the hart
halts and its part of the step is over (R180, R190 to R192). KFX_CFENCE passes once every LWRITE of the hart is acknowledged
(R194). -/
def Obligations.HartsReachTheCanopyAndRingDoorbells : Prop :=
  ∀ (s : State) (h : Nat), s.clocked = true → h < 128 →
    let askedFor (lines : List Nat) (t : State) : Prop :=
      t.hart h = { s.hart h with want := lines, buf := [], sent := true } ∧ OtherHarts h s t
      ∧ t.fab.track.map (fun e => (e.owner, e.pkt.kind, e.pkt.arg)) = s.fab.track.map (fun e => (e.owner, e.pkt.kind, e.pkt.arg))
          ++ lines.map (fun l => (Owner.hartLoad h, kLREAD, l))
      ∧ Frame [.harts, .fab, .recorder] s t
    (∀ k l n r, s.plan h = .load k l n r → s.hartRuns h = true → (k = true ∨ loadLines l ≠ []) →
      let i := if k then Instr.hartFirstFaultLoad h else .hartCanopyLoad h
      ((s.hart h).sent = false → loadLines l ≠ [] → s.mayInjectAll (gdOfHart h) (loadLines l).length = true → Completes i s (askedFor (loadLines l)))
      ∧ (((s.hart h).sent = true ∨ loadLines l = []) → (s.hart h).want = [] → r = true → Completes i s (fun t =>
          t.hart h = (s.loaded (s.hart h) n l).counted ∧ OtherHarts h s t ∧ Frame [.harts] s t)))
    ∧ (∀ l n, s.plan h = .store l n true → s.hartRuns h = true → storeLines l ≠ [] →
      s.mayInjectAll (gdOfHart h) (storeLines l).length = true → Completes (.hartCanopyStore h) s (fun t =>
        t.fab.track.map (fun e => (e.owner, e.pkt.kind, e.pkt.arg, e.pkt.payload))
          = s.fab.track.map (fun e => (e.owner, e.pkt.kind, e.pkt.arg, e.pkt.payload))
            ++ (storeLines l).map (fun x => (Owner.hartStore h, kLWRITE, x, linePayload (canopyBytes l) x))
        ∧ nget 0 t.fab.unacked (hartKey h) = nget 0 s.fab.unacked (hartKey h) + (storeLines l).length
        ∧ t.mem = (l.filter (fun p => !inCanopy p.addr)).foldl (fun m p => writeBytes m p.addr p.bytes) s.mem
        ∧ t.hart h = { n.counted with resv := (t.hart h).resv } ∧ (∀ g, g ≠ h → t.hart g = { s.hart g with resv := (t.hart g).resv })
        ∧ Frame [.harts, .fab, .mem, .recorder] s t))
    ∧ (∀ a b n i, s.plan h = .doorbell a b n → s.hartRuns h = true → n.db.length < 8 →
      (bits 31 28 a = 0 ∧ i = .kfxDbStepend h ∨ bits 31 28 a = 1 ∧ i = .kfxDbTcflag h ∨ bits 31 28 a = 2 ∧ i = .kfxDbHart h) →
      Completes i s (fun t =>
        t.hart h = ({ n with db := n.db ++ [{ kind := Rv.dbKind a b }], ending := bits 31 28 a == 0 } : Hart).counted
        ∧ OtherHarts h s t ∧ Frame [.harts] s t))
    ∧ (∀ d rest, (s.hart h).db = d :: rest → (s.hart h).st = .running → d.out = false →
      (∀ c cnt flag e, d.kind = .tcflag c cnt flag e → (s.core c).ingress.length < 32 → Completes (.doorbellEffect h) s (fun t =>
        (t.core c).ingress = (s.core c).ingress ++ [⟨.hart h, s.epoch, e, 0, [], flag, cnt, 0⟩] ∧ OtherCores c s t
        ∧ t.hart h = { s.hart h with db := { d with out := true } :: rest } ∧ OtherHarts h s t ∧ Frame [.harts, .cores] s t))
      ∧ (∀ k ident, d.kind = .hart k ident → k ≠ h → ((s.hart k).st = .running ∨ (s.hart k).st = .stopped) → Completes (.doorbellEffect h) s (fun t =>
        t.hart h = { s.hart h with db := rest }
        ∧ t.hart k = { s.hart k with csr := { (s.hart k).csr with eip := (s.hart k).csr.eip ||| (1#256 <<< (ident % 256)) } }
        ∧ (∀ g, g ≠ h → g ≠ k → t.hart g = s.hart g) ∧ Frame [.harts] s t))
      ∧ (d.kind = .stepEnd → Completes (.doorbellEffect h) s (fun t =>
        t.hart h = { s.hart h with db := rest, st := .halted, ended := true } ∧ OtherHarts h s t ∧ Frame [.harts, .snaps] s t)))
    ∧ (∀ n, s.plan h = .cfence n → s.hartRuns h = true → nget 0 s.fab.unacked (hartKey h) = 0 → Completes (.kfxCfence h) s (fun t =>
        t.hart h = n.counted ∧ OtherHarts h s t ∧ Frame [.harts] s t))

/-- A trap, an interrupt that is pending and enabled or else the exception of the instruction at the pc, is taken to mtvec with the pc
in mepc, the cause in mcause, the value in mtval, MPP the mode before it, MPIE the old MIE and MIE clear, in machine mode (R198, R200). With mtvec 0 the
hart stops with its cause, pc and value in its telemetry and the step fails (R200). An MSI for a running hart makes its identity
pending (R196). A hart that has not reached its part of step end in time fails the step (R180). -/
def Obligations.HartsTakeTrapsAndInterrupts : Prop :=
  ∀ (s : State) (h : Nat), s.clocked = true → h < 128 →
    (∀ x c v, s.nextTrap h = some (x, c, v) → s.hartRuns h = true → (s.hart h).sent = false →
      (x.csr.mtvec ≠ 0 → Completes (.hartTrap h) s (fun t =>
        (t.hart h).pc = (if x.csr.mtvec.toNat % 4 = 1 ∧ bitAt 63 c = true then BitVec.ofNat 64 (x.csr.mtvec.toNat / 4 * 4 + 4 * (c % 2 ^ 63))
          else BitVec.ofNat 64 (x.csr.mtvec.toNat / 4 * 4))
        ∧ (t.hart h).machine = true ∧ (t.hart h).csr.mepc = x.pc ∧ (t.hart h).csr.mcause = BitVec.ofNat 64 c
        ∧ (t.hart h).csr.mtval = BitVec.ofNat 64 v
        ∧ (t.hart h).csr.mstatus.getLsbD 3 = false ∧ (t.hart h).csr.mstatus.getLsbD 7 = x.csr.mstatus.getLsbD 3
        ∧ (t.hart h).csr.mstatus.getLsbD 11 = x.machine ∧ (t.hart h).csr.mstatus.getLsbD 12 = x.machine
        ∧ (∀ b, b ≠ 3 → b ≠ 7 → b ≠ 11 → b ≠ 12 → (t.hart h).csr.mstatus.getLsbD b = x.csr.mstatus.getLsbD b)
        ∧ t.hart h = { x with
            pc := (t.hart h).pc, machine := true
            csr := { x.csr with
              mepc := (t.hart h).csr.mepc, mcause := (t.hart h).csr.mcause, mtval := (t.hart h).csr.mtval, mstatus := (t.hart h).csr.mstatus } }
        ∧ OtherHarts h s t ∧ Frame [.harts] s t))
      ∧ (x.csr.mtvec = 0 → StepMayFail s → Completes (.hartTrap h) s (fun t =>
        t.hart h = { x with
            st := .stopped
            stats := { x.stats with trapCause := c % 2 ^ 64, trapPc := x.pc.toNat, trapValue := v % 2 ^ 64 } }
        ∧ t.err.stepFailed = true ∧ OtherHarts h s t ∧ Frame [.harts, .err, .recorder] s t)))
    ∧ (∀ ident, (ident = 1 ∨ ident = 2 ∨ 16 ≤ ident ∧ ident < 256) → ((s.hart h).st = .running ∨ (s.hart h).st = .stopped) →
      Completes (.msiArrival h ident) s (fun t =>
        t.hart h = { s.hart h with csr := { (s.hart h).csr with eip := (s.hart h).csr.eip ||| (1#256 <<< (ident % 256)) } }
        ∧ OtherHarts h s t ∧ Frame [.harts] s t))
    ∧ ((s.hart h).st = .running → (s.hart h).ended = false → s.job.stepRunning = true → StepMayFail s → Completes (.solverStepTimeout h) s (fun t =>
        t.err.stepFailed = true ∧ Frame [.err, .recorder] s t))

/-- Whoever sends it, a doorbell of another hart, a WIDEN descriptor that completes, a host through a doorbell register, or an arrival by
itself, an MSI for a hart that is OFF or HALTED leaves its interrupt file and its state as they are, and `SolverCore.DroppedMsi`
of the hart, 0x6100 + h, reads one more, up to the greatest value of a U32. -/
def Obligations.MsisForStoppedHartsAreDropped : Prop :=
  ∀ (s : State) (h : Nat), s.clocked = true → h < 128 → ((s.hart h).st = .off ∨ (s.hart h).st = .halted) →
    (∀ ident, (ident = 1 ∨ ident = 2 ∨ 16 ≤ ident ∧ ident < 256) → Completes (.msiArrival h ident) s (fun t =>
      Dropped h s t ∧ OtherHarts h s t ∧ Frame [.harts] s t))
    ∧ (∀ g ident rest, g < 128 → g ≠ h → (s.hart g).db = ⟨.hart h ident, false⟩ :: rest → (s.hart g).st = .running →
      Completes (.doorbellEffect g) s (fun t => Dropped h s t ∧ Frame [.harts] s t))
    ∧ (∀ p, p < 2 → s.hostOpen p = true → (s.hp p).d3hot = false → s.hartOn h = true → Completes (.hostDoorbell p h) s (fun t =>
      Dropped h s t ∧ OtherHarts h s t ∧ Frame [.harts] s t))
    ∧ (∀ n id x, n < 32 → s.convCtx n id = some x → (s.convDesc x.item.desc).op = .widen → (s.convDesc x.item.desc).rows ≤ x.row → x.out = [] →
      x.flagOut = false → x.flagged = 0 → (s.core (s.convDesc x.item.desc).core0).ingress.length < 32 →
      (s.convDesc x.item.desc).irq = true → (s.convDesc x.item.desc).hart = h → Completes (.convDescriptorDone n id) s (fun t =>
        Dropped h s t ∧ Frame [.mem, .stations, .harts, .cores] s t))

/-- DMLINK puts its problem at the end of the die's queue of 256 and retires (R252). PROBLEM_START reads the block at its address and
begins the solve at operation 0 (R259, R260). LINK_DOT writes slot D with base plus or minus the sum of shifted products,
saturated to 64 bits (R256). LINK_PIVOT clamps a pivot below the threshold to it and writes its reciprocal. LINK_NORM
ends the solve as converged at or below TOL, at the cap as capped or saturated, and lets it go on else (R261). The end writes
digest, status, norm and solution and counts at the core (R252, R259). A parity error or a timeout drops the problem and fails
the step (R263). -/
def Obligations.LinkageEnginesSolve : Prop :=
  ∀ (s : State) (d : Nat), s.clocked = true → d < 8 →
    let others (t : State) : Prop := ∀ e, e ≠ d → t.link e = s.link e
    (∀ c q rest, c < 256 → c / 32 = d → (s.core c).going → (s.core c).qDm = q :: rest → q.op = 0x42 → (s.link d).queue.length < 256 →
      Completes (.dmlink c) s (fun t =>
        (t.link d).queue = (s.link d).queue ++ [⟨c, bits 23 8 q.word, s.copyBase (bits 39 32 q.word) 0 + ixAdd (bits 31 24 q.word) q.cnt (bits 79 40 q.word),
          if bitAt 83 q.word then some (bits 82 80 q.word) else none, (s.core c).roleEpoch.toNat, none⟩]
        ∧ (t.link d).high = max (s.link d).high ((s.link d).queue.length + 1) ∧ others t
        ∧ t.core c = { s.core c with qDm := rest } ∧ OtherCores c s t ∧ Frame [.cores, .links] s t))
    ∧ (∀ p rest, (s.link d).queue = p :: rest →
      let sc := s.schedule p
      let now_ (x : Solve) (t : State) : Prop :=
        t.link d = { s.link d with queue := { p with active := some x } :: rest } ∧ others t
      (p.active = none → Completes (.problemStart d false) s (fun t =>
        now_ (solveStart sc (readBytes s.mem p.addr (blockBytes sc))) t ∧ Frame [.links, .hbm] s t))
      ∧ (∀ x w, p.active = some x → sc.ops.getD x.pc 0 = w →
        let turn (y : Solve) : Solve := if x.pc + 1 < sc.nops then { y with pc := x.pc + 1 } else { y with pc := sc.body, iter := x.iter + 1 }
        (opCode w = 1 → Completes (.linkDot d false) s (fun t =>
          let ed := slotE sc (opD w)
          let base := if opCen w then shiftInt (slotV x (opC w)) (slotE sc (opC w) - ed) else 0
          let sum := ((slice sc.pairs (opList w) (opLen w)).map (fun e =>
            shiftInt (slotV x (pairA e) * slotV x (pairB e)) (slotE sc (pairA e) + slotE sc (pairB e) - ed))).sum
          let r := fxSat (if opNeg w then base - sum else base + sum)
          now_ (turn { x with v := x.v.set (opD w) r.1, saturatedFlag := x.saturatedFlag || r.2, sats := x.sats + (if r.2 then 1 else 0) }) t
          ∧ Frame [.links] s t))
        ∧ (opCode w = 2 → Completes (.linkPivot d false) s (fun t =>
          let p0 := slotV x (opC w)
          let th := shiftInt 1 (63 + sc.thr)
          let p1 := if (p0.natAbs : Int) < th then (if p0 < 0 then -th else th) else p0
          let k := -(slotE sc (opC w)) - slotE sc (opD w)
          let r := fxSat (if 0 ≤ k then Int.fdiv (shiftInt 1 k) p1 else Int.fdiv 1 (p1 * shiftInt 1 (-k)))
          ∃ y, now_ (turn y) t ∧ y.v = (if (p0.natAbs : Int) < th then x.v.set (opC w) p1 else x.v).set (opD w) r.1
            ∧ y.clamps = x.clamps + (if (p0.natAbs : Int) < th then 1 else 0) ∧ y.sats = x.sats + (if r.2 then 1 else 0)
            ∧ y = { x with v := y.v, clamps := y.clamps, sats := y.sats, clampedFlag := x.clampedFlag || decide ((p0.natAbs : Int) < th)
                           saturatedFlag := x.saturatedFlag || r.2 } ∧ Frame [.links] s t))
        ∧ (opCode w = 3 → p.cnt = none →
          (sc.tol < normOf sc w x → x.iter ≠ sc.cap → Completes (.linkNorm d false) s (fun t =>
            now_ (turn { x with norm := normOf sc w x }) t ∧ Frame [.links] s t))
          ∧ (∀ e, (normOf sc w x ≤ sc.tol ∧ e = .converged
                ∨ sc.tol < normOf sc w x ∧ x.iter = sc.cap ∧ x.saturatedFlag = true ∧ e = .saturated
                ∨ sc.tol < normOf sc w x ∧ x.iter = sc.cap ∧ x.saturatedFlag = false ∧ e = .capped) → Completes (.linkNorm d false) s (fun t =>
            t.mem = (solveWrites sc { x with norm := normOf sc w x } e).foldl (fun m r => writeBytes m (p.addr + r.1) r.2) s.mem
            ∧ (t.link d).queue = rest ∧ (t.link d).solved = min ((s.link d).solved + 1) (2 ^ 64 - 1)
            ∧ (t.link d).converged = min ((s.link d).converged + (if e = .converged then 1 else 0)) (2 ^ 64 - 1) ∧ others t
            ∧ (∀ h, t.hart h = { s.hart h with resv := (t.hart h).resv }) ∧ Frame [.links, .mem, .harts, .hbm] s t)))
        ∧ (∀ i, opCode w = 3 → p.cnt = some i → (s.core p.core).ingress.length < 32 → normOf sc w x ≤ sc.tol → Completes (.linkNorm d false) s (fun t =>
            (t.core p.core).ingress = (s.core p.core).ingress ++ [⟨.none, s.epoch, p.repoch, 0, [], none, some i, 0⟩]
            ∧ (t.link d).queue = rest ∧ OtherCores p.core s t ∧ Frame [.links, .mem, .harts, .hbm, .cores] s t)))
      ∧ (StepMayFail s → ∀ i, (i = .problemStart d true ∧ p.active = none
          ∨ ∃ x, p.active = some x ∧ (i = .linkTimeout d ∨ opCode (sc.ops.getD x.pc 0) = 1 ∧ i = .linkDot d true
              ∨ opCode (sc.ops.getD x.pc 0) = 2 ∧ i = .linkPivot d true ∨ opCode (sc.ops.getD x.pc 0) = 3 ∧ p.cnt = none ∧ i = .linkNorm d true)) →
        Completes i s (fun t => (t.link d).queue = rest ∧ others t ∧ t.err.stepFailed = true ∧ Frame [.links, .err, .recorder] s t)))

/-- The segments of a RECORD are kept in ascending offset; the last one of a record that passes the checks makes an idle package ACCEPTED:
it holds the job that the record names, everything of the last one stops, a job reset begins, ACCEPT goes to the parent and the
record to each child (R343, R344, R346, Table 15.3). A child's ACCEPT is noted. With its own load complete the last child's LOADED
makes it LOADED at the job's start point and sends LOADED up (R345, R395). ALIGN from the parent begins a measurement (R306,
R307). The last child's ACK makes it READY and sends ACK up (R345). -/
def Obligations.ThePitchIsGathered : Prop :=
  ∀ (s : State) (k : Packet), s.clocked = true →
    (s.isMine k kPITCH = true → bits 7 0 k.arg = 1 →
      (∀ got, (bits 22 11 k.arg = 0 ∧ got = k.payload ∨ bits 22 11 k.arg = s.pitch.recv.length ∧ got = s.pitch.recv ++ k.payload) →
        (got.length < 1152 → Completes (.pitchRecord k) s (fun t => t.pitch = { s.pitch with recv := got } ∧ Frame [.pitch, .fab] s t))
        ∧ (∀ rank, 1152 ≤ got.length → s.pitch.st = .idle → rank ≠ 0 →
          let r := got.take 1152
          s.rankIn r = some rank → recordPeg r = (List.range 512).map s.fab.tabs.pegOf → Completes (.pitchRecord k) s (fun t =>
            t.pitch.st = .accepted ∧ t.pitch.record = r ∧ t.pitch.resetting = some .load ∧ t.pitch.accepted = [] ∧ t.pitch.loaded = []
            ∧ t.pitch.acked = [] ∧ t.pitch.struck = none
            ∧ t.job = { held := true, id := fieldAt r 6 2, attempt := fieldAt r 32 1, step := fieldAt r 16 8, first := fieldAt r 16 8
                        kind := fieldAt r 4 2, rank := rank, ranks := fieldAt r 8 2, seed := fieldAt r 24 8, peg := recordPeg r }
            ∧ (∀ c, t.core c = { stats := (s.core c).stats }) ∧ (∀ h, (t.hart h).st = .off)
            ∧ t.fab = ((t.children.foldl State.sendRecord (({ t with fab := { ((s.takeLocal k).1).fab with
                track := [], txSeq := [], rxSpace := [], reorder := [], keepSeq := [], unanswered := [], lineQ := []
                lineLast := [], unacked := [], puts := [], spaceLock := [] } } : State).sendPitch 2 0 0 0 (parentOf rank) []))).fab
            ∧ Frame [.pitch, .job, .cores, .harts, .stations, .links, .coll, .nacks, .reissues, .tt, .fab, .guy, .ckpt, .rp, .recorder] s t))))
    ∧ (s.isMine k kPITCH = true → s.job.held = true → k.job = s.job.id → k.srcRank ∈ s.children → s.pitch.resetting ≠ some .idle →
      (bits 7 0 k.arg = 2 → (s.pitch.st = .accepted ∨ s.pitch.st = .loaded ∨ s.pitch.st = .aligned) → k.srcRank ∉ s.pitch.accepted →
        Completes (.pitchAccept k) s (fun t =>
          t.pitch = { s.pitch with accepted := s.pitch.accepted ++ [k.srcRank] } ∧ Frame [.pitch, .fab] s t))
      ∧ (bits 7 0 k.arg = 3 → s.pitch.st = .accepted → k.srcRank ∉ s.pitch.loaded →
        ((∃ c ∈ s.children, c ≠ k.srcRank ∧ c ∉ s.pitch.loaded) → Completes (.pitchLoaded k) s (fun t =>
          t.pitch = { s.pitch with loaded := s.pitch.loaded ++ [k.srcRank] } ∧ Frame [.pitch, .fab] s t))
        ∧ (s.pitch.ownLoaded = true → s.job.rank ≠ 0 → (∀ c ∈ s.children, c = k.srcRank ∨ c ∈ s.pitch.loaded) → Completes (.pitchLoaded k) s (fun t =>
          t.pitch = { s.pitch with st := .loaded, loaded := s.pitch.loaded ++ [k.srcRank] } ∧ t.power.job = some (s.dnat 0x2110 2)
          ∧ t.fab = (({ t with fab := ((s.takeLocal k).1).fab } : State).sendPitch 3 0 0 0 (parentOf s.job.rank) []).fab
          ∧ Frame [.pitch, .power, .fab, .recorder] s t)))
      ∧ (bits 7 0 k.arg = 5 → s.pitch.st = .aligned → k.srcRank ∉ s.pitch.acked → s.job.rank ≠ 0 → s.job.kind ≠ 3 →
        ((∃ c ∈ s.children, c ≠ k.srcRank ∧ c ∉ s.pitch.acked) → Completes (.pitchAck k) s (fun t =>
          t.pitch = { s.pitch with acked := s.pitch.acked ++ [k.srcRank] } ∧ Frame [.pitch, .fab] s t))
        ∧ ((∀ c ∈ s.children, c = k.srcRank ∨ c ∈ s.pitch.acked) → Completes (.pitchAck k) s (fun t =>
          t.pitch = { s.pitch with st := .ready, acked := s.pitch.acked ++ [k.srcRank] } ∧ t.guy = { s.guy with commit := .done false }
          ∧ t.fab = (({ t with fab := ((s.takeLocal k).1).fab } : State).sendPitch 5 0 0 0 (parentOf s.job.rank) []).fab
          ∧ Frame [.pitch, .guy, .fab, .recorder] s t))))
    ∧ (s.isMine k kPITCH = true → bits 7 0 k.arg = 4 → s.job.held = true → k.job = s.job.id → s.pitch.st = .loaded → s.job.rank ≠ 0 →
      k.srcRank = parentOf s.job.rank → s.rp.measure = none → s.pitch.resetting ≠ some .idle → Completes (.pitchAlign k) s (fun t =>
        t.rp = { s.rp with parent := some (parentOf s.job.rank), measure := some { use := .align 0 } } ∧ Frame [.rp, .fab] s t))
    ∧ (∀ i, s.isMine k kPITCH = true → (s.job.held = false ∨ k.job ≠ s.job.id) →
      (bits 7 0 k.arg = 2 ∧ i = .pitchAccept k ∨ bits 7 0 k.arg = 3 ∧ i = .pitchLoaded k ∨ bits 7 0 k.arg = 4 ∧ i = .pitchAlign k
        ∨ bits 7 0 k.arg = 5 ∧ i = .pitchAck k) → Completes i s (fun t =>
        t.guy = { s.guy with discards := min (s.guy.discards + 1) (2 ^ 32 - 1) } ∧ Frame [.guy, .fab] s t))

/-- An image that passes its checks is placed: its regions, every core's active bank with its entry role or a STEPEND, and the own load is
complete; a fetch that fails sends FAIL with IMAGE_FETCH up (R347, Tables 15.3, 15.4). FAIL of a child goes up with its rank and
reason, a child that is late becomes NO_ACCEPT, NO_LOADED or NO_ACK (R345, R348, R349). ABORT, and a pitch without READY in
time, begin a job reset. QUIESCE in place of a RELEASE passes down and the commit begins; the last QUIESCED goes up (R354). STRIKE for the
own job strikes it (R352). A job reset that is done leaves stacked memory zero but what it keeps, and the package IDLE without a
job, or ready to load (R344, R345). -/
def Obligations.PitchesFailQuiesceAndEnd : Prop :=
  ∀ s : State, s.clocked = true →
    (∀ img b im, img = some b → s.pitch.st = .accepted → s.pitch.resetting = none → s.pitch.ownLoaded = false → s.pitch.failSent = false →
      s.ckpt.restoring = false → b.length = fieldAt (s.dval 0x9030 6) 16 8 → fieldAt b 16 8 = b.length →
      (s.hp (fieldAt (s.dval 0x9030 6) 0 1)).inPerst = false →
      checkImage b s.job.ranks (slice s.pitch.record 64 64) s.familyValue s.capacity = .ok im →
      s.gatedEntry im s.job.rank (placeImage im s.capacity).2 = none → (∀ r ∈ im.regions, r.kind ≠ .host) →
      (∀ p ∈ (placeImage im s.capacity).2, p.r.kind ≠ .far) → s.job.kind = 1 → (∃ c ∈ s.children, c ∉ s.pitch.loaded) →
      Completes (.loadComplete img) s (fun t =>
        t.job = { s.job with image := some im, placed := (placeImage im s.capacity).2 } ∧ t.pitch = { s.pitch with ownLoaded := true }
        ∧ t.reject = none
        ∧ (∀ c, c < 256 → (t.core c).seq = .idle ∧ (t.core c).bank0.st = .active ∧ (t.core c).activeIs1 = false
          ∧ (∀ r, (entryOf im s.job.rank c).bind (fun e => im.role e) = some r →
            (t.core c).entry = some r.id ∧ (t.core c).bank0.cmds = r.cmds ∧ (t.core c).bank0.descs = r.descs)
          ∧ ((entryOf im s.job.rank c).bind (fun e => im.role e) = none → (t.core c).entry = none ∧ (t.core c).bank0.cmds = [5]))
        ∧ t.mem = writeBytes (im.wlayout.foldl (layWeights im (placeImage im s.capacity).2)
            ((placeImage im s.capacity).2.foldl (initRegion im) s.mem)) regionTable (tableBytes (placeImage im s.capacity).2)
        ∧ Frame [.job, .pitch, .reject, .cores, .mem, .hbm, .outputs, .ckpt] s t))
    ∧ (s.pitch.st = .accepted → s.pitch.resetting = none → s.pitch.ownLoaded = false → s.pitch.failSent = false → s.ckpt.restoring = false →
      s.myRank ≠ 0 → Completes (.loadComplete none) s (fun t =>
        t.pitch = { s.pitch with failSent := true } ∧ t.fab = (s.sendPitch 6 0x06 s.job.rank 0 (parentOf s.myRank) []).fab
        ∧ Frame [.pitch, .fab, .recorder] s t))
    ∧ (∀ k : Packet, s.isMine k kPITCH = true → s.job.held = true → k.job = s.job.id → s.pitch.resetting ≠ some .idle →
      (bits 7 0 k.arg = 6 → s.pitching = true → k.srcRank ∈ s.children → s.job.rank ≠ 0 → Completes (.pitchFail k) s (fun t =>
        t.pitch = { s.pitch with failed := addOnce s.pitch.failed k.srcRank }
        ∧ t.fab = (((s.takeLocal k).1).sendPitch 6 (bits 39 32 k.arg) (bits 31 23 k.arg) 0 (parentOf s.job.rank) []).fab
        ∧ Frame [.pitch, .fab, .recorder] s t))
      ∧ (bits 7 0 k.arg = 7 → s.pitch.st ≠ .running → s.pitch.st ≠ .idle → Completes (.pitchAbort k) s (fun t =>
        t.pitch = { s.pitch with resetting := some .idle, keepBivouac := false } ∧ t.job = { s.job with stepRunning := false }
        ∧ (∀ c, t.core c = { stats := (s.core c).stats }) ∧ (∀ h, (t.hart h).st = .off) ∧ t.fab.track = []
        ∧ Frame [.pitch, .job, .cores, .harts, .stations, .links, .coll, .nacks, .reissues, .tt, .fab, .guy, .ckpt, .rp] s t))
      ∧ (bits 7 0 k.arg = 8 → s.pitch.st = .running → s.job.rank ≠ 0 → k.srcRank = parentOf s.job.rank → s.job.stepRunning = true →
        s.guy.sentClean = true → s.guy.held = none → s.guy.commit = .none → s.err.replayTo = none → Completes (.pitchQuiesce k) s (fun t =>
          t.guy = { s.guy with commit := .running 4 (!s.flyDue) true } ∧ t.job = { s.job with committed := s.job.step }
          ∧ t.fab = (s.children.foldl (fun u c => u.sendPitch 8 0 0 0 c []) (s.takeLocal k).1).fab
          ∧ Frame [.outputs, .mem, .harts, .hbm, .hp0, .hp1, .recorder, .out, .err, .job, .guy, .fab] s t))
      ∧ (bits 7 0 k.arg = 9 → s.pitch.st = .quiesced → s.job.rank ≠ 0 → k.srcRank ∈ s.children → k.srcRank ∉ s.pitch.quiesced →
        (∀ c ∈ s.children, c = k.srcRank ∨ c ∈ s.pitch.quiesced) → Completes (.pitchQuiesced k) s (fun t =>
          t.pitch = { s.pitch with quiesced := s.pitch.quiesced ++ [k.srcRank] }
          ∧ t.fab = (((s.takeLocal k).1).sendPitch 9 0 0 0 (parentOf s.job.rank) []).fab ∧ Frame [.pitch, .fab, .recorder] s t)))
    ∧ (∀ c, c ∈ s.children → c ∉ s.pitch.failed → s.pitch.resetting ≠ some .idle → s.job.held = true → s.job.rank ≠ 0 →
      ∀ r, (s.pitch.st = .accepted ∧ c ∉ s.pitch.accepted ∧ r = 1 ∨ s.pitch.st = .accepted ∧ c ∈ s.pitch.accepted ∧ c ∉ s.pitch.loaded ∧ r = 2
        ∨ s.pitch.st = .aligned ∧ c ∉ s.pitch.acked ∧ r = 3) → Completes (.pitchChildTimeout c) s (fun t =>
          t.pitch = { s.pitch with failed := s.pitch.failed ++ [c] }
          ∧ t.fab = (s.sendPitch 6 r c 0 (parentOf s.job.rank) []).fab ∧ Frame [.pitch, .fab, .recorder] s t))
    ∧ (s.pitching = true → s.pitch.resetting ≠ some .idle → Completes .pitchAbandonTimeout s (fun t =>
        t.pitch = { s.pitch with resetting := some .idle, keepBivouac := false } ∧ t.job = { s.job with stepRunning := false }
        ∧ (∀ c, t.core c = { stats := (s.core c).stats }) ∧ t.fab.track = []
        ∧ Frame [.pitch, .job, .cores, .harts, .stations, .links, .coll, .nacks, .reissues, .tt, .fab, .guy, .ckpt, .rp, .recorder] s t))
    ∧ (∀ k : Packet, s.isMine k kSTRIKE = true → s.job.held = true → k.job = s.job.id → s.pitch.struck ≠ some k.job → s.pitch.resetting ≠ some .idle →
      MayBeStruck s → Completes (.strikePacket k) s (fun t => Struck (bits 7 0 k.arg) s t ∧ Frame strikeParts s t))
    ∧ (∀ us after, s.pitch.resetting = some after → s.hp0.held = [] → s.hp1.held = [] → s.dict.pend = [] → Completes (.jobResetDone us) s (fun t =>
        (∀ a, readByte t.mem a = if s.keepsByte a then readByte s.mem a else 0) ∧ t.outputs = {} ∧ t.harts = [] ∧ t.coll = {}
        ∧ (∀ c, t.core c = { stats := { maintPasses := (s.core c).stats.maintPasses } })
        ∧ t.pitch.resetting = none ∧ t.hbm.wipeUs = min us (2 ^ 32 - 1)
        ∧ (after = .idle → t.pitch.st = .idle ∧ t.job = {} ∧ t.power.job = none ∧ (t.err.st = 0 ∨ s.err.st = 6))
        ∧ (after = .load → t.pitch.st = s.pitch.st ∧ t.job = s.job ∧ t.pitch.record = s.pitch.record)
        ∧ t.mram = s.mram ∧ t.sec = s.sec ∧ t.dict.vals = s.dict.vals))

/-- The end of a commit has copied each INPUT region's staging copy into its working copy where that was still to do, has let BAR2 requests that
waited go, and lets a late RELEASE start at the next 10 ns; a QUIESCE makes the package QUIESCED (R25, R26, R32, R354). The end
of a capture has copied the step state into the flysheet too and starts the drain, into the slot that is not the newest or, where
one was under way, into its slot again (R377, R379). After the last line the record is sent, and stored in the stage; acknowledged,
it makes its slot the newest (R382, R383). A line of the ward is stored and ends its slot's record, a stranger's only counts, and
the holder's restores both copies of a line, its record ending the restore (R381, R382, R386). A recovery re-layout brings the step
state back, empties every scratch and makes the entry roles active; with its children's arrivals the package's own goes up (Table
16.5, R365, R367). -/
def Obligations.CommitsAndCheckpointsComplete : Prop :=
  ∀ s : State, s.clocked = true →
    (∀ a q, s.guy.commit = .running a true q →
      Completes .commitSequenceComplete s (fun t => t.hp0.held = [] ∧ t.hp1.held = [] ∧ t.guy.commit = .done q)
      ∧ (s.hp0.held = [] → s.hp1.held = [] → Completes .commitSequenceComplete s (fun t =>
        t.guy = { s.guy with
          commit := .done q
          held := s.guy.held.map (fun r => if r.t < s.nsUp then { r with at_ := max r.at_ (tenNs s.nsUp) } else r) }
        ∧ (a = 4 → t.mem = inputsTaken s ∧ t.outputs = { s.outputs with inputTab := inputDigests s (inputsTaken s) }
          ∧ t.err = { s.err with inputChanged := s.err.inputChanged || s.err.staged, staged := false })
        ∧ (a ≠ 4 → t.mem = s.mem ∧ t.outputs = s.outputs ∧ t.err = s.err ∧ t.hbm = s.hbm)
        ∧ (q = true → t.pitch = { s.pitch with st := .quiesced }) ∧ (q = false → t.pitch = s.pitch ∧ t.fab = s.fab)
        ∧ (q = true → s.job.rank ≠ 0 → (∀ c ∈ s.children, c ∈ s.pitch.quiesced) →
          t.fab = (s.sendPitch 9 0 0 0 (parentOf s.job.rank) []).fab)
        ∧ Frame [.guy, .mem, .hbm, .outputs, .err, .recorder, .pitch, .fab] s t)))
    ∧ (∀ q, s.guy.commit = .running 4 false q → s.hp0.held = [] → s.hp1.held = [] → Completes .captureComplete s (fun t =>
        t.guy = { s.guy with commit := .running 5 true q } ∧ t.ckpt.flyStep = s.job.step
        ∧ t.err = { s.err with inputChanged := false, staged := false }
        ∧ t.outputs = { s.outputs with inputTab := inputDigests s (inputsTaken s) }
        ∧ (s.dnat 0xA010 3 = 0xFFFF → t.mem = stateCopied s 0 1 (inputsTaken s) ∧ t.ckpt = { s.ckpt with flyStep := s.job.step })
        ∧ (s.dnat 0xA010 3 ≠ 0xFFFF →
          (∃ n, t.ckpt.drain = some { slot := drainSlot s, step := s.job.step, unacked := n }
            ∧ n = match s.ckpt.drain with
              | some d => d.unacked
              | none => 0)
          ∧ t.ckpt.restarts = (if s.ckpt.drain.isSome then min (s.ckpt.restarts + 1) (2 ^ 32 - 1) else s.ckpt.restarts)
          ∧ t.mem = match s.ckpt.stage with
            | some p => clearRange (stateCopied s 0 1 (inputsTaken s)) (p.base + p.size - 256 + 128 * drainSlot s) 128
            | none => stateCopied s 0 1 (inputsTaken s))
        ∧ Frame [.guy, .mem, .hbm, .outputs, .err, .ckpt, .recorder] s t))
    ∧ (∀ d, s.ckpt.drain = some d →
      (s.stateLines ≤ d.next → d.unacked = 0 → d.recordOut = false → s.mayInject 0 1 = true → Completes .drainLinesAcked s (fun t =>
        t.ckpt = { s.ckpt with drain := some { d with recordOut := true } }
        ∧ t.fab = (s.inject 0 (slotPacket (s.dnat 0xA010 3) (recordAddr d.slot) (s.commitRecord d)) .record).fab
        ∧ (∀ p, s.ckpt.stage = some p → t.mem = writeBytes s.mem (p.base + p.size - 256 + 128 * d.slot) (s.commitRecord d))
        ∧ (s.ckpt.stage = none → t.mem = s.mem) ∧ Frame [.ckpt, .fab, .mem, .recorder] s t))
      ∧ (d.recordOut = true → (∀ x ∈ s.fab.track, x.owner ≠ .record) → Completes .drainRecordAcked s (fun t =>
        t.ckpt = { s.ckpt with drain := none, drainedStep := d.step, newest := some d.slot } ∧ Frame [.ckpt] s t)))
    ∧ (∀ k : Packet, NextInSpace k s → k.kind = kLWRITE → k.dstCore = 0x3FF →
      ∀ a line, a = bits 40 0 k.arg → line = maskBytes (fieldAt k.payload 0 16) (s.load a 128) (k.payload.drop 16) →
      (s.ckpt.restoring = false → k.srcRank = s.dnat 0xA010 4 →
        (∀ x, x < 2 → a = recordAddr x → Completes (.bivouacLwrite k) s (fun t => t.mem = writeBytes s.mem a line
          ∧ { k with kind := kACK, arg := 0, payload := [] } ∈ (nget {} t.fab.rxSpace (rxKey k)).answers ∧ SpaceAdvanced k s t
          ∧ Frame [.mem, .harts, .fab, .recorder] s t))
        ∧ (∀ x id off, a ≠ recordAddr 0 → a ≠ recordAddr 1 → s.slotOf a = some (x, id, off) → Completes (.bivouacLwrite k) s (fun t =>
          t.mem = writeBytes (writeBytes s.mem (recordAddr x) (zeros 128)) a line
          ∧ { k with kind := kACK, arg := 0, payload := [] } ∈ (nget {} t.fab.rxSpace (rxKey k)).answers ∧ SpaceAdvanced k s t
          ∧ Frame [.mem, .harts, .fab, .recorder] s t)))
      ∧ (s.ckpt.restoring = false → k.srcRank ≠ s.dnat 0xA010 4 → Completes (.bivouacLwrite k) s (fun t =>
          t.ckpt = { s.ckpt with foreign := min (s.ckpt.foreign + 1) (2 ^ 32 - 1) }
          ∧ { k with kind := kACK, arg := 0, payload := [] } ∈ (nget {} t.fab.rxSpace (rxKey k)).answers ∧ SpaceAdvanced k s t
          ∧ Frame [.ckpt, .fab, .recorder] s t))
      ∧ (s.ckpt.restoring = true → k.srcRank = s.dnat 0xA010 3 →
        (∀ x id off, a ≠ recordAddr 0 → a ≠ recordAddr 1 → s.slotOf a = some (x, id, off) → Completes (.bivouacLwrite k) s (fun t =>
          t.mem = writeBytes (writeBytes s.mem (s.copyBase id 0 + off) line) (s.copyBase id 1 + off) line
          ∧ { k with kind := kACK, arg := 0, payload := [] } ∈ (nget {} t.fab.rxSpace (rxKey k)).answers ∧ SpaceAdvanced k s t
          ∧ Frame [.mem, .harts, .fab, .recorder] s t))
        ∧ (∀ x, x < 2 → a = recordAddr x → recordValid line s.job.rank = true → fieldAt line 8 8 = s.job.first - 1 →
            slice line 32 64 = chunkedDigest (s.stepState 0) → (∃ c ∈ s.children, c ∉ s.pitch.loaded) →
          Completes (.bivouacLwrite k) s (fun t =>
            t.ckpt = { s.ckpt with flyStep := s.job.first - 1, restoring := false
                                   newest := s.ckpt.newest.orElse (fun _ => some (fieldAt line 24 1)) }
            ∧ t.pitch = { s.pitch with ownLoaded := true } ∧ Frame [.ckpt, .pitch, .fab, .recorder] s t))))
    ∧ (∀ im, s.job.image = some im → s.err.st = 2 → s.guy.restored = false → s.guy.sentClean = false →
      ∀ l, l = s.tagged s.job.attempt s.err.restoreStep →
      Completes .recoveryRelayoutComplete s (fun t => t.mem = stateCopied s 1 0 s.mem
        ∧ t.job = { s.job with step := s.err.restoreStep + 1 } ∧ t.guy.restored = true
        ∧ (∀ c, (t.core c).scratch = [] ∧ (t.core c).seq = .idle ∧ (t.core c).entry = (s.core c).entry
          ∧ ∀ e, (s.core c).entry = some e → im.role e ≠ none → (t.core c).bank.role = some e)
        ∧ ((∃ c ∈ s.children, ∀ x ∈ l, x.child = c → x.clean = false) → t.guy = { s.guy with restored := true } ∧ t.fab = s.fab
          ∧ Frame [.mem, .hbm, .cores, .job, .guy] s t)
        ∧ ((∀ c ∈ s.children, ∃ x ∈ l, x.child = c ∧ x.clean = true) → s.job.rank ≠ 0 →
          t.guy = { s.guy with restored := true, sentClean := true }
          ∧ t.fab = (s.sendGuy 1 0 (s.gatheredBit l) (parentOf s.job.rank) ⟨s.job.id, s.job.attempt, s.err.restoreStep⟩ []).fab
          ∧ Frame [.mem, .hbm, .cores, .job, .guy, .fab, .recorder] s t)
        ∧ ((∀ c ∈ s.children, ∃ x ∈ l, x.child = c ∧ x.clean = true) → s.job.rank = 0 → s.gatheredBit l = false →
          t.guy.sentClean = true ∧ (∃ r, t.guy.held = some r ∧ r.step = s.err.restoreStep + 1 ∧ r.attempt = s.job.attempt ∧ r.late = false
            ∧ r.t = tenNs (s.nsUp + s.guy.margin) ∧ r.at_ = r.t)
          ∧ Frame [.mem, .hbm, .cores, .job, .guy, .fab, .recorder] s t)))

/-- PERST takes the link down, loses what of the port is not a count or an accepted BAR2 write, and frees the path's locks and
subscriptions; an image being fetched through the port fails the pitch with IMAGE_FETCH (R426). Its end begins link training once step 3
has ended, and training brings the link up at a rate and a width (R407). With the link up a configuration request is answered with
Retry Status until step 8 is complete, and then served: a read with the bytes, a write through each byte's mask, D3hot,
the size of BAR2 from 2^30 to 2^41 bytes, MSI-X enable and mask with the messages that it lets go (R407, R411, R412, R418). Which
offsets the bytes of Table 19.1 have and what the other bytes hold is the model's choice. A far port comes up with its rate
and its device's size; its loss fails the running step (R243, R244, R246). -/
def Obligations.HostPortsComeAndGo : Prop :=
  ∀ (s : State) (p : Nat), p < 2 →
    (s.clocked = true → (s.hp p).inPerst = false → Completes (.perstAssert p) s (fun t =>
      (t.hp p).inPerst = true ∧ (t.hp p).link = .down ∧ (t.hp p).perstCount = min ((s.hp p).perstCount + 1) (2 ^ 32 - 1)
      ∧ (t.hp p).cfg = [] ∧ (t.hp p).msixEnable = false ∧ (t.hp p).d3hot = false ∧ (t.hp p).lost = (s.hp p).busy
      ∧ (∀ off len bad, .read off len bad ∉ (t.hp p).held) ∧ (∀ off bs, .write off bs ∈ (t.hp p).held ↔ .write off bs ∈ (s.hp p).held)
      ∧ t.dict.subs = s.dict.subs.filter (fun x => x.path != pathOfPort p)
      ∧ (∀ l ∈ t.dict.locks, l ∈ s.dict.locks ∧ l.owner ≠ pathOfPort p)
      ∧ (∀ l ∈ s.dict.locks, (∀ m ∈ s.dict.locks, m.owner = pathOfPort p → m.area ≠ l.area) → l ∈ t.dict.locks)
      ∧ (s.fetching p = false → Frame [hpPart p, .service, .recorder] s t)
      ∧ (s.fetching p = true → s.myRank ≠ 0 → t.pitch = { s.pitch with failSent := true }
        ∧ t.fab = (s.sendPitch 6 0x06 s.myRank 0 (parentOf s.myRank) []).fab ∧ Frame [hpPart p, .service, .recorder, .pitch, .fab] s t)))
    ∧ ((s.hp p).inPerst = true → Completes (.perstDeassert p) s (fun t =>
      (t.hp p).quiet = { (s.hp p).quiet with inPerst := false, link := if 4 ≤ s.start.phase.stepNo then .training else .down }
      ∧ Frame [hpPart p] s t))
    ∧ (∀ rate width, s.clocked = true → (s.hp p).link = .training → rate ∈ [64, 32, 16, 8, 5, 2] → width ∈ [16, 8, 4, 2, 1] →
      Completes (.hostLinkUp p rate width) s (fun t =>
        (t.hp p).quiet = { (s.hp p).quiet with link := .up, rate := rate, width := width } ∧ Frame [hpPart p] s t))
    ∧ (s.clocked = true → (s.hp p).inPerst = false → (s.hp p).link = .up →
      (∀ q, s.start.phase ≠ .ready → s.start.phase ≠ .fault → Completes (.configRequest p q) s (fun t =>
        Sends [.configRetry p] s t ∧ Frame [.out] s t))
      ∧ (s.start.phase = .ready ∨ s.start.phase = .fault →
        (∀ off len, Completes (.configRequest p (.read off len)) s (fun t =>
          Sends [.configData p ((List.range len).map (fun i => s.cfgByte p (off + i)))] s t ∧ Frame [.out] s t))
        ∧ (∀ off bs, Completes (.configRequest p (.write off bs)) s (fun t => Sends [.configDone p] s t
          ∧ (∀ i, t.cfgByte p i = if off ≤ i ∧ i < off + bs.length
              then (s.cfgByte p i &&& ~~~(cfgMask (s.hp p).bar2Enc i)) ||| (bs.getD (i - off) 0 &&& cfgMask (s.hp p).bar2Enc i)
              else s.cfgByte p i)
          ∧ Frame [.out, hpPart p] s t))
        ∧ (∀ d3, Completes (.configRequest p (.power d3)) s (fun t => Sends [.configDone p] s t
          ∧ (t.hp p).quiet = { (s.hp p).quiet with d3hot := d3 } ∧ Frame [.out, hpPart p] s t))
        ∧ (∀ enc, Completes (.configRequest p (.bar2Size enc)) s (fun t => Sends [.configDone p] s t
          ∧ (t.hp p).quiet = { (s.hp p).quiet with bar2Enc := if 10 ≤ enc ∧ enc ≤ 21 then enc else (s.hp p).bar2Enc }
          ∧ Frame [.out, hpPart p] s t))
        ∧ (∀ en all, Completes (.configRequest p (.msix en all)) s (fun t =>
          (t.hp p).quiet = { (s.hp p).quiet with msixEnable := en, msixMaskAll := all }
          ∧ (∃ l, t.out = s.out ++ .configDone p :: l ∧ ∀ o ∈ l, o.isNotify = true ∨ ∃ v a d, o = .msix p v a d)
          ∧ (∀ v, en = true → all = false → v ≠ 1 → nget false (s.hp p).pba v = true → (s.hp p).masked v = false →
            nget false (t.hp p).pba v = false ∧ ∃ a d, .msix p v a d ∈ t.out)
          ∧ Frame [.out, hpPart p] s t))))
    ∧ (∀ rate device, s.clocked = true → (s.far p).link ≠ 2 → rate < 256 → device < 2 ^ 64 → Completes (.farLinkUp p rate device) s (fun t =>
      t.far p = { s.far p with link := 2, rate := rate, device := device } ∧ Frame [farPart p] s t))
    ∧ (s.clocked = true → (s.far p).link = 2 →
      (StepMayFail s → Completes (.farLinkDown p) s (fun t =>
        t.far p = { s.far p with link := 0, rate := 0 } ∧ t.err.stepFailed = true ∧ Frame [farPart p, .err, .recorder] s t))
      ∧ (s.pitch.st = .idle → s.err.st ≠ 5 → Completes (.farLinkDown p) s (fun t =>
        t.far p = { s.far p with link := 0, rate := 0 } ∧ Frame [farPart p, .recorder] s t)))

/-- MBX_GO copies a request of 16 to 4,096 bytes to the dictionary service, sets OVERRUN where one is in progress and does nothing with another
length (R416). Writes to BAR0 reach the registers, the doorbells, the request buffer and the command-store window at their
offsets, and the read-only windows abort them (R415). A doorbell makes identity 2 pending in its hart, or is dropped and counted, or
aborts where the hart's clock is off (R196, R197, R399, R419). BAR2 reads active visible and staging copies and aborts others; a
write goes to staging copies, or is recorded or counted as discarded; either waits while it must (R27, R29, R421, R422). The
command-store window reads the selected bank, and a write makes an inactive one LOADING without a role (R420, R88). In D3hot every
request is unsupported (R411). A lock whose lease has run out becomes free (R425). -/
def Obligations.HostsReachTheirWindows : Prop :=
  ∀ (s : State) (p : Nat), s.clocked = true → p < 2 →
    (s.hostOpen p = true → (s.hp p).d3hot = true →
      ∀ i, ((∃ n, i = .mbxGo p n) ∨ (∃ o bs, i = .bar0RegisterWrite p o bs) ∨ (∃ h, h < 128 ∧ i = .hostDoorbell p h)
        ∨ (∃ o n b, 0 < n ∧ o + n ≤ 2 ^ ((s.hp p).bar2Enc + 20) ∧ i = .bar2Read p o n b)
        ∨ (∃ o bs, bs ≠ [] ∧ o + bs.length ≤ 2 ^ ((s.hp p).bar2Enc + 20) ∧ i = .bar2Write p o bs) ∨ (∃ o a, i = .cswAccess p o a)) →
      Completes i s (fun t => Sends [.unsupported p] s t ∧ Frame [.out] s t))
    ∧ (s.hostOpen p = true → (s.hp p).d3hot = false →
      (∀ n i, i = .mbxGo p n ∨ (∃ bs : List Byte, (bs.length = 4 ∨ bs.length = 8) ∧ leNat bs = n ∧ i = .bar0RegisterWrite p 0x008 bs) →
        (16 ≤ n → n ≤ 4096 → (s.hp p).busy = false → Completes i s (fun t =>
          t.dict.queue = s.dict.queue ++ [({ path := pathOfPort p, msg := readBytes (s.hp p).reqBuf 0 n } : DictReq)]
          ∧ (t.hp p).quiet = { (s.hp p).quiet with busy := true } ∧ Frame [hpPart p, .service] s t))
        ∧ (16 ≤ n → n ≤ 4096 → (s.hp p).busy = true → Completes i s (fun t =>
          (t.hp p).quiet = { (s.hp p).quiet with overrun := true } ∧ Frame [hpPart p] s t))
        ∧ (n < 16 ∨ 4096 < n → Completes i s (fun t => Frame [] s t)))
      ∧ (∀ bs : List Byte, (bs.length = 4 ∨ bs.length = 8) →
        Completes (.bar0RegisterWrite p 0x020 bs) s (fun t =>
          (t.hp p).quiet = { (s.hp p).quiet with cons := BitVec.ofNat 32 (leNat bs) } ∧ Frame [hpPart p] s t)
        ∧ Completes (.bar0RegisterWrite p 0x028 bs) s (fun t =>
          (t.hp p).quiet = { (s.hp p).quiet with cswCore := bits 7 0 (leNat bs), cswBank := bits 8 8 (leNat bs) } ∧ Frame [hpPart p] s t)
        ∧ (bitAt 1 (leNat bs) = true → Completes (.bar0RegisterWrite p 0x010 bs) s (fun t =>
          (t.hp p).quiet = { (s.hp p).quiet with overrun := false } ∧ Frame [hpPart p] s t)))
      ∧ (∀ (off : Nat) (bs : List Byte), 0 < bs.length → off + bs.length ≤ 0x1000 → bs.length ≤ 512 → off % 4096 + bs.length ≤ 4096 →
        Completes (.bar0RegisterWrite p (0x2000 + off) bs) s (fun t =>
          (t.hp p).quiet = { (s.hp p).quiet with reqBuf := writeBytes (s.hp p).reqBuf off bs } ∧ Frame [hpPart p] s t))
      ∧ (∀ off bs, (0x3000 ≤ off ∧ off < 0x4000 ∨ 0x10000 ≤ off ∧ off < 0x20000 ∨ 0x28000 ≤ off ∧ off < 0x28100 ∨ 0x400000 ≤ off ∧ off < 0x800000) →
        Completes (.bar0RegisterWrite p off bs) s (fun t => Sends [.abort p] s t ∧ Frame [.out] s t))
      ∧ (∀ h i, h < 128 → i = .hostDoorbell p h ∨ (∃ bs : List Byte, (bs.length = 4 ∨ bs.length = 8) ∧ i = .bar0RegisterWrite p (0x1000 + 8 * h) bs) →
        (s.hartOn h = true → (s.hart h).st ≠ .off → (s.hart h).st ≠ .halted → Completes i s (fun t =>
          t.hart h = { s.hart h with csr := { (s.hart h).csr with eip := (s.hart h).csr.eip ||| 4#256 } } ∧ OtherHarts h s t ∧ Frame [.harts] s t))
        ∧ (s.hartOn h = true → (s.hart h).st = .off ∨ (s.hart h).st = .halted → Completes i s (fun t =>
          t.hart h = { s.hart h with stats := { (s.hart h).stats with dropped := min ((s.hart h).stats.dropped + 1) (2 ^ 32 - 1) } }
          ∧ OtherHarts h s t ∧ Frame [.harts] s t))
        ∧ (s.hartOn h = false → Completes i s (fun t => Sends [.abort p] s t ∧ Frame [.out] s t)))
      ∧ (∀ off len bad a, a = s.bar2Addr p off → 0 < len → off + len ≤ 2 ^ ((s.hp p).bar2Enc + 20) →
        (s.bar2Waits p false = true → Completes (.bar2Read p off len bad) s (fun t =>
          (t.hp p).quiet = { (s.hp p).quiet with held := (s.hp p).held ++ [.read off len bad] } ∧ Frame [hpPart p] s t))
        ∧ (s.bar2Waits p false = false →
          (∀ ps, (linePieces (len + 1) a len).mapM (fun x => (s.bar2Source x.1 x.2).map (fun b => (b, x.2))) = some ps →
            Completes (.bar2Read p off len bad) s (fun t =>
              Sends [if bad then .abort p else .readData p ((ps.map (fun x => s.load x.1 x.2)).flatten)] s t ∧ Frame [.out, .hbm, .recorder] s t))
          ∧ ((∃ x ∈ linePieces (len + 1) a len, s.bar2Source x.1 x.2 = none) → Completes (.bar2Read p off len bad) s (fun t =>
              Sends [.abort p] s t ∧ Frame [.out] s t))))
      ∧ (∀ off bs a, a = s.bar2Addr p off → bs ≠ [] → off + bs.length ≤ 2 ^ ((s.hp p).bar2Enc + 20) →
        (s.bar2Waits p true = true → Completes (.bar2Write p off bs) s (fun t =>
          (t.hp p).quiet = { (s.hp p).quiet with held := (s.hp p).held ++ [.write off bs] } ∧ Frame [hpPart p] s t))
        ∧ (s.bar2Waits p true = false →
          ((∀ x ∈ bar2Cut a bs, s.bar2Staging x.1 x.2.length ≠ none) → Completes (.bar2Write p off bs) s (fun t =>
            t.mem = (bar2Cut a bs).foldl (fun m x => writeBytes m ((s.bar2Staging x.1 x.2.length).getD 0) x.2) s.mem
            ∧ t.err = { s.err with staged := true } ∧ Frame [.mem, .harts, .hbm, .err] s t))
          ∧ ((∀ x ∈ bar2Cut a bs, s.bar2Staging x.1 x.2.length = none ∧ s.owned x.1 = true) → Completes (.bar2Write p off bs) s (fun t =>
            Frame [.recorder] s t))
          ∧ ((∀ x ∈ bar2Cut a bs, s.bar2Staging x.1 x.2.length = none ∧ s.owned x.1 = false) → Completes (.bar2Write p off bs) s (fun t =>
            (t.hp p).quiet = { (s.hp p).quiet with discarded := min ((s.hp p).discarded + 1) (2 ^ 32 - 1) } ∧ Frame [hpPart p] s t))))
      ∧ (∀ off acc c (b : Core → Bank), c = (s.hp p).cswCore → b = (fun k => if (s.hp p).cswBank = 1 then k.bank1 else k.bank0) →
        (∀ len, acc = .read len → Completes (.cswAccess p off acc) s (fun t => Frame [.out] s t
          ∧ Sends [if windowOk off len 131072 = true ∧ s.coreOn c = true
              then .readData p ((List.range len).map (fun i => (b (s.core c)).bytes.getD (off + i) 0)) else .abort p] s t))
        ∧ (∀ bs, acc = .write bs →
          (windowOk off bs.length 131072 = true → s.coreOn c = true → s.jobBusy = false → (b (s.core c)).st ≠ .active →
            Completes (.cswAccess p off acc) s (fun t => (b (t.core c)).st = .loading ∧ (b (t.core c)).role = none
              ∧ (∀ j, j < bs.length → (b (t.core c)).bytes.getD (off + j) 0 = bs.getD j 0)
              ∧ ((s.hp p).cswBank = 1 → t.core c = { s.core c with bank1 := (t.core c).bank1 })
              ∧ ((s.hp p).cswBank ≠ 1 → t.core c = { s.core c with bank0 := (t.core c).bank0 })
              ∧ OtherCores c s t ∧ Frame [.cores] s t))
          ∧ (s.jobBusy = true ∨ (b (s.core c)).st = .active ∨ s.coreOn c = false → Completes (.cswAccess p off acc) s (fun t =>
            Sends [.abort p] s t ∧ Frame [.out] s t)))))
    ∧ (∀ l, s.dict.locks.find? (fun x => x.area == l.area) = some l → l.renewed + 5000000000 ≤ s.ns → Completes (.leaseExpiry l.area) s (fun t =>
        t.dict.service = { s.dict.service with locks := s.dict.locks.filter (fun x => x.area != l.area) }
        ∧ Frame [.service, .recorder] s t))

/-- Of every row of the dictionary: a request that fails checks 1 to 4, or a complete write that fails a later one, is answered with the first
failing check's code and changes no value (R433); a segment that is not the last joins its path's transfer (R432); a request repeated
within 1 s gets its kept response and is not executed again, one that comes while others wait is queued, and one that comes
while 16 wait is discarded and counted (R438). READ answers the active value, then the pending one with PENDING set (R430);
READ_BLOCK answers from its offset what the path can carry, of the value, of the pending value where it asks for it, or of the REC form,
with LAST at the end (R429, R431); SUBSCRIBE adds or removes a subscription (R437). -/
def Obligations.RequestsAreCheckedReadAndAnswered : Prop :=
  ∀ (s : State) (row : DictRow) (src : DictSrc) (q : DictReq),
    (Asks row src q s → (parseReq q).relay = false → s.check14 (parseReq q) (s.wholeValue (parseReq q)) ≠ 0 →
      Completes (rowInstr row src) s (fun t =>
        Answered q (s.check14 (parseReq q) (s.wholeValue (parseReq q))) 0 [] s t ∧ Frame servedParts s t))
    ∧ (∀ e payload c v, WriteChecked row src q e payload c v s → c ≠ 0 → Completes (rowInstr row src) s (fun t =>
        Answered q c 0 [] s t ∧ Frame servedParts s t))
    ∧ (∀ b, Asks row src q s → (parseReq q).relay = false → s.check14 (parseReq q) (s.wholeValue (parseReq q)) = 0 →
        (parseReq q).segmented = true → (parseReq q).last = false → s.joinSegment (parseReq q) = some b → b.length ≤ 1048576 →
      Completes (rowInstr row src) s (fun t => Answered q 0 0 [] s t
        ∧ t.dict.xfers = s.dict.xfers.filter (fun x => x.path != q.path)
            ++ [({ path := q.path, opcode := (parseReq q).opcode, key := (parseReq q).key, bytes := b } : BlockXfer)]
        ∧ Frame servedParts s t))
    ∧ (∀ m, Arrives row src q s → s.keptFor q = some m → Completes (rowInstr row src) s (fun t =>
        .frame q.mac m ∈ t.out ∧ t.dict.kept = s.dict.kept ∧ Frame [.service] s t))
    ∧ (s.clocked = true → s.serviceUp = true → s.rowOf (parseReq q) = row → q.path = .mgmt → src = .frame q.mac q.broadcast q.msg →
        q.msg.length ≤ 1500 → (q.broadcast = false ∨ (parseReq q).opcode = 1) →
      (16 ≤ (s.dict.queue.filter (fun x => x.path == .mgmt)).length → Completes (rowInstr row src) s (fun t =>
        t.dict.service = { s.dict.service with drops := min (s.dict.drops + 1) (2 ^ 32 - 1) } ∧ Frame [.service] s t))
      ∧ ((s.dict.queue.filter (fun x => x.path == .mgmt)).length < 16 → s.dict.queue ≠ [] → Completes (rowInstr row src) s (fun t =>
        t.dict.service = { s.dict.service with queue := s.dict.queue ++ [q] } ∧ Frame [.service] s t)))
    ∧ (∀ r u, r = parseReq q → u = s.opened q → r.relay = false → s.check14 r (s.wholeValue r) = 0 →
        (∀ e, dictEntry r.idx r.sub = some e → e.acc ≠ .wo) →
      (Asks .read src q s → r.opcode = 1 → (u.dictRead r.idx r.sub ++ (u.pendingOf r.idx r.sub).getD []).length ≤ pathLimit q.path →
        Completes (.dictRead src) s (fun t => Frame servedParts s t
          ∧ Answered q 0 (if (u.pendingOf r.idx r.sub).isSome then 4 else 0)
              (u.dictRead r.idx r.sub ++ (u.pendingOf r.idx r.sub).getD []) s t))
      ∧ (∀ x f, Asks .readBlock src q s → (x = [] ∨ r.off < x.length) →
          (r.sub = 0xFF ∧ x = u.recValue r.idx ∧ f = 0
            ∨ r.sub ≠ 0xFF ∧ r.pending = true ∧ u.pendingOf r.idx r.sub = some x ∧ f = 4
            ∨ r.sub ≠ 0xFF ∧ (r.pending = false ∨ u.pendingOf r.idx r.sub = none) ∧ x = u.dictRead r.idx r.sub ∧ f = 0) →
        Completes (.dictReadBlock src) s (fun t => Frame servedParts s t
          ∧ Answered q 0 (f + (if x.length ≤ r.off + ((x.drop r.off).take (pathLimit q.path)).length then 2 else 0))
              ((x.drop r.off).take (pathLimit q.path)) s t))
      ∧ (∀ x : Subscription, x = { path := q.path, mac := q.mac, key := r.key } → Asks .subscribe src q s →
        (r.body = [0] → Completes (.dictSubscribe src) s (fun t => Answered q 0 0 [] s t
          ∧ t.dict.subs = s.dict.subs.filter (fun y => y != x) ∧ Frame servedParts s t))
        ∧ (r.body = [1] → x ∉ s.dict.subs → (s.dict.subs.filter (fun y => y.path == q.path)).length < 64 →
          Completes (.dictSubscribe src) s (fun t => Answered q 0 0 [] s t ∧ t.dict.subs = s.dict.subs ++ [x] ∧ Frame servedParts s t))))

/-- An accepted write, whole, in blocks or signed, or of the step to quiesce after, is the entry's value at once, or stays pending with PENDING in its
answer where its change class asks for it; no other entry changes, and a signed one advances the sequence (R432 to R435, R354). The
shadow tables take theirs in DRAINED (R277). AdminEnable takes an UP port DOWN and lets a DOWN one train; a changed map entry does
the same to a HELD port (R275, R276, Table 11.6). ClockEnable keeps the bits that it has (R398, R6). A command-store bank that is not
active is LOADING with the bytes and no role (R95, Table 3.5). A lock is taken or renewed with a full lease, or freed (R423). -/
def Obligations.DictionaryWritesTakeForce : Prop :=
  ∀ (s : State) (src : DictSrc) (q : DictReq) (e : DictEntry) (v : List Byte) (r : Req), r = parseReq q →
    (∀ i signed, (WriteTaken .write src q e v s ∧ i = .dictWrite src ∧ signed = s.mram.signedSeq
        ∨ WriteTaken .writeBlock src q e v s ∧ i = .dictWriteBlock src ∧ signed = s.mram.signedSeq
        ∨ WriteTaken .quiesceStepWrite src q e v s ∧ i = .quiesceStepWrite src ∧ signed = s.mram.signedSeq
        ∨ (∃ p, r.opcode = 7 ∧ WriteChecked .signedWrite src q e p 0 v s ∧ signed = signedNumber p) ∧ i = .dictSignedWrite src
          ∧ entryRow r.key (some (leNat v)) = none) →
      v ≠ [] → r.key ∉ [dictKey 0x4100 1, dictKey 0x4400 1, dictKey 0x4500 1] →
      (s.staysPending r.key e = false → Completes i s (fun t => t.dval r.idx r.sub = v ∧ OtherEntries r.key s t ∧ Answered q 0 0 [] s t
        ∧ t.mram = { s.mram with signedSeq := signed } ∧ Frame (servedParts ++ [.settings, .recorder, .power, .mram]) s t))
      ∧ (s.staysPending r.key e = true → Completes i s (fun t => nget [] t.dict.pend r.key = v ∧ t.dict.vals = s.dict.vals
        ∧ OtherEntries r.key s t ∧ Answered q 0 4 [] s t ∧ t.mram = { s.mram with signedSeq := signed }
        ∧ Frame (servedParts ++ [.settings, .mram]) s t)))
    ∧ (∀ i, (WriteTaken .write src q e v s ∧ i = .dictWrite src ∨ WriteTaken .writeBlock src q e v s ∧ i = .dictWriteBlock src) →
      (r.key = dictKey 0x4100 1 → Completes i s (fun t => t.fab = { s.fab with shadow := { s.fab.shadow with own := leNat v } }
        ∧ Answered q 0 0 [] s t ∧ Frame (servedParts ++ [.fab]) s t))
      ∧ (r.key = dictKey 0x4400 1 → Completes i s (fun t => (∀ k, k < 512 → t.fab.shadow.pegOf k = leNat (slice v (2 * k) 2))
        ∧ t.fab = { s.fab with shadow := { s.fab.shadow with peg := t.fab.shadow.peg } } ∧ Answered q 0 0 [] s t
        ∧ Frame (servedParts ++ [.fab]) s t))
      ∧ (r.key = dictKey 0x4500 1 → Completes i s (fun t => (∀ k, k < 512 → nget 0 t.fab.shadow.route k = cleanPath (leNat (slice v (8 * k) 8)))
        ∧ t.fab = { s.fab with shadow := { s.fab.shadow with route := t.fab.shadow.route } } ∧ Answered q 0 0 [] s t
        ∧ Frame (servedParts ++ [.fab]) s t)))
    ∧ (WriteTaken .fportAdminEnable src q e v s → Completes (.fportAdminEnable src) s (fun t => t.dval r.idx 1 = v ∧ OtherEntries r.key s t
        ∧ (v = [0] → (t.fport (r.idx - 0x4300)).st = .down)
        ∧ (v = [1] → (s.fport (r.idx - 0x4300)).st = .down → (s.fport (r.idx - 0x4300)).retrain = false →
          bits 15 0 (s.fab.portMap.getD (r.idx - 0x4300) 0xFFFF) ≠ 0xFFFF → bitAt (r.idx - 0x4300) (s.dnat 0x2010 5) = true →
          (t.fport (r.idx - 0x4300)).st = .training ∧ (t.fport (r.idx - 0x4300)).trained = s.fab.portMap.getD (r.idx - 0x4300) 0xFFFF)
        ∧ (v = [1] → OtherPorts (r.idx - 0x4300) s t)
        ∧ Answered q 0 0 [] s t ∧ Frame (servedParts ++ [.settings, .fab, .recorder]) s t))
    ∧ (WriteTaken .portMapWrite src q e v s → Completes (.portMapWrite src) s (fun t => t.fab.portMap = mapEntries v
        ∧ (∀ p, s.fab.portMap.getD p 0 = (mapEntries v).getD p 0 → t.fport p = s.fport p)
        ∧ (∀ p, p < 24 → s.fab.portMap.getD p 0 ≠ (mapEntries v).getD p 0 → (s.fport p).st = .held →
          (t.fport p).st = .down ∨ (t.fport p).st = .training)
        ∧ Answered q 0 0 [] s t ∧ Frame (servedParts ++ [.fab]) s t))
    ∧ (WriteTaken .clockEnableWrite src q e v s → Completes (.clockEnableWrite src) s (fun t =>
        t.dnat 0x2010 r.sub = (if r.sub = 3 then leNat v % 2 ^ 26 else if r.sub = 5 then leNat v % 2 ^ 24 else leNat v)
        ∧ OtherEntries r.key s t ∧ Answered q 0 0 [] s t ∧ Frame (servedParts ++ [.settings]) s t))
    ∧ (WriteTaken .commandBankWrite src q e v s → Completes (.commandBankWrite src) s (fun t =>
        ((t.core (r.idx % 256)).bankOf r.sub).st = .loading ∧ ((t.core (r.idx % 256)).bankOf r.sub).role = none
        ∧ ((t.core (r.idx % 256)).bankOf r.sub).bytes = v
        ∧ (t.core (r.idx % 256)).bankOf (29 - r.sub) = (s.core (r.idx % 256)).bankOf (29 - r.sub)
        ∧ OtherCores (r.idx % 256) s t ∧ Answered q 0 0 [] s t ∧ Frame (servedParts ++ [.cores]) s t))
    ∧ (WriteTaken .lockTake src q e v s → Completes (.lockTake src) s (fun t =>
        ({ area := leNat v, owner := q.path, renewed := s.ns } : AreaLock) ∈ t.dict.locks
        ∧ (∀ l ∈ t.dict.locks, l.area = leNat v → l = { area := leNat v, owner := q.path, renewed := s.ns })
        ∧ (∀ l, l.area ≠ leNat v → l.owner ≠ q.path → (l ∈ t.dict.locks ↔ l ∈ s.dict.locks))
        ∧ Answered q 0 0 [] s t ∧ Frame servedParts s t))
    ∧ (WriteTaken .lockRelease src q e v s → Completes (.lockRelease src) s (fun t =>
        (∀ l ∈ t.dict.locks, l.area ≠ leNat v) ∧ (∀ l, l.area ≠ leNat v → l.owner ≠ q.path → (l ∈ t.dict.locks ↔ l ∈ s.dict.locks))
        ∧ Answered q 0 0 [] s t ∧ Frame servedParts s t))

/-- An accepted write of a command entry does what the entry commands and is answered. The reset command makes a reset due, and where a job is held
STRIKE goes to every rank first (R402). The frequency counter starts with the clocks and the window of its settings (R397). DRAIN,
APPLY and CANCEL take the tables' states; APPLY makes the shadows active (R281, Table 11.9). A pitch record at an idle root that
passes its checks is accepted as a child's would be, and goes to its children; one that fails them leaves a result and ABORT for the
ranks of the record (R341, R346, R348); a RESIZE continues a quiesced job (R356). STRIKE strikes the job held (R351). QUIESCE
quiesces at the next commit decision. RESUME releases the next step (R354). LEAVE begins a job reset (R355). -/
def Obligations.CommandEntriesAct : Prop :=
  ∀ (s : State) (src : DictSrc) (q : DictReq) (e : DictEntry) (v : List Byte),
    (WriteTaken .resetCommand src q e v s →
      (s.jobHeld = false → Completes (.resetCommand src) s (fun t => t.start = { s.start with resetDue := some .dictionary }
        ∧ Answered q 0 0 [] s t ∧ Frame (servedParts ++ [.start]) s t))
      ∧ (s.jobHeld = true → Completes (.resetCommand src) s (fun t => t.start = { s.start with resetDue := some .dictionary }
        ∧ t.fab = (s.sendStrike 1).fab ∧ Answered q 0 0 [] s t ∧ Frame (servedParts ++ [.start, .fab, .recorder]) s t)))
    ∧ (WriteTaken .freqCounterStart src q e v s → Completes (.freqCounterStart src) s (fun t =>
        t.power = { s.power with counter := { s.power.counter with
                      st := 1, target := bits 7 0 (s.dnat 0x2020 1), reference := bits 15 8 (s.dnat 0x2020 1)
                      window := s.dnat 0x2020 2, switched := false } }
        ∧ Answered q 0 0 [] s t ∧ Frame (servedParts ++ [.power]) s t))
    ∧ (WriteTaken .fabricDrain src q e v s → Completes (.fabricDrain src) s (fun t =>
        t.fab = { s.fab with tabSt := .draining } ∧ Answered q 0 0 [] s t ∧ Frame (servedParts ++ [.fab]) s t))
    ∧ (WriteTaken .fabricApply src q e v s → Completes (.fabricApply src) s (fun t =>
        t.fab.tabSt = .active ∧ t.fab.tabs = s.fab.shadow ∧ t.fab.generation = min (s.fab.generation + 1) (2 ^ 32 - 1)
        ∧ (s.fab.waiting = [] → t.fab = { s.fab with tabSt := .active, tabs := s.fab.shadow, generation := t.fab.generation })
        ∧ Answered q 0 0 [] s t ∧ Frame (servedParts ++ [.fab, .recorder]) s t))
    ∧ (WriteTaken .fabricCancel src q e v s → Completes (.fabricCancel src) s (fun t =>
        t.fab = { s.fab with tabSt := .active, shadow := {} } ∧ Answered q 0 0 [] s t ∧ Frame (servedParts ++ [.fab]) s t))
    ∧ (WriteTaken .pitchRequest src q e v s →
      (∀ rank, s.jobHeld = false → s.recordCheck v = .ok rank → Completes (.pitchRequest src) s (fun t =>
        t.pitch.st = .accepted ∧ t.pitch.record = v ∧ t.pitch.resetting = some .load ∧ t.pitch.accepted = [] ∧ t.pitch.loaded = []
        ∧ t.job = { held := true, id := fieldAt v 6 2, attempt := fieldAt v 32 1, step := fieldAt v 16 8, first := fieldAt v 16 8
                    kind := fieldAt v 4 2, rank := rank, ranks := fieldAt v 8 2, seed := fieldAt v 24 8, peg := recordPeg v }
        ∧ (∀ c, t.core c = { stats := (s.core c).stats }) ∧ (∀ h, (t.hart h).st = .off)
        ∧ (rank = 0 → t.fab = (t.children.foldl State.sendRecord ({ t with fab := { s.fab with
            track := [], txSeq := [], rxSpace := [], reorder := [], keepSeq := [], unanswered := [], lineQ := []
            lineLast := [], unacked := [], puts := [], spaceLock := [] } } : State)).fab)
        ∧ Answered q 0 0 [] s t
        ∧ Frame (servedParts ++ [.pitch, .job, .cores, .harts, .stations, .links, .coll, .nacks, .reissues, .tt, .fab, .guy, .ckpt, .rp, .recorder]) s t))
      ∧ (∀ rank, s.jobHeld = true → s.recordCheck v = .ok rank → Completes (.pitchRequest src) s (fun t =>
        t.pitch.st = .accepted ∧ t.pitch.record = v ∧ t.job.first = fieldAt v 16 8 ∧ t.job.rank = rank ∧ t.job.ranks = fieldAt v 8 2
        ∧ t.job.id = s.job.id ∧ t.job.image = s.job.image ∧ t.job.placed = s.job.placed ∧ t.fab.track = []
        ∧ t.mem = s.mem ∧ t.cores = s.cores ∧ t.harts = s.harts ∧ t.outputs = s.outputs ∧ Answered q 0 0 [] s t))
      ∧ (∀ c, s.jobHeld = false → s.recordCheck v = .error c → Completes (.pitchRequest src) s (fun t =>
        t.pitch = { s.pitch with reason := c, resultRank := 0, resultJob := fieldAt v 6 2 } ∧ Answered q 0 0 [] s t
        ∧ Frame (servedParts ++ [.pitch, .fab, .recorder]) s t)))
    ∧ (WriteTaken .commandStrike src q e v s →
      (s.jobHeld = true → s.pitch.resetting ≠ some .idle → MayBeStruck s → Completes (.commandStrike src) s (fun t =>
        Struck 1 s t ∧ Answered q 0 0 [] s t ∧ Frame (servedParts ++ strikeParts) s t))
      ∧ (s.jobHeld = false → Completes (.commandStrike src) s (fun t => Answered q 0 0 [] s t ∧ Frame servedParts s t)))
    ∧ (WriteTaken .commandQuiesce src q e v s → Completes (.commandQuiesce src) s (fun t =>
        t.pitch = { s.pitch with quiescing := s.jobHeld } ∧ Answered q 0 0 [] s t ∧ Frame (servedParts ++ [.pitch]) s t))
    ∧ (WriteTaken .commandResume src q e v s → s.guy.held = none → Completes (.commandResume src) s (fun t =>
        t.guy = { s.guy with held := some ⟨s.job.step + 1, s.job.attempt, tenNs (s.nsUp + s.guy.margin), 0xFF, tenNs (s.nsUp + s.guy.margin), false⟩ }
        ∧ t.fab = (s.children.foldl (fun w c => w.sendGuy 3 0xFF false c ⟨s.job.id, s.job.attempt, s.job.step + 1⟩
            (leBytes 8 (tenNs (s.nsUp + s.guy.margin)))) s).fab
        ∧ Answered q 0 0 [] s t ∧ Frame (servedParts ++ [.guy, .fab, .recorder]) s t))
    ∧ (WriteTaken .commandLeave src q e v s → s.pitch.resetting ≠ some .idle → Completes (.commandLeave src) s (fun t =>
        t.pitch = { s.pitch with resetting := some .idle, keepBivouac := false } ∧ t.job = { s.job with stepRunning := false }
        ∧ (∀ c, t.core c = { stats := (s.core c).stats }) ∧ (∀ h, (t.hart h).st = .off) ∧ t.fab.track = [] ∧ t.mem = s.mem
        ∧ Answered q 0 0 [] s t
        ∧ Frame (servedParts ++ [.pitch, .job, .cores, .harts, .stations, .links, .coll, .nacks, .reissues, .tt, .fab, .guy, .ckpt, .rp]) s t))

/-- A request with RELAY for a rank of the peg table goes there and waits; its target answers what it would answer itself; the answer's code, flags and
payload answer the request, and 10 ms without one answer RELAY TIMEOUT (R439). The layout of ARG is the model's choice. A survey asks every
rank of the peg table; when every relay has ended its result is written (R385, Table 17.3). A nonce starts a quote, which holds it; the
signatures make it DONE (R451, R466, R467, Table 22.4). A signed transition writes the new state, its owner key and its count, locks the UDS
in SCRAP, makes a reset due and advances the sequence (R454, R469, R470). An update is stored in the slot that is not active (R455). A
transfer idle for 1 s is discarded (R432). -/
def Obligations.RelaysSurveysAndSecurity : Prop :=
  ∀ s : State, s.clocked = true →
    (∀ src q r, r = parseReq q → Asks .relay src q s → r.headerOk = true → r.relay = true →
      (∀ rank inner, (r.opcode = 1 ∨ r.opcode = 3) → r.body = leBytes 2 rank ++ zeros 6 ++ inner → rank < 512 → 16 ≤ inner.length →
          (fieldAt inner 1 1 = 1 ∨ fieldAt inner 1 1 = 3) → bitAt 3 (fieldAt inner 7 1) = false → s.fab.tabs.pegOf rank ≠ 0xFFFF →
          s.err.resetRequested = false → Completes (.dictRelay src) s (fun t =>
        ({ id := s.dict.relayNext, path := q.path, mac := q.mac, outer := q.msg, rank := rank } : Relay) ∈ t.dict.relays
        ∧ (∀ x ∈ s.dict.relays, x ∈ t.dict.relays) ∧ t.fab = (s.sendMgmt rank s.dict.relayNext q.path.code false inner).fab
        ∧ Frame [.service, .fab, .recorder] s t))
      ∧ (s.err.resetRequested = false → (r.opcode ≠ 1 ∧ r.opcode ≠ 3 ∨ r.body.length < 24 ∨ 512 ≤ fieldAt r.body 0 2
          ∨ s.fab.tabs.pegOf (fieldAt r.body 0 2) = 0xFFFF) → Completes (.dictRelay src) s (fun t =>
        Answered q abBad 0 [] s t ∧ Frame servedParts s t)))
    ∧ (∀ k : Packet, s.isMine k kMGMT = true → s.serviceUp = true →
      (∀ x got, bitAt 18 k.arg = true → bitAt 19 k.arg = true →
          s.dict.relays.find? (fun x => x.id == bits 15 0 k.arg && x.rank == k.srcRank && x.got.length == bits 35 20 k.arg) = some x →
          got = x.got ++ k.payload →
        (x.survey = false → Completes (.mgmtPacket k) s (fun t =>
          Answered { path := x.path, mac := x.mac, msg := x.outer } (fieldAt got 12 4) (2 * bits 2 1 (fieldAt got 7 1)) (got.drop 16) s t
          ∧ t.dict.relays = s.dict.relays.filter (fun y => y.id != x.id) ∧ Frame (servedParts ++ [.fab]) s t))
        ∧ (∀ v, x.survey = true → s.ckpt.survey = some v → Completes (.mgmtPacket k) s (fun t =>
          t.ckpt.survey = some { v with answers := nset [] v.answers x.rank (if fieldAt got 12 4 = 0 then got.drop 16 else []) }
          ∧ t.dict.relays = s.dict.relays.filter (fun y => y.id != x.id) ∧ Frame [.service, .ckpt, .fab] s t)))
      ∧ (∀ u : State, u = { (s.takeLocal k).1 with dict := { s.dict with
            relayIn := s.dict.relayIn.filter (fun y => !(y.src == k.srcRank && y.id == bits 15 0 k.arg)) } } →
          bitAt 18 k.arg = false → bitAt 19 k.arg = true → bits 35 20 k.arg = 0 → Completes (.mgmtPacket k) s (fun t =>
            t.fab = (u.sendMgmt k.srcRank (bits 15 0 k.arg) (bits 17 16 k.arg) true
              ((s.takeLocal k).1.serveInner (pathOf (bits 17 16 k.arg)) k.payload)).fab
            ∧ Frame [.service, .fab, .recorder] s t)))
    ∧ (∀ x, s.dict.relays.find? (fun y => y.id == x.id) = some x → x.survey = false → Completes (.relayTimeout x.id) s (fun t =>
        Answered { path := x.path, mac := x.mac, msg := x.outer } abRelay 0 [] s t
        ∧ t.dict.relays = s.dict.relays.filter (fun y => y.id != x.id) ∧ Frame servedParts s t))
    ∧ (∀ src q e v, WriteTaken .survey src q e v s → Completes (.survey src) s (fun t =>
        t.ckpt = { s.ckpt with survey := some { mode := fieldAt v 0 1, ranks := fieldAt v 2 2, digest := slice v 8 8, asked := s.fab.tabs.ranks } }
        ∧ (∀ k ∈ s.fab.tabs.ranks, ∃ x ∈ t.dict.relays, x.rank = k ∧ x.survey = true) ∧ (∀ x ∈ s.dict.relays, x ∈ t.dict.relays)
        ∧ Answered q 0 0 [] s t ∧ Frame (servedParts ++ [.ckpt, .fab, .recorder]) s t))
    ∧ (∀ v, s.ckpt.survey = some v → (∀ x ∈ s.dict.relays, x.survey = false) → Completes .surveyDone s (fun t =>
        t.ckpt = { s.ckpt with survey := none, surveyResult := t.ckpt.surveyResult }
        ∧ (∀ n, v.mode = 0 → v.asked ≠ [] → (∀ k ∈ v.asked, v.copies k ≠ [] ∧ newestOf (v.copies k) = n) →
          t.ckpt.surveyResult = leBytes 2 1 ++ leBytes 2 0 ++ zeros 4 ++ leBytes 8 n)
        ∧ (∀ k, v.asked = [k] → v.copies k = [] → fieldAt t.ckpt.surveyResult 0 2 = 4 ∧ fieldAt t.ckpt.surveyResult 2 2 = 1
          ∧ fieldAt t.ckpt.surveyResult 16 2 = k % 2 ^ 16)
        ∧ Frame [.ckpt] s t))
    ∧ (∀ src q e v, WriteTaken .attestationNonce src q e v s → Completes (.attestationNonce src) s (fun t =>
        t.sec = { s.sec with attState := 1, quoteBody := t.sec.quoteBody, quote := [] } ∧ fieldAt t.sec.quoteBody 0 4 = 0x544F5551
        ∧ fieldAt t.sec.quoteBody 6 1 = s.sec.life.code ∧ slice t.sec.quoteBody 32 32 = v
        ∧ Answered q 0 0 [] s t ∧ Frame (servedParts ++ [.sec]) s t))
    ∧ (s.sec.attState = 1 → Completes .quoteDone s (fun t =>
        t.sec = { s.sec with attState := 2, endorsed := true, quote := t.sec.quote }
        ∧ t.sec.quote.take s.sec.quoteBody.length = s.sec.quoteBody ∧ t.sec.quote.length = s.sec.quoteBody.length + 29792 + 49856
        ∧ Frame [.sec] s t))
    ∧ (∀ src q e p v new, (parseReq q).opcode = 7 → WriteChecked .lifecycleTransition src q e p 0 v s → lifeOf (fieldAt v 0 1) = some new →
      Completes (.lifecycleTransition src) s (fun t =>
        t.mram = { s.mram with life := new, ownerKey := if new = .owned then slice v 8 64 else zeros 64
                               udsLocked := s.mram.udsLocked || (new == .scrap)
                               transitions := min (s.mram.transitions + 1) (2 ^ 32 - 1), signedSeq := signedNumber p }
        ∧ t.sec = { s.sec with transitionDone := true } ∧ t.start = { s.start with resetDue := some .lifeCycle }
        ∧ Answered q 0 0 [] s t ∧ Frame (servedParts ++ [.mram, .sec, .start, .recorder]) s t))
    ∧ (∀ src q e p v, WriteChecked .firmwareUpdate src q e p 0 v s → Completes (.firmwareUpdate src) s (fun t =>
        ((s.sec.activeSlot = some 1 ∨ s.sec.activeSlot = none ∧ s.mram.bootSlot = 0) → t.mram.slot0 = .stored v ∧ t.mram.slot1 = s.mram.slot1)
        ∧ ((s.sec.activeSlot = some 0 ∨ s.sec.activeSlot = none ∧ s.mram.bootSlot ≠ 0) → t.mram.slot1 = .stored v ∧ t.mram.slot0 = s.mram.slot0)
        ∧ t.mram.signedSeq = (if (parseReq q).opcode = 7 then signedNumber p else s.mram.signedSeq) ∧ t.mram.ring = s.mram.ring
        ∧ Answered q 0 0 [] s t ∧ Frame (servedParts ++ [.mram]) s t))
    ∧ (∀ path, (∃ x ∈ s.dict.xfers, x.path = path) → Completes (.blockIdleTimeout path) s (fun t =>
        t.dict.service = { s.dict.service with xfers := s.dict.xfers.filter (fun x => x.path != path) } ∧ Frame [.service] s t))

/-- At manufacture `Recorder.Written` reads 0. The write of record n makes it n + 1 and `Recorder.NextSlot` n + 1 mod 131,072, and the ring
that `Recorder.Ring` reads has the record's 32 bytes at offset 32 * (n mod 131,072); every other slot of the ring is as it was, so
that record n + 131,072 overwrites record n and nothing else. `Recorder.Written` is a U64, and n + 1 is within it. -/
def Obligations.RecordsGoToTheirSlots : Prop :=
  State.reset.dictRead 0xB010 4 = leBytes 8 0
  ∧ (∀ n, (n + 131072) % 131072 = n % 131072)
  ∧ ∀ (s : State) (o : Occurrence) (rest : List Occurrence) (n : Nat), s.clocked = true → s.recording = true →
    s.recorder.queue = o :: rest → s.mram.written = n → n + 1 < 2 ^ 64 → Completes .recorderWrite s (fun t =>
      t.dictRead 0xB010 4 = leBytes 8 (n + 1) ∧ t.dictRead 0xB010 3 = leBytes 4 ((n + 1) % 131072)
      ∧ slice (t.dictRead 0xB010 9) (32 * (n % 131072)) 32 = leBytes 32 (o.record 1 n)
      ∧ (∀ i, i < 131072 → i ≠ n % 131072 → slice (t.dictRead 0xB010 9) (32 * i) 32 = slice (s.dictRead 0xB010 9) (32 * i) 32)
      ∧ Frame [.mram, .recorder] s t)
end

