-- ==== Sys2Proof/Laws/State.lean ====
section
/-!
SUPPORT. What the named updates of the state leave alone: one rewriting rule for each field.
-/

set_option Elab.async false
namespace Sys2Proof.Machine

open Sys2Proof

/-- Putting a core leaves every other field alone. -/
@[simp] theorem State.putCore_keeps (s : State) (c : Nat) (x : Core) :
    (s.putCore c x).pending = s.pending ∧ (s.putCore c x).free = s.free ∧ (s.putCore c x).out = s.out
    ∧ (s.putCore c x).start = s.start ∧ (s.putCore c x).power = s.power ∧ (s.putCore c x).recorder = s.recorder
    ∧ (s.putCore c x).mram = s.mram ∧ (s.putCore c x).sec = s.sec ∧ (s.putCore c x).dict = s.dict
    ∧ (s.putCore c x).hp0 = s.hp0 ∧ (s.putCore c x).hp1 = s.hp1 ∧ (s.putCore c x).far0 = s.far0
    ∧ (s.putCore c x).far1 = s.far1 ∧ (s.putCore c x).hbm = s.hbm ∧ (s.putCore c x).mem = s.mem
    ∧ (s.putCore c x).harts = s.harts ∧ (s.putCore c x).stations = s.stations ∧ (s.putCore c x).links = s.links
    ∧ (s.putCore c x).coll = s.coll ∧ (s.putCore c x).fab = s.fab ∧ (s.putCore c x).canopy = s.canopy
    ∧ (s.putCore c x).rp = s.rp ∧ (s.putCore c x).guy = s.guy ∧ (s.putCore c x).tt = s.tt
    ∧ (s.putCore c x).job = s.job ∧ (s.putCore c x).pitch = s.pitch ∧ (s.putCore c x).err = s.err
    ∧ (s.putCore c x).ckpt = s.ckpt ∧ (s.putCore c x).outputs = s.outputs ∧ (s.putCore c x).reject = s.reject
    ∧ (s.putCore c x).nacks = s.nacks ∧ (s.putCore c x).reissues = s.reissues := by
  exact ⟨rfl, rfl, rfl, rfl, rfl, rfl, rfl, rfl, rfl, rfl, rfl, rfl, rfl, rfl, rfl, rfl, rfl, rfl, rfl, rfl, rfl, rfl, rfl, rfl, rfl, rfl, rfl, rfl, rfl, rfl, rfl, rfl⟩

/-- Changing a core leaves every other field alone. -/
@[simp] theorem State.modCore_keeps (s : State) (c : Nat) (f : Core → Core) :
    (s.modCore c f).pending = s.pending ∧ (s.modCore c f).free = s.free ∧ (s.modCore c f).out = s.out
    ∧ (s.modCore c f).start = s.start ∧ (s.modCore c f).power = s.power ∧ (s.modCore c f).recorder = s.recorder
    ∧ (s.modCore c f).mram = s.mram ∧ (s.modCore c f).sec = s.sec ∧ (s.modCore c f).dict = s.dict
    ∧ (s.modCore c f).hp0 = s.hp0 ∧ (s.modCore c f).hp1 = s.hp1 ∧ (s.modCore c f).far0 = s.far0
    ∧ (s.modCore c f).far1 = s.far1 ∧ (s.modCore c f).hbm = s.hbm ∧ (s.modCore c f).mem = s.mem
    ∧ (s.modCore c f).harts = s.harts ∧ (s.modCore c f).stations = s.stations ∧ (s.modCore c f).links = s.links
    ∧ (s.modCore c f).coll = s.coll ∧ (s.modCore c f).fab = s.fab ∧ (s.modCore c f).canopy = s.canopy
    ∧ (s.modCore c f).rp = s.rp ∧ (s.modCore c f).guy = s.guy ∧ (s.modCore c f).tt = s.tt
    ∧ (s.modCore c f).job = s.job ∧ (s.modCore c f).pitch = s.pitch ∧ (s.modCore c f).err = s.err
    ∧ (s.modCore c f).ckpt = s.ckpt ∧ (s.modCore c f).outputs = s.outputs ∧ (s.modCore c f).reject = s.reject
    ∧ (s.modCore c f).nacks = s.nacks ∧ (s.modCore c f).reissues = s.reissues := by
  exact ⟨rfl, rfl, rfl, rfl, rfl, rfl, rfl, rfl, rfl, rfl, rfl, rfl, rfl, rfl, rfl, rfl, rfl, rfl, rfl, rfl, rfl, rfl, rfl, rfl, rfl, rfl, rfl, rfl, rfl, rfl, rfl, rfl⟩

/-- Putting a hart leaves every other field alone. -/
@[simp] theorem State.putHart_keeps (s : State) (h : Nat) (x : Hart) :
    (s.putHart h x).pending = s.pending ∧ (s.putHart h x).free = s.free ∧ (s.putHart h x).out = s.out
    ∧ (s.putHart h x).start = s.start ∧ (s.putHart h x).power = s.power ∧ (s.putHart h x).recorder = s.recorder
    ∧ (s.putHart h x).mram = s.mram ∧ (s.putHart h x).sec = s.sec ∧ (s.putHart h x).dict = s.dict
    ∧ (s.putHart h x).hp0 = s.hp0 ∧ (s.putHart h x).hp1 = s.hp1 ∧ (s.putHart h x).far0 = s.far0
    ∧ (s.putHart h x).far1 = s.far1 ∧ (s.putHart h x).hbm = s.hbm ∧ (s.putHart h x).mem = s.mem
    ∧ (s.putHart h x).cores = s.cores ∧ (s.putHart h x).stations = s.stations ∧ (s.putHart h x).links = s.links
    ∧ (s.putHart h x).coll = s.coll ∧ (s.putHart h x).fab = s.fab ∧ (s.putHart h x).canopy = s.canopy
    ∧ (s.putHart h x).rp = s.rp ∧ (s.putHart h x).guy = s.guy ∧ (s.putHart h x).tt = s.tt
    ∧ (s.putHart h x).job = s.job ∧ (s.putHart h x).pitch = s.pitch ∧ (s.putHart h x).err = s.err
    ∧ (s.putHart h x).ckpt = s.ckpt ∧ (s.putHart h x).outputs = s.outputs ∧ (s.putHart h x).reject = s.reject
    ∧ (s.putHart h x).nacks = s.nacks ∧ (s.putHart h x).reissues = s.reissues := by
  exact ⟨rfl, rfl, rfl, rfl, rfl, rfl, rfl, rfl, rfl, rfl, rfl, rfl, rfl, rfl, rfl, rfl, rfl, rfl, rfl, rfl, rfl, rfl, rfl, rfl, rfl, rfl, rfl, rfl, rfl, rfl, rfl, rfl⟩

/-- Changing a hart leaves every other field alone. -/
@[simp] theorem State.modHart_keeps (s : State) (h : Nat) (f : Hart → Hart) :
    (s.modHart h f).pending = s.pending ∧ (s.modHart h f).free = s.free ∧ (s.modHart h f).out = s.out
    ∧ (s.modHart h f).start = s.start ∧ (s.modHart h f).power = s.power ∧ (s.modHart h f).recorder = s.recorder
    ∧ (s.modHart h f).mram = s.mram ∧ (s.modHart h f).sec = s.sec ∧ (s.modHart h f).dict = s.dict
    ∧ (s.modHart h f).hp0 = s.hp0 ∧ (s.modHart h f).hp1 = s.hp1 ∧ (s.modHart h f).far0 = s.far0
    ∧ (s.modHart h f).far1 = s.far1 ∧ (s.modHart h f).hbm = s.hbm ∧ (s.modHart h f).mem = s.mem
    ∧ (s.modHart h f).cores = s.cores ∧ (s.modHart h f).stations = s.stations ∧ (s.modHart h f).links = s.links
    ∧ (s.modHart h f).coll = s.coll ∧ (s.modHart h f).fab = s.fab ∧ (s.modHart h f).canopy = s.canopy
    ∧ (s.modHart h f).rp = s.rp ∧ (s.modHart h f).guy = s.guy ∧ (s.modHart h f).tt = s.tt
    ∧ (s.modHart h f).job = s.job ∧ (s.modHart h f).pitch = s.pitch ∧ (s.modHart h f).err = s.err
    ∧ (s.modHart h f).ckpt = s.ckpt ∧ (s.modHart h f).outputs = s.outputs ∧ (s.modHart h f).reject = s.reject
    ∧ (s.modHart h f).nacks = s.nacks ∧ (s.modHart h f).reissues = s.reissues := by
  exact ⟨rfl, rfl, rfl, rfl, rfl, rfl, rfl, rfl, rfl, rfl, rfl, rfl, rfl, rfl, rfl, rfl, rfl, rfl, rfl, rfl, rfl, rfl, rfl, rfl, rfl, rfl, rfl, rfl, rfl, rfl, rfl, rfl⟩

/-- Changing a station leaves every other field alone. -/
@[simp] theorem State.modStation_keeps (s : State) (n : Nat) (f : Station → Station) :
    (s.modStation n f).pending = s.pending ∧ (s.modStation n f).free = s.free ∧ (s.modStation n f).out = s.out
    ∧ (s.modStation n f).start = s.start ∧ (s.modStation n f).power = s.power
    ∧ (s.modStation n f).recorder = s.recorder ∧ (s.modStation n f).mram = s.mram ∧ (s.modStation n f).sec = s.sec
    ∧ (s.modStation n f).dict = s.dict ∧ (s.modStation n f).hp0 = s.hp0 ∧ (s.modStation n f).hp1 = s.hp1
    ∧ (s.modStation n f).far0 = s.far0 ∧ (s.modStation n f).far1 = s.far1 ∧ (s.modStation n f).hbm = s.hbm
    ∧ (s.modStation n f).mem = s.mem ∧ (s.modStation n f).cores = s.cores ∧ (s.modStation n f).harts = s.harts
    ∧ (s.modStation n f).links = s.links ∧ (s.modStation n f).coll = s.coll ∧ (s.modStation n f).fab = s.fab
    ∧ (s.modStation n f).canopy = s.canopy ∧ (s.modStation n f).rp = s.rp ∧ (s.modStation n f).guy = s.guy
    ∧ (s.modStation n f).tt = s.tt ∧ (s.modStation n f).job = s.job ∧ (s.modStation n f).pitch = s.pitch
    ∧ (s.modStation n f).err = s.err ∧ (s.modStation n f).ckpt = s.ckpt ∧ (s.modStation n f).outputs = s.outputs
    ∧ (s.modStation n f).reject = s.reject ∧ (s.modStation n f).nacks = s.nacks
    ∧ (s.modStation n f).reissues = s.reissues := by
  exact ⟨rfl, rfl, rfl, rfl, rfl, rfl, rfl, rfl, rfl, rfl, rfl, rfl, rfl, rfl, rfl, rfl, rfl, rfl, rfl, rfl, rfl, rfl, rfl, rfl, rfl, rfl, rfl, rfl, rfl, rfl, rfl, rfl⟩

/-- Changing a linkage engine leaves every other field alone. -/
@[simp] theorem State.modLink_keeps (s : State) (d : Nat) (f : LinkEngine → LinkEngine) :
    (s.modLink d f).pending = s.pending ∧ (s.modLink d f).free = s.free ∧ (s.modLink d f).out = s.out
    ∧ (s.modLink d f).start = s.start ∧ (s.modLink d f).power = s.power ∧ (s.modLink d f).recorder = s.recorder
    ∧ (s.modLink d f).mram = s.mram ∧ (s.modLink d f).sec = s.sec ∧ (s.modLink d f).dict = s.dict
    ∧ (s.modLink d f).hp0 = s.hp0 ∧ (s.modLink d f).hp1 = s.hp1 ∧ (s.modLink d f).far0 = s.far0
    ∧ (s.modLink d f).far1 = s.far1 ∧ (s.modLink d f).hbm = s.hbm ∧ (s.modLink d f).mem = s.mem
    ∧ (s.modLink d f).cores = s.cores ∧ (s.modLink d f).harts = s.harts ∧ (s.modLink d f).stations = s.stations
    ∧ (s.modLink d f).coll = s.coll ∧ (s.modLink d f).fab = s.fab ∧ (s.modLink d f).canopy = s.canopy
    ∧ (s.modLink d f).rp = s.rp ∧ (s.modLink d f).guy = s.guy ∧ (s.modLink d f).tt = s.tt
    ∧ (s.modLink d f).job = s.job ∧ (s.modLink d f).pitch = s.pitch ∧ (s.modLink d f).err = s.err
    ∧ (s.modLink d f).ckpt = s.ckpt ∧ (s.modLink d f).outputs = s.outputs ∧ (s.modLink d f).reject = s.reject
    ∧ (s.modLink d f).nacks = s.nacks ∧ (s.modLink d f).reissues = s.reissues := by
  exact ⟨rfl, rfl, rfl, rfl, rfl, rfl, rfl, rfl, rfl, rfl, rfl, rfl, rfl, rfl, rfl, rfl, rfl, rfl, rfl, rfl, rfl, rfl, rfl, rfl, rfl, rfl, rfl, rfl, rfl, rfl, rfl, rfl⟩

/-- Changing a host port leaves every other field alone. -/
@[simp] theorem State.modHp_keeps (s : State) (p : Nat) (f : HostPort → HostPort) :
    (s.modHp p f).pending = s.pending ∧ (s.modHp p f).free = s.free ∧ (s.modHp p f).out = s.out
    ∧ (s.modHp p f).start = s.start ∧ (s.modHp p f).power = s.power ∧ (s.modHp p f).recorder = s.recorder
    ∧ (s.modHp p f).mram = s.mram ∧ (s.modHp p f).sec = s.sec ∧ (s.modHp p f).dict = s.dict
    ∧ (s.modHp p f).far0 = s.far0 ∧ (s.modHp p f).far1 = s.far1 ∧ (s.modHp p f).hbm = s.hbm
    ∧ (s.modHp p f).mem = s.mem ∧ (s.modHp p f).cores = s.cores ∧ (s.modHp p f).harts = s.harts
    ∧ (s.modHp p f).stations = s.stations ∧ (s.modHp p f).links = s.links ∧ (s.modHp p f).coll = s.coll
    ∧ (s.modHp p f).fab = s.fab ∧ (s.modHp p f).canopy = s.canopy ∧ (s.modHp p f).rp = s.rp
    ∧ (s.modHp p f).guy = s.guy ∧ (s.modHp p f).tt = s.tt ∧ (s.modHp p f).job = s.job ∧ (s.modHp p f).pitch = s.pitch
    ∧ (s.modHp p f).err = s.err ∧ (s.modHp p f).ckpt = s.ckpt ∧ (s.modHp p f).outputs = s.outputs
    ∧ (s.modHp p f).reject = s.reject ∧ (s.modHp p f).nacks = s.nacks ∧ (s.modHp p f).reissues = s.reissues := by
  unfold State.modHp
  split <;> exact ⟨rfl, rfl, rfl, rfl, rfl, rfl, rfl, rfl, rfl, rfl, rfl, rfl, rfl, rfl, rfl, rfl, rfl, rfl, rfl, rfl, rfl, rfl, rfl, rfl, rfl, rfl, rfl, rfl, rfl, rfl, rfl⟩

/-- Changing a far port leaves every other field alone. -/
@[simp] theorem State.modFar_keeps (s : State) (p : Nat) (f : FarPort → FarPort) :
    (s.modFar p f).pending = s.pending ∧ (s.modFar p f).free = s.free ∧ (s.modFar p f).out = s.out
    ∧ (s.modFar p f).start = s.start ∧ (s.modFar p f).power = s.power ∧ (s.modFar p f).recorder = s.recorder
    ∧ (s.modFar p f).mram = s.mram ∧ (s.modFar p f).sec = s.sec ∧ (s.modFar p f).dict = s.dict
    ∧ (s.modFar p f).hp0 = s.hp0 ∧ (s.modFar p f).hp1 = s.hp1 ∧ (s.modFar p f).hbm = s.hbm
    ∧ (s.modFar p f).mem = s.mem ∧ (s.modFar p f).cores = s.cores ∧ (s.modFar p f).harts = s.harts
    ∧ (s.modFar p f).stations = s.stations ∧ (s.modFar p f).links = s.links ∧ (s.modFar p f).coll = s.coll
    ∧ (s.modFar p f).fab = s.fab ∧ (s.modFar p f).canopy = s.canopy ∧ (s.modFar p f).rp = s.rp
    ∧ (s.modFar p f).guy = s.guy ∧ (s.modFar p f).tt = s.tt ∧ (s.modFar p f).job = s.job
    ∧ (s.modFar p f).pitch = s.pitch ∧ (s.modFar p f).err = s.err ∧ (s.modFar p f).ckpt = s.ckpt
    ∧ (s.modFar p f).outputs = s.outputs ∧ (s.modFar p f).reject = s.reject ∧ (s.modFar p f).nacks = s.nacks
    ∧ (s.modFar p f).reissues = s.reissues := by
  unfold State.modFar
  split <;> exact ⟨rfl, rfl, rfl, rfl, rfl, rfl, rfl, rfl, rfl, rfl, rfl, rfl, rfl, rfl, rfl, rfl, rfl, rfl, rfl, rfl, rfl, rfl, rfl, rfl, rfl, rfl, rfl, rfl, rfl, rfl, rfl⟩

/-- Changing the fabric leaves every other field alone. -/
@[simp] theorem State.modFab_keeps (s : State) (f : Fabric → Fabric) :
    (s.modFab f).pending = s.pending ∧ (s.modFab f).free = s.free ∧ (s.modFab f).out = s.out
    ∧ (s.modFab f).start = s.start ∧ (s.modFab f).power = s.power ∧ (s.modFab f).recorder = s.recorder
    ∧ (s.modFab f).mram = s.mram ∧ (s.modFab f).sec = s.sec ∧ (s.modFab f).dict = s.dict ∧ (s.modFab f).hp0 = s.hp0
    ∧ (s.modFab f).hp1 = s.hp1 ∧ (s.modFab f).far0 = s.far0 ∧ (s.modFab f).far1 = s.far1
    ∧ (s.modFab f).hbm = s.hbm ∧ (s.modFab f).mem = s.mem ∧ (s.modFab f).cores = s.cores
    ∧ (s.modFab f).harts = s.harts ∧ (s.modFab f).stations = s.stations ∧ (s.modFab f).links = s.links
    ∧ (s.modFab f).coll = s.coll ∧ (s.modFab f).canopy = s.canopy ∧ (s.modFab f).rp = s.rp ∧ (s.modFab f).guy = s.guy
    ∧ (s.modFab f).tt = s.tt ∧ (s.modFab f).job = s.job ∧ (s.modFab f).pitch = s.pitch ∧ (s.modFab f).err = s.err
    ∧ (s.modFab f).ckpt = s.ckpt ∧ (s.modFab f).outputs = s.outputs ∧ (s.modFab f).reject = s.reject
    ∧ (s.modFab f).nacks = s.nacks ∧ (s.modFab f).reissues = s.reissues := by
  exact ⟨rfl, rfl, rfl, rfl, rfl, rfl, rfl, rfl, rfl, rfl, rfl, rfl, rfl, rfl, rfl, rfl, rfl, rfl, rfl, rfl, rfl, rfl, rfl, rfl, rfl, rfl, rfl, rfl, rfl, rfl, rfl, rfl⟩

/-- Changing a fabric port leaves every other field alone. -/
@[simp] theorem State.modPort_keeps (s : State) (p : Nat) (f : Port → Port) :
    (s.modPort p f).pending = s.pending ∧ (s.modPort p f).free = s.free ∧ (s.modPort p f).out = s.out
    ∧ (s.modPort p f).start = s.start ∧ (s.modPort p f).power = s.power ∧ (s.modPort p f).recorder = s.recorder
    ∧ (s.modPort p f).mram = s.mram ∧ (s.modPort p f).sec = s.sec ∧ (s.modPort p f).dict = s.dict
    ∧ (s.modPort p f).hp0 = s.hp0 ∧ (s.modPort p f).hp1 = s.hp1 ∧ (s.modPort p f).far0 = s.far0
    ∧ (s.modPort p f).far1 = s.far1 ∧ (s.modPort p f).hbm = s.hbm ∧ (s.modPort p f).mem = s.mem
    ∧ (s.modPort p f).cores = s.cores ∧ (s.modPort p f).harts = s.harts ∧ (s.modPort p f).stations = s.stations
    ∧ (s.modPort p f).links = s.links ∧ (s.modPort p f).coll = s.coll ∧ (s.modPort p f).canopy = s.canopy
    ∧ (s.modPort p f).rp = s.rp ∧ (s.modPort p f).guy = s.guy ∧ (s.modPort p f).tt = s.tt
    ∧ (s.modPort p f).job = s.job ∧ (s.modPort p f).pitch = s.pitch ∧ (s.modPort p f).err = s.err
    ∧ (s.modPort p f).ckpt = s.ckpt ∧ (s.modPort p f).outputs = s.outputs ∧ (s.modPort p f).reject = s.reject
    ∧ (s.modPort p f).nacks = s.nacks ∧ (s.modPort p f).reissues = s.reissues := by
  exact ⟨rfl, rfl, rfl, rfl, rfl, rfl, rfl, rfl, rfl, rfl, rfl, rfl, rfl, rfl, rfl, rfl, rfl, rfl, rfl, rfl, rfl, rfl, rfl, rfl, rfl, rfl, rfl, rfl, rfl, rfl, rfl, rfl⟩

/-- Counting on a stack leaves every other field alone. -/
@[simp] theorem State.modStack_keeps (s : State) (t : Nat) (f : StackStats → StackStats) :
    (s.modStack t f).pending = s.pending ∧ (s.modStack t f).free = s.free ∧ (s.modStack t f).out = s.out
    ∧ (s.modStack t f).start = s.start ∧ (s.modStack t f).power = s.power ∧ (s.modStack t f).recorder = s.recorder
    ∧ (s.modStack t f).mram = s.mram ∧ (s.modStack t f).sec = s.sec ∧ (s.modStack t f).dict = s.dict
    ∧ (s.modStack t f).hp0 = s.hp0 ∧ (s.modStack t f).hp1 = s.hp1 ∧ (s.modStack t f).far0 = s.far0
    ∧ (s.modStack t f).far1 = s.far1 ∧ (s.modStack t f).mem = s.mem ∧ (s.modStack t f).cores = s.cores
    ∧ (s.modStack t f).harts = s.harts ∧ (s.modStack t f).stations = s.stations ∧ (s.modStack t f).links = s.links
    ∧ (s.modStack t f).coll = s.coll ∧ (s.modStack t f).fab = s.fab ∧ (s.modStack t f).canopy = s.canopy
    ∧ (s.modStack t f).rp = s.rp ∧ (s.modStack t f).guy = s.guy ∧ (s.modStack t f).tt = s.tt
    ∧ (s.modStack t f).job = s.job ∧ (s.modStack t f).pitch = s.pitch ∧ (s.modStack t f).err = s.err
    ∧ (s.modStack t f).ckpt = s.ckpt ∧ (s.modStack t f).outputs = s.outputs ∧ (s.modStack t f).reject = s.reject
    ∧ (s.modStack t f).nacks = s.nacks ∧ (s.modStack t f).reissues = s.reissues := by
  exact ⟨rfl, rfl, rfl, rfl, rfl, rfl, rfl, rfl, rfl, rfl, rfl, rfl, rfl, rfl, rfl, rfl, rfl, rfl, rfl, rfl, rfl, rfl, rfl, rfl, rfl, rfl, rfl, rfl, rfl, rfl, rfl, rfl⟩

/-- Putting an output leaves every other field alone. -/
@[simp] theorem State.put_keeps (s : State) (o : Output) :
    (s.put o).pending = s.pending ∧ (s.put o).free = s.free ∧ (s.put o).start = s.start ∧ (s.put o).power = s.power
    ∧ (s.put o).recorder = s.recorder ∧ (s.put o).mram = s.mram ∧ (s.put o).sec = s.sec ∧ (s.put o).dict = s.dict
    ∧ (s.put o).hp0 = s.hp0 ∧ (s.put o).hp1 = s.hp1 ∧ (s.put o).far0 = s.far0 ∧ (s.put o).far1 = s.far1
    ∧ (s.put o).hbm = s.hbm ∧ (s.put o).mem = s.mem ∧ (s.put o).cores = s.cores ∧ (s.put o).harts = s.harts
    ∧ (s.put o).stations = s.stations ∧ (s.put o).links = s.links ∧ (s.put o).coll = s.coll ∧ (s.put o).fab = s.fab
    ∧ (s.put o).canopy = s.canopy ∧ (s.put o).rp = s.rp ∧ (s.put o).guy = s.guy ∧ (s.put o).tt = s.tt
    ∧ (s.put o).job = s.job ∧ (s.put o).pitch = s.pitch ∧ (s.put o).err = s.err ∧ (s.put o).ckpt = s.ckpt
    ∧ (s.put o).outputs = s.outputs ∧ (s.put o).reject = s.reject ∧ (s.put o).nacks = s.nacks
    ∧ (s.put o).reissues = s.reissues := by
  exact ⟨rfl, rfl, rfl, rfl, rfl, rfl, rfl, rfl, rfl, rfl, rfl, rfl, rfl, rfl, rfl, rfl, rfl, rfl, rfl, rfl, rfl, rfl, rfl, rfl, rfl, rfl, rfl, rfl, rfl, rfl, rfl, rfl⟩

/-- Taking a free value leaves every other field alone. -/
@[simp] theorem State.taken_keeps (s : State) :
    (s.taken).pending = s.pending ∧ (s.taken).out = s.out ∧ (s.taken).start = s.start ∧ (s.taken).power = s.power
    ∧ (s.taken).recorder = s.recorder ∧ (s.taken).mram = s.mram ∧ (s.taken).sec = s.sec ∧ (s.taken).dict = s.dict
    ∧ (s.taken).hp0 = s.hp0 ∧ (s.taken).hp1 = s.hp1 ∧ (s.taken).far0 = s.far0 ∧ (s.taken).far1 = s.far1
    ∧ (s.taken).hbm = s.hbm ∧ (s.taken).mem = s.mem ∧ (s.taken).cores = s.cores ∧ (s.taken).harts = s.harts
    ∧ (s.taken).stations = s.stations ∧ (s.taken).links = s.links ∧ (s.taken).coll = s.coll ∧ (s.taken).fab = s.fab
    ∧ (s.taken).canopy = s.canopy ∧ (s.taken).rp = s.rp ∧ (s.taken).guy = s.guy ∧ (s.taken).tt = s.tt
    ∧ (s.taken).job = s.job ∧ (s.taken).pitch = s.pitch ∧ (s.taken).err = s.err ∧ (s.taken).ckpt = s.ckpt
    ∧ (s.taken).outputs = s.outputs ∧ (s.taken).reject = s.reject ∧ (s.taken).nacks = s.nacks
    ∧ (s.taken).reissues = s.reissues := by
  exact ⟨rfl, rfl, rfl, rfl, rfl, rfl, rfl, rfl, rfl, rfl, rfl, rfl, rfl, rfl, rfl, rfl, rfl, rfl, rfl, rfl, rfl, rfl, rfl, rfl, rfl, rfl, rfl, rfl, rfl, rfl, rfl, rfl⟩

/-- Setting a value of the dictionary leaves every other field alone. -/
@[simp] theorem State.setDval_keeps (s : State) (idx sub : Nat) (b : List Byte) :
    (s.setDval idx sub b).pending = s.pending ∧ (s.setDval idx sub b).free = s.free
    ∧ (s.setDval idx sub b).out = s.out ∧ (s.setDval idx sub b).start = s.start
    ∧ (s.setDval idx sub b).power = s.power ∧ (s.setDval idx sub b).recorder = s.recorder
    ∧ (s.setDval idx sub b).mram = s.mram ∧ (s.setDval idx sub b).sec = s.sec ∧ (s.setDval idx sub b).hp0 = s.hp0
    ∧ (s.setDval idx sub b).hp1 = s.hp1 ∧ (s.setDval idx sub b).far0 = s.far0 ∧ (s.setDval idx sub b).far1 = s.far1
    ∧ (s.setDval idx sub b).hbm = s.hbm ∧ (s.setDval idx sub b).mem = s.mem
    ∧ (s.setDval idx sub b).cores = s.cores ∧ (s.setDval idx sub b).harts = s.harts
    ∧ (s.setDval idx sub b).stations = s.stations ∧ (s.setDval idx sub b).links = s.links
    ∧ (s.setDval idx sub b).coll = s.coll ∧ (s.setDval idx sub b).fab = s.fab
    ∧ (s.setDval idx sub b).canopy = s.canopy ∧ (s.setDval idx sub b).rp = s.rp ∧ (s.setDval idx sub b).guy = s.guy
    ∧ (s.setDval idx sub b).tt = s.tt ∧ (s.setDval idx sub b).job = s.job ∧ (s.setDval idx sub b).pitch = s.pitch
    ∧ (s.setDval idx sub b).err = s.err ∧ (s.setDval idx sub b).ckpt = s.ckpt
    ∧ (s.setDval idx sub b).outputs = s.outputs ∧ (s.setDval idx sub b).reject = s.reject
    ∧ (s.setDval idx sub b).nacks = s.nacks ∧ (s.setDval idx sub b).reissues = s.reissues := by
  exact ⟨rfl, rfl, rfl, rfl, rfl, rfl, rfl, rfl, rfl, rfl, rfl, rfl, rfl, rfl, rfl, rfl, rfl, rfl, rfl, rfl, rfl, rfl, rfl, rfl, rfl, rfl, rfl, rfl, rfl, rfl, rfl, rfl⟩

/-- Writing local memory leaves every other field alone. -/
@[simp] theorem State.store_keeps (s : State) (a : Nat) (bs : List Byte) :
    (s.store a bs).pending = s.pending ∧ (s.store a bs).free = s.free ∧ (s.store a bs).out = s.out
    ∧ (s.store a bs).start = s.start ∧ (s.store a bs).power = s.power ∧ (s.store a bs).recorder = s.recorder
    ∧ (s.store a bs).mram = s.mram ∧ (s.store a bs).sec = s.sec ∧ (s.store a bs).dict = s.dict
    ∧ (s.store a bs).hp0 = s.hp0 ∧ (s.store a bs).hp1 = s.hp1 ∧ (s.store a bs).far0 = s.far0
    ∧ (s.store a bs).far1 = s.far1 ∧ (s.store a bs).hbm = s.hbm ∧ (s.store a bs).cores = s.cores
    ∧ (s.store a bs).harts = s.harts ∧ (s.store a bs).stations = s.stations ∧ (s.store a bs).links = s.links
    ∧ (s.store a bs).coll = s.coll ∧ (s.store a bs).fab = s.fab ∧ (s.store a bs).canopy = s.canopy
    ∧ (s.store a bs).rp = s.rp ∧ (s.store a bs).guy = s.guy ∧ (s.store a bs).tt = s.tt ∧ (s.store a bs).job = s.job
    ∧ (s.store a bs).pitch = s.pitch ∧ (s.store a bs).err = s.err ∧ (s.store a bs).ckpt = s.ckpt
    ∧ (s.store a bs).outputs = s.outputs ∧ (s.store a bs).reject = s.reject ∧ (s.store a bs).nacks = s.nacks
    ∧ (s.store a bs).reissues = s.reissues := by
  exact ⟨rfl, rfl, rfl, rfl, rfl, rfl, rfl, rfl, rfl, rfl, rfl, rfl, rfl, rfl, rfl, rfl, rfl, rfl, rfl, rfl, rfl, rfl, rfl, rfl, rfl, rfl, rfl, rfl, rfl, rfl, rfl, rfl⟩

/-- An MSI to a hart leaves every other field alone. -/
@[simp] theorem State.msi_keeps (s : State) (h ident : Nat) :
    (s.msi h ident).pending = s.pending ∧ (s.msi h ident).free = s.free ∧ (s.msi h ident).out = s.out
    ∧ (s.msi h ident).start = s.start ∧ (s.msi h ident).power = s.power ∧ (s.msi h ident).recorder = s.recorder
    ∧ (s.msi h ident).mram = s.mram ∧ (s.msi h ident).sec = s.sec ∧ (s.msi h ident).dict = s.dict
    ∧ (s.msi h ident).hp0 = s.hp0 ∧ (s.msi h ident).hp1 = s.hp1 ∧ (s.msi h ident).far0 = s.far0
    ∧ (s.msi h ident).far1 = s.far1 ∧ (s.msi h ident).hbm = s.hbm ∧ (s.msi h ident).mem = s.mem
    ∧ (s.msi h ident).cores = s.cores ∧ (s.msi h ident).stations = s.stations ∧ (s.msi h ident).links = s.links
    ∧ (s.msi h ident).coll = s.coll ∧ (s.msi h ident).fab = s.fab ∧ (s.msi h ident).canopy = s.canopy
    ∧ (s.msi h ident).rp = s.rp ∧ (s.msi h ident).guy = s.guy ∧ (s.msi h ident).tt = s.tt
    ∧ (s.msi h ident).job = s.job ∧ (s.msi h ident).pitch = s.pitch ∧ (s.msi h ident).err = s.err
    ∧ (s.msi h ident).ckpt = s.ckpt ∧ (s.msi h ident).outputs = s.outputs ∧ (s.msi h ident).reject = s.reject
    ∧ (s.msi h ident).nacks = s.nacks ∧ (s.msi h ident).reissues = s.reissues := by
  exact ⟨rfl, rfl, rfl, rfl, rfl, rfl, rfl, rfl, rfl, rfl, rfl, rfl, rfl, rfl, rfl, rfl, rfl, rfl, rfl, rfl, rfl, rfl, rfl, rfl, rfl, rfl, rfl, rfl, rfl, rfl, rfl, rfl⟩

/-- What is put where. -/
@[simp] theorem State.putCore_cores (s : State) (c : Nat) (x : Core) : (s.putCore c x).cores = nset {} s.cores c x := rfl
@[simp] theorem State.putHart_harts (s : State) (h : Nat) (x : Hart) : (s.putHart h x).harts = nset {} s.harts h x := rfl
@[simp] theorem State.modFab_fab (s : State) (f : Fabric → Fabric) : (s.modFab f).fab = f s.fab := rfl
@[simp] theorem State.put_out (s : State) (o : Output) : (s.put o).out = s.out ++ [o] := rfl
@[simp] theorem State.taken_free (s : State) : s.taken.free = s.free + 1 := rfl
@[simp] theorem State.store_mem (s : State) (a : Nat) (bs : List Byte) : (s.store a bs).mem = writeBytes s.mem a bs := rfl

end Sys2Proof.Machine
end

