-- ==== Sys2Proof/Laws/Keeps.lean ====
section
/-!
SUPPORT. A field that every step of a fold keeps is kept by the fold, and a field of a conditional state.
-/

set_option Elab.async false
namespace Sys2Proof.Machine

@[simp] theorem foldl_out {α : Type} (g : State → α → State) (l : List α) (s : State)
    (h : ∀ s x, (g s x).out = s.out) : (l.foldl g s).out = s.out := by
  induction l generalizing s with
  | nil => rfl
  | cons x xs ih => rw [List.foldl_cons, ih, h]

@[simp] theorem ite_out (c : Prop) [Decidable c] (a b : State) :
    (if c then a else b).out = if c then a.out else b.out := by
  split <;> rfl

@[simp] theorem foldl_start {α : Type} (g : State → α → State) (l : List α) (s : State)
    (h : ∀ s x, (g s x).start = s.start) : (l.foldl g s).start = s.start := by
  induction l generalizing s with
  | nil => rfl
  | cons x xs ih => rw [List.foldl_cons, ih, h]

@[simp] theorem ite_start (c : Prop) [Decidable c] (a b : State) :
    (if c then a else b).start = if c then a.start else b.start := by
  split <;> rfl

@[simp] theorem foldl_power {α : Type} (g : State → α → State) (l : List α) (s : State)
    (h : ∀ s x, (g s x).power = s.power) : (l.foldl g s).power = s.power := by
  induction l generalizing s with
  | nil => rfl
  | cons x xs ih => rw [List.foldl_cons, ih, h]

@[simp] theorem ite_power (c : Prop) [Decidable c] (a b : State) :
    (if c then a else b).power = if c then a.power else b.power := by
  split <;> rfl

@[simp] theorem foldl_recorder {α : Type} (g : State → α → State) (l : List α) (s : State)
    (h : ∀ s x, (g s x).recorder = s.recorder) : (l.foldl g s).recorder = s.recorder := by
  induction l generalizing s with
  | nil => rfl
  | cons x xs ih => rw [List.foldl_cons, ih, h]

@[simp] theorem ite_recorder (c : Prop) [Decidable c] (a b : State) :
    (if c then a else b).recorder = if c then a.recorder else b.recorder := by
  split <;> rfl

@[simp] theorem foldl_mram {α : Type} (g : State → α → State) (l : List α) (s : State)
    (h : ∀ s x, (g s x).mram = s.mram) : (l.foldl g s).mram = s.mram := by
  induction l generalizing s with
  | nil => rfl
  | cons x xs ih => rw [List.foldl_cons, ih, h]

@[simp] theorem ite_mram (c : Prop) [Decidable c] (a b : State) :
    (if c then a else b).mram = if c then a.mram else b.mram := by
  split <;> rfl

@[simp] theorem foldl_sec {α : Type} (g : State → α → State) (l : List α) (s : State)
    (h : ∀ s x, (g s x).sec = s.sec) : (l.foldl g s).sec = s.sec := by
  induction l generalizing s with
  | nil => rfl
  | cons x xs ih => rw [List.foldl_cons, ih, h]

@[simp] theorem ite_sec (c : Prop) [Decidable c] (a b : State) :
    (if c then a else b).sec = if c then a.sec else b.sec := by
  split <;> rfl

@[simp] theorem foldl_dict {α : Type} (g : State → α → State) (l : List α) (s : State)
    (h : ∀ s x, (g s x).dict = s.dict) : (l.foldl g s).dict = s.dict := by
  induction l generalizing s with
  | nil => rfl
  | cons x xs ih => rw [List.foldl_cons, ih, h]

@[simp] theorem ite_dict (c : Prop) [Decidable c] (a b : State) :
    (if c then a else b).dict = if c then a.dict else b.dict := by
  split <;> rfl

@[simp] theorem foldl_hp0 {α : Type} (g : State → α → State) (l : List α) (s : State)
    (h : ∀ s x, (g s x).hp0 = s.hp0) : (l.foldl g s).hp0 = s.hp0 := by
  induction l generalizing s with
  | nil => rfl
  | cons x xs ih => rw [List.foldl_cons, ih, h]

@[simp] theorem ite_hp0 (c : Prop) [Decidable c] (a b : State) :
    (if c then a else b).hp0 = if c then a.hp0 else b.hp0 := by
  split <;> rfl

@[simp] theorem foldl_hp1 {α : Type} (g : State → α → State) (l : List α) (s : State)
    (h : ∀ s x, (g s x).hp1 = s.hp1) : (l.foldl g s).hp1 = s.hp1 := by
  induction l generalizing s with
  | nil => rfl
  | cons x xs ih => rw [List.foldl_cons, ih, h]

@[simp] theorem ite_hp1 (c : Prop) [Decidable c] (a b : State) :
    (if c then a else b).hp1 = if c then a.hp1 else b.hp1 := by
  split <;> rfl

@[simp] theorem foldl_far0 {α : Type} (g : State → α → State) (l : List α) (s : State)
    (h : ∀ s x, (g s x).far0 = s.far0) : (l.foldl g s).far0 = s.far0 := by
  induction l generalizing s with
  | nil => rfl
  | cons x xs ih => rw [List.foldl_cons, ih, h]

@[simp] theorem ite_far0 (c : Prop) [Decidable c] (a b : State) :
    (if c then a else b).far0 = if c then a.far0 else b.far0 := by
  split <;> rfl

@[simp] theorem foldl_far1 {α : Type} (g : State → α → State) (l : List α) (s : State)
    (h : ∀ s x, (g s x).far1 = s.far1) : (l.foldl g s).far1 = s.far1 := by
  induction l generalizing s with
  | nil => rfl
  | cons x xs ih => rw [List.foldl_cons, ih, h]

@[simp] theorem ite_far1 (c : Prop) [Decidable c] (a b : State) :
    (if c then a else b).far1 = if c then a.far1 else b.far1 := by
  split <;> rfl

@[simp] theorem foldl_stacks {α : Type} (g : State → α → State) (l : List α) (s : State)
    (h : ∀ s x, (g s x).hbm = s.hbm) : (l.foldl g s).hbm = s.hbm := by
  induction l generalizing s with
  | nil => rfl
  | cons x xs ih => rw [List.foldl_cons, ih, h]

@[simp] theorem ite_stacks (c : Prop) [Decidable c] (a b : State) :
    (if c then a else b).hbm = if c then a.hbm else b.hbm := by
  split <;> rfl

@[simp] theorem foldl_mem {α : Type} (g : State → α → State) (l : List α) (s : State)
    (h : ∀ s x, (g s x).mem = s.mem) : (l.foldl g s).mem = s.mem := by
  induction l generalizing s with
  | nil => rfl
  | cons x xs ih => rw [List.foldl_cons, ih, h]

@[simp] theorem ite_mem (c : Prop) [Decidable c] (a b : State) :
    (if c then a else b).mem = if c then a.mem else b.mem := by
  split <;> rfl

@[simp] theorem foldl_cores {α : Type} (g : State → α → State) (l : List α) (s : State)
    (h : ∀ s x, (g s x).cores = s.cores) : (l.foldl g s).cores = s.cores := by
  induction l generalizing s with
  | nil => rfl
  | cons x xs ih => rw [List.foldl_cons, ih, h]

@[simp] theorem ite_cores (c : Prop) [Decidable c] (a b : State) :
    (if c then a else b).cores = if c then a.cores else b.cores := by
  split <;> rfl

@[simp] theorem foldl_harts {α : Type} (g : State → α → State) (l : List α) (s : State)
    (h : ∀ s x, (g s x).harts = s.harts) : (l.foldl g s).harts = s.harts := by
  induction l generalizing s with
  | nil => rfl
  | cons x xs ih => rw [List.foldl_cons, ih, h]

@[simp] theorem ite_harts (c : Prop) [Decidable c] (a b : State) :
    (if c then a else b).harts = if c then a.harts else b.harts := by
  split <;> rfl

@[simp] theorem foldl_stations {α : Type} (g : State → α → State) (l : List α) (s : State)
    (h : ∀ s x, (g s x).stations = s.stations) : (l.foldl g s).stations = s.stations := by
  induction l generalizing s with
  | nil => rfl
  | cons x xs ih => rw [List.foldl_cons, ih, h]

@[simp] theorem ite_stations (c : Prop) [Decidable c] (a b : State) :
    (if c then a else b).stations = if c then a.stations else b.stations := by
  split <;> rfl

@[simp] theorem foldl_links {α : Type} (g : State → α → State) (l : List α) (s : State)
    (h : ∀ s x, (g s x).links = s.links) : (l.foldl g s).links = s.links := by
  induction l generalizing s with
  | nil => rfl
  | cons x xs ih => rw [List.foldl_cons, ih, h]

@[simp] theorem ite_links (c : Prop) [Decidable c] (a b : State) :
    (if c then a else b).links = if c then a.links else b.links := by
  split <;> rfl

@[simp] theorem foldl_coll {α : Type} (g : State → α → State) (l : List α) (s : State)
    (h : ∀ s x, (g s x).coll = s.coll) : (l.foldl g s).coll = s.coll := by
  induction l generalizing s with
  | nil => rfl
  | cons x xs ih => rw [List.foldl_cons, ih, h]

@[simp] theorem ite_coll (c : Prop) [Decidable c] (a b : State) :
    (if c then a else b).coll = if c then a.coll else b.coll := by
  split <;> rfl

@[simp] theorem foldl_fab {α : Type} (g : State → α → State) (l : List α) (s : State)
    (h : ∀ s x, (g s x).fab = s.fab) : (l.foldl g s).fab = s.fab := by
  induction l generalizing s with
  | nil => rfl
  | cons x xs ih => rw [List.foldl_cons, ih, h]

@[simp] theorem ite_fab (c : Prop) [Decidable c] (a b : State) :
    (if c then a else b).fab = if c then a.fab else b.fab := by
  split <;> rfl

@[simp] theorem foldl_canopy {α : Type} (g : State → α → State) (l : List α) (s : State)
    (h : ∀ s x, (g s x).canopy = s.canopy) : (l.foldl g s).canopy = s.canopy := by
  induction l generalizing s with
  | nil => rfl
  | cons x xs ih => rw [List.foldl_cons, ih, h]

@[simp] theorem ite_canopy (c : Prop) [Decidable c] (a b : State) :
    (if c then a else b).canopy = if c then a.canopy else b.canopy := by
  split <;> rfl

@[simp] theorem foldl_rp {α : Type} (g : State → α → State) (l : List α) (s : State)
    (h : ∀ s x, (g s x).rp = s.rp) : (l.foldl g s).rp = s.rp := by
  induction l generalizing s with
  | nil => rfl
  | cons x xs ih => rw [List.foldl_cons, ih, h]

@[simp] theorem ite_rp (c : Prop) [Decidable c] (a b : State) :
    (if c then a else b).rp = if c then a.rp else b.rp := by
  split <;> rfl

@[simp] theorem foldl_guy {α : Type} (g : State → α → State) (l : List α) (s : State)
    (h : ∀ s x, (g s x).guy = s.guy) : (l.foldl g s).guy = s.guy := by
  induction l generalizing s with
  | nil => rfl
  | cons x xs ih => rw [List.foldl_cons, ih, h]

@[simp] theorem ite_guy (c : Prop) [Decidable c] (a b : State) :
    (if c then a else b).guy = if c then a.guy else b.guy := by
  split <;> rfl

@[simp] theorem foldl_tt {α : Type} (g : State → α → State) (l : List α) (s : State)
    (h : ∀ s x, (g s x).tt = s.tt) : (l.foldl g s).tt = s.tt := by
  induction l generalizing s with
  | nil => rfl
  | cons x xs ih => rw [List.foldl_cons, ih, h]

@[simp] theorem ite_tt (c : Prop) [Decidable c] (a b : State) :
    (if c then a else b).tt = if c then a.tt else b.tt := by
  split <;> rfl

@[simp] theorem foldl_job {α : Type} (g : State → α → State) (l : List α) (s : State)
    (h : ∀ s x, (g s x).job = s.job) : (l.foldl g s).job = s.job := by
  induction l generalizing s with
  | nil => rfl
  | cons x xs ih => rw [List.foldl_cons, ih, h]

@[simp] theorem ite_job (c : Prop) [Decidable c] (a b : State) :
    (if c then a else b).job = if c then a.job else b.job := by
  split <;> rfl

@[simp] theorem foldl_pitch {α : Type} (g : State → α → State) (l : List α) (s : State)
    (h : ∀ s x, (g s x).pitch = s.pitch) : (l.foldl g s).pitch = s.pitch := by
  induction l generalizing s with
  | nil => rfl
  | cons x xs ih => rw [List.foldl_cons, ih, h]

@[simp] theorem ite_pitch (c : Prop) [Decidable c] (a b : State) :
    (if c then a else b).pitch = if c then a.pitch else b.pitch := by
  split <;> rfl

@[simp] theorem foldl_err {α : Type} (g : State → α → State) (l : List α) (s : State)
    (h : ∀ s x, (g s x).err = s.err) : (l.foldl g s).err = s.err := by
  induction l generalizing s with
  | nil => rfl
  | cons x xs ih => rw [List.foldl_cons, ih, h]

@[simp] theorem ite_err (c : Prop) [Decidable c] (a b : State) :
    (if c then a else b).err = if c then a.err else b.err := by
  split <;> rfl

@[simp] theorem foldl_ckpt {α : Type} (g : State → α → State) (l : List α) (s : State)
    (h : ∀ s x, (g s x).ckpt = s.ckpt) : (l.foldl g s).ckpt = s.ckpt := by
  induction l generalizing s with
  | nil => rfl
  | cons x xs ih => rw [List.foldl_cons, ih, h]

@[simp] theorem ite_ckpt (c : Prop) [Decidable c] (a b : State) :
    (if c then a else b).ckpt = if c then a.ckpt else b.ckpt := by
  split <;> rfl

@[simp] theorem foldl_outputs {α : Type} (g : State → α → State) (l : List α) (s : State)
    (h : ∀ s x, (g s x).outputs = s.outputs) : (l.foldl g s).outputs = s.outputs := by
  induction l generalizing s with
  | nil => rfl
  | cons x xs ih => rw [List.foldl_cons, ih, h]

@[simp] theorem ite_outputs (c : Prop) [Decidable c] (a b : State) :
    (if c then a else b).outputs = if c then a.outputs else b.outputs := by
  split <;> rfl

@[simp] theorem foldl_reject {α : Type} (g : State → α → State) (l : List α) (s : State)
    (h : ∀ s x, (g s x).reject = s.reject) : (l.foldl g s).reject = s.reject := by
  induction l generalizing s with
  | nil => rfl
  | cons x xs ih => rw [List.foldl_cons, ih, h]

@[simp] theorem ite_reject (c : Prop) [Decidable c] (a b : State) :
    (if c then a else b).reject = if c then a.reject else b.reject := by
  split <;> rfl

@[simp] theorem foldl_nacks {α : Type} (g : State → α → State) (l : List α) (s : State)
    (h : ∀ s x, (g s x).nacks = s.nacks) : (l.foldl g s).nacks = s.nacks := by
  induction l generalizing s with
  | nil => rfl
  | cons x xs ih => rw [List.foldl_cons, ih, h]

@[simp] theorem ite_nacks (c : Prop) [Decidable c] (a b : State) :
    (if c then a else b).nacks = if c then a.nacks else b.nacks := by
  split <;> rfl

@[simp] theorem foldl_reissues {α : Type} (g : State → α → State) (l : List α) (s : State)
    (h : ∀ s x, (g s x).reissues = s.reissues) : (l.foldl g s).reissues = s.reissues := by
  induction l generalizing s with
  | nil => rfl
  | cons x xs ih => rw [List.foldl_cons, ih, h]

@[simp] theorem ite_reissues (c : Prop) [Decidable c] (a b : State) :
    (if c then a else b).reissues = if c then a.reissues else b.reissues := by
  split <;> rfl

end Sys2Proof.Machine
end

