-- ==== Sys2Proof/Laws/KeepsFabric.lean ====
section
/-!
SUPPORT. What each operation leaves unchanged: units, fabric, errors, collectives and slots.
-/

set_option Elab.async false
namespace Sys2Proof.Machine

open Sys2Proof Rv

@[simp] theorem State.event_keeps (s : State) (code source payload : Nat) : (State.event s code source payload).out =
    s.out ∧ (State.event s code source payload).start = s.start ∧ (State.event s code source payload).power = s.power
    ∧ (State.event s code source payload).mram = s.mram ∧ (State.event s code source payload).sec = s.sec ∧
    (State.event s code source payload).dict = s.dict ∧ (State.event s code source payload).hp0 = s.hp0 ∧ (State.event
    s code source payload).hp1 = s.hp1 ∧ (State.event s code source payload).far0 = s.far0 ∧ (State.event s code
    source payload).far1 = s.far1 ∧ (State.event s code source payload).hbm = s.hbm ∧ (State.event s code source
    payload).mem = s.mem ∧ (State.event s code source payload).cores = s.cores ∧ (State.event s code source
    payload).harts = s.harts ∧ (State.event s code source payload).stations = s.stations ∧ (State.event s code source
    payload).links = s.links ∧ (State.event s code source payload).coll = s.coll ∧ (State.event s code source
    payload).fab = s.fab ∧ (State.event s code source payload).canopy = s.canopy ∧ (State.event s code source
    payload).rp = s.rp ∧ (State.event s code source payload).guy = s.guy ∧ (State.event s code source payload).tt =
    s.tt ∧ (State.event s code source payload).job = s.job ∧ (State.event s code source payload).pitch = s.pitch ∧
    (State.event s code source payload).err = s.err ∧ (State.event s code source payload).ckpt = s.ckpt ∧ (State.event
    s code source payload).outputs = s.outputs ∧ (State.event s code source payload).reject = s.reject ∧ (State.event
    s code source payload).nacks = s.nacks ∧ (State.event s code source payload).reissues = s.reissues := by
  simp [State.event]

@[simp] theorem State.msix_keeps (s : State) (p v : Nat) : (State.msix s p v).start = s.start ∧ (State.msix s p
    v).power = s.power ∧ (State.msix s p v).recorder = s.recorder ∧ (State.msix s p v).mram = s.mram ∧ (State.msix s p
    v).sec = s.sec ∧ (State.msix s p v).dict = s.dict ∧ (State.msix s p v).far0 = s.far0 ∧ (State.msix s p v).far1 =
    s.far1 ∧ (State.msix s p v).hbm = s.hbm ∧ (State.msix s p v).mem = s.mem ∧ (State.msix s p v).cores =
    s.cores ∧ (State.msix s p v).harts = s.harts ∧ (State.msix s p v).stations = s.stations ∧ (State.msix s p v).links
    = s.links ∧ (State.msix s p v).coll = s.coll ∧ (State.msix s p v).fab = s.fab ∧ (State.msix s p v).canopy =
    s.canopy ∧ (State.msix s p v).rp = s.rp ∧ (State.msix s p v).guy = s.guy ∧ (State.msix s p v).tt = s.tt ∧
    (State.msix s p v).job = s.job ∧ (State.msix s p v).pitch = s.pitch ∧ (State.msix s p v).err = s.err ∧ (State.msix
    s p v).ckpt = s.ckpt ∧ (State.msix s p v).outputs = s.outputs ∧ (State.msix s p v).reject = s.reject ∧ (State.msix
    s p v).nacks = s.nacks ∧ (State.msix s p v).reissues = s.reissues := by
  simp [State.msix]

@[simp] theorem State.countMem_keeps (s : State) (a len : Nat) (write : Bool) : (State.countMem s a len write).out =
    s.out ∧ (State.countMem s a len write).start = s.start ∧ (State.countMem s a len write).power = s.power ∧
    (State.countMem s a len write).recorder = s.recorder ∧ (State.countMem s a len write).mram = s.mram ∧
    (State.countMem s a len write).sec = s.sec ∧ (State.countMem s a len write).dict = s.dict ∧ (State.countMem s a
    len write).hp0 = s.hp0 ∧ (State.countMem s a len write).hp1 = s.hp1 ∧ (State.countMem s a len write).far0 = s.far0
    ∧ (State.countMem s a len write).far1 = s.far1 ∧ (State.countMem s a len write).mem = s.mem ∧ (State.countMem s a
    len write).cores = s.cores ∧ (State.countMem s a len write).harts = s.harts ∧ (State.countMem s a len
    write).stations = s.stations ∧ (State.countMem s a len write).links = s.links ∧ (State.countMem s a len
    write).coll = s.coll ∧ (State.countMem s a len write).fab = s.fab ∧ (State.countMem s a len write).canopy =
    s.canopy ∧ (State.countMem s a len write).rp = s.rp ∧ (State.countMem s a len write).guy = s.guy ∧ (State.countMem
    s a len write).tt = s.tt ∧ (State.countMem s a len write).job = s.job ∧ (State.countMem s a len write).pitch =
    s.pitch ∧ (State.countMem s a len write).err = s.err ∧ (State.countMem s a len write).ckpt = s.ckpt ∧
    (State.countMem s a len write).outputs = s.outputs ∧ (State.countMem s a len write).reject = s.reject ∧
    (State.countMem s a len write).nacks = s.nacks ∧ (State.countMem s a len write).reissues = s.reissues := by
  unfold State.countMem
  (repeat' split) <;> simp

@[simp] theorem State.countLines_keeps (s : State) (a : Nat) (write : Bool) (a1 : Nat) (a2 : Nat) : (State.countLines
    s a write a1 a2).out = s.out ∧ (State.countLines s a write a1 a2).start = s.start ∧ (State.countLines s a write a1
    a2).power = s.power ∧ (State.countLines s a write a1 a2).recorder = s.recorder ∧ (State.countLines s a write a1
    a2).mram = s.mram ∧ (State.countLines s a write a1 a2).sec = s.sec ∧ (State.countLines s a write a1 a2).dict =
    s.dict ∧ (State.countLines s a write a1 a2).hp0 = s.hp0 ∧ (State.countLines s a write a1 a2).hp1 = s.hp1 ∧
    (State.countLines s a write a1 a2).far0 = s.far0 ∧ (State.countLines s a write a1 a2).far1 = s.far1 ∧
    (State.countLines s a write a1 a2).mem = s.mem ∧ (State.countLines s a write a1 a2).cores = s.cores ∧
    (State.countLines s a write a1 a2).harts = s.harts ∧ (State.countLines s a write a1 a2).stations = s.stations ∧
    (State.countLines s a write a1 a2).links = s.links ∧ (State.countLines s a write a1 a2).coll = s.coll ∧
    (State.countLines s a write a1 a2).fab = s.fab ∧ (State.countLines s a write a1 a2).canopy = s.canopy ∧
    (State.countLines s a write a1 a2).rp = s.rp ∧ (State.countLines s a write a1 a2).guy = s.guy ∧ (State.countLines
    s a write a1 a2).tt = s.tt ∧ (State.countLines s a write a1 a2).job = s.job ∧ (State.countLines s a write a1
    a2).pitch = s.pitch ∧ (State.countLines s a write a1 a2).err = s.err ∧ (State.countLines s a write a1 a2).ckpt =
    s.ckpt ∧ (State.countLines s a write a1 a2).outputs = s.outputs ∧ (State.countLines s a write a1 a2).reject =
    s.reject ∧ (State.countLines s a write a1 a2).nacks = s.nacks ∧ (State.countLines s a write a1 a2).reissues =
    s.reissues := by
  fun_induction State.countLines <;> simp_all

@[simp] theorem State.pump_keeps (s : State) (p : Nat) : (State.pump s p).out = s.out ∧ (State.pump s p).start =
    s.start ∧ (State.pump s p).power = s.power ∧ (State.pump s p).recorder = s.recorder ∧ (State.pump s p).mram =
    s.mram ∧ (State.pump s p).sec = s.sec ∧ (State.pump s p).dict = s.dict ∧ (State.pump s p).hp0 = s.hp0 ∧
    (State.pump s p).hp1 = s.hp1 ∧ (State.pump s p).far0 = s.far0 ∧ (State.pump s p).far1 = s.far1 ∧ (State.pump s
    p).hbm = s.hbm ∧ (State.pump s p).mem = s.mem ∧ (State.pump s p).cores = s.cores ∧ (State.pump s p).harts =
    s.harts ∧ (State.pump s p).stations = s.stations ∧ (State.pump s p).links = s.links ∧ (State.pump s p).coll =
    s.coll ∧ (State.pump s p).canopy = s.canopy ∧ (State.pump s p).rp = s.rp ∧ (State.pump s p).guy = s.guy ∧
    (State.pump s p).tt = s.tt ∧ (State.pump s p).job = s.job ∧ (State.pump s p).pitch = s.pitch ∧ (State.pump s
    p).err = s.err ∧ (State.pump s p).ckpt = s.ckpt ∧ (State.pump s p).outputs = s.outputs ∧ (State.pump s p).reject =
    s.reject ∧ (State.pump s p).nacks = s.nacks ∧ (State.pump s p).reissues = s.reissues := by
  simp [State.pump]

@[simp] theorem State.enqueue_keeps (s : State) (p lane : Nat) (k : Packet) : (State.enqueue s p lane k).out = s.out ∧
    (State.enqueue s p lane k).start = s.start ∧ (State.enqueue s p lane k).power = s.power ∧ (State.enqueue s p lane
    k).recorder = s.recorder ∧ (State.enqueue s p lane k).mram = s.mram ∧ (State.enqueue s p lane k).sec = s.sec ∧
    (State.enqueue s p lane k).dict = s.dict ∧ (State.enqueue s p lane k).hp0 = s.hp0 ∧ (State.enqueue s p lane k).hp1
    = s.hp1 ∧ (State.enqueue s p lane k).far0 = s.far0 ∧ (State.enqueue s p lane k).far1 = s.far1 ∧ (State.enqueue s p
    lane k).hbm = s.hbm ∧ (State.enqueue s p lane k).mem = s.mem ∧ (State.enqueue s p lane k).cores = s.cores ∧
    (State.enqueue s p lane k).harts = s.harts ∧ (State.enqueue s p lane k).stations = s.stations ∧ (State.enqueue s p
    lane k).links = s.links ∧ (State.enqueue s p lane k).coll = s.coll ∧ (State.enqueue s p lane k).canopy = s.canopy
    ∧ (State.enqueue s p lane k).rp = s.rp ∧ (State.enqueue s p lane k).guy = s.guy ∧ (State.enqueue s p lane k).tt =
    s.tt ∧ (State.enqueue s p lane k).job = s.job ∧ (State.enqueue s p lane k).pitch = s.pitch ∧ (State.enqueue s p
    lane k).err = s.err ∧ (State.enqueue s p lane k).ckpt = s.ckpt ∧ (State.enqueue s p lane k).outputs = s.outputs ∧
    (State.enqueue s p lane k).reject = s.reject ∧ (State.enqueue s p lane k).nacks = s.nacks ∧ (State.enqueue s p
    lane k).reissues = s.reissues := by
  simp [State.enqueue]

@[simp] theorem State.route_keeps (s : State) (lane : Nat) (k : Packet) (lineAddr : Option Nat) : (State.route s lane
    k lineAddr).out = s.out ∧ (State.route s lane k lineAddr).start = s.start ∧ (State.route s lane k lineAddr).power
    = s.power ∧ (State.route s lane k lineAddr).mram = s.mram ∧ (State.route s lane k lineAddr).sec = s.sec ∧
    (State.route s lane k lineAddr).dict = s.dict ∧ (State.route s lane k lineAddr).hp0 = s.hp0 ∧ (State.route s lane
    k lineAddr).hp1 = s.hp1 ∧ (State.route s lane k lineAddr).far0 = s.far0 ∧ (State.route s lane k lineAddr).far1 =
    s.far1 ∧ (State.route s lane k lineAddr).hbm = s.hbm ∧ (State.route s lane k lineAddr).mem = s.mem ∧
    (State.route s lane k lineAddr).cores = s.cores ∧ (State.route s lane k lineAddr).harts = s.harts ∧ (State.route s
    lane k lineAddr).stations = s.stations ∧ (State.route s lane k lineAddr).links = s.links ∧ (State.route s lane k
    lineAddr).coll = s.coll ∧ (State.route s lane k lineAddr).canopy = s.canopy ∧ (State.route s lane k lineAddr).rp =
    s.rp ∧ (State.route s lane k lineAddr).guy = s.guy ∧ (State.route s lane k lineAddr).tt = s.tt ∧ (State.route s
    lane k lineAddr).job = s.job ∧ (State.route s lane k lineAddr).pitch = s.pitch ∧ (State.route s lane k
    lineAddr).err = s.err ∧ (State.route s lane k lineAddr).ckpt = s.ckpt ∧ (State.route s lane k lineAddr).outputs =
    s.outputs ∧ (State.route s lane k lineAddr).reject = s.reject ∧ (State.route s lane k lineAddr).nacks = s.nacks ∧
    (State.route s lane k lineAddr).reissues = s.reissues := by
  unfold State.route
  dsimp only
  (repeat' split) <;> simp_all

@[simp] theorem State.send_keeps (s : State) (k : Packet) : (State.send s k).out = s.out ∧ (State.send s k).start =
    s.start ∧ (State.send s k).power = s.power ∧ (State.send s k).mram = s.mram ∧ (State.send s k).sec = s.sec ∧
    (State.send s k).dict = s.dict ∧ (State.send s k).hp0 = s.hp0 ∧ (State.send s k).hp1 = s.hp1 ∧ (State.send s
    k).far0 = s.far0 ∧ (State.send s k).far1 = s.far1 ∧ (State.send s k).hbm = s.hbm ∧ (State.send s k).mem =
    s.mem ∧ (State.send s k).cores = s.cores ∧ (State.send s k).harts = s.harts ∧ (State.send s k).stations =
    s.stations ∧ (State.send s k).links = s.links ∧ (State.send s k).coll = s.coll ∧ (State.send s k).canopy =
    s.canopy ∧ (State.send s k).rp = s.rp ∧ (State.send s k).guy = s.guy ∧ (State.send s k).tt = s.tt ∧ (State.send s
    k).job = s.job ∧ (State.send s k).pitch = s.pitch ∧ (State.send s k).err = s.err ∧ (State.send s k).ckpt = s.ckpt
    ∧ (State.send s k).outputs = s.outputs ∧ (State.send s k).reject = s.reject ∧ (State.send s k).nacks = s.nacks ∧
    (State.send s k).reissues = s.reissues := by
  simp [State.send]

@[simp] theorem State.retryWaiting_keeps (s : State) : (State.retryWaiting s).out = s.out ∧ (State.retryWaiting
    s).start = s.start ∧ (State.retryWaiting s).power = s.power ∧ (State.retryWaiting s).mram = s.mram ∧
    (State.retryWaiting s).sec = s.sec ∧ (State.retryWaiting s).dict = s.dict ∧ (State.retryWaiting s).hp0 = s.hp0 ∧
    (State.retryWaiting s).hp1 = s.hp1 ∧ (State.retryWaiting s).far0 = s.far0 ∧ (State.retryWaiting s).far1 = s.far1 ∧
    (State.retryWaiting s).hbm = s.hbm ∧ (State.retryWaiting s).mem = s.mem ∧ (State.retryWaiting s).cores =
    s.cores ∧ (State.retryWaiting s).harts = s.harts ∧ (State.retryWaiting s).stations = s.stations ∧
    (State.retryWaiting s).links = s.links ∧ (State.retryWaiting s).coll = s.coll ∧ (State.retryWaiting s).canopy =
    s.canopy ∧ (State.retryWaiting s).rp = s.rp ∧ (State.retryWaiting s).guy = s.guy ∧ (State.retryWaiting s).tt =
    s.tt ∧ (State.retryWaiting s).job = s.job ∧ (State.retryWaiting s).pitch = s.pitch ∧ (State.retryWaiting s).err =
    s.err ∧ (State.retryWaiting s).ckpt = s.ckpt ∧ (State.retryWaiting s).outputs = s.outputs ∧ (State.retryWaiting
    s).reject = s.reject ∧ (State.retryWaiting s).nacks = s.nacks ∧ (State.retryWaiting s).reissues = s.reissues := by
  unfold State.retryWaiting
  try dsimp only
  (repeat' split) <;> simp []

@[simp] theorem State.ctl_keeps (s : State) (kind arg dst : Nat) (e : Epoch) (payload : List Byte) : (State.ctl s kind
    arg dst e payload).out = s.out ∧ (State.ctl s kind arg dst e payload).start = s.start ∧ (State.ctl s kind arg dst
    e payload).power = s.power ∧ (State.ctl s kind arg dst e payload).mram = s.mram ∧ (State.ctl s kind arg dst e
    payload).sec = s.sec ∧ (State.ctl s kind arg dst e payload).dict = s.dict ∧ (State.ctl s kind arg dst e
    payload).hp0 = s.hp0 ∧ (State.ctl s kind arg dst e payload).hp1 = s.hp1 ∧ (State.ctl s kind arg dst e
    payload).far0 = s.far0 ∧ (State.ctl s kind arg dst e payload).far1 = s.far1 ∧ (State.ctl s kind arg dst e
    payload).hbm = s.hbm ∧ (State.ctl s kind arg dst e payload).mem = s.mem ∧ (State.ctl s kind arg dst e
    payload).cores = s.cores ∧ (State.ctl s kind arg dst e payload).harts = s.harts ∧ (State.ctl s kind arg dst e
    payload).stations = s.stations ∧ (State.ctl s kind arg dst e payload).links = s.links ∧ (State.ctl s kind arg dst
    e payload).coll = s.coll ∧ (State.ctl s kind arg dst e payload).canopy = s.canopy ∧ (State.ctl s kind arg dst e
    payload).rp = s.rp ∧ (State.ctl s kind arg dst e payload).guy = s.guy ∧ (State.ctl s kind arg dst e payload).tt =
    s.tt ∧ (State.ctl s kind arg dst e payload).job = s.job ∧ (State.ctl s kind arg dst e payload).pitch = s.pitch ∧
    (State.ctl s kind arg dst e payload).err = s.err ∧ (State.ctl s kind arg dst e payload).ckpt = s.ckpt ∧ (State.ctl
    s kind arg dst e payload).outputs = s.outputs ∧ (State.ctl s kind arg dst e payload).reject = s.reject ∧
    (State.ctl s kind arg dst e payload).nacks = s.nacks ∧ (State.ctl s kind arg dst e payload).reissues = s.reissues
    := by
  simp [State.ctl]

@[simp] theorem State.injectWait_keeps (s : State) (gd : Nat) : (State.injectWait s gd).out = s.out ∧
    (State.injectWait s gd).start = s.start ∧ (State.injectWait s gd).power = s.power ∧ (State.injectWait s
    gd).recorder = s.recorder ∧ (State.injectWait s gd).mram = s.mram ∧ (State.injectWait s gd).sec = s.sec ∧
    (State.injectWait s gd).dict = s.dict ∧ (State.injectWait s gd).hp0 = s.hp0 ∧ (State.injectWait s gd).hp1 = s.hp1
    ∧ (State.injectWait s gd).far0 = s.far0 ∧ (State.injectWait s gd).far1 = s.far1 ∧ (State.injectWait s gd).hbm =
    s.hbm ∧ (State.injectWait s gd).mem = s.mem ∧ (State.injectWait s gd).cores = s.cores ∧ (State.injectWait s
    gd).harts = s.harts ∧ (State.injectWait s gd).stations = s.stations ∧ (State.injectWait s gd).links = s.links ∧
    (State.injectWait s gd).coll = s.coll ∧ (State.injectWait s gd).canopy = s.canopy ∧ (State.injectWait s gd).rp =
    s.rp ∧ (State.injectWait s gd).guy = s.guy ∧ (State.injectWait s gd).tt = s.tt ∧ (State.injectWait s gd).job =
    s.job ∧ (State.injectWait s gd).pitch = s.pitch ∧ (State.injectWait s gd).err = s.err ∧ (State.injectWait s
    gd).ckpt = s.ckpt ∧ (State.injectWait s gd).outputs = s.outputs ∧ (State.injectWait s gd).reject = s.reject ∧
    (State.injectWait s gd).nacks = s.nacks ∧ (State.injectWait s gd).reissues = s.reissues := by
  simp [State.injectWait]

@[simp] theorem State.inject_keeps (s : State) (gd : Nat) (k : Packet) (o : Owner) : (State.inject s gd k o).out =
    s.out ∧ (State.inject s gd k o).start = s.start ∧ (State.inject s gd k o).power = s.power ∧ (State.inject s gd k
    o).mram = s.mram ∧ (State.inject s gd k o).sec = s.sec ∧ (State.inject s gd k o).dict = s.dict ∧ (State.inject s
    gd k o).hp0 = s.hp0 ∧ (State.inject s gd k o).hp1 = s.hp1 ∧ (State.inject s gd k o).far0 = s.far0 ∧ (State.inject
    s gd k o).far1 = s.far1 ∧ (State.inject s gd k o).hbm = s.hbm ∧ (State.inject s gd k o).mem = s.mem ∧
    (State.inject s gd k o).cores = s.cores ∧ (State.inject s gd k o).harts = s.harts ∧ (State.inject s gd k
    o).stations = s.stations ∧ (State.inject s gd k o).links = s.links ∧ (State.inject s gd k o).coll = s.coll ∧
    (State.inject s gd k o).canopy = s.canopy ∧ (State.inject s gd k o).rp = s.rp ∧ (State.inject s gd k o).guy =
    s.guy ∧ (State.inject s gd k o).tt = s.tt ∧ (State.inject s gd k o).job = s.job ∧ (State.inject s gd k o).pitch =
    s.pitch ∧ (State.inject s gd k o).err = s.err ∧ (State.inject s gd k o).ckpt = s.ckpt ∧ (State.inject s gd k
    o).outputs = s.outputs ∧ (State.inject s gd k o).reject = s.reject ∧ (State.inject s gd k o).nacks = s.nacks ∧
    (State.inject s gd k o).reissues = s.reissues := by
  simp [State.inject]

@[simp] theorem State.lockSpace_keeps (s : State) (key who : Nat) (on : Bool) : (State.lockSpace s key who on).out =
    s.out ∧ (State.lockSpace s key who on).start = s.start ∧ (State.lockSpace s key who on).power = s.power ∧
    (State.lockSpace s key who on).recorder = s.recorder ∧ (State.lockSpace s key who on).mram = s.mram ∧
    (State.lockSpace s key who on).sec = s.sec ∧ (State.lockSpace s key who on).dict = s.dict ∧ (State.lockSpace s key
    who on).hp0 = s.hp0 ∧ (State.lockSpace s key who on).hp1 = s.hp1 ∧ (State.lockSpace s key who on).far0 = s.far0 ∧
    (State.lockSpace s key who on).far1 = s.far1 ∧ (State.lockSpace s key who on).hbm = s.hbm ∧ (State.lockSpace
    s key who on).mem = s.mem ∧ (State.lockSpace s key who on).cores = s.cores ∧ (State.lockSpace s key who on).harts
    = s.harts ∧ (State.lockSpace s key who on).stations = s.stations ∧ (State.lockSpace s key who on).links = s.links
    ∧ (State.lockSpace s key who on).coll = s.coll ∧ (State.lockSpace s key who on).canopy = s.canopy ∧
    (State.lockSpace s key who on).rp = s.rp ∧ (State.lockSpace s key who on).guy = s.guy ∧ (State.lockSpace s key who
    on).tt = s.tt ∧ (State.lockSpace s key who on).job = s.job ∧ (State.lockSpace s key who on).pitch = s.pitch ∧
    (State.lockSpace s key who on).err = s.err ∧ (State.lockSpace s key who on).ckpt = s.ckpt ∧ (State.lockSpace s key
    who on).outputs = s.outputs ∧ (State.lockSpace s key who on).reject = s.reject ∧ (State.lockSpace s key who
    on).nacks = s.nacks ∧ (State.lockSpace s key who on).reissues = s.reissues := by
  simp [State.lockSpace]

@[simp] theorem State.answer_keeps (s : State) (k : Packet) (kind arg : Nat) (payload : List Byte) : (State.answer s k
    kind arg payload).out = s.out ∧ (State.answer s k kind arg payload).start = s.start ∧ (State.answer s k kind arg
    payload).power = s.power ∧ (State.answer s k kind arg payload).mram = s.mram ∧ (State.answer s k kind arg
    payload).sec = s.sec ∧ (State.answer s k kind arg payload).dict = s.dict ∧ (State.answer s k kind arg payload).hp0
    = s.hp0 ∧ (State.answer s k kind arg payload).hp1 = s.hp1 ∧ (State.answer s k kind arg payload).far0 = s.far0 ∧
    (State.answer s k kind arg payload).far1 = s.far1 ∧ (State.answer s k kind arg payload).hbm = s.hbm ∧
    (State.answer s k kind arg payload).mem = s.mem ∧ (State.answer s k kind arg payload).cores = s.cores ∧
    (State.answer s k kind arg payload).harts = s.harts ∧ (State.answer s k kind arg payload).stations = s.stations ∧
    (State.answer s k kind arg payload).links = s.links ∧ (State.answer s k kind arg payload).coll = s.coll ∧
    (State.answer s k kind arg payload).canopy = s.canopy ∧ (State.answer s k kind arg payload).rp = s.rp ∧
    (State.answer s k kind arg payload).guy = s.guy ∧ (State.answer s k kind arg payload).tt = s.tt ∧ (State.answer s
    k kind arg payload).job = s.job ∧ (State.answer s k kind arg payload).pitch = s.pitch ∧ (State.answer s k kind arg
    payload).err = s.err ∧ (State.answer s k kind arg payload).ckpt = s.ckpt ∧ (State.answer s k kind arg
    payload).outputs = s.outputs ∧ (State.answer s k kind arg payload).reject = s.reject ∧ (State.answer s k kind arg
    payload).nacks = s.nacks ∧ (State.answer s k kind arg payload).reissues = s.reissues := by
  simp [State.answer]

@[simp] theorem State.answerKept_keeps (s : State) (k : Packet) (kind arg : Nat) (payload : List Byte) :
    (State.answerKept s k kind arg payload).out = s.out ∧ (State.answerKept s k kind arg payload).start = s.start ∧
    (State.answerKept s k kind arg payload).power = s.power ∧ (State.answerKept s k kind arg payload).mram = s.mram ∧
    (State.answerKept s k kind arg payload).sec = s.sec ∧ (State.answerKept s k kind arg payload).dict = s.dict ∧
    (State.answerKept s k kind arg payload).hp0 = s.hp0 ∧ (State.answerKept s k kind arg payload).hp1 = s.hp1 ∧
    (State.answerKept s k kind arg payload).far0 = s.far0 ∧ (State.answerKept s k kind arg payload).far1 = s.far1 ∧
    (State.answerKept s k kind arg payload).hbm = s.hbm ∧ (State.answerKept s k kind arg payload).mem = s.mem ∧
    (State.answerKept s k kind arg payload).cores = s.cores ∧ (State.answerKept s k kind arg payload).harts = s.harts
    ∧ (State.answerKept s k kind arg payload).stations = s.stations ∧ (State.answerKept s k kind arg payload).links =
    s.links ∧ (State.answerKept s k kind arg payload).coll = s.coll ∧ (State.answerKept s k kind arg payload).canopy =
    s.canopy ∧ (State.answerKept s k kind arg payload).rp = s.rp ∧ (State.answerKept s k kind arg payload).guy = s.guy
    ∧ (State.answerKept s k kind arg payload).tt = s.tt ∧ (State.answerKept s k kind arg payload).job = s.job ∧
    (State.answerKept s k kind arg payload).pitch = s.pitch ∧ (State.answerKept s k kind arg payload).err = s.err ∧
    (State.answerKept s k kind arg payload).ckpt = s.ckpt ∧ (State.answerKept s k kind arg payload).outputs =
    s.outputs ∧ (State.answerKept s k kind arg payload).reject = s.reject ∧ (State.answerKept s k kind arg
    payload).nacks = s.nacks ∧ (State.answerKept s k kind arg payload).reissues = s.reissues := by
  simp [State.answerKept]

@[simp] theorem State.answerAgain_keeps (s : State) (k : Packet) : (State.answerAgain s k).out = s.out ∧
    (State.answerAgain s k).start = s.start ∧ (State.answerAgain s k).power = s.power ∧ (State.answerAgain s k).mram =
    s.mram ∧ (State.answerAgain s k).sec = s.sec ∧ (State.answerAgain s k).dict = s.dict ∧ (State.answerAgain s k).hp0
    = s.hp0 ∧ (State.answerAgain s k).hp1 = s.hp1 ∧ (State.answerAgain s k).far0 = s.far0 ∧ (State.answerAgain s
    k).far1 = s.far1 ∧ (State.answerAgain s k).hbm = s.hbm ∧ (State.answerAgain s k).mem = s.mem ∧
    (State.answerAgain s k).cores = s.cores ∧ (State.answerAgain s k).harts = s.harts ∧ (State.answerAgain s
    k).stations = s.stations ∧ (State.answerAgain s k).links = s.links ∧ (State.answerAgain s k).coll = s.coll ∧
    (State.answerAgain s k).canopy = s.canopy ∧ (State.answerAgain s k).rp = s.rp ∧ (State.answerAgain s k).guy =
    s.guy ∧ (State.answerAgain s k).tt = s.tt ∧ (State.answerAgain s k).job = s.job ∧ (State.answerAgain s k).pitch =
    s.pitch ∧ (State.answerAgain s k).err = s.err ∧ (State.answerAgain s k).ckpt = s.ckpt ∧ (State.answerAgain s
    k).outputs = s.outputs ∧ (State.answerAgain s k).reject = s.reject ∧ (State.answerAgain s k).nacks = s.nacks ∧
    (State.answerAgain s k).reissues = s.reissues := by
  unfold State.answerAgain
  (repeat' split) <;> simp

@[simp] theorem State.takePosition_keeps (f : Core → Option Core) (s : State) (d : Nat) : (State.takePosition f s
    d).out = s.out ∧ (State.takePosition f s d).start = s.start ∧ (State.takePosition f s d).power = s.power ∧
    (State.takePosition f s d).recorder = s.recorder ∧ (State.takePosition f s d).mram = s.mram ∧ (State.takePosition
    f s d).sec = s.sec ∧ (State.takePosition f s d).dict = s.dict ∧ (State.takePosition f s d).hp0 = s.hp0 ∧
    (State.takePosition f s d).hp1 = s.hp1 ∧ (State.takePosition f s d).far0 = s.far0 ∧ (State.takePosition f s
    d).far1 = s.far1 ∧ (State.takePosition f s d).hbm = s.hbm ∧ (State.takePosition f s d).mem = s.mem ∧
    (State.takePosition f s d).harts = s.harts ∧ (State.takePosition f s d).stations = s.stations ∧
    (State.takePosition f s d).links = s.links ∧ (State.takePosition f s d).coll = s.coll ∧ (State.takePosition f s
    d).fab = s.fab ∧ (State.takePosition f s d).canopy = s.canopy ∧ (State.takePosition f s d).rp = s.rp ∧
    (State.takePosition f s d).guy = s.guy ∧ (State.takePosition f s d).tt = s.tt ∧ (State.takePosition f s d).job =
    s.job ∧ (State.takePosition f s d).pitch = s.pitch ∧ (State.takePosition f s d).err = s.err ∧ (State.takePosition
    f s d).ckpt = s.ckpt ∧ (State.takePosition f s d).outputs = s.outputs ∧ (State.takePosition f s d).reject =
    s.reject ∧ (State.takePosition f s d).nacks = s.nacks ∧ (State.takePosition f s d).reissues = s.reissues := by
  unfold State.takePosition
  (repeat' split) <;> simp

@[simp] theorem State.lockstep_keeps (s : State) (c : Nat) (f : Core → Option Core) : (State.lockstep s c f).out =
    s.out ∧ (State.lockstep s c f).start = s.start ∧ (State.lockstep s c f).power = s.power ∧ (State.lockstep s c
    f).recorder = s.recorder ∧ (State.lockstep s c f).mram = s.mram ∧ (State.lockstep s c f).sec = s.sec ∧
    (State.lockstep s c f).dict = s.dict ∧ (State.lockstep s c f).hp0 = s.hp0 ∧ (State.lockstep s c f).hp1 = s.hp1 ∧
    (State.lockstep s c f).far0 = s.far0 ∧ (State.lockstep s c f).far1 = s.far1 ∧ (State.lockstep s c f).hbm =
    s.hbm ∧ (State.lockstep s c f).mem = s.mem ∧ (State.lockstep s c f).harts = s.harts ∧ (State.lockstep s c
    f).stations = s.stations ∧ (State.lockstep s c f).links = s.links ∧ (State.lockstep s c f).coll = s.coll ∧
    (State.lockstep s c f).fab = s.fab ∧ (State.lockstep s c f).canopy = s.canopy ∧ (State.lockstep s c f).rp = s.rp ∧
    (State.lockstep s c f).guy = s.guy ∧ (State.lockstep s c f).tt = s.tt ∧ (State.lockstep s c f).job = s.job ∧
    (State.lockstep s c f).pitch = s.pitch ∧ (State.lockstep s c f).err = s.err ∧ (State.lockstep s c f).ckpt = s.ckpt
    ∧ (State.lockstep s c f).outputs = s.outputs ∧ (State.lockstep s c f).reject = s.reject ∧ (State.lockstep s c
    f).nacks = s.nacks ∧ (State.lockstep s c f).reissues = s.reissues := by
  unfold State.lockstep
  try dsimp only
  (repeat' split) <;> simp []

@[simp] theorem tick_keeps (s : State) : (tick s).out = s.out ∧ (tick s).start = s.start ∧ (tick s).power = s.power ∧
    (tick s).recorder = s.recorder ∧ (tick s).mram = s.mram ∧ (tick s).sec = s.sec ∧ (tick s).dict = s.dict ∧ (tick
    s).hp0 = s.hp0 ∧ (tick s).hp1 = s.hp1 ∧ (tick s).far0 = s.far0 ∧ (tick s).far1 = s.far1 ∧ (tick s).hbm =
    s.hbm ∧ (tick s).mem = s.mem ∧ (tick s).harts = s.harts ∧ (tick s).stations = s.stations ∧ (tick s).links =
    s.links ∧ (tick s).coll = s.coll ∧ (tick s).fab = s.fab ∧ (tick s).canopy = s.canopy ∧ (tick s).guy = s.guy ∧
    (tick s).tt = s.tt ∧ (tick s).job = s.job ∧ (tick s).pitch = s.pitch ∧ (tick s).err = s.err ∧ (tick s).ckpt =
    s.ckpt ∧ (tick s).outputs = s.outputs ∧ (tick s).reject = s.reject ∧ (tick s).nacks = s.nacks ∧ (tick s).reissues
    = s.reissues := by
  unfold tick
  try dsimp only
  (repeat' split) <;> simp []

@[simp] theorem State.sendPitch_keeps (s : State) (ty reason rank off dst : Nat) (payload : List Byte) :
    (State.sendPitch s ty reason rank off dst payload).out = s.out ∧ (State.sendPitch s ty reason rank off dst
    payload).start = s.start ∧ (State.sendPitch s ty reason rank off dst payload).power = s.power ∧ (State.sendPitch s
    ty reason rank off dst payload).mram = s.mram ∧ (State.sendPitch s ty reason rank off dst payload).sec = s.sec ∧
    (State.sendPitch s ty reason rank off dst payload).dict = s.dict ∧ (State.sendPitch s ty reason rank off dst
    payload).hp0 = s.hp0 ∧ (State.sendPitch s ty reason rank off dst payload).hp1 = s.hp1 ∧ (State.sendPitch s ty
    reason rank off dst payload).far0 = s.far0 ∧ (State.sendPitch s ty reason rank off dst payload).far1 = s.far1 ∧
    (State.sendPitch s ty reason rank off dst payload).hbm = s.hbm ∧ (State.sendPitch s ty reason rank off dst
    payload).mem = s.mem ∧ (State.sendPitch s ty reason rank off dst payload).cores = s.cores ∧ (State.sendPitch s ty
    reason rank off dst payload).harts = s.harts ∧ (State.sendPitch s ty reason rank off dst payload).stations =
    s.stations ∧ (State.sendPitch s ty reason rank off dst payload).links = s.links ∧ (State.sendPitch s ty reason
    rank off dst payload).coll = s.coll ∧ (State.sendPitch s ty reason rank off dst payload).canopy = s.canopy ∧
    (State.sendPitch s ty reason rank off dst payload).rp = s.rp ∧ (State.sendPitch s ty reason rank off dst
    payload).guy = s.guy ∧ (State.sendPitch s ty reason rank off dst payload).tt = s.tt ∧ (State.sendPitch s ty reason
    rank off dst payload).job = s.job ∧ (State.sendPitch s ty reason rank off dst payload).pitch = s.pitch ∧
    (State.sendPitch s ty reason rank off dst payload).err = s.err ∧ (State.sendPitch s ty reason rank off dst
    payload).ckpt = s.ckpt ∧ (State.sendPitch s ty reason rank off dst payload).outputs = s.outputs ∧ (State.sendPitch
    s ty reason rank off dst payload).reject = s.reject ∧ (State.sendPitch s ty reason rank off dst payload).nacks =
    s.nacks ∧ (State.sendPitch s ty reason rank off dst payload).reissues = s.reissues := by
  simp [State.sendPitch]

@[simp] theorem State.stopAll_keeps (s : State) : (State.stopAll s).out = s.out ∧ (State.stopAll s).start = s.start ∧
    (State.stopAll s).power = s.power ∧ (State.stopAll s).recorder = s.recorder ∧ (State.stopAll s).mram = s.mram ∧
    (State.stopAll s).sec = s.sec ∧ (State.stopAll s).dict = s.dict ∧ (State.stopAll s).hp0 = s.hp0 ∧ (State.stopAll
    s).hp1 = s.hp1 ∧ (State.stopAll s).far0 = s.far0 ∧ (State.stopAll s).far1 = s.far1 ∧ (State.stopAll s).hbm =
    s.hbm ∧ (State.stopAll s).mem = s.mem ∧ (State.stopAll s).canopy = s.canopy ∧ (State.stopAll s).rp = s.rp ∧
    (State.stopAll s).guy = s.guy ∧ (State.stopAll s).job = s.job ∧ (State.stopAll s).pitch = s.pitch ∧ (State.stopAll
    s).err = s.err ∧ (State.stopAll s).ckpt = s.ckpt ∧ (State.stopAll s).outputs = s.outputs ∧ (State.stopAll
    s).reject = s.reject := by
  simp [State.stopAll]

@[simp] theorem State.beginReset_keeps (s : State) (after : AfterReset) (keep : Bool) : (State.beginReset s after
    keep).out = s.out ∧ (State.beginReset s after keep).start = s.start ∧ (State.beginReset s after keep).power =
    s.power ∧ (State.beginReset s after keep).recorder = s.recorder ∧ (State.beginReset s after keep).mram = s.mram ∧
    (State.beginReset s after keep).sec = s.sec ∧ (State.beginReset s after keep).dict = s.dict ∧ (State.beginReset s
    after keep).hp0 = s.hp0 ∧ (State.beginReset s after keep).hp1 = s.hp1 ∧ (State.beginReset s after keep).far0 =
    s.far0 ∧ (State.beginReset s after keep).far1 = s.far1 ∧ (State.beginReset s after keep).hbm = s.hbm ∧
    (State.beginReset s after keep).mem = s.mem ∧ (State.beginReset s after keep).canopy = s.canopy ∧
    (State.beginReset s after keep).err = s.err ∧ (State.beginReset s after keep).outputs = s.outputs ∧
    (State.beginReset s after keep).reject = s.reject := by
  simp [State.beginReset]

@[simp] theorem State.sendStrike_keeps (s : State) (reason : Nat) : (State.sendStrike s reason).out = s.out ∧
    (State.sendStrike s reason).start = s.start ∧ (State.sendStrike s reason).power = s.power ∧ (State.sendStrike s
    reason).mram = s.mram ∧ (State.sendStrike s reason).sec = s.sec ∧ (State.sendStrike s reason).dict = s.dict ∧
    (State.sendStrike s reason).hp0 = s.hp0 ∧ (State.sendStrike s reason).hp1 = s.hp1 ∧ (State.sendStrike s
    reason).far0 = s.far0 ∧ (State.sendStrike s reason).far1 = s.far1 ∧ (State.sendStrike s reason).hbm = s.hbm
    ∧ (State.sendStrike s reason).mem = s.mem ∧ (State.sendStrike s reason).cores = s.cores ∧ (State.sendStrike s
    reason).harts = s.harts ∧ (State.sendStrike s reason).stations = s.stations ∧ (State.sendStrike s reason).links =
    s.links ∧ (State.sendStrike s reason).coll = s.coll ∧ (State.sendStrike s reason).canopy = s.canopy ∧
    (State.sendStrike s reason).rp = s.rp ∧ (State.sendStrike s reason).guy = s.guy ∧ (State.sendStrike s reason).tt =
    s.tt ∧ (State.sendStrike s reason).job = s.job ∧ (State.sendStrike s reason).pitch = s.pitch ∧ (State.sendStrike s
    reason).err = s.err ∧ (State.sendStrike s reason).ckpt = s.ckpt ∧ (State.sendStrike s reason).outputs = s.outputs
    ∧ (State.sendStrike s reason).reject = s.reject ∧ (State.sendStrike s reason).nacks = s.nacks ∧ (State.sendStrike
    s reason).reissues = s.reissues := by
  unfold State.sendStrike
  try dsimp only
  (repeat' split) <;> simp []

theorem ingress_keeps {s u : State} {c : Nat} {t : Transfer} (h : s.ingress c t = some u) : u.out = s.out ∧ u.start =
    s.start ∧ u.power = s.power ∧ u.recorder = s.recorder ∧ u.mram = s.mram ∧ u.sec = s.sec ∧ u.dict = s.dict ∧ u.hp0
    = s.hp0 ∧ u.hp1 = s.hp1 ∧ u.far0 = s.far0 ∧ u.far1 = s.far1 ∧ u.hbm = s.hbm ∧ u.mem = s.mem ∧ u.harts =
    s.harts ∧ u.stations = s.stations ∧ u.links = s.links ∧ u.coll = s.coll ∧ u.fab = s.fab ∧ u.canopy = s.canopy ∧
    u.rp = s.rp ∧ u.guy = s.guy ∧ u.tt = s.tt ∧ u.job = s.job ∧ u.pitch = s.pitch ∧ u.err = s.err ∧ u.ckpt = s.ckpt ∧
    u.outputs = s.outputs ∧ u.reject = s.reject ∧ u.nacks = s.nacks ∧ u.reissues = s.reissues := by
  unfold State.ingress at h
  split at h
  · cases h; simp
  · cases h

@[simp] theorem ingress_getD (s : State) (c : Nat) (t : Transfer) : ((s.ingress c t).getD s).out = s.out ∧ ((s.ingress
    c t).getD s).start = s.start ∧ ((s.ingress c t).getD s).power = s.power ∧ ((s.ingress c t).getD s).recorder =
    s.recorder ∧ ((s.ingress c t).getD s).mram = s.mram ∧ ((s.ingress c t).getD s).sec = s.sec ∧ ((s.ingress c t).getD
    s).dict = s.dict ∧ ((s.ingress c t).getD s).hp0 = s.hp0 ∧ ((s.ingress c t).getD s).hp1 = s.hp1 ∧ ((s.ingress c
    t).getD s).far0 = s.far0 ∧ ((s.ingress c t).getD s).far1 = s.far1 ∧ ((s.ingress c t).getD s).hbm = s.hbm ∧
    ((s.ingress c t).getD s).mem = s.mem ∧ ((s.ingress c t).getD s).harts = s.harts ∧ ((s.ingress c t).getD
    s).stations = s.stations ∧ ((s.ingress c t).getD s).links = s.links ∧ ((s.ingress c t).getD s).coll = s.coll ∧
    ((s.ingress c t).getD s).fab = s.fab ∧ ((s.ingress c t).getD s).canopy = s.canopy ∧ ((s.ingress c t).getD s).rp =
    s.rp ∧ ((s.ingress c t).getD s).guy = s.guy ∧ ((s.ingress c t).getD s).tt = s.tt ∧ ((s.ingress c t).getD s).job =
    s.job ∧ ((s.ingress c t).getD s).pitch = s.pitch ∧ ((s.ingress c t).getD s).err = s.err ∧ ((s.ingress c t).getD
    s).ckpt = s.ckpt ∧ ((s.ingress c t).getD s).outputs = s.outputs ∧ ((s.ingress c t).getD s).reject = s.reject ∧
    ((s.ingress c t).getD s).nacks = s.nacks ∧ ((s.ingress c t).getD s).reissues = s.reissues := by
  unfold State.ingress
  split <;> simp

@[simp] theorem State.strikeSelf_keeps (s : State) (reason : Nat) : (State.strikeSelf s reason).out = s.out ∧
    (State.strikeSelf s reason).start = s.start ∧ (State.strikeSelf s reason).power = s.power ∧ (State.strikeSelf s
    reason).mram = s.mram ∧ (State.strikeSelf s reason).sec = s.sec ∧ (State.strikeSelf s reason).dict = s.dict ∧
    (State.strikeSelf s reason).hp0 = s.hp0 ∧ (State.strikeSelf s reason).hp1 = s.hp1 ∧ (State.strikeSelf s
    reason).far0 = s.far0 ∧ (State.strikeSelf s reason).far1 = s.far1 ∧ (State.strikeSelf s reason).hbm = s.hbm
    ∧ (State.strikeSelf s reason).mem = s.mem ∧ (State.strikeSelf s reason).canopy = s.canopy ∧ (State.strikeSelf s
    reason).outputs = s.outputs ∧ (State.strikeSelf s reason).reject = s.reject := by
  simp [State.strikeSelf]

@[simp] theorem State.strikeAll_keeps (s : State) (reason : Nat) : (State.strikeAll s reason).out = s.out ∧
    (State.strikeAll s reason).start = s.start ∧ (State.strikeAll s reason).power = s.power ∧ (State.strikeAll s
    reason).mram = s.mram ∧ (State.strikeAll s reason).sec = s.sec ∧ (State.strikeAll s reason).dict = s.dict ∧
    (State.strikeAll s reason).hp0 = s.hp0 ∧ (State.strikeAll s reason).hp1 = s.hp1 ∧ (State.strikeAll s reason).far0
    = s.far0 ∧ (State.strikeAll s reason).far1 = s.far1 ∧ (State.strikeAll s reason).hbm = s.hbm ∧
    (State.strikeAll s reason).mem = s.mem ∧ (State.strikeAll s reason).canopy = s.canopy ∧ (State.strikeAll s
    reason).outputs = s.outputs ∧ (State.strikeAll s reason).reject = s.reject := by
  simp [State.strikeAll]

@[simp] theorem State.rootAbort_keeps (s : State) (reason rank : Nat) : (State.rootAbort s reason rank).out = s.out ∧
    (State.rootAbort s reason rank).start = s.start ∧ (State.rootAbort s reason rank).power = s.power ∧
    (State.rootAbort s reason rank).mram = s.mram ∧ (State.rootAbort s reason rank).sec = s.sec ∧ (State.rootAbort s
    reason rank).dict = s.dict ∧ (State.rootAbort s reason rank).hp0 = s.hp0 ∧ (State.rootAbort s reason rank).hp1 =
    s.hp1 ∧ (State.rootAbort s reason rank).far0 = s.far0 ∧ (State.rootAbort s reason rank).far1 = s.far1 ∧
    (State.rootAbort s reason rank).hbm = s.hbm ∧ (State.rootAbort s reason rank).mem = s.mem ∧ (State.rootAbort
    s reason rank).canopy = s.canopy ∧ (State.rootAbort s reason rank).outputs = s.outputs ∧ (State.rootAbort s reason
    rank).reject = s.reject := by
  unfold State.rootAbort
  try dsimp only
  (repeat' split) <;> simp []

@[simp] theorem State.pitchFail_keeps (s : State) (reason rank : Nat) : (State.pitchFail s reason rank).out = s.out ∧
    (State.pitchFail s reason rank).start = s.start ∧ (State.pitchFail s reason rank).power = s.power ∧
    (State.pitchFail s reason rank).mram = s.mram ∧ (State.pitchFail s reason rank).sec = s.sec ∧ (State.pitchFail s
    reason rank).dict = s.dict ∧ (State.pitchFail s reason rank).hp0 = s.hp0 ∧ (State.pitchFail s reason rank).hp1 =
    s.hp1 ∧ (State.pitchFail s reason rank).far0 = s.far0 ∧ (State.pitchFail s reason rank).far1 = s.far1 ∧
    (State.pitchFail s reason rank).hbm = s.hbm ∧ (State.pitchFail s reason rank).mem = s.mem ∧ (State.pitchFail
    s reason rank).canopy = s.canopy ∧ (State.pitchFail s reason rank).outputs = s.outputs ∧ (State.pitchFail s reason
    rank).reject = s.reject := by
  simp [State.pitchFail]

@[simp] theorem State.requestReset_keeps (s : State) (code : Nat) : (State.requestReset s code).power = s.power ∧
    (State.requestReset s code).mram = s.mram ∧ (State.requestReset s code).sec = s.sec ∧ (State.requestReset s
    code).dict = s.dict ∧ (State.requestReset s code).hp0 = s.hp0 ∧ (State.requestReset s code).hp1 = s.hp1 ∧
    (State.requestReset s code).far0 = s.far0 ∧ (State.requestReset s code).far1 = s.far1 ∧ (State.requestReset s
    code).hbm = s.hbm ∧ (State.requestReset s code).mem = s.mem ∧ (State.requestReset s code).cores = s.cores ∧
    (State.requestReset s code).harts = s.harts ∧ (State.requestReset s code).stations = s.stations ∧
    (State.requestReset s code).links = s.links ∧ (State.requestReset s code).coll = s.coll ∧ (State.requestReset s
    code).fab = s.fab ∧ (State.requestReset s code).canopy = s.canopy ∧ (State.requestReset s code).rp = s.rp ∧
    (State.requestReset s code).guy = s.guy ∧ (State.requestReset s code).tt = s.tt ∧ (State.requestReset s code).job
    = s.job ∧ (State.requestReset s code).pitch = s.pitch ∧ (State.requestReset s code).ckpt = s.ckpt ∧
    (State.requestReset s code).outputs = s.outputs ∧ (State.requestReset s code).reject = s.reject ∧
    (State.requestReset s code).nacks = s.nacks ∧ (State.requestReset s code).reissues = s.reissues := by
  simp [State.requestReset]

@[simp] theorem State.noteFirst_keeps (s : State) (code core level : Nat) : (State.noteFirst s code core level).out =
    s.out ∧ (State.noteFirst s code core level).start = s.start ∧ (State.noteFirst s code core level).power = s.power
    ∧ (State.noteFirst s code core level).recorder = s.recorder ∧ (State.noteFirst s code core level).mram = s.mram ∧
    (State.noteFirst s code core level).sec = s.sec ∧ (State.noteFirst s code core level).dict = s.dict ∧
    (State.noteFirst s code core level).hp0 = s.hp0 ∧ (State.noteFirst s code core level).hp1 = s.hp1 ∧
    (State.noteFirst s code core level).far0 = s.far0 ∧ (State.noteFirst s code core level).far1 = s.far1 ∧
    (State.noteFirst s code core level).hbm = s.hbm ∧ (State.noteFirst s code core level).mem = s.mem ∧
    (State.noteFirst s code core level).cores = s.cores ∧ (State.noteFirst s code core level).harts = s.harts ∧
    (State.noteFirst s code core level).stations = s.stations ∧ (State.noteFirst s code core level).links = s.links ∧
    (State.noteFirst s code core level).coll = s.coll ∧ (State.noteFirst s code core level).fab = s.fab ∧
    (State.noteFirst s code core level).canopy = s.canopy ∧ (State.noteFirst s code core level).rp = s.rp ∧
    (State.noteFirst s code core level).guy = s.guy ∧ (State.noteFirst s code core level).tt = s.tt ∧ (State.noteFirst
    s code core level).job = s.job ∧ (State.noteFirst s code core level).pitch = s.pitch ∧ (State.noteFirst s code
    core level).ckpt = s.ckpt ∧ (State.noteFirst s code core level).outputs = s.outputs ∧ (State.noteFirst s code core
    level).reject = s.reject ∧ (State.noteFirst s code core level).nacks = s.nacks ∧ (State.noteFirst s code core
    level).reissues = s.reissues := by
  unfold State.noteFirst
  (repeat' split) <;> simp

@[simp] theorem State.escalate_keeps (s : State) (code old new : Nat) : (State.escalate s code old new).out = s.out ∧
    (State.escalate s code old new).start = s.start ∧ (State.escalate s code old new).power = s.power ∧
    (State.escalate s code old new).mram = s.mram ∧ (State.escalate s code old new).sec = s.sec ∧ (State.escalate s
    code old new).dict = s.dict ∧ (State.escalate s code old new).hp0 = s.hp0 ∧ (State.escalate s code old new).hp1 =
    s.hp1 ∧ (State.escalate s code old new).far0 = s.far0 ∧ (State.escalate s code old new).far1 = s.far1 ∧
    (State.escalate s code old new).hbm = s.hbm ∧ (State.escalate s code old new).mem = s.mem ∧ (State.escalate
    s code old new).cores = s.cores ∧ (State.escalate s code old new).harts = s.harts ∧ (State.escalate s code old
    new).stations = s.stations ∧ (State.escalate s code old new).links = s.links ∧ (State.escalate s code old
    new).coll = s.coll ∧ (State.escalate s code old new).fab = s.fab ∧ (State.escalate s code old new).canopy =
    s.canopy ∧ (State.escalate s code old new).rp = s.rp ∧ (State.escalate s code old new).guy = s.guy ∧
    (State.escalate s code old new).tt = s.tt ∧ (State.escalate s code old new).job = s.job ∧ (State.escalate s code
    old new).pitch = s.pitch ∧ (State.escalate s code old new).ckpt = s.ckpt ∧ (State.escalate s code old new).outputs
    = s.outputs ∧ (State.escalate s code old new).reject = s.reject ∧ (State.escalate s code old new).nacks = s.nacks
    ∧ (State.escalate s code old new).reissues = s.reissues := by
  simp [State.escalate]

@[simp] theorem State.jobError_keeps (s : State) (code core reason : Nat) : (State.jobError s code core reason).power
    = s.power ∧ (State.jobError s code core reason).mram = s.mram ∧ (State.jobError s code core reason).sec = s.sec ∧
    (State.jobError s code core reason).dict = s.dict ∧ (State.jobError s code core reason).hp0 = s.hp0 ∧
    (State.jobError s code core reason).hp1 = s.hp1 ∧ (State.jobError s code core reason).far0 = s.far0 ∧
    (State.jobError s code core reason).far1 = s.far1 ∧ (State.jobError s code core reason).hbm = s.hbm ∧
    (State.jobError s code core reason).mem = s.mem ∧ (State.jobError s code core reason).canopy = s.canopy ∧
    (State.jobError s code core reason).outputs = s.outputs ∧ (State.jobError s code core reason).reject = s.reject :=
    by
  simp [State.jobError]

@[simp] theorem State.reportJob_keeps (s : State) (code source payload core : Nat) (reason : Nat := 3) :
    (State.reportJob s code source payload core reason).power = s.power ∧ (State.reportJob s code source payload core
    reason).mram = s.mram ∧ (State.reportJob s code source payload core reason).sec = s.sec ∧ (State.reportJob s code
    source payload core reason).dict = s.dict ∧ (State.reportJob s code source payload core reason).hp0 = s.hp0 ∧
    (State.reportJob s code source payload core reason).hp1 = s.hp1 ∧ (State.reportJob s code source payload core
    reason).far0 = s.far0 ∧ (State.reportJob s code source payload core reason).far1 = s.far1 ∧ (State.reportJob s
    code source payload core reason).hbm = s.hbm ∧ (State.reportJob s code source payload core reason).mem =
    s.mem ∧ (State.reportJob s code source payload core reason).canopy = s.canopy ∧ (State.reportJob s code source
    payload core reason).outputs = s.outputs ∧ (State.reportJob s code source payload core reason).reject = s.reject
    := by
  simp [State.reportJob]

@[simp] theorem State.stepError_keeps (s : State) (code core : Nat) : (State.stepError s code core).power = s.power ∧
    (State.stepError s code core).mram = s.mram ∧ (State.stepError s code core).sec = s.sec ∧ (State.stepError s code
    core).dict = s.dict ∧ (State.stepError s code core).hp0 = s.hp0 ∧ (State.stepError s code core).hp1 = s.hp1 ∧
    (State.stepError s code core).far0 = s.far0 ∧ (State.stepError s code core).far1 = s.far1 ∧ (State.stepError s
    code core).hbm = s.hbm ∧ (State.stepError s code core).mem = s.mem ∧ (State.stepError s code core).canopy =
    s.canopy ∧ (State.stepError s code core).outputs = s.outputs ∧ (State.stepError s code core).reject = s.reject :=
    by
  simp [State.stepError]

@[simp] theorem State.reportStep_keeps (s : State) (code source payload core : Nat) : (State.reportStep s code source
    payload core).power = s.power ∧ (State.reportStep s code source payload core).mram = s.mram ∧ (State.reportStep s
    code source payload core).sec = s.sec ∧ (State.reportStep s code source payload core).dict = s.dict ∧
    (State.reportStep s code source payload core).hp0 = s.hp0 ∧ (State.reportStep s code source payload core).hp1 =
    s.hp1 ∧ (State.reportStep s code source payload core).far0 = s.far0 ∧ (State.reportStep s code source payload
    core).far1 = s.far1 ∧ (State.reportStep s code source payload core).hbm = s.hbm ∧ (State.reportStep s code
    source payload core).mem = s.mem ∧ (State.reportStep s code source payload core).canopy = s.canopy ∧
    (State.reportStep s code source payload core).outputs = s.outputs ∧ (State.reportStep s code source payload
    core).reject = s.reject := by
  simp [State.reportStep]

@[simp] theorem State.parityEvent_keeps (s : State) (source level : Nat) : (State.parityEvent s source level).out =
    s.out ∧ (State.parityEvent s source level).start = s.start ∧ (State.parityEvent s source level).power = s.power ∧
    (State.parityEvent s source level).mram = s.mram ∧ (State.parityEvent s source level).sec = s.sec ∧
    (State.parityEvent s source level).dict = s.dict ∧ (State.parityEvent s source level).hp0 = s.hp0 ∧
    (State.parityEvent s source level).hp1 = s.hp1 ∧ (State.parityEvent s source level).far0 = s.far0 ∧
    (State.parityEvent s source level).far1 = s.far1 ∧ (State.parityEvent s source level).hbm = s.hbm ∧
    (State.parityEvent s source level).mem = s.mem ∧ (State.parityEvent s source level).cores = s.cores ∧
    (State.parityEvent s source level).harts = s.harts ∧ (State.parityEvent s source level).stations = s.stations ∧
    (State.parityEvent s source level).links = s.links ∧ (State.parityEvent s source level).coll = s.coll ∧
    (State.parityEvent s source level).fab = s.fab ∧ (State.parityEvent s source level).canopy = s.canopy ∧
    (State.parityEvent s source level).rp = s.rp ∧ (State.parityEvent s source level).guy = s.guy ∧ (State.parityEvent
    s source level).tt = s.tt ∧ (State.parityEvent s source level).job = s.job ∧ (State.parityEvent s source
    level).pitch = s.pitch ∧ (State.parityEvent s source level).err = s.err ∧ (State.parityEvent s source level).ckpt
    = s.ckpt ∧ (State.parityEvent s source level).outputs = s.outputs ∧ (State.parityEvent s source level).reject =
    s.reject ∧ (State.parityEvent s source level).nacks = s.nacks ∧ (State.parityEvent s source level).reissues =
    s.reissues := by
  simp [State.parityEvent]

@[simp] theorem State.unitRetry_keeps (s : State) (source pos : Nat) : (State.unitRetry s source pos).out = s.out ∧
    (State.unitRetry s source pos).start = s.start ∧ (State.unitRetry s source pos).power = s.power ∧ (State.unitRetry
    s source pos).mram = s.mram ∧ (State.unitRetry s source pos).sec = s.sec ∧ (State.unitRetry s source pos).dict =
    s.dict ∧ (State.unitRetry s source pos).hp0 = s.hp0 ∧ (State.unitRetry s source pos).hp1 = s.hp1 ∧
    (State.unitRetry s source pos).far0 = s.far0 ∧ (State.unitRetry s source pos).far1 = s.far1 ∧ (State.unitRetry s
    source pos).hbm = s.hbm ∧ (State.unitRetry s source pos).mem = s.mem ∧ (State.unitRetry s source pos).cores
    = s.cores ∧ (State.unitRetry s source pos).harts = s.harts ∧ (State.unitRetry s source pos).stations = s.stations
    ∧ (State.unitRetry s source pos).links = s.links ∧ (State.unitRetry s source pos).coll = s.coll ∧ (State.unitRetry
    s source pos).fab = s.fab ∧ (State.unitRetry s source pos).canopy = s.canopy ∧ (State.unitRetry s source pos).rp =
    s.rp ∧ (State.unitRetry s source pos).guy = s.guy ∧ (State.unitRetry s source pos).tt = s.tt ∧ (State.unitRetry s
    source pos).job = s.job ∧ (State.unitRetry s source pos).pitch = s.pitch ∧ (State.unitRetry s source pos).ckpt =
    s.ckpt ∧ (State.unitRetry s source pos).outputs = s.outputs ∧ (State.unitRetry s source pos).reject = s.reject ∧
    (State.unitRetry s source pos).nacks = s.nacks ∧ (State.unitRetry s source pos).reissues = s.reissues := by
  simp [State.unitRetry]

@[simp] theorem State.unitAgain_keeps (s : State) (source core : Nat) : (State.unitAgain s source core).power =
    s.power ∧ (State.unitAgain s source core).mram = s.mram ∧ (State.unitAgain s source core).sec = s.sec ∧
    (State.unitAgain s source core).dict = s.dict ∧ (State.unitAgain s source core).hp0 = s.hp0 ∧ (State.unitAgain s
    source core).hp1 = s.hp1 ∧ (State.unitAgain s source core).far0 = s.far0 ∧ (State.unitAgain s source core).far1 =
    s.far1 ∧ (State.unitAgain s source core).hbm = s.hbm ∧ (State.unitAgain s source core).mem = s.mem ∧
    (State.unitAgain s source core).canopy = s.canopy ∧ (State.unitAgain s source core).outputs = s.outputs ∧
    (State.unitAgain s source core).reject = s.reject := by
  simp [State.unitAgain]

@[simp] theorem State.parityStep_keeps (s : State) (source core : Nat) : (State.parityStep s source core).power =
    s.power ∧ (State.parityStep s source core).mram = s.mram ∧ (State.parityStep s source core).sec = s.sec ∧
    (State.parityStep s source core).dict = s.dict ∧ (State.parityStep s source core).hp0 = s.hp0 ∧ (State.parityStep
    s source core).hp1 = s.hp1 ∧ (State.parityStep s source core).far0 = s.far0 ∧ (State.parityStep s source
    core).far1 = s.far1 ∧ (State.parityStep s source core).hbm = s.hbm ∧ (State.parityStep s source core).mem =
    s.mem ∧ (State.parityStep s source core).canopy = s.canopy ∧ (State.parityStep s source core).outputs = s.outputs
    ∧ (State.parityStep s source core).reject = s.reject := by
  simp [State.parityStep]

@[simp] theorem State.parityJob_keeps (s : State) (source core : Nat) : (State.parityJob s source core).power =
    s.power ∧ (State.parityJob s source core).mram = s.mram ∧ (State.parityJob s source core).sec = s.sec ∧
    (State.parityJob s source core).dict = s.dict ∧ (State.parityJob s source core).hp0 = s.hp0 ∧ (State.parityJob s
    source core).hp1 = s.hp1 ∧ (State.parityJob s source core).far0 = s.far0 ∧ (State.parityJob s source core).far1 =
    s.far1 ∧ (State.parityJob s source core).hbm = s.hbm ∧ (State.parityJob s source core).mem = s.mem ∧
    (State.parityJob s source core).canopy = s.canopy ∧ (State.parityJob s source core).outputs = s.outputs ∧
    (State.parityJob s source core).reject = s.reject := by
  simp [State.parityJob]

@[simp] theorem State.engineError_keeps (s : State) (retrying : Bool) (code source payload core : Nat) :
    (State.engineError s retrying code source payload core).power = s.power ∧ (State.engineError s retrying code
    source payload core).mram = s.mram ∧ (State.engineError s retrying code source payload core).sec = s.sec ∧
    (State.engineError s retrying code source payload core).dict = s.dict ∧ (State.engineError s retrying code source
    payload core).hp0 = s.hp0 ∧ (State.engineError s retrying code source payload core).hp1 = s.hp1 ∧
    (State.engineError s retrying code source payload core).far0 = s.far0 ∧ (State.engineError s retrying code source
    payload core).far1 = s.far1 ∧ (State.engineError s retrying code source payload core).hbm = s.hbm ∧
    (State.engineError s retrying code source payload core).mem = s.mem ∧ (State.engineError s retrying code source
    payload core).canopy = s.canopy ∧ (State.engineError s retrying code source payload core).outputs = s.outputs ∧
    (State.engineError s retrying code source payload core).reject = s.reject := by
  simp [State.engineError]

@[simp] theorem State.stackParity_keeps (s : State) (ch : Nat) : (State.stackParity s ch).out = s.out ∧
    (State.stackParity s ch).start = s.start ∧ (State.stackParity s ch).power = s.power ∧ (State.stackParity s
    ch).mram = s.mram ∧ (State.stackParity s ch).sec = s.sec ∧ (State.stackParity s ch).dict = s.dict ∧
    (State.stackParity s ch).hp0 = s.hp0 ∧ (State.stackParity s ch).hp1 = s.hp1 ∧ (State.stackParity s ch).far0 =
    s.far0 ∧ (State.stackParity s ch).far1 = s.far1 ∧ (State.stackParity s ch).mem = s.mem ∧ (State.stackParity s
    ch).cores = s.cores ∧ (State.stackParity s ch).harts = s.harts ∧ (State.stackParity s ch).stations = s.stations ∧
    (State.stackParity s ch).links = s.links ∧ (State.stackParity s ch).coll = s.coll ∧ (State.stackParity s ch).fab =
    s.fab ∧ (State.stackParity s ch).canopy = s.canopy ∧ (State.stackParity s ch).rp = s.rp ∧ (State.stackParity s
    ch).guy = s.guy ∧ (State.stackParity s ch).tt = s.tt ∧ (State.stackParity s ch).job = s.job ∧ (State.stackParity s
    ch).pitch = s.pitch ∧ (State.stackParity s ch).err = s.err ∧ (State.stackParity s ch).ckpt = s.ckpt ∧
    (State.stackParity s ch).outputs = s.outputs ∧ (State.stackParity s ch).reject = s.reject ∧ (State.stackParity s
    ch).nacks = s.nacks ∧ (State.stackParity s ch).reissues = s.reissues := by
  simp [State.stackParity]

@[simp] theorem combineLevel_keeps (c m l : Nat) (a1 : Nat) (st : State) (a2 : CollRun) : (combineLevel c m l a1 st
    a2).1.out = st.out ∧ (combineLevel c m l a1 st a2).1.start = st.start ∧ (combineLevel c m l a1 st a2).1.power =
    st.power ∧ (combineLevel c m l a1 st a2).1.recorder = st.recorder ∧ (combineLevel c m l a1 st a2).1.mram = st.mram
    ∧ (combineLevel c m l a1 st a2).1.sec = st.sec ∧ (combineLevel c m l a1 st a2).1.dict = st.dict ∧ (combineLevel c
    m l a1 st a2).1.hp0 = st.hp0 ∧ (combineLevel c m l a1 st a2).1.hp1 = st.hp1 ∧ (combineLevel c m l a1 st a2).1.far0
    = st.far0 ∧ (combineLevel c m l a1 st a2).1.far1 = st.far1 ∧ (combineLevel c m l a1 st a2).1.hbm = st.hbm ∧
    (combineLevel c m l a1 st a2).1.mem = st.mem ∧ (combineLevel c m l a1 st a2).1.harts = st.harts ∧ (combineLevel c
    m l a1 st a2).1.stations = st.stations ∧ (combineLevel c m l a1 st a2).1.links = st.links ∧ (combineLevel c m l a1
    st a2).1.fab = st.fab ∧ (combineLevel c m l a1 st a2).1.canopy = st.canopy ∧ (combineLevel c m l a1 st a2).1.rp =
    st.rp ∧ (combineLevel c m l a1 st a2).1.guy = st.guy ∧ (combineLevel c m l a1 st a2).1.tt = st.tt ∧ (combineLevel
    c m l a1 st a2).1.job = st.job ∧ (combineLevel c m l a1 st a2).1.pitch = st.pitch ∧ (combineLevel c m l a1 st
    a2).1.err = st.err ∧ (combineLevel c m l a1 st a2).1.ckpt = st.ckpt ∧ (combineLevel c m l a1 st a2).1.outputs =
    st.outputs ∧ (combineLevel c m l a1 st a2).1.reject = st.reject ∧ (combineLevel c m l a1 st a2).1.nacks = st.nacks
    ∧ (combineLevel c m l a1 st a2).1.reissues = st.reissues := by
  induction a1 generalizing st a2 with
  | zero => simp [combineLevel]
  | succ n ih => simp only [combineLevel]; (repeat' split) <;> simp [ih, ]

@[simp] theorem combineAll_keeps (c : Nat) (a1 : List (Nat × Nat)) (st : State) (a2 : CollRun) : (combineAll c a1 st
    a2).1.out = st.out ∧ (combineAll c a1 st a2).1.start = st.start ∧ (combineAll c a1 st a2).1.power = st.power ∧
    (combineAll c a1 st a2).1.recorder = st.recorder ∧ (combineAll c a1 st a2).1.mram = st.mram ∧ (combineAll c a1 st
    a2).1.sec = st.sec ∧ (combineAll c a1 st a2).1.dict = st.dict ∧ (combineAll c a1 st a2).1.hp0 = st.hp0 ∧
    (combineAll c a1 st a2).1.hp1 = st.hp1 ∧ (combineAll c a1 st a2).1.far0 = st.far0 ∧ (combineAll c a1 st a2).1.far1
    = st.far1 ∧ (combineAll c a1 st a2).1.hbm = st.hbm ∧ (combineAll c a1 st a2).1.mem = st.mem ∧ (combineAll c
    a1 st a2).1.harts = st.harts ∧ (combineAll c a1 st a2).1.stations = st.stations ∧ (combineAll c a1 st a2).1.links
    = st.links ∧ (combineAll c a1 st a2).1.fab = st.fab ∧ (combineAll c a1 st a2).1.canopy = st.canopy ∧ (combineAll c
    a1 st a2).1.rp = st.rp ∧ (combineAll c a1 st a2).1.guy = st.guy ∧ (combineAll c a1 st a2).1.tt = st.tt ∧
    (combineAll c a1 st a2).1.job = st.job ∧ (combineAll c a1 st a2).1.pitch = st.pitch ∧ (combineAll c a1 st
    a2).1.err = st.err ∧ (combineAll c a1 st a2).1.ckpt = st.ckpt ∧ (combineAll c a1 st a2).1.outputs = st.outputs ∧
    (combineAll c a1 st a2).1.reject = st.reject ∧ (combineAll c a1 st a2).1.nacks = st.nacks ∧ (combineAll c a1 st
    a2).1.reissues = st.reissues := by
  induction a1 generalizing st a2 with
  | nil => simp [combineAll]
  | cons x xs ih => simp only [combineAll]; (repeat' split) <;> simp [ih, ]

@[simp] theorem collSend_keeps (a1 : Nat) (st : State) (a2 : CollRun) : (collSend a1 st a2).1.out = st.out ∧ (collSend
    a1 st a2).1.start = st.start ∧ (collSend a1 st a2).1.power = st.power ∧ (collSend a1 st a2).1.mram = st.mram ∧
    (collSend a1 st a2).1.sec = st.sec ∧ (collSend a1 st a2).1.dict = st.dict ∧ (collSend a1 st a2).1.hp0 = st.hp0 ∧
    (collSend a1 st a2).1.hp1 = st.hp1 ∧ (collSend a1 st a2).1.far0 = st.far0 ∧ (collSend a1 st a2).1.far1 = st.far1 ∧
    (collSend a1 st a2).1.hbm = st.hbm ∧ (collSend a1 st a2).1.mem = st.mem ∧ (collSend a1 st a2).1.cores =
    st.cores ∧ (collSend a1 st a2).1.harts = st.harts ∧ (collSend a1 st a2).1.stations = st.stations ∧ (collSend a1 st
    a2).1.links = st.links ∧ (collSend a1 st a2).1.coll = st.coll ∧ (collSend a1 st a2).1.canopy = st.canopy ∧
    (collSend a1 st a2).1.rp = st.rp ∧ (collSend a1 st a2).1.guy = st.guy ∧ (collSend a1 st a2).1.tt = st.tt ∧
    (collSend a1 st a2).1.job = st.job ∧ (collSend a1 st a2).1.pitch = st.pitch ∧ (collSend a1 st a2).1.err = st.err ∧
    (collSend a1 st a2).1.ckpt = st.ckpt ∧ (collSend a1 st a2).1.outputs = st.outputs ∧ (collSend a1 st a2).1.reject =
    st.reject ∧ (collSend a1 st a2).1.nacks = st.nacks ∧ (collSend a1 st a2).1.reissues = st.reissues := by
  induction a1 generalizing st a2 with
  | zero => simp [collSend]
  | succ n ih => simp only [collSend]; (repeat' split) <;> simp [ih, ]

@[simp] theorem State.putRun_keeps (s : State) (r : CollRun) : (State.putRun s r).out = s.out ∧ (State.putRun s
    r).start = s.start ∧ (State.putRun s r).power = s.power ∧ (State.putRun s r).recorder = s.recorder ∧ (State.putRun
    s r).mram = s.mram ∧ (State.putRun s r).sec = s.sec ∧ (State.putRun s r).dict = s.dict ∧ (State.putRun s r).hp0 =
    s.hp0 ∧ (State.putRun s r).hp1 = s.hp1 ∧ (State.putRun s r).far0 = s.far0 ∧ (State.putRun s r).far1 = s.far1 ∧
    (State.putRun s r).hbm = s.hbm ∧ (State.putRun s r).mem = s.mem ∧ (State.putRun s r).cores = s.cores ∧
    (State.putRun s r).harts = s.harts ∧ (State.putRun s r).stations = s.stations ∧ (State.putRun s r).links = s.links
    ∧ (State.putRun s r).fab = s.fab ∧ (State.putRun s r).canopy = s.canopy ∧ (State.putRun s r).rp = s.rp ∧
    (State.putRun s r).guy = s.guy ∧ (State.putRun s r).tt = s.tt ∧ (State.putRun s r).job = s.job ∧ (State.putRun s
    r).pitch = s.pitch ∧ (State.putRun s r).err = s.err ∧ (State.putRun s r).ckpt = s.ckpt ∧ (State.putRun s
    r).outputs = s.outputs ∧ (State.putRun s r).reject = s.reject ∧ (State.putRun s r).nacks = s.nacks ∧ (State.putRun
    s r).reissues = s.reissues := by
  simp [State.putRun]

@[simp] theorem State.collAdvance_keeps (s : State) (c : Nat) : (State.collAdvance s c).out = s.out ∧
    (State.collAdvance s c).start = s.start ∧ (State.collAdvance s c).power = s.power ∧ (State.collAdvance s c).mram =
    s.mram ∧ (State.collAdvance s c).sec = s.sec ∧ (State.collAdvance s c).dict = s.dict ∧ (State.collAdvance s c).hp0
    = s.hp0 ∧ (State.collAdvance s c).hp1 = s.hp1 ∧ (State.collAdvance s c).far0 = s.far0 ∧ (State.collAdvance s
    c).far1 = s.far1 ∧ (State.collAdvance s c).hbm = s.hbm ∧ (State.collAdvance s c).mem = s.mem ∧
    (State.collAdvance s c).harts = s.harts ∧ (State.collAdvance s c).stations = s.stations ∧ (State.collAdvance s
    c).links = s.links ∧ (State.collAdvance s c).canopy = s.canopy ∧ (State.collAdvance s c).rp = s.rp ∧
    (State.collAdvance s c).guy = s.guy ∧ (State.collAdvance s c).tt = s.tt ∧ (State.collAdvance s c).job = s.job ∧
    (State.collAdvance s c).pitch = s.pitch ∧ (State.collAdvance s c).err = s.err ∧ (State.collAdvance s c).ckpt =
    s.ckpt ∧ (State.collAdvance s c).outputs = s.outputs ∧ (State.collAdvance s c).reject = s.reject ∧
    (State.collAdvance s c).nacks = s.nacks ∧ (State.collAdvance s c).reissues = s.reissues := by
  unfold State.collAdvance
  dsimp only
  (repeat' split) <;> simp_all

@[simp] theorem State.retarget_keeps (s : State) : (State.retarget s).out = s.out ∧ (State.retarget s).start = s.start
    ∧ (State.retarget s).recorder = s.recorder ∧ (State.retarget s).mram = s.mram ∧ (State.retarget s).sec = s.sec ∧
    (State.retarget s).dict = s.dict ∧ (State.retarget s).hp0 = s.hp0 ∧ (State.retarget s).hp1 = s.hp1 ∧
    (State.retarget s).far0 = s.far0 ∧ (State.retarget s).far1 = s.far1 ∧ (State.retarget s).hbm = s.hbm ∧
    (State.retarget s).mem = s.mem ∧ (State.retarget s).cores = s.cores ∧ (State.retarget s).harts = s.harts ∧
    (State.retarget s).stations = s.stations ∧ (State.retarget s).links = s.links ∧ (State.retarget s).coll = s.coll ∧
    (State.retarget s).fab = s.fab ∧ (State.retarget s).canopy = s.canopy ∧ (State.retarget s).rp = s.rp ∧
    (State.retarget s).guy = s.guy ∧ (State.retarget s).tt = s.tt ∧ (State.retarget s).job = s.job ∧ (State.retarget
    s).pitch = s.pitch ∧ (State.retarget s).err = s.err ∧ (State.retarget s).ckpt = s.ckpt ∧ (State.retarget
    s).outputs = s.outputs ∧ (State.retarget s).reject = s.reject ∧ (State.retarget s).nacks = s.nacks ∧
    (State.retarget s).reissues = s.reissues := by
  simp [State.retarget]

@[simp] theorem State.sendGuy_keeps (s : State) (ty opp : Nat) (input : Bool) (dst : Nat) (e : Epoch) (payload : List
    Byte) : (State.sendGuy s ty opp input dst e payload).out = s.out ∧ (State.sendGuy s ty opp input dst e
    payload).start = s.start ∧ (State.sendGuy s ty opp input dst e payload).power = s.power ∧ (State.sendGuy s ty opp
    input dst e payload).mram = s.mram ∧ (State.sendGuy s ty opp input dst e payload).sec = s.sec ∧ (State.sendGuy s
    ty opp input dst e payload).dict = s.dict ∧ (State.sendGuy s ty opp input dst e payload).hp0 = s.hp0 ∧
    (State.sendGuy s ty opp input dst e payload).hp1 = s.hp1 ∧ (State.sendGuy s ty opp input dst e payload).far0 =
    s.far0 ∧ (State.sendGuy s ty opp input dst e payload).far1 = s.far1 ∧ (State.sendGuy s ty opp input dst e
    payload).hbm = s.hbm ∧ (State.sendGuy s ty opp input dst e payload).mem = s.mem ∧ (State.sendGuy s ty opp
    input dst e payload).cores = s.cores ∧ (State.sendGuy s ty opp input dst e payload).harts = s.harts ∧
    (State.sendGuy s ty opp input dst e payload).stations = s.stations ∧ (State.sendGuy s ty opp input dst e
    payload).links = s.links ∧ (State.sendGuy s ty opp input dst e payload).coll = s.coll ∧ (State.sendGuy s ty opp
    input dst e payload).canopy = s.canopy ∧ (State.sendGuy s ty opp input dst e payload).rp = s.rp ∧ (State.sendGuy s
    ty opp input dst e payload).guy = s.guy ∧ (State.sendGuy s ty opp input dst e payload).tt = s.tt ∧ (State.sendGuy
    s ty opp input dst e payload).job = s.job ∧ (State.sendGuy s ty opp input dst e payload).pitch = s.pitch ∧
    (State.sendGuy s ty opp input dst e payload).err = s.err ∧ (State.sendGuy s ty opp input dst e payload).ckpt =
    s.ckpt ∧ (State.sendGuy s ty opp input dst e payload).outputs = s.outputs ∧ (State.sendGuy s ty opp input dst e
    payload).reject = s.reject ∧ (State.sendGuy s ty opp input dst e payload).nacks = s.nacks ∧ (State.sendGuy s ty
    opp input dst e payload).reissues = s.reissues := by
  simp [State.sendGuy]

@[simp] theorem State.holdRelease_keeps (s : State) (step attempt t opp : Nat) : (State.holdRelease s step attempt t
    opp).out = s.out ∧ (State.holdRelease s step attempt t opp).start = s.start ∧ (State.holdRelease s step attempt t
    opp).power = s.power ∧ (State.holdRelease s step attempt t opp).mram = s.mram ∧ (State.holdRelease s step attempt
    t opp).sec = s.sec ∧ (State.holdRelease s step attempt t opp).dict = s.dict ∧ (State.holdRelease s step attempt t
    opp).hp0 = s.hp0 ∧ (State.holdRelease s step attempt t opp).hp1 = s.hp1 ∧ (State.holdRelease s step attempt t
    opp).far0 = s.far0 ∧ (State.holdRelease s step attempt t opp).far1 = s.far1 ∧ (State.holdRelease s step attempt t
    opp).hbm = s.hbm ∧ (State.holdRelease s step attempt t opp).mem = s.mem ∧ (State.holdRelease s step attempt
    t opp).cores = s.cores ∧ (State.holdRelease s step attempt t opp).harts = s.harts ∧ (State.holdRelease s step
    attempt t opp).stations = s.stations ∧ (State.holdRelease s step attempt t opp).links = s.links ∧
    (State.holdRelease s step attempt t opp).coll = s.coll ∧ (State.holdRelease s step attempt t opp).canopy =
    s.canopy ∧ (State.holdRelease s step attempt t opp).rp = s.rp ∧ (State.holdRelease s step attempt t opp).tt = s.tt
    ∧ (State.holdRelease s step attempt t opp).job = s.job ∧ (State.holdRelease s step attempt t opp).pitch = s.pitch
    ∧ (State.holdRelease s step attempt t opp).err = s.err ∧ (State.holdRelease s step attempt t opp).ckpt = s.ckpt ∧
    (State.holdRelease s step attempt t opp).outputs = s.outputs ∧ (State.holdRelease s step attempt t opp).reject =
    s.reject ∧ (State.holdRelease s step attempt t opp).nacks = s.nacks ∧ (State.holdRelease s step attempt t
    opp).reissues = s.reissues := by
  unfold State.holdRelease
  try dsimp only
  (repeat' split) <;> simp []

@[simp] theorem State.plainRelease_keeps (s : State) (step : Nat) : (State.plainRelease s step).out = s.out ∧
    (State.plainRelease s step).start = s.start ∧ (State.plainRelease s step).power = s.power ∧ (State.plainRelease s
    step).mram = s.mram ∧ (State.plainRelease s step).sec = s.sec ∧ (State.plainRelease s step).dict = s.dict ∧
    (State.plainRelease s step).hp0 = s.hp0 ∧ (State.plainRelease s step).hp1 = s.hp1 ∧ (State.plainRelease s
    step).far0 = s.far0 ∧ (State.plainRelease s step).far1 = s.far1 ∧ (State.plainRelease s step).hbm = s.hbm ∧
    (State.plainRelease s step).mem = s.mem ∧ (State.plainRelease s step).cores = s.cores ∧ (State.plainRelease s
    step).harts = s.harts ∧ (State.plainRelease s step).stations = s.stations ∧ (State.plainRelease s step).links =
    s.links ∧ (State.plainRelease s step).coll = s.coll ∧ (State.plainRelease s step).canopy = s.canopy ∧
    (State.plainRelease s step).rp = s.rp ∧ (State.plainRelease s step).tt = s.tt ∧ (State.plainRelease s step).job =
    s.job ∧ (State.plainRelease s step).pitch = s.pitch ∧ (State.plainRelease s step).err = s.err ∧
    (State.plainRelease s step).ckpt = s.ckpt ∧ (State.plainRelease s step).outputs = s.outputs ∧ (State.plainRelease
    s step).reject = s.reject ∧ (State.plainRelease s step).nacks = s.nacks ∧ (State.plainRelease s step).reissues =
    s.reissues := by
  simp [State.plainRelease]

@[simp] theorem State.dropRecords_keeps (s : State) : (State.dropRecords s).out = s.out ∧ (State.dropRecords s).start
    = s.start ∧ (State.dropRecords s).power = s.power ∧ (State.dropRecords s).recorder = s.recorder ∧
    (State.dropRecords s).mram = s.mram ∧ (State.dropRecords s).sec = s.sec ∧ (State.dropRecords s).dict = s.dict ∧
    (State.dropRecords s).hp0 = s.hp0 ∧ (State.dropRecords s).hp1 = s.hp1 ∧ (State.dropRecords s).far0 = s.far0 ∧
    (State.dropRecords s).far1 = s.far1 ∧ (State.dropRecords s).hbm = s.hbm ∧ (State.dropRecords s).cores =
    s.cores ∧ (State.dropRecords s).harts = s.harts ∧ (State.dropRecords s).stations = s.stations ∧ (State.dropRecords
    s).links = s.links ∧ (State.dropRecords s).coll = s.coll ∧ (State.dropRecords s).fab = s.fab ∧ (State.dropRecords
    s).canopy = s.canopy ∧ (State.dropRecords s).rp = s.rp ∧ (State.dropRecords s).guy = s.guy ∧ (State.dropRecords
    s).tt = s.tt ∧ (State.dropRecords s).job = s.job ∧ (State.dropRecords s).pitch = s.pitch ∧ (State.dropRecords
    s).err = s.err ∧ (State.dropRecords s).outputs = s.outputs ∧ (State.dropRecords s).reject = s.reject ∧
    (State.dropRecords s).nacks = s.nacks ∧ (State.dropRecords s).reissues = s.reissues := by
  simp [State.dropRecords]

@[simp] theorem State.maybeReady_keeps (s : State) : (State.maybeReady s).out = s.out ∧ (State.maybeReady s).start =
    s.start ∧ (State.maybeReady s).power = s.power ∧ (State.maybeReady s).mram = s.mram ∧ (State.maybeReady s).sec =
    s.sec ∧ (State.maybeReady s).dict = s.dict ∧ (State.maybeReady s).hp0 = s.hp0 ∧ (State.maybeReady s).hp1 = s.hp1 ∧
    (State.maybeReady s).far0 = s.far0 ∧ (State.maybeReady s).far1 = s.far1 ∧ (State.maybeReady s).hbm = s.hbm ∧
    (State.maybeReady s).cores = s.cores ∧ (State.maybeReady s).harts = s.harts ∧ (State.maybeReady s).stations =
    s.stations ∧ (State.maybeReady s).links = s.links ∧ (State.maybeReady s).coll = s.coll ∧ (State.maybeReady
    s).canopy = s.canopy ∧ (State.maybeReady s).rp = s.rp ∧ (State.maybeReady s).tt = s.tt ∧ (State.maybeReady s).job
    = s.job ∧ (State.maybeReady s).err = s.err ∧ (State.maybeReady s).outputs = s.outputs ∧ (State.maybeReady
    s).reject = s.reject ∧ (State.maybeReady s).nacks = s.nacks ∧ (State.maybeReady s).reissues = s.reissues := by
  simp [State.maybeReady]

@[simp] theorem State.alignDone_keeps (s : State) : (State.alignDone s).out = s.out ∧ (State.alignDone s).start =
    s.start ∧ (State.alignDone s).power = s.power ∧ (State.alignDone s).mram = s.mram ∧ (State.alignDone s).sec =
    s.sec ∧ (State.alignDone s).dict = s.dict ∧ (State.alignDone s).hp0 = s.hp0 ∧ (State.alignDone s).hp1 = s.hp1 ∧
    (State.alignDone s).far0 = s.far0 ∧ (State.alignDone s).far1 = s.far1 ∧ (State.alignDone s).hbm = s.hbm ∧
    (State.alignDone s).cores = s.cores ∧ (State.alignDone s).harts = s.harts ∧ (State.alignDone s).stations =
    s.stations ∧ (State.alignDone s).links = s.links ∧ (State.alignDone s).coll = s.coll ∧ (State.alignDone s).canopy
    = s.canopy ∧ (State.alignDone s).tt = s.tt ∧ (State.alignDone s).job = s.job ∧ (State.alignDone s).err = s.err ∧
    (State.alignDone s).outputs = s.outputs ∧ (State.alignDone s).reject = s.reject ∧ (State.alignDone s).nacks =
    s.nacks ∧ (State.alignDone s).reissues = s.reissues := by
  unfold State.alignDone
  try dsimp only
  (repeat' split) <;> simp []

@[simp] theorem State.maybeLoaded_keeps (s : State) : (State.maybeLoaded s).out = s.out ∧ (State.maybeLoaded s).start
    = s.start ∧ (State.maybeLoaded s).mram = s.mram ∧ (State.maybeLoaded s).sec = s.sec ∧ (State.maybeLoaded s).dict =
    s.dict ∧ (State.maybeLoaded s).hp0 = s.hp0 ∧ (State.maybeLoaded s).hp1 = s.hp1 ∧ (State.maybeLoaded s).far0 =
    s.far0 ∧ (State.maybeLoaded s).far1 = s.far1 ∧ (State.maybeLoaded s).hbm = s.hbm ∧ (State.maybeLoaded
    s).cores = s.cores ∧ (State.maybeLoaded s).harts = s.harts ∧ (State.maybeLoaded s).stations = s.stations ∧
    (State.maybeLoaded s).links = s.links ∧ (State.maybeLoaded s).coll = s.coll ∧ (State.maybeLoaded s).canopy =
    s.canopy ∧ (State.maybeLoaded s).tt = s.tt ∧ (State.maybeLoaded s).job = s.job ∧ (State.maybeLoaded s).err = s.err
    ∧ (State.maybeLoaded s).outputs = s.outputs ∧ (State.maybeLoaded s).reject = s.reject ∧ (State.maybeLoaded
    s).nacks = s.nacks ∧ (State.maybeLoaded s).reissues = s.reissues := by
  simp [State.maybeLoaded]

@[simp] theorem State.measure_keeps (s : State) (u : RpUse) : (State.measure s u).out = s.out ∧ (State.measure s
    u).start = s.start ∧ (State.measure s u).power = s.power ∧ (State.measure s u).recorder = s.recorder ∧
    (State.measure s u).mram = s.mram ∧ (State.measure s u).sec = s.sec ∧ (State.measure s u).dict = s.dict ∧
    (State.measure s u).hp0 = s.hp0 ∧ (State.measure s u).hp1 = s.hp1 ∧ (State.measure s u).far0 = s.far0 ∧
    (State.measure s u).far1 = s.far1 ∧ (State.measure s u).hbm = s.hbm ∧ (State.measure s u).mem = s.mem ∧
    (State.measure s u).cores = s.cores ∧ (State.measure s u).harts = s.harts ∧ (State.measure s u).stations =
    s.stations ∧ (State.measure s u).links = s.links ∧ (State.measure s u).coll = s.coll ∧ (State.measure s u).fab =
    s.fab ∧ (State.measure s u).canopy = s.canopy ∧ (State.measure s u).guy = s.guy ∧ (State.measure s u).tt = s.tt ∧
    (State.measure s u).job = s.job ∧ (State.measure s u).pitch = s.pitch ∧ (State.measure s u).err = s.err ∧
    (State.measure s u).ckpt = s.ckpt ∧ (State.measure s u).outputs = s.outputs ∧ (State.measure s u).reject =
    s.reject ∧ (State.measure s u).nacks = s.nacks ∧ (State.measure s u).reissues = s.reissues := by
  simp [State.measure]

@[simp] theorem State.storeAgent_keeps (s : State) (a : Nat) (bs : List Byte) : (State.storeAgent s a bs).out = s.out
    ∧ (State.storeAgent s a bs).start = s.start ∧ (State.storeAgent s a bs).power = s.power ∧ (State.storeAgent s a
    bs).recorder = s.recorder ∧ (State.storeAgent s a bs).mram = s.mram ∧ (State.storeAgent s a bs).sec = s.sec ∧
    (State.storeAgent s a bs).dict = s.dict ∧ (State.storeAgent s a bs).hp0 = s.hp0 ∧ (State.storeAgent s a bs).hp1 =
    s.hp1 ∧ (State.storeAgent s a bs).far0 = s.far0 ∧ (State.storeAgent s a bs).far1 = s.far1 ∧ (State.storeAgent s a
    bs).hbm = s.hbm ∧ (State.storeAgent s a bs).cores = s.cores ∧ (State.storeAgent s a bs).stations =
    s.stations ∧ (State.storeAgent s a bs).links = s.links ∧ (State.storeAgent s a bs).coll = s.coll ∧
    (State.storeAgent s a bs).fab = s.fab ∧ (State.storeAgent s a bs).canopy = s.canopy ∧ (State.storeAgent s a bs).rp
    = s.rp ∧ (State.storeAgent s a bs).guy = s.guy ∧ (State.storeAgent s a bs).tt = s.tt ∧ (State.storeAgent s a
    bs).job = s.job ∧ (State.storeAgent s a bs).pitch = s.pitch ∧ (State.storeAgent s a bs).err = s.err ∧
    (State.storeAgent s a bs).ckpt = s.ckpt ∧ (State.storeAgent s a bs).outputs = s.outputs ∧ (State.storeAgent s a
    bs).reject = s.reject ∧ (State.storeAgent s a bs).nacks = s.nacks ∧ (State.storeAgent s a bs).reissues =
    s.reissues := by
  simp [State.storeAgent]

@[simp] theorem putState_keeps (copy : Nat) (a1 : List Placed) (a2 : List Byte) (st : State) : (putState copy a1 a2
    st).out = st.out ∧ (putState copy a1 a2 st).start = st.start ∧ (putState copy a1 a2 st).power = st.power ∧
    (putState copy a1 a2 st).recorder = st.recorder ∧ (putState copy a1 a2 st).mram = st.mram ∧ (putState copy a1 a2
    st).sec = st.sec ∧ (putState copy a1 a2 st).dict = st.dict ∧ (putState copy a1 a2 st).hp0 = st.hp0 ∧ (putState
    copy a1 a2 st).hp1 = st.hp1 ∧ (putState copy a1 a2 st).far0 = st.far0 ∧ (putState copy a1 a2 st).far1 = st.far1 ∧
    (putState copy a1 a2 st).hbm = st.hbm ∧ (putState copy a1 a2 st).cores = st.cores ∧ (putState copy a1 a2
    st).stations = st.stations ∧ (putState copy a1 a2 st).links = st.links ∧ (putState copy a1 a2 st).coll = st.coll ∧
    (putState copy a1 a2 st).fab = st.fab ∧ (putState copy a1 a2 st).canopy = st.canopy ∧ (putState copy a1 a2 st).rp
    = st.rp ∧ (putState copy a1 a2 st).guy = st.guy ∧ (putState copy a1 a2 st).tt = st.tt ∧ (putState copy a1 a2
    st).job = st.job ∧ (putState copy a1 a2 st).pitch = st.pitch ∧ (putState copy a1 a2 st).err = st.err ∧ (putState
    copy a1 a2 st).ckpt = st.ckpt ∧ (putState copy a1 a2 st).outputs = st.outputs ∧ (putState copy a1 a2 st).reject =
    st.reject ∧ (putState copy a1 a2 st).nacks = st.nacks ∧ (putState copy a1 a2 st).reissues = st.reissues := by
  induction a1 generalizing a2 st with
  | nil => simp [putState]
  | cons x xs ih => simp only [putState]; (repeat' split) <;> simp [ih, ]

@[simp] theorem State.copyState_keeps (s : State) (src dst : Nat) : (State.copyState s src dst).out = s.out ∧
    (State.copyState s src dst).start = s.start ∧ (State.copyState s src dst).power = s.power ∧ (State.copyState s src
    dst).recorder = s.recorder ∧ (State.copyState s src dst).mram = s.mram ∧ (State.copyState s src dst).sec = s.sec ∧
    (State.copyState s src dst).dict = s.dict ∧ (State.copyState s src dst).hp0 = s.hp0 ∧ (State.copyState s src
    dst).hp1 = s.hp1 ∧ (State.copyState s src dst).far0 = s.far0 ∧ (State.copyState s src dst).far1 = s.far1 ∧
    (State.copyState s src dst).cores = s.cores ∧ (State.copyState s src dst).harts = s.harts ∧ (State.copyState s src
    dst).stations = s.stations ∧ (State.copyState s src dst).links = s.links ∧ (State.copyState s src dst).coll =
    s.coll ∧ (State.copyState s src dst).fab = s.fab ∧ (State.copyState s src dst).canopy = s.canopy ∧
    (State.copyState s src dst).rp = s.rp ∧ (State.copyState s src dst).guy = s.guy ∧ (State.copyState s src dst).tt =
    s.tt ∧ (State.copyState s src dst).job = s.job ∧ (State.copyState s src dst).pitch = s.pitch ∧ (State.copyState s
    src dst).err = s.err ∧ (State.copyState s src dst).ckpt = s.ckpt ∧ (State.copyState s src dst).outputs = s.outputs
    ∧ (State.copyState s src dst).reject = s.reject ∧ (State.copyState s src dst).nacks = s.nacks ∧ (State.copyState s
    src dst).reissues = s.reissues := by
  unfold State.copyState
  try dsimp only
  (repeat' split) <;> simp []

@[simp] theorem State.restored_keeps (s : State) (slot : Option Nat) : (State.restored s slot).out = s.out ∧
    (State.restored s slot).start = s.start ∧ (State.restored s slot).mram = s.mram ∧ (State.restored s slot).sec =
    s.sec ∧ (State.restored s slot).dict = s.dict ∧ (State.restored s slot).hp0 = s.hp0 ∧ (State.restored s slot).hp1
    = s.hp1 ∧ (State.restored s slot).far0 = s.far0 ∧ (State.restored s slot).far1 = s.far1 ∧ (State.restored s
    slot).hbm = s.hbm ∧ (State.restored s slot).cores = s.cores ∧ (State.restored s slot).harts = s.harts ∧
    (State.restored s slot).stations = s.stations ∧ (State.restored s slot).links = s.links ∧ (State.restored s
    slot).coll = s.coll ∧ (State.restored s slot).canopy = s.canopy ∧ (State.restored s slot).tt = s.tt ∧
    (State.restored s slot).job = s.job ∧ (State.restored s slot).err = s.err ∧ (State.restored s slot).outputs =
    s.outputs ∧ (State.restored s slot).reject = s.reject ∧ (State.restored s slot).nacks = s.nacks ∧ (State.restored
    s slot).reissues = s.reissues := by
  simp [State.restored]

@[simp] theorem State.restoreStage_keeps (s : State) : (State.restoreStage s).out = s.out ∧ (State.restoreStage
    s).start = s.start ∧ (State.restoreStage s).mram = s.mram ∧ (State.restoreStage s).sec = s.sec ∧
    (State.restoreStage s).dict = s.dict ∧ (State.restoreStage s).hp0 = s.hp0 ∧ (State.restoreStage s).hp1 = s.hp1 ∧
    (State.restoreStage s).far0 = s.far0 ∧ (State.restoreStage s).far1 = s.far1 ∧ (State.restoreStage s).hbm =
    s.hbm ∧ (State.restoreStage s).canopy = s.canopy ∧ (State.restoreStage s).outputs = s.outputs ∧
    (State.restoreStage s).reject = s.reject := by
  unfold State.restoreStage
  dsimp only
  (repeat' split) <;> simp_all

@[simp] theorem State.closeRestore_keeps (s : State) (rec_ : List Byte) (holder : Nat) : (State.closeRestore s rec_
    holder).out = s.out ∧ (State.closeRestore s rec_ holder).start = s.start ∧ (State.closeRestore s rec_ holder).mram
    = s.mram ∧ (State.closeRestore s rec_ holder).sec = s.sec ∧ (State.closeRestore s rec_ holder).dict = s.dict ∧
    (State.closeRestore s rec_ holder).hp0 = s.hp0 ∧ (State.closeRestore s rec_ holder).hp1 = s.hp1 ∧
    (State.closeRestore s rec_ holder).far0 = s.far0 ∧ (State.closeRestore s rec_ holder).far1 = s.far1 ∧
    (State.closeRestore s rec_ holder).hbm = s.hbm ∧ (State.closeRestore s rec_ holder).canopy = s.canopy ∧
    (State.closeRestore s rec_ holder).outputs = s.outputs ∧ (State.closeRestore s rec_ holder).reject = s.reject :=
    by
  simp [State.closeRestore]

@[simp] theorem State.drainTick_keeps (s : State) : (State.drainTick s).out = s.out ∧ (State.drainTick s).start =
    s.start ∧ (State.drainTick s).mram = s.mram ∧ (State.drainTick s).sec = s.sec ∧ (State.drainTick s).dict = s.dict
    ∧ (State.drainTick s).hp0 = s.hp0 ∧ (State.drainTick s).hp1 = s.hp1 ∧ (State.drainTick s).far0 = s.far0 ∧
    (State.drainTick s).far1 = s.far1 ∧ (State.drainTick s).cores = s.cores ∧ (State.drainTick s).harts = s.harts ∧
    (State.drainTick s).stations = s.stations ∧ (State.drainTick s).links = s.links ∧ (State.drainTick s).coll =
    s.coll ∧ (State.drainTick s).canopy = s.canopy ∧ (State.drainTick s).tt = s.tt ∧ (State.drainTick s).job = s.job ∧
    (State.drainTick s).err = s.err ∧ (State.drainTick s).outputs = s.outputs ∧ (State.drainTick s).reject = s.reject
    ∧ (State.drainTick s).nacks = s.nacks ∧ (State.drainTick s).reissues = s.reissues := by
  unfold State.drainTick
  (repeat' split) <;> simp

@[simp] theorem State.giveTick_keeps (s : State) : (State.giveTick s).out = s.out ∧ (State.giveTick s).start = s.start
    ∧ (State.giveTick s).power = s.power ∧ (State.giveTick s).mram = s.mram ∧ (State.giveTick s).sec = s.sec ∧
    (State.giveTick s).dict = s.dict ∧ (State.giveTick s).hp0 = s.hp0 ∧ (State.giveTick s).hp1 = s.hp1 ∧
    (State.giveTick s).far0 = s.far0 ∧ (State.giveTick s).far1 = s.far1 ∧ (State.giveTick s).mem = s.mem ∧
    (State.giveTick s).cores = s.cores ∧ (State.giveTick s).harts = s.harts ∧ (State.giveTick s).stations = s.stations
    ∧ (State.giveTick s).links = s.links ∧ (State.giveTick s).coll = s.coll ∧ (State.giveTick s).canopy = s.canopy ∧
    (State.giveTick s).rp = s.rp ∧ (State.giveTick s).guy = s.guy ∧ (State.giveTick s).tt = s.tt ∧ (State.giveTick
    s).job = s.job ∧ (State.giveTick s).pitch = s.pitch ∧ (State.giveTick s).err = s.err ∧ (State.giveTick s).outputs
    = s.outputs ∧ (State.giveTick s).reject = s.reject ∧ (State.giveTick s).nacks = s.nacks ∧ (State.giveTick
    s).reissues = s.reissues := by
  unfold State.giveTick
  (repeat' split) <;> simp

end Sys2Proof.Machine
end

