-- ==== Sys2Proof/Laws/KeepsDeliver.lean ====
section
/-!
SUPPORT. What each operation leaves unchanged: deliveries, dictionary reads, start-up and sequencers.
-/

set_option Elab.async false
namespace Sys2Proof.Machine

open Sys2Proof Rv

@[simp] theorem State.land_keeps (s : State) (c addr : Nat) (bs : List Byte) (flag cnt : Option Nat) : (State.land s c
    addr bs flag cnt).power = s.power ∧ (State.land s c addr bs flag cnt).mram = s.mram ∧ (State.land s c addr bs flag
    cnt).sec = s.sec ∧ (State.land s c addr bs flag cnt).dict = s.dict ∧ (State.land s c addr bs flag cnt).hp0 = s.hp0
    ∧ (State.land s c addr bs flag cnt).hp1 = s.hp1 ∧ (State.land s c addr bs flag cnt).far0 = s.far0 ∧ (State.land s
    c addr bs flag cnt).far1 = s.far1 ∧ (State.land s c addr bs flag cnt).hbm = s.hbm ∧ (State.land s c addr bs
    flag cnt).mem = s.mem ∧ (State.land s c addr bs flag cnt).canopy = s.canopy ∧ (State.land s c addr bs flag
    cnt).outputs = s.outputs ∧ (State.land s c addr bs flag cnt).reject = s.reject := by
  simp [State.land]

@[simp] theorem State.countVerdict_keeps (s : State) (c : Nat) (v : Verdict) : (State.countVerdict s c v).out = s.out
    ∧ (State.countVerdict s c v).start = s.start ∧ (State.countVerdict s c v).power = s.power ∧ (State.countVerdict s
    c v).recorder = s.recorder ∧ (State.countVerdict s c v).mram = s.mram ∧ (State.countVerdict s c v).sec = s.sec ∧
    (State.countVerdict s c v).dict = s.dict ∧ (State.countVerdict s c v).hp0 = s.hp0 ∧ (State.countVerdict s c v).hp1
    = s.hp1 ∧ (State.countVerdict s c v).far0 = s.far0 ∧ (State.countVerdict s c v).far1 = s.far1 ∧
    (State.countVerdict s c v).hbm = s.hbm ∧ (State.countVerdict s c v).mem = s.mem ∧ (State.countVerdict s c
    v).harts = s.harts ∧ (State.countVerdict s c v).stations = s.stations ∧ (State.countVerdict s c v).links = s.links
    ∧ (State.countVerdict s c v).coll = s.coll ∧ (State.countVerdict s c v).fab = s.fab ∧ (State.countVerdict s c
    v).canopy = s.canopy ∧ (State.countVerdict s c v).rp = s.rp ∧ (State.countVerdict s c v).guy = s.guy ∧
    (State.countVerdict s c v).tt = s.tt ∧ (State.countVerdict s c v).job = s.job ∧ (State.countVerdict s c v).pitch =
    s.pitch ∧ (State.countVerdict s c v).err = s.err ∧ (State.countVerdict s c v).ckpt = s.ckpt ∧ (State.countVerdict
    s c v).outputs = s.outputs ∧ (State.countVerdict s c v).reject = s.reject ∧ (State.countVerdict s c v).nacks =
    s.nacks ∧ (State.countVerdict s c v).reissues = s.reissues := by
  simp [State.countVerdict]

@[simp] theorem State.countDiscard_keeps (s : State) (a1 : EpochCheck) : (State.countDiscard s a1).out = s.out ∧
    (State.countDiscard s a1).start = s.start ∧ (State.countDiscard s a1).power = s.power ∧ (State.countDiscard s
    a1).recorder = s.recorder ∧ (State.countDiscard s a1).mram = s.mram ∧ (State.countDiscard s a1).sec = s.sec ∧
    (State.countDiscard s a1).dict = s.dict ∧ (State.countDiscard s a1).hp0 = s.hp0 ∧ (State.countDiscard s a1).hp1 =
    s.hp1 ∧ (State.countDiscard s a1).far0 = s.far0 ∧ (State.countDiscard s a1).far1 = s.far1 ∧ (State.countDiscard s
    a1).hbm = s.hbm ∧ (State.countDiscard s a1).mem = s.mem ∧ (State.countDiscard s a1).cores = s.cores ∧
    (State.countDiscard s a1).harts = s.harts ∧ (State.countDiscard s a1).stations = s.stations ∧ (State.countDiscard
    s a1).links = s.links ∧ (State.countDiscard s a1).coll = s.coll ∧ (State.countDiscard s a1).fab = s.fab ∧
    (State.countDiscard s a1).canopy = s.canopy ∧ (State.countDiscard s a1).rp = s.rp ∧ (State.countDiscard s a1).guy
    = s.guy ∧ (State.countDiscard s a1).tt = s.tt ∧ (State.countDiscard s a1).job = s.job ∧ (State.countDiscard s
    a1).pitch = s.pitch ∧ (State.countDiscard s a1).ckpt = s.ckpt ∧ (State.countDiscard s a1).outputs = s.outputs ∧
    (State.countDiscard s a1).reject = s.reject ∧ (State.countDiscard s a1).nacks = s.nacks ∧ (State.countDiscard s
    a1).reissues = s.reissues := by
  unfold State.countDiscard
  (repeat' split) <;> simp

@[simp] theorem State.transferDone_keeps (s : State) (t : Transfer) (target : Nat) (stale : Bool) :
    (State.transferDone s t target stale).out = s.out ∧ (State.transferDone s t target stale).start = s.start ∧
    (State.transferDone s t target stale).power = s.power ∧ (State.transferDone s t target stale).recorder =
    s.recorder ∧ (State.transferDone s t target stale).mram = s.mram ∧ (State.transferDone s t target stale).sec =
    s.sec ∧ (State.transferDone s t target stale).dict = s.dict ∧ (State.transferDone s t target stale).hp0 = s.hp0 ∧
    (State.transferDone s t target stale).hp1 = s.hp1 ∧ (State.transferDone s t target stale).far0 = s.far0 ∧
    (State.transferDone s t target stale).far1 = s.far1 ∧ (State.transferDone s t target stale).hbm = s.hbm ∧
    (State.transferDone s t target stale).mem = s.mem ∧ (State.transferDone s t target stale).links = s.links ∧
    (State.transferDone s t target stale).coll = s.coll ∧ (State.transferDone s t target stale).fab = s.fab ∧
    (State.transferDone s t target stale).canopy = s.canopy ∧ (State.transferDone s t target stale).rp = s.rp ∧
    (State.transferDone s t target stale).guy = s.guy ∧ (State.transferDone s t target stale).tt = s.tt ∧
    (State.transferDone s t target stale).job = s.job ∧ (State.transferDone s t target stale).pitch = s.pitch ∧
    (State.transferDone s t target stale).err = s.err ∧ (State.transferDone s t target stale).ckpt = s.ckpt ∧
    (State.transferDone s t target stale).outputs = s.outputs ∧ (State.transferDone s t target stale).reject =
    s.reject ∧ (State.transferDone s t target stale).nacks = s.nacks ∧ (State.transferDone s t target stale).reissues
    = s.reissues := by
  unfold State.transferDone
  (repeat' split) <;> simp

@[simp] theorem State.arrive_keeps (s : State) (c : Nat) : (State.arrive s c).power = s.power ∧ (State.arrive s
    c).mram = s.mram ∧ (State.arrive s c).sec = s.sec ∧ (State.arrive s c).dict = s.dict ∧ (State.arrive s c).hp0 =
    s.hp0 ∧ (State.arrive s c).hp1 = s.hp1 ∧ (State.arrive s c).far0 = s.far0 ∧ (State.arrive s c).far1 = s.far1 ∧
    (State.arrive s c).hbm = s.hbm ∧ (State.arrive s c).mem = s.mem ∧ (State.arrive s c).canopy = s.canopy ∧
    (State.arrive s c).outputs = s.outputs ∧ (State.arrive s c).reject = s.reject := by
  unfold State.arrive
  dsimp only
  (repeat' split) <;> simp_all

@[simp] theorem State.ttArrived_keeps (s : State) (k : Packet) : (State.ttArrived s k).out = s.out ∧ (State.ttArrived
    s k).start = s.start ∧ (State.ttArrived s k).power = s.power ∧ (State.ttArrived s k).mram = s.mram ∧
    (State.ttArrived s k).sec = s.sec ∧ (State.ttArrived s k).dict = s.dict ∧ (State.ttArrived s k).hp0 = s.hp0 ∧
    (State.ttArrived s k).hp1 = s.hp1 ∧ (State.ttArrived s k).far0 = s.far0 ∧ (State.ttArrived s k).far1 = s.far1 ∧
    (State.ttArrived s k).hbm = s.hbm ∧ (State.ttArrived s k).mem = s.mem ∧ (State.ttArrived s k).cores =
    s.cores ∧ (State.ttArrived s k).harts = s.harts ∧ (State.ttArrived s k).stations = s.stations ∧ (State.ttArrived s
    k).links = s.links ∧ (State.ttArrived s k).coll = s.coll ∧ (State.ttArrived s k).fab = s.fab ∧ (State.ttArrived s
    k).canopy = s.canopy ∧ (State.ttArrived s k).rp = s.rp ∧ (State.ttArrived s k).guy = s.guy ∧ (State.ttArrived s
    k).job = s.job ∧ (State.ttArrived s k).pitch = s.pitch ∧ (State.ttArrived s k).err = s.err ∧ (State.ttArrived s
    k).ckpt = s.ckpt ∧ (State.ttArrived s k).outputs = s.outputs ∧ (State.ttArrived s k).reject = s.reject ∧
    (State.ttArrived s k).nacks = s.nacks ∧ (State.ttArrived s k).reissues = s.reissues := by
  unfold State.ttArrived
  (repeat' split) <;> simp

@[simp] theorem State.setEarly_keeps (s : State) (k : Packet) (on : Bool) : (State.setEarly s k on).out = s.out ∧
    (State.setEarly s k on).start = s.start ∧ (State.setEarly s k on).power = s.power ∧ (State.setEarly s k
    on).recorder = s.recorder ∧ (State.setEarly s k on).mram = s.mram ∧ (State.setEarly s k on).sec = s.sec ∧
    (State.setEarly s k on).dict = s.dict ∧ (State.setEarly s k on).hp0 = s.hp0 ∧ (State.setEarly s k on).hp1 = s.hp1
    ∧ (State.setEarly s k on).far0 = s.far0 ∧ (State.setEarly s k on).far1 = s.far1 ∧ (State.setEarly s k on).hbm =
    s.hbm ∧ (State.setEarly s k on).mem = s.mem ∧ (State.setEarly s k on).cores = s.cores ∧ (State.setEarly s k
    on).harts = s.harts ∧ (State.setEarly s k on).stations = s.stations ∧ (State.setEarly s k on).links = s.links ∧
    (State.setEarly s k on).coll = s.coll ∧ (State.setEarly s k on).canopy = s.canopy ∧ (State.setEarly s k on).rp =
    s.rp ∧ (State.setEarly s k on).guy = s.guy ∧ (State.setEarly s k on).tt = s.tt ∧ (State.setEarly s k on).job =
    s.job ∧ (State.setEarly s k on).pitch = s.pitch ∧ (State.setEarly s k on).err = s.err ∧ (State.setEarly s k
    on).ckpt = s.ckpt ∧ (State.setEarly s k on).outputs = s.outputs ∧ (State.setEarly s k on).reject = s.reject ∧
    (State.setEarly s k on).nacks = s.nacks ∧ (State.setEarly s k on).reissues = s.reissues := by
  simp [State.setEarly]

@[simp] theorem State.toCore_keeps (s : State) (k : Packet) : (State.toCore s k).power = s.power ∧ (State.toCore s
    k).mram = s.mram ∧ (State.toCore s k).sec = s.sec ∧ (State.toCore s k).dict = s.dict ∧ (State.toCore s k).hp0 =
    s.hp0 ∧ (State.toCore s k).hp1 = s.hp1 ∧ (State.toCore s k).far0 = s.far0 ∧ (State.toCore s k).far1 = s.far1 ∧
    (State.toCore s k).hbm = s.hbm ∧ (State.toCore s k).mem = s.mem ∧ (State.toCore s k).canopy = s.canopy ∧
    (State.toCore s k).outputs = s.outputs ∧ (State.toCore s k).reject = s.reject := by
  unfold State.toCore
  dsimp only
  (repeat' split) <;> simp_all

@[simp] theorem State.refuseCanopy_keeps (s : State) (k : Packet) : (State.refuseCanopy s k).power = s.power ∧
    (State.refuseCanopy s k).mram = s.mram ∧ (State.refuseCanopy s k).sec = s.sec ∧ (State.refuseCanopy s k).dict =
    s.dict ∧ (State.refuseCanopy s k).hp0 = s.hp0 ∧ (State.refuseCanopy s k).hp1 = s.hp1 ∧ (State.refuseCanopy s
    k).far0 = s.far0 ∧ (State.refuseCanopy s k).far1 = s.far1 ∧ (State.refuseCanopy s k).hbm = s.hbm ∧
    (State.refuseCanopy s k).mem = s.mem ∧ (State.refuseCanopy s k).outputs = s.outputs ∧ (State.refuseCanopy s
    k).reject = s.reject := by
  simp [State.refuseCanopy]

@[simp] theorem State.applyLine_keeps (s : State) (k : Packet) : (State.applyLine s k).out = s.out ∧ (State.applyLine
    s k).start = s.start ∧ (State.applyLine s k).power = s.power ∧ (State.applyLine s k).mram = s.mram ∧
    (State.applyLine s k).sec = s.sec ∧ (State.applyLine s k).dict = s.dict ∧ (State.applyLine s k).hp0 = s.hp0 ∧
    (State.applyLine s k).hp1 = s.hp1 ∧ (State.applyLine s k).far0 = s.far0 ∧ (State.applyLine s k).far1 = s.far1 ∧
    (State.applyLine s k).cores = s.cores ∧ (State.applyLine s k).stations = s.stations ∧ (State.applyLine s k).links
    = s.links ∧ (State.applyLine s k).coll = s.coll ∧ (State.applyLine s k).canopy = s.canopy ∧ (State.applyLine s
    k).rp = s.rp ∧ (State.applyLine s k).guy = s.guy ∧ (State.applyLine s k).tt = s.tt ∧ (State.applyLine s k).job =
    s.job ∧ (State.applyLine s k).pitch = s.pitch ∧ (State.applyLine s k).err = s.err ∧ (State.applyLine s k).ckpt =
    s.ckpt ∧ (State.applyLine s k).outputs = s.outputs ∧ (State.applyLine s k).reject = s.reject ∧ (State.applyLine s
    k).nacks = s.nacks ∧ (State.applyLine s k).reissues = s.reissues := by
  simp [State.applyLine]

@[simp] theorem State.readLine_keeps (s : State) (k : Packet) : (State.readLine s k).out = s.out ∧ (State.readLine s
    k).start = s.start ∧ (State.readLine s k).power = s.power ∧ (State.readLine s k).mram = s.mram ∧ (State.readLine s
    k).sec = s.sec ∧ (State.readLine s k).dict = s.dict ∧ (State.readLine s k).hp0 = s.hp0 ∧ (State.readLine s k).hp1
    = s.hp1 ∧ (State.readLine s k).far0 = s.far0 ∧ (State.readLine s k).far1 = s.far1 ∧ (State.readLine s k).mem =
    s.mem ∧ (State.readLine s k).cores = s.cores ∧ (State.readLine s k).harts = s.harts ∧ (State.readLine s
    k).stations = s.stations ∧ (State.readLine s k).links = s.links ∧ (State.readLine s k).coll = s.coll ∧
    (State.readLine s k).canopy = s.canopy ∧ (State.readLine s k).rp = s.rp ∧ (State.readLine s k).guy = s.guy ∧
    (State.readLine s k).tt = s.tt ∧ (State.readLine s k).job = s.job ∧ (State.readLine s k).pitch = s.pitch ∧
    (State.readLine s k).err = s.err ∧ (State.readLine s k).ckpt = s.ckpt ∧ (State.readLine s k).outputs = s.outputs ∧
    (State.readLine s k).reject = s.reject ∧ (State.readLine s k).nacks = s.nacks ∧ (State.readLine s k).reissues =
    s.reissues := by
  simp [State.readLine]

@[simp] theorem State.lineWait_keeps (s : State) (k : Packet) : (State.lineWait s k).out = s.out ∧ (State.lineWait s
    k).start = s.start ∧ (State.lineWait s k).power = s.power ∧ (State.lineWait s k).mram = s.mram ∧ (State.lineWait s
    k).sec = s.sec ∧ (State.lineWait s k).dict = s.dict ∧ (State.lineWait s k).hp0 = s.hp0 ∧ (State.lineWait s k).hp1
    = s.hp1 ∧ (State.lineWait s k).far0 = s.far0 ∧ (State.lineWait s k).far1 = s.far1 ∧ (State.lineWait s k).hbm =
    s.hbm ∧ (State.lineWait s k).mem = s.mem ∧ (State.lineWait s k).cores = s.cores ∧ (State.lineWait s k).harts =
    s.harts ∧ (State.lineWait s k).stations = s.stations ∧ (State.lineWait s k).links = s.links ∧ (State.lineWait s
    k).coll = s.coll ∧ (State.lineWait s k).rp = s.rp ∧ (State.lineWait s k).guy = s.guy ∧ (State.lineWait s k).tt =
    s.tt ∧ (State.lineWait s k).job = s.job ∧ (State.lineWait s k).pitch = s.pitch ∧ (State.lineWait s k).err = s.err
    ∧ (State.lineWait s k).ckpt = s.ckpt ∧ (State.lineWait s k).outputs = s.outputs ∧ (State.lineWait s k).reject =
    s.reject ∧ (State.lineWait s k).nacks = s.nacks ∧ (State.lineWait s k).reissues = s.reissues := by
  simp [State.lineWait]

@[simp] theorem State.atHome_keeps (s : State) (k : Packet) (bad : Bool) : (State.atHome s k bad).power = s.power ∧
    (State.atHome s k bad).mram = s.mram ∧ (State.atHome s k bad).sec = s.sec ∧ (State.atHome s k bad).dict = s.dict ∧
    (State.atHome s k bad).hp0 = s.hp0 ∧ (State.atHome s k bad).hp1 = s.hp1 ∧ (State.atHome s k bad).far0 = s.far0 ∧
    (State.atHome s k bad).far1 = s.far1 ∧ (State.atHome s k bad).outputs = s.outputs ∧ (State.atHome s k bad).reject
    = s.reject := by
  simp [State.atHome]

@[simp] theorem State.bivouac_keeps (s : State) (k : Packet) : (State.bivouac s k).out = s.out ∧ (State.bivouac s
    k).start = s.start ∧ (State.bivouac s k).mram = s.mram ∧ (State.bivouac s k).sec = s.sec ∧ (State.bivouac s
    k).dict = s.dict ∧ (State.bivouac s k).hp0 = s.hp0 ∧ (State.bivouac s k).hp1 = s.hp1 ∧ (State.bivouac s k).far0 =
    s.far0 ∧ (State.bivouac s k).far1 = s.far1 ∧ (State.bivouac s k).hbm = s.hbm ∧ (State.bivouac s k).canopy =
    s.canopy ∧ (State.bivouac s k).outputs = s.outputs ∧ (State.bivouac s k).reject = s.reject := by
  unfold State.bivouac
  dsimp only
  (repeat' split) <;> simp_all

@[simp] theorem State.passOn_keeps (s : State) (k : Packet) (bad : Bool) : (State.passOn s k bad).mram = s.mram ∧
    (State.passOn s k bad).sec = s.sec ∧ (State.passOn s k bad).dict = s.dict ∧ (State.passOn s k bad).hp0 = s.hp0 ∧
    (State.passOn s k bad).hp1 = s.hp1 ∧ (State.passOn s k bad).far0 = s.far0 ∧ (State.passOn s k bad).far1 = s.far1 ∧
    (State.passOn s k bad).outputs = s.outputs ∧ (State.passOn s k bad).reject = s.reject := by
  simp [State.passOn]

@[simp] theorem State.holdBack_keeps (s : State) (k : Packet) : (State.holdBack s k).out = s.out ∧ (State.holdBack s
    k).start = s.start ∧ (State.holdBack s k).power = s.power ∧ (State.holdBack s k).recorder = s.recorder ∧
    (State.holdBack s k).mram = s.mram ∧ (State.holdBack s k).sec = s.sec ∧ (State.holdBack s k).dict = s.dict ∧
    (State.holdBack s k).hp0 = s.hp0 ∧ (State.holdBack s k).hp1 = s.hp1 ∧ (State.holdBack s k).far0 = s.far0 ∧
    (State.holdBack s k).far1 = s.far1 ∧ (State.holdBack s k).hbm = s.hbm ∧ (State.holdBack s k).mem = s.mem ∧
    (State.holdBack s k).cores = s.cores ∧ (State.holdBack s k).harts = s.harts ∧ (State.holdBack s k).stations =
    s.stations ∧ (State.holdBack s k).links = s.links ∧ (State.holdBack s k).coll = s.coll ∧ (State.holdBack s
    k).canopy = s.canopy ∧ (State.holdBack s k).rp = s.rp ∧ (State.holdBack s k).guy = s.guy ∧ (State.holdBack s k).tt
    = s.tt ∧ (State.holdBack s k).job = s.job ∧ (State.holdBack s k).pitch = s.pitch ∧ (State.holdBack s k).err =
    s.err ∧ (State.holdBack s k).ckpt = s.ckpt ∧ (State.holdBack s k).outputs = s.outputs ∧ (State.holdBack s
    k).reject = s.reject ∧ (State.holdBack s k).nacks = s.nacks ∧ (State.holdBack s k).reissues = s.reissues := by
  simp [State.holdBack]

@[simp] theorem State.drainSpace_keeps (key : Nat) (a1 : Nat) (st : State) : (State.drainSpace key a1 st).mram =
    st.mram ∧ (State.drainSpace key a1 st).sec = st.sec ∧ (State.drainSpace key a1 st).dict = st.dict ∧
    (State.drainSpace key a1 st).hp0 = st.hp0 ∧ (State.drainSpace key a1 st).hp1 = st.hp1 ∧ (State.drainSpace key a1
    st).far0 = st.far0 ∧ (State.drainSpace key a1 st).far1 = st.far1 ∧ (State.drainSpace key a1 st).outputs =
    st.outputs ∧ (State.drainSpace key a1 st).reject = st.reject := by
  induction a1 generalizing st with
  | zero => simp [State.drainSpace]
  | succ n ih => simp only [State.drainSpace]; (repeat' split) <;> simp [ih, ]

@[simp] theorem State.accept_keeps (s : State) (k : Packet) (bad : Bool) : (State.accept s k bad).mram = s.mram ∧
    (State.accept s k bad).sec = s.sec ∧ (State.accept s k bad).dict = s.dict ∧ (State.accept s k bad).hp0 = s.hp0 ∧
    (State.accept s k bad).hp1 = s.hp1 ∧ (State.accept s k bad).far0 = s.far0 ∧ (State.accept s k bad).far1 = s.far1 ∧
    (State.accept s k bad).outputs = s.outputs ∧ (State.accept s k bad).reject = s.reject := by
  unfold State.accept
  (repeat' split) <;> simp

@[simp] theorem State.takeLocal_keeps (s : State) (k : Packet) : (State.takeLocal s k).1.out = s.out ∧
    (State.takeLocal s k).1.start = s.start ∧ (State.takeLocal s k).1.power = s.power ∧ (State.takeLocal s
    k).1.recorder = s.recorder ∧ (State.takeLocal s k).1.mram = s.mram ∧ (State.takeLocal s k).1.sec = s.sec ∧
    (State.takeLocal s k).1.dict = s.dict ∧ (State.takeLocal s k).1.hp0 = s.hp0 ∧ (State.takeLocal s k).1.hp1 = s.hp1
    ∧ (State.takeLocal s k).1.far0 = s.far0 ∧ (State.takeLocal s k).1.far1 = s.far1 ∧ (State.takeLocal s k).1.hbm =
    s.hbm ∧ (State.takeLocal s k).1.mem = s.mem ∧ (State.takeLocal s k).1.cores = s.cores ∧ (State.takeLocal s
    k).1.harts = s.harts ∧ (State.takeLocal s k).1.stations = s.stations ∧ (State.takeLocal s k).1.links = s.links ∧
    (State.takeLocal s k).1.coll = s.coll ∧ (State.takeLocal s k).1.canopy = s.canopy ∧ (State.takeLocal s k).1.rp =
    s.rp ∧ (State.takeLocal s k).1.guy = s.guy ∧ (State.takeLocal s k).1.tt = s.tt ∧ (State.takeLocal s k).1.job =
    s.job ∧ (State.takeLocal s k).1.pitch = s.pitch ∧ (State.takeLocal s k).1.err = s.err ∧ (State.takeLocal s
    k).1.ckpt = s.ckpt ∧ (State.takeLocal s k).1.outputs = s.outputs ∧ (State.takeLocal s k).1.reject = s.reject ∧
    (State.takeLocal s k).1.nacks = s.nacks ∧ (State.takeLocal s k).1.reissues = s.reissues := by
  unfold State.takeLocal
  (repeat' split) <;> simp

@[simp] theorem State.deliver_keeps (s : State) (k : Packet) (bad : Bool) : (State.deliver s k bad).mram = s.mram ∧
    (State.deliver s k bad).sec = s.sec ∧ (State.deliver s k bad).dict = s.dict ∧ (State.deliver s k bad).hp0 = s.hp0
    ∧ (State.deliver s k bad).hp1 = s.hp1 ∧ (State.deliver s k bad).far0 = s.far0 ∧ (State.deliver s k bad).far1 =
    s.far1 ∧ (State.deliver s k bad).outputs = s.outputs ∧ (State.deliver s k bad).reject = s.reject := by
  simp [State.deliver]

@[simp] theorem State.snapshot_keeps (s : State) (k : DictSnap) (unit : Nat) : (State.snapshot s k unit).start =
    s.start ∧ (State.snapshot s k unit).power = s.power ∧ (State.snapshot s k unit).recorder = s.recorder ∧
    (State.snapshot s k unit).mram = s.mram ∧ (State.snapshot s k unit).sec = s.sec ∧ (State.snapshot s k unit).hp0 =
    s.hp0 ∧ (State.snapshot s k unit).hp1 = s.hp1 ∧ (State.snapshot s k unit).far0 = s.far0 ∧ (State.snapshot s k
    unit).far1 = s.far1 ∧ (State.snapshot s k unit).hbm = s.hbm ∧ (State.snapshot s k unit).mem = s.mem ∧
    (State.snapshot s k unit).cores = s.cores ∧ (State.snapshot s k unit).harts = s.harts ∧ (State.snapshot s k
    unit).stations = s.stations ∧ (State.snapshot s k unit).links = s.links ∧ (State.snapshot s k unit).coll = s.coll
    ∧ (State.snapshot s k unit).fab = s.fab ∧ (State.snapshot s k unit).canopy = s.canopy ∧ (State.snapshot s k
    unit).rp = s.rp ∧ (State.snapshot s k unit).guy = s.guy ∧ (State.snapshot s k unit).tt = s.tt ∧ (State.snapshot s
    k unit).job = s.job ∧ (State.snapshot s k unit).pitch = s.pitch ∧ (State.snapshot s k unit).err = s.err ∧
    (State.snapshot s k unit).ckpt = s.ckpt ∧ (State.snapshot s k unit).outputs = s.outputs ∧ (State.snapshot s k
    unit).reject = s.reject ∧ (State.snapshot s k unit).nacks = s.nacks ∧ (State.snapshot s k unit).reissues =
    s.reissues := by
  simp [State.snapshot]

@[simp] theorem State.nextTag_keeps (s : State) (p : DictPath) : (State.nextTag s p).2.out = s.out ∧ (State.nextTag s
    p).2.start = s.start ∧ (State.nextTag s p).2.power = s.power ∧ (State.nextTag s p).2.recorder = s.recorder ∧
    (State.nextTag s p).2.mram = s.mram ∧ (State.nextTag s p).2.sec = s.sec ∧ (State.nextTag s p).2.hp0 = s.hp0 ∧
    (State.nextTag s p).2.hp1 = s.hp1 ∧ (State.nextTag s p).2.far0 = s.far0 ∧ (State.nextTag s p).2.far1 = s.far1 ∧
    (State.nextTag s p).2.hbm = s.hbm ∧ (State.nextTag s p).2.mem = s.mem ∧ (State.nextTag s p).2.cores =
    s.cores ∧ (State.nextTag s p).2.harts = s.harts ∧ (State.nextTag s p).2.stations = s.stations ∧ (State.nextTag s
    p).2.links = s.links ∧ (State.nextTag s p).2.coll = s.coll ∧ (State.nextTag s p).2.fab = s.fab ∧ (State.nextTag s
    p).2.canopy = s.canopy ∧ (State.nextTag s p).2.rp = s.rp ∧ (State.nextTag s p).2.guy = s.guy ∧ (State.nextTag s
    p).2.tt = s.tt ∧ (State.nextTag s p).2.job = s.job ∧ (State.nextTag s p).2.pitch = s.pitch ∧ (State.nextTag s
    p).2.err = s.err ∧ (State.nextTag s p).2.ckpt = s.ckpt ∧ (State.nextTag s p).2.outputs = s.outputs ∧
    (State.nextTag s p).2.reject = s.reject ∧ (State.nextTag s p).2.nacks = s.nacks ∧ (State.nextTag s p).2.reissues =
    s.reissues := by
  simp [State.nextTag]

@[simp] theorem State.sendNotify_keeps (s : State) (x : Subscription) : (State.sendNotify s x).start = s.start ∧
    (State.sendNotify s x).power = s.power ∧ (State.sendNotify s x).recorder = s.recorder ∧ (State.sendNotify s
    x).mram = s.mram ∧ (State.sendNotify s x).sec = s.sec ∧ (State.sendNotify s x).far0 = s.far0 ∧ (State.sendNotify s
    x).far1 = s.far1 ∧ (State.sendNotify s x).hbm = s.hbm ∧ (State.sendNotify s x).mem = s.mem ∧
    (State.sendNotify s x).cores = s.cores ∧ (State.sendNotify s x).harts = s.harts ∧ (State.sendNotify s x).stations
    = s.stations ∧ (State.sendNotify s x).links = s.links ∧ (State.sendNotify s x).coll = s.coll ∧ (State.sendNotify s
    x).fab = s.fab ∧ (State.sendNotify s x).canopy = s.canopy ∧ (State.sendNotify s x).rp = s.rp ∧ (State.sendNotify s
    x).guy = s.guy ∧ (State.sendNotify s x).tt = s.tt ∧ (State.sendNotify s x).job = s.job ∧ (State.sendNotify s
    x).pitch = s.pitch ∧ (State.sendNotify s x).err = s.err ∧ (State.sendNotify s x).ckpt = s.ckpt ∧ (State.sendNotify
    s x).outputs = s.outputs ∧ (State.sendNotify s x).reject = s.reject ∧ (State.sendNotify s x).nacks = s.nacks ∧
    (State.sendNotify s x).reissues = s.reissues := by
  unfold State.sendNotify
  (repeat' split) <;> simp

@[simp] theorem notifyLoop_keeps (s0 : State) (a1 : List Subscription) (st : State) : (notifyLoop s0 a1 st).start =
    st.start ∧ (notifyLoop s0 a1 st).power = st.power ∧ (notifyLoop s0 a1 st).recorder = st.recorder ∧ (notifyLoop s0
    a1 st).mram = st.mram ∧ (notifyLoop s0 a1 st).sec = st.sec ∧ (notifyLoop s0 a1 st).far0 = st.far0 ∧ (notifyLoop s0
    a1 st).far1 = st.far1 ∧ (notifyLoop s0 a1 st).hbm = st.hbm ∧ (notifyLoop s0 a1 st).mem = st.mem ∧
    (notifyLoop s0 a1 st).cores = st.cores ∧ (notifyLoop s0 a1 st).harts = st.harts ∧ (notifyLoop s0 a1 st).stations =
    st.stations ∧ (notifyLoop s0 a1 st).links = st.links ∧ (notifyLoop s0 a1 st).coll = st.coll ∧ (notifyLoop s0 a1
    st).fab = st.fab ∧ (notifyLoop s0 a1 st).canopy = st.canopy ∧ (notifyLoop s0 a1 st).rp = st.rp ∧ (notifyLoop s0 a1
    st).guy = st.guy ∧ (notifyLoop s0 a1 st).tt = st.tt ∧ (notifyLoop s0 a1 st).job = st.job ∧ (notifyLoop s0 a1
    st).pitch = st.pitch ∧ (notifyLoop s0 a1 st).err = st.err ∧ (notifyLoop s0 a1 st).ckpt = st.ckpt ∧ (notifyLoop s0
    a1 st).outputs = st.outputs ∧ (notifyLoop s0 a1 st).reject = st.reject ∧ (notifyLoop s0 a1 st).nacks = st.nacks ∧
    (notifyLoop s0 a1 st).reissues = st.reissues := by
  induction a1 generalizing st with
  | nil => simp [notifyLoop]
  | cons x xs ih => simp only [notifyLoop]; (repeat' split) <;> simp [ih, ]

@[simp] theorem notifyAll_keeps (s0 s : State) : (notifyAll s0 s).start = s.start ∧ (notifyAll s0 s).power = s.power ∧
    (notifyAll s0 s).recorder = s.recorder ∧ (notifyAll s0 s).mram = s.mram ∧ (notifyAll s0 s).sec = s.sec ∧
    (notifyAll s0 s).far0 = s.far0 ∧ (notifyAll s0 s).far1 = s.far1 ∧ (notifyAll s0 s).hbm = s.hbm ∧ (notifyAll
    s0 s).mem = s.mem ∧ (notifyAll s0 s).cores = s.cores ∧ (notifyAll s0 s).harts = s.harts ∧ (notifyAll s0
    s).stations = s.stations ∧ (notifyAll s0 s).links = s.links ∧ (notifyAll s0 s).coll = s.coll ∧ (notifyAll s0
    s).fab = s.fab ∧ (notifyAll s0 s).canopy = s.canopy ∧ (notifyAll s0 s).rp = s.rp ∧ (notifyAll s0 s).guy = s.guy ∧
    (notifyAll s0 s).tt = s.tt ∧ (notifyAll s0 s).job = s.job ∧ (notifyAll s0 s).pitch = s.pitch ∧ (notifyAll s0
    s).err = s.err ∧ (notifyAll s0 s).ckpt = s.ckpt ∧ (notifyAll s0 s).outputs = s.outputs ∧ (notifyAll s0 s).reject =
    s.reject ∧ (notifyAll s0 s).nacks = s.nacks ∧ (notifyAll s0 s).reissues = s.reissues := by
  simp [notifyAll]

@[simp] theorem State.applyValue_keeps (s : State) (key : Nat) (v : List Byte) : (State.applyValue s key v).out =
    s.out ∧ (State.applyValue s key v).start = s.start ∧ (State.applyValue s key v).power = s.power ∧
    (State.applyValue s key v).recorder = s.recorder ∧ (State.applyValue s key v).sec = s.sec ∧ (State.applyValue s
    key v).hp0 = s.hp0 ∧ (State.applyValue s key v).hp1 = s.hp1 ∧ (State.applyValue s key v).far0 = s.far0 ∧
    (State.applyValue s key v).far1 = s.far1 ∧ (State.applyValue s key v).hbm = s.hbm ∧ (State.applyValue s key
    v).mem = s.mem ∧ (State.applyValue s key v).cores = s.cores ∧ (State.applyValue s key v).harts = s.harts ∧
    (State.applyValue s key v).stations = s.stations ∧ (State.applyValue s key v).links = s.links ∧ (State.applyValue
    s key v).coll = s.coll ∧ (State.applyValue s key v).fab = s.fab ∧ (State.applyValue s key v).canopy = s.canopy ∧
    (State.applyValue s key v).rp = s.rp ∧ (State.applyValue s key v).guy = s.guy ∧ (State.applyValue s key v).tt =
    s.tt ∧ (State.applyValue s key v).job = s.job ∧ (State.applyValue s key v).pitch = s.pitch ∧ (State.applyValue s
    key v).err = s.err ∧ (State.applyValue s key v).ckpt = s.ckpt ∧ (State.applyValue s key v).outputs = s.outputs ∧
    (State.applyValue s key v).reject = s.reject ∧ (State.applyValue s key v).nacks = s.nacks ∧ (State.applyValue s
    key v).reissues = s.reissues := by
  simp [State.applyValue]

@[simp] theorem State.applyPending_keeps (s : State) (p : Nat → Bool) : (State.applyPending s p).out = s.out ∧
    (State.applyPending s p).start = s.start ∧ (State.applyPending s p).power = s.power ∧ (State.applyPending s
    p).recorder = s.recorder ∧ (State.applyPending s p).sec = s.sec ∧ (State.applyPending s p).hp0 = s.hp0 ∧
    (State.applyPending s p).hp1 = s.hp1 ∧ (State.applyPending s p).far0 = s.far0 ∧ (State.applyPending s p).far1 =
    s.far1 ∧ (State.applyPending s p).hbm = s.hbm ∧ (State.applyPending s p).mem = s.mem ∧ (State.applyPending s
    p).cores = s.cores ∧ (State.applyPending s p).harts = s.harts ∧ (State.applyPending s p).stations = s.stations ∧
    (State.applyPending s p).links = s.links ∧ (State.applyPending s p).coll = s.coll ∧ (State.applyPending s p).fab =
    s.fab ∧ (State.applyPending s p).canopy = s.canopy ∧ (State.applyPending s p).rp = s.rp ∧ (State.applyPending s
    p).guy = s.guy ∧ (State.applyPending s p).tt = s.tt ∧ (State.applyPending s p).job = s.job ∧ (State.applyPending s
    p).pitch = s.pitch ∧ (State.applyPending s p).err = s.err ∧ (State.applyPending s p).ckpt = s.ckpt ∧
    (State.applyPending s p).outputs = s.outputs ∧ (State.applyPending s p).reject = s.reject ∧ (State.applyPending s
    p).nacks = s.nacks ∧ (State.applyPending s p).reissues = s.reissues := by
  unfold State.applyPending
  try dsimp only
  (repeat' split) <;> simp []

@[simp] theorem State.startupFail_keeps (s : State) (step : Nat) : (State.startupFail s step).out = s.out ∧
    (State.startupFail s step).power = s.power ∧ (State.startupFail s step).mram = s.mram ∧ (State.startupFail s
    step).sec = s.sec ∧ (State.startupFail s step).dict = s.dict ∧ (State.startupFail s step).hp0 = s.hp0 ∧
    (State.startupFail s step).hp1 = s.hp1 ∧ (State.startupFail s step).far0 = s.far0 ∧ (State.startupFail s
    step).far1 = s.far1 ∧ (State.startupFail s step).hbm = s.hbm ∧ (State.startupFail s step).mem = s.mem ∧
    (State.startupFail s step).cores = s.cores ∧ (State.startupFail s step).harts = s.harts ∧ (State.startupFail s
    step).stations = s.stations ∧ (State.startupFail s step).links = s.links ∧ (State.startupFail s step).coll =
    s.coll ∧ (State.startupFail s step).fab = s.fab ∧ (State.startupFail s step).canopy = s.canopy ∧
    (State.startupFail s step).rp = s.rp ∧ (State.startupFail s step).guy = s.guy ∧ (State.startupFail s step).tt =
    s.tt ∧ (State.startupFail s step).job = s.job ∧ (State.startupFail s step).pitch = s.pitch ∧ (State.startupFail s
    step).err = s.err ∧ (State.startupFail s step).ckpt = s.ckpt ∧ (State.startupFail s step).outputs = s.outputs ∧
    (State.startupFail s step).reject = s.reject ∧ (State.startupFail s step).nacks = s.nacks ∧ (State.startupFail s
    step).reissues = s.reissues := by
  simp [State.startupFail]

@[simp] theorem State.countPowerUp_keeps (s : State) : (State.countPowerUp s).out = s.out ∧ (State.countPowerUp
    s).start = s.start ∧ (State.countPowerUp s).power = s.power ∧ (State.countPowerUp s).recorder = s.recorder ∧
    (State.countPowerUp s).sec = s.sec ∧ (State.countPowerUp s).dict = s.dict ∧ (State.countPowerUp s).hp0 = s.hp0 ∧
    (State.countPowerUp s).hp1 = s.hp1 ∧ (State.countPowerUp s).far0 = s.far0 ∧ (State.countPowerUp s).far1 = s.far1 ∧
    (State.countPowerUp s).hbm = s.hbm ∧ (State.countPowerUp s).mem = s.mem ∧ (State.countPowerUp s).cores =
    s.cores ∧ (State.countPowerUp s).harts = s.harts ∧ (State.countPowerUp s).stations = s.stations ∧
    (State.countPowerUp s).links = s.links ∧ (State.countPowerUp s).coll = s.coll ∧ (State.countPowerUp s).fab = s.fab
    ∧ (State.countPowerUp s).canopy = s.canopy ∧ (State.countPowerUp s).rp = s.rp ∧ (State.countPowerUp s).guy = s.guy
    ∧ (State.countPowerUp s).tt = s.tt ∧ (State.countPowerUp s).job = s.job ∧ (State.countPowerUp s).pitch = s.pitch ∧
    (State.countPowerUp s).err = s.err ∧ (State.countPowerUp s).ckpt = s.ckpt ∧ (State.countPowerUp s).outputs =
    s.outputs ∧ (State.countPowerUp s).reject = s.reject ∧ (State.countPowerUp s).nacks = s.nacks ∧
    (State.countPowerUp s).reissues = s.reissues := by
  simp [State.countPowerUp]

@[simp] theorem State.bootRom_keeps (s : State) : (State.bootRom s).out = s.out ∧ (State.bootRom s).power = s.power ∧
    (State.bootRom s).far0 = s.far0 ∧ (State.bootRom s).far1 = s.far1 ∧ (State.bootRom s).hbm = s.hbm ∧
    (State.bootRom s).mem = s.mem ∧ (State.bootRom s).cores = s.cores ∧ (State.bootRom s).harts = s.harts ∧
    (State.bootRom s).stations = s.stations ∧ (State.bootRom s).links = s.links ∧ (State.bootRom s).coll = s.coll ∧
    (State.bootRom s).fab = s.fab ∧ (State.bootRom s).canopy = s.canopy ∧ (State.bootRom s).rp = s.rp ∧ (State.bootRom
    s).guy = s.guy ∧ (State.bootRom s).tt = s.tt ∧ (State.bootRom s).job = s.job ∧ (State.bootRom s).pitch = s.pitch ∧
    (State.bootRom s).err = s.err ∧ (State.bootRom s).ckpt = s.ckpt ∧ (State.bootRom s).outputs = s.outputs ∧
    (State.bootRom s).reject = s.reject ∧ (State.bootRom s).nacks = s.nacks ∧ (State.bootRom s).reissues = s.reissues
    := by
  simp [State.bootRom]

@[simp] theorem State.raiseSvn_keeps (s : State) : (State.raiseSvn s).out = s.out ∧ (State.raiseSvn s).start = s.start
    ∧ (State.raiseSvn s).power = s.power ∧ (State.raiseSvn s).sec = s.sec ∧ (State.raiseSvn s).dict = s.dict ∧
    (State.raiseSvn s).hp0 = s.hp0 ∧ (State.raiseSvn s).hp1 = s.hp1 ∧ (State.raiseSvn s).far0 = s.far0 ∧
    (State.raiseSvn s).far1 = s.far1 ∧ (State.raiseSvn s).hbm = s.hbm ∧ (State.raiseSvn s).mem = s.mem ∧
    (State.raiseSvn s).cores = s.cores ∧ (State.raiseSvn s).harts = s.harts ∧ (State.raiseSvn s).stations = s.stations
    ∧ (State.raiseSvn s).links = s.links ∧ (State.raiseSvn s).coll = s.coll ∧ (State.raiseSvn s).fab = s.fab ∧
    (State.raiseSvn s).canopy = s.canopy ∧ (State.raiseSvn s).rp = s.rp ∧ (State.raiseSvn s).guy = s.guy ∧
    (State.raiseSvn s).tt = s.tt ∧ (State.raiseSvn s).job = s.job ∧ (State.raiseSvn s).pitch = s.pitch ∧
    (State.raiseSvn s).err = s.err ∧ (State.raiseSvn s).ckpt = s.ckpt ∧ (State.raiseSvn s).outputs = s.outputs ∧
    (State.raiseSvn s).reject = s.reject ∧ (State.raiseSvn s).nacks = s.nacks ∧ (State.raiseSvn s).reissues =
    s.reissues := by
  simp [State.raiseSvn]

@[simp] theorem State.startSlot_keeps (s : State) (n : Nat) : (State.startSlot s n).out = s.out ∧ (State.startSlot s
    n).power = s.power ∧ (State.startSlot s n).dict = s.dict ∧ (State.startSlot s n).hp0 = s.hp0 ∧ (State.startSlot s
    n).hp1 = s.hp1 ∧ (State.startSlot s n).far0 = s.far0 ∧ (State.startSlot s n).far1 = s.far1 ∧ (State.startSlot s
    n).hbm = s.hbm ∧ (State.startSlot s n).mem = s.mem ∧ (State.startSlot s n).cores = s.cores ∧
    (State.startSlot s n).harts = s.harts ∧ (State.startSlot s n).stations = s.stations ∧ (State.startSlot s n).links
    = s.links ∧ (State.startSlot s n).coll = s.coll ∧ (State.startSlot s n).fab = s.fab ∧ (State.startSlot s n).canopy
    = s.canopy ∧ (State.startSlot s n).rp = s.rp ∧ (State.startSlot s n).guy = s.guy ∧ (State.startSlot s n).tt = s.tt
    ∧ (State.startSlot s n).job = s.job ∧ (State.startSlot s n).pitch = s.pitch ∧ (State.startSlot s n).err = s.err ∧
    (State.startSlot s n).ckpt = s.ckpt ∧ (State.startSlot s n).outputs = s.outputs ∧ (State.startSlot s n).reject =
    s.reject ∧ (State.startSlot s n).nacks = s.nacks ∧ (State.startSlot s n).reissues = s.reissues := by
  simp [State.startSlot]

@[simp] theorem State.mapOut_keeps (s : State) (ch : Nat) : (State.mapOut s ch).out = s.out ∧ (State.mapOut s
    ch).start = s.start ∧ (State.mapOut s ch).power = s.power ∧ (State.mapOut s ch).mram = s.mram ∧ (State.mapOut s
    ch).sec = s.sec ∧ (State.mapOut s ch).dict = s.dict ∧ (State.mapOut s ch).hp0 = s.hp0 ∧ (State.mapOut s ch).hp1 =
    s.hp1 ∧ (State.mapOut s ch).far0 = s.far0 ∧ (State.mapOut s ch).far1 = s.far1 ∧ (State.mapOut s ch).mem = s.mem ∧
    (State.mapOut s ch).cores = s.cores ∧ (State.mapOut s ch).harts = s.harts ∧ (State.mapOut s ch).stations =
    s.stations ∧ (State.mapOut s ch).links = s.links ∧ (State.mapOut s ch).coll = s.coll ∧ (State.mapOut s ch).fab =
    s.fab ∧ (State.mapOut s ch).canopy = s.canopy ∧ (State.mapOut s ch).rp = s.rp ∧ (State.mapOut s ch).guy = s.guy ∧
    (State.mapOut s ch).tt = s.tt ∧ (State.mapOut s ch).job = s.job ∧ (State.mapOut s ch).pitch = s.pitch ∧
    (State.mapOut s ch).err = s.err ∧ (State.mapOut s ch).ckpt = s.ckpt ∧ (State.mapOut s ch).outputs = s.outputs ∧
    (State.mapOut s ch).reject = s.reject ∧ (State.mapOut s ch).nacks = s.nacks ∧ (State.mapOut s ch).reissues =
    s.reissues := by
  simp [State.mapOut]

@[simp] theorem State.repairLane_keeps (fails : List LaneFail) (s : State) (f : LaneFail) : (State.repairLane fails s
    f).out = s.out ∧ (State.repairLane fails s f).start = s.start ∧ (State.repairLane fails s f).power = s.power ∧
    (State.repairLane fails s f).mram = s.mram ∧ (State.repairLane fails s f).sec = s.sec ∧ (State.repairLane fails s
    f).dict = s.dict ∧ (State.repairLane fails s f).hp0 = s.hp0 ∧ (State.repairLane fails s f).hp1 = s.hp1 ∧
    (State.repairLane fails s f).far0 = s.far0 ∧ (State.repairLane fails s f).far1 = s.far1 ∧ (State.repairLane fails
    s f).mem = s.mem ∧ (State.repairLane fails s f).cores = s.cores ∧ (State.repairLane fails s f).harts = s.harts ∧
    (State.repairLane fails s f).stations = s.stations ∧ (State.repairLane fails s f).links = s.links ∧
    (State.repairLane fails s f).coll = s.coll ∧ (State.repairLane fails s f).fab = s.fab ∧ (State.repairLane fails s
    f).canopy = s.canopy ∧ (State.repairLane fails s f).rp = s.rp ∧ (State.repairLane fails s f).guy = s.guy ∧
    (State.repairLane fails s f).tt = s.tt ∧ (State.repairLane fails s f).job = s.job ∧ (State.repairLane fails s
    f).pitch = s.pitch ∧ (State.repairLane fails s f).err = s.err ∧ (State.repairLane fails s f).ckpt = s.ckpt ∧
    (State.repairLane fails s f).outputs = s.outputs ∧ (State.repairLane fails s f).reject = s.reject ∧
    (State.repairLane fails s f).nacks = s.nacks ∧ (State.repairLane fails s f).reissues = s.reissues := by
  simp [State.repairLane]

@[simp] theorem State.enableClocks_keeps (s : State) : (State.enableClocks s).out = s.out ∧ (State.enableClocks
    s).start = s.start ∧ (State.enableClocks s).power = s.power ∧ (State.enableClocks s).recorder = s.recorder ∧
    (State.enableClocks s).mram = s.mram ∧ (State.enableClocks s).sec = s.sec ∧ (State.enableClocks s).hp0 = s.hp0 ∧
    (State.enableClocks s).hp1 = s.hp1 ∧ (State.enableClocks s).far0 = s.far0 ∧ (State.enableClocks s).far1 = s.far1 ∧
    (State.enableClocks s).hbm = s.hbm ∧ (State.enableClocks s).mem = s.mem ∧ (State.enableClocks s).cores =
    s.cores ∧ (State.enableClocks s).harts = s.harts ∧ (State.enableClocks s).stations = s.stations ∧
    (State.enableClocks s).links = s.links ∧ (State.enableClocks s).coll = s.coll ∧ (State.enableClocks s).fab = s.fab
    ∧ (State.enableClocks s).canopy = s.canopy ∧ (State.enableClocks s).rp = s.rp ∧ (State.enableClocks s).guy = s.guy
    ∧ (State.enableClocks s).tt = s.tt ∧ (State.enableClocks s).job = s.job ∧ (State.enableClocks s).pitch = s.pitch ∧
    (State.enableClocks s).err = s.err ∧ (State.enableClocks s).ckpt = s.ckpt ∧ (State.enableClocks s).outputs =
    s.outputs ∧ (State.enableClocks s).reject = s.reject ∧ (State.enableClocks s).nacks = s.nacks ∧
    (State.enableClocks s).reissues = s.reissues := by
  simp [State.enableClocks]

@[simp] theorem State.settle_keeps (s : State) (c : Nat) : (State.settle s c).power = s.power ∧ (State.settle s
    c).mram = s.mram ∧ (State.settle s c).sec = s.sec ∧ (State.settle s c).hp0 = s.hp0 ∧ (State.settle s c).hp1 =
    s.hp1 ∧ (State.settle s c).far0 = s.far0 ∧ (State.settle s c).far1 = s.far1 ∧ (State.settle s c).hbm = s.hbm
    ∧ (State.settle s c).mem = s.mem ∧ (State.settle s c).canopy = s.canopy ∧ (State.settle s c).outputs = s.outputs ∧
    (State.settle s c).reject = s.reject := by
  simp [State.settle]

@[simp] theorem State.settleFrom_keeps (s0 s : State) : (State.settleFrom s0 s).power = s.power ∧ (State.settleFrom s0
    s).mram = s.mram ∧ (State.settleFrom s0 s).sec = s.sec ∧ (State.settleFrom s0 s).hp0 = s.hp0 ∧ (State.settleFrom
    s0 s).hp1 = s.hp1 ∧ (State.settleFrom s0 s).far0 = s.far0 ∧ (State.settleFrom s0 s).far1 = s.far1 ∧
    (State.settleFrom s0 s).hbm = s.hbm ∧ (State.settleFrom s0 s).mem = s.mem ∧ (State.settleFrom s0 s).canopy =
    s.canopy ∧ (State.settleFrom s0 s).outputs = s.outputs ∧ (State.settleFrom s0 s).reject = s.reject := by
  unfold State.settleFrom
  try dsimp only
  (repeat' split) <;> simp []

@[simp] theorem State.position_keeps (s : State) (c : Nat) (f : Core → Option Core) (wait : Core → Core) :
    (State.position s c f wait).power = s.power ∧ (State.position s c f wait).mram = s.mram ∧ (State.position s c f
    wait).sec = s.sec ∧ (State.position s c f wait).hp0 = s.hp0 ∧ (State.position s c f wait).hp1 = s.hp1 ∧
    (State.position s c f wait).far0 = s.far0 ∧ (State.position s c f wait).far1 = s.far1 ∧ (State.position s c f
    wait).hbm = s.hbm ∧ (State.position s c f wait).mem = s.mem ∧ (State.position s c f wait).canopy = s.canopy
    ∧ (State.position s c f wait).outputs = s.outputs ∧ (State.position s c f wait).reject = s.reject := by
  unfold State.position
  try dsimp only
  (repeat' split) <;> simp []

@[simp] theorem State.tally_keeps (s : State) (c op : Nat) (f : Nat → Core → Core) : (State.tally s c op f).power =
    s.power ∧ (State.tally s c op f).mram = s.mram ∧ (State.tally s c op f).sec = s.sec ∧ (State.tally s c op f).hp0 =
    s.hp0 ∧ (State.tally s c op f).hp1 = s.hp1 ∧ (State.tally s c op f).far0 = s.far0 ∧ (State.tally s c op f).far1 =
    s.far1 ∧ (State.tally s c op f).hbm = s.hbm ∧ (State.tally s c op f).mem = s.mem ∧ (State.tally s c op
    f).canopy = s.canopy ∧ (State.tally s c op f).outputs = s.outputs ∧ (State.tally s c op f).reject = s.reject := by
  simp [State.tally]

end Sys2Proof.Machine
end

