-- ==== Sys2Proof/Laws/KeepsCompute.lean ====
section
/-!
SUPPORT. What each operation leaves unchanged: compute engines, data movers, stations and exchanges.
-/

set_option Elab.async false
namespace Sys2Proof.Machine

open Sys2Proof Rv

@[simp] theorem State.countSite_keeps (s : State) (c : Nat) (a1 : UpsetSite) : (State.countSite s c a1).out = s.out ∧
    (State.countSite s c a1).start = s.start ∧ (State.countSite s c a1).power = s.power ∧ (State.countSite s c
    a1).mram = s.mram ∧ (State.countSite s c a1).sec = s.sec ∧ (State.countSite s c a1).dict = s.dict ∧
    (State.countSite s c a1).hp0 = s.hp0 ∧ (State.countSite s c a1).hp1 = s.hp1 ∧ (State.countSite s c a1).mem = s.mem
    ∧ (State.countSite s c a1).harts = s.harts ∧ (State.countSite s c a1).stations = s.stations ∧ (State.countSite s c
    a1).links = s.links ∧ (State.countSite s c a1).coll = s.coll ∧ (State.countSite s c a1).fab = s.fab ∧
    (State.countSite s c a1).canopy = s.canopy ∧ (State.countSite s c a1).rp = s.rp ∧ (State.countSite s c a1).guy =
    s.guy ∧ (State.countSite s c a1).tt = s.tt ∧ (State.countSite s c a1).job = s.job ∧ (State.countSite s c a1).pitch
    = s.pitch ∧ (State.countSite s c a1).err = s.err ∧ (State.countSite s c a1).ckpt = s.ckpt ∧ (State.countSite s c
    a1).outputs = s.outputs ∧ (State.countSite s c a1).reject = s.reject ∧ (State.countSite s c a1).nacks = s.nacks ∧
    (State.countSite s c a1).reissues = s.reissues := by
  unfold State.countSite
  (repeat' split) <;> simp

@[simp] theorem State.putCmd_keeps (s : State) (c : Nat) (e : Engine) (i : Nat) (q : EngCmd) : (State.putCmd s c e i
    q).out = s.out ∧ (State.putCmd s c e i q).start = s.start ∧ (State.putCmd s c e i q).power = s.power ∧
    (State.putCmd s c e i q).recorder = s.recorder ∧ (State.putCmd s c e i q).mram = s.mram ∧ (State.putCmd s c e i
    q).sec = s.sec ∧ (State.putCmd s c e i q).dict = s.dict ∧ (State.putCmd s c e i q).hp0 = s.hp0 ∧ (State.putCmd s c
    e i q).hp1 = s.hp1 ∧ (State.putCmd s c e i q).far0 = s.far0 ∧ (State.putCmd s c e i q).far1 = s.far1 ∧
    (State.putCmd s c e i q).hbm = s.hbm ∧ (State.putCmd s c e i q).mem = s.mem ∧ (State.putCmd s c e i q).harts
    = s.harts ∧ (State.putCmd s c e i q).stations = s.stations ∧ (State.putCmd s c e i q).links = s.links ∧
    (State.putCmd s c e i q).coll = s.coll ∧ (State.putCmd s c e i q).fab = s.fab ∧ (State.putCmd s c e i q).canopy =
    s.canopy ∧ (State.putCmd s c e i q).rp = s.rp ∧ (State.putCmd s c e i q).guy = s.guy ∧ (State.putCmd s c e i q).tt
    = s.tt ∧ (State.putCmd s c e i q).job = s.job ∧ (State.putCmd s c e i q).pitch = s.pitch ∧ (State.putCmd s c e i
    q).err = s.err ∧ (State.putCmd s c e i q).ckpt = s.ckpt ∧ (State.putCmd s c e i q).outputs = s.outputs ∧
    (State.putCmd s c e i q).reject = s.reject ∧ (State.putCmd s c e i q).nacks = s.nacks ∧ (State.putCmd s c e i
    q).reissues = s.reissues := by
  simp [State.putCmd]

@[simp] theorem State.retire_keeps (s : State) (c : Nat) (e : Engine) (i : Nat) : (State.retire s c e i).power =
    s.power ∧ (State.retire s c e i).mram = s.mram ∧ (State.retire s c e i).sec = s.sec ∧ (State.retire s c e i).hp0 =
    s.hp0 ∧ (State.retire s c e i).hp1 = s.hp1 ∧ (State.retire s c e i).far0 = s.far0 ∧ (State.retire s c e i).far1 =
    s.far1 ∧ (State.retire s c e i).hbm = s.hbm ∧ (State.retire s c e i).mem = s.mem ∧ (State.retire s c e
    i).canopy = s.canopy ∧ (State.retire s c e i).outputs = s.outputs ∧ (State.retire s c e i).reject = s.reject := by
  simp [State.retire]

@[simp] theorem State.finishRun_keeps (s : State) (c : Nat) (e : Engine) (i : Nat) (a1 : Run) : (State.finishRun s c e
    i a1).power = s.power ∧ (State.finishRun s c e i a1).mram = s.mram ∧ (State.finishRun s c e i a1).sec = s.sec ∧
    (State.finishRun s c e i a1).hp0 = s.hp0 ∧ (State.finishRun s c e i a1).hp1 = s.hp1 ∧ (State.finishRun s c e i
    a1).far0 = s.far0 ∧ (State.finishRun s c e i a1).far1 = s.far1 ∧ (State.finishRun s c e i a1).hbm = s.hbm ∧
    (State.finishRun s c e i a1).mem = s.mem ∧ (State.finishRun s c e i a1).canopy = s.canopy ∧ (State.finishRun s c e
    i a1).outputs = s.outputs ∧ (State.finishRun s c e i a1).reject = s.reject := by
  unfold State.finishRun
  (repeat' split) <;> simp

@[simp] theorem State.runMul_keeps (s : State) (c i : Nat) : (State.runMul s c i).power = s.power ∧ (State.runMul s c
    i).mram = s.mram ∧ (State.runMul s c i).sec = s.sec ∧ (State.runMul s c i).hp0 = s.hp0 ∧ (State.runMul s c i).hp1
    = s.hp1 ∧ (State.runMul s c i).far0 = s.far0 ∧ (State.runMul s c i).far1 = s.far1 ∧ (State.runMul s c i).hbm =
    s.hbm ∧ (State.runMul s c i).mem = s.mem ∧ (State.runMul s c i).canopy = s.canopy ∧ (State.runMul s c
    i).outputs = s.outputs ∧ (State.runMul s c i).reject = s.reject := by
  unfold State.runMul
  (repeat' split) <;> simp

@[simp] theorem State.runChain_keeps (s : State) (c : Nat) : (State.runChain s c).power = s.power ∧ (State.runChain s
    c).mram = s.mram ∧ (State.runChain s c).sec = s.sec ∧ (State.runChain s c).hp0 = s.hp0 ∧ (State.runChain s c).hp1
    = s.hp1 ∧ (State.runChain s c).far0 = s.far0 ∧ (State.runChain s c).far1 = s.far1 ∧ (State.runChain s c).hbm =
    s.hbm ∧ (State.runChain s c).mem = s.mem ∧ (State.runChain s c).canopy = s.canopy ∧ (State.runChain s
    c).outputs = s.outputs ∧ (State.runChain s c).reject = s.reject := by
  unfold State.runChain
  (repeat' split) <;> simp

@[simp] theorem State.chainError_keeps (s : State) (c : Nat) (q : EngCmd) (x : Upset) : (State.chainError s c q
    x).power = s.power ∧ (State.chainError s c q x).mram = s.mram ∧ (State.chainError s c q x).sec = s.sec ∧
    (State.chainError s c q x).hp0 = s.hp0 ∧ (State.chainError s c q x).hp1 = s.hp1 ∧ (State.chainError s c q x).mem =
    s.mem ∧ (State.chainError s c q x).canopy = s.canopy ∧ (State.chainError s c q x).outputs = s.outputs ∧
    (State.chainError s c q x).reject = s.reject := by
  unfold State.chainError State.unitError
  try dsimp only
  (repeat' split) <;> simp_all

@[simp] theorem State.weightTile_keeps (s : State) (c : Nat) (q : EngCmd) (j : Nat) : (State.weightTile s c q j).2.out
    = s.out ∧ (State.weightTile s c q j).2.start = s.start ∧ (State.weightTile s c q j).2.power = s.power ∧
    (State.weightTile s c q j).2.recorder = s.recorder ∧ (State.weightTile s c q j).2.mram = s.mram ∧
    (State.weightTile s c q j).2.sec = s.sec ∧ (State.weightTile s c q j).2.dict = s.dict ∧ (State.weightTile s c q
    j).2.hp0 = s.hp0 ∧ (State.weightTile s c q j).2.hp1 = s.hp1 ∧ (State.weightTile s c q j).2.far0 = s.far0 ∧
    (State.weightTile s c q j).2.far1 = s.far1 ∧ (State.weightTile s c q j).2.mem = s.mem ∧ (State.weightTile s c q
    j).2.cores = s.cores ∧ (State.weightTile s c q j).2.harts = s.harts ∧ (State.weightTile s c q j).2.stations =
    s.stations ∧ (State.weightTile s c q j).2.links = s.links ∧ (State.weightTile s c q j).2.coll = s.coll ∧
    (State.weightTile s c q j).2.fab = s.fab ∧ (State.weightTile s c q j).2.canopy = s.canopy ∧ (State.weightTile s c
    q j).2.rp = s.rp ∧ (State.weightTile s c q j).2.guy = s.guy ∧ (State.weightTile s c q j).2.tt = s.tt ∧
    (State.weightTile s c q j).2.job = s.job ∧ (State.weightTile s c q j).2.pitch = s.pitch ∧ (State.weightTile s c q
    j).2.err = s.err ∧ (State.weightTile s c q j).2.ckpt = s.ckpt ∧ (State.weightTile s c q j).2.outputs = s.outputs ∧
    (State.weightTile s c q j).2.reject = s.reject ∧ (State.weightTile s c q j).2.nacks = s.nacks ∧ (State.weightTile
    s c q j).2.reissues = s.reissues := by
  unfold State.weightTile
  dsimp only
  (repeat' split) <;> simp_all

@[simp] theorem weightLoop_keeps (c lim : Nat) (a1 : Nat) (st : State) (a2 : EngCmd) (a3 : Nat) : (weightLoop c lim a1
    st a2 a3).1.out = st.out ∧ (weightLoop c lim a1 st a2 a3).1.start = st.start ∧ (weightLoop c lim a1 st a2
    a3).1.power = st.power ∧ (weightLoop c lim a1 st a2 a3).1.recorder = st.recorder ∧ (weightLoop c lim a1 st a2
    a3).1.mram = st.mram ∧ (weightLoop c lim a1 st a2 a3).1.sec = st.sec ∧ (weightLoop c lim a1 st a2 a3).1.dict =
    st.dict ∧ (weightLoop c lim a1 st a2 a3).1.hp0 = st.hp0 ∧ (weightLoop c lim a1 st a2 a3).1.hp1 = st.hp1 ∧
    (weightLoop c lim a1 st a2 a3).1.far0 = st.far0 ∧ (weightLoop c lim a1 st a2 a3).1.far1 = st.far1 ∧ (weightLoop c
    lim a1 st a2 a3).1.mem = st.mem ∧ (weightLoop c lim a1 st a2 a3).1.harts = st.harts ∧ (weightLoop c lim a1 st a2
    a3).1.stations = st.stations ∧ (weightLoop c lim a1 st a2 a3).1.links = st.links ∧ (weightLoop c lim a1 st a2
    a3).1.coll = st.coll ∧ (weightLoop c lim a1 st a2 a3).1.fab = st.fab ∧ (weightLoop c lim a1 st a2 a3).1.canopy =
    st.canopy ∧ (weightLoop c lim a1 st a2 a3).1.rp = st.rp ∧ (weightLoop c lim a1 st a2 a3).1.guy = st.guy ∧
    (weightLoop c lim a1 st a2 a3).1.tt = st.tt ∧ (weightLoop c lim a1 st a2 a3).1.job = st.job ∧ (weightLoop c lim a1
    st a2 a3).1.pitch = st.pitch ∧ (weightLoop c lim a1 st a2 a3).1.err = st.err ∧ (weightLoop c lim a1 st a2
    a3).1.ckpt = st.ckpt ∧ (weightLoop c lim a1 st a2 a3).1.outputs = st.outputs ∧ (weightLoop c lim a1 st a2
    a3).1.reject = st.reject ∧ (weightLoop c lim a1 st a2 a3).1.nacks = st.nacks ∧ (weightLoop c lim a1 st a2
    a3).1.reissues = st.reissues := by
  induction a1 generalizing st a2 a3 with
  | zero => simp [weightLoop]
  | succ n ih => simp only [weightLoop]; (repeat' split) <;> simp [ih, ]

@[simp] theorem State.runWload_keeps (s : State) (c : Nat) : (State.runWload s c).power = s.power ∧ (State.runWload s
    c).mram = s.mram ∧ (State.runWload s c).sec = s.sec ∧ (State.runWload s c).hp0 = s.hp0 ∧ (State.runWload s c).hp1
    = s.hp1 ∧ (State.runWload s c).far0 = s.far0 ∧ (State.runWload s c).far1 = s.far1 ∧ (State.runWload s c).mem =
    s.mem ∧ (State.runWload s c).canopy = s.canopy ∧ (State.runWload s c).outputs = s.outputs ∧ (State.runWload s
    c).reject = s.reject := by
  unfold State.runWload
  (repeat' split) <;> simp

@[simp] theorem State.countSector_keeps (s : State) (a len : Nat) (write : Bool) : (State.countSector s a len
    write).out = s.out ∧ (State.countSector s a len write).start = s.start ∧ (State.countSector s a len write).power =
    s.power ∧ (State.countSector s a len write).recorder = s.recorder ∧ (State.countSector s a len write).mram =
    s.mram ∧ (State.countSector s a len write).sec = s.sec ∧ (State.countSector s a len write).dict = s.dict ∧
    (State.countSector s a len write).hp0 = s.hp0 ∧ (State.countSector s a len write).hp1 = s.hp1 ∧ (State.countSector
    s a len write).far0 = s.far0 ∧ (State.countSector s a len write).far1 = s.far1 ∧ (State.countSector s a len
    write).mem = s.mem ∧ (State.countSector s a len write).cores = s.cores ∧ (State.countSector s a len write).harts =
    s.harts ∧ (State.countSector s a len write).stations = s.stations ∧ (State.countSector s a len write).links =
    s.links ∧ (State.countSector s a len write).coll = s.coll ∧ (State.countSector s a len write).fab = s.fab ∧
    (State.countSector s a len write).canopy = s.canopy ∧ (State.countSector s a len write).rp = s.rp ∧
    (State.countSector s a len write).guy = s.guy ∧ (State.countSector s a len write).tt = s.tt ∧ (State.countSector s
    a len write).job = s.job ∧ (State.countSector s a len write).pitch = s.pitch ∧ (State.countSector s a len
    write).err = s.err ∧ (State.countSector s a len write).ckpt = s.ckpt ∧ (State.countSector s a len write).outputs =
    s.outputs ∧ (State.countSector s a len write).reject = s.reject ∧ (State.countSector s a len write).nacks =
    s.nacks ∧ (State.countSector s a len write).reissues = s.reissues := by
  simp [State.countSector]

@[simp] theorem State.countRow_keeps (s : State) (a len : Nat) (write : Bool) : (State.countRow s a len write).out =
    s.out ∧ (State.countRow s a len write).start = s.start ∧ (State.countRow s a len write).power = s.power ∧
    (State.countRow s a len write).recorder = s.recorder ∧ (State.countRow s a len write).mram = s.mram ∧
    (State.countRow s a len write).sec = s.sec ∧ (State.countRow s a len write).dict = s.dict ∧ (State.countRow s a
    len write).hp0 = s.hp0 ∧ (State.countRow s a len write).hp1 = s.hp1 ∧ (State.countRow s a len write).far0 = s.far0
    ∧ (State.countRow s a len write).far1 = s.far1 ∧ (State.countRow s a len write).mem = s.mem ∧ (State.countRow s a
    len write).cores = s.cores ∧ (State.countRow s a len write).harts = s.harts ∧ (State.countRow s a len
    write).stations = s.stations ∧ (State.countRow s a len write).links = s.links ∧ (State.countRow s a len
    write).coll = s.coll ∧ (State.countRow s a len write).fab = s.fab ∧ (State.countRow s a len write).canopy =
    s.canopy ∧ (State.countRow s a len write).rp = s.rp ∧ (State.countRow s a len write).guy = s.guy ∧ (State.countRow
    s a len write).tt = s.tt ∧ (State.countRow s a len write).job = s.job ∧ (State.countRow s a len write).pitch =
    s.pitch ∧ (State.countRow s a len write).err = s.err ∧ (State.countRow s a len write).ckpt = s.ckpt ∧
    (State.countRow s a len write).outputs = s.outputs ∧ (State.countRow s a len write).reject = s.reject ∧
    (State.countRow s a len write).nacks = s.nacks ∧ (State.countRow s a len write).reissues = s.reissues := by
  simp [State.countRow]

@[simp] theorem State.xferRead_keeps (s : State) (c : Nat) (x : Xfer) (i : Nat) : (State.xferRead s c x i).2.out =
    s.out ∧ (State.xferRead s c x i).2.start = s.start ∧ (State.xferRead s c x i).2.power = s.power ∧ (State.xferRead
    s c x i).2.recorder = s.recorder ∧ (State.xferRead s c x i).2.mram = s.mram ∧ (State.xferRead s c x i).2.sec =
    s.sec ∧ (State.xferRead s c x i).2.dict = s.dict ∧ (State.xferRead s c x i).2.hp0 = s.hp0 ∧ (State.xferRead s c x
    i).2.hp1 = s.hp1 ∧ (State.xferRead s c x i).2.far0 = s.far0 ∧ (State.xferRead s c x i).2.far1 = s.far1 ∧
    (State.xferRead s c x i).2.mem = s.mem ∧ (State.xferRead s c x i).2.cores = s.cores ∧ (State.xferRead s c x
    i).2.harts = s.harts ∧ (State.xferRead s c x i).2.stations = s.stations ∧ (State.xferRead s c x i).2.links =
    s.links ∧ (State.xferRead s c x i).2.coll = s.coll ∧ (State.xferRead s c x i).2.fab = s.fab ∧ (State.xferRead s c
    x i).2.canopy = s.canopy ∧ (State.xferRead s c x i).2.rp = s.rp ∧ (State.xferRead s c x i).2.guy = s.guy ∧
    (State.xferRead s c x i).2.tt = s.tt ∧ (State.xferRead s c x i).2.job = s.job ∧ (State.xferRead s c x i).2.pitch =
    s.pitch ∧ (State.xferRead s c x i).2.err = s.err ∧ (State.xferRead s c x i).2.ckpt = s.ckpt ∧ (State.xferRead s c
    x i).2.outputs = s.outputs ∧ (State.xferRead s c x i).2.reject = s.reject ∧ (State.xferRead s c x i).2.nacks =
    s.nacks ∧ (State.xferRead s c x i).2.reissues = s.reissues := by
  unfold State.xferRead
  (repeat' split) <;> simp

@[simp] theorem State.hostRow_keeps (s : State) (c : Nat) (x : Xfer) (i : Nat) (bs : List Byte) : (State.hostRow s c x
    i bs).out = s.out ∧ (State.hostRow s c x i bs).start = s.start ∧ (State.hostRow s c x i bs).power = s.power ∧
    (State.hostRow s c x i bs).recorder = s.recorder ∧ (State.hostRow s c x i bs).mram = s.mram ∧ (State.hostRow s c x
    i bs).sec = s.sec ∧ (State.hostRow s c x i bs).dict = s.dict ∧ (State.hostRow s c x i bs).hp0 = s.hp0 ∧
    (State.hostRow s c x i bs).hp1 = s.hp1 ∧ (State.hostRow s c x i bs).far0 = s.far0 ∧ (State.hostRow s c x i
    bs).far1 = s.far1 ∧ (State.hostRow s c x i bs).hbm = s.hbm ∧ (State.hostRow s c x i bs).mem = s.mem ∧
    (State.hostRow s c x i bs).cores = s.cores ∧ (State.hostRow s c x i bs).harts = s.harts ∧ (State.hostRow s c x i
    bs).stations = s.stations ∧ (State.hostRow s c x i bs).links = s.links ∧ (State.hostRow s c x i bs).coll = s.coll
    ∧ (State.hostRow s c x i bs).fab = s.fab ∧ (State.hostRow s c x i bs).canopy = s.canopy ∧ (State.hostRow s c x i
    bs).rp = s.rp ∧ (State.hostRow s c x i bs).guy = s.guy ∧ (State.hostRow s c x i bs).tt = s.tt ∧ (State.hostRow s c
    x i bs).job = s.job ∧ (State.hostRow s c x i bs).pitch = s.pitch ∧ (State.hostRow s c x i bs).err = s.err ∧
    (State.hostRow s c x i bs).ckpt = s.ckpt ∧ (State.hostRow s c x i bs).reject = s.reject ∧ (State.hostRow s c x i
    bs).nacks = s.nacks ∧ (State.hostRow s c x i bs).reissues = s.reissues := by
  simp [State.hostRow]

@[simp] theorem State.xferWrite_keeps (s : State) (c : Nat) (x : Xfer) (i : Nat) (bs : List Byte) : (State.xferWrite s
    c x i bs).out = s.out ∧ (State.xferWrite s c x i bs).start = s.start ∧ (State.xferWrite s c x i bs).power =
    s.power ∧ (State.xferWrite s c x i bs).recorder = s.recorder ∧ (State.xferWrite s c x i bs).mram = s.mram ∧
    (State.xferWrite s c x i bs).sec = s.sec ∧ (State.xferWrite s c x i bs).dict = s.dict ∧ (State.xferWrite s c x i
    bs).hp0 = s.hp0 ∧ (State.xferWrite s c x i bs).hp1 = s.hp1 ∧ (State.xferWrite s c x i bs).far0 = s.far0 ∧
    (State.xferWrite s c x i bs).far1 = s.far1 ∧ (State.xferWrite s c x i bs).stations = s.stations ∧ (State.xferWrite
    s c x i bs).links = s.links ∧ (State.xferWrite s c x i bs).coll = s.coll ∧ (State.xferWrite s c x i bs).fab =
    s.fab ∧ (State.xferWrite s c x i bs).canopy = s.canopy ∧ (State.xferWrite s c x i bs).rp = s.rp ∧ (State.xferWrite
    s c x i bs).guy = s.guy ∧ (State.xferWrite s c x i bs).tt = s.tt ∧ (State.xferWrite s c x i bs).job = s.job ∧
    (State.xferWrite s c x i bs).pitch = s.pitch ∧ (State.xferWrite s c x i bs).err = s.err ∧ (State.xferWrite s c x i
    bs).ckpt = s.ckpt ∧ (State.xferWrite s c x i bs).reject = s.reject ∧ (State.xferWrite s c x i bs).nacks = s.nacks
    ∧ (State.xferWrite s c x i bs).reissues = s.reissues := by
  simp [State.xferWrite]

@[simp] theorem moveRows_keeps (c : Nat) (x : Xfer) (lim : Nat) (a1 : Nat) (a2 : Nat) (st : State) : (moveRows c x lim
    a1 a2 st).out = st.out ∧ (moveRows c x lim a1 a2 st).start = st.start ∧ (moveRows c x lim a1 a2 st).power =
    st.power ∧ (moveRows c x lim a1 a2 st).recorder = st.recorder ∧ (moveRows c x lim a1 a2 st).mram = st.mram ∧
    (moveRows c x lim a1 a2 st).sec = st.sec ∧ (moveRows c x lim a1 a2 st).dict = st.dict ∧ (moveRows c x lim a1 a2
    st).hp0 = st.hp0 ∧ (moveRows c x lim a1 a2 st).hp1 = st.hp1 ∧ (moveRows c x lim a1 a2 st).far0 = st.far0 ∧
    (moveRows c x lim a1 a2 st).far1 = st.far1 ∧ (moveRows c x lim a1 a2 st).stations = st.stations ∧ (moveRows c x
    lim a1 a2 st).links = st.links ∧ (moveRows c x lim a1 a2 st).coll = st.coll ∧ (moveRows c x lim a1 a2 st).fab =
    st.fab ∧ (moveRows c x lim a1 a2 st).canopy = st.canopy ∧ (moveRows c x lim a1 a2 st).rp = st.rp ∧ (moveRows c x
    lim a1 a2 st).guy = st.guy ∧ (moveRows c x lim a1 a2 st).tt = st.tt ∧ (moveRows c x lim a1 a2 st).job = st.job ∧
    (moveRows c x lim a1 a2 st).pitch = st.pitch ∧ (moveRows c x lim a1 a2 st).err = st.err ∧ (moveRows c x lim a1 a2
    st).ckpt = st.ckpt ∧ (moveRows c x lim a1 a2 st).reject = st.reject ∧ (moveRows c x lim a1 a2 st).nacks = st.nacks
    ∧ (moveRows c x lim a1 a2 st).reissues = st.reissues := by
  induction a1 generalizing a2 st with
  | zero => simp [moveRows]
  | succ n ih => simp only [moveRows]; (repeat' split) <;> simp [ih, ]

@[simp] theorem sendRows_keeps (c : Nat) (x : Xfer) (a1 : Nat) (st : State) (a2 : EngCmd) : (sendRows c x a1 st
    a2).1.out = st.out ∧ (sendRows c x a1 st a2).1.start = st.start ∧ (sendRows c x a1 st a2).1.power = st.power ∧
    (sendRows c x a1 st a2).1.recorder = st.recorder ∧ (sendRows c x a1 st a2).1.mram = st.mram ∧ (sendRows c x a1 st
    a2).1.sec = st.sec ∧ (sendRows c x a1 st a2).1.dict = st.dict ∧ (sendRows c x a1 st a2).1.hp0 = st.hp0 ∧ (sendRows
    c x a1 st a2).1.hp1 = st.hp1 ∧ (sendRows c x a1 st a2).1.far0 = st.far0 ∧ (sendRows c x a1 st a2).1.far1 = st.far1
    ∧ (sendRows c x a1 st a2).1.mem = st.mem ∧ (sendRows c x a1 st a2).1.harts = st.harts ∧ (sendRows c x a1 st
    a2).1.stations = st.stations ∧ (sendRows c x a1 st a2).1.links = st.links ∧ (sendRows c x a1 st a2).1.coll =
    st.coll ∧ (sendRows c x a1 st a2).1.fab = st.fab ∧ (sendRows c x a1 st a2).1.canopy = st.canopy ∧ (sendRows c x a1
    st a2).1.rp = st.rp ∧ (sendRows c x a1 st a2).1.guy = st.guy ∧ (sendRows c x a1 st a2).1.tt = st.tt ∧ (sendRows c
    x a1 st a2).1.job = st.job ∧ (sendRows c x a1 st a2).1.pitch = st.pitch ∧ (sendRows c x a1 st a2).1.err = st.err ∧
    (sendRows c x a1 st a2).1.ckpt = st.ckpt ∧ (sendRows c x a1 st a2).1.outputs = st.outputs ∧ (sendRows c x a1 st
    a2).1.reject = st.reject ∧ (sendRows c x a1 st a2).1.nacks = st.nacks ∧ (sendRows c x a1 st a2).1.reissues =
    st.reissues := by
  induction a1 generalizing st a2 with
  | zero => simp [sendRows]
  | succ n ih =>
    simp only [sendRows]
    split
    · simp
    · split
      · rename_i s2 h
        have := ingress_keeps h
        simp_all
      · simp

@[simp] theorem drainTiles_keeps (c : Nat) (x : Xfer) (a1 : Nat) (a2 : Nat) (st : State) : (drainTiles c x a1 a2
    st).2.out = st.out ∧ (drainTiles c x a1 a2 st).2.start = st.start ∧ (drainTiles c x a1 a2 st).2.power = st.power ∧
    (drainTiles c x a1 a2 st).2.recorder = st.recorder ∧ (drainTiles c x a1 a2 st).2.mram = st.mram ∧ (drainTiles c x
    a1 a2 st).2.sec = st.sec ∧ (drainTiles c x a1 a2 st).2.dict = st.dict ∧ (drainTiles c x a1 a2 st).2.hp0 = st.hp0 ∧
    (drainTiles c x a1 a2 st).2.hp1 = st.hp1 ∧ (drainTiles c x a1 a2 st).2.far0 = st.far0 ∧ (drainTiles c x a1 a2
    st).2.far1 = st.far1 ∧ (drainTiles c x a1 a2 st).2.stations = st.stations ∧ (drainTiles c x a1 a2 st).2.links =
    st.links ∧ (drainTiles c x a1 a2 st).2.coll = st.coll ∧ (drainTiles c x a1 a2 st).2.fab = st.fab ∧ (drainTiles c x
    a1 a2 st).2.canopy = st.canopy ∧ (drainTiles c x a1 a2 st).2.rp = st.rp ∧ (drainTiles c x a1 a2 st).2.guy = st.guy
    ∧ (drainTiles c x a1 a2 st).2.tt = st.tt ∧ (drainTiles c x a1 a2 st).2.job = st.job ∧ (drainTiles c x a1 a2
    st).2.pitch = st.pitch ∧ (drainTiles c x a1 a2 st).2.err = st.err ∧ (drainTiles c x a1 a2 st).2.ckpt = st.ckpt ∧
    (drainTiles c x a1 a2 st).2.reject = st.reject ∧ (drainTiles c x a1 a2 st).2.nacks = st.nacks ∧ (drainTiles c x a1
    a2 st).2.reissues = st.reissues := by
  induction a1 generalizing a2 st with
  | zero => simp [drainTiles]
  | succ n ih => simp only [drainTiles]; (repeat' split) <;> simp [ih, ]

@[simp] theorem State.runXfer_keeps (s : State) (c : Nat) : (State.runXfer s c).power = s.power ∧ (State.runXfer s
    c).mram = s.mram ∧ (State.runXfer s c).sec = s.sec ∧ (State.runXfer s c).hp0 = s.hp0 ∧ (State.runXfer s c).hp1 =
    s.hp1 ∧ (State.runXfer s c).far0 = s.far0 ∧ (State.runXfer s c).far1 = s.far1 ∧ (State.runXfer s c).canopy =
    s.canopy ∧ (State.runXfer s c).reject = s.reject := by
  unfold State.runXfer
  (repeat' split) <;> simp

@[simp] theorem State.putSolve_keeps (s : State) (d : Nat) (x : Solve) : (State.putSolve s d x).out = s.out ∧
    (State.putSolve s d x).start = s.start ∧ (State.putSolve s d x).power = s.power ∧ (State.putSolve s d x).recorder
    = s.recorder ∧ (State.putSolve s d x).mram = s.mram ∧ (State.putSolve s d x).sec = s.sec ∧ (State.putSolve s d
    x).dict = s.dict ∧ (State.putSolve s d x).hp0 = s.hp0 ∧ (State.putSolve s d x).hp1 = s.hp1 ∧ (State.putSolve s d
    x).far0 = s.far0 ∧ (State.putSolve s d x).far1 = s.far1 ∧ (State.putSolve s d x).hbm = s.hbm ∧
    (State.putSolve s d x).mem = s.mem ∧ (State.putSolve s d x).cores = s.cores ∧ (State.putSolve s d x).harts =
    s.harts ∧ (State.putSolve s d x).stations = s.stations ∧ (State.putSolve s d x).coll = s.coll ∧ (State.putSolve s
    d x).fab = s.fab ∧ (State.putSolve s d x).canopy = s.canopy ∧ (State.putSolve s d x).rp = s.rp ∧ (State.putSolve s
    d x).guy = s.guy ∧ (State.putSolve s d x).tt = s.tt ∧ (State.putSolve s d x).job = s.job ∧ (State.putSolve s d
    x).pitch = s.pitch ∧ (State.putSolve s d x).err = s.err ∧ (State.putSolve s d x).ckpt = s.ckpt ∧ (State.putSolve s
    d x).outputs = s.outputs ∧ (State.putSolve s d x).reject = s.reject ∧ (State.putSolve s d x).nacks = s.nacks ∧
    (State.putSolve s d x).reissues = s.reissues := by
  simp [State.putSolve]

@[simp] theorem State.dropProblem_keeps (s : State) (d code : Nat) (parity : Bool) : (State.dropProblem s d code
    parity).power = s.power ∧ (State.dropProblem s d code parity).mram = s.mram ∧ (State.dropProblem s d code
    parity).sec = s.sec ∧ (State.dropProblem s d code parity).dict = s.dict ∧ (State.dropProblem s d code parity).hp0
    = s.hp0 ∧ (State.dropProblem s d code parity).hp1 = s.hp1 ∧ (State.dropProblem s d code parity).far0 = s.far0 ∧
    (State.dropProblem s d code parity).far1 = s.far1 ∧ (State.dropProblem s d code parity).hbm = s.hbm ∧
    (State.dropProblem s d code parity).mem = s.mem ∧ (State.dropProblem s d code parity).canopy = s.canopy ∧
    (State.dropProblem s d code parity).outputs = s.outputs ∧ (State.dropProblem s d code parity).reject = s.reject :=
    by
  unfold State.dropProblem
  (repeat' split) <;> simp

@[simp] theorem State.finishSolve_keeps (s : State) (d : Nat) (p : LinkProb) (sc : Schedule) (x : Solve) (e :
    SolveEnd) : (State.finishSolve s d p sc x e).out = s.out ∧ (State.finishSolve s d p sc x e).start = s.start ∧
    (State.finishSolve s d p sc x e).power = s.power ∧ (State.finishSolve s d p sc x e).recorder = s.recorder ∧
    (State.finishSolve s d p sc x e).mram = s.mram ∧ (State.finishSolve s d p sc x e).sec = s.sec ∧ (State.finishSolve
    s d p sc x e).dict = s.dict ∧ (State.finishSolve s d p sc x e).hp0 = s.hp0 ∧ (State.finishSolve s d p sc x e).hp1
    = s.hp1 ∧ (State.finishSolve s d p sc x e).far0 = s.far0 ∧ (State.finishSolve s d p sc x e).far1 = s.far1 ∧
    (State.finishSolve s d p sc x e).stations = s.stations ∧ (State.finishSolve s d p sc x e).coll = s.coll ∧
    (State.finishSolve s d p sc x e).fab = s.fab ∧ (State.finishSolve s d p sc x e).canopy = s.canopy ∧
    (State.finishSolve s d p sc x e).rp = s.rp ∧ (State.finishSolve s d p sc x e).guy = s.guy ∧ (State.finishSolve s d
    p sc x e).tt = s.tt ∧ (State.finishSolve s d p sc x e).job = s.job ∧ (State.finishSolve s d p sc x e).pitch =
    s.pitch ∧ (State.finishSolve s d p sc x e).err = s.err ∧ (State.finishSolve s d p sc x e).ckpt = s.ckpt ∧
    (State.finishSolve s d p sc x e).outputs = s.outputs ∧ (State.finishSolve s d p sc x e).reject = s.reject ∧
    (State.finishSolve s d p sc x e).nacks = s.nacks ∧ (State.finishSolve s d p sc x e).reissues = s.reissues := by
  unfold State.finishSolve; dsimp only
  split <;> simp []

@[simp] theorem State.modCtx_keeps (s : State) (n id : Nat) (f : ConvCtx → ConvCtx) : (State.modCtx s n id f).out =
    s.out ∧ (State.modCtx s n id f).start = s.start ∧ (State.modCtx s n id f).power = s.power ∧ (State.modCtx s n id
    f).recorder = s.recorder ∧ (State.modCtx s n id f).mram = s.mram ∧ (State.modCtx s n id f).sec = s.sec ∧
    (State.modCtx s n id f).dict = s.dict ∧ (State.modCtx s n id f).hp0 = s.hp0 ∧ (State.modCtx s n id f).hp1 = s.hp1
    ∧ (State.modCtx s n id f).far0 = s.far0 ∧ (State.modCtx s n id f).far1 = s.far1 ∧ (State.modCtx s n id f).hbm =
    s.hbm ∧ (State.modCtx s n id f).mem = s.mem ∧ (State.modCtx s n id f).cores = s.cores ∧ (State.modCtx s n id
    f).harts = s.harts ∧ (State.modCtx s n id f).links = s.links ∧ (State.modCtx s n id f).coll = s.coll ∧
    (State.modCtx s n id f).fab = s.fab ∧ (State.modCtx s n id f).canopy = s.canopy ∧ (State.modCtx s n id f).rp =
    s.rp ∧ (State.modCtx s n id f).guy = s.guy ∧ (State.modCtx s n id f).tt = s.tt ∧ (State.modCtx s n id f).job =
    s.job ∧ (State.modCtx s n id f).pitch = s.pitch ∧ (State.modCtx s n id f).err = s.err ∧ (State.modCtx s n id
    f).ckpt = s.ckpt ∧ (State.modCtx s n id f).outputs = s.outputs ∧ (State.modCtx s n id f).reject = s.reject ∧
    (State.modCtx s n id f).nacks = s.nacks ∧ (State.modCtx s n id f).reissues = s.reissues := by
  simp [State.modCtx]

@[simp] theorem State.freeCtx_keeps (s : State) (n id : Nat) : (State.freeCtx s n id).out = s.out ∧ (State.freeCtx s n
    id).start = s.start ∧ (State.freeCtx s n id).power = s.power ∧ (State.freeCtx s n id).recorder = s.recorder ∧
    (State.freeCtx s n id).mram = s.mram ∧ (State.freeCtx s n id).sec = s.sec ∧ (State.freeCtx s n id).dict = s.dict ∧
    (State.freeCtx s n id).hp0 = s.hp0 ∧ (State.freeCtx s n id).hp1 = s.hp1 ∧ (State.freeCtx s n id).far0 = s.far0 ∧
    (State.freeCtx s n id).far1 = s.far1 ∧ (State.freeCtx s n id).hbm = s.hbm ∧ (State.freeCtx s n id).mem =
    s.mem ∧ (State.freeCtx s n id).cores = s.cores ∧ (State.freeCtx s n id).harts = s.harts ∧ (State.freeCtx s n
    id).links = s.links ∧ (State.freeCtx s n id).coll = s.coll ∧ (State.freeCtx s n id).fab = s.fab ∧ (State.freeCtx s
    n id).canopy = s.canopy ∧ (State.freeCtx s n id).rp = s.rp ∧ (State.freeCtx s n id).guy = s.guy ∧ (State.freeCtx s
    n id).tt = s.tt ∧ (State.freeCtx s n id).job = s.job ∧ (State.freeCtx s n id).pitch = s.pitch ∧ (State.freeCtx s n
    id).err = s.err ∧ (State.freeCtx s n id).ckpt = s.ckpt ∧ (State.freeCtx s n id).outputs = s.outputs ∧
    (State.freeCtx s n id).reject = s.reject ∧ (State.freeCtx s n id).nacks = s.nacks ∧ (State.freeCtx s n
    id).reissues = s.reissues := by
  simp [State.freeCtx]

@[simp] theorem State.convError_keeps (s : State) (n id code desc : Nat) : (State.convError s n id code desc).power =
    s.power ∧ (State.convError s n id code desc).mram = s.mram ∧ (State.convError s n id code desc).sec = s.sec ∧
    (State.convError s n id code desc).dict = s.dict ∧ (State.convError s n id code desc).hp0 = s.hp0 ∧
    (State.convError s n id code desc).hp1 = s.hp1 ∧ (State.convError s n id code desc).far0 = s.far0 ∧
    (State.convError s n id code desc).far1 = s.far1 ∧ (State.convError s n id code desc).hbm = s.hbm ∧
    (State.convError s n id code desc).mem = s.mem ∧ (State.convError s n id code desc).canopy = s.canopy ∧
    (State.convError s n id code desc).outputs = s.outputs ∧ (State.convError s n id code desc).reject = s.reject :=
    by
  simp [State.convError]

@[simp] theorem State.convSend_keeps (s : State) (n id c addr repoch : Nat) (bs : List Byte) (flag cnt : Option Nat) :
    (State.convSend s n id c addr repoch bs flag cnt).out = s.out ∧ (State.convSend s n id c addr repoch bs flag
    cnt).start = s.start ∧ (State.convSend s n id c addr repoch bs flag cnt).power = s.power ∧ (State.convSend s n id
    c addr repoch bs flag cnt).recorder = s.recorder ∧ (State.convSend s n id c addr repoch bs flag cnt).mram = s.mram
    ∧ (State.convSend s n id c addr repoch bs flag cnt).sec = s.sec ∧ (State.convSend s n id c addr repoch bs flag
    cnt).dict = s.dict ∧ (State.convSend s n id c addr repoch bs flag cnt).hp0 = s.hp0 ∧ (State.convSend s n id c addr
    repoch bs flag cnt).hp1 = s.hp1 ∧ (State.convSend s n id c addr repoch bs flag cnt).far0 = s.far0 ∧
    (State.convSend s n id c addr repoch bs flag cnt).far1 = s.far1 ∧ (State.convSend s n id c addr repoch bs flag
    cnt).hbm = s.hbm ∧ (State.convSend s n id c addr repoch bs flag cnt).mem = s.mem ∧ (State.convSend s n id c
    addr repoch bs flag cnt).harts = s.harts ∧ (State.convSend s n id c addr repoch bs flag cnt).links = s.links ∧
    (State.convSend s n id c addr repoch bs flag cnt).coll = s.coll ∧ (State.convSend s n id c addr repoch bs flag
    cnt).fab = s.fab ∧ (State.convSend s n id c addr repoch bs flag cnt).canopy = s.canopy ∧ (State.convSend s n id c
    addr repoch bs flag cnt).rp = s.rp ∧ (State.convSend s n id c addr repoch bs flag cnt).guy = s.guy ∧
    (State.convSend s n id c addr repoch bs flag cnt).tt = s.tt ∧ (State.convSend s n id c addr repoch bs flag
    cnt).job = s.job ∧ (State.convSend s n id c addr repoch bs flag cnt).pitch = s.pitch ∧ (State.convSend s n id c
    addr repoch bs flag cnt).err = s.err ∧ (State.convSend s n id c addr repoch bs flag cnt).ckpt = s.ckpt ∧
    (State.convSend s n id c addr repoch bs flag cnt).outputs = s.outputs ∧ (State.convSend s n id c addr repoch bs
    flag cnt).reject = s.reject ∧ (State.convSend s n id c addr repoch bs flag cnt).nacks = s.nacks ∧ (State.convSend
    s n id c addr repoch bs flag cnt).reissues = s.reissues := by
  unfold State.convSend State.ingress; dsimp only
  by_cases h : (s.core c).ingress.length < 32
  · simp only [h, if_true]; split <;> simp
  · simp [h]

@[simp] theorem convFlags_keeps (n id : Nat) (d : ConvDesc) (a1 : Nat) (st : State) : (convFlags n id d a1 st).out =
    st.out ∧ (convFlags n id d a1 st).start = st.start ∧ (convFlags n id d a1 st).power = st.power ∧ (convFlags n id d
    a1 st).recorder = st.recorder ∧ (convFlags n id d a1 st).mram = st.mram ∧ (convFlags n id d a1 st).sec = st.sec ∧
    (convFlags n id d a1 st).dict = st.dict ∧ (convFlags n id d a1 st).hp0 = st.hp0 ∧ (convFlags n id d a1 st).hp1 =
    st.hp1 ∧ (convFlags n id d a1 st).far0 = st.far0 ∧ (convFlags n id d a1 st).far1 = st.far1 ∧ (convFlags n id d a1
    st).hbm = st.hbm ∧ (convFlags n id d a1 st).mem = st.mem ∧ (convFlags n id d a1 st).harts = st.harts ∧
    (convFlags n id d a1 st).links = st.links ∧ (convFlags n id d a1 st).coll = st.coll ∧ (convFlags n id d a1 st).fab
    = st.fab ∧ (convFlags n id d a1 st).canopy = st.canopy ∧ (convFlags n id d a1 st).rp = st.rp ∧ (convFlags n id d
    a1 st).guy = st.guy ∧ (convFlags n id d a1 st).tt = st.tt ∧ (convFlags n id d a1 st).job = st.job ∧ (convFlags n
    id d a1 st).pitch = st.pitch ∧ (convFlags n id d a1 st).err = st.err ∧ (convFlags n id d a1 st).ckpt = st.ckpt ∧
    (convFlags n id d a1 st).outputs = st.outputs ∧ (convFlags n id d a1 st).reject = st.reject ∧ (convFlags n id d a1
    st).nacks = st.nacks ∧ (convFlags n id d a1 st).reissues = st.reissues := by
  induction a1 generalizing st with
  | zero => simp [convFlags]
  | succ n ih => simp only [convFlags]; (repeat' split) <;> simp [ih, ]

@[simp] theorem deliverRows_keeps (n id : Nat) (d : ConvDesc) (a1 : Nat) (st : State) : (deliverRows n id d a1 st).out
    = st.out ∧ (deliverRows n id d a1 st).start = st.start ∧ (deliverRows n id d a1 st).power = st.power ∧
    (deliverRows n id d a1 st).recorder = st.recorder ∧ (deliverRows n id d a1 st).mram = st.mram ∧ (deliverRows n id
    d a1 st).sec = st.sec ∧ (deliverRows n id d a1 st).dict = st.dict ∧ (deliverRows n id d a1 st).hp0 = st.hp0 ∧
    (deliverRows n id d a1 st).hp1 = st.hp1 ∧ (deliverRows n id d a1 st).far0 = st.far0 ∧ (deliverRows n id d a1
    st).far1 = st.far1 ∧ (deliverRows n id d a1 st).mem = st.mem ∧ (deliverRows n id d a1 st).harts = st.harts ∧
    (deliverRows n id d a1 st).links = st.links ∧ (deliverRows n id d a1 st).coll = st.coll ∧ (deliverRows n id d a1
    st).fab = st.fab ∧ (deliverRows n id d a1 st).canopy = st.canopy ∧ (deliverRows n id d a1 st).rp = st.rp ∧
    (deliverRows n id d a1 st).guy = st.guy ∧ (deliverRows n id d a1 st).tt = st.tt ∧ (deliverRows n id d a1 st).job =
    st.job ∧ (deliverRows n id d a1 st).pitch = st.pitch ∧ (deliverRows n id d a1 st).err = st.err ∧ (deliverRows n id
    d a1 st).ckpt = st.ckpt ∧ (deliverRows n id d a1 st).outputs = st.outputs ∧ (deliverRows n id d a1 st).reject =
    st.reject ∧ (deliverRows n id d a1 st).nacks = st.nacks ∧ (deliverRows n id d a1 st).reissues = st.reissues := by
  induction a1 generalizing st with
  | zero => simp [deliverRows]
  | succ n ih => simp only [deliverRows]; (repeat' split) <;> simp [ih, ]

@[simp] theorem State.widenWrite_keeps (s : State) (d : ConvDesc) (aff : List Byte) (pair : Bool) (r : Nat) (xs : List
    Nat) : (State.widenWrite s d aff pair r xs).out = s.out ∧ (State.widenWrite s d aff pair r xs).start = s.start ∧
    (State.widenWrite s d aff pair r xs).power = s.power ∧ (State.widenWrite s d aff pair r xs).recorder = s.recorder
    ∧ (State.widenWrite s d aff pair r xs).mram = s.mram ∧ (State.widenWrite s d aff pair r xs).sec = s.sec ∧
    (State.widenWrite s d aff pair r xs).dict = s.dict ∧ (State.widenWrite s d aff pair r xs).hp0 = s.hp0 ∧
    (State.widenWrite s d aff pair r xs).hp1 = s.hp1 ∧ (State.widenWrite s d aff pair r xs).far0 = s.far0 ∧
    (State.widenWrite s d aff pair r xs).far1 = s.far1 ∧ (State.widenWrite s d aff pair r xs).cores = s.cores ∧
    (State.widenWrite s d aff pair r xs).stations = s.stations ∧ (State.widenWrite s d aff pair r xs).links = s.links
    ∧ (State.widenWrite s d aff pair r xs).coll = s.coll ∧ (State.widenWrite s d aff pair r xs).fab = s.fab ∧
    (State.widenWrite s d aff pair r xs).canopy = s.canopy ∧ (State.widenWrite s d aff pair r xs).rp = s.rp ∧
    (State.widenWrite s d aff pair r xs).guy = s.guy ∧ (State.widenWrite s d aff pair r xs).tt = s.tt ∧
    (State.widenWrite s d aff pair r xs).job = s.job ∧ (State.widenWrite s d aff pair r xs).pitch = s.pitch ∧
    (State.widenWrite s d aff pair r xs).err = s.err ∧ (State.widenWrite s d aff pair r xs).ckpt = s.ckpt ∧
    (State.widenWrite s d aff pair r xs).outputs = s.outputs ∧ (State.widenWrite s d aff pair r xs).reject = s.reject
    ∧ (State.widenWrite s d aff pair r xs).nacks = s.nacks ∧ (State.widenWrite s d aff pair r xs).reissues =
    s.reissues := by
  simp [State.widenWrite]

@[simp] theorem State.widenRows_keeps (s : State) (n id : Nat) (d : ConvDesc) : (State.widenRows s n id d).out = s.out
    ∧ (State.widenRows s n id d).start = s.start ∧ (State.widenRows s n id d).power = s.power ∧ (State.widenRows s n
    id d).recorder = s.recorder ∧ (State.widenRows s n id d).mram = s.mram ∧ (State.widenRows s n id d).sec = s.sec ∧
    (State.widenRows s n id d).dict = s.dict ∧ (State.widenRows s n id d).hp0 = s.hp0 ∧ (State.widenRows s n id d).hp1
    = s.hp1 ∧ (State.widenRows s n id d).far0 = s.far0 ∧ (State.widenRows s n id d).far1 = s.far1 ∧ (State.widenRows s
    n id d).cores = s.cores ∧ (State.widenRows s n id d).links = s.links ∧ (State.widenRows s n id d).coll = s.coll ∧
    (State.widenRows s n id d).fab = s.fab ∧ (State.widenRows s n id d).canopy = s.canopy ∧ (State.widenRows s n id
    d).rp = s.rp ∧ (State.widenRows s n id d).guy = s.guy ∧ (State.widenRows s n id d).tt = s.tt ∧ (State.widenRows s
    n id d).job = s.job ∧ (State.widenRows s n id d).pitch = s.pitch ∧ (State.widenRows s n id d).err = s.err ∧
    (State.widenRows s n id d).ckpt = s.ckpt ∧ (State.widenRows s n id d).outputs = s.outputs ∧ (State.widenRows s n
    id d).reject = s.reject ∧ (State.widenRows s n id d).nacks = s.nacks ∧ (State.widenRows s n id d).reissues =
    s.reissues := by
  unfold State.widenRows
  try dsimp only
  (repeat' split) <;> simp []

@[simp] theorem widenTiles_keeps (n id : Nat) (d : ConvDesc) (a1 : Nat) (st : State) : (widenTiles n id d a1 st).power
    = st.power ∧ (widenTiles n id d a1 st).mram = st.mram ∧ (widenTiles n id d a1 st).sec = st.sec ∧ (widenTiles n id
    d a1 st).hp0 = st.hp0 ∧ (widenTiles n id d a1 st).hp1 = st.hp1 ∧ (widenTiles n id d a1 st).far0 = st.far0 ∧
    (widenTiles n id d a1 st).far1 = st.far1 ∧ (widenTiles n id d a1 st).canopy = st.canopy ∧ (widenTiles n id d a1
    st).outputs = st.outputs ∧ (widenTiles n id d a1 st).reject = st.reject := by
  induction a1 generalizing st with
  | zero => simp [widenTiles]
  | succ n ih => simp only [widenTiles]; (repeat' split) <;> simp [ih, ]

@[simp] theorem State.convRetire_keeps (s : State) (n id : Nat) : (State.convRetire s n id).out = s.out ∧
    (State.convRetire s n id).start = s.start ∧ (State.convRetire s n id).power = s.power ∧ (State.convRetire s n
    id).recorder = s.recorder ∧ (State.convRetire s n id).mram = s.mram ∧ (State.convRetire s n id).sec = s.sec ∧
    (State.convRetire s n id).dict = s.dict ∧ (State.convRetire s n id).hp0 = s.hp0 ∧ (State.convRetire s n id).hp1 =
    s.hp1 ∧ (State.convRetire s n id).far0 = s.far0 ∧ (State.convRetire s n id).far1 = s.far1 ∧ (State.convRetire s n
    id).hbm = s.hbm ∧ (State.convRetire s n id).mem = s.mem ∧ (State.convRetire s n id).cores = s.cores ∧
    (State.convRetire s n id).harts = s.harts ∧ (State.convRetire s n id).links = s.links ∧ (State.convRetire s n
    id).coll = s.coll ∧ (State.convRetire s n id).fab = s.fab ∧ (State.convRetire s n id).canopy = s.canopy ∧
    (State.convRetire s n id).rp = s.rp ∧ (State.convRetire s n id).guy = s.guy ∧ (State.convRetire s n id).tt = s.tt
    ∧ (State.convRetire s n id).job = s.job ∧ (State.convRetire s n id).pitch = s.pitch ∧ (State.convRetire s n
    id).err = s.err ∧ (State.convRetire s n id).ckpt = s.ckpt ∧ (State.convRetire s n id).outputs = s.outputs ∧
    (State.convRetire s n id).reject = s.reject ∧ (State.convRetire s n id).nacks = s.nacks ∧ (State.convRetire s n
    id).reissues = s.reissues := by
  simp [State.convRetire]

@[simp] theorem State.widenDone_keeps (s : State) (n id : Nat) (d : ConvDesc) : (State.widenDone s n id d).out = s.out
    ∧ (State.widenDone s n id d).start = s.start ∧ (State.widenDone s n id d).power = s.power ∧ (State.widenDone s n
    id d).recorder = s.recorder ∧ (State.widenDone s n id d).mram = s.mram ∧ (State.widenDone s n id d).sec = s.sec ∧
    (State.widenDone s n id d).dict = s.dict ∧ (State.widenDone s n id d).hp0 = s.hp0 ∧ (State.widenDone s n id d).hp1
    = s.hp1 ∧ (State.widenDone s n id d).far0 = s.far0 ∧ (State.widenDone s n id d).far1 = s.far1 ∧ (State.widenDone s
    n id d).hbm = s.hbm ∧ (State.widenDone s n id d).links = s.links ∧ (State.widenDone s n id d).coll = s.coll
    ∧ (State.widenDone s n id d).fab = s.fab ∧ (State.widenDone s n id d).canopy = s.canopy ∧ (State.widenDone s n id
    d).rp = s.rp ∧ (State.widenDone s n id d).guy = s.guy ∧ (State.widenDone s n id d).tt = s.tt ∧ (State.widenDone s
    n id d).job = s.job ∧ (State.widenDone s n id d).pitch = s.pitch ∧ (State.widenDone s n id d).err = s.err ∧
    (State.widenDone s n id d).ckpt = s.ckpt ∧ (State.widenDone s n id d).outputs = s.outputs ∧ (State.widenDone s n
    id d).reject = s.reject ∧ (State.widenDone s n id d).nacks = s.nacks ∧ (State.widenDone s n id d).reissues =
    s.reissues := by
  simp [State.widenDone]

@[simp] theorem State.addUnacked_keeps (s : State) (src : Nat) : (State.addUnacked s src).out = s.out ∧
    (State.addUnacked s src).start = s.start ∧ (State.addUnacked s src).power = s.power ∧ (State.addUnacked s
    src).recorder = s.recorder ∧ (State.addUnacked s src).mram = s.mram ∧ (State.addUnacked s src).sec = s.sec ∧
    (State.addUnacked s src).dict = s.dict ∧ (State.addUnacked s src).hp0 = s.hp0 ∧ (State.addUnacked s src).hp1 =
    s.hp1 ∧ (State.addUnacked s src).far0 = s.far0 ∧ (State.addUnacked s src).far1 = s.far1 ∧ (State.addUnacked s
    src).hbm = s.hbm ∧ (State.addUnacked s src).mem = s.mem ∧ (State.addUnacked s src).cores = s.cores ∧
    (State.addUnacked s src).harts = s.harts ∧ (State.addUnacked s src).stations = s.stations ∧ (State.addUnacked s
    src).links = s.links ∧ (State.addUnacked s src).coll = s.coll ∧ (State.addUnacked s src).canopy = s.canopy ∧
    (State.addUnacked s src).rp = s.rp ∧ (State.addUnacked s src).guy = s.guy ∧ (State.addUnacked s src).tt = s.tt ∧
    (State.addUnacked s src).job = s.job ∧ (State.addUnacked s src).pitch = s.pitch ∧ (State.addUnacked s src).err =
    s.err ∧ (State.addUnacked s src).ckpt = s.ckpt ∧ (State.addUnacked s src).outputs = s.outputs ∧ (State.addUnacked
    s src).reject = s.reject ∧ (State.addUnacked s src).nacks = s.nacks ∧ (State.addUnacked s src).reissues =
    s.reissues := by
  simp [State.addUnacked]

@[simp] theorem exchLoop_keeps (c : Nat) (x : Exch) (total put : Nat) (a1 : Nat) (st : State) (a2 : EngCmd) :
    (exchLoop c x total put a1 st a2).1.start = st.start ∧ (exchLoop c x total put a1 st a2).1.power = st.power ∧
    (exchLoop c x total put a1 st a2).1.mram = st.mram ∧ (exchLoop c x total put a1 st a2).1.sec = st.sec ∧ (exchLoop
    c x total put a1 st a2).1.dict = st.dict ∧ (exchLoop c x total put a1 st a2).1.hp0 = st.hp0 ∧ (exchLoop c x total
    put a1 st a2).1.hp1 = st.hp1 ∧ (exchLoop c x total put a1 st a2).1.far0 = st.far0 ∧ (exchLoop c x total put a1 st
    a2).1.far1 = st.far1 ∧ (exchLoop c x total put a1 st a2).1.hbm = st.hbm ∧ (exchLoop c x total put a1 st
    a2).1.mem = st.mem ∧ (exchLoop c x total put a1 st a2).1.cores = st.cores ∧ (exchLoop c x total put a1 st
    a2).1.harts = st.harts ∧ (exchLoop c x total put a1 st a2).1.stations = st.stations ∧ (exchLoop c x total put a1
    st a2).1.links = st.links ∧ (exchLoop c x total put a1 st a2).1.coll = st.coll ∧ (exchLoop c x total put a1 st
    a2).1.canopy = st.canopy ∧ (exchLoop c x total put a1 st a2).1.rp = st.rp ∧ (exchLoop c x total put a1 st
    a2).1.guy = st.guy ∧ (exchLoop c x total put a1 st a2).1.tt = st.tt ∧ (exchLoop c x total put a1 st a2).1.job =
    st.job ∧ (exchLoop c x total put a1 st a2).1.pitch = st.pitch ∧ (exchLoop c x total put a1 st a2).1.err = st.err ∧
    (exchLoop c x total put a1 st a2).1.ckpt = st.ckpt ∧ (exchLoop c x total put a1 st a2).1.outputs = st.outputs ∧
    (exchLoop c x total put a1 st a2).1.reject = st.reject ∧ (exchLoop c x total put a1 st a2).1.nacks = st.nacks ∧
    (exchLoop c x total put a1 st a2).1.reissues = st.reissues := by
  induction a1 generalizing st a2 with
  | zero => simp [exchLoop]
  | succ n ih => simp only [exchLoop]; (repeat' split) <;> simp [ih, ]

@[simp] theorem State.runExch_keeps (s : State) (c : Nat) : (State.runExch s c).power = s.power ∧ (State.runExch s
    c).mram = s.mram ∧ (State.runExch s c).sec = s.sec ∧ (State.runExch s c).hp0 = s.hp0 ∧ (State.runExch s c).hp1 =
    s.hp1 ∧ (State.runExch s c).far0 = s.far0 ∧ (State.runExch s c).far1 = s.far1 ∧ (State.runExch s c).hbm =
    s.hbm ∧ (State.runExch s c).mem = s.mem ∧ (State.runExch s c).canopy = s.canopy ∧ (State.runExch s c).outputs =
    s.outputs ∧ (State.runExch s c).reject = s.reject := by
  unfold State.runExch
  (repeat' split) <;> simp

@[simp] theorem State.runColl_keeps (s : State) (c : Nat) : (State.runColl s c).out = s.out ∧ (State.runColl s
    c).start = s.start ∧ (State.runColl s c).power = s.power ∧ (State.runColl s c).mram = s.mram ∧ (State.runColl s
    c).sec = s.sec ∧ (State.runColl s c).dict = s.dict ∧ (State.runColl s c).hp0 = s.hp0 ∧ (State.runColl s c).hp1 =
    s.hp1 ∧ (State.runColl s c).far0 = s.far0 ∧ (State.runColl s c).far1 = s.far1 ∧ (State.runColl s c).hbm =
    s.hbm ∧ (State.runColl s c).mem = s.mem ∧ (State.runColl s c).harts = s.harts ∧ (State.runColl s c).stations =
    s.stations ∧ (State.runColl s c).links = s.links ∧ (State.runColl s c).canopy = s.canopy ∧ (State.runColl s c).rp
    = s.rp ∧ (State.runColl s c).guy = s.guy ∧ (State.runColl s c).tt = s.tt ∧ (State.runColl s c).job = s.job ∧
    (State.runColl s c).pitch = s.pitch ∧ (State.runColl s c).err = s.err ∧ (State.runColl s c).ckpt = s.ckpt ∧
    (State.runColl s c).outputs = s.outputs ∧ (State.runColl s c).reject = s.reject ∧ (State.runColl s c).nacks =
    s.nacks ∧ (State.runColl s c).reissues = s.reissues := by
  unfold State.runColl
  (repeat' split) <;> simp

@[simp] theorem State.collParity_keeps (s : State) (c : Nat) : (State.collParity s c).power = s.power ∧
    (State.collParity s c).mram = s.mram ∧ (State.collParity s c).sec = s.sec ∧ (State.collParity s c).dict = s.dict ∧
    (State.collParity s c).hp0 = s.hp0 ∧ (State.collParity s c).hp1 = s.hp1 ∧ (State.collParity s c).far0 = s.far0 ∧
    (State.collParity s c).far1 = s.far1 ∧ (State.collParity s c).hbm = s.hbm ∧ (State.collParity s c).mem =
    s.mem ∧ (State.collParity s c).canopy = s.canopy ∧ (State.collParity s c).outputs = s.outputs ∧ (State.collParity
    s c).reject = s.reject := by
  simp [State.collParity]

@[simp] theorem ttLoop_keeps (i : Nat) (e : TtEntry) (rank : Nat) (a1 : Nat) (st : State) (a2 : Nat) : (ttLoop i e
    rank a1 st a2).1.out = st.out ∧ (ttLoop i e rank a1 st a2).1.start = st.start ∧ (ttLoop i e rank a1 st a2).1.power
    = st.power ∧ (ttLoop i e rank a1 st a2).1.mram = st.mram ∧ (ttLoop i e rank a1 st a2).1.sec = st.sec ∧ (ttLoop i e
    rank a1 st a2).1.dict = st.dict ∧ (ttLoop i e rank a1 st a2).1.hp0 = st.hp0 ∧ (ttLoop i e rank a1 st a2).1.hp1 =
    st.hp1 ∧ (ttLoop i e rank a1 st a2).1.far0 = st.far0 ∧ (ttLoop i e rank a1 st a2).1.far1 = st.far1 ∧ (ttLoop i e
    rank a1 st a2).1.hbm = st.hbm ∧ (ttLoop i e rank a1 st a2).1.mem = st.mem ∧ (ttLoop i e rank a1 st
    a2).1.cores = st.cores ∧ (ttLoop i e rank a1 st a2).1.harts = st.harts ∧ (ttLoop i e rank a1 st a2).1.stations =
    st.stations ∧ (ttLoop i e rank a1 st a2).1.links = st.links ∧ (ttLoop i e rank a1 st a2).1.coll = st.coll ∧
    (ttLoop i e rank a1 st a2).1.canopy = st.canopy ∧ (ttLoop i e rank a1 st a2).1.rp = st.rp ∧ (ttLoop i e rank a1 st
    a2).1.guy = st.guy ∧ (ttLoop i e rank a1 st a2).1.tt = st.tt ∧ (ttLoop i e rank a1 st a2).1.job = st.job ∧ (ttLoop
    i e rank a1 st a2).1.pitch = st.pitch ∧ (ttLoop i e rank a1 st a2).1.err = st.err ∧ (ttLoop i e rank a1 st
    a2).1.ckpt = st.ckpt ∧ (ttLoop i e rank a1 st a2).1.outputs = st.outputs ∧ (ttLoop i e rank a1 st a2).1.reject =
    st.reject ∧ (ttLoop i e rank a1 st a2).1.nacks = st.nacks ∧ (ttLoop i e rank a1 st a2).1.reissues = st.reissues :=
    by
  induction a1 generalizing st a2 with
  | zero => simp [ttLoop]
  | succ n ih => simp only [ttLoop]; (repeat' split) <;> simp [ih, ]

end Sys2Proof.Machine
end

