-- ==== Sys2Proof/Laws/KeepsHost.lean ====
section
/-!
SUPPORT. What each operation leaves unchanged: packets, host ports, steps and loading.
-/

set_option Elab.async false
namespace Sys2Proof.Machine

open Sys2Proof Rv

@[simp] theorem State.xeAnswered_keeps (s : State) (c : Nat) : (State.xeAnswered s c).out = s.out ∧ (State.xeAnswered
    s c).start = s.start ∧ (State.xeAnswered s c).power = s.power ∧ (State.xeAnswered s c).recorder = s.recorder ∧
    (State.xeAnswered s c).mram = s.mram ∧ (State.xeAnswered s c).sec = s.sec ∧ (State.xeAnswered s c).dict = s.dict ∧
    (State.xeAnswered s c).hp0 = s.hp0 ∧ (State.xeAnswered s c).hp1 = s.hp1 ∧ (State.xeAnswered s c).far0 = s.far0 ∧
    (State.xeAnswered s c).far1 = s.far1 ∧ (State.xeAnswered s c).hbm = s.hbm ∧ (State.xeAnswered s c).mem =
    s.mem ∧ (State.xeAnswered s c).harts = s.harts ∧ (State.xeAnswered s c).stations = s.stations ∧ (State.xeAnswered
    s c).links = s.links ∧ (State.xeAnswered s c).coll = s.coll ∧ (State.xeAnswered s c).fab = s.fab ∧
    (State.xeAnswered s c).canopy = s.canopy ∧ (State.xeAnswered s c).rp = s.rp ∧ (State.xeAnswered s c).guy = s.guy ∧
    (State.xeAnswered s c).tt = s.tt ∧ (State.xeAnswered s c).job = s.job ∧ (State.xeAnswered s c).pitch = s.pitch ∧
    (State.xeAnswered s c).err = s.err ∧ (State.xeAnswered s c).ckpt = s.ckpt ∧ (State.xeAnswered s c).outputs =
    s.outputs ∧ (State.xeAnswered s c).reject = s.reject ∧ (State.xeAnswered s c).nacks = s.nacks ∧ (State.xeAnswered
    s c).reissues = s.reissues := by
  unfold State.xeAnswered
  (repeat' split) <;> simp

@[simp] theorem State.getLine_keeps (s : State) (c line : Nat) (bs : List Byte) : (State.getLine s c line bs).out =
    s.out ∧ (State.getLine s c line bs).start = s.start ∧ (State.getLine s c line bs).power = s.power ∧ (State.getLine
    s c line bs).recorder = s.recorder ∧ (State.getLine s c line bs).mram = s.mram ∧ (State.getLine s c line bs).sec =
    s.sec ∧ (State.getLine s c line bs).dict = s.dict ∧ (State.getLine s c line bs).hp0 = s.hp0 ∧ (State.getLine s c
    line bs).hp1 = s.hp1 ∧ (State.getLine s c line bs).far0 = s.far0 ∧ (State.getLine s c line bs).far1 = s.far1 ∧
    (State.getLine s c line bs).hbm = s.hbm ∧ (State.getLine s c line bs).mem = s.mem ∧ (State.getLine s c line
    bs).harts = s.harts ∧ (State.getLine s c line bs).stations = s.stations ∧ (State.getLine s c line bs).links =
    s.links ∧ (State.getLine s c line bs).coll = s.coll ∧ (State.getLine s c line bs).fab = s.fab ∧ (State.getLine s c
    line bs).canopy = s.canopy ∧ (State.getLine s c line bs).rp = s.rp ∧ (State.getLine s c line bs).guy = s.guy ∧
    (State.getLine s c line bs).tt = s.tt ∧ (State.getLine s c line bs).job = s.job ∧ (State.getLine s c line
    bs).pitch = s.pitch ∧ (State.getLine s c line bs).err = s.err ∧ (State.getLine s c line bs).ckpt = s.ckpt ∧
    (State.getLine s c line bs).outputs = s.outputs ∧ (State.getLine s c line bs).reject = s.reject ∧ (State.getLine s
    c line bs).nacks = s.nacks ∧ (State.getLine s c line bs).reissues = s.reissues := by
  unfold State.getLine
  (repeat' split) <;> simp

@[simp] theorem State.putAcked_keeps (s : State) (c op : Nat) : (State.putAcked s c op).out = s.out ∧ (State.putAcked
    s c op).start = s.start ∧ (State.putAcked s c op).power = s.power ∧ (State.putAcked s c op).recorder = s.recorder
    ∧ (State.putAcked s c op).mram = s.mram ∧ (State.putAcked s c op).sec = s.sec ∧ (State.putAcked s c op).dict =
    s.dict ∧ (State.putAcked s c op).hp0 = s.hp0 ∧ (State.putAcked s c op).hp1 = s.hp1 ∧ (State.putAcked s c op).far0
    = s.far0 ∧ (State.putAcked s c op).far1 = s.far1 ∧ (State.putAcked s c op).hbm = s.hbm ∧ (State.putAcked s c
    op).mem = s.mem ∧ (State.putAcked s c op).harts = s.harts ∧ (State.putAcked s c op).stations = s.stations ∧
    (State.putAcked s c op).links = s.links ∧ (State.putAcked s c op).coll = s.coll ∧ (State.putAcked s c op).canopy =
    s.canopy ∧ (State.putAcked s c op).rp = s.rp ∧ (State.putAcked s c op).guy = s.guy ∧ (State.putAcked s c op).tt =
    s.tt ∧ (State.putAcked s c op).job = s.job ∧ (State.putAcked s c op).pitch = s.pitch ∧ (State.putAcked s c op).err
    = s.err ∧ (State.putAcked s c op).ckpt = s.ckpt ∧ (State.putAcked s c op).outputs = s.outputs ∧ (State.putAcked s
    c op).reject = s.reject ∧ (State.putAcked s c op).nacks = s.nacks ∧ (State.putAcked s c op).reissues = s.reissues
    := by
  unfold State.putAcked
  dsimp only
  (repeat' split) <;> simp_all

@[simp] theorem State.subUnacked_keeps (s : State) (src : Nat) : (State.subUnacked s src).out = s.out ∧
    (State.subUnacked s src).start = s.start ∧ (State.subUnacked s src).power = s.power ∧ (State.subUnacked s
    src).recorder = s.recorder ∧ (State.subUnacked s src).mram = s.mram ∧ (State.subUnacked s src).sec = s.sec ∧
    (State.subUnacked s src).dict = s.dict ∧ (State.subUnacked s src).hp0 = s.hp0 ∧ (State.subUnacked s src).hp1 =
    s.hp1 ∧ (State.subUnacked s src).far0 = s.far0 ∧ (State.subUnacked s src).far1 = s.far1 ∧ (State.subUnacked s
    src).hbm = s.hbm ∧ (State.subUnacked s src).mem = s.mem ∧ (State.subUnacked s src).cores = s.cores ∧
    (State.subUnacked s src).harts = s.harts ∧ (State.subUnacked s src).stations = s.stations ∧ (State.subUnacked s
    src).links = s.links ∧ (State.subUnacked s src).coll = s.coll ∧ (State.subUnacked s src).canopy = s.canopy ∧
    (State.subUnacked s src).rp = s.rp ∧ (State.subUnacked s src).guy = s.guy ∧ (State.subUnacked s src).tt = s.tt ∧
    (State.subUnacked s src).job = s.job ∧ (State.subUnacked s src).pitch = s.pitch ∧ (State.subUnacked s src).err =
    s.err ∧ (State.subUnacked s src).ckpt = s.ckpt ∧ (State.subUnacked s src).outputs = s.outputs ∧ (State.subUnacked
    s src).reject = s.reject ∧ (State.subUnacked s src).nacks = s.nacks ∧ (State.subUnacked s src).reissues =
    s.reissues := by
  simp [State.subUnacked]

@[simp] theorem State.complete_keeps (s : State) (t : Track) (k : Packet) : (State.complete s t k).start = s.start ∧
    (State.complete s t k).power = s.power ∧ (State.complete s t k).mram = s.mram ∧ (State.complete s t k).sec = s.sec
    ∧ (State.complete s t k).dict = s.dict ∧ (State.complete s t k).hp0 = s.hp0 ∧ (State.complete s t k).hp1 = s.hp1 ∧
    (State.complete s t k).far0 = s.far0 ∧ (State.complete s t k).far1 = s.far1 ∧ (State.complete s t k).hbm =
    s.hbm ∧ (State.complete s t k).mem = s.mem ∧ (State.complete s t k).stations = s.stations ∧ (State.complete s t
    k).links = s.links ∧ (State.complete s t k).canopy = s.canopy ∧ (State.complete s t k).rp = s.rp ∧ (State.complete
    s t k).guy = s.guy ∧ (State.complete s t k).tt = s.tt ∧ (State.complete s t k).job = s.job ∧ (State.complete s t
    k).pitch = s.pitch ∧ (State.complete s t k).err = s.err ∧ (State.complete s t k).outputs = s.outputs ∧
    (State.complete s t k).reject = s.reject ∧ (State.complete s t k).nacks = s.nacks ∧ (State.complete s t
    k).reissues = s.reissues := by
  unfold State.complete
  (repeat' split) <;> simp

@[simp] theorem State.untrack_keeps (s : State) (t : Track) : (State.untrack s t).out = s.out ∧ (State.untrack s
    t).start = s.start ∧ (State.untrack s t).power = s.power ∧ (State.untrack s t).recorder = s.recorder ∧
    (State.untrack s t).mram = s.mram ∧ (State.untrack s t).sec = s.sec ∧ (State.untrack s t).dict = s.dict ∧
    (State.untrack s t).hp0 = s.hp0 ∧ (State.untrack s t).hp1 = s.hp1 ∧ (State.untrack s t).far0 = s.far0 ∧
    (State.untrack s t).far1 = s.far1 ∧ (State.untrack s t).hbm = s.hbm ∧ (State.untrack s t).mem = s.mem ∧
    (State.untrack s t).cores = s.cores ∧ (State.untrack s t).harts = s.harts ∧ (State.untrack s t).stations =
    s.stations ∧ (State.untrack s t).links = s.links ∧ (State.untrack s t).coll = s.coll ∧ (State.untrack s t).canopy
    = s.canopy ∧ (State.untrack s t).rp = s.rp ∧ (State.untrack s t).guy = s.guy ∧ (State.untrack s t).tt = s.tt ∧
    (State.untrack s t).job = s.job ∧ (State.untrack s t).pitch = s.pitch ∧ (State.untrack s t).err = s.err ∧
    (State.untrack s t).ckpt = s.ckpt ∧ (State.untrack s t).outputs = s.outputs ∧ (State.untrack s t).reject =
    s.reject ∧ (State.untrack s t).nacks = s.nacks ∧ (State.untrack s t).reissues = s.reissues := by
  simp [State.untrack]

@[simp] theorem State.bar2Read_keeps (s : State) (p off len : Nat) (bad : Bool) : (State.bar2Read s p off len
    bad).start = s.start ∧ (State.bar2Read s p off len bad).power = s.power ∧ (State.bar2Read s p off len bad).mram =
    s.mram ∧ (State.bar2Read s p off len bad).sec = s.sec ∧ (State.bar2Read s p off len bad).dict = s.dict ∧
    (State.bar2Read s p off len bad).hp0 = s.hp0 ∧ (State.bar2Read s p off len bad).hp1 = s.hp1 ∧ (State.bar2Read s p
    off len bad).far0 = s.far0 ∧ (State.bar2Read s p off len bad).far1 = s.far1 ∧ (State.bar2Read s p off len bad).mem
    = s.mem ∧ (State.bar2Read s p off len bad).cores = s.cores ∧ (State.bar2Read s p off len bad).harts = s.harts ∧
    (State.bar2Read s p off len bad).stations = s.stations ∧ (State.bar2Read s p off len bad).links = s.links ∧
    (State.bar2Read s p off len bad).coll = s.coll ∧ (State.bar2Read s p off len bad).fab = s.fab ∧ (State.bar2Read s
    p off len bad).canopy = s.canopy ∧ (State.bar2Read s p off len bad).rp = s.rp ∧ (State.bar2Read s p off len
    bad).guy = s.guy ∧ (State.bar2Read s p off len bad).tt = s.tt ∧ (State.bar2Read s p off len bad).job = s.job ∧
    (State.bar2Read s p off len bad).pitch = s.pitch ∧ (State.bar2Read s p off len bad).err = s.err ∧ (State.bar2Read
    s p off len bad).ckpt = s.ckpt ∧ (State.bar2Read s p off len bad).outputs = s.outputs ∧ (State.bar2Read s p off
    len bad).reject = s.reject ∧ (State.bar2Read s p off len bad).nacks = s.nacks ∧ (State.bar2Read s p off len
    bad).reissues = s.reissues := by
  unfold State.bar2Read
  try dsimp only
  (repeat' split) <;> simp []

@[simp] theorem State.bar2Piece_keeps (s : State) (x : Nat × List Byte) : (State.bar2Piece s x).1.out = s.out ∧
    (State.bar2Piece s x).1.start = s.start ∧ (State.bar2Piece s x).1.power = s.power ∧ (State.bar2Piece s
    x).1.recorder = s.recorder ∧ (State.bar2Piece s x).1.mram = s.mram ∧ (State.bar2Piece s x).1.sec = s.sec ∧
    (State.bar2Piece s x).1.dict = s.dict ∧ (State.bar2Piece s x).1.hp0 = s.hp0 ∧ (State.bar2Piece s x).1.hp1 = s.hp1
    ∧ (State.bar2Piece s x).1.far0 = s.far0 ∧ (State.bar2Piece s x).1.far1 = s.far1 ∧ (State.bar2Piece s x).1.cores =
    s.cores ∧ (State.bar2Piece s x).1.stations = s.stations ∧ (State.bar2Piece s x).1.links = s.links ∧
    (State.bar2Piece s x).1.coll = s.coll ∧ (State.bar2Piece s x).1.fab = s.fab ∧ (State.bar2Piece s x).1.canopy =
    s.canopy ∧ (State.bar2Piece s x).1.rp = s.rp ∧ (State.bar2Piece s x).1.guy = s.guy ∧ (State.bar2Piece s x).1.tt =
    s.tt ∧ (State.bar2Piece s x).1.job = s.job ∧ (State.bar2Piece s x).1.pitch = s.pitch ∧ (State.bar2Piece s
    x).1.ckpt = s.ckpt ∧ (State.bar2Piece s x).1.outputs = s.outputs ∧ (State.bar2Piece s x).1.reject = s.reject ∧
    (State.bar2Piece s x).1.nacks = s.nacks ∧ (State.bar2Piece s x).1.reissues = s.reissues := by
  unfold State.bar2Piece
  (repeat' split) <;> simp

@[simp] theorem bar2Pieces_keeps (a1 : List (Nat × List Byte)) (st : State) : (bar2Pieces a1 st).1.out = st.out ∧
    (bar2Pieces a1 st).1.start = st.start ∧ (bar2Pieces a1 st).1.power = st.power ∧ (bar2Pieces a1 st).1.recorder =
    st.recorder ∧ (bar2Pieces a1 st).1.mram = st.mram ∧ (bar2Pieces a1 st).1.sec = st.sec ∧ (bar2Pieces a1 st).1.dict
    = st.dict ∧ (bar2Pieces a1 st).1.hp0 = st.hp0 ∧ (bar2Pieces a1 st).1.hp1 = st.hp1 ∧ (bar2Pieces a1 st).1.far0 =
    st.far0 ∧ (bar2Pieces a1 st).1.far1 = st.far1 ∧ (bar2Pieces a1 st).1.cores = st.cores ∧ (bar2Pieces a1
    st).1.stations = st.stations ∧ (bar2Pieces a1 st).1.links = st.links ∧ (bar2Pieces a1 st).1.coll = st.coll ∧
    (bar2Pieces a1 st).1.fab = st.fab ∧ (bar2Pieces a1 st).1.canopy = st.canopy ∧ (bar2Pieces a1 st).1.rp = st.rp ∧
    (bar2Pieces a1 st).1.guy = st.guy ∧ (bar2Pieces a1 st).1.tt = st.tt ∧ (bar2Pieces a1 st).1.job = st.job ∧
    (bar2Pieces a1 st).1.pitch = st.pitch ∧ (bar2Pieces a1 st).1.ckpt = st.ckpt ∧ (bar2Pieces a1 st).1.outputs =
    st.outputs ∧ (bar2Pieces a1 st).1.reject = st.reject ∧ (bar2Pieces a1 st).1.nacks = st.nacks ∧ (bar2Pieces a1
    st).1.reissues = st.reissues := by
  induction a1 generalizing st with
  | nil => simp [bar2Pieces]
  | cons x xs ih => simp only [bar2Pieces]; (repeat' split) <;> simp [ih, ]

@[simp] theorem State.bar2Write_keeps (s : State) (p off : Nat) (bs : List Byte) : (State.bar2Write s p off bs).out =
    s.out ∧ (State.bar2Write s p off bs).start = s.start ∧ (State.bar2Write s p off bs).power = s.power ∧
    (State.bar2Write s p off bs).mram = s.mram ∧ (State.bar2Write s p off bs).sec = s.sec ∧ (State.bar2Write s p off
    bs).dict = s.dict ∧ (State.bar2Write s p off bs).far0 = s.far0 ∧ (State.bar2Write s p off bs).far1 = s.far1 ∧
    (State.bar2Write s p off bs).cores = s.cores ∧ (State.bar2Write s p off bs).stations = s.stations ∧
    (State.bar2Write s p off bs).links = s.links ∧ (State.bar2Write s p off bs).coll = s.coll ∧ (State.bar2Write s p
    off bs).fab = s.fab ∧ (State.bar2Write s p off bs).canopy = s.canopy ∧ (State.bar2Write s p off bs).rp = s.rp ∧
    (State.bar2Write s p off bs).guy = s.guy ∧ (State.bar2Write s p off bs).tt = s.tt ∧ (State.bar2Write s p off
    bs).job = s.job ∧ (State.bar2Write s p off bs).pitch = s.pitch ∧ (State.bar2Write s p off bs).ckpt = s.ckpt ∧
    (State.bar2Write s p off bs).outputs = s.outputs ∧ (State.bar2Write s p off bs).reject = s.reject ∧
    (State.bar2Write s p off bs).nacks = s.nacks ∧ (State.bar2Write s p off bs).reissues = s.reissues := by
  unfold State.bar2Write
  dsimp only
  (repeat' split) <;> simp_all

@[simp] theorem State.bar2Serve_keeps (s : State) (p : Nat) (a1 : Bar2Req) : (State.bar2Serve s p a1).start = s.start
    ∧ (State.bar2Serve s p a1).power = s.power ∧ (State.bar2Serve s p a1).mram = s.mram ∧ (State.bar2Serve s p a1).sec
    = s.sec ∧ (State.bar2Serve s p a1).dict = s.dict ∧ (State.bar2Serve s p a1).far0 = s.far0 ∧ (State.bar2Serve s p
    a1).far1 = s.far1 ∧ (State.bar2Serve s p a1).cores = s.cores ∧ (State.bar2Serve s p a1).stations = s.stations ∧
    (State.bar2Serve s p a1).links = s.links ∧ (State.bar2Serve s p a1).coll = s.coll ∧ (State.bar2Serve s p a1).fab =
    s.fab ∧ (State.bar2Serve s p a1).canopy = s.canopy ∧ (State.bar2Serve s p a1).rp = s.rp ∧ (State.bar2Serve s p
    a1).guy = s.guy ∧ (State.bar2Serve s p a1).tt = s.tt ∧ (State.bar2Serve s p a1).job = s.job ∧ (State.bar2Serve s p
    a1).pitch = s.pitch ∧ (State.bar2Serve s p a1).ckpt = s.ckpt ∧ (State.bar2Serve s p a1).outputs = s.outputs ∧
    (State.bar2Serve s p a1).reject = s.reject ∧ (State.bar2Serve s p a1).nacks = s.nacks ∧ (State.bar2Serve s p
    a1).reissues = s.reissues := by
  unfold State.bar2Serve
  (repeat' split) <;> simp

@[simp] theorem State.serveHeld_keeps (s : State) (p : Nat) : (State.serveHeld s p).start = s.start ∧ (State.serveHeld
    s p).power = s.power ∧ (State.serveHeld s p).mram = s.mram ∧ (State.serveHeld s p).sec = s.sec ∧ (State.serveHeld
    s p).dict = s.dict ∧ (State.serveHeld s p).far0 = s.far0 ∧ (State.serveHeld s p).far1 = s.far1 ∧ (State.serveHeld
    s p).cores = s.cores ∧ (State.serveHeld s p).stations = s.stations ∧ (State.serveHeld s p).links = s.links ∧
    (State.serveHeld s p).coll = s.coll ∧ (State.serveHeld s p).fab = s.fab ∧ (State.serveHeld s p).canopy = s.canopy
    ∧ (State.serveHeld s p).rp = s.rp ∧ (State.serveHeld s p).guy = s.guy ∧ (State.serveHeld s p).tt = s.tt ∧
    (State.serveHeld s p).job = s.job ∧ (State.serveHeld s p).pitch = s.pitch ∧ (State.serveHeld s p).ckpt = s.ckpt ∧
    (State.serveHeld s p).outputs = s.outputs ∧ (State.serveHeld s p).reject = s.reject ∧ (State.serveHeld s p).nacks
    = s.nacks ∧ (State.serveHeld s p).reissues = s.reissues := by
  unfold State.serveHeld
  try dsimp only
  (repeat' split) <;> simp []

@[simp] theorem State.freeLock_keeps (s : State) (l : AreaLock) : (State.freeLock s l).out = s.out ∧ (State.freeLock s
    l).start = s.start ∧ (State.freeLock s l).power = s.power ∧ (State.freeLock s l).mram = s.mram ∧ (State.freeLock s
    l).sec = s.sec ∧ (State.freeLock s l).hp0 = s.hp0 ∧ (State.freeLock s l).hp1 = s.hp1 ∧ (State.freeLock s l).far0 =
    s.far0 ∧ (State.freeLock s l).far1 = s.far1 ∧ (State.freeLock s l).hbm = s.hbm ∧ (State.freeLock s l).mem =
    s.mem ∧ (State.freeLock s l).cores = s.cores ∧ (State.freeLock s l).harts = s.harts ∧ (State.freeLock s
    l).stations = s.stations ∧ (State.freeLock s l).links = s.links ∧ (State.freeLock s l).coll = s.coll ∧
    (State.freeLock s l).fab = s.fab ∧ (State.freeLock s l).canopy = s.canopy ∧ (State.freeLock s l).rp = s.rp ∧
    (State.freeLock s l).guy = s.guy ∧ (State.freeLock s l).tt = s.tt ∧ (State.freeLock s l).job = s.job ∧
    (State.freeLock s l).pitch = s.pitch ∧ (State.freeLock s l).err = s.err ∧ (State.freeLock s l).ckpt = s.ckpt ∧
    (State.freeLock s l).outputs = s.outputs ∧ (State.freeLock s l).reject = s.reject ∧ (State.freeLock s l).nacks =
    s.nacks ∧ (State.freeLock s l).reissues = s.reissues := by
  simp [State.freeLock]

@[simp] theorem State.cfgWrite_keeps (p : Nat) (s : State) (x : Nat × Byte) : (State.cfgWrite p s x).out = s.out ∧
    (State.cfgWrite p s x).start = s.start ∧ (State.cfgWrite p s x).power = s.power ∧ (State.cfgWrite p s x).recorder
    = s.recorder ∧ (State.cfgWrite p s x).mram = s.mram ∧ (State.cfgWrite p s x).sec = s.sec ∧ (State.cfgWrite p s
    x).dict = s.dict ∧ (State.cfgWrite p s x).far0 = s.far0 ∧ (State.cfgWrite p s x).far1 = s.far1 ∧ (State.cfgWrite p
    s x).hbm = s.hbm ∧ (State.cfgWrite p s x).mem = s.mem ∧ (State.cfgWrite p s x).cores = s.cores ∧
    (State.cfgWrite p s x).harts = s.harts ∧ (State.cfgWrite p s x).stations = s.stations ∧ (State.cfgWrite p s
    x).links = s.links ∧ (State.cfgWrite p s x).coll = s.coll ∧ (State.cfgWrite p s x).fab = s.fab ∧ (State.cfgWrite p
    s x).canopy = s.canopy ∧ (State.cfgWrite p s x).rp = s.rp ∧ (State.cfgWrite p s x).guy = s.guy ∧ (State.cfgWrite p
    s x).tt = s.tt ∧ (State.cfgWrite p s x).job = s.job ∧ (State.cfgWrite p s x).pitch = s.pitch ∧ (State.cfgWrite p s
    x).err = s.err ∧ (State.cfgWrite p s x).ckpt = s.ckpt ∧ (State.cfgWrite p s x).outputs = s.outputs ∧
    (State.cfgWrite p s x).reject = s.reject ∧ (State.cfgWrite p s x).nacks = s.nacks ∧ (State.cfgWrite p s
    x).reissues = s.reissues := by
  simp [State.cfgWrite]

@[simp] theorem State.msixFlush_keeps (s : State) (p : Nat) : (State.msixFlush s p).start = s.start ∧ (State.msixFlush
    s p).power = s.power ∧ (State.msixFlush s p).recorder = s.recorder ∧ (State.msixFlush s p).mram = s.mram ∧
    (State.msixFlush s p).sec = s.sec ∧ (State.msixFlush s p).dict = s.dict ∧ (State.msixFlush s p).far0 = s.far0 ∧
    (State.msixFlush s p).far1 = s.far1 ∧ (State.msixFlush s p).hbm = s.hbm ∧ (State.msixFlush s p).mem = s.mem
    ∧ (State.msixFlush s p).cores = s.cores ∧ (State.msixFlush s p).harts = s.harts ∧ (State.msixFlush s p).stations =
    s.stations ∧ (State.msixFlush s p).links = s.links ∧ (State.msixFlush s p).coll = s.coll ∧ (State.msixFlush s
    p).fab = s.fab ∧ (State.msixFlush s p).canopy = s.canopy ∧ (State.msixFlush s p).rp = s.rp ∧ (State.msixFlush s
    p).guy = s.guy ∧ (State.msixFlush s p).tt = s.tt ∧ (State.msixFlush s p).job = s.job ∧ (State.msixFlush s p).pitch
    = s.pitch ∧ (State.msixFlush s p).err = s.err ∧ (State.msixFlush s p).ckpt = s.ckpt ∧ (State.msixFlush s
    p).outputs = s.outputs ∧ (State.msixFlush s p).reject = s.reject ∧ (State.msixFlush s p).nacks = s.nacks ∧
    (State.msixFlush s p).reissues = s.reissues := by
  unfold State.msixFlush
  try dsimp only
  (repeat' split) <;> simp []

@[simp] theorem State.configure_keeps (s : State) (p : Nat) (a1 : CfgReq) : (State.configure s p a1).start = s.start ∧
    (State.configure s p a1).power = s.power ∧ (State.configure s p a1).recorder = s.recorder ∧ (State.configure s p
    a1).mram = s.mram ∧ (State.configure s p a1).sec = s.sec ∧ (State.configure s p a1).dict = s.dict ∧
    (State.configure s p a1).far0 = s.far0 ∧ (State.configure s p a1).far1 = s.far1 ∧ (State.configure s p a1).hbm
    = s.hbm ∧ (State.configure s p a1).mem = s.mem ∧ (State.configure s p a1).cores = s.cores ∧ (State.configure s
    p a1).harts = s.harts ∧ (State.configure s p a1).stations = s.stations ∧ (State.configure s p a1).links = s.links
    ∧ (State.configure s p a1).coll = s.coll ∧ (State.configure s p a1).fab = s.fab ∧ (State.configure s p a1).canopy
    = s.canopy ∧ (State.configure s p a1).rp = s.rp ∧ (State.configure s p a1).guy = s.guy ∧ (State.configure s p
    a1).tt = s.tt ∧ (State.configure s p a1).job = s.job ∧ (State.configure s p a1).pitch = s.pitch ∧ (State.configure
    s p a1).err = s.err ∧ (State.configure s p a1).ckpt = s.ckpt ∧ (State.configure s p a1).outputs = s.outputs ∧
    (State.configure s p a1).reject = s.reject ∧ (State.configure s p a1).nacks = s.nacks ∧ (State.configure s p
    a1).reissues = s.reissues := by
  unfold State.configure
  try dsimp only
  (repeat' split) <;> simp []

@[simp] theorem State.mbxGo_keeps (s : State) (p len : Nat) : (State.mbxGo s p len).out = s.out ∧ (State.mbxGo s p
    len).start = s.start ∧ (State.mbxGo s p len).power = s.power ∧ (State.mbxGo s p len).recorder = s.recorder ∧
    (State.mbxGo s p len).mram = s.mram ∧ (State.mbxGo s p len).sec = s.sec ∧ (State.mbxGo s p len).far0 = s.far0 ∧
    (State.mbxGo s p len).far1 = s.far1 ∧ (State.mbxGo s p len).hbm = s.hbm ∧ (State.mbxGo s p len).mem = s.mem
    ∧ (State.mbxGo s p len).cores = s.cores ∧ (State.mbxGo s p len).harts = s.harts ∧ (State.mbxGo s p len).stations =
    s.stations ∧ (State.mbxGo s p len).links = s.links ∧ (State.mbxGo s p len).coll = s.coll ∧ (State.mbxGo s p
    len).fab = s.fab ∧ (State.mbxGo s p len).canopy = s.canopy ∧ (State.mbxGo s p len).rp = s.rp ∧ (State.mbxGo s p
    len).guy = s.guy ∧ (State.mbxGo s p len).tt = s.tt ∧ (State.mbxGo s p len).job = s.job ∧ (State.mbxGo s p
    len).pitch = s.pitch ∧ (State.mbxGo s p len).err = s.err ∧ (State.mbxGo s p len).ckpt = s.ckpt ∧ (State.mbxGo s p
    len).outputs = s.outputs ∧ (State.mbxGo s p len).reject = s.reject ∧ (State.mbxGo s p len).nacks = s.nacks ∧
    (State.mbxGo s p len).reissues = s.reissues := by
  simp [State.mbxGo]

@[simp] theorem State.hostDoorbell_keeps (s : State) (p h : Nat) : (State.hostDoorbell s p h).start = s.start ∧
    (State.hostDoorbell s p h).power = s.power ∧ (State.hostDoorbell s p h).recorder = s.recorder ∧
    (State.hostDoorbell s p h).mram = s.mram ∧ (State.hostDoorbell s p h).sec = s.sec ∧ (State.hostDoorbell s p
    h).dict = s.dict ∧ (State.hostDoorbell s p h).hp0 = s.hp0 ∧ (State.hostDoorbell s p h).hp1 = s.hp1 ∧
    (State.hostDoorbell s p h).far0 = s.far0 ∧ (State.hostDoorbell s p h).far1 = s.far1 ∧ (State.hostDoorbell s p
    h).hbm = s.hbm ∧ (State.hostDoorbell s p h).mem = s.mem ∧ (State.hostDoorbell s p h).cores = s.cores ∧
    (State.hostDoorbell s p h).stations = s.stations ∧ (State.hostDoorbell s p h).links = s.links ∧
    (State.hostDoorbell s p h).coll = s.coll ∧ (State.hostDoorbell s p h).fab = s.fab ∧ (State.hostDoorbell s p
    h).canopy = s.canopy ∧ (State.hostDoorbell s p h).rp = s.rp ∧ (State.hostDoorbell s p h).guy = s.guy ∧
    (State.hostDoorbell s p h).tt = s.tt ∧ (State.hostDoorbell s p h).job = s.job ∧ (State.hostDoorbell s p h).pitch =
    s.pitch ∧ (State.hostDoorbell s p h).err = s.err ∧ (State.hostDoorbell s p h).ckpt = s.ckpt ∧ (State.hostDoorbell
    s p h).outputs = s.outputs ∧ (State.hostDoorbell s p h).reject = s.reject ∧ (State.hostDoorbell s p h).nacks =
    s.nacks ∧ (State.hostDoorbell s p h).reissues = s.reissues := by
  simp [State.hostDoorbell]

@[simp] theorem State.cswAccess_keeps (s : State) (p off : Nat) (acc : MemAcc) : (State.cswAccess s p off acc).start =
    s.start ∧ (State.cswAccess s p off acc).power = s.power ∧ (State.cswAccess s p off acc).recorder = s.recorder ∧
    (State.cswAccess s p off acc).mram = s.mram ∧ (State.cswAccess s p off acc).sec = s.sec ∧ (State.cswAccess s p off
    acc).dict = s.dict ∧ (State.cswAccess s p off acc).hp0 = s.hp0 ∧ (State.cswAccess s p off acc).hp1 = s.hp1 ∧
    (State.cswAccess s p off acc).far0 = s.far0 ∧ (State.cswAccess s p off acc).far1 = s.far1 ∧ (State.cswAccess s p
    off acc).hbm = s.hbm ∧ (State.cswAccess s p off acc).mem = s.mem ∧ (State.cswAccess s p off acc).harts =
    s.harts ∧ (State.cswAccess s p off acc).stations = s.stations ∧ (State.cswAccess s p off acc).links = s.links ∧
    (State.cswAccess s p off acc).coll = s.coll ∧ (State.cswAccess s p off acc).fab = s.fab ∧ (State.cswAccess s p off
    acc).canopy = s.canopy ∧ (State.cswAccess s p off acc).rp = s.rp ∧ (State.cswAccess s p off acc).guy = s.guy ∧
    (State.cswAccess s p off acc).tt = s.tt ∧ (State.cswAccess s p off acc).job = s.job ∧ (State.cswAccess s p off
    acc).pitch = s.pitch ∧ (State.cswAccess s p off acc).err = s.err ∧ (State.cswAccess s p off acc).ckpt = s.ckpt ∧
    (State.cswAccess s p off acc).outputs = s.outputs ∧ (State.cswAccess s p off acc).reject = s.reject ∧
    (State.cswAccess s p off acc).nacks = s.nacks ∧ (State.cswAccess s p off acc).reissues = s.reissues := by
  unfold State.cswAccess
  (repeat' split) <;> simp

@[simp] theorem State.writeReg_keeps (s : State) (p off : Nat) (bs : List Byte) : (State.writeReg s p off bs).out =
    s.out ∧ (State.writeReg s p off bs).start = s.start ∧ (State.writeReg s p off bs).power = s.power ∧
    (State.writeReg s p off bs).recorder = s.recorder ∧ (State.writeReg s p off bs).mram = s.mram ∧ (State.writeReg s
    p off bs).sec = s.sec ∧ (State.writeReg s p off bs).far0 = s.far0 ∧ (State.writeReg s p off bs).far1 = s.far1 ∧
    (State.writeReg s p off bs).hbm = s.hbm ∧ (State.writeReg s p off bs).mem = s.mem ∧ (State.writeReg s p off
    bs).cores = s.cores ∧ (State.writeReg s p off bs).harts = s.harts ∧ (State.writeReg s p off bs).stations =
    s.stations ∧ (State.writeReg s p off bs).links = s.links ∧ (State.writeReg s p off bs).coll = s.coll ∧
    (State.writeReg s p off bs).fab = s.fab ∧ (State.writeReg s p off bs).canopy = s.canopy ∧ (State.writeReg s p off
    bs).rp = s.rp ∧ (State.writeReg s p off bs).guy = s.guy ∧ (State.writeReg s p off bs).tt = s.tt ∧ (State.writeReg
    s p off bs).job = s.job ∧ (State.writeReg s p off bs).pitch = s.pitch ∧ (State.writeReg s p off bs).err = s.err ∧
    (State.writeReg s p off bs).ckpt = s.ckpt ∧ (State.writeReg s p off bs).outputs = s.outputs ∧ (State.writeReg s p
    off bs).reject = s.reject ∧ (State.writeReg s p off bs).nacks = s.nacks ∧ (State.writeReg s p off bs).reissues =
    s.reissues := by
  unfold State.writeReg
  (repeat' split) <;> simp

@[simp] theorem State.writeBar0_keeps (s : State) (p off : Nat) (bs : List Byte) : (State.writeBar0 s p off bs).start
    = s.start ∧ (State.writeBar0 s p off bs).power = s.power ∧ (State.writeBar0 s p off bs).recorder = s.recorder ∧
    (State.writeBar0 s p off bs).mram = s.mram ∧ (State.writeBar0 s p off bs).sec = s.sec ∧ (State.writeBar0 s p off
    bs).far0 = s.far0 ∧ (State.writeBar0 s p off bs).far1 = s.far1 ∧ (State.writeBar0 s p off bs).hbm = s.hbm ∧
    (State.writeBar0 s p off bs).mem = s.mem ∧ (State.writeBar0 s p off bs).stations = s.stations ∧ (State.writeBar0 s
    p off bs).links = s.links ∧ (State.writeBar0 s p off bs).coll = s.coll ∧ (State.writeBar0 s p off bs).fab = s.fab
    ∧ (State.writeBar0 s p off bs).canopy = s.canopy ∧ (State.writeBar0 s p off bs).rp = s.rp ∧ (State.writeBar0 s p
    off bs).guy = s.guy ∧ (State.writeBar0 s p off bs).tt = s.tt ∧ (State.writeBar0 s p off bs).job = s.job ∧
    (State.writeBar0 s p off bs).pitch = s.pitch ∧ (State.writeBar0 s p off bs).err = s.err ∧ (State.writeBar0 s p off
    bs).ckpt = s.ckpt ∧ (State.writeBar0 s p off bs).outputs = s.outputs ∧ (State.writeBar0 s p off bs).reject =
    s.reject ∧ (State.writeBar0 s p off bs).nacks = s.nacks ∧ (State.writeBar0 s p off bs).reissues = s.reissues := by
  simp [State.writeBar0]

@[simp] theorem State.sendReq_keeps (s : State) (i : Nat) : (State.sendReq s i).out = s.out ∧ (State.sendReq s
    i).start = s.start ∧ (State.sendReq s i).power = s.power ∧ (State.sendReq s i).mram = s.mram ∧ (State.sendReq s
    i).sec = s.sec ∧ (State.sendReq s i).dict = s.dict ∧ (State.sendReq s i).hp0 = s.hp0 ∧ (State.sendReq s i).hp1 =
    s.hp1 ∧ (State.sendReq s i).far0 = s.far0 ∧ (State.sendReq s i).far1 = s.far1 ∧ (State.sendReq s i).hbm =
    s.hbm ∧ (State.sendReq s i).mem = s.mem ∧ (State.sendReq s i).cores = s.cores ∧ (State.sendReq s i).harts =
    s.harts ∧ (State.sendReq s i).stations = s.stations ∧ (State.sendReq s i).links = s.links ∧ (State.sendReq s
    i).coll = s.coll ∧ (State.sendReq s i).canopy = s.canopy ∧ (State.sendReq s i).rp = s.rp ∧ (State.sendReq s i).guy
    = s.guy ∧ (State.sendReq s i).tt = s.tt ∧ (State.sendReq s i).job = s.job ∧ (State.sendReq s i).pitch = s.pitch ∧
    (State.sendReq s i).err = s.err ∧ (State.sendReq s i).ckpt = s.ckpt ∧ (State.sendReq s i).outputs = s.outputs ∧
    (State.sendReq s i).reject = s.reject ∧ (State.sendReq s i).nacks = s.nacks ∧ (State.sendReq s i).reissues =
    s.reissues := by
  simp [State.sendReq]

@[simp] theorem State.stepRp_keeps (s : State) (theta : Int) : (State.stepRp s theta).out = s.out ∧ (State.stepRp s
    theta).start = s.start ∧ (State.stepRp s theta).power = s.power ∧ (State.stepRp s theta).mram = s.mram ∧
    (State.stepRp s theta).sec = s.sec ∧ (State.stepRp s theta).dict = s.dict ∧ (State.stepRp s theta).hp0 = s.hp0 ∧
    (State.stepRp s theta).hp1 = s.hp1 ∧ (State.stepRp s theta).far0 = s.far0 ∧ (State.stepRp s theta).far1 = s.far1 ∧
    (State.stepRp s theta).hbm = s.hbm ∧ (State.stepRp s theta).mem = s.mem ∧ (State.stepRp s theta).cores =
    s.cores ∧ (State.stepRp s theta).harts = s.harts ∧ (State.stepRp s theta).stations = s.stations ∧ (State.stepRp s
    theta).links = s.links ∧ (State.stepRp s theta).coll = s.coll ∧ (State.stepRp s theta).fab = s.fab ∧ (State.stepRp
    s theta).canopy = s.canopy ∧ (State.stepRp s theta).guy = s.guy ∧ (State.stepRp s theta).tt = s.tt ∧ (State.stepRp
    s theta).job = s.job ∧ (State.stepRp s theta).pitch = s.pitch ∧ (State.stepRp s theta).err = s.err ∧ (State.stepRp
    s theta).ckpt = s.ckpt ∧ (State.stepRp s theta).outputs = s.outputs ∧ (State.stepRp s theta).reject = s.reject ∧
    (State.stepRp s theta).nacks = s.nacks ∧ (State.stepRp s theta).reissues = s.reissues := by
  simp [State.stepRp]

@[simp] theorem State.measured_keeps (s : State) (m : RpMeasure) : (State.measured s m).power = s.power ∧
    (State.measured s m).mram = s.mram ∧ (State.measured s m).sec = s.sec ∧ (State.measured s m).dict = s.dict ∧
    (State.measured s m).hp0 = s.hp0 ∧ (State.measured s m).hp1 = s.hp1 ∧ (State.measured s m).far0 = s.far0 ∧
    (State.measured s m).far1 = s.far1 ∧ (State.measured s m).hbm = s.hbm ∧ (State.measured s m).canopy =
    s.canopy ∧ (State.measured s m).outputs = s.outputs ∧ (State.measured s m).reject = s.reject := by
  unfold State.measured
  (repeat' split) <;> simp

@[simp] theorem State.copyBytes_keeps (s : State) (a b len : Nat) : (State.copyBytes s a b len).out = s.out ∧
    (State.copyBytes s a b len).start = s.start ∧ (State.copyBytes s a b len).power = s.power ∧ (State.copyBytes s a b
    len).recorder = s.recorder ∧ (State.copyBytes s a b len).mram = s.mram ∧ (State.copyBytes s a b len).sec = s.sec ∧
    (State.copyBytes s a b len).dict = s.dict ∧ (State.copyBytes s a b len).hp0 = s.hp0 ∧ (State.copyBytes s a b
    len).hp1 = s.hp1 ∧ (State.copyBytes s a b len).far0 = s.far0 ∧ (State.copyBytes s a b len).far1 = s.far1 ∧
    (State.copyBytes s a b len).cores = s.cores ∧ (State.copyBytes s a b len).harts = s.harts ∧ (State.copyBytes s a b
    len).stations = s.stations ∧ (State.copyBytes s a b len).links = s.links ∧ (State.copyBytes s a b len).coll =
    s.coll ∧ (State.copyBytes s a b len).fab = s.fab ∧ (State.copyBytes s a b len).canopy = s.canopy ∧
    (State.copyBytes s a b len).rp = s.rp ∧ (State.copyBytes s a b len).guy = s.guy ∧ (State.copyBytes s a b len).tt =
    s.tt ∧ (State.copyBytes s a b len).job = s.job ∧ (State.copyBytes s a b len).pitch = s.pitch ∧ (State.copyBytes s
    a b len).err = s.err ∧ (State.copyBytes s a b len).ckpt = s.ckpt ∧ (State.copyBytes s a b len).outputs = s.outputs
    ∧ (State.copyBytes s a b len).reject = s.reject ∧ (State.copyBytes s a b len).nacks = s.nacks ∧ (State.copyBytes s
    a b len).reissues = s.reissues := by
  simp [State.copyBytes]

@[simp] theorem State.publish_keeps (s : State) (p : Placed) : (State.publish s p).out = s.out ∧ (State.publish s
    p).start = s.start ∧ (State.publish s p).power = s.power ∧ (State.publish s p).recorder = s.recorder ∧
    (State.publish s p).mram = s.mram ∧ (State.publish s p).sec = s.sec ∧ (State.publish s p).dict = s.dict ∧
    (State.publish s p).hp0 = s.hp0 ∧ (State.publish s p).hp1 = s.hp1 ∧ (State.publish s p).far0 = s.far0 ∧
    (State.publish s p).far1 = s.far1 ∧ (State.publish s p).cores = s.cores ∧ (State.publish s p).harts = s.harts ∧
    (State.publish s p).stations = s.stations ∧ (State.publish s p).links = s.links ∧ (State.publish s p).coll =
    s.coll ∧ (State.publish s p).fab = s.fab ∧ (State.publish s p).canopy = s.canopy ∧ (State.publish s p).rp = s.rp ∧
    (State.publish s p).guy = s.guy ∧ (State.publish s p).tt = s.tt ∧ (State.publish s p).job = s.job ∧ (State.publish
    s p).pitch = s.pitch ∧ (State.publish s p).err = s.err ∧ (State.publish s p).ckpt = s.ckpt ∧ (State.publish s
    p).reject = s.reject ∧ (State.publish s p).nacks = s.nacks ∧ (State.publish s p).reissues = s.reissues := by
  simp [State.publish]

@[simp] theorem State.issue_keeps (s : State) (x : HostXfer) : (State.issue s x).start = s.start ∧ (State.issue s
    x).power = s.power ∧ (State.issue s x).mram = s.mram ∧ (State.issue s x).sec = s.sec ∧ (State.issue s x).dict =
    s.dict ∧ (State.issue s x).far0 = s.far0 ∧ (State.issue s x).far1 = s.far1 ∧ (State.issue s x).hbm = s.hbm ∧
    (State.issue s x).mem = s.mem ∧ (State.issue s x).cores = s.cores ∧ (State.issue s x).harts = s.harts ∧
    (State.issue s x).stations = s.stations ∧ (State.issue s x).links = s.links ∧ (State.issue s x).coll = s.coll ∧
    (State.issue s x).fab = s.fab ∧ (State.issue s x).canopy = s.canopy ∧ (State.issue s x).rp = s.rp ∧ (State.issue s
    x).guy = s.guy ∧ (State.issue s x).tt = s.tt ∧ (State.issue s x).job = s.job ∧ (State.issue s x).pitch = s.pitch ∧
    (State.issue s x).err = s.err ∧ (State.issue s x).ckpt = s.ckpt ∧ (State.issue s x).outputs = s.outputs ∧
    (State.issue s x).reject = s.reject ∧ (State.issue s x).nacks = s.nacks ∧ (State.issue s x).reissues = s.reissues
    := by
  unfold State.issue
  try dsimp only
  (repeat' split) <;> simp []

@[simp] theorem State.commitMessage_keeps (s : State) (p : Nat) : (State.commitMessage s p).start = s.start ∧
    (State.commitMessage s p).power = s.power ∧ (State.commitMessage s p).recorder = s.recorder ∧ (State.commitMessage
    s p).mram = s.mram ∧ (State.commitMessage s p).sec = s.sec ∧ (State.commitMessage s p).dict = s.dict ∧
    (State.commitMessage s p).far0 = s.far0 ∧ (State.commitMessage s p).far1 = s.far1 ∧ (State.commitMessage s
    p).hbm = s.hbm ∧ (State.commitMessage s p).mem = s.mem ∧ (State.commitMessage s p).cores = s.cores ∧
    (State.commitMessage s p).harts = s.harts ∧ (State.commitMessage s p).stations = s.stations ∧ (State.commitMessage
    s p).links = s.links ∧ (State.commitMessage s p).coll = s.coll ∧ (State.commitMessage s p).fab = s.fab ∧
    (State.commitMessage s p).canopy = s.canopy ∧ (State.commitMessage s p).rp = s.rp ∧ (State.commitMessage s p).guy
    = s.guy ∧ (State.commitMessage s p).tt = s.tt ∧ (State.commitMessage s p).job = s.job ∧ (State.commitMessage s
    p).pitch = s.pitch ∧ (State.commitMessage s p).err = s.err ∧ (State.commitMessage s p).ckpt = s.ckpt ∧
    (State.commitMessage s p).outputs = s.outputs ∧ (State.commitMessage s p).reject = s.reject ∧ (State.commitMessage
    s p).nacks = s.nacks ∧ (State.commitMessage s p).reissues = s.reissues := by
  simp [State.commitMessage]

@[simp] theorem State.commitOut_keeps (s : State) : (State.commitOut s).start = s.start ∧ (State.commitOut s).power =
    s.power ∧ (State.commitOut s).mram = s.mram ∧ (State.commitOut s).sec = s.sec ∧ (State.commitOut s).dict = s.dict
    ∧ (State.commitOut s).far0 = s.far0 ∧ (State.commitOut s).far1 = s.far1 ∧ (State.commitOut s).cores = s.cores ∧
    (State.commitOut s).harts = s.harts ∧ (State.commitOut s).stations = s.stations ∧ (State.commitOut s).links =
    s.links ∧ (State.commitOut s).coll = s.coll ∧ (State.commitOut s).fab = s.fab ∧ (State.commitOut s).canopy =
    s.canopy ∧ (State.commitOut s).rp = s.rp ∧ (State.commitOut s).guy = s.guy ∧ (State.commitOut s).tt = s.tt ∧
    (State.commitOut s).pitch = s.pitch ∧ (State.commitOut s).err = s.err ∧ (State.commitOut s).ckpt = s.ckpt ∧
    (State.commitOut s).reject = s.reject ∧ (State.commitOut s).nacks = s.nacks ∧ (State.commitOut s).reissues =
    s.reissues := by
  unfold State.commitOut
  try dsimp only
  (repeat' split) <;> simp []

@[simp] theorem State.digestInputs_keeps (s : State) : (State.digestInputs s).out = s.out ∧ (State.digestInputs
    s).start = s.start ∧ (State.digestInputs s).power = s.power ∧ (State.digestInputs s).recorder = s.recorder ∧
    (State.digestInputs s).mram = s.mram ∧ (State.digestInputs s).sec = s.sec ∧ (State.digestInputs s).dict = s.dict ∧
    (State.digestInputs s).hp0 = s.hp0 ∧ (State.digestInputs s).hp1 = s.hp1 ∧ (State.digestInputs s).far0 = s.far0 ∧
    (State.digestInputs s).far1 = s.far1 ∧ (State.digestInputs s).hbm = s.hbm ∧ (State.digestInputs s).mem =
    s.mem ∧ (State.digestInputs s).cores = s.cores ∧ (State.digestInputs s).harts = s.harts ∧ (State.digestInputs
    s).stations = s.stations ∧ (State.digestInputs s).links = s.links ∧ (State.digestInputs s).coll = s.coll ∧
    (State.digestInputs s).fab = s.fab ∧ (State.digestInputs s).canopy = s.canopy ∧ (State.digestInputs s).rp = s.rp ∧
    (State.digestInputs s).guy = s.guy ∧ (State.digestInputs s).tt = s.tt ∧ (State.digestInputs s).job = s.job ∧
    (State.digestInputs s).pitch = s.pitch ∧ (State.digestInputs s).err = s.err ∧ (State.digestInputs s).ckpt = s.ckpt
    ∧ (State.digestInputs s).reject = s.reject ∧ (State.digestInputs s).nacks = s.nacks ∧ (State.digestInputs
    s).reissues = s.reissues := by
  simp [State.digestInputs]

@[simp] theorem State.commitIn_keeps (s : State) : (State.commitIn s).out = s.out ∧ (State.commitIn s).start = s.start
    ∧ (State.commitIn s).power = s.power ∧ (State.commitIn s).recorder = s.recorder ∧ (State.commitIn s).mram = s.mram
    ∧ (State.commitIn s).sec = s.sec ∧ (State.commitIn s).dict = s.dict ∧ (State.commitIn s).hp0 = s.hp0 ∧
    (State.commitIn s).hp1 = s.hp1 ∧ (State.commitIn s).far0 = s.far0 ∧ (State.commitIn s).far1 = s.far1 ∧
    (State.commitIn s).cores = s.cores ∧ (State.commitIn s).harts = s.harts ∧ (State.commitIn s).stations = s.stations
    ∧ (State.commitIn s).links = s.links ∧ (State.commitIn s).coll = s.coll ∧ (State.commitIn s).fab = s.fab ∧
    (State.commitIn s).canopy = s.canopy ∧ (State.commitIn s).rp = s.rp ∧ (State.commitIn s).guy = s.guy ∧
    (State.commitIn s).tt = s.tt ∧ (State.commitIn s).job = s.job ∧ (State.commitIn s).pitch = s.pitch ∧
    (State.commitIn s).ckpt = s.ckpt ∧ (State.commitIn s).reject = s.reject ∧ (State.commitIn s).nacks = s.nacks ∧
    (State.commitIn s).reissues = s.reissues := by
  unfold State.commitIn
  try dsimp only
  (repeat' split) <;> simp []

@[simp] theorem State.beginCommit_keeps (s : State) (quiesce : Bool) : (State.beginCommit s quiesce).start = s.start ∧
    (State.beginCommit s quiesce).power = s.power ∧ (State.beginCommit s quiesce).mram = s.mram ∧ (State.beginCommit s
    quiesce).sec = s.sec ∧ (State.beginCommit s quiesce).dict = s.dict ∧ (State.beginCommit s quiesce).far0 = s.far0 ∧
    (State.beginCommit s quiesce).far1 = s.far1 ∧ (State.beginCommit s quiesce).cores = s.cores ∧ (State.beginCommit s
    quiesce).harts = s.harts ∧ (State.beginCommit s quiesce).stations = s.stations ∧ (State.beginCommit s
    quiesce).links = s.links ∧ (State.beginCommit s quiesce).coll = s.coll ∧ (State.beginCommit s quiesce).fab = s.fab
    ∧ (State.beginCommit s quiesce).canopy = s.canopy ∧ (State.beginCommit s quiesce).rp = s.rp ∧ (State.beginCommit s
    quiesce).tt = s.tt ∧ (State.beginCommit s quiesce).pitch = s.pitch ∧ (State.beginCommit s quiesce).ckpt = s.ckpt ∧
    (State.beginCommit s quiesce).reject = s.reject ∧ (State.beginCommit s quiesce).nacks = s.nacks ∧
    (State.beginCommit s quiesce).reissues = s.reissues := by
  simp [State.beginCommit]

@[simp] theorem State.maybeQuiesced_keeps (s : State) : (State.maybeQuiesced s).start = s.start ∧ (State.maybeQuiesced
    s).power = s.power ∧ (State.maybeQuiesced s).mram = s.mram ∧ (State.maybeQuiesced s).sec = s.sec ∧
    (State.maybeQuiesced s).far0 = s.far0 ∧ (State.maybeQuiesced s).far1 = s.far1 ∧ (State.maybeQuiesced s).hbm =
    s.hbm ∧ (State.maybeQuiesced s).mem = s.mem ∧ (State.maybeQuiesced s).cores = s.cores ∧ (State.maybeQuiesced
    s).harts = s.harts ∧ (State.maybeQuiesced s).stations = s.stations ∧ (State.maybeQuiesced s).links = s.links ∧
    (State.maybeQuiesced s).coll = s.coll ∧ (State.maybeQuiesced s).canopy = s.canopy ∧ (State.maybeQuiesced s).rp =
    s.rp ∧ (State.maybeQuiesced s).guy = s.guy ∧ (State.maybeQuiesced s).tt = s.tt ∧ (State.maybeQuiesced s).job =
    s.job ∧ (State.maybeQuiesced s).pitch = s.pitch ∧ (State.maybeQuiesced s).err = s.err ∧ (State.maybeQuiesced
    s).ckpt = s.ckpt ∧ (State.maybeQuiesced s).outputs = s.outputs ∧ (State.maybeQuiesced s).reject = s.reject ∧
    (State.maybeQuiesced s).nacks = s.nacks ∧ (State.maybeQuiesced s).reissues = s.reissues := by
  unfold State.maybeQuiesced
  try dsimp only
  (repeat' split) <;> simp []

@[simp] theorem State.zeroStage_keeps (s : State) (x : Nat) : (State.zeroStage s x).out = s.out ∧ (State.zeroStage s
    x).start = s.start ∧ (State.zeroStage s x).power = s.power ∧ (State.zeroStage s x).recorder = s.recorder ∧
    (State.zeroStage s x).mram = s.mram ∧ (State.zeroStage s x).sec = s.sec ∧ (State.zeroStage s x).dict = s.dict ∧
    (State.zeroStage s x).hp0 = s.hp0 ∧ (State.zeroStage s x).hp1 = s.hp1 ∧ (State.zeroStage s x).far0 = s.far0 ∧
    (State.zeroStage s x).far1 = s.far1 ∧ (State.zeroStage s x).hbm = s.hbm ∧ (State.zeroStage s x).cores =
    s.cores ∧ (State.zeroStage s x).harts = s.harts ∧ (State.zeroStage s x).stations = s.stations ∧ (State.zeroStage s
    x).links = s.links ∧ (State.zeroStage s x).coll = s.coll ∧ (State.zeroStage s x).fab = s.fab ∧ (State.zeroStage s
    x).canopy = s.canopy ∧ (State.zeroStage s x).rp = s.rp ∧ (State.zeroStage s x).guy = s.guy ∧ (State.zeroStage s
    x).tt = s.tt ∧ (State.zeroStage s x).job = s.job ∧ (State.zeroStage s x).pitch = s.pitch ∧ (State.zeroStage s
    x).err = s.err ∧ (State.zeroStage s x).ckpt = s.ckpt ∧ (State.zeroStage s x).outputs = s.outputs ∧
    (State.zeroStage s x).reject = s.reject ∧ (State.zeroStage s x).nacks = s.nacks ∧ (State.zeroStage s x).reissues =
    s.reissues := by
  unfold State.zeroStage
  (repeat' split) <;> simp

@[simp] theorem State.startDrain_keeps (s : State) : (State.startDrain s).out = s.out ∧ (State.startDrain s).start =
    s.start ∧ (State.startDrain s).power = s.power ∧ (State.startDrain s).mram = s.mram ∧ (State.startDrain s).sec =
    s.sec ∧ (State.startDrain s).dict = s.dict ∧ (State.startDrain s).hp0 = s.hp0 ∧ (State.startDrain s).hp1 = s.hp1 ∧
    (State.startDrain s).far0 = s.far0 ∧ (State.startDrain s).far1 = s.far1 ∧ (State.startDrain s).hbm = s.hbm ∧
    (State.startDrain s).cores = s.cores ∧ (State.startDrain s).harts = s.harts ∧ (State.startDrain s).stations =
    s.stations ∧ (State.startDrain s).links = s.links ∧ (State.startDrain s).coll = s.coll ∧ (State.startDrain s).fab
    = s.fab ∧ (State.startDrain s).canopy = s.canopy ∧ (State.startDrain s).rp = s.rp ∧ (State.startDrain s).guy =
    s.guy ∧ (State.startDrain s).tt = s.tt ∧ (State.startDrain s).job = s.job ∧ (State.startDrain s).pitch = s.pitch ∧
    (State.startDrain s).err = s.err ∧ (State.startDrain s).outputs = s.outputs ∧ (State.startDrain s).reject =
    s.reject ∧ (State.startDrain s).nacks = s.nacks ∧ (State.startDrain s).reissues = s.reissues := by
  unfold State.startDrain
  (repeat' split) <;> simp

@[simp] theorem State.abandon_keeps (s : State) (attempt step f : Nat) : (State.abandon s attempt step f).out = s.out
    ∧ (State.abandon s attempt step f).start = s.start ∧ (State.abandon s attempt step f).mram = s.mram ∧
    (State.abandon s attempt step f).sec = s.sec ∧ (State.abandon s attempt step f).dict = s.dict ∧ (State.abandon s
    attempt step f).hp0 = s.hp0 ∧ (State.abandon s attempt step f).hp1 = s.hp1 ∧ (State.abandon s attempt step f).far0
    = s.far0 ∧ (State.abandon s attempt step f).far1 = s.far1 ∧ (State.abandon s attempt step f).hbm = s.hbm ∧
    (State.abandon s attempt step f).canopy = s.canopy ∧ (State.abandon s attempt step f).reject = s.reject := by
  simp [State.abandon]

@[simp] theorem State.replay_keeps (s : State) (rank code : Nat) : (State.replay s rank code).out = s.out ∧
    (State.replay s rank code).start = s.start ∧ (State.replay s rank code).mram = s.mram ∧ (State.replay s rank
    code).sec = s.sec ∧ (State.replay s rank code).dict = s.dict ∧ (State.replay s rank code).hp0 = s.hp0 ∧
    (State.replay s rank code).hp1 = s.hp1 ∧ (State.replay s rank code).far0 = s.far0 ∧ (State.replay s rank
    code).far1 = s.far1 ∧ (State.replay s rank code).hbm = s.hbm ∧ (State.replay s rank code).canopy = s.canopy
    ∧ (State.replay s rank code).reject = s.reject := by
  unfold State.replay
  try dsimp only
  (repeat' split) <;> simp []

@[simp] theorem State.rootFailed_keeps (s : State) (child : Option Nat) : (State.rootFailed s child).out = s.out ∧
    (State.rootFailed s child).start = s.start ∧ (State.rootFailed s child).mram = s.mram ∧ (State.rootFailed s
    child).sec = s.sec ∧ (State.rootFailed s child).dict = s.dict ∧ (State.rootFailed s child).hp0 = s.hp0 ∧
    (State.rootFailed s child).hp1 = s.hp1 ∧ (State.rootFailed s child).far0 = s.far0 ∧ (State.rootFailed s
    child).far1 = s.far1 ∧ (State.rootFailed s child).hbm = s.hbm ∧ (State.rootFailed s child).canopy = s.canopy
    ∧ (State.rootFailed s child).reject = s.reject := by
  unfold State.rootFailed
  (repeat' split) <;> simp

@[simp] theorem State.takeOpp_keeps (s : State) (opp : Nat) : (State.takeOpp s opp).out = s.out ∧ (State.takeOpp s
    opp).start = s.start ∧ (State.takeOpp s opp).recorder = s.recorder ∧ (State.takeOpp s opp).mram = s.mram ∧
    (State.takeOpp s opp).sec = s.sec ∧ (State.takeOpp s opp).dict = s.dict ∧ (State.takeOpp s opp).hp0 = s.hp0 ∧
    (State.takeOpp s opp).hp1 = s.hp1 ∧ (State.takeOpp s opp).far0 = s.far0 ∧ (State.takeOpp s opp).far1 = s.far1 ∧
    (State.takeOpp s opp).hbm = s.hbm ∧ (State.takeOpp s opp).mem = s.mem ∧ (State.takeOpp s opp).cores =
    s.cores ∧ (State.takeOpp s opp).harts = s.harts ∧ (State.takeOpp s opp).stations = s.stations ∧ (State.takeOpp s
    opp).links = s.links ∧ (State.takeOpp s opp).coll = s.coll ∧ (State.takeOpp s opp).fab = s.fab ∧ (State.takeOpp s
    opp).canopy = s.canopy ∧ (State.takeOpp s opp).rp = s.rp ∧ (State.takeOpp s opp).guy = s.guy ∧ (State.takeOpp s
    opp).tt = s.tt ∧ (State.takeOpp s opp).job = s.job ∧ (State.takeOpp s opp).pitch = s.pitch ∧ (State.takeOpp s
    opp).err = s.err ∧ (State.takeOpp s opp).ckpt = s.ckpt ∧ (State.takeOpp s opp).outputs = s.outputs ∧
    (State.takeOpp s opp).reject = s.reject ∧ (State.takeOpp s opp).nacks = s.nacks ∧ (State.takeOpp s opp).reissues =
    s.reissues := by
  simp [State.takeOpp]

@[simp] theorem State.commitDecision_keeps (s : State) : (State.commitDecision s).start = s.start ∧
    (State.commitDecision s).mram = s.mram ∧ (State.commitDecision s).sec = s.sec ∧ (State.commitDecision s).far0 =
    s.far0 ∧ (State.commitDecision s).far1 = s.far1 ∧ (State.commitDecision s).canopy = s.canopy ∧
    (State.commitDecision s).reject = s.reject := by
  unfold State.commitDecision
  try dsimp only
  (repeat' split) <;> simp []

@[simp] theorem State.gather_keeps (s : State) : (State.gather s).start = s.start ∧ (State.gather s).mram = s.mram ∧
    (State.gather s).sec = s.sec ∧ (State.gather s).far0 = s.far0 ∧ (State.gather s).far1 = s.far1 ∧ (State.gather
    s).canopy = s.canopy ∧ (State.gather s).reject = s.reject := by
  simp [State.gather]

@[simp] theorem State.arrival_keeps (s : State) (k : Packet) (clean : Bool) : (State.arrival s k clean).start =
    s.start ∧ (State.arrival s k clean).mram = s.mram ∧ (State.arrival s k clean).sec = s.sec ∧ (State.arrival s k
    clean).far0 = s.far0 ∧ (State.arrival s k clean).far1 = s.far1 ∧ (State.arrival s k clean).canopy = s.canopy ∧
    (State.arrival s k clean).reject = s.reject := by
  simp [State.arrival]

@[simp] theorem State.gotRelease_keeps (s : State) (k : Packet) : (State.gotRelease s k).start = s.start ∧
    (State.gotRelease s k).mram = s.mram ∧ (State.gotRelease s k).sec = s.sec ∧ (State.gotRelease s k).dict = s.dict ∧
    (State.gotRelease s k).far0 = s.far0 ∧ (State.gotRelease s k).far1 = s.far1 ∧ (State.gotRelease s k).cores =
    s.cores ∧ (State.gotRelease s k).harts = s.harts ∧ (State.gotRelease s k).stations = s.stations ∧
    (State.gotRelease s k).links = s.links ∧ (State.gotRelease s k).coll = s.coll ∧ (State.gotRelease s k).canopy =
    s.canopy ∧ (State.gotRelease s k).tt = s.tt ∧ (State.gotRelease s k).reject = s.reject ∧ (State.gotRelease s
    k).nacks = s.nacks ∧ (State.gotRelease s k).reissues = s.reissues := by
  simp [State.gotRelease]

@[simp] theorem State.startHarts_keeps (s : State) : (State.startHarts s).out = s.out ∧ (State.startHarts s).start =
    s.start ∧ (State.startHarts s).power = s.power ∧ (State.startHarts s).recorder = s.recorder ∧ (State.startHarts
    s).mram = s.mram ∧ (State.startHarts s).sec = s.sec ∧ (State.startHarts s).dict = s.dict ∧ (State.startHarts
    s).hp0 = s.hp0 ∧ (State.startHarts s).hp1 = s.hp1 ∧ (State.startHarts s).far0 = s.far0 ∧ (State.startHarts s).far1
    = s.far1 ∧ (State.startHarts s).hbm = s.hbm ∧ (State.startHarts s).mem = s.mem ∧ (State.startHarts s).cores
    = s.cores ∧ (State.startHarts s).stations = s.stations ∧ (State.startHarts s).links = s.links ∧ (State.startHarts
    s).coll = s.coll ∧ (State.startHarts s).fab = s.fab ∧ (State.startHarts s).canopy = s.canopy ∧ (State.startHarts
    s).rp = s.rp ∧ (State.startHarts s).guy = s.guy ∧ (State.startHarts s).tt = s.tt ∧ (State.startHarts s).job =
    s.job ∧ (State.startHarts s).pitch = s.pitch ∧ (State.startHarts s).err = s.err ∧ (State.startHarts s).ckpt =
    s.ckpt ∧ (State.startHarts s).outputs = s.outputs ∧ (State.startHarts s).reject = s.reject ∧ (State.startHarts
    s).nacks = s.nacks ∧ (State.startHarts s).reissues = s.reissues := by
  unfold State.startHarts
  try dsimp only
  (repeat' split) <;> simp []

@[simp] theorem State.joinPorts_keeps (s : State) : (State.joinPorts s).out = s.out ∧ (State.joinPorts s).start =
    s.start ∧ (State.joinPorts s).power = s.power ∧ (State.joinPorts s).mram = s.mram ∧ (State.joinPorts s).sec =
    s.sec ∧ (State.joinPorts s).dict = s.dict ∧ (State.joinPorts s).hp0 = s.hp0 ∧ (State.joinPorts s).hp1 = s.hp1 ∧
    (State.joinPorts s).far0 = s.far0 ∧ (State.joinPorts s).far1 = s.far1 ∧ (State.joinPorts s).hbm = s.hbm ∧
    (State.joinPorts s).mem = s.mem ∧ (State.joinPorts s).cores = s.cores ∧ (State.joinPorts s).harts = s.harts ∧
    (State.joinPorts s).stations = s.stations ∧ (State.joinPorts s).links = s.links ∧ (State.joinPorts s).coll =
    s.coll ∧ (State.joinPorts s).canopy = s.canopy ∧ (State.joinPorts s).rp = s.rp ∧ (State.joinPorts s).guy = s.guy ∧
    (State.joinPorts s).tt = s.tt ∧ (State.joinPorts s).job = s.job ∧ (State.joinPorts s).pitch = s.pitch ∧
    (State.joinPorts s).err = s.err ∧ (State.joinPorts s).ckpt = s.ckpt ∧ (State.joinPorts s).outputs = s.outputs ∧
    (State.joinPorts s).reject = s.reject ∧ (State.joinPorts s).nacks = s.nacks ∧ (State.joinPorts s).reissues =
    s.reissues := by
  simp [State.joinPorts]

@[simp] theorem State.release_keeps (s : State) (r : Release) : (State.release s r).sec = s.sec ∧ (State.release s
    r).hp0 = s.hp0 ∧ (State.release s r).hp1 = s.hp1 ∧ (State.release s r).far0 = s.far0 ∧ (State.release s r).far1 =
    s.far1 ∧ (State.release s r).outputs = s.outputs ∧ (State.release s r).reject = s.reject := by
  unfold State.release
  try dsimp only
  (repeat' split) <;> simp []

@[simp] theorem State.sincePitch_keeps (s : State) : (State.sincePitch s).out = s.out ∧ (State.sincePitch s).start =
    s.start ∧ (State.sincePitch s).power = s.power ∧ (State.sincePitch s).recorder = s.recorder ∧ (State.sincePitch
    s).mram = s.mram ∧ (State.sincePitch s).sec = s.sec ∧ (State.sincePitch s).dict = s.dict ∧ (State.sincePitch
    s).hp0 = s.hp0 ∧ (State.sincePitch s).hp1 = s.hp1 ∧ (State.sincePitch s).mem = s.mem ∧ (State.sincePitch s).fab =
    s.fab ∧ (State.sincePitch s).job = s.job ∧ (State.sincePitch s).pitch = s.pitch ∧ (State.sincePitch s).outputs =
    s.outputs ∧ (State.sincePitch s).reject = s.reject ∧ (State.sincePitch s).nacks = s.nacks ∧ (State.sincePitch
    s).reissues = s.reissues := by
  simp [State.sincePitch]

@[simp] theorem State.jobWipe_keeps (s : State) (wipeUs : Nat) : (State.jobWipe s wipeUs).out = s.out ∧ (State.jobWipe
    s wipeUs).start = s.start ∧ (State.jobWipe s wipeUs).power = s.power ∧ (State.jobWipe s wipeUs).recorder =
    s.recorder ∧ (State.jobWipe s wipeUs).sec = s.sec ∧ (State.jobWipe s wipeUs).hp0 = s.hp0 ∧ (State.jobWipe s
    wipeUs).hp1 = s.hp1 ∧ (State.jobWipe s wipeUs).fab = s.fab ∧ (State.jobWipe s wipeUs).job = s.job ∧ (State.jobWipe
    s wipeUs).reject = s.reject ∧ (State.jobWipe s wipeUs).nacks = s.nacks ∧ (State.jobWipe s wipeUs).reissues =
    s.reissues := by
  simp [State.jobWipe]

@[simp] theorem State.toIdle_keeps (s : State) : (State.toIdle s).start = s.start ∧ (State.toIdle s).mram = s.mram ∧
    (State.toIdle s).sec = s.sec ∧ (State.toIdle s).dict = s.dict ∧ (State.toIdle s).far0 = s.far0 ∧ (State.toIdle
    s).far1 = s.far1 ∧ (State.toIdle s).cores = s.cores ∧ (State.toIdle s).stations = s.stations ∧ (State.toIdle
    s).links = s.links ∧ (State.toIdle s).coll = s.coll ∧ (State.toIdle s).canopy = s.canopy ∧ (State.toIdle s).guy =
    s.guy ∧ (State.toIdle s).tt = s.tt ∧ (State.toIdle s).ckpt = s.ckpt ∧ (State.toIdle s).outputs = s.outputs ∧
    (State.toIdle s).reject = s.reject ∧ (State.toIdle s).nacks = s.nacks ∧ (State.toIdle s).reissues = s.reissues :=
    by
  simp [State.toIdle]

@[simp] theorem State.placeJob_keeps (s : State) (im : Image) (st : PlaceSt) (placed : List Placed) (keep : Bool) :
    (State.placeJob s im st placed keep).out = s.out ∧ (State.placeJob s im st placed keep).start = s.start ∧
    (State.placeJob s im st placed keep).power = s.power ∧ (State.placeJob s im st placed keep).recorder = s.recorder
    ∧ (State.placeJob s im st placed keep).mram = s.mram ∧ (State.placeJob s im st placed keep).sec = s.sec ∧
    (State.placeJob s im st placed keep).dict = s.dict ∧ (State.placeJob s im st placed keep).hp0 = s.hp0 ∧
    (State.placeJob s im st placed keep).hp1 = s.hp1 ∧ (State.placeJob s im st placed keep).far0 = s.far0 ∧
    (State.placeJob s im st placed keep).far1 = s.far1 ∧ (State.placeJob s im st placed keep).harts = s.harts ∧
    (State.placeJob s im st placed keep).stations = s.stations ∧ (State.placeJob s im st placed keep).links = s.links
    ∧ (State.placeJob s im st placed keep).coll = s.coll ∧ (State.placeJob s im st placed keep).fab = s.fab ∧
    (State.placeJob s im st placed keep).canopy = s.canopy ∧ (State.placeJob s im st placed keep).rp = s.rp ∧
    (State.placeJob s im st placed keep).guy = s.guy ∧ (State.placeJob s im st placed keep).tt = s.tt ∧
    (State.placeJob s im st placed keep).pitch = s.pitch ∧ (State.placeJob s im st placed keep).err = s.err ∧
    (State.placeJob s im st placed keep).reject = s.reject ∧ (State.placeJob s im st placed keep).nacks = s.nacks ∧
    (State.placeJob s im st placed keep).reissues = s.reissues := by
  simp [State.placeJob]

@[simp] theorem State.loadFail_keeps (s : State) (reason : Nat) : (State.loadFail s reason).out = s.out ∧
    (State.loadFail s reason).start = s.start ∧ (State.loadFail s reason).power = s.power ∧ (State.loadFail s
    reason).mram = s.mram ∧ (State.loadFail s reason).sec = s.sec ∧ (State.loadFail s reason).dict = s.dict ∧
    (State.loadFail s reason).hp0 = s.hp0 ∧ (State.loadFail s reason).hp1 = s.hp1 ∧ (State.loadFail s reason).far0 =
    s.far0 ∧ (State.loadFail s reason).far1 = s.far1 ∧ (State.loadFail s reason).hbm = s.hbm ∧ (State.loadFail s
    reason).mem = s.mem ∧ (State.loadFail s reason).canopy = s.canopy ∧ (State.loadFail s reason).outputs = s.outputs
    ∧ (State.loadFail s reason).reject = s.reject := by
  simp [State.loadFail]

@[simp] theorem State.loadDone_keeps (s : State) : (State.loadDone s).mram = s.mram ∧ (State.loadDone s).sec = s.sec ∧
    (State.loadDone s).dict = s.dict ∧ (State.loadDone s).hp0 = s.hp0 ∧ (State.loadDone s).hp1 = s.hp1 ∧
    (State.loadDone s).far0 = s.far0 ∧ (State.loadDone s).far1 = s.far1 ∧ (State.loadDone s).outputs = s.outputs ∧
    (State.loadDone s).reject = s.reject := by
  unfold State.loadDone
  try dsimp only
  (repeat' split) <;> simp []

@[simp] theorem State.loadImage_keeps (s : State) (img : List Byte) : (State.loadImage s img).mram = s.mram ∧
    (State.loadImage s img).sec = s.sec ∧ (State.loadImage s img).dict = s.dict ∧ (State.loadImage s img).hp0 = s.hp0
    ∧ (State.loadImage s img).hp1 = s.hp1 ∧ (State.loadImage s img).far0 = s.far0 ∧ (State.loadImage s img).far1 =
    s.far1 := by
  unfold State.loadImage
  dsimp only
  (repeat' split) <;> simp_all

end Sys2Proof.Machine
end

