-- ==== Sys2Proof/Laws/KeepsJob.lean ====
section
/-!
SUPPORT. What each operation leaves unchanged: pitch, power and links.
-/

set_option Elab.async false
namespace Sys2Proof.Machine

open Sys2Proof Rv

@[simp] theorem State.sendRecord_keeps (s : State) (dst : Nat) : (State.sendRecord s dst).out = s.out ∧
    (State.sendRecord s dst).start = s.start ∧ (State.sendRecord s dst).power = s.power ∧ (State.sendRecord s
    dst).mram = s.mram ∧ (State.sendRecord s dst).sec = s.sec ∧ (State.sendRecord s dst).dict = s.dict ∧
    (State.sendRecord s dst).hp0 = s.hp0 ∧ (State.sendRecord s dst).hp1 = s.hp1 ∧ (State.sendRecord s dst).far0 =
    s.far0 ∧ (State.sendRecord s dst).far1 = s.far1 ∧ (State.sendRecord s dst).hbm = s.hbm ∧ (State.sendRecord s
    dst).mem = s.mem ∧ (State.sendRecord s dst).cores = s.cores ∧ (State.sendRecord s dst).harts = s.harts ∧
    (State.sendRecord s dst).stations = s.stations ∧ (State.sendRecord s dst).links = s.links ∧ (State.sendRecord s
    dst).coll = s.coll ∧ (State.sendRecord s dst).canopy = s.canopy ∧ (State.sendRecord s dst).rp = s.rp ∧
    (State.sendRecord s dst).guy = s.guy ∧ (State.sendRecord s dst).tt = s.tt ∧ (State.sendRecord s dst).job = s.job ∧
    (State.sendRecord s dst).pitch = s.pitch ∧ (State.sendRecord s dst).err = s.err ∧ (State.sendRecord s dst).ckpt =
    s.ckpt ∧ (State.sendRecord s dst).outputs = s.outputs ∧ (State.sendRecord s dst).reject = s.reject ∧
    (State.sendRecord s dst).nacks = s.nacks ∧ (State.sendRecord s dst).reissues = s.reissues := by
  unfold State.sendRecord
  try dsimp only
  (repeat' split) <;> simp []

@[simp] theorem State.continuePitch_keeps (s : State) (r : List Byte) (rank : Nat) : (State.continuePitch s r
    rank).out = s.out ∧ (State.continuePitch s r rank).start = s.start ∧ (State.continuePitch s r rank).power =
    s.power ∧ (State.continuePitch s r rank).recorder = s.recorder ∧ (State.continuePitch s r rank).sec = s.sec ∧
    (State.continuePitch s r rank).hp0 = s.hp0 ∧ (State.continuePitch s r rank).hp1 = s.hp1 ∧ (State.continuePitch s r
    rank).far0 = s.far0 ∧ (State.continuePitch s r rank).far1 = s.far1 ∧ (State.continuePitch s r rank).hbm =
    s.hbm ∧ (State.continuePitch s r rank).mem = s.mem ∧ (State.continuePitch s r rank).cores = s.cores ∧
    (State.continuePitch s r rank).harts = s.harts ∧ (State.continuePitch s r rank).stations = s.stations ∧
    (State.continuePitch s r rank).links = s.links ∧ (State.continuePitch s r rank).coll = s.coll ∧
    (State.continuePitch s r rank).canopy = s.canopy ∧ (State.continuePitch s r rank).rp = s.rp ∧ (State.continuePitch
    s r rank).tt = s.tt ∧ (State.continuePitch s r rank).pitch = s.pitch ∧ (State.continuePitch s r rank).err = s.err
    ∧ (State.continuePitch s r rank).ckpt = s.ckpt ∧ (State.continuePitch s r rank).outputs = s.outputs ∧
    (State.continuePitch s r rank).reject = s.reject ∧ (State.continuePitch s r rank).nacks = s.nacks ∧
    (State.continuePitch s r rank).reissues = s.reissues := by
  simp [State.continuePitch]

@[simp] theorem State.newPitch_keeps (s : State) (r : List Byte) (rank : Nat) : (State.newPitch s r rank).out = s.out
    ∧ (State.newPitch s r rank).start = s.start ∧ (State.newPitch s r rank).power = s.power ∧ (State.newPitch s r
    rank).recorder = s.recorder ∧ (State.newPitch s r rank).mram = s.mram ∧ (State.newPitch s r rank).sec = s.sec ∧
    (State.newPitch s r rank).dict = s.dict ∧ (State.newPitch s r rank).hp0 = s.hp0 ∧ (State.newPitch s r rank).hp1 =
    s.hp1 ∧ (State.newPitch s r rank).far0 = s.far0 ∧ (State.newPitch s r rank).far1 = s.far1 ∧ (State.newPitch s r
    rank).hbm = s.hbm ∧ (State.newPitch s r rank).mem = s.mem ∧ (State.newPitch s r rank).canopy = s.canopy ∧
    (State.newPitch s r rank).err = s.err ∧ (State.newPitch s r rank).outputs = s.outputs ∧ (State.newPitch s r
    rank).reject = s.reject := by
  simp [State.newPitch]

@[simp] theorem State.acceptPitch_keeps (s : State) (r : List Byte) (rank : Nat) : (State.acceptPitch s r rank).out =
    s.out ∧ (State.acceptPitch s r rank).start = s.start ∧ (State.acceptPitch s r rank).power = s.power ∧
    (State.acceptPitch s r rank).sec = s.sec ∧ (State.acceptPitch s r rank).hp0 = s.hp0 ∧ (State.acceptPitch s r
    rank).hp1 = s.hp1 ∧ (State.acceptPitch s r rank).far0 = s.far0 ∧ (State.acceptPitch s r rank).far1 = s.far1 ∧
    (State.acceptPitch s r rank).hbm = s.hbm ∧ (State.acceptPitch s r rank).mem = s.mem ∧ (State.acceptPitch s r
    rank).canopy = s.canopy ∧ (State.acceptPitch s r rank).err = s.err ∧ (State.acceptPitch s r rank).outputs =
    s.outputs ∧ (State.acceptPitch s r rank).reject = s.reject := by
  unfold State.acceptPitch
  try dsimp only
  (repeat' split) <;> simp []

@[simp] theorem State.rootRecordFail_keeps (s : State) (r : List Byte) (reason : Nat) : (State.rootRecordFail s r
    reason).out = s.out ∧ (State.rootRecordFail s r reason).start = s.start ∧ (State.rootRecordFail s r reason).power
    = s.power ∧ (State.rootRecordFail s r reason).mram = s.mram ∧ (State.rootRecordFail s r reason).sec = s.sec ∧
    (State.rootRecordFail s r reason).dict = s.dict ∧ (State.rootRecordFail s r reason).hp0 = s.hp0 ∧
    (State.rootRecordFail s r reason).hp1 = s.hp1 ∧ (State.rootRecordFail s r reason).far0 = s.far0 ∧
    (State.rootRecordFail s r reason).far1 = s.far1 ∧ (State.rootRecordFail s r reason).hbm = s.hbm ∧
    (State.rootRecordFail s r reason).mem = s.mem ∧ (State.rootRecordFail s r reason).canopy = s.canopy ∧
    (State.rootRecordFail s r reason).outputs = s.outputs ∧ (State.rootRecordFail s r reason).reject = s.reject := by
  unfold State.rootRecordFail
  try dsimp only
  (repeat' split) <;> simp []

@[simp] theorem State.requestPitch_keeps (s : State) (r : List Byte) : (State.requestPitch s r).out = s.out ∧
    (State.requestPitch s r).start = s.start ∧ (State.requestPitch s r).power = s.power ∧ (State.requestPitch s r).sec
    = s.sec ∧ (State.requestPitch s r).hp0 = s.hp0 ∧ (State.requestPitch s r).hp1 = s.hp1 ∧ (State.requestPitch s
    r).far0 = s.far0 ∧ (State.requestPitch s r).far1 = s.far1 ∧ (State.requestPitch s r).hbm = s.hbm ∧
    (State.requestPitch s r).mem = s.mem ∧ (State.requestPitch s r).canopy = s.canopy ∧ (State.requestPitch s
    r).outputs = s.outputs ∧ (State.requestPitch s r).reject = s.reject := by
  unfold State.requestPitch
  (repeat' split) <;> simp

@[simp] theorem State.discardPitch_keeps (s : State) : (State.discardPitch s).out = s.out ∧ (State.discardPitch
    s).start = s.start ∧ (State.discardPitch s).power = s.power ∧ (State.discardPitch s).recorder = s.recorder ∧
    (State.discardPitch s).mram = s.mram ∧ (State.discardPitch s).sec = s.sec ∧ (State.discardPitch s).dict = s.dict ∧
    (State.discardPitch s).hp0 = s.hp0 ∧ (State.discardPitch s).hp1 = s.hp1 ∧ (State.discardPitch s).far0 = s.far0 ∧
    (State.discardPitch s).far1 = s.far1 ∧ (State.discardPitch s).hbm = s.hbm ∧ (State.discardPitch s).mem =
    s.mem ∧ (State.discardPitch s).cores = s.cores ∧ (State.discardPitch s).harts = s.harts ∧ (State.discardPitch
    s).stations = s.stations ∧ (State.discardPitch s).links = s.links ∧ (State.discardPitch s).coll = s.coll ∧
    (State.discardPitch s).fab = s.fab ∧ (State.discardPitch s).canopy = s.canopy ∧ (State.discardPitch s).rp = s.rp ∧
    (State.discardPitch s).tt = s.tt ∧ (State.discardPitch s).job = s.job ∧ (State.discardPitch s).pitch = s.pitch ∧
    (State.discardPitch s).err = s.err ∧ (State.discardPitch s).ckpt = s.ckpt ∧ (State.discardPitch s).outputs =
    s.outputs ∧ (State.discardPitch s).reject = s.reject ∧ (State.discardPitch s).nacks = s.nacks ∧
    (State.discardPitch s).reissues = s.reissues := by
  simp [State.discardPitch]

@[simp] theorem State.recordDone_keeps (s : State) (k : Packet) (r : List Byte) : (State.recordDone s k r).out = s.out
    ∧ (State.recordDone s k r).start = s.start ∧ (State.recordDone s k r).power = s.power ∧ (State.recordDone s k
    r).sec = s.sec ∧ (State.recordDone s k r).hp0 = s.hp0 ∧ (State.recordDone s k r).hp1 = s.hp1 ∧ (State.recordDone s
    k r).far0 = s.far0 ∧ (State.recordDone s k r).far1 = s.far1 ∧ (State.recordDone s k r).hbm = s.hbm ∧
    (State.recordDone s k r).mem = s.mem ∧ (State.recordDone s k r).canopy = s.canopy ∧ (State.recordDone s k r).err =
    s.err ∧ (State.recordDone s k r).outputs = s.outputs ∧ (State.recordDone s k r).reject = s.reject := by
  unfold State.recordDone
  (repeat' split) <;> simp

@[simp] theorem State.recordPacket_keeps (s : State) (k : Packet) : (State.recordPacket s k).out = s.out ∧
    (State.recordPacket s k).start = s.start ∧ (State.recordPacket s k).power = s.power ∧ (State.recordPacket s k).sec
    = s.sec ∧ (State.recordPacket s k).hp0 = s.hp0 ∧ (State.recordPacket s k).hp1 = s.hp1 ∧ (State.recordPacket s
    k).far0 = s.far0 ∧ (State.recordPacket s k).far1 = s.far1 ∧ (State.recordPacket s k).hbm = s.hbm ∧
    (State.recordPacket s k).mem = s.mem ∧ (State.recordPacket s k).canopy = s.canopy ∧ (State.recordPacket s k).err =
    s.err ∧ (State.recordPacket s k).outputs = s.outputs ∧ (State.recordPacket s k).reject = s.reject := by
  simp [State.recordPacket]

@[simp] theorem State.childFail_keeps (s : State) (child reason rank : Nat) : (State.childFail s child reason
    rank).out = s.out ∧ (State.childFail s child reason rank).start = s.start ∧ (State.childFail s child reason
    rank).power = s.power ∧ (State.childFail s child reason rank).mram = s.mram ∧ (State.childFail s child reason
    rank).sec = s.sec ∧ (State.childFail s child reason rank).dict = s.dict ∧ (State.childFail s child reason
    rank).hp0 = s.hp0 ∧ (State.childFail s child reason rank).hp1 = s.hp1 ∧ (State.childFail s child reason rank).far0
    = s.far0 ∧ (State.childFail s child reason rank).far1 = s.far1 ∧ (State.childFail s child reason rank).hbm =
    s.hbm ∧ (State.childFail s child reason rank).mem = s.mem ∧ (State.childFail s child reason rank).canopy =
    s.canopy ∧ (State.childFail s child reason rank).outputs = s.outputs ∧ (State.childFail s child reason
    rank).reject = s.reject := by
  simp [State.childFail]

@[simp] theorem State.commandStrike_keeps (s : State) : (State.commandStrike s).out = s.out ∧ (State.commandStrike
    s).start = s.start ∧ (State.commandStrike s).power = s.power ∧ (State.commandStrike s).mram = s.mram ∧
    (State.commandStrike s).sec = s.sec ∧ (State.commandStrike s).dict = s.dict ∧ (State.commandStrike s).hp0 = s.hp0
    ∧ (State.commandStrike s).hp1 = s.hp1 ∧ (State.commandStrike s).far0 = s.far0 ∧ (State.commandStrike s).far1 =
    s.far1 ∧ (State.commandStrike s).hbm = s.hbm ∧ (State.commandStrike s).mem = s.mem ∧ (State.commandStrike
    s).canopy = s.canopy ∧ (State.commandStrike s).outputs = s.outputs ∧ (State.commandStrike s).reject = s.reject :=
    by
  simp [State.commandStrike]

@[simp] theorem State.commandQuiesce_keeps (s : State) : (State.commandQuiesce s).out = s.out ∧ (State.commandQuiesce
    s).start = s.start ∧ (State.commandQuiesce s).power = s.power ∧ (State.commandQuiesce s).recorder = s.recorder ∧
    (State.commandQuiesce s).mram = s.mram ∧ (State.commandQuiesce s).sec = s.sec ∧ (State.commandQuiesce s).dict =
    s.dict ∧ (State.commandQuiesce s).hp0 = s.hp0 ∧ (State.commandQuiesce s).hp1 = s.hp1 ∧ (State.commandQuiesce
    s).far0 = s.far0 ∧ (State.commandQuiesce s).far1 = s.far1 ∧ (State.commandQuiesce s).hbm = s.hbm ∧
    (State.commandQuiesce s).mem = s.mem ∧ (State.commandQuiesce s).cores = s.cores ∧ (State.commandQuiesce s).harts =
    s.harts ∧ (State.commandQuiesce s).stations = s.stations ∧ (State.commandQuiesce s).links = s.links ∧
    (State.commandQuiesce s).coll = s.coll ∧ (State.commandQuiesce s).fab = s.fab ∧ (State.commandQuiesce s).canopy =
    s.canopy ∧ (State.commandQuiesce s).rp = s.rp ∧ (State.commandQuiesce s).guy = s.guy ∧ (State.commandQuiesce s).tt
    = s.tt ∧ (State.commandQuiesce s).job = s.job ∧ (State.commandQuiesce s).err = s.err ∧ (State.commandQuiesce
    s).ckpt = s.ckpt ∧ (State.commandQuiesce s).outputs = s.outputs ∧ (State.commandQuiesce s).reject = s.reject ∧
    (State.commandQuiesce s).nacks = s.nacks ∧ (State.commandQuiesce s).reissues = s.reissues := by
  simp [State.commandQuiesce]

@[simp] theorem State.commandResume_keeps (s : State) : (State.commandResume s).out = s.out ∧ (State.commandResume
    s).start = s.start ∧ (State.commandResume s).power = s.power ∧ (State.commandResume s).mram = s.mram ∧
    (State.commandResume s).sec = s.sec ∧ (State.commandResume s).dict = s.dict ∧ (State.commandResume s).hp0 = s.hp0
    ∧ (State.commandResume s).hp1 = s.hp1 ∧ (State.commandResume s).far0 = s.far0 ∧ (State.commandResume s).far1 =
    s.far1 ∧ (State.commandResume s).hbm = s.hbm ∧ (State.commandResume s).mem = s.mem ∧ (State.commandResume
    s).cores = s.cores ∧ (State.commandResume s).harts = s.harts ∧ (State.commandResume s).stations = s.stations ∧
    (State.commandResume s).links = s.links ∧ (State.commandResume s).coll = s.coll ∧ (State.commandResume s).canopy =
    s.canopy ∧ (State.commandResume s).rp = s.rp ∧ (State.commandResume s).tt = s.tt ∧ (State.commandResume s).job =
    s.job ∧ (State.commandResume s).pitch = s.pitch ∧ (State.commandResume s).err = s.err ∧ (State.commandResume
    s).ckpt = s.ckpt ∧ (State.commandResume s).outputs = s.outputs ∧ (State.commandResume s).reject = s.reject ∧
    (State.commandResume s).nacks = s.nacks ∧ (State.commandResume s).reissues = s.reissues := by
  simp [State.commandResume]

@[simp] theorem State.commandLeave_keeps (s : State) : (State.commandLeave s).out = s.out ∧ (State.commandLeave
    s).start = s.start ∧ (State.commandLeave s).power = s.power ∧ (State.commandLeave s).recorder = s.recorder ∧
    (State.commandLeave s).mram = s.mram ∧ (State.commandLeave s).sec = s.sec ∧ (State.commandLeave s).dict = s.dict ∧
    (State.commandLeave s).hp0 = s.hp0 ∧ (State.commandLeave s).hp1 = s.hp1 ∧ (State.commandLeave s).far0 = s.far0 ∧
    (State.commandLeave s).far1 = s.far1 ∧ (State.commandLeave s).hbm = s.hbm ∧ (State.commandLeave s).mem =
    s.mem ∧ (State.commandLeave s).canopy = s.canopy ∧ (State.commandLeave s).err = s.err ∧ (State.commandLeave
    s).outputs = s.outputs ∧ (State.commandLeave s).reject = s.reject := by
  simp [State.commandLeave]

@[simp] theorem State.throttle_keeps (s : State) (old new die : Nat) : (State.throttle s old new die).out = s.out ∧
    (State.throttle s old new die).start = s.start ∧ (State.throttle s old new die).power = s.power ∧ (State.throttle
    s old new die).mram = s.mram ∧ (State.throttle s old new die).sec = s.sec ∧ (State.throttle s old new die).dict =
    s.dict ∧ (State.throttle s old new die).hp0 = s.hp0 ∧ (State.throttle s old new die).hp1 = s.hp1 ∧ (State.throttle
    s old new die).far0 = s.far0 ∧ (State.throttle s old new die).far1 = s.far1 ∧ (State.throttle s old new
    die).hbm = s.hbm ∧ (State.throttle s old new die).mem = s.mem ∧ (State.throttle s old new die).cores =
    s.cores ∧ (State.throttle s old new die).harts = s.harts ∧ (State.throttle s old new die).stations = s.stations ∧
    (State.throttle s old new die).links = s.links ∧ (State.throttle s old new die).coll = s.coll ∧ (State.throttle s
    old new die).fab = s.fab ∧ (State.throttle s old new die).canopy = s.canopy ∧ (State.throttle s old new die).rp =
    s.rp ∧ (State.throttle s old new die).guy = s.guy ∧ (State.throttle s old new die).tt = s.tt ∧ (State.throttle s
    old new die).job = s.job ∧ (State.throttle s old new die).pitch = s.pitch ∧ (State.throttle s old new die).err =
    s.err ∧ (State.throttle s old new die).ckpt = s.ckpt ∧ (State.throttle s old new die).outputs = s.outputs ∧
    (State.throttle s old new die).reject = s.reject ∧ (State.throttle s old new die).nacks = s.nacks ∧
    (State.throttle s old new die).reissues = s.reissues := by
  simp [State.throttle]

@[simp] theorem State.setThermalCap_keeps (s : State) (new die : Nat) : (State.setThermalCap s new die).out = s.out ∧
    (State.setThermalCap s new die).start = s.start ∧ (State.setThermalCap s new die).mram = s.mram ∧
    (State.setThermalCap s new die).sec = s.sec ∧ (State.setThermalCap s new die).dict = s.dict ∧ (State.setThermalCap
    s new die).hp0 = s.hp0 ∧ (State.setThermalCap s new die).hp1 = s.hp1 ∧ (State.setThermalCap s new die).far0 =
    s.far0 ∧ (State.setThermalCap s new die).far1 = s.far1 ∧ (State.setThermalCap s new die).hbm = s.hbm ∧
    (State.setThermalCap s new die).mem = s.mem ∧ (State.setThermalCap s new die).cores = s.cores ∧
    (State.setThermalCap s new die).harts = s.harts ∧ (State.setThermalCap s new die).stations = s.stations ∧
    (State.setThermalCap s new die).links = s.links ∧ (State.setThermalCap s new die).coll = s.coll ∧
    (State.setThermalCap s new die).fab = s.fab ∧ (State.setThermalCap s new die).canopy = s.canopy ∧
    (State.setThermalCap s new die).rp = s.rp ∧ (State.setThermalCap s new die).guy = s.guy ∧ (State.setThermalCap s
    new die).tt = s.tt ∧ (State.setThermalCap s new die).job = s.job ∧ (State.setThermalCap s new die).pitch = s.pitch
    ∧ (State.setThermalCap s new die).err = s.err ∧ (State.setThermalCap s new die).ckpt = s.ckpt ∧
    (State.setThermalCap s new die).outputs = s.outputs ∧ (State.setThermalCap s new die).reject = s.reject ∧
    (State.setThermalCap s new die).nacks = s.nacks ∧ (State.setThermalCap s new die).reissues = s.reissues := by
  simp [State.setThermalCap]

@[simp] theorem State.setPowerCap_keeps (s : State) (new : Nat) : (State.setPowerCap s new).out = s.out ∧
    (State.setPowerCap s new).start = s.start ∧ (State.setPowerCap s new).mram = s.mram ∧ (State.setPowerCap s
    new).sec = s.sec ∧ (State.setPowerCap s new).dict = s.dict ∧ (State.setPowerCap s new).hp0 = s.hp0 ∧
    (State.setPowerCap s new).hp1 = s.hp1 ∧ (State.setPowerCap s new).far0 = s.far0 ∧ (State.setPowerCap s new).far1 =
    s.far1 ∧ (State.setPowerCap s new).hbm = s.hbm ∧ (State.setPowerCap s new).mem = s.mem ∧ (State.setPowerCap
    s new).cores = s.cores ∧ (State.setPowerCap s new).harts = s.harts ∧ (State.setPowerCap s new).stations =
    s.stations ∧ (State.setPowerCap s new).links = s.links ∧ (State.setPowerCap s new).coll = s.coll ∧
    (State.setPowerCap s new).fab = s.fab ∧ (State.setPowerCap s new).canopy = s.canopy ∧ (State.setPowerCap s new).rp
    = s.rp ∧ (State.setPowerCap s new).guy = s.guy ∧ (State.setPowerCap s new).tt = s.tt ∧ (State.setPowerCap s
    new).job = s.job ∧ (State.setPowerCap s new).pitch = s.pitch ∧ (State.setPowerCap s new).err = s.err ∧
    (State.setPowerCap s new).ckpt = s.ckpt ∧ (State.setPowerCap s new).outputs = s.outputs ∧ (State.setPowerCap s
    new).reject = s.reject ∧ (State.setPowerCap s new).nacks = s.nacks ∧ (State.setPowerCap s new).reissues =
    s.reissues := by
  simp [State.setPowerCap]

@[simp] theorem State.startCounter_keeps (s : State) : (State.startCounter s).out = s.out ∧ (State.startCounter
    s).start = s.start ∧ (State.startCounter s).recorder = s.recorder ∧ (State.startCounter s).mram = s.mram ∧
    (State.startCounter s).sec = s.sec ∧ (State.startCounter s).dict = s.dict ∧ (State.startCounter s).hp0 = s.hp0 ∧
    (State.startCounter s).hp1 = s.hp1 ∧ (State.startCounter s).far0 = s.far0 ∧ (State.startCounter s).far1 = s.far1 ∧
    (State.startCounter s).hbm = s.hbm ∧ (State.startCounter s).mem = s.mem ∧ (State.startCounter s).cores =
    s.cores ∧ (State.startCounter s).harts = s.harts ∧ (State.startCounter s).stations = s.stations ∧
    (State.startCounter s).links = s.links ∧ (State.startCounter s).coll = s.coll ∧ (State.startCounter s).fab = s.fab
    ∧ (State.startCounter s).canopy = s.canopy ∧ (State.startCounter s).rp = s.rp ∧ (State.startCounter s).guy = s.guy
    ∧ (State.startCounter s).tt = s.tt ∧ (State.startCounter s).job = s.job ∧ (State.startCounter s).pitch = s.pitch ∧
    (State.startCounter s).err = s.err ∧ (State.startCounter s).ckpt = s.ckpt ∧ (State.startCounter s).outputs =
    s.outputs ∧ (State.startCounter s).reject = s.reject ∧ (State.startCounter s).nacks = s.nacks ∧
    (State.startCounter s).reissues = s.reissues := by
  simp [State.startCounter]

@[simp] theorem addEcc_keeps (a1 : Nat) (a2 : List Nat) (st : State) : (addEcc a1 a2 st).out = st.out ∧ (addEcc a1 a2
    st).start = st.start ∧ (addEcc a1 a2 st).power = st.power ∧ (addEcc a1 a2 st).recorder = st.recorder ∧ (addEcc a1
    a2 st).mram = st.mram ∧ (addEcc a1 a2 st).sec = st.sec ∧ (addEcc a1 a2 st).dict = st.dict ∧ (addEcc a1 a2 st).hp0
    = st.hp0 ∧ (addEcc a1 a2 st).hp1 = st.hp1 ∧ (addEcc a1 a2 st).far0 = st.far0 ∧ (addEcc a1 a2 st).far1 = st.far1 ∧
    (addEcc a1 a2 st).mem = st.mem ∧ (addEcc a1 a2 st).cores = st.cores ∧ (addEcc a1 a2 st).harts = st.harts ∧ (addEcc
    a1 a2 st).stations = st.stations ∧ (addEcc a1 a2 st).links = st.links ∧ (addEcc a1 a2 st).coll = st.coll ∧ (addEcc
    a1 a2 st).fab = st.fab ∧ (addEcc a1 a2 st).canopy = st.canopy ∧ (addEcc a1 a2 st).rp = st.rp ∧ (addEcc a1 a2
    st).guy = st.guy ∧ (addEcc a1 a2 st).tt = st.tt ∧ (addEcc a1 a2 st).job = st.job ∧ (addEcc a1 a2 st).pitch =
    st.pitch ∧ (addEcc a1 a2 st).err = st.err ∧ (addEcc a1 a2 st).ckpt = st.ckpt ∧ (addEcc a1 a2 st).outputs =
    st.outputs ∧ (addEcc a1 a2 st).reject = st.reject ∧ (addEcc a1 a2 st).nacks = st.nacks ∧ (addEcc a1 a2
    st).reissues = st.reissues := by
  fun_induction addEcc <;> simp_all

@[simp] theorem State.putD2d_keeps (s : State) (a b : Nat) (l : D2dLink) : (State.putD2d s a b l).out = s.out ∧
    (State.putD2d s a b l).start = s.start ∧ (State.putD2d s a b l).power = s.power ∧ (State.putD2d s a b l).recorder
    = s.recorder ∧ (State.putD2d s a b l).mram = s.mram ∧ (State.putD2d s a b l).sec = s.sec ∧ (State.putD2d s a b
    l).dict = s.dict ∧ (State.putD2d s a b l).hp0 = s.hp0 ∧ (State.putD2d s a b l).hp1 = s.hp1 ∧ (State.putD2d s a b
    l).far0 = s.far0 ∧ (State.putD2d s a b l).far1 = s.far1 ∧ (State.putD2d s a b l).hbm = s.hbm ∧ (State.putD2d
    s a b l).mem = s.mem ∧ (State.putD2d s a b l).cores = s.cores ∧ (State.putD2d s a b l).harts = s.harts ∧
    (State.putD2d s a b l).stations = s.stations ∧ (State.putD2d s a b l).links = s.links ∧ (State.putD2d s a b
    l).coll = s.coll ∧ (State.putD2d s a b l).canopy = s.canopy ∧ (State.putD2d s a b l).rp = s.rp ∧ (State.putD2d s a
    b l).guy = s.guy ∧ (State.putD2d s a b l).tt = s.tt ∧ (State.putD2d s a b l).job = s.job ∧ (State.putD2d s a b
    l).pitch = s.pitch ∧ (State.putD2d s a b l).err = s.err ∧ (State.putD2d s a b l).ckpt = s.ckpt ∧ (State.putD2d s a
    b l).outputs = s.outputs ∧ (State.putD2d s a b l).reject = s.reject ∧ (State.putD2d s a b l).nacks = s.nacks ∧
    (State.putD2d s a b l).reissues = s.reissues := by
  simp [State.putD2d]

@[simp] theorem State.d2dFail_keeps (s : State) (a b : Nat) (l : D2dLink) (naks : Nat) : (State.d2dFail s a b l
    naks).power = s.power ∧ (State.d2dFail s a b l naks).mram = s.mram ∧ (State.d2dFail s a b l naks).sec = s.sec ∧
    (State.d2dFail s a b l naks).dict = s.dict ∧ (State.d2dFail s a b l naks).hp0 = s.hp0 ∧ (State.d2dFail s a b l
    naks).hp1 = s.hp1 ∧ (State.d2dFail s a b l naks).far0 = s.far0 ∧ (State.d2dFail s a b l naks).far1 = s.far1 ∧
    (State.d2dFail s a b l naks).hbm = s.hbm ∧ (State.d2dFail s a b l naks).mem = s.mem ∧ (State.d2dFail s a b l
    naks).canopy = s.canopy ∧ (State.d2dFail s a b l naks).outputs = s.outputs ∧ (State.d2dFail s a b l naks).reject =
    s.reject := by
  simp [State.d2dFail]

@[simp] theorem State.tryTrain_keeps (s : State) (p : Nat) : (State.tryTrain s p).out = s.out ∧ (State.tryTrain s
    p).start = s.start ∧ (State.tryTrain s p).power = s.power ∧ (State.tryTrain s p).recorder = s.recorder ∧
    (State.tryTrain s p).mram = s.mram ∧ (State.tryTrain s p).sec = s.sec ∧ (State.tryTrain s p).dict = s.dict ∧
    (State.tryTrain s p).hp0 = s.hp0 ∧ (State.tryTrain s p).hp1 = s.hp1 ∧ (State.tryTrain s p).far0 = s.far0 ∧
    (State.tryTrain s p).far1 = s.far1 ∧ (State.tryTrain s p).hbm = s.hbm ∧ (State.tryTrain s p).mem = s.mem ∧
    (State.tryTrain s p).cores = s.cores ∧ (State.tryTrain s p).harts = s.harts ∧ (State.tryTrain s p).stations =
    s.stations ∧ (State.tryTrain s p).links = s.links ∧ (State.tryTrain s p).coll = s.coll ∧ (State.tryTrain s
    p).canopy = s.canopy ∧ (State.tryTrain s p).rp = s.rp ∧ (State.tryTrain s p).guy = s.guy ∧ (State.tryTrain s p).tt
    = s.tt ∧ (State.tryTrain s p).job = s.job ∧ (State.tryTrain s p).pitch = s.pitch ∧ (State.tryTrain s p).err =
    s.err ∧ (State.tryTrain s p).ckpt = s.ckpt ∧ (State.tryTrain s p).outputs = s.outputs ∧ (State.tryTrain s
    p).reject = s.reject ∧ (State.tryTrain s p).nacks = s.nacks ∧ (State.tryTrain s p).reissues = s.reissues := by
  simp [State.tryTrain]

@[simp] theorem State.failover_keeps (s : State) (p : Nat) : (State.failover s p).out = s.out ∧ (State.failover s
    p).start = s.start ∧ (State.failover s p).mram = s.mram ∧ (State.failover s p).sec = s.sec ∧ (State.failover s
    p).dict = s.dict ∧ (State.failover s p).hp0 = s.hp0 ∧ (State.failover s p).hp1 = s.hp1 ∧ (State.failover s p).far0
    = s.far0 ∧ (State.failover s p).far1 = s.far1 ∧ (State.failover s p).hbm = s.hbm ∧ (State.failover s
    p).canopy = s.canopy ∧ (State.failover s p).reject = s.reject := by
  unfold State.failover
  try dsimp only
  (repeat' split) <;> simp []

@[simp] theorem State.portDown_keeps (s : State) (p cause : Nat) : (State.portDown s p cause).out = s.out ∧
    (State.portDown s p cause).start = s.start ∧ (State.portDown s p cause).mram = s.mram ∧ (State.portDown s p
    cause).sec = s.sec ∧ (State.portDown s p cause).dict = s.dict ∧ (State.portDown s p cause).hp0 = s.hp0 ∧
    (State.portDown s p cause).hp1 = s.hp1 ∧ (State.portDown s p cause).far0 = s.far0 ∧ (State.portDown s p
    cause).far1 = s.far1 ∧ (State.portDown s p cause).hbm = s.hbm ∧ (State.portDown s p cause).canopy = s.canopy
    ∧ (State.portDown s p cause).reject = s.reject := by
  simp [State.portDown]

@[simp] theorem State.holdPort_keeps (s : State) (p : Nat) : (State.holdPort s p).out = s.out ∧ (State.holdPort s
    p).start = s.start ∧ (State.holdPort s p).power = s.power ∧ (State.holdPort s p).mram = s.mram ∧ (State.holdPort s
    p).sec = s.sec ∧ (State.holdPort s p).dict = s.dict ∧ (State.holdPort s p).hp0 = s.hp0 ∧ (State.holdPort s p).hp1
    = s.hp1 ∧ (State.holdPort s p).far0 = s.far0 ∧ (State.holdPort s p).far1 = s.far1 ∧ (State.holdPort s p).hbm =
    s.hbm ∧ (State.holdPort s p).mem = s.mem ∧ (State.holdPort s p).cores = s.cores ∧ (State.holdPort s p).harts =
    s.harts ∧ (State.holdPort s p).stations = s.stations ∧ (State.holdPort s p).links = s.links ∧ (State.holdPort s
    p).coll = s.coll ∧ (State.holdPort s p).canopy = s.canopy ∧ (State.holdPort s p).rp = s.rp ∧ (State.holdPort s
    p).guy = s.guy ∧ (State.holdPort s p).tt = s.tt ∧ (State.holdPort s p).job = s.job ∧ (State.holdPort s p).pitch =
    s.pitch ∧ (State.holdPort s p).err = s.err ∧ (State.holdPort s p).ckpt = s.ckpt ∧ (State.holdPort s p).outputs =
    s.outputs ∧ (State.holdPort s p).reject = s.reject ∧ (State.holdPort s p).nacks = s.nacks ∧ (State.holdPort s
    p).reissues = s.reissues := by
  simp [State.holdPort]

@[simp] theorem State.adminChanged_keeps (s : State) (p : Nat) : (State.adminChanged s p).out = s.out ∧
    (State.adminChanged s p).start = s.start ∧ (State.adminChanged s p).mram = s.mram ∧ (State.adminChanged s p).sec =
    s.sec ∧ (State.adminChanged s p).dict = s.dict ∧ (State.adminChanged s p).hp0 = s.hp0 ∧ (State.adminChanged s
    p).hp1 = s.hp1 ∧ (State.adminChanged s p).far0 = s.far0 ∧ (State.adminChanged s p).far1 = s.far1 ∧
    (State.adminChanged s p).hbm = s.hbm ∧ (State.adminChanged s p).canopy = s.canopy ∧ (State.adminChanged s
    p).reject = s.reject := by
  unfold State.adminChanged
  (repeat' split) <;> simp

@[simp] theorem State.putPortMap_keeps (s : State) (m : List Nat) : (State.putPortMap s m).out = s.out ∧
    (State.putPortMap s m).start = s.start ∧ (State.putPortMap s m).power = s.power ∧ (State.putPortMap s m).recorder
    = s.recorder ∧ (State.putPortMap s m).mram = s.mram ∧ (State.putPortMap s m).sec = s.sec ∧ (State.putPortMap s
    m).dict = s.dict ∧ (State.putPortMap s m).hp0 = s.hp0 ∧ (State.putPortMap s m).hp1 = s.hp1 ∧ (State.putPortMap s
    m).far0 = s.far0 ∧ (State.putPortMap s m).far1 = s.far1 ∧ (State.putPortMap s m).hbm = s.hbm ∧
    (State.putPortMap s m).mem = s.mem ∧ (State.putPortMap s m).cores = s.cores ∧ (State.putPortMap s m).harts =
    s.harts ∧ (State.putPortMap s m).stations = s.stations ∧ (State.putPortMap s m).links = s.links ∧
    (State.putPortMap s m).coll = s.coll ∧ (State.putPortMap s m).canopy = s.canopy ∧ (State.putPortMap s m).rp = s.rp
    ∧ (State.putPortMap s m).guy = s.guy ∧ (State.putPortMap s m).tt = s.tt ∧ (State.putPortMap s m).job = s.job ∧
    (State.putPortMap s m).pitch = s.pitch ∧ (State.putPortMap s m).err = s.err ∧ (State.putPortMap s m).ckpt = s.ckpt
    ∧ (State.putPortMap s m).outputs = s.outputs ∧ (State.putPortMap s m).reject = s.reject ∧ (State.putPortMap s
    m).nacks = s.nacks ∧ (State.putPortMap s m).reissues = s.reissues := by
  unfold State.putPortMap
  try dsimp only
  (repeat' split) <;> simp []

@[simp] theorem State.linkAck_keeps (s : State) (p num : Nat) : (State.linkAck s p num).out = s.out ∧ (State.linkAck s
    p num).start = s.start ∧ (State.linkAck s p num).mram = s.mram ∧ (State.linkAck s p num).sec = s.sec ∧
    (State.linkAck s p num).dict = s.dict ∧ (State.linkAck s p num).hp0 = s.hp0 ∧ (State.linkAck s p num).hp1 = s.hp1
    ∧ (State.linkAck s p num).far0 = s.far0 ∧ (State.linkAck s p num).far1 = s.far1 ∧ (State.linkAck s p num).hbm =
    s.hbm ∧ (State.linkAck s p num).canopy = s.canopy ∧ (State.linkAck s p num).reject = s.reject := by
  simp [State.linkAck]

@[simp] theorem State.linkNak_keeps (s : State) (p num : Nat) : (State.linkNak s p num).start = s.start ∧
    (State.linkNak s p num).mram = s.mram ∧ (State.linkNak s p num).sec = s.sec ∧ (State.linkNak s p num).dict =
    s.dict ∧ (State.linkNak s p num).hp0 = s.hp0 ∧ (State.linkNak s p num).hp1 = s.hp1 ∧ (State.linkNak s p num).far0
    = s.far0 ∧ (State.linkNak s p num).far1 = s.far1 ∧ (State.linkNak s p num).hbm = s.hbm ∧ (State.linkNak s p
    num).canopy = s.canopy ∧ (State.linkNak s p num).reject = s.reject := by
  simp [State.linkNak]

@[simp] theorem State.linkCredit_keeps (s : State) (p lane flits : Nat) : (State.linkCredit s p lane flits).out =
    s.out ∧ (State.linkCredit s p lane flits).start = s.start ∧ (State.linkCredit s p lane flits).power = s.power ∧
    (State.linkCredit s p lane flits).recorder = s.recorder ∧ (State.linkCredit s p lane flits).mram = s.mram ∧
    (State.linkCredit s p lane flits).sec = s.sec ∧ (State.linkCredit s p lane flits).dict = s.dict ∧
    (State.linkCredit s p lane flits).hp0 = s.hp0 ∧ (State.linkCredit s p lane flits).hp1 = s.hp1 ∧ (State.linkCredit
    s p lane flits).far0 = s.far0 ∧ (State.linkCredit s p lane flits).far1 = s.far1 ∧ (State.linkCredit s p lane
    flits).hbm = s.hbm ∧ (State.linkCredit s p lane flits).mem = s.mem ∧ (State.linkCredit s p lane flits).cores
    = s.cores ∧ (State.linkCredit s p lane flits).harts = s.harts ∧ (State.linkCredit s p lane flits).stations =
    s.stations ∧ (State.linkCredit s p lane flits).links = s.links ∧ (State.linkCredit s p lane flits).coll = s.coll ∧
    (State.linkCredit s p lane flits).canopy = s.canopy ∧ (State.linkCredit s p lane flits).rp = s.rp ∧
    (State.linkCredit s p lane flits).guy = s.guy ∧ (State.linkCredit s p lane flits).tt = s.tt ∧ (State.linkCredit s
    p lane flits).job = s.job ∧ (State.linkCredit s p lane flits).pitch = s.pitch ∧ (State.linkCredit s p lane
    flits).err = s.err ∧ (State.linkCredit s p lane flits).ckpt = s.ckpt ∧ (State.linkCredit s p lane flits).outputs =
    s.outputs ∧ (State.linkCredit s p lane flits).reject = s.reject ∧ (State.linkCredit s p lane flits).nacks =
    s.nacks ∧ (State.linkCredit s p lane flits).reissues = s.reissues := by
  simp [State.linkCredit]

@[simp] theorem State.takeLink_keeps (s : State) (p : Nat) (a1 : LinkWord) : (State.takeLink s p a1).start = s.start ∧
    (State.takeLink s p a1).mram = s.mram ∧ (State.takeLink s p a1).sec = s.sec ∧ (State.takeLink s p a1).dict =
    s.dict ∧ (State.takeLink s p a1).hp0 = s.hp0 ∧ (State.takeLink s p a1).hp1 = s.hp1 ∧ (State.takeLink s p a1).far0
    = s.far0 ∧ (State.takeLink s p a1).far1 = s.far1 ∧ (State.takeLink s p a1).hbm = s.hbm ∧ (State.takeLink s p
    a1).canopy = s.canopy ∧ (State.takeLink s p a1).reject = s.reject := by
  unfold State.takeLink
  (repeat' split) <;> simp

@[simp] theorem State.rxPackets_keeps (s : State) (p : Nat) (pkts : List WirePacket) : (State.rxPackets s p pkts).out
    = s.out ∧ (State.rxPackets s p pkts).start = s.start ∧ (State.rxPackets s p pkts).power = s.power ∧
    (State.rxPackets s p pkts).recorder = s.recorder ∧ (State.rxPackets s p pkts).mram = s.mram ∧ (State.rxPackets s p
    pkts).sec = s.sec ∧ (State.rxPackets s p pkts).dict = s.dict ∧ (State.rxPackets s p pkts).hp0 = s.hp0 ∧
    (State.rxPackets s p pkts).hp1 = s.hp1 ∧ (State.rxPackets s p pkts).far0 = s.far0 ∧ (State.rxPackets s p
    pkts).far1 = s.far1 ∧ (State.rxPackets s p pkts).hbm = s.hbm ∧ (State.rxPackets s p pkts).mem = s.mem ∧
    (State.rxPackets s p pkts).cores = s.cores ∧ (State.rxPackets s p pkts).harts = s.harts ∧ (State.rxPackets s p
    pkts).stations = s.stations ∧ (State.rxPackets s p pkts).links = s.links ∧ (State.rxPackets s p pkts).coll =
    s.coll ∧ (State.rxPackets s p pkts).canopy = s.canopy ∧ (State.rxPackets s p pkts).rp = s.rp ∧ (State.rxPackets s
    p pkts).guy = s.guy ∧ (State.rxPackets s p pkts).tt = s.tt ∧ (State.rxPackets s p pkts).job = s.job ∧
    (State.rxPackets s p pkts).pitch = s.pitch ∧ (State.rxPackets s p pkts).err = s.err ∧ (State.rxPackets s p
    pkts).ckpt = s.ckpt ∧ (State.rxPackets s p pkts).outputs = s.outputs ∧ (State.rxPackets s p pkts).reject =
    s.reject ∧ (State.rxPackets s p pkts).nacks = s.nacks ∧ (State.rxPackets s p pkts).reissues = s.reissues := by
  unfold State.rxPackets
  try dsimp only
  (repeat' split) <;> simp []

@[simp] theorem State.nakCodeword_keeps (s : State) (p : Nat) : (State.nakCodeword s p).start = s.start ∧
    (State.nakCodeword s p).power = s.power ∧ (State.nakCodeword s p).recorder = s.recorder ∧ (State.nakCodeword s
    p).mram = s.mram ∧ (State.nakCodeword s p).sec = s.sec ∧ (State.nakCodeword s p).dict = s.dict ∧
    (State.nakCodeword s p).hp0 = s.hp0 ∧ (State.nakCodeword s p).hp1 = s.hp1 ∧ (State.nakCodeword s p).far0 = s.far0
    ∧ (State.nakCodeword s p).far1 = s.far1 ∧ (State.nakCodeword s p).hbm = s.hbm ∧ (State.nakCodeword s p).mem
    = s.mem ∧ (State.nakCodeword s p).cores = s.cores ∧ (State.nakCodeword s p).harts = s.harts ∧ (State.nakCodeword s
    p).stations = s.stations ∧ (State.nakCodeword s p).links = s.links ∧ (State.nakCodeword s p).coll = s.coll ∧
    (State.nakCodeword s p).canopy = s.canopy ∧ (State.nakCodeword s p).rp = s.rp ∧ (State.nakCodeword s p).guy =
    s.guy ∧ (State.nakCodeword s p).tt = s.tt ∧ (State.nakCodeword s p).job = s.job ∧ (State.nakCodeword s p).pitch =
    s.pitch ∧ (State.nakCodeword s p).err = s.err ∧ (State.nakCodeword s p).ckpt = s.ckpt ∧ (State.nakCodeword s
    p).outputs = s.outputs ∧ (State.nakCodeword s p).reject = s.reject ∧ (State.nakCodeword s p).nacks = s.nacks ∧
    (State.nakCodeword s p).reissues = s.reissues := by
  simp [State.nakCodeword]

@[simp] theorem State.drainTables_keeps (s : State) : (State.drainTables s).out = s.out ∧ (State.drainTables s).start
    = s.start ∧ (State.drainTables s).power = s.power ∧ (State.drainTables s).recorder = s.recorder ∧
    (State.drainTables s).mram = s.mram ∧ (State.drainTables s).sec = s.sec ∧ (State.drainTables s).dict = s.dict ∧
    (State.drainTables s).hp0 = s.hp0 ∧ (State.drainTables s).hp1 = s.hp1 ∧ (State.drainTables s).far0 = s.far0 ∧
    (State.drainTables s).far1 = s.far1 ∧ (State.drainTables s).hbm = s.hbm ∧ (State.drainTables s).mem = s.mem
    ∧ (State.drainTables s).cores = s.cores ∧ (State.drainTables s).harts = s.harts ∧ (State.drainTables s).stations =
    s.stations ∧ (State.drainTables s).links = s.links ∧ (State.drainTables s).coll = s.coll ∧ (State.drainTables
    s).canopy = s.canopy ∧ (State.drainTables s).rp = s.rp ∧ (State.drainTables s).guy = s.guy ∧ (State.drainTables
    s).tt = s.tt ∧ (State.drainTables s).job = s.job ∧ (State.drainTables s).pitch = s.pitch ∧ (State.drainTables
    s).err = s.err ∧ (State.drainTables s).ckpt = s.ckpt ∧ (State.drainTables s).outputs = s.outputs ∧
    (State.drainTables s).reject = s.reject ∧ (State.drainTables s).nacks = s.nacks ∧ (State.drainTables s).reissues =
    s.reissues := by
  simp [State.drainTables]

@[simp] theorem State.applyTables_keeps (s : State) : (State.applyTables s).out = s.out ∧ (State.applyTables s).start
    = s.start ∧ (State.applyTables s).power = s.power ∧ (State.applyTables s).mram = s.mram ∧ (State.applyTables
    s).sec = s.sec ∧ (State.applyTables s).dict = s.dict ∧ (State.applyTables s).hp0 = s.hp0 ∧ (State.applyTables
    s).hp1 = s.hp1 ∧ (State.applyTables s).far0 = s.far0 ∧ (State.applyTables s).far1 = s.far1 ∧ (State.applyTables
    s).hbm = s.hbm ∧ (State.applyTables s).mem = s.mem ∧ (State.applyTables s).cores = s.cores ∧
    (State.applyTables s).harts = s.harts ∧ (State.applyTables s).stations = s.stations ∧ (State.applyTables s).links
    = s.links ∧ (State.applyTables s).coll = s.coll ∧ (State.applyTables s).canopy = s.canopy ∧ (State.applyTables
    s).rp = s.rp ∧ (State.applyTables s).guy = s.guy ∧ (State.applyTables s).tt = s.tt ∧ (State.applyTables s).job =
    s.job ∧ (State.applyTables s).pitch = s.pitch ∧ (State.applyTables s).err = s.err ∧ (State.applyTables s).ckpt =
    s.ckpt ∧ (State.applyTables s).outputs = s.outputs ∧ (State.applyTables s).reject = s.reject ∧ (State.applyTables
    s).nacks = s.nacks ∧ (State.applyTables s).reissues = s.reissues := by
  simp [State.applyTables]

@[simp] theorem State.cancelTables_keeps (s : State) : (State.cancelTables s).out = s.out ∧ (State.cancelTables
    s).start = s.start ∧ (State.cancelTables s).power = s.power ∧ (State.cancelTables s).recorder = s.recorder ∧
    (State.cancelTables s).mram = s.mram ∧ (State.cancelTables s).sec = s.sec ∧ (State.cancelTables s).dict = s.dict ∧
    (State.cancelTables s).hp0 = s.hp0 ∧ (State.cancelTables s).hp1 = s.hp1 ∧ (State.cancelTables s).far0 = s.far0 ∧
    (State.cancelTables s).far1 = s.far1 ∧ (State.cancelTables s).hbm = s.hbm ∧ (State.cancelTables s).mem =
    s.mem ∧ (State.cancelTables s).cores = s.cores ∧ (State.cancelTables s).harts = s.harts ∧ (State.cancelTables
    s).stations = s.stations ∧ (State.cancelTables s).links = s.links ∧ (State.cancelTables s).coll = s.coll ∧
    (State.cancelTables s).canopy = s.canopy ∧ (State.cancelTables s).rp = s.rp ∧ (State.cancelTables s).guy = s.guy ∧
    (State.cancelTables s).tt = s.tt ∧ (State.cancelTables s).job = s.job ∧ (State.cancelTables s).pitch = s.pitch ∧
    (State.cancelTables s).err = s.err ∧ (State.cancelTables s).ckpt = s.ckpt ∧ (State.cancelTables s).outputs =
    s.outputs ∧ (State.cancelTables s).reject = s.reject ∧ (State.cancelTables s).nacks = s.nacks ∧
    (State.cancelTables s).reissues = s.reissues := by
  simp [State.cancelTables]

end Sys2Proof.Machine
end

