-- ==== Sys2Proof/Laws/KeepsDict.lean ====
section
/-!
SUPPORT. What each operation leaves unchanged: the dictionary service, harts and the recorder.
-/

set_option Elab.async false
namespace Sys2Proof.Machine

open Sys2Proof Rv

@[simp] theorem State.respond_keeps (s : State) (q : DictReq) (r : Req) (code flags : Nat) (body : List Byte) :
    (State.respond s q r code flags body).start = s.start ∧ (State.respond s q r code flags body).power = s.power ∧
    (State.respond s q r code flags body).recorder = s.recorder ∧ (State.respond s q r code flags body).mram = s.mram
    ∧ (State.respond s q r code flags body).sec = s.sec ∧ (State.respond s q r code flags body).far0 = s.far0 ∧
    (State.respond s q r code flags body).far1 = s.far1 ∧ (State.respond s q r code flags body).hbm = s.hbm ∧
    (State.respond s q r code flags body).mem = s.mem ∧ (State.respond s q r code flags body).cores = s.cores ∧
    (State.respond s q r code flags body).harts = s.harts ∧ (State.respond s q r code flags body).stations =
    s.stations ∧ (State.respond s q r code flags body).links = s.links ∧ (State.respond s q r code flags body).coll =
    s.coll ∧ (State.respond s q r code flags body).fab = s.fab ∧ (State.respond s q r code flags body).canopy =
    s.canopy ∧ (State.respond s q r code flags body).rp = s.rp ∧ (State.respond s q r code flags body).guy = s.guy ∧
    (State.respond s q r code flags body).tt = s.tt ∧ (State.respond s q r code flags body).job = s.job ∧
    (State.respond s q r code flags body).pitch = s.pitch ∧ (State.respond s q r code flags body).err = s.err ∧
    (State.respond s q r code flags body).ckpt = s.ckpt ∧ (State.respond s q r code flags body).outputs = s.outputs ∧
    (State.respond s q r code flags body).reject = s.reject ∧ (State.respond s q r code flags body).nacks = s.nacks ∧
    (State.respond s q r code flags body).reissues = s.reissues := by
  unfold State.respond
  (repeat' split) <;> simp

@[simp] theorem State.refuse_keeps (s : State) (q : DictReq) (r : Req) (code : Nat) : (State.refuse s q r code).start
    = s.start ∧ (State.refuse s q r code).power = s.power ∧ (State.refuse s q r code).recorder = s.recorder ∧
    (State.refuse s q r code).mram = s.mram ∧ (State.refuse s q r code).sec = s.sec ∧ (State.refuse s q r code).far0 =
    s.far0 ∧ (State.refuse s q r code).far1 = s.far1 ∧ (State.refuse s q r code).hbm = s.hbm ∧ (State.refuse s q
    r code).mem = s.mem ∧ (State.refuse s q r code).cores = s.cores ∧ (State.refuse s q r code).harts = s.harts ∧
    (State.refuse s q r code).stations = s.stations ∧ (State.refuse s q r code).links = s.links ∧ (State.refuse s q r
    code).coll = s.coll ∧ (State.refuse s q r code).fab = s.fab ∧ (State.refuse s q r code).canopy = s.canopy ∧
    (State.refuse s q r code).rp = s.rp ∧ (State.refuse s q r code).guy = s.guy ∧ (State.refuse s q r code).tt = s.tt
    ∧ (State.refuse s q r code).job = s.job ∧ (State.refuse s q r code).pitch = s.pitch ∧ (State.refuse s q r
    code).err = s.err ∧ (State.refuse s q r code).ckpt = s.ckpt ∧ (State.refuse s q r code).outputs = s.outputs ∧
    (State.refuse s q r code).reject = s.reject ∧ (State.refuse s q r code).nacks = s.nacks ∧ (State.refuse s q r
    code).reissues = s.reissues := by
  simp [State.refuse]

@[simp] theorem State.renewLeases_keeps (s : State) (p : DictPath) : (State.renewLeases s p).out = s.out ∧
    (State.renewLeases s p).start = s.start ∧ (State.renewLeases s p).power = s.power ∧ (State.renewLeases s
    p).recorder = s.recorder ∧ (State.renewLeases s p).mram = s.mram ∧ (State.renewLeases s p).sec = s.sec ∧
    (State.renewLeases s p).hp0 = s.hp0 ∧ (State.renewLeases s p).hp1 = s.hp1 ∧ (State.renewLeases s p).far0 = s.far0
    ∧ (State.renewLeases s p).far1 = s.far1 ∧ (State.renewLeases s p).hbm = s.hbm ∧ (State.renewLeases s p).mem
    = s.mem ∧ (State.renewLeases s p).cores = s.cores ∧ (State.renewLeases s p).harts = s.harts ∧ (State.renewLeases s
    p).stations = s.stations ∧ (State.renewLeases s p).links = s.links ∧ (State.renewLeases s p).coll = s.coll ∧
    (State.renewLeases s p).fab = s.fab ∧ (State.renewLeases s p).canopy = s.canopy ∧ (State.renewLeases s p).rp =
    s.rp ∧ (State.renewLeases s p).guy = s.guy ∧ (State.renewLeases s p).tt = s.tt ∧ (State.renewLeases s p).job =
    s.job ∧ (State.renewLeases s p).pitch = s.pitch ∧ (State.renewLeases s p).err = s.err ∧ (State.renewLeases s
    p).ckpt = s.ckpt ∧ (State.renewLeases s p).outputs = s.outputs ∧ (State.renewLeases s p).reject = s.reject ∧
    (State.renewLeases s p).nacks = s.nacks ∧ (State.renewLeases s p).reissues = s.reissues := by
  simp [State.renewLeases]

@[simp] theorem State.subscribe_keeps (s : State) (q : DictReq) (r : Req) : (State.subscribe s q r).2.out = s.out ∧
    (State.subscribe s q r).2.start = s.start ∧ (State.subscribe s q r).2.power = s.power ∧ (State.subscribe s q
    r).2.recorder = s.recorder ∧ (State.subscribe s q r).2.mram = s.mram ∧ (State.subscribe s q r).2.sec = s.sec ∧
    (State.subscribe s q r).2.hp0 = s.hp0 ∧ (State.subscribe s q r).2.hp1 = s.hp1 ∧ (State.subscribe s q r).2.far0 =
    s.far0 ∧ (State.subscribe s q r).2.far1 = s.far1 ∧ (State.subscribe s q r).2.hbm = s.hbm ∧ (State.subscribe
    s q r).2.mem = s.mem ∧ (State.subscribe s q r).2.cores = s.cores ∧ (State.subscribe s q r).2.harts = s.harts ∧
    (State.subscribe s q r).2.stations = s.stations ∧ (State.subscribe s q r).2.links = s.links ∧ (State.subscribe s q
    r).2.coll = s.coll ∧ (State.subscribe s q r).2.fab = s.fab ∧ (State.subscribe s q r).2.canopy = s.canopy ∧
    (State.subscribe s q r).2.rp = s.rp ∧ (State.subscribe s q r).2.guy = s.guy ∧ (State.subscribe s q r).2.tt = s.tt
    ∧ (State.subscribe s q r).2.job = s.job ∧ (State.subscribe s q r).2.pitch = s.pitch ∧ (State.subscribe s q
    r).2.err = s.err ∧ (State.subscribe s q r).2.ckpt = s.ckpt ∧ (State.subscribe s q r).2.outputs = s.outputs ∧
    (State.subscribe s q r).2.reject = s.reject ∧ (State.subscribe s q r).2.nacks = s.nacks ∧ (State.subscribe s q
    r).2.reissues = s.reissues := by
  unfold State.subscribe
  dsimp only
  (repeat' split) <;> simp_all

@[simp] theorem State.sendMgmt_keeps (s : State) (dst id path : Nat) (answer : Bool) (m : List Byte) : (State.sendMgmt
    s dst id path answer m).out = s.out ∧ (State.sendMgmt s dst id path answer m).start = s.start ∧ (State.sendMgmt s
    dst id path answer m).power = s.power ∧ (State.sendMgmt s dst id path answer m).mram = s.mram ∧ (State.sendMgmt s
    dst id path answer m).sec = s.sec ∧ (State.sendMgmt s dst id path answer m).dict = s.dict ∧ (State.sendMgmt s dst
    id path answer m).hp0 = s.hp0 ∧ (State.sendMgmt s dst id path answer m).hp1 = s.hp1 ∧ (State.sendMgmt s dst id
    path answer m).far0 = s.far0 ∧ (State.sendMgmt s dst id path answer m).far1 = s.far1 ∧ (State.sendMgmt s dst id
    path answer m).hbm = s.hbm ∧ (State.sendMgmt s dst id path answer m).mem = s.mem ∧ (State.sendMgmt s dst id
    path answer m).cores = s.cores ∧ (State.sendMgmt s dst id path answer m).harts = s.harts ∧ (State.sendMgmt s dst
    id path answer m).stations = s.stations ∧ (State.sendMgmt s dst id path answer m).links = s.links ∧
    (State.sendMgmt s dst id path answer m).coll = s.coll ∧ (State.sendMgmt s dst id path answer m).canopy = s.canopy
    ∧ (State.sendMgmt s dst id path answer m).rp = s.rp ∧ (State.sendMgmt s dst id path answer m).guy = s.guy ∧
    (State.sendMgmt s dst id path answer m).tt = s.tt ∧ (State.sendMgmt s dst id path answer m).job = s.job ∧
    (State.sendMgmt s dst id path answer m).pitch = s.pitch ∧ (State.sendMgmt s dst id path answer m).err = s.err ∧
    (State.sendMgmt s dst id path answer m).ckpt = s.ckpt ∧ (State.sendMgmt s dst id path answer m).outputs =
    s.outputs ∧ (State.sendMgmt s dst id path answer m).reject = s.reject ∧ (State.sendMgmt s dst id path answer
    m).nacks = s.nacks ∧ (State.sendMgmt s dst id path answer m).reissues = s.reissues := by
  unfold State.sendMgmt
  try dsimp only
  (repeat' split) <;> simp []

@[simp] theorem State.startRelay_keeps (s : State) (path : DictPath) (mac rank : Nat) (outer inner : List Byte)
    (survey : Bool) : (State.startRelay s path mac rank outer inner survey).out = s.out ∧ (State.startRelay s path mac
    rank outer inner survey).start = s.start ∧ (State.startRelay s path mac rank outer inner survey).power = s.power ∧
    (State.startRelay s path mac rank outer inner survey).mram = s.mram ∧ (State.startRelay s path mac rank outer
    inner survey).sec = s.sec ∧ (State.startRelay s path mac rank outer inner survey).hp0 = s.hp0 ∧ (State.startRelay
    s path mac rank outer inner survey).hp1 = s.hp1 ∧ (State.startRelay s path mac rank outer inner survey).far0 =
    s.far0 ∧ (State.startRelay s path mac rank outer inner survey).far1 = s.far1 ∧ (State.startRelay s path mac rank
    outer inner survey).hbm = s.hbm ∧ (State.startRelay s path mac rank outer inner survey).mem = s.mem ∧
    (State.startRelay s path mac rank outer inner survey).cores = s.cores ∧ (State.startRelay s path mac rank outer
    inner survey).harts = s.harts ∧ (State.startRelay s path mac rank outer inner survey).stations = s.stations ∧
    (State.startRelay s path mac rank outer inner survey).links = s.links ∧ (State.startRelay s path mac rank outer
    inner survey).coll = s.coll ∧ (State.startRelay s path mac rank outer inner survey).canopy = s.canopy ∧
    (State.startRelay s path mac rank outer inner survey).rp = s.rp ∧ (State.startRelay s path mac rank outer inner
    survey).guy = s.guy ∧ (State.startRelay s path mac rank outer inner survey).tt = s.tt ∧ (State.startRelay s path
    mac rank outer inner survey).job = s.job ∧ (State.startRelay s path mac rank outer inner survey).pitch = s.pitch ∧
    (State.startRelay s path mac rank outer inner survey).err = s.err ∧ (State.startRelay s path mac rank outer inner
    survey).ckpt = s.ckpt ∧ (State.startRelay s path mac rank outer inner survey).outputs = s.outputs ∧
    (State.startRelay s path mac rank outer inner survey).reject = s.reject ∧ (State.startRelay s path mac rank outer
    inner survey).nacks = s.nacks ∧ (State.startRelay s path mac rank outer inner survey).reissues = s.reissues := by
  simp [State.startRelay]

@[simp] theorem State.serveRelay_keeps (s : State) (q : DictReq) (r : Req) : (State.serveRelay s q r).start = s.start
    ∧ (State.serveRelay s q r).power = s.power ∧ (State.serveRelay s q r).mram = s.mram ∧ (State.serveRelay s q r).sec
    = s.sec ∧ (State.serveRelay s q r).far0 = s.far0 ∧ (State.serveRelay s q r).far1 = s.far1 ∧ (State.serveRelay s q
    r).hbm = s.hbm ∧ (State.serveRelay s q r).mem = s.mem ∧ (State.serveRelay s q r).cores = s.cores ∧
    (State.serveRelay s q r).harts = s.harts ∧ (State.serveRelay s q r).stations = s.stations ∧ (State.serveRelay s q
    r).links = s.links ∧ (State.serveRelay s q r).coll = s.coll ∧ (State.serveRelay s q r).canopy = s.canopy ∧
    (State.serveRelay s q r).rp = s.rp ∧ (State.serveRelay s q r).guy = s.guy ∧ (State.serveRelay s q r).tt = s.tt ∧
    (State.serveRelay s q r).job = s.job ∧ (State.serveRelay s q r).pitch = s.pitch ∧ (State.serveRelay s q r).err =
    s.err ∧ (State.serveRelay s q r).ckpt = s.ckpt ∧ (State.serveRelay s q r).outputs = s.outputs ∧ (State.serveRelay
    s q r).reject = s.reject ∧ (State.serveRelay s q r).nacks = s.nacks ∧ (State.serveRelay s q r).reissues =
    s.reissues := by
  simp [State.serveRelay]

@[simp] theorem State.relayDone_keeps (s : State) (x : Relay) (code flags : Nat) (body : List Byte) : (State.relayDone
    s x code flags body).start = s.start ∧ (State.relayDone s x code flags body).power = s.power ∧ (State.relayDone s
    x code flags body).recorder = s.recorder ∧ (State.relayDone s x code flags body).mram = s.mram ∧ (State.relayDone
    s x code flags body).sec = s.sec ∧ (State.relayDone s x code flags body).far0 = s.far0 ∧ (State.relayDone s x code
    flags body).far1 = s.far1 ∧ (State.relayDone s x code flags body).hbm = s.hbm ∧ (State.relayDone s x code
    flags body).mem = s.mem ∧ (State.relayDone s x code flags body).cores = s.cores ∧ (State.relayDone s x code flags
    body).harts = s.harts ∧ (State.relayDone s x code flags body).stations = s.stations ∧ (State.relayDone s x code
    flags body).links = s.links ∧ (State.relayDone s x code flags body).coll = s.coll ∧ (State.relayDone s x code
    flags body).fab = s.fab ∧ (State.relayDone s x code flags body).canopy = s.canopy ∧ (State.relayDone s x code
    flags body).rp = s.rp ∧ (State.relayDone s x code flags body).guy = s.guy ∧ (State.relayDone s x code flags
    body).tt = s.tt ∧ (State.relayDone s x code flags body).job = s.job ∧ (State.relayDone s x code flags body).pitch
    = s.pitch ∧ (State.relayDone s x code flags body).err = s.err ∧ (State.relayDone s x code flags body).outputs =
    s.outputs ∧ (State.relayDone s x code flags body).reject = s.reject ∧ (State.relayDone s x code flags body).nacks
    = s.nacks ∧ (State.relayDone s x code flags body).reissues = s.reissues := by
  simp [State.relayDone]

@[simp] theorem State.mgmtPacket_keeps (s : State) (k : Packet) : (State.mgmtPacket s k).start = s.start ∧
    (State.mgmtPacket s k).power = s.power ∧ (State.mgmtPacket s k).mram = s.mram ∧ (State.mgmtPacket s k).sec = s.sec
    ∧ (State.mgmtPacket s k).far0 = s.far0 ∧ (State.mgmtPacket s k).far1 = s.far1 ∧ (State.mgmtPacket s k).hbm =
    s.hbm ∧ (State.mgmtPacket s k).mem = s.mem ∧ (State.mgmtPacket s k).cores = s.cores ∧ (State.mgmtPacket s
    k).harts = s.harts ∧ (State.mgmtPacket s k).stations = s.stations ∧ (State.mgmtPacket s k).links = s.links ∧
    (State.mgmtPacket s k).coll = s.coll ∧ (State.mgmtPacket s k).canopy = s.canopy ∧ (State.mgmtPacket s k).rp = s.rp
    ∧ (State.mgmtPacket s k).guy = s.guy ∧ (State.mgmtPacket s k).tt = s.tt ∧ (State.mgmtPacket s k).job = s.job ∧
    (State.mgmtPacket s k).pitch = s.pitch ∧ (State.mgmtPacket s k).err = s.err ∧ (State.mgmtPacket s k).outputs =
    s.outputs ∧ (State.mgmtPacket s k).reject = s.reject ∧ (State.mgmtPacket s k).nacks = s.nacks ∧ (State.mgmtPacket
    s k).reissues = s.reissues := by
  unfold State.mgmtPacket
  dsimp only
  (repeat' split) <;> simp_all

@[simp] theorem State.commandReset_keeps (s : State) : (State.commandReset s).out = s.out ∧ (State.commandReset
    s).power = s.power ∧ (State.commandReset s).mram = s.mram ∧ (State.commandReset s).sec = s.sec ∧
    (State.commandReset s).dict = s.dict ∧ (State.commandReset s).hp0 = s.hp0 ∧ (State.commandReset s).hp1 = s.hp1 ∧
    (State.commandReset s).far0 = s.far0 ∧ (State.commandReset s).far1 = s.far1 ∧ (State.commandReset s).hbm =
    s.hbm ∧ (State.commandReset s).mem = s.mem ∧ (State.commandReset s).cores = s.cores ∧ (State.commandReset
    s).harts = s.harts ∧ (State.commandReset s).stations = s.stations ∧ (State.commandReset s).links = s.links ∧
    (State.commandReset s).coll = s.coll ∧ (State.commandReset s).canopy = s.canopy ∧ (State.commandReset s).rp = s.rp
    ∧ (State.commandReset s).guy = s.guy ∧ (State.commandReset s).tt = s.tt ∧ (State.commandReset s).job = s.job ∧
    (State.commandReset s).pitch = s.pitch ∧ (State.commandReset s).err = s.err ∧ (State.commandReset s).ckpt = s.ckpt
    ∧ (State.commandReset s).outputs = s.outputs ∧ (State.commandReset s).reject = s.reject ∧ (State.commandReset
    s).nacks = s.nacks ∧ (State.commandReset s).reissues = s.reissues := by
  simp [State.commandReset]

@[simp] theorem State.commandTables_keeps (s : State) (n : Nat) : (State.commandTables s n).out = s.out ∧
    (State.commandTables s n).start = s.start ∧ (State.commandTables s n).power = s.power ∧ (State.commandTables s
    n).mram = s.mram ∧ (State.commandTables s n).sec = s.sec ∧ (State.commandTables s n).dict = s.dict ∧
    (State.commandTables s n).hp0 = s.hp0 ∧ (State.commandTables s n).hp1 = s.hp1 ∧ (State.commandTables s n).far0 =
    s.far0 ∧ (State.commandTables s n).far1 = s.far1 ∧ (State.commandTables s n).hbm = s.hbm ∧
    (State.commandTables s n).mem = s.mem ∧ (State.commandTables s n).cores = s.cores ∧ (State.commandTables s
    n).harts = s.harts ∧ (State.commandTables s n).stations = s.stations ∧ (State.commandTables s n).links = s.links ∧
    (State.commandTables s n).coll = s.coll ∧ (State.commandTables s n).canopy = s.canopy ∧ (State.commandTables s
    n).rp = s.rp ∧ (State.commandTables s n).guy = s.guy ∧ (State.commandTables s n).tt = s.tt ∧ (State.commandTables
    s n).job = s.job ∧ (State.commandTables s n).pitch = s.pitch ∧ (State.commandTables s n).err = s.err ∧
    (State.commandTables s n).ckpt = s.ckpt ∧ (State.commandTables s n).outputs = s.outputs ∧ (State.commandTables s
    n).reject = s.reject ∧ (State.commandTables s n).nacks = s.nacks ∧ (State.commandTables s n).reissues = s.reissues
    := by
  simp [State.commandTables]

@[simp] theorem State.commandPitch_keeps (s : State) (n : Nat) : (State.commandPitch s n).out = s.out ∧
    (State.commandPitch s n).start = s.start ∧ (State.commandPitch s n).power = s.power ∧ (State.commandPitch s
    n).mram = s.mram ∧ (State.commandPitch s n).sec = s.sec ∧ (State.commandPitch s n).dict = s.dict ∧
    (State.commandPitch s n).hp0 = s.hp0 ∧ (State.commandPitch s n).hp1 = s.hp1 ∧ (State.commandPitch s n).far0 =
    s.far0 ∧ (State.commandPitch s n).far1 = s.far1 ∧ (State.commandPitch s n).hbm = s.hbm ∧ (State.commandPitch
    s n).mem = s.mem ∧ (State.commandPitch s n).canopy = s.canopy ∧ (State.commandPitch s n).outputs = s.outputs ∧
    (State.commandPitch s n).reject = s.reject := by
  simp [State.commandPitch]

@[simp] theorem State.loadBank_keeps (s : State) (c sub : Nat) (v : List Byte) : (State.loadBank s c sub v).out =
    s.out ∧ (State.loadBank s c sub v).start = s.start ∧ (State.loadBank s c sub v).power = s.power ∧ (State.loadBank
    s c sub v).recorder = s.recorder ∧ (State.loadBank s c sub v).mram = s.mram ∧ (State.loadBank s c sub v).sec =
    s.sec ∧ (State.loadBank s c sub v).dict = s.dict ∧ (State.loadBank s c sub v).hp0 = s.hp0 ∧ (State.loadBank s c
    sub v).hp1 = s.hp1 ∧ (State.loadBank s c sub v).far0 = s.far0 ∧ (State.loadBank s c sub v).far1 = s.far1 ∧
    (State.loadBank s c sub v).hbm = s.hbm ∧ (State.loadBank s c sub v).mem = s.mem ∧ (State.loadBank s c sub
    v).harts = s.harts ∧ (State.loadBank s c sub v).stations = s.stations ∧ (State.loadBank s c sub v).links = s.links
    ∧ (State.loadBank s c sub v).coll = s.coll ∧ (State.loadBank s c sub v).fab = s.fab ∧ (State.loadBank s c sub
    v).canopy = s.canopy ∧ (State.loadBank s c sub v).rp = s.rp ∧ (State.loadBank s c sub v).guy = s.guy ∧
    (State.loadBank s c sub v).tt = s.tt ∧ (State.loadBank s c sub v).job = s.job ∧ (State.loadBank s c sub v).pitch =
    s.pitch ∧ (State.loadBank s c sub v).err = s.err ∧ (State.loadBank s c sub v).ckpt = s.ckpt ∧ (State.loadBank s c
    sub v).outputs = s.outputs ∧ (State.loadBank s c sub v).reject = s.reject ∧ (State.loadBank s c sub v).nacks =
    s.nacks ∧ (State.loadBank s c sub v).reissues = s.reissues := by
  simp [State.loadBank]

@[simp] theorem State.takeLock_keeps (s : State) (area : Nat) (p : DictPath) : (State.takeLock s area p).out = s.out ∧
    (State.takeLock s area p).start = s.start ∧ (State.takeLock s area p).power = s.power ∧ (State.takeLock s area
    p).recorder = s.recorder ∧ (State.takeLock s area p).mram = s.mram ∧ (State.takeLock s area p).sec = s.sec ∧
    (State.takeLock s area p).hp0 = s.hp0 ∧ (State.takeLock s area p).hp1 = s.hp1 ∧ (State.takeLock s area p).far0 =
    s.far0 ∧ (State.takeLock s area p).far1 = s.far1 ∧ (State.takeLock s area p).hbm = s.hbm ∧ (State.takeLock s
    area p).mem = s.mem ∧ (State.takeLock s area p).cores = s.cores ∧ (State.takeLock s area p).harts = s.harts ∧
    (State.takeLock s area p).stations = s.stations ∧ (State.takeLock s area p).links = s.links ∧ (State.takeLock s
    area p).coll = s.coll ∧ (State.takeLock s area p).fab = s.fab ∧ (State.takeLock s area p).canopy = s.canopy ∧
    (State.takeLock s area p).rp = s.rp ∧ (State.takeLock s area p).guy = s.guy ∧ (State.takeLock s area p).tt = s.tt
    ∧ (State.takeLock s area p).job = s.job ∧ (State.takeLock s area p).pitch = s.pitch ∧ (State.takeLock s area
    p).err = s.err ∧ (State.takeLock s area p).ckpt = s.ckpt ∧ (State.takeLock s area p).outputs = s.outputs ∧
    (State.takeLock s area p).reject = s.reject ∧ (State.takeLock s area p).nacks = s.nacks ∧ (State.takeLock s area
    p).reissues = s.reissues := by
  simp [State.takeLock]

@[simp] theorem State.releaseLock_keeps (s : State) (area : Nat) : (State.releaseLock s area).out = s.out ∧
    (State.releaseLock s area).start = s.start ∧ (State.releaseLock s area).power = s.power ∧ (State.releaseLock s
    area).recorder = s.recorder ∧ (State.releaseLock s area).mram = s.mram ∧ (State.releaseLock s area).sec = s.sec ∧
    (State.releaseLock s area).hp0 = s.hp0 ∧ (State.releaseLock s area).hp1 = s.hp1 ∧ (State.releaseLock s area).far0
    = s.far0 ∧ (State.releaseLock s area).far1 = s.far1 ∧ (State.releaseLock s area).hbm = s.hbm ∧
    (State.releaseLock s area).mem = s.mem ∧ (State.releaseLock s area).cores = s.cores ∧ (State.releaseLock s
    area).harts = s.harts ∧ (State.releaseLock s area).stations = s.stations ∧ (State.releaseLock s area).links =
    s.links ∧ (State.releaseLock s area).coll = s.coll ∧ (State.releaseLock s area).fab = s.fab ∧ (State.releaseLock s
    area).canopy = s.canopy ∧ (State.releaseLock s area).rp = s.rp ∧ (State.releaseLock s area).guy = s.guy ∧
    (State.releaseLock s area).tt = s.tt ∧ (State.releaseLock s area).job = s.job ∧ (State.releaseLock s area).pitch =
    s.pitch ∧ (State.releaseLock s area).err = s.err ∧ (State.releaseLock s area).ckpt = s.ckpt ∧ (State.releaseLock s
    area).outputs = s.outputs ∧ (State.releaseLock s area).reject = s.reject ∧ (State.releaseLock s area).nacks =
    s.nacks ∧ (State.releaseLock s area).reissues = s.reissues := by
  simp [State.releaseLock]

@[simp] theorem State.takeNonce_keeps (s : State) (v : List Byte) : (State.takeNonce s v).out = s.out ∧
    (State.takeNonce s v).start = s.start ∧ (State.takeNonce s v).power = s.power ∧ (State.takeNonce s v).recorder =
    s.recorder ∧ (State.takeNonce s v).mram = s.mram ∧ (State.takeNonce s v).dict = s.dict ∧ (State.takeNonce s v).hp0
    = s.hp0 ∧ (State.takeNonce s v).hp1 = s.hp1 ∧ (State.takeNonce s v).far0 = s.far0 ∧ (State.takeNonce s v).far1 =
    s.far1 ∧ (State.takeNonce s v).hbm = s.hbm ∧ (State.takeNonce s v).mem = s.mem ∧ (State.takeNonce s v).cores
    = s.cores ∧ (State.takeNonce s v).harts = s.harts ∧ (State.takeNonce s v).stations = s.stations ∧ (State.takeNonce
    s v).links = s.links ∧ (State.takeNonce s v).coll = s.coll ∧ (State.takeNonce s v).fab = s.fab ∧ (State.takeNonce
    s v).canopy = s.canopy ∧ (State.takeNonce s v).rp = s.rp ∧ (State.takeNonce s v).guy = s.guy ∧ (State.takeNonce s
    v).tt = s.tt ∧ (State.takeNonce s v).job = s.job ∧ (State.takeNonce s v).pitch = s.pitch ∧ (State.takeNonce s
    v).err = s.err ∧ (State.takeNonce s v).ckpt = s.ckpt ∧ (State.takeNonce s v).outputs = s.outputs ∧
    (State.takeNonce s v).reject = s.reject ∧ (State.takeNonce s v).nacks = s.nacks ∧ (State.takeNonce s v).reissues =
    s.reissues := by
  simp [State.takeNonce]

@[simp] theorem State.takeTransition_keeps (s : State) (v : List Byte) : (State.takeTransition s v).out = s.out ∧
    (State.takeTransition s v).power = s.power ∧ (State.takeTransition s v).dict = s.dict ∧ (State.takeTransition s
    v).hp0 = s.hp0 ∧ (State.takeTransition s v).hp1 = s.hp1 ∧ (State.takeTransition s v).far0 = s.far0 ∧
    (State.takeTransition s v).far1 = s.far1 ∧ (State.takeTransition s v).hbm = s.hbm ∧ (State.takeTransition s
    v).mem = s.mem ∧ (State.takeTransition s v).cores = s.cores ∧ (State.takeTransition s v).harts = s.harts ∧
    (State.takeTransition s v).stations = s.stations ∧ (State.takeTransition s v).links = s.links ∧
    (State.takeTransition s v).coll = s.coll ∧ (State.takeTransition s v).fab = s.fab ∧ (State.takeTransition s
    v).canopy = s.canopy ∧ (State.takeTransition s v).rp = s.rp ∧ (State.takeTransition s v).guy = s.guy ∧
    (State.takeTransition s v).tt = s.tt ∧ (State.takeTransition s v).job = s.job ∧ (State.takeTransition s v).pitch =
    s.pitch ∧ (State.takeTransition s v).err = s.err ∧ (State.takeTransition s v).ckpt = s.ckpt ∧
    (State.takeTransition s v).outputs = s.outputs ∧ (State.takeTransition s v).reject = s.reject ∧
    (State.takeTransition s v).nacks = s.nacks ∧ (State.takeTransition s v).reissues = s.reissues := by
  unfold State.takeTransition
  (repeat' split) <;> simp

@[simp] theorem State.takeFirmware_keeps (s : State) (v : List Byte) : (State.takeFirmware s v).out = s.out ∧
    (State.takeFirmware s v).start = s.start ∧ (State.takeFirmware s v).power = s.power ∧ (State.takeFirmware s
    v).recorder = s.recorder ∧ (State.takeFirmware s v).sec = s.sec ∧ (State.takeFirmware s v).dict = s.dict ∧
    (State.takeFirmware s v).hp0 = s.hp0 ∧ (State.takeFirmware s v).hp1 = s.hp1 ∧ (State.takeFirmware s v).far0 =
    s.far0 ∧ (State.takeFirmware s v).far1 = s.far1 ∧ (State.takeFirmware s v).hbm = s.hbm ∧ (State.takeFirmware
    s v).mem = s.mem ∧ (State.takeFirmware s v).cores = s.cores ∧ (State.takeFirmware s v).harts = s.harts ∧
    (State.takeFirmware s v).stations = s.stations ∧ (State.takeFirmware s v).links = s.links ∧ (State.takeFirmware s
    v).coll = s.coll ∧ (State.takeFirmware s v).fab = s.fab ∧ (State.takeFirmware s v).canopy = s.canopy ∧
    (State.takeFirmware s v).rp = s.rp ∧ (State.takeFirmware s v).guy = s.guy ∧ (State.takeFirmware s v).tt = s.tt ∧
    (State.takeFirmware s v).job = s.job ∧ (State.takeFirmware s v).pitch = s.pitch ∧ (State.takeFirmware s v).err =
    s.err ∧ (State.takeFirmware s v).ckpt = s.ckpt ∧ (State.takeFirmware s v).outputs = s.outputs ∧
    (State.takeFirmware s v).reject = s.reject ∧ (State.takeFirmware s v).nacks = s.nacks ∧ (State.takeFirmware s
    v).reissues = s.reissues := by
  simp [State.takeFirmware]

@[simp] theorem State.startSurvey_keeps (s : State) (v : List Byte) : (State.startSurvey s v).out = s.out ∧
    (State.startSurvey s v).start = s.start ∧ (State.startSurvey s v).power = s.power ∧ (State.startSurvey s v).mram =
    s.mram ∧ (State.startSurvey s v).sec = s.sec ∧ (State.startSurvey s v).hp0 = s.hp0 ∧ (State.startSurvey s v).hp1 =
    s.hp1 ∧ (State.startSurvey s v).far0 = s.far0 ∧ (State.startSurvey s v).far1 = s.far1 ∧ (State.startSurvey s
    v).hbm = s.hbm ∧ (State.startSurvey s v).mem = s.mem ∧ (State.startSurvey s v).cores = s.cores ∧
    (State.startSurvey s v).harts = s.harts ∧ (State.startSurvey s v).stations = s.stations ∧ (State.startSurvey s
    v).links = s.links ∧ (State.startSurvey s v).coll = s.coll ∧ (State.startSurvey s v).canopy = s.canopy ∧
    (State.startSurvey s v).rp = s.rp ∧ (State.startSurvey s v).guy = s.guy ∧ (State.startSurvey s v).tt = s.tt ∧
    (State.startSurvey s v).job = s.job ∧ (State.startSurvey s v).pitch = s.pitch ∧ (State.startSurvey s v).err =
    s.err ∧ (State.startSurvey s v).outputs = s.outputs ∧ (State.startSurvey s v).reject = s.reject ∧
    (State.startSurvey s v).nacks = s.nacks ∧ (State.startSurvey s v).reissues = s.reissues := by
  unfold State.startSurvey
  try dsimp only
  (repeat' split) <;> simp []

@[simp] theorem State.putSetting_keeps (s : State) (key : Nat) (v : List Byte) : (State.putSetting s key v).out =
    s.out ∧ (State.putSetting s key v).start = s.start ∧ (State.putSetting s key v).mram = s.mram ∧ (State.putSetting
    s key v).sec = s.sec ∧ (State.putSetting s key v).hp0 = s.hp0 ∧ (State.putSetting s key v).hp1 = s.hp1 ∧
    (State.putSetting s key v).far0 = s.far0 ∧ (State.putSetting s key v).far1 = s.far1 ∧ (State.putSetting s key
    v).hbm = s.hbm ∧ (State.putSetting s key v).canopy = s.canopy ∧ (State.putSetting s key v).reject = s.reject
    := by
  simp [State.putSetting]

@[simp] theorem State.putPending_keeps (s : State) (key : Nat) (v : List Byte) (cls : DictCls) : (State.putPending s
    key v cls).out = s.out ∧ (State.putPending s key v cls).start = s.start ∧ (State.putPending s key v cls).power =
    s.power ∧ (State.putPending s key v cls).recorder = s.recorder ∧ (State.putPending s key v cls).mram = s.mram ∧
    (State.putPending s key v cls).sec = s.sec ∧ (State.putPending s key v cls).hp0 = s.hp0 ∧ (State.putPending s key
    v cls).hp1 = s.hp1 ∧ (State.putPending s key v cls).far0 = s.far0 ∧ (State.putPending s key v cls).far1 = s.far1 ∧
    (State.putPending s key v cls).hbm = s.hbm ∧ (State.putPending s key v cls).mem = s.mem ∧ (State.putPending
    s key v cls).cores = s.cores ∧ (State.putPending s key v cls).harts = s.harts ∧ (State.putPending s key v
    cls).stations = s.stations ∧ (State.putPending s key v cls).links = s.links ∧ (State.putPending s key v cls).coll
    = s.coll ∧ (State.putPending s key v cls).fab = s.fab ∧ (State.putPending s key v cls).canopy = s.canopy ∧
    (State.putPending s key v cls).rp = s.rp ∧ (State.putPending s key v cls).guy = s.guy ∧ (State.putPending s key v
    cls).tt = s.tt ∧ (State.putPending s key v cls).job = s.job ∧ (State.putPending s key v cls).pitch = s.pitch ∧
    (State.putPending s key v cls).err = s.err ∧ (State.putPending s key v cls).ckpt = s.ckpt ∧ (State.putPending s
    key v cls).outputs = s.outputs ∧ (State.putPending s key v cls).reject = s.reject ∧ (State.putPending s key v
    cls).nacks = s.nacks ∧ (State.putPending s key v cls).reissues = s.reissues := by
  simp [State.putPending]

@[simp] theorem State.takeValue_keeps (s : State) (p : DictPath) (key : Nat) (e : DictEntry) (v : List Byte) :
    (State.takeValue s p key e v).1.out = s.out ∧ (State.takeValue s p key e v).1.hp0 = s.hp0 ∧ (State.takeValue s p
    key e v).1.hp1 = s.hp1 ∧ (State.takeValue s p key e v).1.far0 = s.far0 ∧ (State.takeValue s p key e v).1.far1 =
    s.far1 ∧ (State.takeValue s p key e v).1.hbm = s.hbm ∧ (State.takeValue s p key e v).1.canopy = s.canopy ∧
    (State.takeValue s p key e v).1.reject = s.reject := by
  fun_cases State.takeValue <;> simp

@[simp] theorem State.dropXfer_keeps (s : State) (p : DictPath) : (State.dropXfer s p).out = s.out ∧ (State.dropXfer s
    p).start = s.start ∧ (State.dropXfer s p).power = s.power ∧ (State.dropXfer s p).recorder = s.recorder ∧
    (State.dropXfer s p).mram = s.mram ∧ (State.dropXfer s p).sec = s.sec ∧ (State.dropXfer s p).hp0 = s.hp0 ∧
    (State.dropXfer s p).hp1 = s.hp1 ∧ (State.dropXfer s p).far0 = s.far0 ∧ (State.dropXfer s p).far1 = s.far1 ∧
    (State.dropXfer s p).hbm = s.hbm ∧ (State.dropXfer s p).mem = s.mem ∧ (State.dropXfer s p).cores = s.cores ∧
    (State.dropXfer s p).harts = s.harts ∧ (State.dropXfer s p).stations = s.stations ∧ (State.dropXfer s p).links =
    s.links ∧ (State.dropXfer s p).coll = s.coll ∧ (State.dropXfer s p).fab = s.fab ∧ (State.dropXfer s p).canopy =
    s.canopy ∧ (State.dropXfer s p).rp = s.rp ∧ (State.dropXfer s p).guy = s.guy ∧ (State.dropXfer s p).tt = s.tt ∧
    (State.dropXfer s p).job = s.job ∧ (State.dropXfer s p).pitch = s.pitch ∧ (State.dropXfer s p).err = s.err ∧
    (State.dropXfer s p).ckpt = s.ckpt ∧ (State.dropXfer s p).outputs = s.outputs ∧ (State.dropXfer s p).reject =
    s.reject ∧ (State.dropXfer s p).nacks = s.nacks ∧ (State.dropXfer s p).reissues = s.reissues := by
  simp [State.dropXfer]

@[simp] theorem State.serveValue_keeps (s : State) (q : DictReq) (r : Req) (payload : List Byte) : (State.serveValue s
    q r payload).far0 = s.far0 ∧ (State.serveValue s q r payload).far1 = s.far1 ∧ (State.serveValue s q r
    payload).hbm = s.hbm ∧ (State.serveValue s q r payload).canopy = s.canopy ∧ (State.serveValue s q r
    payload).reject = s.reject := by
  unfold State.serveValue
  (repeat' split) <;> simp

@[simp] theorem State.serveSegment_keeps (s : State) (q : DictReq) (r : Req) : (State.serveSegment s q r).far0 =
    s.far0 ∧ (State.serveSegment s q r).far1 = s.far1 ∧ (State.serveSegment s q r).hbm = s.hbm ∧
    (State.serveSegment s q r).canopy = s.canopy ∧ (State.serveSegment s q r).reject = s.reject := by
  unfold State.serveSegment
  (repeat' split) <;> simp

@[simp] theorem State.executeReq_keeps (s : State) (q : DictReq) (r : Req) : (State.executeReq s q r).far0 = s.far0 ∧
    (State.executeReq s q r).far1 = s.far1 ∧ (State.executeReq s q r).hbm = s.hbm ∧ (State.executeReq s q
    r).canopy = s.canopy ∧ (State.executeReq s q r).reject = s.reject := by
  unfold State.executeReq
  (repeat' split) <;> simp

@[simp] theorem State.serve_keeps (s : State) (q : DictReq) : (State.serve s q).far0 = s.far0 ∧ (State.serve s q).far1
    = s.far1 ∧ (State.serve s q).hbm = s.hbm ∧ (State.serve s q).canopy = s.canopy ∧ (State.serve s q).reject =
    s.reject := by
  unfold State.serve
  dsimp only
  (repeat' split) <;> simp_all

@[simp] theorem State.frameArrives_keeps (s : State) (q : DictReq) : (State.frameArrives s q).far0 = s.far0 ∧
    (State.frameArrives s q).far1 = s.far1 ∧ (State.frameArrives s q).hbm = s.hbm ∧ (State.frameArrives s
    q).canopy = s.canopy ∧ (State.frameArrives s q).reject = s.reject := by
  simp [State.frameArrives]

@[simp] theorem State.endSurvey_keeps (s : State) (v : Survey) : (State.endSurvey s v).start = s.start ∧
    (State.endSurvey s v).power = s.power ∧ (State.endSurvey s v).recorder = s.recorder ∧ (State.endSurvey s v).mram =
    s.mram ∧ (State.endSurvey s v).sec = s.sec ∧ (State.endSurvey s v).far0 = s.far0 ∧ (State.endSurvey s v).far1 =
    s.far1 ∧ (State.endSurvey s v).hbm = s.hbm ∧ (State.endSurvey s v).mem = s.mem ∧ (State.endSurvey s v).cores
    = s.cores ∧ (State.endSurvey s v).harts = s.harts ∧ (State.endSurvey s v).stations = s.stations ∧ (State.endSurvey
    s v).links = s.links ∧ (State.endSurvey s v).coll = s.coll ∧ (State.endSurvey s v).fab = s.fab ∧ (State.endSurvey
    s v).canopy = s.canopy ∧ (State.endSurvey s v).rp = s.rp ∧ (State.endSurvey s v).guy = s.guy ∧ (State.endSurvey s
    v).tt = s.tt ∧ (State.endSurvey s v).job = s.job ∧ (State.endSurvey s v).pitch = s.pitch ∧ (State.endSurvey s
    v).err = s.err ∧ (State.endSurvey s v).outputs = s.outputs ∧ (State.endSurvey s v).reject = s.reject ∧
    (State.endSurvey s v).nacks = s.nacks ∧ (State.endSurvey s v).reissues = s.reissues := by
  unfold State.endSurvey
  try dsimp only
  (repeat' split) <;> simp []

@[simp] theorem State.retired_keeps (s : State) (i : Nat) (n : Hart) (retires : Bool) : (State.retired s i n
    retires).out = s.out ∧ (State.retired s i n retires).start = s.start ∧ (State.retired s i n retires).power =
    s.power ∧ (State.retired s i n retires).recorder = s.recorder ∧ (State.retired s i n retires).mram = s.mram ∧
    (State.retired s i n retires).sec = s.sec ∧ (State.retired s i n retires).dict = s.dict ∧ (State.retired s i n
    retires).hp0 = s.hp0 ∧ (State.retired s i n retires).hp1 = s.hp1 ∧ (State.retired s i n retires).far0 = s.far0 ∧
    (State.retired s i n retires).far1 = s.far1 ∧ (State.retired s i n retires).hbm = s.hbm ∧ (State.retired s i
    n retires).mem = s.mem ∧ (State.retired s i n retires).cores = s.cores ∧ (State.retired s i n retires).stations =
    s.stations ∧ (State.retired s i n retires).links = s.links ∧ (State.retired s i n retires).coll = s.coll ∧
    (State.retired s i n retires).fab = s.fab ∧ (State.retired s i n retires).canopy = s.canopy ∧ (State.retired s i n
    retires).rp = s.rp ∧ (State.retired s i n retires).guy = s.guy ∧ (State.retired s i n retires).tt = s.tt ∧
    (State.retired s i n retires).job = s.job ∧ (State.retired s i n retires).pitch = s.pitch ∧ (State.retired s i n
    retires).err = s.err ∧ (State.retired s i n retires).ckpt = s.ckpt ∧ (State.retired s i n retires).outputs =
    s.outputs ∧ (State.retired s i n retires).reject = s.reject ∧ (State.retired s i n retires).nacks = s.nacks ∧
    (State.retired s i n retires).reissues = s.reissues := by
  simp [State.retired]

@[simp] theorem State.hartStore_keeps (s : State) (i a : Nat) (bs : List Byte) : (State.hartStore s i a bs).out =
    s.out ∧ (State.hartStore s i a bs).start = s.start ∧ (State.hartStore s i a bs).power = s.power ∧ (State.hartStore
    s i a bs).recorder = s.recorder ∧ (State.hartStore s i a bs).mram = s.mram ∧ (State.hartStore s i a bs).sec =
    s.sec ∧ (State.hartStore s i a bs).dict = s.dict ∧ (State.hartStore s i a bs).hp0 = s.hp0 ∧ (State.hartStore s i a
    bs).hp1 = s.hp1 ∧ (State.hartStore s i a bs).far0 = s.far0 ∧ (State.hartStore s i a bs).far1 = s.far1 ∧
    (State.hartStore s i a bs).hbm = s.hbm ∧ (State.hartStore s i a bs).cores = s.cores ∧ (State.hartStore s i a
    bs).stations = s.stations ∧ (State.hartStore s i a bs).links = s.links ∧ (State.hartStore s i a bs).coll = s.coll
    ∧ (State.hartStore s i a bs).fab = s.fab ∧ (State.hartStore s i a bs).canopy = s.canopy ∧ (State.hartStore s i a
    bs).rp = s.rp ∧ (State.hartStore s i a bs).guy = s.guy ∧ (State.hartStore s i a bs).tt = s.tt ∧ (State.hartStore s
    i a bs).job = s.job ∧ (State.hartStore s i a bs).pitch = s.pitch ∧ (State.hartStore s i a bs).err = s.err ∧
    (State.hartStore s i a bs).ckpt = s.ckpt ∧ (State.hartStore s i a bs).outputs = s.outputs ∧ (State.hartStore s i a
    bs).reject = s.reject ∧ (State.hartStore s i a bs).nacks = s.nacks ∧ (State.hartStore s i a bs).reissues =
    s.reissues := by
  simp [State.hartStore]

@[simp] theorem State.storeLocal_keeps (s : State) (i : Nat) (l : List Put) : (State.storeLocal s i l).out = s.out ∧
    (State.storeLocal s i l).start = s.start ∧ (State.storeLocal s i l).power = s.power ∧ (State.storeLocal s i
    l).recorder = s.recorder ∧ (State.storeLocal s i l).mram = s.mram ∧ (State.storeLocal s i l).sec = s.sec ∧
    (State.storeLocal s i l).dict = s.dict ∧ (State.storeLocal s i l).hp0 = s.hp0 ∧ (State.storeLocal s i l).hp1 =
    s.hp1 ∧ (State.storeLocal s i l).far0 = s.far0 ∧ (State.storeLocal s i l).far1 = s.far1 ∧ (State.storeLocal s i
    l).hbm = s.hbm ∧ (State.storeLocal s i l).cores = s.cores ∧ (State.storeLocal s i l).stations = s.stations ∧
    (State.storeLocal s i l).links = s.links ∧ (State.storeLocal s i l).coll = s.coll ∧ (State.storeLocal s i l).fab =
    s.fab ∧ (State.storeLocal s i l).canopy = s.canopy ∧ (State.storeLocal s i l).rp = s.rp ∧ (State.storeLocal s i
    l).guy = s.guy ∧ (State.storeLocal s i l).tt = s.tt ∧ (State.storeLocal s i l).job = s.job ∧ (State.storeLocal s i
    l).pitch = s.pitch ∧ (State.storeLocal s i l).err = s.err ∧ (State.storeLocal s i l).ckpt = s.ckpt ∧
    (State.storeLocal s i l).outputs = s.outputs ∧ (State.storeLocal s i l).reject = s.reject ∧ (State.storeLocal s i
    l).nacks = s.nacks ∧ (State.storeLocal s i l).reissues = s.reissues := by
  unfold State.storeLocal
  try dsimp only
  (repeat' split) <;> simp []

@[simp] theorem State.storeCanopy_keeps (s : State) (i : Nat) (l : List Put) : (State.storeCanopy s i l).out = s.out ∧
    (State.storeCanopy s i l).start = s.start ∧ (State.storeCanopy s i l).power = s.power ∧ (State.storeCanopy s i
    l).mram = s.mram ∧ (State.storeCanopy s i l).sec = s.sec ∧ (State.storeCanopy s i l).dict = s.dict ∧
    (State.storeCanopy s i l).hp0 = s.hp0 ∧ (State.storeCanopy s i l).hp1 = s.hp1 ∧ (State.storeCanopy s i l).far0 =
    s.far0 ∧ (State.storeCanopy s i l).far1 = s.far1 ∧ (State.storeCanopy s i l).hbm = s.hbm ∧
    (State.storeCanopy s i l).cores = s.cores ∧ (State.storeCanopy s i l).stations = s.stations ∧ (State.storeCanopy s
    i l).links = s.links ∧ (State.storeCanopy s i l).coll = s.coll ∧ (State.storeCanopy s i l).canopy = s.canopy ∧
    (State.storeCanopy s i l).rp = s.rp ∧ (State.storeCanopy s i l).guy = s.guy ∧ (State.storeCanopy s i l).tt = s.tt
    ∧ (State.storeCanopy s i l).job = s.job ∧ (State.storeCanopy s i l).pitch = s.pitch ∧ (State.storeCanopy s i
    l).err = s.err ∧ (State.storeCanopy s i l).ckpt = s.ckpt ∧ (State.storeCanopy s i l).outputs = s.outputs ∧
    (State.storeCanopy s i l).reject = s.reject ∧ (State.storeCanopy s i l).nacks = s.nacks ∧ (State.storeCanopy s i
    l).reissues = s.reissues := by
  unfold State.storeCanopy
  try dsimp only
  (repeat' split) <;> simp []

@[simp] theorem State.askLines_keeps (s : State) (i : Nat) (lines : List Nat) : (State.askLines s i lines).out = s.out
    ∧ (State.askLines s i lines).start = s.start ∧ (State.askLines s i lines).power = s.power ∧ (State.askLines s i
    lines).mram = s.mram ∧ (State.askLines s i lines).sec = s.sec ∧ (State.askLines s i lines).dict = s.dict ∧
    (State.askLines s i lines).hp0 = s.hp0 ∧ (State.askLines s i lines).hp1 = s.hp1 ∧ (State.askLines s i lines).far0
    = s.far0 ∧ (State.askLines s i lines).far1 = s.far1 ∧ (State.askLines s i lines).hbm = s.hbm ∧
    (State.askLines s i lines).mem = s.mem ∧ (State.askLines s i lines).cores = s.cores ∧ (State.askLines s i
    lines).stations = s.stations ∧ (State.askLines s i lines).links = s.links ∧ (State.askLines s i lines).coll =
    s.coll ∧ (State.askLines s i lines).canopy = s.canopy ∧ (State.askLines s i lines).rp = s.rp ∧ (State.askLines s i
    lines).guy = s.guy ∧ (State.askLines s i lines).tt = s.tt ∧ (State.askLines s i lines).job = s.job ∧
    (State.askLines s i lines).pitch = s.pitch ∧ (State.askLines s i lines).err = s.err ∧ (State.askLines s i
    lines).ckpt = s.ckpt ∧ (State.askLines s i lines).outputs = s.outputs ∧ (State.askLines s i lines).reject =
    s.reject ∧ (State.askLines s i lines).nacks = s.nacks ∧ (State.askLines s i lines).reissues = s.reissues := by
  unfold State.askLines
  try dsimp only
  (repeat' split) <;> simp []

@[simp] theorem State.canopyLoad_keeps (s : State) (i : Nat) (l : List Elem) (n : Hart) (retires : Bool) :
    (State.canopyLoad s i l n retires).out = s.out ∧ (State.canopyLoad s i l n retires).start = s.start ∧
    (State.canopyLoad s i l n retires).power = s.power ∧ (State.canopyLoad s i l n retires).mram = s.mram ∧
    (State.canopyLoad s i l n retires).sec = s.sec ∧ (State.canopyLoad s i l n retires).dict = s.dict ∧
    (State.canopyLoad s i l n retires).hp0 = s.hp0 ∧ (State.canopyLoad s i l n retires).hp1 = s.hp1 ∧
    (State.canopyLoad s i l n retires).far0 = s.far0 ∧ (State.canopyLoad s i l n retires).far1 = s.far1 ∧
    (State.canopyLoad s i l n retires).hbm = s.hbm ∧ (State.canopyLoad s i l n retires).mem = s.mem ∧
    (State.canopyLoad s i l n retires).cores = s.cores ∧ (State.canopyLoad s i l n retires).stations = s.stations ∧
    (State.canopyLoad s i l n retires).links = s.links ∧ (State.canopyLoad s i l n retires).coll = s.coll ∧
    (State.canopyLoad s i l n retires).canopy = s.canopy ∧ (State.canopyLoad s i l n retires).rp = s.rp ∧
    (State.canopyLoad s i l n retires).guy = s.guy ∧ (State.canopyLoad s i l n retires).tt = s.tt ∧ (State.canopyLoad
    s i l n retires).job = s.job ∧ (State.canopyLoad s i l n retires).pitch = s.pitch ∧ (State.canopyLoad s i l n
    retires).err = s.err ∧ (State.canopyLoad s i l n retires).ckpt = s.ckpt ∧ (State.canopyLoad s i l n
    retires).outputs = s.outputs ∧ (State.canopyLoad s i l n retires).reject = s.reject ∧ (State.canopyLoad s i l n
    retires).nacks = s.nacks ∧ (State.canopyLoad s i l n retires).reissues = s.reissues := by
  simp [State.canopyLoad]

@[simp] theorem State.cacheParity_keeps (s : State) (i : Nat) (l3 : Bool) : (State.cacheParity s i l3).out = s.out ∧
    (State.cacheParity s i l3).start = s.start ∧ (State.cacheParity s i l3).power = s.power ∧ (State.cacheParity s i
    l3).recorder = s.recorder ∧ (State.cacheParity s i l3).mram = s.mram ∧ (State.cacheParity s i l3).sec = s.sec ∧
    (State.cacheParity s i l3).dict = s.dict ∧ (State.cacheParity s i l3).hp0 = s.hp0 ∧ (State.cacheParity s i l3).hp1
    = s.hp1 ∧ (State.cacheParity s i l3).far0 = s.far0 ∧ (State.cacheParity s i l3).far1 = s.far1 ∧ (State.cacheParity
    s i l3).hbm = s.hbm ∧ (State.cacheParity s i l3).mem = s.mem ∧ (State.cacheParity s i l3).cores = s.cores ∧
    (State.cacheParity s i l3).stations = s.stations ∧ (State.cacheParity s i l3).links = s.links ∧ (State.cacheParity
    s i l3).coll = s.coll ∧ (State.cacheParity s i l3).fab = s.fab ∧ (State.cacheParity s i l3).rp = s.rp ∧
    (State.cacheParity s i l3).guy = s.guy ∧ (State.cacheParity s i l3).tt = s.tt ∧ (State.cacheParity s i l3).job =
    s.job ∧ (State.cacheParity s i l3).pitch = s.pitch ∧ (State.cacheParity s i l3).err = s.err ∧ (State.cacheParity s
    i l3).ckpt = s.ckpt ∧ (State.cacheParity s i l3).outputs = s.outputs ∧ (State.cacheParity s i l3).reject =
    s.reject ∧ (State.cacheParity s i l3).nacks = s.nacks ∧ (State.cacheParity s i l3).reissues = s.reissues := by
  simp [State.cacheParity]

@[simp] theorem State.hartParityStop_keeps (s : State) (i : Nat) : (State.hartParityStop s i).power = s.power ∧
    (State.hartParityStop s i).mram = s.mram ∧ (State.hartParityStop s i).sec = s.sec ∧ (State.hartParityStop s
    i).dict = s.dict ∧ (State.hartParityStop s i).hp0 = s.hp0 ∧ (State.hartParityStop s i).hp1 = s.hp1 ∧
    (State.hartParityStop s i).far0 = s.far0 ∧ (State.hartParityStop s i).far1 = s.far1 ∧ (State.hartParityStop s
    i).hbm = s.hbm ∧ (State.hartParityStop s i).mem = s.mem ∧ (State.hartParityStop s i).canopy = s.canopy ∧
    (State.hartParityStop s i).outputs = s.outputs ∧ (State.hartParityStop s i).reject = s.reject := by
  simp [State.hartParityStop]

@[simp] theorem State.summarise_keeps (s : State) (e : Nat × Bucket) : (State.summarise s e).out = s.out ∧
    (State.summarise s e).start = s.start ∧ (State.summarise s e).power = s.power ∧ (State.summarise s e).mram =
    s.mram ∧ (State.summarise s e).sec = s.sec ∧ (State.summarise s e).dict = s.dict ∧ (State.summarise s e).hp0 =
    s.hp0 ∧ (State.summarise s e).hp1 = s.hp1 ∧ (State.summarise s e).far0 = s.far0 ∧ (State.summarise s e).far1 =
    s.far1 ∧ (State.summarise s e).hbm = s.hbm ∧ (State.summarise s e).mem = s.mem ∧ (State.summarise s e).cores
    = s.cores ∧ (State.summarise s e).harts = s.harts ∧ (State.summarise s e).stations = s.stations ∧ (State.summarise
    s e).links = s.links ∧ (State.summarise s e).coll = s.coll ∧ (State.summarise s e).fab = s.fab ∧ (State.summarise
    s e).canopy = s.canopy ∧ (State.summarise s e).rp = s.rp ∧ (State.summarise s e).guy = s.guy ∧ (State.summarise s
    e).tt = s.tt ∧ (State.summarise s e).job = s.job ∧ (State.summarise s e).pitch = s.pitch ∧ (State.summarise s
    e).err = s.err ∧ (State.summarise s e).ckpt = s.ckpt ∧ (State.summarise s e).outputs = s.outputs ∧
    (State.summarise s e).reject = s.reject ∧ (State.summarise s e).nacks = s.nacks ∧ (State.summarise s e).reissues =
    s.reissues := by
  simp [State.summarise]

@[simp] theorem State.withFetchWord_keeps (s : State) (nbits w : Nat) : (State.withFetchWord s nbits w).out = s.out ∧
    (State.withFetchWord s nbits w).start = s.start ∧ (State.withFetchWord s nbits w).power = s.power ∧
    (State.withFetchWord s nbits w).recorder = s.recorder ∧ (State.withFetchWord s nbits w).mram = s.mram ∧
    (State.withFetchWord s nbits w).sec = s.sec ∧ (State.withFetchWord s nbits w).dict = s.dict ∧ (State.withFetchWord
    s nbits w).hp0 = s.hp0 ∧ (State.withFetchWord s nbits w).hp1 = s.hp1 ∧ (State.withFetchWord s nbits w).far0 =
    s.far0 ∧ (State.withFetchWord s nbits w).far1 = s.far1 ∧ (State.withFetchWord s nbits w).hbm = s.hbm ∧
    (State.withFetchWord s nbits w).mem = s.mem ∧ (State.withFetchWord s nbits w).cores = s.cores ∧
    (State.withFetchWord s nbits w).harts = s.harts ∧ (State.withFetchWord s nbits w).stations = s.stations ∧
    (State.withFetchWord s nbits w).links = s.links ∧ (State.withFetchWord s nbits w).coll = s.coll ∧
    (State.withFetchWord s nbits w).fab = s.fab ∧ (State.withFetchWord s nbits w).canopy = s.canopy ∧
    (State.withFetchWord s nbits w).rp = s.rp ∧ (State.withFetchWord s nbits w).guy = s.guy ∧ (State.withFetchWord s
    nbits w).tt = s.tt ∧ (State.withFetchWord s nbits w).job = s.job ∧ (State.withFetchWord s nbits w).pitch = s.pitch
    ∧ (State.withFetchWord s nbits w).err = s.err ∧ (State.withFetchWord s nbits w).ckpt = s.ckpt ∧
    (State.withFetchWord s nbits w).outputs = s.outputs ∧ (State.withFetchWord s nbits w).reject = s.reject ∧
    (State.withFetchWord s nbits w).nacks = s.nacks ∧ (State.withFetchWord s nbits w).reissues = s.reissues := by
  unfold State.withFetchWord
  (repeat' split) <;> simp

end Sys2Proof.Machine
end

