-- ==== Sys2Proof/Laws/DictParts.lean ====
section
/-!
SUPPORT. What operations that change the values or the snapshots of the dictionary leave alone in it.
-/

set_option Elab.async false
namespace Sys2Proof.Machine

open Sys2Proof

/-- What every step of a fold keeps, the fold keeps. -/
theorem foldl_same {α β : Type} (p : State → β) (g : State → α → State) (l : List α) (s : State)
    (h : ∀ s x, p (g s x) = p s) : p (l.foldl g s) = p s := by
  induction l generalizing s with
  | nil => rfl
  | cons x xs ih => rw [List.foldl_cons, ih, h]

@[simp] theorem State.snapshot_dict (s : State) (k : DictSnap) (unit : Nat) : (State.snapshot s k unit).dict.vals =
    s.dict.vals ∧ (State.snapshot s k unit).dict.pend = s.dict.pend ∧ (State.snapshot s k unit).dict.tags =
    s.dict.tags ∧ (State.snapshot s k unit).dict.service = s.dict.service := by
  exact ⟨rfl, rfl, rfl, rfl⟩

@[simp] theorem State.settle_dict (s : State) (c : Nat) : (State.settle s c).dict.vals = s.dict.vals ∧ (State.settle s
    c).dict.pend = s.dict.pend ∧ (State.settle s c).dict.tags = s.dict.tags ∧ (State.settle s c).dict.service =
    s.dict.service := by
  unfold State.settle
  try dsimp only
  (repeat' split) <;> simp

@[simp] theorem State.settleFrom_dict (s0 s : State) : (State.settleFrom s0 s).dict.vals = s.dict.vals ∧
    (State.settleFrom s0 s).dict.pend = s.dict.pend ∧ (State.settleFrom s0 s).dict.tags = s.dict.tags ∧
    (State.settleFrom s0 s).dict.service = s.dict.service := by
  unfold State.settleFrom
  refine ⟨foldl_same (fun s => s.dict.vals) _ _ _ ?_, foldl_same (fun s => s.dict.pend) _ _ _ ?_,
    foldl_same (fun s => s.dict.tags) _ _ _ ?_, foldl_same (fun s => s.dict.service) _ _ _ ?_⟩ <;>
    (intro s x; split <;> simp)

@[simp] theorem State.position_dict (s : State) (c : Nat) (f : Core → Option Core) (wait : Core → Core) :
    (State.position s c f wait).dict.vals = s.dict.vals ∧ (State.position s c f wait).dict.pend = s.dict.pend ∧
    (State.position s c f wait).dict.tags = s.dict.tags ∧ (State.position s c f wait).dict.service = s.dict.service :=
    by
  unfold State.position
  dsimp only
  split
  · refine ⟨(foldl_same (fun s => s.dict.vals) _ _ _ ?_).trans ?_, (foldl_same (fun s => s.dict.pend) _ _ _ ?_).trans ?_,
      (foldl_same (fun s => s.dict.tags) _ _ _ ?_).trans ?_, (foldl_same (fun s => s.dict.service) _ _ _ ?_).trans ?_⟩ <;>
      simp
  · simp

@[simp] theorem State.tally_dict (s : State) (c op : Nat) (f : Nat → Core → Core) : (State.tally s c op f).dict.vals =
    s.dict.vals ∧ (State.tally s c op f).dict.pend = s.dict.pend ∧ (State.tally s c op f).dict.tags = s.dict.tags ∧
    (State.tally s c op f).dict.service = s.dict.service := by
  unfold State.tally
  try dsimp only
  (repeat' split) <;> simp

@[simp] theorem State.retire_dict (s : State) (c : Nat) (e : Engine) (i : Nat) : (State.retire s c e i).dict.vals =
    s.dict.vals ∧ (State.retire s c e i).dict.pend = s.dict.pend ∧ (State.retire s c e i).dict.tags = s.dict.tags ∧
    (State.retire s c e i).dict.service = s.dict.service := by
  unfold State.retire
  try dsimp only
  (repeat' split) <;> simp

@[simp] theorem State.finishRun_dict (s : State) (c : Nat) (e : Engine) (i : Nat) (a1 : Run) : (State.finishRun s c e
    i a1).dict.vals = s.dict.vals ∧ (State.finishRun s c e i a1).dict.pend = s.dict.pend ∧ (State.finishRun s c e i
    a1).dict.tags = s.dict.tags ∧ (State.finishRun s c e i a1).dict.service = s.dict.service := by
  unfold State.finishRun
  try dsimp only
  (repeat' split) <;> simp

@[simp] theorem State.runMul_dict (s : State) (c i : Nat) : (State.runMul s c i).dict.vals = s.dict.vals ∧
    (State.runMul s c i).dict.pend = s.dict.pend ∧ (State.runMul s c i).dict.tags = s.dict.tags ∧ (State.runMul s c
    i).dict.service = s.dict.service := by
  unfold State.runMul
  try dsimp only
  (repeat' split) <;> simp

@[simp] theorem State.runChain_dict (s : State) (c : Nat) : (State.runChain s c).dict.vals = s.dict.vals ∧
    (State.runChain s c).dict.pend = s.dict.pend ∧ (State.runChain s c).dict.tags = s.dict.tags ∧ (State.runChain s
    c).dict.service = s.dict.service := by
  unfold State.runChain
  try dsimp only
  (repeat' split) <;> simp

@[simp] theorem State.runWload_dict (s : State) (c : Nat) : (State.runWload s c).dict.vals = s.dict.vals ∧
    (State.runWload s c).dict.pend = s.dict.pend ∧ (State.runWload s c).dict.tags = s.dict.tags ∧ (State.runWload s
    c).dict.service = s.dict.service := by
  unfold State.runWload
  try dsimp only
  (repeat' split) <;> simp

@[simp] theorem State.runXfer_dict (s : State) (c : Nat) : (State.runXfer s c).dict.vals = s.dict.vals ∧
    (State.runXfer s c).dict.pend = s.dict.pend ∧ (State.runXfer s c).dict.tags = s.dict.tags ∧ (State.runXfer s
    c).dict.service = s.dict.service := by
  unfold State.runXfer
  try dsimp only
  (repeat' split) <;> simp

@[simp] theorem State.runExch_dict (s : State) (c : Nat) : (State.runExch s c).dict.vals = s.dict.vals ∧
    (State.runExch s c).dict.pend = s.dict.pend ∧ (State.runExch s c).dict.tags = s.dict.tags ∧ (State.runExch s
    c).dict.service = s.dict.service := by
  unfold State.runExch
  try dsimp only
  (repeat' split) <;> simp

@[simp] theorem State.setDval_dict (s : State) (idx sub : Nat) (b : List Byte) : (State.setDval s idx sub b).dict.snap
    = s.dict.snap ∧ (State.setDval s idx sub b).dict.tags = s.dict.tags ∧ (State.setDval s idx sub b).dict.service =
    s.dict.service := by
  exact ⟨rfl, rfl, rfl⟩

@[simp] theorem State.applyValue_dict (s : State) (key : Nat) (v : List Byte) : (State.applyValue s key v).dict.snap =
    s.dict.snap ∧ (State.applyValue s key v).dict.tags = s.dict.tags ∧ (State.applyValue s key v).dict.service =
    s.dict.service := by
  unfold State.applyValue
  try dsimp only
  (repeat' split) <;> simp

@[simp] theorem State.applyPending_dict (s : State) (p : Nat → Bool) : (State.applyPending s p).dict.snap =
    s.dict.snap ∧ (State.applyPending s p).dict.tags = s.dict.tags ∧ (State.applyPending s p).dict.service =
    s.dict.service := by
  unfold State.applyPending
  refine ⟨?_, ?_, ?_⟩
  · exact foldl_same (fun s => s.dict.snap) _ _ _ (by simp)
  · exact foldl_same (fun s => s.dict.tags) _ _ _ (by simp)
  · exact foldl_same (fun s => s.dict.service) _ _ _ (by simp)

@[simp] theorem State.enableClocks_dict (s : State) : (State.enableClocks s).dict.snap = s.dict.snap ∧
    (State.enableClocks s).dict.tags = s.dict.tags ∧ (State.enableClocks s).dict.service = s.dict.service := by
  unfold State.enableClocks
  try dsimp only
  (repeat' split) <;> simp

@[simp] theorem State.bootRom_dict (s : State) : (State.bootRom s).dict.snap = s.dict.snap ∧ (State.bootRom
    s).dict.tags = s.dict.tags ∧ (State.bootRom s).dict.service = s.dict.service := by
  unfold State.bootRom
  try dsimp only
  (repeat' split) <;> simp

@[simp] theorem State.commitDecision_dict (s : State) : (State.commitDecision s).dict.snap = s.dict.snap ∧
    (State.commitDecision s).dict.tags = s.dict.tags ∧ (State.commitDecision s).dict.service = s.dict.service := by
  unfold State.commitDecision
  try dsimp only
  (repeat' split) <;> simp

@[simp] theorem State.gather_dict (s : State) : (State.gather s).dict.snap = s.dict.snap ∧ (State.gather s).dict.tags
    = s.dict.tags ∧ (State.gather s).dict.service = s.dict.service := by
  unfold State.gather
  try dsimp only
  (repeat' split) <;> simp

@[simp] theorem State.arrival_dict (s : State) (k : Packet) (clean : Bool) : (State.arrival s k clean).dict.snap =
    s.dict.snap ∧ (State.arrival s k clean).dict.tags = s.dict.tags ∧ (State.arrival s k clean).dict.service =
    s.dict.service := by
  unfold State.arrival
  try dsimp only
  (repeat' split) <;> simp

end Sys2Proof.Machine
end

