-- ==== Sys2Proof/Laws/NMap.lean ====
section
/-!
SUPPORT. Laws of sparse maps and byte stores: a read after a write, what a write leaves alone, and that every operation
keeps the canonical form.
-/

set_option Elab.async false
namespace Sys2Proof.Machine

/-! ## Reading after writing -/

theorem nget_nins {α : Type} (d v : α) (m : NMap α) (k j : Nat) :
    nget d (nins m k v) j = if j = k then v else nget d m j := by
  induction m with
  | nil => by_cases h : j = k <;> simp [nins, nget, h]
  | cons e t ih =>
    obtain ⟨i, w⟩ := e
    by_cases h1 : k = i
    · subst h1; by_cases h : j = k <;> simp [nins, nget, h]
    · by_cases h2 : k < i
      · by_cases h : j = k <;> simp [nins, nget, h, h1, h2]
      · by_cases h : j = i
        · subst h; simp [nins, nget, h1, h2, Ne.symm h1]
        · simp [nins, nget, h1, h2, h, ih]

theorem nget_ndel {α : Type} (d : α) (m : NMap α) (k j : Nat) :
    nget d (ndel m k) j = if j = k then d else nget d m j := by
  induction m with
  | nil => simp [ndel, nget]
  | cons e t ih =>
    obtain ⟨i, w⟩ := e
    by_cases h1 : k = i
    · subst h1
      by_cases h : j = k
      · subst h; simpa [ndel, nget] using ih
      · simpa [ndel, nget, h] using ih
    · by_cases h : j = i
      · subst h; simp [ndel, nget, h1, Ne.symm h1]
      · simp [ndel, nget, h1, h, ih]

/-- A key reads what was last written to it; every other key reads as before. -/
theorem nget_nset {α : Type} [DecidableEq α] (d v : α) (m : NMap α) (k j : Nat) :
    nget d (nset d m k v) j = if j = k then v else nget d m j := by
  unfold nset
  split
  · next h => rw [nget_ndel, h]
  · exact nget_nins d v m k j

@[simp] theorem nget_nset_same {α : Type} [DecidableEq α] (d v : α) (m : NMap α) (k : Nat) :
    nget d (nset d m k v) k = v := by
  rw [nget_nset, if_pos rfl]

theorem nget_nset_ne {α : Type} [DecidableEq α] (d v : α) (m : NMap α) {k j : Nat} (h : j ≠ k) :
    nget d (nset d m k v) j = nget d m j := by
  rw [nget_nset, if_neg h]

/-- Changing a key changes what it reads and nothing else. -/
theorem nget_nmod {α : Type} [DecidableEq α] (d : α) (m : NMap α) (k j : Nat) (f : α → α) :
    nget d (nmod d m k f) j = if j = k then f (nget d m k) else nget d m j :=
  nget_nset d _ m k j

@[simp] theorem nget_nmod_same {α : Type} [DecidableEq α] (d : α) (m : NMap α) (k : Nat) (f : α → α) :
    nget d (nmod d m k f) k = f (nget d m k) := by
  rw [nget_nmod, if_pos rfl]

theorem nget_nmod_ne {α : Type} [DecidableEq α] (d : α) (m : NMap α) {k j : Nat} (f : α → α) (h : j ≠ k) :
    nget d (nmod d m k f) j = nget d m j := by
  rw [nget_nmod, if_neg h]

/-- A key reads through a filter on keys. -/
theorem nget_filter {α : Type} (d : α) (m : NMap α) (p : Nat → Bool) (k : Nat) :
    nget d (m.filter (fun c => p c.1)) k = if p k then nget d m k else d := by
  induction m with
  | nil => simp [nget]
  | cons e t ih =>
    obtain ⟨i, w⟩ := e
    by_cases h : p i <;> by_cases hk : k = i
    · subst hk; simp [h, nget]
    · simp [h, nget, hk, ih]
    · subst hk; simp [h, ih]
    · simp [h, nget, hk, ih]

theorem nget_ncleanFrom {α : Type} [DecidableEq α] (d : α) (seen : List Nat) (m : NMap α) (k : Nat) :
    nget d (ncleanFrom d seen m) k = if k ∈ seen then d else nget d m k := by
  induction m generalizing seen with
  | nil => simp [nget, ncleanFrom]
  | cons e t ih =>
    obtain ⟨i, w⟩ := e
    rw [ncleanFrom]
    by_cases h : k = i
    · subst h
      split <;> rename_i c
      · rw [ih, if_pos (List.mem_cons_self ..)]
        rcases c with c | c
        · rw [if_pos (by simpa using c)]
        · have c : w = d := c
          rw [nget, if_pos rfl, c, ite_self]
      · simp only [not_or] at c
        rw [nget, if_pos rfl, if_neg (by simpa using c.1), nget, if_pos rfl]
    · split <;> simp [ih, nget, h]

/-- What a key holds after every listed key has changed. -/
theorem nget_nall {α : Type} [DecidableEq α] (d : α) (f : α → α) (m : NMap α) (k : Nat) :
    nget d (nall d f m) k = if m.any (fun e => e.1 == k) then f (nget d m k) else d := by
  rw [nall, nget_ncleanFrom, if_neg (List.not_mem_nil)]
  induction m with
  | nil => simp [nget]
  | cons e t ih =>
    obtain ⟨i, w⟩ := e
    by_cases h : k = i
    · subst h; simp [nget]
    · have hi : (i == k) = false := by simpa using fun c => h c.symm
      rw [List.map_cons, nget, if_neg h, ih, nget, if_neg h, List.any_cons, hi, Bool.false_or]

theorem readByte_writeByte (m : Cells) (a b : Nat) (x : Byte) :
    readByte (writeByte m a x) b = if b = a then x else readByte m b := nget_nset 0 x m a b

/-- Bytes outside a stored string read as before. -/
theorem readByte_writeBytes_outside (m : Cells) (a : Nat) (bs : List Byte) (b : Nat) (h : b < a ∨ a + bs.length ≤ b) :
    readByte (writeBytes m a bs) b = readByte m b := by
  induction bs generalizing m a with
  | nil => rfl
  | cons x xs ih =>
    rw [List.length_cons] at h
    rw [writeBytes, ih (writeByte m a x) (a + 1) (by omega), readByte_writeByte, if_neg (by omega)]

/-- The bytes of a stored string read as stored. -/
theorem readByte_writeBytes_inside (m : Cells) (a : Nat) (bs : List Byte) (i : Nat) (h : i < bs.length) :
    readByte (writeBytes m a bs) (a + i) = bs[i] := by
  induction bs generalizing m a i with
  | nil => simp at h
  | cons x xs ih =>
    cases i with
    | zero =>
      rw [writeBytes, readByte_writeBytes_outside _ _ _ _ (by omega), readByte_writeByte]
      simp
    | succ n =>
      have := ih (writeByte m a x) (a + 1) n (by simpa using h)
      rw [writeBytes, show a + (n + 1) = a + 1 + n by omega, this]
      rfl

theorem readBytes_eq (m : Cells) (a n : Nat) : readBytes m a n = (List.range n).map (fun i => readByte m (a + i)) := by
  induction n generalizing a with
  | zero => rfl
  | succ n ih =>
    rw [readBytes, ih, List.range_succ_eq_map, List.map_cons, List.map_map]
    simp only [Nat.add_zero, List.cons.injEq, true_and]
    apply List.map_congr_left
    intro i _
    simp only [Function.comp_apply]
    congr 1
    omega

/-- A string read where it was stored is the string. -/
theorem readBytes_writeBytes (m : Cells) (a : Nat) (bs : List Byte) :
    readBytes (writeBytes m a bs) a bs.length = bs := by
  rw [readBytes_eq]
  apply List.ext_getElem
  · simp
  · intro i h1 h2
    rw [List.getElem_map, List.getElem_range, readByte_writeBytes_inside m a bs i h2]

/-! ## The canonical form -/

theorem nwfFrom_mono {α : Type} [DecidableEq α] (d : α) (m : NMap α) {lo hi : Nat} (h : lo ≤ hi)
    (w : nwfFrom d hi m = true) : nwfFrom d lo m = true := by
  cases m with
  | nil => rfl
  | cons e t =>
    simp only [nwfFrom, Bool.and_eq_true, decide_eq_true_eq] at w ⊢
    exact ⟨⟨by omega, w.1.2⟩, w.2⟩

theorem nwfFrom_ndel {α : Type} [DecidableEq α] (d : α) (m : NMap α) (k lo : Nat) (w : nwfFrom d lo m = true) :
    nwfFrom d lo (ndel m k) = true := by
  induction m generalizing lo with
  | nil => rfl
  | cons e t ih =>
    obtain ⟨i, x⟩ := e
    simp only [nwfFrom, Bool.and_eq_true, decide_eq_true_eq] at w
    rw [ndel]
    split
    · exact ih lo (nwfFrom_mono d t (by omega) w.2)
    · simp only [nwfFrom, Bool.and_eq_true, decide_eq_true_eq]
      exact ⟨w.1, ih (i + 1) w.2⟩

theorem nwfFrom_nins {α : Type} [DecidableEq α] (d v : α) (m : NMap α) (k lo : Nat) (hv : v ≠ d) (hk : lo ≤ k)
    (w : nwfFrom d lo m = true) : nwfFrom d lo (nins m k v) = true := by
  induction m generalizing lo with
  | nil => simp [nins, nwfFrom, hv, hk]
  | cons e t ih =>
    obtain ⟨i, x⟩ := e
    simp only [nwfFrom, Bool.and_eq_true, decide_eq_true_eq] at w
    rw [nins]
    split
    · next h => subst h; simp [nwfFrom, hv, hk, w.2]
    · split
      · next h1 h2 => simp [nwfFrom, hv, hk, w.1.2, w.2, Nat.succ_le_of_lt h2]
      · simp only [nwfFrom, Bool.and_eq_true, decide_eq_true_eq]
        exact ⟨w.1, ih (i + 1) (by omega) w.2⟩

/-- Writing a key keeps the canonical form. -/
theorem nwf_nset {α : Type} [DecidableEq α] (d v : α) (m : NMap α) (k : Nat) (w : nwf d m = true) :
    nwf d (nset d m k v) = true := by
  unfold nset
  split
  · exact nwfFrom_ndel d m k 0 w
  · next h => exact nwfFrom_nins d v m k 0 h (Nat.zero_le k) w

theorem nwfFrom_filter {α : Type} [DecidableEq α] (d : α) (m : NMap α) (p : Nat × α → Bool) (lo : Nat)
    (w : nwfFrom d lo m = true) : nwfFrom d lo (m.filter p) = true := by
  induction m generalizing lo with
  | nil => rfl
  | cons e t ih =>
    obtain ⟨i, x⟩ := e
    simp only [nwfFrom, Bool.and_eq_true, decide_eq_true_eq] at w
    rw [List.filter_cons]
    split
    · simp only [nwfFrom, Bool.and_eq_true, decide_eq_true_eq]
      exact ⟨w.1, ih (i + 1) w.2⟩
    · exact ih lo (nwfFrom_mono d t (by omega) w.2)

/-- Dropping entries keeps the canonical form. -/
theorem nwf_filter {α : Type} [DecidableEq α] (d : α) (m : NMap α) (p : Nat × α → Bool) (w : nwf d m = true) :
    nwf d (m.filter p) = true := nwfFrom_filter d m p 0 w

@[simp] theorem writeByte_wf (m : Cells) (a : Nat) (x : Byte) (w : Memory.wf m = true) : Memory.wf (writeByte m a x) = true :=
  nwf_nset 0 x m a w

@[simp] theorem filter_wf (m : Cells) (p : Nat × Byte → Bool) (w : Memory.wf m = true) :
    Memory.wf (m.filter p) = true := nwf_filter 0 m p w

@[simp] theorem writeBytes_wf (m : Cells) (a : Nat) (bs : List Byte) (w : Memory.wf m = true) :
    Memory.wf (writeBytes m a bs) = true := by
  induction bs generalizing m a with
  | nil => exact w
  | cons x xs ih => exact ih (writeByte m a x) (a + 1) (writeByte_wf m a x w)

@[simp] theorem writeN_wf (m : Cells) (a len v : Nat) (w : Memory.wf m = true) : Memory.wf (writeN m a len v) = true :=
  writeBytes_wf m a _ w

@[simp] theorem clearRange_wf (m : Cells) (a len : Nat) (w : Memory.wf m = true) : Memory.wf (clearRange m a len) = true :=
  nwf_filter 0 m _ w

@[simp] theorem putCells_wf (m : Cells) (cs : List Host.Cell) (w : Memory.wf m = true) : Memory.wf (putCells m cs) = true := by
  induction cs generalizing m with
  | nil => exact w
  | cons c cs ih => exact ih (writeByte m c.1 c.2) (writeByte_wf m c.1 c.2 w)

@[simp] theorem copyCells_wf (from_ : Cells) (src : Nat) (into : Cells) (dst len : Nat) (w : Memory.wf into = true) :
    Memory.wf (copyCells from_ src into dst len) = true :=
  putCells_wf _ _ (clearRange_wf into dst len w)

theorem cells_foldl_wf {α : Type} (g : Cells → α → Cells) (l : List α) (m : Cells)
    (h : ∀ m x, Memory.wf m = true → Memory.wf (g m x) = true) (w : Memory.wf m = true) : Memory.wf (l.foldl g m) = true := by
  induction l generalizing m with
  | nil => exact w
  | cons x xs ih => exact ih _ (h m x w)

end Sys2Proof.Machine
end

