-- ==== Sys2Proof/Laws/Frames.lean ====
section
/-!
SUPPORT. How a meaning ends: what NOTIFYs leave alone, how frames compose, and what each unit reads after it has been put
or changed.
-/

set_option Elab.async false
namespace Sys2Proof

open Machine

/-! ## Frames compose -/

theorem Part.same_refl (p : Part) (s : State) : p.same s s := by
  cases p <;> simp [Part.same]

theorem Part.same_trans {p : Part} {s t u : State} (h : p.same s t) (k : p.same t u) : p.same s u := by
  cases p <;> simp only [Part.same] at * <;> first | exact k.trans h | skip
  · exact ⟨k.1.trans h.1, k.2.trans h.2⟩
  · obtain ⟨l, h1, h2⟩ := h
    obtain ⟨m, k1, k2⟩ := k
    exact ⟨l ++ m, by rw [k1, h1, List.append_assoc], by rw [List.all_append, h2, k2]; rfl⟩

theorem Frame.refl (l : List Part) (s : State) : Frame l s s := ⟨rfl, fun p _ => p.same_refl s⟩

theorem Frame.trans {l : List Part} {s t u : State} (h : Frame l s t) (k : Frame l t u) : Frame l s u :=
  ⟨k.1.trans h.1, fun p m => Part.same_trans (h.2 p m) (k.2 p m)⟩

theorem Frame.mono {l m : List Part} {s t : State} (h : Frame l s t) (k : ∀ p ∈ l, p ∈ m) : Frame m s t :=
  ⟨h.1, fun p n => h.2 p (fun c => n (k p c))⟩

namespace Machine

/-! ## NOTIFYs -/

theorem msix_parts (s : State) (p : Nat) : ∀ q : Part, q.same s (s.msix p 1) := by
  intro q
  by_cases h : p = 0 <;>
    cases q <;> (try simp [Part.same]) <;> simp only [State.msix, State.hp, State.modHp, State.put, h, if_true, if_false]
      <;> (repeat' split) <;> simp_all [HostPort.quiet, Output.isNotify]

theorem nextTag_parts (s : State) (p : DictPath) : ∀ q : Part, q.same s (s.nextTag p).2 := by
  intro q
  cases q <;> simp [Part.same, State.nextTag, DictSt.service]

theorem modHp_parts (s : State) (p : Nat) (f : HostPort → HostPort) (h : ∀ x, (f x).quiet = x.quiet) :
    ∀ q : Part, q.same s (s.modHp p f) := by
  intro q
  cases q <;> (try simp [Part.same]) <;> simp only [State.modHp] <;> split <;> simp [h]

theorem put_parts (s : State) (o : Output) (h : o.isNotify = true) : ∀ q : Part, q.same s (s.put o) := by
  intro q
  cases q <;> simp [Part.same, State.put, h]

/-- A NOTIFY changes no part. -/
theorem sendNotify_parts (s : State) (x : Subscription) : ∀ q : Part, q.same s (s.sendNotify x) := by
  intro q
  have h := nextTag_parts s x.path q
  unfold State.sendNotify
  dsimp only
  repeat' split
  all_goals first
    | exact h
    | exact Part.same_trans h (put_parts _ _ rfl q)
    | (refine Part.same_trans h (modHp_parts _ _ _ ?_ q); intro y; rfl)
    | (refine Part.same_trans h (Part.same_trans (modHp_parts _ _ _ ?_ q) (msix_parts _ _ q)); intro y; rfl)

theorem notifyLoop_parts (s0 : State) (l : List Subscription) (s : State) : ∀ q : Part, q.same s (notifyLoop s0 l s) := by
  induction l generalizing s with
  | nil => exact fun q => q.same_refl s
  | cons x xs ih =>
    intro q
    rw [notifyLoop]
    split
    · exact ih s q
    · exact Part.same_trans (sendNotify_parts s x q) (ih _ q)

/-- How every meaning ends: the state it computed, part by part, and the queue as it was. -/
theorem finish_spec (s u : State) : ∃ t, finish s u = .next t ∧ t.pending = s.pending ∧ ∀ q : Part, q.same u t := by
  refine ⟨_, rfl, rfl, fun q => ?_⟩
  have h := notifyLoop_parts s (s.dict.subs.filter (fun x => u.dict.subs.contains x)) u q
  cases q <;> exact h

/-- A command completes with whatever its meaning computed, NOTIFYs apart. -/
theorem completes_of {i : Instr} {s u : State} {Q : State → Prop} (h : exec i s = finish s u)
    (k : ∀ t, t.pending = s.pending → (∀ q : Part, q.same u t) → Q t) : Completes i s Q := by
  obtain ⟨t, e, hp, hs⟩ := finish_spec s u
  exact ⟨t, h.trans e, k t hp hs⟩

/-- A frame of what a meaning computed is a frame of the command. -/
theorem frame_of {l : List Part} {s u t : State} (h : ∀ p, p ∉ l → p.same s u) (hp : t.pending = s.pending)
    (hs : ∀ q : Part, q.same u t) : Frame l s t := ⟨hp, fun p n => Part.same_trans (h p n) (hs p)⟩

theorem act_pos {s : State} {ok : Bool} (t : State) (h : s.clocked = true) (k : ok = true) : act s ok t = finish s t := by
  simp [act, h, k]

theorem act_neg {s : State} {ok : Bool} (t : State) (h : s.clocked = false ∨ ok = false) : act s ok t = .next s := by
  rcases h with h | h <;> simp [act, h]

theorem only_pos {ok : Bool} (r : Res) (h : ok = true) : only ok r = r := by
  simp [only, h]

theorem only_neg {ok : Bool} (r : Res) (h : ok = false) : only ok r = .fault .noSuchUnit := by
  simp [only, h]

/-! ## Units -/

theorem State.core_putCore (s : State) (c d : Nat) (x : Core) : (s.putCore c x).core d = if d = c then x else s.core d := by
  rw [State.core, State.putCore, nget_nset]; rfl

theorem State.core_modCore (s : State) (c d : Nat) (f : Core → Core) :
    (s.modCore c f).core d = if d = c then f (s.core c) else s.core d := s.core_putCore c d _

@[simp] theorem State.core_modCore_same (s : State) (c : Nat) (f : Core → Core) : (s.modCore c f).core c = f (s.core c) := by
  rw [State.core_modCore, if_pos rfl]

@[simp] theorem State.core_putCore_same (s : State) (c : Nat) (x : Core) : (s.putCore c x).core c = x := by
  rw [State.core_putCore, if_pos rfl]

theorem State.hart_putHart (s : State) (c d : Nat) (x : Hart) : (s.putHart c x).hart d = if d = c then x else s.hart d := by
  rw [State.hart, State.putHart, nget_nset]; rfl

theorem State.hart_modHart (s : State) (c d : Nat) (f : Hart → Hart) :
    (s.modHart c f).hart d = if d = c then f (s.hart c) else s.hart d := s.hart_putHart c d _

theorem State.station_modStation (s : State) (c d : Nat) (f : Station → Station) :
    (s.modStation c f).station d = if d = c then f (s.station c) else s.station d := by
  rw [State.station, State.modStation, nget_nmod]; rfl

theorem State.link_modLink (s : State) (c d : Nat) (f : LinkEngine → LinkEngine) :
    (s.modLink c f).link d = if d = c then f (s.link c) else s.link d := by
  rw [State.link, State.modLink, nget_nmod]; rfl

theorem State.fport_modPort (s : State) (c d : Nat) (f : Port → Port) :
    (s.modPort c f).fport d = if d = c then f (s.fport c) else s.fport d := by
  unfold State.fport State.modPort State.modFab
  rw [nget_nmod]

theorem State.core_congr {s t : State} (h : t.cores = s.cores) (c : Nat) : t.core c = s.core c := by
  rw [State.core, State.core, h]

theorem State.hart_congr {s t : State} (h : t.harts = s.harts) (c : Nat) : t.hart c = s.hart c := by
  rw [State.hart, State.hart, h]

theorem State.fport_congr {s t : State} (h : t.fab = s.fab) (p : Nat) : t.fport p = s.fport p := by
  rw [State.fport, State.fport, h]

end Machine

end Sys2Proof
end

