-- ==== Sys2Proof/Laws/Callbacks.lean ====
section
/-!
SUPPORT. What the operations that go on with another operation can do: a unit error, an answer to a tracked packet, a
PITCH packet of the own job.
-/

set_option Elab.async false
namespace Sys2Proof.Machine

open Sys2Proof

/-- An error met by a command stops it, at its second meeting escalating, or re-executes it once (R361). -/
theorem State.unitError_cases (s : State) (c : Nat) (e : Engine) (i : Nat) (q : EngCmd) (reexec : Bool) (u : Upset)
    (rerun : State → State) :
    s.unitError c e i q reexec u rerun =
      ((s.countSite c u.site).putCmd c e i { q with prog := .stopped }).unitAgain (srcCore c) c
    ∨ s.unitError c e i q reexec u rerun =
      ((s.countSite c u.site).putCmd c e i { q with prog := .stopped }).parityStep (srcCore c) c
    ∨ s.unitError c e i q reexec u rerun =
      (((((s.countSite c u.site).unitRetry (srcCore c) q.pos).putCmd c e i { q with retries := 1 }).countSite c u.site).putCmd
        c e i { q with prog := .stopped }).unitAgain (srcCore c) c
    ∨ s.unitError c e i q reexec u rerun =
      rerun (((s.countSite c u.site).unitRetry (srcCore c) q.pos).putCmd c e i { q with retries := 1 }) := by
  unfold State.unitError
  dsimp only
  split
  · exact .inl rfl
  · split
    · exact .inr (.inl rfl)
    · split
      · exact .inr (.inr (.inl rfl))
      · exact .inr (.inr (.inr rfl))

/-- An answer is discarded, answers nothing that waits, or completes the entry that it answers (R283, R285). -/
theorem State.answered_cases (s : State) (k : Packet) (f : State → Track → State) :
    s.answered k f = ((s.takeLocal k).1).countDiscard .older ∨ s.answered k f = ((s.takeLocal k).1).countDiscard .newer
    ∨ s.answered k f = (s.takeLocal k).1
    ∨ ∃ t, ((s.takeLocal k).1).fab.track.find? (answers k) = some t ∧ s.answered k f = f (s.takeLocal k).1 t := by
  unfold State.answered
  dsimp only
  split
  · exact .inl rfl
  · exact .inr (.inl rfl)
  · exact .inr (.inr (.inl rfl))
  · split
    · next t h => exact .inr (.inr (.inr ⟨t, h, rfl⟩))
    · exact .inr (.inr (.inl rfl))

/-- A PITCH packet of another job is discarded and counted; one of the own job has its effect (R343). -/
theorem State.ownPitch_cases (s : State) (k : Packet) (f : State → State) :
    s.ownPitch k f = ((s.takeLocal k).1).discardPitch ∨ s.ownPitch k f = f (s.takeLocal k).1 := by
  unfold State.ownPitch
  dsimp only
  split
  · exact .inl rfl
  · exact .inr rfl

/-- A NACK taken leaves the state but for the list of NACKs. -/
theorem State.popNack_some {s t : State} {b : Bool} {n : DieNack} (h : s.popNack b = some (n, t)) :
    ∃ l, t = { s with nacks := l } := by
  unfold State.popNack at h
  split at h
  · rename_i i _
    cases e : s.nacks[i]? with
    | none => simp [e] at h
    | some m => simp [e] at h; exact ⟨_, h.2.symm⟩
  · cases h

/-- Routing packets one after another touches the fabric, the recorder and the free values alone. -/
theorem foldl_route_spares (l : List (Nat × Packet)) (s : State) : (l.foldl (fun s e => s.route e.1 e.2 none)
    s).power = s.power ∧ (l.foldl (fun s e => s.route e.1 e.2 none) s).harts = s.harts ∧ (l.foldl (fun s e =>
    s.route e.1 e.2 none) s).cores = s.cores ∧ (l.foldl (fun s e => s.route e.1 e.2 none) s).stations = s.stations ∧
    (l.foldl (fun s e => s.route e.1 e.2 none) s).links = s.links ∧ (l.foldl (fun s e => s.route e.1 e.2 none)
    s).coll = s.coll ∧ (l.foldl (fun s e => s.route e.1 e.2 none) s).rp = s.rp ∧ (l.foldl (fun s e => s.route e.1
    e.2 none) s).guy = s.guy ∧ (l.foldl (fun s e => s.route e.1 e.2 none) s).tt = s.tt ∧ (l.foldl (fun s e =>
    s.route e.1 e.2 none) s).job = s.job ∧ (l.foldl (fun s e => s.route e.1 e.2 none) s).pitch = s.pitch ∧ (l.foldl
    (fun s e => s.route e.1 e.2 none) s).err = s.err ∧ (l.foldl (fun s e => s.route e.1 e.2 none) s).ckpt = s.ckpt ∧
    (l.foldl (fun s e => s.route e.1 e.2 none) s).outputs = s.outputs ∧ (l.foldl (fun s e => s.route e.1 e.2 none)
    s).mem = s.mem ∧ (l.foldl (fun s e => s.route e.1 e.2 none) s).nacks = s.nacks ∧ (l.foldl (fun s e => s.route
    e.1 e.2 none) s).reissues = s.reissues := by
  induction l generalizing s with
  | nil => simp
  | cons x xs ih => rw [List.foldl_cons]; have h := ih (s.route x.1 x.2 none); simp [h]

/-- A failover touches the fabric, the recorder and the free values alone (R284). -/
@[simp] theorem State.failover_spares (s : State) (p : Nat) : (s.failover p).power = s.power ∧ (s.failover p).harts
    = s.harts ∧ (s.failover p).cores = s.cores ∧ (s.failover p).stations = s.stations ∧ (s.failover p).links =
    s.links ∧ (s.failover p).coll = s.coll ∧ (s.failover p).rp = s.rp ∧ (s.failover p).guy = s.guy ∧ (s.failover
    p).tt = s.tt ∧ (s.failover p).job = s.job ∧ (s.failover p).pitch = s.pitch ∧ (s.failover p).err = s.err ∧
    (s.failover p).ckpt = s.ckpt ∧ (s.failover p).outputs = s.outputs ∧ (s.failover p).mem = s.mem ∧ (s.failover
    p).nacks = s.nacks ∧ (s.failover p).reissues = s.reissues := by
  unfold State.failover
  dsimp only
  have h := foldl_route_spares
  simp only [h]
  simp

/-- A port going DOWN touches the fabric, the recorder and the free values alone (R284). -/
@[simp] theorem State.portDown_spares (s : State) (p c : Nat) : (s.portDown p c).power = s.power ∧ (s.portDown p
    c).harts = s.harts ∧ (s.portDown p c).cores = s.cores ∧ (s.portDown p c).stations = s.stations ∧ (s.portDown p
    c).links = s.links ∧ (s.portDown p c).coll = s.coll ∧ (s.portDown p c).rp = s.rp ∧ (s.portDown p c).guy = s.guy
    ∧ (s.portDown p c).tt = s.tt ∧ (s.portDown p c).job = s.job ∧ (s.portDown p c).pitch = s.pitch ∧ (s.portDown p
    c).err = s.err ∧ (s.portDown p c).ckpt = s.ckpt ∧ (s.portDown p c).outputs = s.outputs ∧ (s.portDown p c).mem =
    s.mem ∧ (s.portDown p c).nacks = s.nacks ∧ (s.portDown p c).reissues = s.reissues := by
  simp [State.portDown]

end Sys2Proof.Machine
end

