-- ==== Sys2Proof/Laws/MemoryForm.lean ====
section
/-!
SUPPORT. Every operation that writes stacked or far memory keeps its canonical form.
-/

set_option Elab.async false
namespace Sys2Proof.Machine

open Sys2Proof Rv

theorem foldl_wf {α : Type} (g : State → α → State) (l : List α) (s : State)
    (h : ∀ s x, Memory.wf s.mem = true → Memory.wf (g s x).mem = true) (w : Memory.wf s.mem = true) :
    Memory.wf (l.foldl g s).mem = true := by
  induction l generalizing s with
  | nil => exact w
  | cons x xs ih => exact ih _ (h s x w)

theorem ite_pair_wf {c : Prop} [Decidable c] {a b : State × Bool} (ha : Memory.wf a.1.mem = true)
    (hb : Memory.wf b.1.mem = true) : Memory.wf (if c then a else b).1.mem = true := by
  split <;> assumption

theorem initRegion_wf (im : Image) (m : Cells) (p : Placed) (w : Memory.wf m = true) :
    Memory.wf (initRegion im m p) = true := by
  unfold initRegion
  exact cells_foldl_wf _ _ _ (fun m b h => writeBytes_wf m b _ h) (cells_foldl_wf _ _ _ (fun m b h => clearRange_wf m b _ h) w)

theorem layWeights_wf (im : Image) (placed : List Placed) (m : Cells) (n : Nat) (w : Memory.wf m = true) :
    Memory.wf (layWeights im placed m n) = true := by
  unfold layWeights
  split
  · exact cells_foldl_wf _ _ _ (fun m e h => cells_foldl_wf _ _ _ (fun m b h => writeBytes_wf m _ _ h) h) w
  · exact w

/-- Storing bytes keeps the canonical form. -/
@[simp] theorem store_wf (s : State) (a : Nat) (bs : List Byte) (w : Memory.wf s.mem = true) :
    Memory.wf (s.store a bs).mem = true := by
  simp [State.store, w]

@[simp] theorem State.dropRecords_wf (s : State) (w : Memory.wf s.mem = true) : Memory.wf (State.dropRecords s).mem =
    true := by
  unfold State.dropRecords
  dsimp only
  have h := clearRange_wf _ (recordAddr 1) 128 (clearRange_wf _ (recordAddr 0) 128 w)
  split
  · exact clearRange_wf _ _ _ h
  · exact h

@[simp] theorem State.maybeReady_wf (s : State) (w : Memory.wf s.mem = true) : Memory.wf (State.maybeReady s).mem =
    true := by
  unfold State.maybeReady
  (repeat' split) <;> simp [w]

@[simp] theorem State.alignDone_wf (s : State) (w : Memory.wf s.mem = true) : Memory.wf (State.alignDone s).mem = true
    := by
  unfold State.alignDone
  simp [w]

@[simp] theorem State.maybeLoaded_wf (s : State) (w : Memory.wf s.mem = true) : Memory.wf (State.maybeLoaded s).mem =
    true := by
  unfold State.maybeLoaded
  (repeat' split) <;> simp [w]

@[simp] theorem State.storeAgent_wf (s : State) (a : Nat) (bs : List Byte) (w : Memory.wf s.mem = true) : Memory.wf
    (State.storeAgent s a bs).mem = true := by
  unfold State.storeAgent
  simp [w]

@[simp] theorem putState_wf (copy : Nat) (a1 : List Placed) (a2 : List Byte) (st : State) (w : Memory.wf st.mem =
    true) : Memory.wf (putState copy a1 a2 st).mem = true := by
  induction a1 generalizing a2 st with
  | nil => simp [putState, w]
  | cons x xs ih => simp only [putState]; (repeat' split) <;> simp_all

@[simp] theorem State.copyState_wf (s : State) (src dst : Nat) (w : Memory.wf s.mem = true) : Memory.wf
    (State.copyState s src dst).mem = true := by
  unfold State.copyState
  exact foldl_wf _ _ _ (fun s x h => by simp [h]) w

@[simp] theorem State.restored_wf (s : State) (slot : Option Nat) (w : Memory.wf s.mem = true) : Memory.wf
    (State.restored s slot).mem = true := by
  unfold State.restored
  simp [w]

@[simp] theorem State.restoreStage_wf (s : State) (w : Memory.wf s.mem = true) : Memory.wf (State.restoreStage s).mem
    = true := by
  unfold State.restoreStage
  dsimp only
  split
  · split
    · exact State.restored_wf _ _ (putState_wf _ _ _ _ (putState_wf _ _ _ _ w))
    · simp [w]
  · simp [w]

@[simp] theorem State.closeRestore_wf (s : State) (rec_ : List Byte) (holder : Nat) (w : Memory.wf s.mem = true) :
    Memory.wf (State.closeRestore s rec_ holder).mem = true := by
  unfold State.closeRestore
  (repeat' split) <;> simp [w]

@[simp] theorem State.drainTick_wf (s : State) (w : Memory.wf s.mem = true) : Memory.wf (State.drainTick s).mem = true
    := by
  unfold State.drainTick
  dsimp only
  (repeat' split) <;> simp_all

@[simp] theorem State.applyLine_wf (s : State) (k : Packet) (w : Memory.wf s.mem = true) : Memory.wf (State.applyLine
    s k).mem = true := by
  unfold State.applyLine
  simp [w]

@[simp] theorem State.atHome_wf (s : State) (k : Packet) (bad : Bool) (w : Memory.wf s.mem = true) : Memory.wf
    (State.atHome s k bad).mem = true := by
  unfold State.atHome
  dsimp only
  (repeat' split) <;> simp_all

@[simp] theorem State.bivouac_wf (s : State) (k : Packet) (w : Memory.wf s.mem = true) : Memory.wf (State.bivouac s
    k).mem = true := by
  unfold State.bivouac
  dsimp only
  (repeat' split) <;> simp_all

@[simp] theorem State.passOn_wf (s : State) (k : Packet) (bad : Bool) (w : Memory.wf s.mem = true) : Memory.wf
    (State.passOn s k bad).mem = true := by
  unfold State.passOn
  (repeat' split) <;> simp [w]

@[simp] theorem State.drainSpace_wf (key : Nat) (a1 : Nat) (st : State) (w : Memory.wf st.mem = true) : Memory.wf
    (State.drainSpace key a1 st).mem = true := by
  induction a1 generalizing st with
  | zero => simp [State.drainSpace, w]
  | succ n ih => simp only [State.drainSpace]; (repeat' split) <;> simp_all

@[simp] theorem State.accept_wf (s : State) (k : Packet) (bad : Bool) (w : Memory.wf s.mem = true) : Memory.wf
    (State.accept s k bad).mem = true := by
  unfold State.accept
  dsimp only
  (repeat' split) <;> simp_all

@[simp] theorem State.deliver_wf (s : State) (k : Packet) (bad : Bool) (w : Memory.wf s.mem = true) : Memory.wf
    (State.deliver s k bad).mem = true := by
  unfold State.deliver
  simp [w]

@[simp] theorem State.packageReset_wf (s : State) (cause : ResetCause) (w : Memory.wf s.mem = true) : Memory.wf
    (State.packageReset s cause).mem = true := by
  unfold State.packageReset
  simp [w]

@[simp] theorem State.powerLoss_wf (s : State) (mid : Nat) (w : Memory.wf s.mem = true) : Memory.wf (State.powerLoss s
    mid).mem = true := by
  unfold State.powerLoss
  simp [w]

@[simp] theorem idle_wf (s : State) (w : Memory.wf s.mem = true) : Memory.wf (idle s).mem = true := by
  unfold idle
  (repeat' split) <;> simp [w]

@[simp] theorem State.xferWrite_wf (s : State) (c : Nat) (x : Xfer) (i : Nat) (bs : List Byte) (w : Memory.wf s.mem =
    true) : Memory.wf (State.xferWrite s c x i bs).mem = true := by
  unfold State.xferWrite
  (repeat' split) <;> simp [w]

@[simp] theorem moveRows_wf (c : Nat) (x : Xfer) (lim : Nat) (a1 : Nat) (a2 : Nat) (st : State) (w : Memory.wf st.mem
    = true) : Memory.wf (moveRows c x lim a1 a2 st).mem = true := by
  induction a1 generalizing a2 st with
  | zero => simp [moveRows, w]
  | succ n ih => simp only [moveRows]; (repeat' split) <;> simp_all

@[simp] theorem drainTiles_wf (c : Nat) (x : Xfer) (a1 : Nat) (a2 : Nat) (st : State) (w : Memory.wf st.mem = true) :
    Memory.wf (drainTiles c x a1 a2 st).2.mem = true := by
  induction a1 generalizing a2 st with
  | zero => exact w
  | succ n ih =>
    simp only [drainTiles]
    (repeat' split) <;> first
      | exact w
      | exact ih _ _ (foldl_wf _ _ _ (fun s e h => State.xferWrite_wf s c x _ _ h) (by simp [w]))

@[simp] theorem State.runXfer_wf (s : State) (c : Nat) (w : Memory.wf s.mem = true) : Memory.wf (State.runXfer s
    c).mem = true := by
  unfold State.runXfer
  dsimp only
  (repeat' split) <;> simp_all

@[simp] theorem State.finishSolve_wf (s : State) (d : Nat) (p : LinkProb) (sc : Schedule) (x : Solve) (e : SolveEnd)
    (w : Memory.wf s.mem = true) : Memory.wf (State.finishSolve s d p sc x e).mem = true := by
  have h := foldl_wf (fun (s : State) (y : Nat × List Byte) =>
      (s.storeAgent (p.addr + y.1) y.2).countLines (p.addr + y.1) true (y.2.length / 128 + 2) y.2.length)
    (solveWrites sc x e) s (fun s y h => by simp [h]) w
  unfold State.finishSolve
  dsimp only
  split <;> simpa using h

@[simp] theorem State.widenWrite_wf (s : State) (d : ConvDesc) (aff : List Byte) (pair : Bool) (r : Nat) (xs : List
    Nat) (w : Memory.wf s.mem = true) : Memory.wf (State.widenWrite s d aff pair r xs).mem = true := by
  unfold State.widenWrite
  simp [w]

@[simp] theorem State.widenRows_wf (s : State) (n id : Nat) (d : ConvDesc) (w : Memory.wf s.mem = true) : Memory.wf
    (State.widenRows s n id d).mem = true := by
  unfold State.widenRows
  split
  · exact w
  · simp only [State.modCtx_keeps]
    exact foldl_wf _ _ _ (fun s r h => State.widenWrite_wf s d _ false r _ h) w

@[simp] theorem widenTiles_wf (n id : Nat) (d : ConvDesc) (a1 : Nat) (st : State) (w : Memory.wf st.mem = true) :
    Memory.wf (widenTiles n id d a1 st).mem = true := by
  induction a1 generalizing st with
  | zero => exact w
  | succ k ih =>
    simp only [widenTiles]
    (repeat' split) <;> first
      | exact w
      | (apply ih; simp only [State.retire_keeps, State.modCtx_keeps]
         exact foldl_wf _ _ _ (fun s i h => State.widenWrite_wf s d _ _ _ _ h) (by simp [w]))
      | simp [w]

@[simp] theorem State.widenDone_wf (s : State) (n id : Nat) (d : ConvDesc) (w : Memory.wf s.mem = true) : Memory.wf
    (State.widenDone s n id d).mem = true := by
  unfold State.widenDone
  (repeat' split) <;> simp [w]

@[simp] theorem State.bar2Piece_wf (s : State) (x : Nat × List Byte) (w : Memory.wf s.mem = true) : Memory.wf
    (State.bar2Piece s x).1.mem = true := by
  unfold State.bar2Piece
  (repeat' split) <;> simp [w]

@[simp] theorem bar2Pieces_wf (a1 : List (Nat × List Byte)) (st : State) (w : Memory.wf st.mem = true) : Memory.wf
    (bar2Pieces a1 st).1.mem = true := by
  induction a1 generalizing st with
  | nil => simp [bar2Pieces, w]
  | cons x xs ih => simp only [bar2Pieces]; (repeat' split) <;> simp_all

@[simp] theorem State.bar2Write_wf (s : State) (p off : Nat) (bs : List Byte) (w : Memory.wf s.mem = true) : Memory.wf
    (State.bar2Write s p off bs).mem = true := by
  unfold State.bar2Write
  dsimp only
  (repeat' split) <;> simp_all

@[simp] theorem State.bar2Serve_wf (s : State) (p : Nat) (a1 : Bar2Req) (w : Memory.wf s.mem = true) : Memory.wf
    (State.bar2Serve s p a1).mem = true := by
  unfold State.bar2Serve
  (repeat' split) <;> simp [w]

@[simp] theorem State.serveHeld_wf (s : State) (p : Nat) (w : Memory.wf s.mem = true) : Memory.wf (State.serveHeld s
    p).mem = true := by
  unfold State.serveHeld
  try dsimp only
  (repeat' split) <;> first | simp [w] | (apply foldl_wf <;> simp_all) | simp_all

@[simp] theorem State.measured_wf (s : State) (m : RpMeasure) (w : Memory.wf s.mem = true) : Memory.wf (State.measured
    s m).mem = true := by
  unfold State.measured
  dsimp only
  (repeat' split) <;> simp_all

@[simp] theorem State.copyBytes_wf (s : State) (a b len : Nat) (w : Memory.wf s.mem = true) : Memory.wf
    (State.copyBytes s a b len).mem = true := by
  unfold State.copyBytes
  simp [w]

@[simp] theorem State.publish_wf (s : State) (p : Placed) (w : Memory.wf s.mem = true) : Memory.wf (State.publish s
    p).mem = true := by
  unfold State.publish
  simp [w]

@[simp] theorem State.commitOut_wf (s : State) (w : Memory.wf s.mem = true) : Memory.wf (State.commitOut s).mem = true
    := by
  unfold State.commitOut
  simp only [State.commitMessage_keeps, foldl_mem, State.issue_keeps, implies_true]
  exact foldl_wf _ _ _ (fun s p h => State.publish_wf s p h) w

@[simp] theorem State.commitIn_wf (s : State) (w : Memory.wf s.mem = true) : Memory.wf (State.commitIn s).mem = true
    := by
  unfold State.commitIn
  simp only [State.digestInputs_keeps]
  exact foldl_wf _ _ _ (fun s p h => State.copyBytes_wf s _ _ _ h) w

@[simp] theorem State.beginCommit_wf (s : State) (quiesce : Bool) (w : Memory.wf s.mem = true) : Memory.wf
    (State.beginCommit s quiesce).mem = true := by
  unfold State.beginCommit
  (repeat' split) <;> simp [w]

@[simp] theorem State.zeroStage_wf (s : State) (x : Nat) (w : Memory.wf s.mem = true) : Memory.wf (State.zeroStage s
    x).mem = true := by
  unfold State.zeroStage
  (repeat' split) <;> simp [w]

@[simp] theorem State.startDrain_wf (s : State) (w : Memory.wf s.mem = true) : Memory.wf (State.startDrain s).mem =
    true := by
  unfold State.startDrain
  (repeat' split) <;> simp [w]

@[simp] theorem State.abandon_wf (s : State) (attempt step f : Nat) (w : Memory.wf s.mem = true) : Memory.wf
    (State.abandon s attempt step f).mem = true := by
  unfold State.abandon
  simp [w]

@[simp] theorem State.replay_wf (s : State) (rank code : Nat) (w : Memory.wf s.mem = true) : Memory.wf (State.replay s
    rank code).mem = true := by
  unfold State.replay
  simp [w]

@[simp] theorem State.rootFailed_wf (s : State) (child : Option Nat) (w : Memory.wf s.mem = true) : Memory.wf
    (State.rootFailed s child).mem = true := by
  unfold State.rootFailed
  (repeat' split) <;> simp [w]

@[simp] theorem State.commitDecision_wf (s : State) (w : Memory.wf s.mem = true) : Memory.wf (State.commitDecision
    s).mem = true := by
  unfold State.commitDecision
  (repeat' split) <;> simp [w]

@[simp] theorem State.gather_wf (s : State) (w : Memory.wf s.mem = true) : Memory.wf (State.gather s).mem = true := by
  unfold State.gather
  dsimp only
  (repeat' split) <;> simp_all

@[simp] theorem State.arrival_wf (s : State) (k : Packet) (clean : Bool) (w : Memory.wf s.mem = true) : Memory.wf
    (State.arrival s k clean).mem = true := by
  unfold State.arrival
  dsimp only
  (repeat' split) <;> simp_all

@[simp] theorem State.gotRelease_wf (s : State) (k : Packet) (w : Memory.wf s.mem = true) : Memory.wf
    (State.gotRelease s k).mem = true := by
  unfold State.gotRelease
  dsimp only
  (repeat' split) <;> simp_all

@[simp] theorem State.release_wf (s : State) (r : Release) (w : Memory.wf s.mem = true) : Memory.wf (State.release s
    r).mem = true := by
  unfold State.release
  dsimp only
  refine foldl_wf _ _ _ (fun s k h => State.drainSpace_wf k _ s h) ?_
  split <;> simp [w]

@[simp] theorem State.jobWipe_wf (s : State) (wipeUs : Nat) (w : Memory.wf s.mem = true) : Memory.wf (State.jobWipe s
    wipeUs).mem = true := by
  unfold State.jobWipe
  simp [w]

@[simp] theorem State.toIdle_wf (s : State) (w : Memory.wf s.mem = true) : Memory.wf (State.toIdle s).mem = true := by
  unfold State.toIdle
  simp [w]

@[simp] theorem State.placeJob_wf (s : State) (im : Image) (st : PlaceSt) (placed : List Placed) (keep : Bool) (w :
    Memory.wf s.mem = true) : Memory.wf (State.placeJob s im st placed keep).mem = true := by
  unfold State.placeJob
  dsimp only
  simp only [State.digestInputs_keeps]
  refine writeBytes_wf _ _ _ ?_
  split
  · exact w
  · exact cells_foldl_wf _ _ _ (fun m n h => layWeights_wf im placed m n h)
      (cells_foldl_wf _ _ _ (fun m p h => initRegion_wf im m p h) w)

@[simp] theorem State.loadDone_wf (s : State) (w : Memory.wf s.mem = true) : Memory.wf (State.loadDone s).mem = true
    := by
  unfold State.loadDone
  try dsimp only
  (repeat' split) <;> first | simp [w] | (apply foldl_wf <;> simp_all) | simp_all

@[simp] theorem State.loadImage_wf (s : State) (img : List Byte) (w : Memory.wf s.mem = true) : Memory.wf
    (State.loadImage s img).mem = true := by
  unfold State.loadImage
  dsimp only
  (repeat' split) <;> simp_all

@[simp] theorem State.failover_wf (s : State) (p : Nat) (w : Memory.wf s.mem = true) : Memory.wf (State.failover s
    p).mem = true := by
  unfold State.failover
  simp [w]

@[simp] theorem State.portDown_wf (s : State) (p cause : Nat) (w : Memory.wf s.mem = true) : Memory.wf (State.portDown
    s p cause).mem = true := by
  unfold State.portDown
  simp [w]

@[simp] theorem State.adminChanged_wf (s : State) (p : Nat) (w : Memory.wf s.mem = true) : Memory.wf
    (State.adminChanged s p).mem = true := by
  unfold State.adminChanged
  (repeat' split) <;> simp [w]

@[simp] theorem State.linkAck_wf (s : State) (p num : Nat) (w : Memory.wf s.mem = true) : Memory.wf (State.linkAck s p
    num).mem = true := by
  unfold State.linkAck
  simp [w]

@[simp] theorem State.linkNak_wf (s : State) (p num : Nat) (w : Memory.wf s.mem = true) : Memory.wf (State.linkNak s p
    num).mem = true := by
  unfold State.linkNak
  dsimp only
  (repeat' split) <;> simp_all

@[simp] theorem State.takeLink_wf (s : State) (p : Nat) (a1 : LinkWord) (w : Memory.wf s.mem = true) : Memory.wf
    (State.takeLink s p a1).mem = true := by
  unfold State.takeLink
  (repeat' split) <;> simp [w]

@[simp] theorem State.putSetting_wf (s : State) (key : Nat) (v : List Byte) (w : Memory.wf s.mem = true) : Memory.wf
    (State.putSetting s key v).mem = true := by
  unfold State.putSetting
  dsimp only
  (repeat' split) <;> simp_all

@[simp] theorem State.takeValue_wf (s : State) (p : DictPath) (key : Nat) (e : DictEntry) (v : List Byte) (w :
    Memory.wf s.mem = true) : Memory.wf (State.takeValue s p key e v).1.mem = true := by
  unfold State.takeValue
  dsimp only
  repeat' (refine ite_pair_wf ?_ ?_)
  all_goals simp [w]

@[simp] theorem State.serveValue_wf (s : State) (q : DictReq) (r : Req) (payload : List Byte) (w : Memory.wf s.mem =
    true) : Memory.wf (State.serveValue s q r payload).mem = true := by
  unfold State.serveValue
  dsimp only
  (repeat' split) <;> simp_all

@[simp] theorem State.serveSegment_wf (s : State) (q : DictReq) (r : Req) (w : Memory.wf s.mem = true) : Memory.wf
    (State.serveSegment s q r).mem = true := by
  unfold State.serveSegment
  dsimp only
  (repeat' split) <;> simp_all

@[simp] theorem State.executeReq_wf (s : State) (q : DictReq) (r : Req) (w : Memory.wf s.mem = true) : Memory.wf
    (State.executeReq s q r).mem = true := by
  unfold State.executeReq
  dsimp only
  (repeat' split) <;> simp_all

@[simp] theorem State.serve_wf (s : State) (q : DictReq) (w : Memory.wf s.mem = true) : Memory.wf (State.serve s
    q).mem = true := by
  unfold State.serve
  dsimp only
  (repeat' split) <;> simp_all

@[simp] theorem State.frameArrives_wf (s : State) (q : DictReq) (w : Memory.wf s.mem = true) : Memory.wf
    (State.frameArrives s q).mem = true := by
  unfold State.frameArrives
  (repeat' split) <;> simp [w]

@[simp] theorem State.hartStore_wf (s : State) (i a : Nat) (bs : List Byte) (w : Memory.wf s.mem = true) : Memory.wf
    (State.hartStore s i a bs).mem = true := by
  unfold State.hartStore
  simp [w]

@[simp] theorem State.storeLocal_wf (s : State) (i : Nat) (l : List Put) (w : Memory.wf s.mem = true) : Memory.wf
    (State.storeLocal s i l).mem = true := by
  unfold State.storeLocal
  try dsimp only
  (repeat' split) <;> first | simp [w] | (apply foldl_wf <;> simp_all) | simp_all

@[simp] theorem State.storeCanopy_wf (s : State) (i : Nat) (l : List Put) (w : Memory.wf s.mem = true) : Memory.wf
    (State.storeCanopy s i l).mem = true := by
  unfold State.storeCanopy
  simp [w]

end Sys2Proof.Machine
end

