-- ==== Sys2Proof/Laws/MramOrder.lean ====
section
/-!
SUPPORT. Every operation that changes MRAM takes a step that the spec allows it: no count goes back, no lock opens.
-/

set_option Elab.async false
namespace Sys2Proof

open Machine

theorem MramStep.of_eq {s t : State} (h : t.mram = s.mram) : MramStep s t := by
  intro r
  simp only [MramInRange, MramForward, h] at r ⊢
  exact ⟨r, by simp⟩

theorem MramStep.trans {s t u : State} (h : MramStep s t) (k : MramStep t u) : MramStep s u := by
  intro r
  obtain ⟨a, b⟩ := h r
  obtain ⟨c, d⟩ := k a
  simp only [MramForward] at b d ⊢
  refine ⟨c, by omega, by omega, by omega, by omega, by omega, by omega, fun h => d.2.2.2.2.2.2 (b.2.2.2.2.2.2 h)⟩

/-- Only MRAM matters. -/
theorem MramStep.congr {s s' t t' : State} (h : MramStep s t) (hs : s'.mram = s.mram) (ht : t'.mram = t.mram) :
    MramStep s' t' := by
  simp only [MramStep, MramInRange, MramForward, hs, ht] at h ⊢
  exact h

namespace Machine

theorem foldl_mramStep {α : Type} (g : State → α → State) (l : List α) (s : State) (h : ∀ s x, MramStep s (g s x)) :
    MramStep s (l.foldl g s) := by
  induction l generalizing s with
  | nil => exact .of_eq rfl
  | cons x xs ih => exact .trans (h s x) (ih _)

theorem ite_mramStep {c : Prop} [Decidable c] {s a b : State} (ha : MramStep s a) (hb : MramStep s b) :
    MramStep s (if c then a else b) := by
  split <;> assumption

theorem ite_pair_mramStep {c : Prop} [Decidable c] {s : State} {a b : State × Bool} (ha : MramStep s a.1)
    (hb : MramStep s b.1) : MramStep s (if c then a else b).1 := by
  split <;> assumption

theorem firstCode_cons {c : Nat} {cs : List Nat} (h : firstCode (c :: cs) = 0) : c = 0 ∧ firstCode cs = 0 := by
  unfold firstCode at h
  split at h <;> simp_all

/-- An accepted SIGNED_WRITE has a larger number than the last (R435). -/
theorem checkWrite_signed (s : State) (r : Req) (e : DictEntry) (p : List Byte) (h : (s.checkWrite r e p).1 = 0)
    (k : r.opcode = 7) : s.mram.signedSeq < signedNumber p := by
  unfold State.checkWrite at h
  have := (firstCode_cons (firstCode_cons (firstCode_cons h).2).2).1
  simp only [failing, k] at this
  split at this
  · next h => simp [State.signatureOk] at h; omega
  · cases this

theorem State.applyValue_mramStep (s : State) (key : Nat) (v : List Byte) : MramStep s (s.applyValue key v) := by
  unfold State.applyValue
  split
  · intro r; exact ⟨r, by simp [MramForward]⟩
  · split
    · intro r; exact ⟨r, by simp [MramForward]⟩
    · exact .of_eq (by simp)

theorem State.applyPending_mramStep (s : State) (p : Nat → Bool) : MramStep s (s.applyPending p) := by
  unfold State.applyPending
  exact .congr (foldl_mramStep (fun s (e : Nat × List Byte) => s.applyValue e.1 e.2) _ s
    (fun s e => State.applyValue_mramStep s e.1 e.2)) rfl rfl

theorem State.packageReset_mram (s : State) (cause : ResetCause) :
    (s.packageReset cause).mram = (s.applyPending (fun k => !resetClass k)).mram := by
  simp [State.packageReset]

theorem State.packageReset_mramStep (s : State) (cause : ResetCause) : MramStep s (s.packageReset cause) :=
  .congr (s.applyPending_mramStep _) rfl (s.packageReset_mram cause)

theorem Mram.torn_counts (m : Mram) (q : List Occurrence) (mid : Nat) : ∃ r, m.torn q mid = { m with ring := r } := by
  unfold Mram.torn
  split
  · exact ⟨m.ring, rfl⟩
  · dsimp only
    split
    · exact ⟨_, rfl⟩
    · split
      · exact ⟨_, rfl⟩
      · exact ⟨m.ring, rfl⟩

theorem State.powerLoss_mramStep (s : State) (mid : Nat) : MramStep s (s.powerLoss mid) := by
  obtain ⟨r, h⟩ := Mram.torn_counts s.mram (if s.recording then s.recorder.queue else []) mid
  have e : (s.powerLoss mid).mram = { s.mram with ring := r } := h
  intro w
  simp only [MramInRange, MramForward, e] at w ⊢
  exact ⟨w, by simp⟩

theorem State.raiseSvn_mramStep (s : State) : MramStep s s.raiseSvn := by
  unfold State.raiseSvn
  dsimp only
  split
  · rename_i h
    simp only [Bool.and_eq_true, decide_eq_true_eq] at h
    intro r
    simp only [MramInRange, MramForward, State.event_keeps] at r ⊢
    refine ⟨r, ?_⟩
    simp
    omega
  · exact .of_eq rfl

theorem State.startSlot_mramStep (s : State) (n : Nat) : MramStep s (s.startSlot n) := by
  unfold State.startSlot
  exact .congr s.raiseSvn_mramStep rfl rfl

theorem idle_mramStep (s : State) : MramStep s (idle s) := by
  unfold idle
  split
  · exact .congr (State.packageReset_mramStep (tick s) _) (by simp) rfl
  · exact .of_eq (by simp)

theorem State.release_mramStep (s : State) (r : Release) : MramStep s (s.release r) := by
  unfold State.release
  dsimp only
  refine .congr (s.applyPending_mramStep s.liveDue) rfl ?_
  rw [foldl_mram _ _ _ (by simp)]
  split <;> simp

theorem State.jobWipe_mramStep (s : State) (us : Nat) : MramStep s (s.jobWipe us) := by
  unfold State.jobWipe
  exact .congr (State.applyPending_mramStep s.sincePitch (fun key => !resetClass key)) (by simp) rfl

theorem State.continuePitch_mramStep (s : State) (r : List Byte) (rank : Nat) : MramStep s (s.continuePitch r rank) := by
  unfold State.continuePitch
  exact .congr (s.applyPending_mramStep _) rfl rfl

theorem State.acceptPitch_mramStep (s : State) (r : List Byte) (rank : Nat) : MramStep s (s.acceptPitch r rank) := by
  have h : MramStep s (if s.jobHeld then s.continuePitch r rank else s.newPitch r rank) :=
    ite_mramStep (s.continuePitch_mramStep r rank) (.of_eq (by simp))
  unfold State.acceptPitch
  dsimp only
  refine .congr h rfl ?_
  rw [foldl_mram _ _ _ (by simp)]
  split <;> simp

theorem State.requestPitch_mramStep (s : State) (r : List Byte) : MramStep s (s.requestPitch r) := by
  unfold State.requestPitch
  split
  · exact s.acceptPitch_mramStep r _
  · exact .of_eq (by simp)

theorem State.recordDone_mramStep (s : State) (k : Packet) (r : List Byte) : MramStep s (s.recordDone k r) := by
  unfold State.recordDone
  split
  · exact .of_eq (by simp)
  · split
    · exact s.acceptPitch_mramStep r _
    · exact .of_eq (by simp)

theorem State.recordPacket_mramStep (s : State) (k : Packet) : MramStep s (s.recordPacket k) := by
  unfold State.recordPacket
  dsimp only
  refine ite_mramStep (.of_eq (by simp)) ?_
  exact .congr (State.recordDone_mramStep _ k _) (by simp) rfl

theorem State.takeTransition_mramStep (s : State) (v : List Byte) : MramStep s (s.takeTransition v) := by
  unfold State.takeTransition
  split
  · exact .of_eq rfl
  · intro r
    simp only [MramInRange, MramForward, State.event_keeps, count, satAdd] at r ⊢
    refine ⟨⟨r.1, by omega, r.2.2⟩, ?_⟩
    refine ⟨Nat.le_refl _, Nat.le_refl _, by omega, Nat.le_refl _, Nat.le_refl _, Nat.le_refl _, ?_⟩
    intro h
    simp [h]

theorem State.takeFirmware_mramStep (s : State) (v : List Byte) : MramStep s (s.takeFirmware v) := by
  unfold State.takeFirmware
  refine ite_mramStep ?_ ?_ <;> (intro r; exact ⟨r, by simp [MramForward]⟩)

theorem State.takeValue_mramStep (s : State) (p : DictPath) (key : Nat) (e : DictEntry) (v : List Byte) :
    MramStep s (s.takeValue p key e v).1 := by
  unfold State.takeValue
  dsimp only
  repeat' (refine ite_pair_mramStep ?_ ?_)
  all_goals first
    | exact s.requestPitch_mramStep _
    | exact s.takeTransition_mramStep _
    | exact s.takeFirmware_mramStep _
    | exact .of_eq (by simp)

theorem State.serveValue_mramStep (s : State) (q : DictReq) (r : Req) (payload : List Byte) :
    MramStep s (s.serveValue q r payload) := by
  unfold State.serveValue
  split
  · exact .of_eq (by simp)
  · rename_i e _
    dsimp only
    split
    · exact .of_eq (by simp)
    · rename_i h
      have h : (s.checkWrite r e payload).1 = 0 := by omega
      have k : MramStep s (if r.opcode = 7 then { s with mram := { s.mram with signedSeq := signedNumber payload } } else s) := by
        split
        · rename_i o
          have := checkWrite_signed s r e payload h o
          intro w
          simp only [MramInRange, MramForward] at w ⊢
          exact ⟨w, by simp; omega⟩
        · exact .of_eq rfl
      refine .congr (.trans k (State.takeValue_mramStep _ r.path r.key e (s.checkWrite r e payload).2)) rfl ?_
      exact (State.respond_keeps _ _ _ _ _ _).2.2.2.1

theorem State.serveSegment_mramStep (s : State) (q : DictReq) (r : Req) : MramStep s (s.serveSegment q r) := by
  unfold State.serveSegment
  dsimp only
  split
  · exact .of_eq (by simp)
  · refine ite_mramStep (.of_eq (by simp)) (ite_mramStep ?_ (.of_eq (by simp)))
    exact .congr (State.serveValue_mramStep _ q r _) (by simp) rfl

theorem State.executeReq_mramStep (s : State) (q : DictReq) (r : Req) : MramStep s (s.executeReq q r) := by
  unfold State.executeReq
  split
  · exact .of_eq (by simp)
  · dsimp only
    split
    · refine .of_eq ?_
      split <;> simp
    · split
      · exact .of_eq (by simp)
      · exact s.serveValue_mramStep q r _
      · exact .of_eq (by simp)
      · exact .of_eq (by simp)
      · exact s.serveSegment_mramStep q r

theorem State.serve_mramStep (s : State) (q : DictReq) : MramStep s (s.serve q) := by
  unfold State.serve
  dsimp only
  split
  · exact .of_eq (by simp)
  · exact .congr (State.executeReq_mramStep _ q _) (by simp) rfl

theorem State.frameArrives_mramStep (s : State) (q : DictReq) : MramStep s (s.frameArrives q) := by
  unfold State.frameArrives
  refine ite_mramStep (.of_eq (by simp)) (ite_mramStep (s.serve_mramStep q) (.of_eq (by simp)))

end Machine

end Sys2Proof
end

