-- ==== Sys2Proof/Tests/Slice0.lean ====
section
/-!
SUPPORT. Tests: commands that the well-formedness check refuses, the spec's worked examples, and for each obligation a
concrete state and operands that meet its hypotheses.
-/

set_option Elab.async false
set_option synthInstance.maxSize 4096
set_option synthInstance.maxHeartbeats 400000

namespace Sys2Proof.Tests

open Sys2Proof Sys2Proof.Machine

/-! ## Small states -/

/-- The package in a phase of start-up. -/
def at_ (ph : Phase) : State := { State.reset with start := { phase := ph } }

/-- A frequency measurement runs. -/
def measuring : State := { (at_ .ready) with power := { counter := { st := 1 } } }

/-- Die 1 has refused flit 0 of die 0 as often as its limit allows. -/
def nakked : State := (at_ .ready).putD2d 0 8 { rxRun := 8 }

/-- Fabric port 0 in a state. -/
def port_ (st : PortSt) : State :=
  { (at_ .ready) with fab := { ports := [(0, { st := st, joined := true, retrain := st == .down })] } }

/-- A packet of job 1, attempt 1, step 4 from rank 0 to rank 1. -/
def pktOf (kind tc arg : Nat) (payload : List Byte) : Packet :=
  { kind := kind, tc := tc, job := 1, attempt := 1, step := 4, seq := 0, arg := arg, path := 0, srcRank := 0, srcCore := 0
    dstRank := 1, dstCore := 0, sgd := 0, payload := payload }

def wireGood : WirePacket := { lane := 6, crc := crc32c (pktOf kGUY 3 1 []).bytes, pkt := pktOf kGUY 3 1 [] }
def wireBad : WirePacket := { wireGood with crc := 0 }

/-- Port 0 is UP with two codewords unacknowledged. -/
def sending : State :=
  { (at_ .ready) with fab := { ports := [(0, { st := .up, joined := true, txFlit := 20
                                               replay := [{ cw := 1, lane := 6, pkt := pktOf kGUY 3 1 [] }] })] } }
def nakkedPort : State :=
  { (at_ .ready) with fab := { ports := [(0, { st := .up, joined := true, txFlit := 20, nakRun := 8 })] } }

def badPkt : Packet := pktOf kGUY 2 1 []
def ownPkt : Packet := pktOf kGUY 3 1 []
def farPkt : Packet := { pktOf kGUY 3 1 [] with srcRank := 7, dstRank := 2 }
def lostPkt : Packet := { pktOf kGUY 3 1 [] with srcRank := 7, dstRank := 3 }

/-- A packet has come in on lane 6 of port 0; rank 1 is this package, rank 2 lies behind port 1. -/
def arrived (k : Packet) : State :=
  { (at_ .ready) with fab := {
      ports := [(0, { st := .up, joined := true }), (1, { st := .up, joined := true })]
      tabs := { own := 4, peg := [(1, 4), (2, 5)], route := [(1, 2 ^ 33), (2, 0x81)] }
      rx := [{ port := 0, lane := 6, pkt := k }] } }
def draining : State := { (at_ .ready) with fab := { tabSt := .draining } }

/-! ## A package in a running step -/

/-- Conversion descriptors: NARROW of one element with a flag, WIDEN of one element with an interrupt and a completion
word, GENERATE of one draw, WIDEN of a tile. -/
def convs1 : List Nat :=
  [1 + 2 ^ 20 + 2 ^ 128 + 2 ^ 346, 2 + 2 ^ 25 + 2 ^ 26 + 5 * 2 ^ 72 + 2 ^ 128 + 2 ^ 352 + 8 * 2 ^ 384, 3 + 2 ^ 128
   , 2 + 2 ^ 16 + 2 ^ 20 + 2 ^ 28 + 63 * 2 ^ 32 + 63 * 2 ^ 48 + 63 * 2 ^ 96 + 2 ^ 128 + 512 * 2 ^ 184]

/-- A schedule of one unknown and three operations: DOT, PIVOT, NORM over slot 0. -/
def schedBytes1 : List Byte :=
  leBytes 64 (2 ^ 128 + 2 ^ 192 + 3 * 2 ^ 224 + 2 ^ 288 + 100 * 2 ^ 320) ++ zeros 16
    ++ leBytes 16 (1 + 2 ^ 96) ++ leBytes 16 2 ++ leBytes 16 (3 + 2 ^ 96) ++ zeros 16

def tt1 : TtEntry :=
  { offset := 0, lo := 1, hi := 1, srcCore := 0, dstCore := 0, rank := 0, rel := false, src := 0, dst := 0, len := 256, flag := 0
    flagEn := false, cnt := 0, cntEn := false, arm := false, repoch := 0 }
def role7 : Role :=
  { id := 7, latchIn := 0, latchOut := 0, vestIn := 0, vestOut := 0, pace := [], cmds := [5], descs := [], sect := 0, cmdOff := 0 }
def regionWork : Region := { id := 1, kind := .work, isLocal := false, die := 0, size := 8192, const := 0, constOff := 0 }
def regionState : Region := { regionWork with id := 0, kind := .state, size := 4096 }
def regionInput : Region := { regionWork with id := 2, kind := .input, size := 4096 }
def regionHost : Region := { regionWork with id := 3, kind := .host }
def image0 : Image :=
  { ranks := 21, commitUs := 10, flyUs := 20, periodUs := 0, digest := zeros 64, sections := []
    regions := [regionState, regionWork, regionInput, regionHost], roles := [role7], rolemap := [], gangs := [], wlayout := []
    timetable := [tt1], conv := convs1, scheds := [schedBytes1] }

/-- Where region 1 lies. -/
def workAt : Nat := 0x80000000
/-- Where region 2 has its working copy. -/
def inputAt : Nat := 0x80010000
def placed1 : List Placed :=
  [⟨regionState, [0x80020000, 0x80021000, 0x80022000, 0x80023000]⟩, ⟨regionWork, [workAt]⟩, ⟨regionInput, [inputAt, inputAt + 4096]⟩
   , ⟨regionHost, []⟩]

/-- Step 4 of job 1 runs on rank 1 of 21, whose children are ranks 5 to 8. -/
def running1 : State :=
  { (at_ .ready) with
      hbm := { trained := true, wiped := true }
      fab := { tabs := { own := 4, peg := [(0, 3), (1, 4)], route := [(1, 2 ^ 33)] } }
      rp := { now := 25600000, st := .locked, parent := some 0 }
      job := { held := true, id := 1, attempt := 1, step := 4, rank := 1, ranks := 21, image := some image0, placed := placed1
               stepRunning := true, kind := 1 }
      pitch := { st := .running }, ckpt := { flyStep := 3 } }

def sendPkt : Packet := pktOf kSEND 1 64 [1, 2, 3, 4]
def ttPkt : Packet := pktOf kTT 0 64 [1, 2, 3, 4]
def collPkt : Packet := pktOf kCOLL 1 64 [1, 2, 3, 4]
def earlyPkt : Packet := pktOf kSEND 1 (64 + 2 ^ 38) [1, 2, 3, 4]
def stalePkt : Packet := pktOf kSEND 1 (64 + 65535 * 2 ^ 38) [1, 2, 3, 4]
def aheadPkt : Packet := { sendPkt with seq := 1 }
def olderPkt : Packet := { sendPkt with attempt := 0 }
def newerPkt : Packet := { sendPkt with attempt := 2 }
def readPkt : Packet := pktOf kLREAD 1 (canopyAddr 1 workAt) []
def writePkt : Packet := pktOf kLWRITE 1 (canopyAddr 1 workAt) (maskedLine 4 [9, 8])
def lostRead : Packet := pktOf kLREAD 1 (canopyAddr 1 0) []
def hotLine : State := { running1 with fab := { running1.fab with lineQ := [⟨writePkt⟩] } }
def readLine1 : State := { running1 with fab := { running1.fab with lineQ := [⟨readPkt⟩] } }

def entry1 (o : Owner) (kind : Nat) : Track :=
  { gd := 0, pkt := { pktOf kind 1 (canopyAddr 0 workAt) (if kind = kLREAD then [] else maskedLine 0 [1]) with srcRank := 1, dstRank := 0 }
    owner := o, port := none }

/-- The exchange of a core, with `n` answers out. -/
def exch1 (n : Nat) : EngCmd := { word := 0x50, desc := [], cnt := [], prog := .issued n }

/-- One packet waits for its answer. -/
def waiting1 (o : Owner) (kind n : Nat) : State :=
  { running1 with
      fab := { running1.fab with track := [entry1 o kind], puts := [(2, 5, 1, some 0)], unacked := [(2, 1), (hartKey 3, 1)] }
      ckpt := { running1.ckpt with drain := some { slot := 0, step := 0, unacked := 1 } }
      cores := [(2, { seq := .run, qXe := [exch1 n] })] }
def ackPkt : Packet := pktOf kACK 2 (2 ^ 32) []
def respPkt : Packet := pktOf kLRESP 2 (2 ^ 32) (zeros 128)
def nackPkt : Packet := pktOf kNACK 2 (2 ^ 32) []
def stalePkt2 : Packet := pktOf kNACK 2 (2 ^ 32 + 2 ^ 16) []
def keepPkt : Packet := pktOf kKEEP 2 (2 ^ 32) []

def nack1 (stale : Bool) (tries : Nat) : DieNack :=
  { transfer := { sender := .core 1, epoch := ⟨1, 1, 4⟩, repoch := 1, addr := 0, bytes := [1], flag := none, cnt := none, tries := tries }
    target := 0, stale := stale, cur := 0 }
def sending1 : EngCmd := { word := 0x41, desc := [], cnt := [], prog := .issued 1 }
def nacked (stale : Bool) (tries : Nat) : State :=
  { running1 with nacks := [nack1 stale tries], reissues := [nack1 stale tries], cores := [(1, { seq := .run, qDm := [sending1] })] }
def dueOne : State :=
  { (waiting1 (.tt 0) kSEND 1) with fab := { running1.fab with track := [{ entry1 (.tt 0) kSEND with due := true }] } }

def reqPkt : Packet := pktOf kTSYNC 3 1 (zeros 32)
def measure1 (n d : Nat) : RpMeasure :=
  { use := .monitor, next := n, waiting := [n], done := (List.range n).map (fun i => (i, ⟨0, d, d, 0, 0, 0⟩)) }
def measuringRp (n d : Nat) : State := { running1 with rp := { running1.rp with measure := some (measure1 n d) } }
def respOf (n : Nat) : Packet := pktOf kTSYNC 3 (2 + n * 2 ^ 8) (zeros 32)

def doneStep : State := { running1 with job := { running1.job with ranks := 2, image := none } }
def cleanPkt : Packet := { pktOf kGUY 3 1 [] with srcRank := 5 }
def failedPkt : Packet := { pktOf kGUY 3 2 [] with srcRank := 5 }
def otherJobPkt : Packet := { cleanPkt with job := 2 }
def oneMissing : State :=
  { running1 with guy := { ownEnd := some true, arrivals := [6, 7, 8].map (fun c => (⟨c, 1, 4, true, false⟩ : Arrival)) } }
def rootRunning : State := { running1 with job := { running1.job with rank := 0, ranks := 5 } }
def rootFailedPkt : Packet := { pktOf kGUY 3 2 [] with srcRank := 1, dstRank := 0 }
def abandonPkt : Packet := { pktOf kGUY 3 4 (zeros 16) with attempt := 2 }
def releasePkt : Packet := { pktOf kGUY 3 (3 + 0xFF * 2 ^ 8) (leBytes 8 200000) with step := 5 }
def arrivedClean : State := { running1 with guy := { sentClean := true } }
def held1 : Release := { step := 5, attempt := 1, t := 0, opp := 3, at_ := 0 }
def releasing : State :=
  { arrivedClean with guy := { sentClean := true, held := some held1, commit := .done false }, power := { next := some 3, volt := 3, freq := 3 } }
def firing : State := { running1 with tt := { waiting := [{ entry := 0, armed := true }] } }

/-! ## One core -/

/-- Core 0 of the running package. -/
def onCore (k : Core) : State := { running1 with cores := [(0, k)] }

/-- The sequencer of core 0 stands at a command word. -/
def seqAt (word : Nat) (rel : Nat := 0) (seq : SeqSt := .run) (flags : BitVec 1024 := 0) (vest : List Tile := []) : State :=
  onCore { seq := seq, bank0 := { st := .active, role := some 7, cmds := [word] }, cmp := Vector.replicate 4 { rel := rel }
           flags := flags, vest := vest }
def cmd1 (word : Nat) : EngCmd := { word := word, desc := [], cnt := [] }

/-- A command heads a queue of core 0. -/
def queued1 (e : Engine) (word : Nat) (latch : List (List Byte) := []) : State :=
  onCore (({ seq := .run, latch := latch } : Core).putQueue e [cmd1 word])

/-- A tile of zeros in FP32 form for the vector engine, and one for the data mover. -/
def tile1 : Tile := { toDm := false, form := .fp32, hi := List.replicate 64 (List.replicate 64 0), lo := [] }
def moverTile : Tile := { tile1 with toDm := true }
def pairTile : Tile := { moverTile with form := .pair, lo := moverTile.hi }

/-- Core 0 waits to swap to a role; the standby bank holds another one, or none. -/
def swapping (role : Nat) (standby : Option Nat) : State :=
  onCore { seq := .swapping role, bank0 := { st := .active, role := some 3 }
           bank1 := if standby.isSome then { st := .ready, role := standby } else {} }

/-! ## The matrix engine -/

def mulWord : Nat := 0x1120 + 2 ^ 21
def mulOn : Nat := 0x1120
def mulEmit : Nat := mulWord + 2 ^ 22
def mulGather : Nat := mulWord + 2 ^ 49
def mulTwo : Nat := mulWord + 2 ^ 32
def mulF64 : Nat := 0x20 + 2 ^ 21 + 2 ^ 19
def mulCmd (w : Nat) (p : Prog) : EngCmd := { word := w, desc := [], cnt := [], prog := p }
def multiplying (w : Nat) (p : Prog) (latch : List (List Byte)) (emits : List Emission) : State :=
  onCore { seq := .run, qMe := [mulCmd w p], latch := latch, emits := emits }

/-- A chain of one row opened on set 0. -/
def chain0 : Chain := { mode := .fp32, m := 1, k := 0, short := false, expA := 0, expW := 0, ea := [], fw := [] }
def openSet (w : Nat) : State :=
  onCore { seq := .run, qMe := [mulCmd w (.part 0)], latch := [[]], set0 := { chain := some chain0, acc := [zeroAccRow] } }

/-! ## The vector engine and the data mover -/

/-- A chain of one row without stages, from scratch or from the vestibule. -/
def chainCmd (vest : Bool) (p : Prog) : EngCmd := { word := 0x30, desc := [if vest then 2 ^ 12 else 0, 0, 0], cnt := [], prog := p }
/-- A chain whose one stage takes PAIR tiles only. -/
def padCmd : EngCmd := { word := 0x30, desc := [2 ^ 12 + 2 ^ 8, 0, 0, 0x33 * 2 ^ 58], cnt := [] }
def chaining (vest : Bool) (p : Prog) (tiles : List Tile) : State :=
  onCore { seq := .run, qVe := [chainCmd vest p], vest := tiles }

/-- A descriptor as four command words. -/
def descOf (w : Nat) : List Nat := [bits 127 0 w, bits 255 128 w, bits 383 256 w, bits 511 384 w]
/-- A transfer descriptor. -/
def xferWord (dir rows dRegion rb : Nat) : Nat := dir * 2 ^ 8 + rb * 2 ^ 16 + rows * 2 ^ 32 + 2 ^ 48 + 2 ^ 96 + dRegion * 2 ^ 104
def xferCmd (dir : Nat) : EngCmd := { word := 0x41, desc := descOf (xferWord dir 0 1 7), cnt := [] }
def moving (dir : Nat) : State := onCore { seq := .run, qDm := [xferCmd dir], vest := [moverTile] }

/-- The rows of one tile go to region 1. -/
def hostTileCmd : EngCmd := { word := 0x41, desc := descOf (xferWord 5 63 1 255), cnt := [] }
/-- The same package where region 1 is of kind HOST. -/
def image1 : Image := { image0 with regions := [regionState, { regionWork with kind := .host }, regionInput] }
def hosted : State := { (moving 1) with job := { running1.job with image := some image1 } }

/-- A transfer stands at the head of core 0's ingress buffer. -/
def arriver (f : Sender) (e : Nat) : Transfer :=
  { sender := f, epoch := ⟨1, 1, 4⟩, repoch := e, addr := 64, bytes := [1, 2, 3], flag := some 5, cnt := none }
def sent1 : EngCmd := { xferCmd 2 with prog := .issued 1 }
def arriving (f : Sender) (e : Nat) : State :=
  { running1 with cores := [(0, { seq := .run, ingress := [arriver f e] }), (1, { seq := .run, qDm := [sent1] })] }
def upset0 : Upset := { at_ := 0, again := false, site := .scratch }
theorem going_of_run {k : Core} (h : k.seq = .run) : k.going := by simp [Core.going, h]

/-! ## Conversions, exchanges and collectives -/

def convCmd (o : Nat) : EngCmd := { word := 0x43 + o * 2 ^ 8, desc := [], cnt := [] }
def ctx1 (o : Nat) : ConvCtx := { id := 0, item := ⟨0, o⟩ }
/-- The context when its rows have been delivered. -/
def sentCtx (o flagged : Nat) : ConvCtx := { ctx1 o with row := 1, flagged := flagged }
def converting (o : Nat) (ctxs : List ConvCtx) (vest : List Tile := []) : State :=
  { (onCore { seq := .run, qDm := [convCmd o], vest := vest }) with stations := [(0, { ctxs := ctxs })] }
def ringed (o : Nat) : State := { running1 with stations := [(0, { ring := [⟨0, o⟩] })] }
def narrow1 : ConvDesc := convDescOf (convs1.getD 0 0)
def widen1 : ConvDesc := convDescOf (convs1.getD 1 0)
def generate1 : ConvDesc := convDescOf (convs1.getD 2 0)

/-- An exchange of eight bytes with region 1 or core 3 of rank 2. -/
def exchCmd (op : Nat) : EngCmd :=
  { word := 0x50, desc := descOf (op * 2 ^ 8 + 2 * 2 ^ 11 + 3 * 2 ^ 20 + 2 ^ 64 + 7 * 2 ^ 232), cnt := [] }
def exchanging (op : Nat) : State := onCore { seq := .run, qXe := [exchCmd op] }

/-- A collective of `n` ranks from rank 0 on, one row of eight bytes. -/
def collCmd (op n : Nat) : EngCmd :=
  { word := 0x53, cnt := []
    desc := descOf (op * 2 ^ 8 + 2 ^ 19 + 2 ^ 30 + (n - 1) * 2 ^ 67 + 7 * 2 ^ 88 + 1024 * 2 ^ 174 + 64 * 2 ^ 220 + 4096 * 2 ^ 256) }
def collOf (q : EngCmd) : CollDesc := collDescOf (packNat 128 q.desc) (ixAdd (bits 31 24 q.word) q.cnt)
def collecting (op n rank : Nat) : State :=
  { (onCore { seq := .run, qXe := [collCmd op n] }) with job := { running1.job with rank := rank } }
/-- Member 0 of a REDUCE of two, with the row of the other landed. -/
def collRun1 : CollRun := { core := 0, d := collOf (collCmd 1 2), i := 0, comb := [0], arrived := [(0, 1)] }
def combining : State :=
  { (onCore { seq := .run, qXe := [{ collCmd 1 2 with prog := .issued 0 }] }) with
      job := { running1.job with rank := 0 }, coll := { runs := [collRun1] } }

/-! ## Harts -/

/-- The clocks of the cores, the harts and the host units are enabled. -/
def enabled (s : State) : State :=
  (((s.setDval 0x2010 1 (leBytes 32 (2 ^ 256 - 1))).setDval 0x2010 2 (leBytes 16 (2 ^ 128 - 1))).setDval 0x2010 3
    (leBytes 4 (2 ^ 26 - 1))).setDval 0x2010 5 (leBytes 4 (2 ^ 24 - 1))


/-- Where hart 0 has its data. -/
def dataAt : Nat := workAt + 256
def rvR (op f3 f7 rd rs1 rs2 : Nat) : Nat := f7 * 2 ^ 25 + rs2 * 2 ^ 20 + rs1 * 2 ^ 15 + f3 * 2 ^ 12 + rd * 2 ^ 7 + op
def rvAdd : Nat := rvR 0x33 0 0 3 1 1
def rvBeq : Nat := rvR 0x63 0 0 8 1 1
def rvJal : Nat := rvR 0x6F 0 0 1 0 8
def rvLd : Nat := rvR 0x03 3 0 3 1 0
def rvSd : Nat := rvR 0x23 3 0 0 1 4
def rvLr : Nat := rvR 0x2F 3 8 3 1 0
def rvSc : Nat := rvR 0x2F 3 12 3 1 4
def rvAmo : Nat := rvR 0x2F 3 0 3 1 4
def rvCanopyLd : Nat := rvR 0x03 3 0 3 2 0
def rvCanopySd : Nat := rvR 0x23 3 0 0 2 4
def rvFirst : Nat := rvR 0x2B 0 3 8 1 16
def rvCfence : Nat := 0x100B
def rvDoorbell : Nat := rvR 0x0B 0 0 0 10 11

/-- Hart 0 stands at an instruction at the start of region 1; x1 is its data, x2 a line of the canopy, x10 and x11 a
doorbell of the kind. -/
def hart1 (kind : Nat) : Hart :=
  { st := .running, pc := BitVec.ofNat 64 workAt
    x := (((Vector.replicate 32 0).set 1 (BitVec.ofNat 64 dataAt)).set 2 (BitVec.ofNat 64 (2 ^ 50 + canopyAddr 1 0))).set 10
      (BitVec.ofNat 64 (kind * 2 ^ 28)) |>.set 11 (if kind = 2 then 16 else 0)
    resv := some (dataAt, 8), csr := { mstatus := 0x200, vtype := 0, vl := 2 } }
def hartAt (word : Nat) (kind : Nat := 0) : State :=
  { (enabled running1) with mem := writeBytes [] workAt (leBytes 4 word), harts := [(0, hart1 kind)] }
/-- The lines of the load have come. -/
def hartAsked (word : Nat) : State :=
  { (hartAt word) with harts := [(0, { hart1 0 with sent := true, buf := [(canopyAddr 1 0, zeros 128)] })] }

/-- The kinds of plan. -/
inductive PlanTag where
  | load (kfx : Bool)
  | store
  | doorbell (kind : Nat)
  | cfence
  deriving DecidableEq, Repr
/-- Does hart 0 plan an access or a command of a kind: a load or store with lines of the canopy, or a first-fault load? -/
def planIs (g : PlanTag) (s : State) : Bool :=
  match s.plan 0, g with
  | .load k l _ r, .load k' => k == k' && r && (k || loadLines l != [])
  | .store l _ r, .store => r && storeLines l != []
  | .doorbell a _ n, .doorbell k => bits 31 28 a == k && decide (n.db.length < 8)
  | .cfence _, .cfence => true
  | _, _ => false
def ringing (k : DbKind) : State :=
  { (hartAt rvAdd) with harts := [(0, { hart1 0 with db := [⟨k, false⟩] }), (5, { st := .running })] }
/-- Hart 0 stands at an ECALL. -/
def trapping (mtvec : Nat) : State :=
  { (hartAt 0x73) with harts := [(0, { hart1 0 with csr := { mtvec := BitVec.ofNat 64 mtvec } })] }
/-- Hart 5 is off or halted, and hart 0 rings it. -/
def offHart (st : HartSt) : State :=
  { (enabled (at_ .ready)) with
      hp0 := { link := .up, inPerst := false }
      harts := [(0, { hart1 0 with db := [⟨.hart 5 16, false⟩] }), (5, { st := st })] }

/-! ## The linkage engine of die 0 -/

def sched1 : Schedule := scheduleOf schedBytes1
def solve1 (pc : Nat) : Solve :=
  { v := [5], pc := pc, iter := 0, saturatedFlag := false, sats := 0, clampedFlag := false, clamps := 0, warmRejected := false, norm := 0 }
def prob1 (x : Option Solve) (cnt : Option Nat) : LinkProb :=
  { core := 0, sched := 0, addr := workAt, cnt := cnt, repoch := 0, active := x }
def solving1 (op : Option Nat) (k : Nat) : State :=
  { running1 with links := [(0, { queue := [prob1 (op.map (fun _ => solve1 (k - 1))) none] })] }

/-! ## Pitches -/

/-- The record of job 1 for the package of `running1`: a START at step 4 in 21 ranks. -/
def record1 : List Byte :=
  leBytes 64 (2 ^ 32 + 2 ^ 48 + 21 * 2 ^ 64 + 4 * 2 ^ 128 + 2 ^ 256) ++ zeros 64
    ++ (List.range 512).flatMap (fun k => leBytes 2 ([3, 4].getD k 0xFFFF))
/-- A segment of the record. -/
def segment (off len : Nat) : Packet := pktOf kPITCH 3 (1 + off * 2 ^ 11) (slice record1 off len)
def pitchIdle (recv : List Byte) : State := { running1 with job := {}, pitch := { recv := recv } }
/-- A pitch of job 1; `done` have loaded and aligned. -/
def pitching1 (st : PitchSt) (done : List Nat) : State :=
  { running1 with pitch := { st := st, loaded := done, acked := done, ownLoaded := true } }
def pitchPkt (ty src : Nat) : Packet := { pktOf kPITCH 3 ty [] with srcRank := src }
def accepted5 : State := { running1 with pitch := { st := .accepted, accepted := [5], ownLoaded := true } }
def loading1 : State := { running1 with pitch := { st := .accepted } }
def quiesced1 (done : List Nat) : State := { running1 with pitch := { st := .quiesced, quiesced := done } }
def strikePkt : Packet := pktOf kSTRIKE 3 1 []
def resetting1 (a : AfterReset) : State := { running1 with pitch := { st := .accepted, resetting := some a } }

/-! ## Commit and checkpoint -/

def committing (a : Nat) (captured q : Bool) : State := { running1 with guy := { commit := .running a captured q } }
/-- The holder of the package's slots is a rank. -/
def drainedTo (rank : Nat) (s : State) : State := s.setDval 0xA010 3 (leBytes 2 rank)
def lastLine : Drain := { slot := 0, step := 4, next := 32 }
def recordLine : Drain := { lastLine with recordOut := true }
def draining1 : State := { (drainedTo 9 running1) with ckpt := { drain := some lastLine } }
def recorded1 : State := { (drainedTo 9 running1) with ckpt := { drain := some recordLine } }
/-- Rank 0 is the ward of the package. -/
def warding : State := running1.setDval 0xA010 4 [0, 0]
def wardRecord : Packet := { pktOf kLWRITE 1 (recordAddr 1) (maskedLine 0 (zeros 128)) with dstCore := 0x3FF }
def wardLine : Packet := { wardRecord with arg := 0x80022000 }
def strangerLine : Packet := { wardLine with srcRank := 3 }
/-- Rank 0 restores the package. -/
def restoring1 : State := { (drainedTo 0 running1) with ckpt := { restoring := true } }
def holderLine : Packet := wardLine
/-- The package relays out its step state; its children have all arrived again, or none has. -/
def relaying (all : Bool) : State :=
  { running1 with
      err := { st := 2, restoreStep := 3 }
      guy := { arrivals := if all then [5, 6, 7, 8].map (fun c => (⟨c, 1, 3, true, false⟩ : Arrival)) else [] } }

/-! ## Host ports -/

def port1 : HostPort := { inPerst := false, link := .up, bar2Enc := 12 }
def hostUp (p : Nat) : State := { (enabled (at_ .ready)) with hp0 := if p = 0 then port1 else {}, hp1 := if p = 1 then port1 else {}
                                                              hbm := { trained := true, wiped := true } }
def hostTraining (p : Nat) : State := (hostUp p).modHp p (fun h => { h with link := .training })
def farUp (p : Nat) : State := running1.modFar p (fun x => { x with link := 2 })
def fetching1 : State := { running1 with pitch := { st := .accepted }, hp0 := port1 }
def hostStarting : State := { (at_ .hostReady) with hp0 := port1 }
def msixPending : State := { (at_ .ready) with hp0 := { port1 with pba := [(0, true)], msix := writeN [] 12 4 1 } }
def hostBusy : State := { (hostUp 0) with hp0 := { port1 with busy := true } }
def hostSleeping : State := { (hostUp 0) with hp0 := { port1 with d3hot := true } }
def hostJob : State := { (enabled running1) with hp0 := port1, harts := [(0, { st := .running })] }
def hostGated : State := { (at_ .ready) with hp0 := port1 }
def hostWaiting : State := { (at_ .ready) with hp0 := port1 }
def lock1 : AreaLock := { area := 0x90, owner := .hp0, renewed := 0 }
def locked1 : State := { (at_ .ready) with dict := { locks := [lock1] }, rp := { now := 2 ^ 41 } }

/-! ## The dictionary -/

/-- A message: opcode, index and subindex, flags, offset, payload. -/
def msg (op idx sub : Nat) (body : List Byte) (flags : Nat := 0) (off : Nat := 0) : List Byte :=
  leBytes 16 (1 + op * 2 ^ 8 + 9 * 2 ^ 16 + idx * 2 ^ 32 + sub * 2 ^ 48 + flags * 2 ^ 56 + body.length * 2 ^ 64 + off * 2 ^ 96) ++ body
def fromMgmt (m : List Byte) : DictSrc := .frame 5 false m
def mgmtReq (m : List Byte) : DictReq := { path := .mgmt, mac := 5, msg := m }
def hostReq (m : List Byte) : DictReq := { path := .hp0, msg := m }
def entryAt (idx sub : Nat) : DictEntry := (dictEntry idx sub).getD ⟨.u8, .ro, .live, ⟨0, 0⟩, .no⟩

def tables1 : Tables := { own := 4, peg := [(0, 4), (1, 3)], route := [(0, 2 ^ 33), (1, 0x81)] }
/-- The package serves its dictionary, idle, in a life-cycle state. -/
def serving (life : LifeSt) : State := { (enabled (at_ .ready)) with sec := { life := life, activeSlot := some 0 } }
/-- It is rank 0 of a running job, or of a quiesced one. -/
def holding (life : LifeSt) : State :=
  { (enabled rootRunning) with sec := { life := life, activeSlot := some 0 } }
def quiet (life : LifeSt) : State := { (holding life) with pitch := { st := .quiesced } }
/-- It has routes, and a host's request waits. -/
def mailed (m : List Byte) : State :=
  { (serving .test) with fab := { tabs := tables1 }, dict := { (serving .test).dict with queue := [hostReq m] }, hp0 := port1 }
def ranked : State := { (serving .test) with fab := { tabs := tables1 } }
def pegless : State := serving .test
def tablesDrained : State := { (serving .test) with fab := { tabSt := .drained, shadow := tables1 } }
def repeating (m : List Byte) : State :=
  { (serving .test) with dict := { (serving .test).dict with kept := [{ mac := 5, tag := 9, time := 0, msg := m }] } }
def badReq : List Byte := msg 2 0x8030 0x77 [1]
def shortReq : List Byte := msg 2 0x8030 2 [1, 0]
def segReq : List Byte := msg 4 0x8030 2 [5]
def lastReq : List Byte := msg 4 0x8030 2 [3] 2
def readReq : List Byte := msg 1 0x8030 2 []
def blockReq : List Byte := msg 3 0x8030 2 []
def subReq : List Byte := msg 5 0x8030 2 [1]
def writeReq : List Byte := msg 2 0x8030 2 [3]
def stepReq : List Byte := msg 2 0x9030 3 (leBytes 8 9)
def ownReq : List Byte := msg 2 0x4100 1 [4, 0]
def adminReq : List Byte := msg 2 0x4300 1 [1]
def clockReq : List Byte := msg 2 0x2010 4 [255, 255, 255, 255]
def takeReq : List Byte := msg 2 0xE010 2 [0x90]
def dropReq : List Byte := msg 2 0xE010 3 [0x90]
def mapReq : List Byte := msg 2 0x4100 2 (leBytes 96 7)
def bankReq : List Byte := msg 2 0x5100 14 (zeros 16)
def resetReq : List Byte := msg 2 0x2210 1 [0x53, 0x52]
def freqReq : List Byte := msg 2 0x2020 3 [1]
def tablesReq (n : Nat) : List Byte := msg 2 0x4010 2 (leBytes 1 n)
def pitchReq (n : Nat) : List Byte := msg 2 0x9030 2 (leBytes 1 n)
/-- A pitch record of which this package is rank 0. -/
def record0 : List Byte :=
  leBytes 64 (0x48435450 + 2 ^ 32 + 2 ^ 48 + 2 * 2 ^ 64 + 2 ^ 256) ++ zeros 64
    ++ (List.range 512).flatMap (fun k => leBytes 2 ([4, 3].getD k 0xFFFF))
def recordReq : List Byte := msg 2 0x9030 1 record0
def relayReq : List Byte := msg 1 0xA010 9 (leBytes 2 1 ++ zeros 6 ++ holdingsRead) 8
def surveyReq : List Byte := msg 2 0xA010 10 (leBytes 16 (2 ^ 16))
def nonceReq : List Byte := msg 2 0x1020 2 (zeros 32)
def crowded (n : Nat) : State :=
  { (serving .test) with dict := { (serving .test).dict with queue := List.replicate n (mgmtReq readReq) } }
def relay1 : Relay := { id := 0, path := .mgmt, mac := 5, outer := relayReq, rank := 1 }
def relaying1 : State := { ranked with dict := { ranked.dict with relays := [relay1] } }
def survey1 : Survey := { mode := 0, ranks := 1, digest := zeros 8, asked := [1] }
/-- Rank 1 holds a copy of its step 7 in its own stage. -/
def survey2 : Survey :=
  { survey1 with answers := [(1, leBytes 8 0xFFFF ++ List.replicate 48 0xFF ++ leBytes 8 7 ++ leBytes 16 1 ++ List.replicate 24 0xFF)] }
def surveying : State :=
  { ranked with ckpt := { survey := some survey1 }, dict := { ranked.dict with relays := [{ relay1 with survey := true }] } }
def surveyed : State := { ranked with ckpt := { survey := some survey1 } }
def answerPkt : Packet := { pktOf kMGMT 3 (2 ^ 18 + 2 ^ 19) [1] with srcRank := 1, dstRank := 0 }
def innerPkt : Packet := { answerPkt with arg := 2 ^ 19 }
def quoting : State := { (serving .test) with sec := { (serving .test).sec with attState := 1 } }
def segmenting : State :=
  { (serving .test) with dict := { (serving .test).dict with xfers := [{ path := .mgmt, opcode := 4, key := dictKey 0x8030 2, bytes := [5] }] } }

/-! ## The recorder -/

def occurrence1 : Occurrence := ⟨0x0104, 0, 5, 6, 7, 8⟩
def recordingOne : State := { (at_ .ready) with recorder := { queue := [occurrence1] } }

/-! ## An image that loads -/

/-- An image of 320 bytes for two ranks with one role of one STEPEND, which no core enters. -/
def pitchImage : List Byte :=
  leBytes 256 0x50000000000000000000000000000000000000000000000000000000100000000000000000000000000000000000000000000000000000000000000000000000000000000000000000000000000000000000000000000003000000000000000d00000000000000005000000000000001000000000000000c00000000000000003000000000000001000000000000000b00000000000000002000000000000001000000000000000a00000000000000001000000000000000000000000000000000000000000000000000003e800000000000000000000000200000000000001400000000000000004000000014e595242
  ++ leBytes 64 0x15851e8e646e98b4f2ecf5e62f51f9ec1e16916838ea7147e025319f7581966656d0abae72cb01c27feb1ed7cd267f6a860080949087ce25dda29bc31974bf43
/-- The root of two ranks has accepted the record of that image. -/
def loading2 : State :=
  (({ rootRunning with job := { rootRunning.job with ranks := 2, kind := 1, image := none, placed := [], stepRunning := false }
                       hp0 := { inPerst := false }
                       pitch := { st := .accepted, record := zeros 64 ++ pitchImage.drop 256 } } : State).setDval 0x9030 6
    (zeros 16 ++ leBytes 8 320))
/-- Does the image pass, with nothing gated and no region of host or far kind? -/
def passes2 : Bool :=
  match checkImage pitchImage loading2.job.ranks (slice loading2.pitch.record 64 64) loading2.familyValue loading2.capacity with
  | .ok im => loading2.gatedEntry im loading2.job.rank (placeImage im loading2.capacity).2 == none && im.regions.isEmpty
      && (placeImage im loading2.capacity).2.isEmpty
  | .error _ => false

/-! ## Commands that name no unit of the package are refused by the check -/

theorem smoke_host_port : Instr.wellFormed (.perstAssert 2) = false ∧ Instr.wellFormed (.perstDeassert 2) = false
    ∧ Instr.wellFormed (.configRequest 2 (.read 0 4)) = false ∧ Instr.wellFormed (.mbxGo 2 16) = false
    ∧ Instr.wellFormed (.bar0RegisterWrite 2 0x20 [1]) = false ∧ Instr.wellFormed (.bar2Read 2 0 4 false) = false
    ∧ Instr.wellFormed (.bar2Write 2 0 [1]) = false ∧ Instr.wellFormed (.cswAccess 2 0 (.read 4)) = false := by
  decide

theorem smoke_host_doorbell : Instr.wellFormed (.hostDoorbell 2 0) = false ∧ Instr.wellFormed (.hostDoorbell 0 128) = false := by
  decide

theorem smoke_host_link : Instr.wellFormed (.hostLinkUp 2 64 16) = false ∧ Instr.wellFormed (.hostLinkUp 0 63 16) = false
    ∧ Instr.wellFormed (.hostLinkUp 0 64 3) = false := by
  decide

theorem smoke_far_port : Instr.wellFormed (.farLinkUp 2 64 1) = false ∧ Instr.wellFormed (.farLinkDown 2) = false := by
  decide

theorem smoke_die : Instr.wellFormed (.thermalHot 20) = false ∧ Instr.wellFormed (.thermalHoldTimer 20) = false := by
  decide

theorem smoke_telemetry : Instr.wellFormed (.telemetryUpdate [25] (List.replicate 32 25)) = false
    ∧ Instr.wellFormed (.telemetryUpdate (List.replicate 20 25) [25]) = false
    ∧ Instr.wellFormed (.eccSample [0]) = false := by
  decide

theorem smoke_lane : Instr.wellFormed (.stackTrainingDone [⟨1024, 0, 0⟩] 1) = false
    ∧ Instr.wellFormed (.stackTrainingDone [⟨0, 2, 0⟩] 1) = false ∧ Instr.wellFormed (.channelTrainTimeout 1024) = false := by
  decide

theorem smoke_die_link : Instr.wellFormed (.d2dFlitReceive 0 1 0 true) = false ∧ Instr.wellFormed (.d2dNak 0 20 0) = false := by
  decide

theorem smoke_fabric_port : Instr.wellFormed (.codewordReceive 24 0 .idle []) = false ∧ Instr.wellFormed (.linkAck 24 0) = false
    ∧ Instr.wellFormed (.linkNak 24 0) = false ∧ Instr.wellFormed (.linkCredit 24 0 1) = false ∧ Instr.wellFormed (.fecLock 24) = false
    ∧ Instr.wellFormed (.portTrainTimeout 24) = false ∧ Instr.wellFormed (.identityFrame 24 0 0 true 1) = false
    ∧ Instr.wellFormed (.identityTimeout 24) = false ∧ Instr.wellFormed (.retrainDelayExpiry 24) = false
    ∧ Instr.wellFormed (.lossOfSignal 24) = false := by
  decide

theorem smoke_lane_number : Instr.wellFormed (.linkCredit 0 8 1) = false
    ∧ Instr.wellFormed (.transitPacket 0 8 (pktOf kGUY 3 1 [])) = false ∧ Instr.wellFormed (.transitPacket 24 0 (pktOf kGUY 3 1 [])) = false := by
  decide

theorem smoke_core : ([.signal 256 .me, .wait 256, .waitComplete 256, .waitflag 256, .waitflagComplete 256, .repeat_ 256, .stepend 256,
    .swap 256, .swapExchange 256, .swapTimeout 256, .tset 256, .tadd 256, .tmov 256, .tcmp 256, .memul 256 none, .meTileVisible 256,
    .mescl 256, .meexp 256, .megath 256, .mescanr 256 none, .mescanc 256 none, .gatherTimeout 256, .vechain 256 none, .dmwload 256 none,
    .dmxfer 256 none, .dmlink 256, .dmconvNarrow (.submit 256), .xmovSend 256 none, .xmovPut 256 none, .xmovGet 256 none, .xfence 256,
    .xarm 256, .xcollAllgather 256 none, .xcollReduce 256 none, .xcollAllreduce 256 none, .xcollBcast 256 none, .collTimeout 256,
    .transferArrival 256, .loaderBankComplete 256 0] : List Instr).all (fun i => !i.wellFormed) = true := by
  decide

theorem smoke_station : ([.dmconvNarrow (.work 32 0 false), .dmconvWiden (.work 32 0 false), .dmconvGenerate (.work 32 0 false),
    .contextAllocate 32, .convDescriptorDone 32 0, .convTimeout 32 0] : List Instr).all (fun i => !i.wellFormed) = true := by
  decide

theorem smoke_hart : ([.hartFirstFaultLoad 128, .hartCanopyLoad 128, .hartCanopyStore 128, .kfxDbTcflag 128, .kfxDbHart 128,
    .kfxDbStepend 128, .doorbellEffect 128, .kfxCfence 128, .msiArrival 128 1, .hartTrap 128, .solverStepTimeout 128,
    .hartInstruction 128 none] : List Instr).all (fun i => !i.wellFormed) = true := by
  decide

theorem smoke_linkage_engine : ([.problemStart 8 false, .linkDot 8 false, .linkPivot 8 false, .linkNorm 8 false, .linkTimeout 8]
    : List Instr).all (fun i => !i.wellFormed) = true := by
  decide

/-! ## Worked examples of the spec, one step or one computation each -/

/-- Does a command answer a next state that meets a check? -/
def nextHas (r : Res) (p : State → Bool) : Bool :=
  match r with
  | .next t => p t
  | _ => false

/-- 02, example of section 2.2: an activation block with amax 3.2 in E4M3 has the scale byte 0x78 and the element 0x7D. -/
theorem test_mx_block : mxEncode 4 (((0x404CCCCD : Nat) :: List.replicate 31 0).map (fun x => (decode 1 x, Narrow.nearest)))
    = (0x78, 0x7D :: List.replicate 31 0) := by
  decide +kernel

/-- Table 2.6. -/
theorem test_narrow_nearest : narrow 4 .nearest (decode 1 0x3E99999A) = 0x2A ∧ narrow 4 .nearest (decode 1 0x43FA0000) = 0x7E
    ∧ narrow 5 .nearest (decode 1 0x43FA0000) = 0x60 ∧ narrow 5 .nearest (decode 1 0x4788B800) = 0x7C := by
  decide +kernel

/-- 02, stochastic narrowing of 0.3 to E4M3. -/
theorem test_narrow_stochastic : narrow 4 (.draw 0x123456) (decode 1 0x3E99999A) = 0x2A
    ∧ narrow 4 (.draw 0xC00000) (decode 1 0x3E99999A) = 0x29 := by
  decide +kernel

/-- Table 2.7. -/
def group27 : List (FNum × FNum) :=
  [(decode 4 0x7E, decode 4 0x7E), (decode 4 0x01, decode 4 0x01), (decode 4 0xB8, decode 4 0x01)]
  ++ List.replicate 13 (.zero false, .zero false)

/-- 02, one group of E4M3 products: the sum, the accumulator, the FP32 result and the pair of R52. -/
theorem test_dot_group : groupEmax group27 = some 17 ∧ groupSum 17 group27 = 1683627163680
    ∧ (dotFrom Acc.zero group27).m = 0xC3FFFFE010000000 ∧ (dotFrom Acc.zero group27).toFp32 = 0x4843FFFF
    ∧ pairOf 1 (dotFrom Acc.zero group27).value = (0x4843FFFF, 0x3C601000) := by
  decide +kernel

/-- 02, splitting one coefficient: 1 + 2^-10 + 2^-30 in a row of exponent 1. -/
theorem test_f64s_slices : f64sSplit (.fin (2 ^ 30 + 2 ^ 20 + 1) (-30)) 1 = [32, 4, 0, 0, 8, 0, 0, 0]
    ∧ f64sSplit (.fin (-(2 ^ 30 + 2 ^ 20 + 1)) (-30)) 1 = [-32, -4, 0, 0, -8, 0, 0, 0] := by
  decide +kernel

/-- Table 8.9: the draws of a zero key and counter. -/
theorem test_kgen : kgen (0, 0, 0, 0) (0, 0, 0, 0) = (0xE1F8C3F5, 0x8FE28EA2, 0x799C05EF, 0x273BE793)
    ∧ genDraw ⟨0, 0, 0⟩ 0 0 0 2 = 0x799C05EF := by
  decide +kernel

/-- 09, where two lines live: channel and line number, then pseudo-channel, line in row, bank and row. -/
theorem test_placement_local : placeLine [] true 0x10501234580 = some (271, 8653965) ∧ lineLocation 8653965 = (1, 6, 2, 16902) := by
  decide +kernel

/-- 09, the global line, with every channel good and with channel 300 mapped out. -/
theorem test_placement_global : placeLine [] false 0x484020080 = some (512, 150273)
    ∧ placeLine [300] false 0x484020080 = some (4, 150273) := by
  decide +kernel

/-- 14, why the tree fixes the bits: 1.0 + 2^-24 is 1.0, and the other order gives 0x3F800001. -/
theorem test_tree_sum : collCombine 1 0 0x3F800000 0x33800000 = 0x3F800000
    ∧ collCombine 1 0 0x3F800000 (collCombine 1 0 0x33800000 0x33800000) = 0x3F800001 := by
  decide +kernel

/-- Table 2.11. -/
theorem test_max_ignores_nan : collCombine 1 1 0x7FC00000 0x3F800000 = 0x3F800000 ∧ collCombine 1 1 0x80000000 0 = 0
    ∧ collCombine 1 2 0x7FC00000 0x7FC00000 = 0x7FC00000 := by
  decide +kernel

/-- Table 13.4: theta is 812.25 ns and d is 700 ns. -/
theorem test_ridgepole_offset : rpOffset (List.replicate 64 ⟨5000000 * 256, 5001692 * 256 + 192, 5001992 * 256 + 192, 5002040 * 256 + 192,
    180 * 256 + 128, 160 * 256 + 64⟩) = (207936, 179200) := by
  decide +kernel

/-- Table 6.18, position 2: the fields of a MEMUL word. -/
theorem test_memul_fields :
    mulOf { word := leNat [0x20, 0x44, 0x63, 0x7F, 7, 0xFC, 0, 0, 0, 0, 0x10, 4, 0, 0, 0, 0], desc := [], cnt := [] }
    = { fa := 4, fw := 4, sa := true, sw := true, mode := .fp32, set := 0, start := true, emit := true, toDm := false
        m := 128, t := 8, klast := 64, gather := false, aBase := 0x100000, aStride := 512 } := by
  decide +kernel

/-- Table 6.18, position 0: MESCL sets base 0x180000 and stride 16. -/
theorem test_mescl_word : nextHas (execMescl 0 (queued1 .me (leNat [0x21, 0, 0, 0, 0x18, 8, 0, 0])))
    (fun t => (t.core 0).mescl == some (0x180000, 16)) = true := by
  decide +kernel

/-- Table 6.18, position 4: TADD C4 += 1. -/
theorem test_tadd_word : nextHas (execTadd 0 (seqAt (leNat [0x11, 4, 0, 0, 1, 0, 0, 0])))
    (fun t => (t.core 0).ctr.toList == [0, 0, 0, 0, 1, 0, 0, 0]) = true := by
  decide +kernel

/-- 15, Table 15.5's tree: rank 37's parent is rank 9, whose parent is rank 2; 13: rank 17's parent is rank 4. -/
theorem test_tree_parents : parentOf 37 = 9 ∧ parentOf 9 = 2 ∧ parentOf 17 = 4 ∧ parentOf 4 = 0 := by
  decide

/-- 07: kfx.vluxei32ff.v v8, (a1), v16 is 0x0705E42B. -/
theorem test_first_fault_word : 0x2B + 8 * 2 ^ 7 + 6 * 2 ^ 12 + 11 * 2 ^ 15 + 16 * 2 ^ 20 + 2 ^ 25 + 2 ^ 26 = 0x0705E42B := by
  decide

/-- The frames that a state has sent. -/
def sentFrames (s : State) : List (List Byte) :=
  s.out.filterMap (fun o => match o with
    | .frame _ m => some m
    | _ => none)

/-- Rank 17 after step 5,000 has committed. -/
def committed5000 : State := { (serving .owned) with job := { committed := 5000 } }

/-- 20, reading the committed step. -/
theorem test_dict_read : nextHas
    (execDictRead (fromMgmt [1, 1, 0x42, 0, 0x10, 0x90, 3, 0, 0, 0, 0, 0, 0, 0, 0, 0]) committed5000)
    (fun t => sentFrames t == [[1, 1, 0x42, 0, 0x10, 0x90, 3, 1, 8, 0, 0, 0, 0, 0, 0, 0, 0x88, 0x13, 0, 0, 0, 0, 0, 0]]) = true := by
  decide +kernel

/-- 21, reading the family parameters in one request. -/
theorem test_dict_read_block : nextHas
    (execDictReadBlock (fromMgmt [1, 3, 7, 0, 0x10, 0x10, 0xFF, 0, 0, 0, 0, 0, 0, 0, 0, 0]) (serving .owned))
    (fun t => sentFrames t == [[1, 3, 7, 0, 0x10, 0x10, 0xFF, 3, 0x31, 0, 0, 0, 0, 0, 0, 0,
      0, 2, 1, 0, 8, 1, 2, 1, 0, 8, 2, 2, 1, 0, 0x20, 3, 4, 4, 0, 0, 0, 0x80, 0, 4, 2, 1, 0, 0x20, 5, 2, 1, 0, 0x18,
      6, 3, 2, 0, 0x80, 0, 7, 2, 1, 0, 8, 8, 2, 1, 0, 0x20]]) = true := by
  decide +kernel

/-- R410: a reset command with any other value than 0x5253 is refused with OUT OF RANGE and resets nothing. -/
theorem test_reset_command_value : nextHas (execResetCommand (fromMgmt (msg 2 0x2210 1 [0, 0])) (serving .owned))
    (fun t => (t.start.resetDue == none) && (sentFrames t).length == 1) = true := by
  decide +kernel

/-- R390: the edge count of CLKSET; power-on leaves the package counting. -/
theorem test_power_on : nextHas (execPwrgoodRise 5 2 State.reset) (fun t => t.start.phase == .edgeCount) = true := by
  decide +kernel

/-- R490: THERMTRIP drives its pin. -/
theorem test_thermtrip : nextHas (execThermtrip (at_ .ready)) (fun t => t.out.contains (.thermtrip true)) = true := by
  decide +kernel

/-- Table 1.2: TD0 has a link to SD0 and none to TD1. -/
theorem test_die_links : d2dExists 0 8 = true ∧ d2dExists 0 1 = false ∧ d2dExists 10 17 = true := by
  decide

/-- R265: a bad flit is NAKed by its number. -/
theorem test_d2d_nak : nextHas (execD2dFlitReceive 0 8 0 false (at_ .ready)) (fun t => t.out.contains (.d2dNak 0 8 0)) = true := by
  decide +kernel

/-- R270: the CRC of the bytes 31 to 39 (ASCII 1 to 9) is the check value of CRC-32C. -/
theorem test_crc32c : crc32c [0x31, 0x32, 0x33, 0x34, 0x35, 0x36, 0x37, 0x38, 0x39] = 0xE3069283 := by
  decide +kernel

/-- R72, R73: a WAITFLAG on a clear flag waits, on a set one goes on. -/
theorem test_waitflag : nextHas (execWaitflag 0 (seqAt 3)) (fun t => (t.core 0).seq == .waitFlag 0 false) = true
    ∧ nextHas (execWaitflag 0 (seqAt 3 (flags := 1))) (fun t => (t.core 0).seq == .run && (t.core 0).pos == 1) = true := by
  decide +kernel

/-- Table 3.7, the swap example: at epoch 1 an expected 0 is stale, an expected 1 is taken, an expected 2 is early. -/
theorem test_role_epochs : verdict 0 1 = .stale ∧ verdict 1 1 = .ok ∧ verdict 2 1 = .early := by
  decide

/-- R296: a write that finds an earlier one on its line waits in the line queue. -/
theorem test_line_queue : nextHas (execLwritePacket writePkt hotLine) (fun t => t.fab.lineQ.length == 2 && t.canopy.hotWrites == 1) = true := by
  decide +kernel

/-- The unprivileged add of a hart: x3 becomes x1 + x1 and the pc moves on by four (RISC-V, log entry 21). -/
theorem test_hart_add : nextHas (execHartInstruction 0 none (hartAt rvAdd))
    (fun t => (t.hart 0).x.toList.getD 3 0 == (hartAt rvAdd |>.hart 0).x.toList.getD 1 0 * 2
      && (t.hart 0).pc == (hartAt rvAdd |>.hart 0).pc + 4) = true := by
  decide +kernel

/-- What f1 holds after an OP-FP instruction on a hart whose f2 is given. -/
def f1After (word f2 : Nat) : Option Nat :=
  match Rv.opFp { f := (Vector.replicate 32 0).setIfInBounds 2 (BitVec.ofNat 64 f2) } {} word with
  | .done h => some (h.f.toList.getD 1 0).toNat
  | _ => none

/-- FCVT.S.D and FCVT.D.S of 1.5, each the other's value, the narrow one NaN-boxed (RISC-V, log entry 21). -/
theorem test_fcvt : f1After 0x401100D3 0x3FF8000000000000 = some 0xFFFFFFFF3FC00000
    ∧ f1After 0x420100D3 0xFFFFFFFF3FC00000 = some 0x3FF8000000000000 := by
  decide +kernel

/-- Is an answer the fault of a unit that does not exist? -/
def noUnit (r : Res) : Bool :=
  match r with
  | .fault .noSuchUnit => true
  | _ => false

/-- Core 256 does not exist: a fault. -/
theorem test_no_such_core : noUnit (execWait 256 State.reset) = true := by
  decide +kernel

/-- No word spells a command: the table gives no bits. -/
theorem test_no_words : decodeTableWord 8 0 = none ∧ State.reset.withFetchWord 8 0 = State.reset := by
  decide +kernel

/-- A step runs the command at the front and leaves the rest waiting. -/
theorem test_step_takes_the_front :
    nextHas (step { State.reset with pending := [.pwrgoodRise 5 2, .edgeCountDone] })
      (fun t => t.pending == [.edgeCountDone] && t.start.phase == .edgeCount) = true := by
  decide +kernel

/-- R347: an image that passes its checks is placed and the own load is complete. -/
theorem test_load : nextHas (execLoadComplete (some pitchImage) loading2)
    (fun t => t.pitch.ownLoaded && t.reject.isNone && (t.core 0).entry.isNone && (t.core 0).bank0.cmds == [5]) = true := by
  decide +kernel

/-! ## Witnesses: each names states and operands that meet the hypotheses of the obligation of its name -/

theorem witness_EmptyQueueLetsATickPass :
    State.reset.pending = [] ∧ State.reset.start.resetDue = none ∧ State.reset.clocked = false
    ∧ (at_ .ready).pending = [] ∧ (at_ .ready).start.resetDue = none ∧ (at_ .ready).clocked = true ∧ (at_ .ready).rp.slew = 0 := by
  decide +kernel

theorem witness_StartUpBeginsAndPllsLock :
    State.reset.start.phase = .off ∧ (at_ .edgeCount).start.phase = .edgeCount ∧ (at_ .pllLock).start.phase = .pllLock := by
  decide +kernel

theorem witness_StartUpStepsFiveToEightRun :
    (at_ .wipe).start.phase = .wipe ∧ (at_ .stackTrain).start.phase = .stackTrain ∧ (3 : Nat) < 1024
    ∧ [(⟨3, 1, 7⟩ : LaneFail)].all LaneFail.wellFormed = true ∧ (at_ .d2dTrain).start.phase = .d2dTrain
    ∧ (at_ .hostReady).start.phase = .hostReady := by
  decide +kernel
theorem witness_ResetAndPowerLossStopEverything :
    (at_ .ready).start.phase ≠ .off ∧ (at_ .ready).clocked = true := by
  decide +kernel
theorem witness_CapsMoveWithTemperatureAndPower :
    (at_ .ready).clocked = true ∧ ({ (at_ .ready).power with hot := true } : Power).hot = true ∧ 3 ≤ (at_ .ready).start.phase.stepNo
    ∧ (9 : Nat) < 10 ∧ (10 : Nat) ≤ 10 ∧ (10 : Nat) < 20
    ∧ (at_ .ready).powerLimit < 65535 ∧ 100 * 0 ≤ 95 * (at_ .ready).powerLimit ∧ (at_ .ready).power.lowRuns < 9
    ∧ 9 ≤ ({ (at_ .ready).power with lowRuns := 9 } : Power).lowRuns
    ∧ 95 * (at_ .ready).powerLimit < 100 * (at_ .ready).powerLimit := by
  decide +kernel
theorem witness_VoltageFrequencyAndTelemetryRun :
    (at_ .ready).clocked = true ∧ ({ (at_ .ready).power with rampTo := some 3 } : Power).rampTo = some 3
    ∧ (measuring).clocked = true ∧ measuring.power.counter.st = 1
    ∧ (measuring.clockGated measuring.power.counter.target = true ∨ measuring.countPossible 0 = true)
    ∧ (List.replicate 20 25).length = 20 ∧ (List.replicate 32 30).length = 32
    ∧ ({ (at_ .ready).hbm with trained := true } : Stacks).trained = true := by
  decide +kernel
theorem witness_RecorderWritesInOrder :
    3 ≤ (at_ .ready).start.phase.stepNo ∧ limitedCode 0x0103 = true
    ∧ (({ (at_ .ready) with recorder := { queue := [⟨0x0104, 0, 5, 6, 7, 8⟩] } } : State).recorder.queue
      = ⟨0x0104, 0, 5, 6, 7, 8⟩ :: []) := by
  decide +kernel
theorem witness_DieLinksKeepFlitsInOrder :
    (at_ .ready).clocked = true ∧ d2dExists 0 8 = true ∧ ((at_ .ready).d2d 0 8).failed = false
    ∧ ((at_ .ready).d2d 0 8).rxRun < (at_ .ready).dnat 0x4210 3 ∧ 5 ≠ ((at_ .ready).d2d 0 8).rxNext
    ∧ 0 < (at_ .ready).dnat 0x4210 3 ∧ ((at_ .ready).d2d 0 8).nakRun < (at_ .ready).dnat 0x4210 3
    ∧ (nakked.d2d 0 8).failed = false ∧ nakked.dnat 0x4210 3 ≤ (nakked.d2d 0 8).rxRun := by
  decide +kernel
theorem witness_PortsTrainAndComeUp :
    (port_ .training).clocked = true ∧ (0 : Nat) < 24 ∧ ((port_ .training).fport 0).st = .training
    ∧ ((port_ .idcheck).fport 0).st = .idcheck ∧ bits 20 0 ((port_ .idcheck).fport 0).trained = 0xFFFF + 0 * 65536
    ∧ bits 20 0 ((port_ .idcheck).fport 0).trained ≠ 7 + 3 * 65536
    ∧ ((port_ .down).fport 0).st = .down ∧ ((port_ .down).fport 0).retrain = true ∧ ((port_ .up).fport 0).st = .up := by
  decide +kernel
theorem witness_CodewordsAreTakenInOrder :
    (port_ .up).clocked = true ∧ (0 : Nat) < 24 ∧ ((port_ .up).fport 0).st = .up
    ∧ ((port_ .up).fport 0).rxCur = ((port_ .up).fport 0).rxNext % 4096 ∧ (0 : Nat) ≤ 15 ∧ (15 : Nat) < 16
    ∧ (∀ w ∈ [wireGood], w.crc = crc32c w.pkt.bytes) ∧ (∃ w ∈ [wireBad], w.crc ≠ crc32c w.pkt.bytes) := by
  decide +kernel
theorem witness_LinkWordsFreeResendAndGiveCredit :
    sending.clocked = true ∧ (0 : Nat) < 24 ∧ (sending.fport 0).st = .up
    ∧ running (sending.fport 0).acked (0 % 4096 + 1) ≤ (sending.fport 0).txFlit / 10
    ∧ running (sending.fport 0).acked (0 % 4096) < (sending.fport 0).txFlit / 10 ∧ 0 < sending.dnat 0x4210 2
    ∧ (sending.fport 0).nakRun < sending.dnat 0x4210 2
    ∧ (sending.fport 0).lanes = List.replicate 8 [] ∧ (sending.fport 0).txFlit % 10 = 0
    ∧ (nakkedPort.fport 0).st = .up ∧ running (nakkedPort.fport 0).acked 0 = (nakkedPort.fport 0).nakCw
    ∧ running (nakkedPort.fport 0).acked 0 < (nakkedPort.fport 0).txFlit / 10
    ∧ 0 < (nakkedPort.fport 0).nakRun ∧ nakkedPort.dnat 0x4210 2 ≤ (nakkedPort.fport 0).nakRun := by
  decide +kernel
theorem witness_TransitPacketsAreCheckedAndForwarded :
    (arrived badPkt).clocked = true ∧ (arrived badPkt).heldBack badPkt = false ∧ badPkt.wellFormed = false
    ∧ (arrived badPkt).fab.rx.findIdx? (fun e => e.port == 0 && e.lane == 6 && e.pkt == badPkt) = some 0
    ∧ ownPkt.wellFormed = true ∧ (arrived ownPkt).heldBack ownPkt = false
    ∧ (arrived ownPkt).fab.rx.findIdx? (fun e => e.port == 0 && e.lane == 6 && e.pkt == ownPkt) = some 0
    ∧ bitAt 33 (nget 0 (arrived ownPkt).fab.tabs.route ownPkt.dstRank) = true
    ∧ farPkt.wellFormed = true ∧ bitAt 33 (nget 0 (arrived farPkt).fab.tabs.route farPkt.dstRank) = false
    ∧ (arrived farPkt).fab.rx.findIdx? (fun e => e.port == 0 && e.lane == 6 && e.pkt == farPkt) = some 0
    ∧ farPkt.srcRank ≠ (arrived farPkt).myRank ∧ (arrived farPkt).job.held = false
    ∧ choosePort (arrived farPkt) (nget 0 (arrived farPkt).fab.tabs.route farPkt.dstRank)
        (packetKey (arrived farPkt) (residence farPkt 0) none) farPkt.tc = some (0, 1, false)
    ∧ ((arrived farPkt).fport 1).lanes.length = 8
    ∧ choosePort (arrived lostPkt) (nget 0 (arrived lostPkt).fab.tabs.route lostPkt.dstRank)
        (packetKey (arrived lostPkt) (residence lostPkt 0) none) lostPkt.tc = none
    ∧ draining.clocked = true ∧ draining.fab.tabSt = .draining ∧ draining.fabricEmpty = true := by
  decide +kernel
theorem witness_TransfersFromTheFabricLand :
    (∀ k ∈ [sendPkt, ttPkt, collPkt], NextInSpace k running1 ∧ verdict (bits 53 38 k.arg) (running1.core k.dstCore).roleEpoch.toNat = .ok
      ∧ bits 22 0 k.arg + k.payload.length ≤ 8388608) ∧ sendPkt.kind = kSEND ∧ ttPkt.kind = kTT ∧ collPkt.kind = kCOLL
    ∧ (∀ r ∈ running1.coll.runs, r.core ≠ collPkt.dstCore) := by
  unfold NextInSpace
  decide +kernel
theorem witness_TransfersOutOfTurnAreRefusedOrHeld :
    running1.clocked = true ∧ (∀ k ∈ [earlyPkt, stalePkt, aheadPkt, olderPkt, newerPkt], k.wellFormed = true ∧ k.dstRank = running1.myRank ∧ k.kind = kSEND)
    ∧ verdict (bits 53 38 earlyPkt.arg) (running1.core earlyPkt.dstCore).roleEpoch.toNat = .early ∧ NextInSpace earlyPkt running1
    ∧ verdict (bits 53 38 stalePkt.arg) (running1.core stalePkt.dstCore).roleEpoch.toNat = .stale ∧ NextInSpace stalePkt running1
    ∧ running1.checkPacket aheadPkt = .here ∧ running1.fab.reorder = []
    ∧ 0 < (aheadPkt.seq + 2 ^ 32 - (nget {} running1.fab.rxSpace (rxKey aheadPkt)).next % 2 ^ 32) % 2 ^ 32
    ∧ (aheadPkt.seq + 2 ^ 32 - (nget {} running1.fab.rxSpace (rxKey aheadPkt)).next % 2 ^ 32) % 2 ^ 32 < 2 ^ 31
    ∧ (({ running1 with fab := { running1.fab with rxSpace := [(rxKey sendPkt, { next := 1 })] } } : State)).isDuplicate sendPkt = true
    ∧ running1.checkPacket olderPkt = .older ∧ running1.checkPacket newerPkt = .newer := by
  unfold NextInSpace
  decide +kernel
theorem witness_TheHomeServesLines :
    NextInSpace readPkt running1 ∧ readPkt.kind = kLREAD ∧ running1.homeOk (bits 40 0 readPkt.arg) false = true ∧ running1.lineBusy readPkt = false
    ∧ NextInSpace writePkt running1 ∧ writePkt.kind = kLWRITE ∧ writePkt.dstCore ≠ 0x3FF ∧ running1.homeOk (bits 40 0 writePkt.arg) true = true
    ∧ running1.lineBusy writePkt = false ∧ NextInSpace writePkt hotLine ∧ hotLine.homeOk (bits 40 0 writePkt.arg) true = true
    ∧ hotLine.lineBusy writePkt = true ∧ NextInSpace lostRead running1 ∧ lostRead.kind = kLREAD
    ∧ running1.homeOk (bits 40 0 lostRead.arg) false = false
    ∧ hotLine.clocked = true ∧ readLine1.clocked = true ∧ readLine1.fab.lineQ = [⟨readPkt⟩] ∧ hotLine.fab.lineQ = [⟨writePkt⟩] ∧ writePkt.payload.length = 144 ∧ nget 0 hotLine.fab.lineLast (lineOf writePkt) = 0 := by
  unfold NextInSpace
  decide +kernel
theorem witness_AnswersFreeTheirEntry :
    ackPkt.wellFormed = true ∧ respPkt.wellFormed = true ∧ ackPkt.kind = kACK ∧ respPkt.kind = kLRESP
    ∧ (∀ o ∈ [Owner.none, .hartStore 3, .drain, .put 2 5, .xe 2], ackPkt.dstRank = (waiting1 o kLWRITE 1).myRank
        ∧ (waiting1 o kLWRITE 1).clocked = true ∧ (waiting1 o kLWRITE 1).checkEpoch ⟨ackPkt.job, ackPkt.attempt, ackPkt.step⟩ = .here
        ∧ (waiting1 o kLWRITE 1).fab.track.find? (answers ackPkt) = some (entry1 o kLWRITE))
    ∧ (waiting1 .drain kLWRITE 1).ckpt.drain = some { slot := 0, step := 0, unacked := 1 }
    ∧ (waiting1 (.put 2 5) kLWRITE 1).fab.puts.find? (fun p => p.1 == 2 && p.2.1 == 5) = some (2, 5, 1, some 0)
    ∧ ((waiting1 (.xe 2) kLWRITE 1).core 2).seq = .run ∧ ((waiting1 (.xe 2) kLWRITE 1).core 2).qXe = [exch1 1]
    ∧ (exch1 1).op = 0x50 ∧ ((waiting1 (.xe 2) kLWRITE 1).exchOf (exch1 1)).op ≠ 2
    ∧ (∀ o ∈ [Owner.hartLoad 3, .xe 2], respPkt.dstRank = (waiting1 o kLREAD 2).myRank
        ∧ (waiting1 o kLREAD 2).fab.track.find? (answers respPkt) = some (entry1 o kLREAD))
    ∧ ((waiting1 (.xe 2) kLREAD 2).core 2).qXe = [exch1 2] ∧ (1 : Nat) < 2
    ∧ running1.fab.track.find? (answers ackPkt) = none ∧ running1.fab.track.find? (answers respPkt) = none := by
  decide +kernel
theorem witness_RoleNacksAreReissuedOrRetired :
    (nacked false 0).clocked = true ∧ (nacked false 0).nacks.findIdx? (fun n => n.stale == false) = some 0
    ∧ (nacked false 0).nacks[0]? = some (nack1 false 0) ∧ (nack1 false 0).transfer.tries < (nacked false 0).dnat 0x5010 2
    ∧ StepMayFail (nacked false 65535) ∧ (nacked false 65535).nacks.findIdx? (fun n => n.stale == false) = some 0
    ∧ (nacked false 65535).dnat 0x5010 2 ≤ (nack1 false 65535).transfer.tries
    ∧ nackPkt.kind = kNACK ∧ nackPkt.wellFormed = true ∧ bitAt 16 nackPkt.arg = false ∧ bitAt 16 stalePkt2.arg = true
    ∧ stalePkt2.kind = kNACK ∧ stalePkt2.wellFormed = true
    ∧ (waiting1 (.tt 0) kSEND 1).fab.track.find? (answers nackPkt) = some (entry1 (.tt 0) kSEND)
    ∧ (waiting1 (.tt 0) kSEND 1).fab.track.find? (answers stalePkt2) = some (entry1 (.tt 0) kSEND)
    ∧ nackPkt.dstRank = (waiting1 (.tt 0) kSEND 1).myRank
    ∧ (waiting1 (.tt 0) kSEND 1).checkEpoch ⟨nackPkt.job, nackPkt.attempt, nackPkt.step⟩ = .here
    ∧ (entry1 (.tt 0) kSEND).early < (waiting1 (.tt 0) kSEND 1).dnat 0x5010 2
    ∧ (nacked true 0).nacks.findIdx? (fun n => n.stale == true) = some 0 ∧ (nack1 true 0).transfer.sender = .core 1
    ∧ ((nacked true 0).core 1).seq = .run ∧ ((nacked true 0).core 1).qDm = [sending1]
    ∧ sending1.prog = .issued 1 ∧ sending1.todo = 0
    ∧ ({ nack1 true 0 with transfer := { (nack1 true 0).transfer with sender := .none } } : DieNack).transfer.sender = .none
    ∧ (nacked false 0).reissues = [nack1 false 0] ∧ ((nacked false 0).core (nack1 false 0).target).ingress.length < 32
    ∧ (dueOne).fab.track[0]? = some { entry1 (.tt 0) kSEND with due := true } := by
  unfold StepMayFail
  decide +kernel
theorem witness_UnansweredPacketsAreKeptAliveReissuedOrReported :
    running1.clocked = true ∧ keepPkt.kind = kKEEP ∧ keepPkt.wellFormed = true ∧ keepPkt.dstRank = running1.myRank
    ∧ running1.checkEpoch ⟨keepPkt.job, keepPkt.attempt, keepPkt.step⟩ = .here
    ∧ ({ running1.fab with unanswered := [readPkt] } : Fabric).unanswered[0]? = some readPkt
    ∧ (waiting1 .none kLWRITE 1).fab.track[0]? = some (entry1 .none kLWRITE)
    ∧ (waiting1 .none kLWRITE 1).keptAlive (entry1 .none kLWRITE) = false
    ∧ (entry1 .none kLWRITE).gd < (waiting1 .none kLWRITE 1).fab.trackStats.length
    ∧ MayBeStruck (waiting1 .none kLWRITE 1)
    ∧ 0 < ((waiting1 .none kLWRITE 1).fab.track.filter (fun x => x.pkt.dstRank == (entry1 .none kLWRITE).pkt.dstRank)).length := by
  unfold MayBeStruck
  decide +kernel
theorem witness_RidgepoleIsMeasuredAndCorrected :
    running1.clocked = true ∧ running1.isMine reqPkt kTSYNC = true ∧ bits 7 0 reqPkt.arg = 1 ∧ running1.pitch.st = .running
    ∧ running1.job.rank ≠ 0 ∧ running1.rp.st = .locked ∧ running1.rp.measure = none ∧ MayBeStruck running1
    ∧ (∀ n ∈ [0, 63], (measuringRp n 0).rp.measure = some (measure1 n 0) ∧ (measure1 n 0).next < 64 ∧ (measure1 n 0).waiting = [n]
      ∧ (measure1 n 0).use = .monitor ∧ (measure1 n 0).done.length = n ∧ (measuringRp n 0).isMine (respOf n) kTSYNC = true
      ∧ bits 7 0 (respOf n).arg = 2 ∧ (respOf n).srcRank = parentOf (measuringRp n 0).job.rank ∧ bits 15 8 (respOf n).arg ∈ (measure1 n 0).waiting)
    ∧ (measure1 0 0).missed + 1 < 64 ∧ 64 ≤ ({ measure1 0 0 with missed := 63 } : RpMeasure).missed + 1
    ∧ (rpOffset ((measure1 63 0).done.map Prod.snd ++ [⟨0, 0, 0, 0, 0, 0⟩])).1.natAbs ≤ 64
    ∧ 64 < (rpOffset ((measure1 63 100).done.map Prod.snd ++ [⟨0, 0, 0, 0, 0, 0⟩])).1.natAbs
    ∧ (rpOffset ((measure1 63 100).done.map Prod.snd ++ [⟨0, 0, 0, 0, 0, 0⟩])).1.natAbs ≤ 256
    ∧ 256 < (rpOffset ((measure1 63 300).done.map Prod.snd ++ [⟨0, 0, 0, 0, 0, 0⟩])).1.natAbs
    ∧ (rpOffset ((measure1 63 300).done.map Prod.snd ++ [⟨0, 0, 0, 0, 0, 0⟩])).1.natAbs ≤ 768
    ∧ 768 < (rpOffset ((measure1 63 900).done.map Prod.snd ++ [⟨0, 0, 0, 0, 0, 0⟩])).1.natAbs := by
  unfold MayBeStruck
  decide +kernel
theorem witness_GuylineGathersArrivals :
    running1.clocked = true ∧ running1.pitch.st = .running ∧ running1.job.held = true ∧ running1.job.rank ≠ 0
    ∧ running1.job.stepRunning = true ∧ running1.guy.restored = false ∧ running1.decidedStep = false
    ∧ running1.guy.sentClean = false ∧ running1.guy.sentFailed = false ∧ running1.tagged running1.job.attempt running1.job.step = []
    ∧ running1.guy.ownEnd = none ∧ doneStep.stepDone = true ∧ running1.err.stepFailed = false
    ∧ doneStep.guy.ownEnd = none ∧ doneStep.err.stepFailed = false ∧ doneStep.children = [] ∧ 5 ∈ running1.children
    ∧ (∀ a ∈ running1.tagged running1.job.attempt running1.job.step, a.child ≠ 5)
    ∧ ({ running1.err with stepFailed := true } : ErrSt).stepFailed = true
    ∧ (∀ k ∈ [cleanPkt, failedPkt], running1.isMine k kGUY = true ∧ k.job = running1.job.id ∧ k.srcRank ∈ running1.children
      ∧ k.attempt = running1.job.attempt ∧ k.step = running1.job.step)
    ∧ bits 7 0 cleanPkt.arg = 1 ∧ bits 7 0 failedPkt.arg = 2
    ∧ (∀ c ∈ running1.children, c = cleanPkt.srcRank ∨ ∃ a ∈ (oneMissing).tagged running1.job.attempt running1.job.step, a.child = c)
    ∧ oneMissing.guy.ownEnd = some true ∧ oneMissing.children = running1.children
    ∧ running1.isMine otherJobPkt kGUY = true ∧ otherJobPkt.job ≠ running1.job.id ∧ bits 7 0 otherJobPkt.arg = 1 := by
  decide +kernel
theorem witness_TheRootReplaysOrStrikes :
    rootRunning.clocked = true ∧ rootRunning.job.held = true ∧ rootRunning.isMine rootFailedPkt kGUY = true
    ∧ bits 7 0 rootFailedPkt.arg = 2 ∧ rootFailedPkt.job = rootRunning.job.id ∧ rootFailedPkt.srcRank ∈ rootRunning.children
    ∧ rootFailedPkt.attempt = rootRunning.job.attempt ∧ rootFailedPkt.step = rootRunning.job.step ∧ rootRunning.job.rank = 0
    ∧ rootRunning.job.stepRunning = true ∧ rootRunning.guy.restored = false ∧ rootRunning.guy.sentFailed = false
    ∧ rootRunning.decidedStep = false ∧ rootRunning.err.replayTo = none ∧ rootRunning.job.attempt < 255
    ∧ rootRunning.ckpt.flyStep ≠ 0xFFFFFFFFFFFFFFFF ∧ rootRunning.dnat 0x9810 1 = 1 ∧ (rootRunning.setDval 0x9810 1 [0]).dnat 0x9810 1 ≠ 1
    ∧ MayBeStruck (rootRunning.setDval 0x9810 1 [0])
    ∧ running1.isMine abandonPkt kGUY = true ∧ bits 7 0 abandonPkt.arg = 4 ∧ abandonPkt.job = running1.job.id
    ∧ abandonPkt.srcRank = parentOf running1.job.rank ∧ running1.job.rank ≠ 0 ∧ running1.job.attempt < abandonPkt.attempt
    ∧ ({ abandonPkt with attempt := 0 } : Packet).attempt ≤ running1.job.attempt
    ∧ oneMissing.guy.ownEnd ≠ none ∧ 5 ∈ oneMissing.children ∧ oneMissing.decidedStep = false ∧ MayBeStruck oneMissing
    ∧ (∀ a ∈ oneMissing.tagged oneMissing.job.attempt oneMissing.job.step, a.child ≠ 5) ∧ oneMissing.job.stepRunning = true := by
  unfold MayBeStruck
  decide +kernel
theorem witness_AReleaseIsHeldAndStartsItsStep :
    running1.isMine releasePkt kGUY = true ∧ bits 7 0 releasePkt.arg = 3 ∧ releasePkt.job = running1.job.id
    ∧ releasePkt.srcRank = parentOf running1.job.rank ∧ releasePkt.attempt = running1.job.attempt ∧ releasePkt.step = running1.job.step + 1
    ∧ arrivedClean.clocked = true ∧ arrivedClean.isMine releasePkt kGUY = true ∧ arrivedClean.guy.sentClean = true ∧ arrivedClean.guy.held = none
    ∧ arrivedClean.job = running1.job ∧ running1.job.held = true ∧ running1.job.stepRunning = true ∧ arrivedClean.pitch.st = .running
    ∧ ({ releasePkt with attempt := 9 } : Packet).attempt ≠ running1.job.attempt
    ∧ releasing.clocked = true ∧ releasing.power.next = some 3 ∧ releasing.guy.held = some held1 ∧ releasing.guy.commit = .done false
    ∧ 256 * held1.t ≤ releasing.now + 512000 ∧ releasing.power.volt ≤ max 3 (max releasing.power.thermalCap releasing.power.powerCap)
    ∧ 256 * held1.at_ ≤ releasing.now ∧ ({ releasing.power with next := none } : Power).next = none ∧ releasing.dict.pend = []
    ∧ releasing.fab.reorder = []
    ∧ firing.clocked = true ∧ firing.tt.waiting.find? (fun w => w.entry == 0) = some { entry := 0, armed := true }
    ∧ firing.ttEntry 0 = some tt1 ∧ firing.ttDue { entry := 0, armed := true } = true ∧ firing.ttBefore 0 tt1 = false := by
  decide +kernel
theorem witness_WaitsHoldUntilTheyAreTrue :
    (seqAt 0x02).clocked = true ∧ (0 : Nat) < 256 ∧ (seqAt 0x02).gangOf 0 = [0] ∧ ((seqAt 0x02).core 0).at? 0x02 = some 0x02
    ∧ ((seqAt 0x02).core 0).compare (bits 9 8 0x02) = true
    ∧ ((seqAt 0x02 (rel := 1)).core 0).at? 0x02 = some 0x02 ∧ waitDone ((seqAt 0x02 (rel := 1)).core 0) = none
    ∧ ((seqAt 0x02 (seq := .waiting 0)).core 0).seq = .waiting 0 ∧ ((seqAt 0x02 (seq := .waiting 0)).core 0).compare 0 = true
    ∧ ((seqAt 0x40003 (flags := 1)).core 0).flags.getLsbD 0 = true ∧ ((seqAt 0x40003 (flags := 1)).core 0).at? 0x03 = some 0x40003
    ∧ bits 17 8 0x40003 = 0 ∧ bitAt 18 0x40003 = true ∧ ((seqAt 0x40003 (flags := 1)).core 0).isAt 0x03 = true
    ∧ ((seqAt 0x40003 (flags := 1) (seq := .waitFlag 0 true)).core 0).seq = .waitFlag 0 true
    ∧ ((seqAt 0x40003).core 0).at? 0x03 = some 0x40003 ∧ ((seqAt 0x40003).core 0).flags.getLsbD (bits 17 8 0x40003) = false := by
  decide +kernel
theorem witness_TheTallyUnitCounts :
    (∀ op ∈ [0x10, 0x11, 0x12, 0x13, 0x04], (seqAt op).clocked = true ∧ (seqAt op).gangOf 0 = [0] ∧ ((seqAt op).core 0).at? op = some op)
    ∧ (0 : Nat) < 256 ∧ (queued1 .ve 0x500000001).clocked = true ∧ ((queued1 .ve 0x500000001).core 0).seq = .run
    ∧ ((queued1 .ve 0x500000001).core 0).queue .ve = [cmd1 0x500000001] ∧ (cmd1 0x500000001).word = 0x500000001
    ∧ bits 7 0 0x500000001 = 0x01
    ∧ ((seqAt 0x300000004).core 0).at? 0x04 = some 0x300000004 ∧ nget 0 ((seqAt 0x300000004).core 0).reps 0 = 0 ∧ 1 < bits 47 32 0x300000004
    ∧ ((seqAt 0x100000004).core 0).at? 0x04 = some 0x100000004 ∧ bits 47 32 0x100000004 ≤ 1
    ∧ 1 < nget 0 ([(0, 2)] : NMap Nat) 0 ∧ nget 0 ([(0, 1)] : NMap Nat) 0 = 1 := by
  decide +kernel
theorem witness_RolesEndAndSwap :
    (seqAt 0x05).clocked = true ∧ (0 : Nat) < 256 ∧ (seqAt 0x05).gangOf 0 = [0] ∧ ((seqAt 0x05).core 0).isAt 0x05 = true
    ∧ ((seqAt 0x05).core 0).drained ∧ ((seqAt 0x06).core 0).at? 0x06 = some 0x06 ∧ ((seqAt 0x06).core 0).drained
    ∧ (seqAt 0x05 (vest := [tile1])).gangOf 0 = [0] ∧ ((seqAt 0x05 (vest := [tile1])).core 0).isAt 0x05 = true
    ∧ ((seqAt 0x05 (vest := [tile1])).core 0).queuesEmpty = true ∧ ((seqAt 0x05 (vest := [tile1])).core 0).vest ≠ []
    ∧ StepMayFail (seqAt 0x05 (vest := [tile1]))
    ∧ (swapping 7 (some 7)).clocked = true ∧ ((swapping 7 (some 7)).core 0).swapReady = some 7 ∧ ((swapping 7 (some 7)).core 0).standby.st = .ready
    ∧ ((swapping 7 (some 7)).core 0).standby.role = some 7 ∧ (swapping 7 (some 8)).gangOf 0 = [0]
    ∧ ((swapping 7 (some 8)).core 0).swapReady = some 7 ∧ ((swapping 7 (some 8)).core 0).standby.role ≠ some 7 ∧ StepMayFail (swapping 7 (some 8))
    ∧ ((swapping 7 none).core 0).swapReady = some 7 ∧ ((swapping 7 none).core 0).standby.st ≠ .ready ∧ StepMayFail (swapping 7 none) := by
  unfold StepMayFail Core.drained
  decide +kernel
theorem witness_TheMatrixEngineMultiplies :
    (∀ w ∈ [mulWord, mulOn, mulEmit, mulGather], (multiplying w .fresh [] []).clocked = true ∧ ((multiplying w .fresh [] []).core 0).seq = .run
      ∧ ((multiplying w .fresh [] []).core 0).qMe = [mulCmd w .fresh] ∧ (mulCmd w .fresh).op = 0x20 ∧ (mulCmd w .fresh).retries = 0)
    ∧ (0 : Nat) < 256 ∧ (mulCmd mulWord .fresh).prog = .fresh ∧ (mulOf (mulCmd mulWord .fresh)).start = true
    ∧ ((multiplying mulWord .fresh [] []).core 0).emits = [] ∧ ((multiplying mulWord .fresh [] []).core 0).latch = []
    ∧ (mulOf (mulCmd mulOn .fresh)).start = false ∧ (((multiplying mulOn .fresh [] []).core 0).set 0).chain = none
    ∧ StepMayFail (multiplying mulOn .fresh [] [])
    ∧ (mulOf (mulCmd mulWord (.part 0))).t = 1 ∧ (mulOf (mulCmd mulWord (.part 0))).emit = false ∧ (mulOf (mulCmd mulEmit (.part 0))).emit = true
    ∧ (mulOf (mulCmd mulTwo (.part 0))).t = 2 ∧ (mulOf (mulCmd mulF64 (.part 0))).mode = .f64s
    ∧ ((multiplying mulWord (.part 0) [[]] []).core 0).latch = [[]] ∧ pieceReady ((multiplying mulWord (.part 0) [[]] []).core 0) (mulOf (mulCmd mulWord (.part 0))) 0 = true
    ∧ ((openSet mulWord).core 0).latch = [[]] ∧ (((openSet mulWord).core 0).set 0).chain = some chain0
    ∧ (mulOf (mulCmd mulWord .fresh)).set = 0
    ∧ ((multiplying mulEmit .emitting [] [⟨0, [tile1]⟩]).core 0).emits = [⟨0, [tile1]⟩]
    ∧ vestUsed ((multiplying mulEmit .emitting [] [⟨0, [tile1]⟩]).core 0).vest + tile1.form.slots ≤ 8
    ∧ (mulOf (mulCmd mulGather (.part 0))).gather = true ∧ 0 < (mulOf (mulCmd mulGather (.part 0))).t
    ∧ pieceReady ((multiplying mulGather (.part 0) [[]] []).core 0) (mulOf (mulCmd mulGather (.part 0))) 0 = false := by
  unfold StepMayFail
  decide +kernel
theorem witness_MatrixRegistersAndScans :
    (∀ op ∈ [0x21, 0x22, 0x23, 0x24, 0x25], (queued1 .me op).clocked = true ∧ ((queued1 .me op).core 0).seq = .run
      ∧ ((queued1 .me op).core 0).qMe = [cmd1 op] ∧ (cmd1 op).prog ≠ .stopped ∧ (cmd1 op).op = op)
    ∧ (0 : Nat) < 256 ∧ (cmd1 0x25).prog = .fresh ∧ bits 17 8 0x25 = 0 ∧ bits 17 8 0x125 = 1
    ∧ ((queued1 .me 0x25 [[]]).core 0).latch = [[]] ∧ ((queued1 .me 0x125 [[]]).core 0).latch = [[]] ∧ (cmd1 0x125).op = 0x25 := by
  decide +kernel
theorem witness_VectorChainsWriteTheirRows :
    (∀ v ∈ [false, true], (chaining v .fresh []).clocked = true ∧ ((chaining v .fresh []).core 0).seq = .run
      ∧ ((chaining v .fresh []).core 0).qVe = [chainCmd v .fresh] ∧ (chainCmd v .fresh).op = 0x30 ∧ (chainCmd v .fresh).retries = 0)
    ∧ (0 : Nat) < 256 ∧ (veChainOf (chainCmd false .fresh)).vest = false ∧ (veChainOf (chainCmd true .fresh)).vest = true
    ∧ (veChainOf (chainCmd false .fresh)).stages.length ≤ 1 ∧ (veChainOf (chainCmd true (.part 0))).count = 1
    ∧ ((chaining true (.part 0) [tile1]).core 0).vest = [tile1] ∧ tile1.toDm = false
    ∧ tileFits (veChainOf (chainCmd true (.part 0))) tile1.form = true ∧ ((chaining true (.part 0) []).core 0).vest = []
    ∧ (veChainOf (padCmd)).vest = true ∧ tileFits (veChainOf padCmd) tile1.form = false ∧ StepMayFail (chaining true .fresh [tile1]) := by
  unfold StepMayFail
  decide +kernel
theorem witness_TheDataMoverMovesRows :
    (queued1 .dm 0x2040).clocked = true ∧ (0 : Nat) < 256 ∧ ((queued1 .dm 0x2040).core 0).seq = .run ∧ ((queued1 .dm 0x2040).core 0).qDm = [cmd1 0x2040]
    ∧ (cmd1 0x2040).op = 0x40 ∧ (cmd1 0x2040).prog = .fresh ∧ (cmd1 0x2040).retries = 0 ∧ (cmd1 0x2040).done < bits 23 14 0x2040 + 1
    ∧ ((queued1 .dm 0x2040).core 0).latch.length ≤ 2
    ∧ (∀ d ∈ [0, 1, 3, 4, 5, 6], (moving d).clocked = true ∧ ((moving d).core 0).seq = .run ∧ ((moving d).core 0).qDm = [xferCmd d]
      ∧ (xferCmd d).op = 0x41 ∧ (xferCmd d).prog = .fresh ∧ (xferCmd d).retries = 0 ∧ (xferOf (xferCmd d)).dir = d
      ∧ (moving d).isHost (xferOf (xferCmd d)).dRegion = false ∧ (xferCmd d).done < (xferOf (xferCmd d)).rows
      ∧ ((moving d).core 0).vest = [moverTile])
    ∧ moverTile.toDm = true ∧ hosted.isHost (xferOf (xferCmd 1)).dRegion = true
    ∧ hosted.isHost (xferOf hostTileCmd).dRegion = true ∧ (xferOf hostTileCmd).rows = (tileRows moverTile).length := by
  decide +kernel
theorem witness_TransfersOnADieArrive :
    (moving 2).clocked = true ∧ (0 : Nat) < 256 ∧ ((moving 2).core 0).qDm = [xferCmd 2] ∧ (xferCmd 2).op = 0x41 ∧ (xferCmd 2).prog = .fresh
    ∧ (xferOf (xferCmd 2)).dir = 2 ∧ ((moving 2).core ((xferOf (xferCmd 2)).target 0)).ingress.length + (xferOf (xferCmd 2)).rows ≤ 32
    ∧ (∀ e ∈ [0, 1, 65535], (arriving .none e).clocked = true ∧ ((arriving .none e).core 0).ingress = [arriver .none e]
      ∧ (arriving .none e).checkEpoch (arriver .none e).epoch = .here ∧ (arriver .none e).sender = .none
      ∧ (arriver .none e).addr + (arriver .none e).bytes.length ≤ 8388608)
    ∧ verdict 0 ((arriving .none 0).core 0).roleEpoch.toNat = .ok ∧ verdict 1 ((arriving .none 1).core 0).roleEpoch.toNat = .early
    ∧ verdict 65535 ((arriving .none 65535).core 0).roleEpoch.toNat = .stale
    ∧ ((arriving (.core 1) 0).core 0).ingress = [arriver (.core 1) 0] ∧ ((arriving (.core 1) 0).core 1).qDm = [sent1]
    ∧ sent1.prog = .issued 1 ∧ sent1.todo = 0 ∧ ((arriving (.core 1) 0).core 1).seq = .run
    ∧ hosted.clocked = true ∧ hosted.job.image = some image1 ∧ image1.role 7 = some role7 ∧ hosted.job.held = true := by
  decide +kernel
theorem witness_ParityErrorsInEngines :
    (queued1 .me 0x24).clocked = true ∧ (0 : Nat) < 256 ∧ ((queued1 .me 0x24).core 0).seq = .run ∧ StepMayFail (queued1 .me 0x24)
    ∧ ((queued1 .me 0x24).core 0).queue .me = [cmd1 0x24] ∧ (cmd1 0x24).prog = .fresh ∧ (cmd1 0x24).op = 0x24 ∧ (cmd1 0x24).retries = 0
    ∧ upset0.at_ = 0 ∧ upset0.again = false ∧ upset0.site = .scratch
    ∧ (queued1 .me 0x25).clocked = true ∧ ((queued1 .me 0x25).core 0).seq = .run ∧ StepMayFail (queued1 .me 0x25)
    ∧ ((queued1 .me 0x25).core 0).queue .me = [cmd1 0x25] ∧ (cmd1 0x25).op = 0x25
    ∧ (moving 2).clocked = true ∧ ((moving 2).core 0).seq = .run ∧ StepMayFail (moving 2) ∧ ((moving 2).core 0).queue .dm = [xferCmd 2]
    ∧ (xferCmd 2).op = 0x41 ∧ (xferOf (xferCmd 2)).dir = 2 ∧ (xferOf (xferCmd 0)).dir = 0 ∧ StepMayFail (moving 0) := by
  unfold StepMayFail
  decide +kernel
theorem witness_ConversionsAreTakenAndDeliverRows :
    (∀ o ∈ [0, 1, 2], (converting o []).clocked = true ∧ ((converting o []).core 0).seq = .run ∧ ((converting o []).core 0).qDm = [convCmd o]
      ∧ (convCmd o).op = 0x43 ∧ (convCmd o).prog = .fresh
      ∧ ((converting o []).station ((converting o []).convDesc o).station).ring.length < 256)
    ∧ ((converting 0 []).convDesc 0).op = .narrow ∧ ((converting 0 []).convDesc 1).op = .widen ∧ ((converting 0 []).convDesc 2).op = .generate
    ∧ (converting 0 []).convDesc 0 = narrow1 ∧ (converting 0 []).convDesc 1 = widen1 ∧ (converting 0 []).convDesc 2 = generate1
    ∧ (0 : Nat) < 32 ∧ ((ringed 0).station 0).ring = [⟨0, 0⟩] ∧ ((ringed 0).station 0).ctxs.length < 64
    ∧ (∀ o ∈ [0, 2], (converting o [ctx1 o]).convCtx 0 0 = some (ctx1 o) ∧ (ctx1 o).row = 0 ∧ (ctx1 o).out = [] ∧ (ctx1 o).flagged = 0
      ∧ (ctx1 o).flagOut = false)
    ∧ narrow1.rows = 1 ∧ narrow1.mx = false ∧ (narrowRow narrow1.dfmt false [(.zero false, .nearest)]).1 ≠ []
    ∧ generate1.rows = 1 ∧ generate1.mx = false ∧ ((converting 2 []).drawBytes generate1 0).length = 4
    ∧ (converting 0 [ctx1 0]).cores = [(0, { qDm := [convCmd 0], seq := .run })] := by
  decide +kernel
theorem witness_ConversionsWidenCompleteOrFail :
    (converting 1 [ctx1 1]).clocked = true ∧ (0 : Nat) < 32 ∧ (converting 1 [ctx1 1]).convCtx 0 0 = some (ctx1 1)
    ∧ ((converting 1 []).convDesc 1).op = .widen ∧ ((converting 1 []).convDesc 1).vest = false
    ∧ (converting 3 [ctx1 3]).convCtx 0 0 = some (ctx1 3) ∧ ((converting 3 []).convDesc 3).op = .widen ∧ ((converting 3 []).convDesc 3).vest = true
    ∧ (ctx1 3).row + 64 = ((converting 3 []).convDesc 3).rows ∧ moverTile.toDm = true ∧ ((converting 3 []).convDesc 3).tileOk moverTile = true
    ∧ ((converting 3 [] [moverTile]).core 0).vest = [moverTile] ∧ (ctx1 3).item.core = 0 ∧ ((converting 3 []).core 0).seq = .run
    ∧ ((converting 3 []).convDesc 3).tileOk pairTile = false ∧ pairTile.toDm = true ∧ StepMayFail (converting 3 [ctx1 3])
    ∧ (converting 0 [sentCtx 0 1]).convCtx 0 0 = some (sentCtx 0 1) ∧ (sentCtx 0 1).row = narrow1.rows ∧ (sentCtx 0 1).out = []
    ∧ narrow1.ncore ≤ (sentCtx 0 1).flagged ∧ (sentCtx 0 0).flagged < narrow1.ncore ∧ narrow1.rows ≤ narrow1.ncore * narrow1.rpc
    ∧ narrow1.flagEn = true ∧ (sentCtx 0 0).stale = [] ∧ (sentCtx 0 0).flagOut = false
    ∧ widen1.rows ≤ (sentCtx 1 0).row ∧ (sentCtx 1 0).flagged = 0 ∧ widen1.irq = true ∧ widen1.cmpl = true ∧ widen1.flagEn = false := by
  unfold StepMayFail
  decide +kernel
theorem witness_ExchangesAreInjected :
    (∀ op ∈ [0, 1, 2], (exchanging op).clocked = true ∧ ((exchanging op).core 0).seq = .run ∧ ((exchanging op).core 0).qXe = [exchCmd op]
      ∧ (exchCmd op).op = 0x50 ∧ (exchCmd op).prog = .fresh ∧ ((exchanging op).exchOf (exchCmd op)).op = op
      ∧ (exchanging op).fab.tabSt = .active ∧ (exchanging op).fab.track = []
      ∧ (exchanging op).exchCount ((exchanging op).exchOf (exchCmd op)) = 1
      ∧ (exchanging op).fab.spaceLock = [] ∧ (exchanging op).fab.txSeq = [] ∧ StepMayFail (exchanging op))
    ∧ (0 : Nat) < 256 ∧ upset0.site = .scratch
    ∧ (∀ op ∈ [0x51, 0x52], (queued1 .xe op).clocked = true ∧ ((queued1 .xe op).core 0).seq = .run ∧ ((queued1 .xe op).core 0).qXe = [cmd1 op]
      ∧ (cmd1 op).op = op) := by
  unfold StepMayFail
  decide +kernel
theorem witness_CollectivesCopyCombineAndPassOn :
    (∀ op ∈ [0, 1, 2, 3], ∀ g ∈ [(1, 0), (2, 0), (2, 1)], (collecting op g.1 g.2).clocked = true ∧ ((collecting op g.1 g.2).core 0).seq = .run
      ∧ ((collecting op g.1 g.2).core 0).qXe = [collCmd op g.1] ∧ (collCmd op g.1).op = 0x53 ∧ (collCmd op g.1).prog = .fresh
      ∧ (collOf (collCmd op g.1)).op = op ∧ (collOf (collCmd op g.1)).n = g.1 ∧ (collecting op g.1 g.2).job.rank = g.2
      ∧ (collOf (collCmd op g.1)).lo = 0 ∧ (collOf (collCmd op g.1)).rows % (collOf (collCmd op g.1)).groupRows = 0
      ∧ (collOf (collCmd op g.1)).packets = 1 ∧ (collecting op g.1 g.2).coll.runs = [] ∧ (collecting op g.1 g.2).coll.inbox = []
      ∧ (collecting op g.1 g.2).fab.track = [] ∧ (collecting op g.1 g.2).fab.tabSt = .active ∧ (collecting op g.1 g.2).fab.spaceLock = []
      ∧ (collecting op g.1 g.2).fab.txSeq = [] ∧ StepMayFail (collecting op g.1 g.2))
    ∧ (0 : Nat) < 256 ∧ combineLevels 2 1 = [] ∧ upset0.site = .scratch
    ∧ combining.clocked = true ∧ (combining.core 0).seq = .run ∧ (combining.core 0).qXe = [{ collCmd 1 2 with prog := .issued 0 }]
    ∧ combining.coll.runs = [collRun1] ∧ collRun1.core = 0 ∧ collRun1.d = collOf (collCmd 1 2) ∧ collRun1.i = 0 ∧ collRun1.pos = 0
    ∧ collRun1.down = 0 ∧ collRun1.comb = [0] ∧ nget 0 collRun1.arrived 0 = (collOf (collCmd 1 2)).packets ∧ combining.coll.inbox = []
    ∧ 0 < (collOf (collCmd 1 2)).groups := by
  unfold StepMayFail
  decide +kernel
theorem witness_HartsExecuteTheirInstructions :
    (∀ w ∈ [rvAdd, rvBeq, rvJal, rvLd, rvSd, rvLr, rvSc, rvAmo], (hartAt w).clocked = true ∧ (hartAt w).hartRuns 0 = true
      ∧ (match (hartAt w).fetchAt ((hartAt w).hart 0) with
        | .ok x => decide (x = (some w, 4, w))
        | .error _ => false) = true)
    ∧ (0 : Nat) < 128 ∧ rvAdd % 128 = 0x33 ∧ (Rv.aluR (Rv.fF7 rvAdd) (Rv.fF3 rvAdd) 0 0).isSome = true
    ∧ rvBeq % 128 = 0x63 ∧ (Rv.branch (Rv.fF3 rvBeq) 0 0).isSome = true ∧ rvJal % 128 = 0x6F ∧ rvLd % 128 = 0x03 ∧ Rv.fF3 rvLd ≠ 7
    ∧ rvSd % 128 = 0x23 ∧ Rv.fF3 rvSd < 4 ∧ rvLr % 128 = 0x2F ∧ rvSc % 128 = 0x2F ∧ rvAmo % 128 = 0x2F
    ∧ (∀ w ∈ [rvLd, rvSd, rvLr, rvSc, rvAmo], Rv.fF3 w = 3 ∧ inCanopy (Rv.rx ((hartAt w).hart 0) (Rv.fRs1 w)) = false
      ∧ (∀ k ∈ [Access.load, .store, .atomic, .loadReserved],
        (hartAt w).accessFault ((hartAt w).hart 0) k false (Rv.rx ((hartAt w).hart 0) (Rv.fRs1 w)) 8 = none))
    ∧ bits 31 27 rvLr = 2 ∧ Rv.fRs2 rvLr = 0 ∧ bits 31 27 rvSc = 3 ∧ ((hartAt rvSc).hart 0).resv = some (dataAt, 8)
    ∧ Rv.rx ((hartAt rvSc).hart 0) (Rv.fRs1 rvSc) = dataAt ∧ (Rv.amoValue (bits 31 27 rvAmo) 64 0 0).isSome = true ∧ StepMayFail (hartAt rvAdd) := by
  unfold StepMayFail
  decide +kernel
theorem witness_HartsReachTheCanopyAndRingDoorbells :
    (hartAt rvCanopyLd).clocked = true ∧ (0 : Nat) < 128 ∧ planIs (.load false) (hartAt rvCanopyLd) = true ∧ (hartAt rvCanopyLd).hartRuns 0 = true
    ∧ ((hartAt rvCanopyLd).hart 0).sent = false ∧ (hartAt rvCanopyLd).mayInjectAll 0 1 = true
    ∧ planIs (.load false) (hartAsked rvCanopyLd) = true ∧ ((hartAsked rvCanopyLd).hart 0).sent = true ∧ ((hartAsked rvCanopyLd).hart 0).want = []
    ∧ planIs (.load true) (hartAt rvFirst) = true ∧ planIs .store (hartAt rvCanopySd) = true ∧ (hartAt rvCanopySd).hartRuns 0 = true
    ∧ (hartAt rvCanopySd).mayInjectAll 0 1 = true
    ∧ planIs (.doorbell 0) (hartAt rvDoorbell 0) = true ∧ planIs (.doorbell 1) (hartAt rvDoorbell 1) = true
    ∧ planIs (.doorbell 2) (hartAt rvDoorbell 2) = true ∧ planIs .cfence (hartAt rvCfence) = true
    ∧ nget 0 (hartAt rvCfence).fab.unacked (hartKey 0) = 0
    ∧ (∀ k ∈ [DbKind.tcflag 3 none none 0, .hart 5 16, .stepEnd], ((ringing k).hart 0).db = [⟨k, false⟩] ∧ ((ringing k).hart 0).st = .running
      ∧ (ringing k).clocked = true)
    ∧ ((ringing .stepEnd).core 3).ingress.length < 32 ∧ ((ringing .stepEnd).hart 5).st = .running := by
  decide +kernel
theorem witness_HartsTakeTrapsAndInterrupts :
    (trapping 4096).clocked = true ∧ (0 : Nat) < 128 ∧ ((trapping 4096).nextTrap 0).isSome = true ∧ (trapping 4096).hartRuns 0 = true
    ∧ ((trapping 4096).hart 0).sent = false ∧ ((trapping 4096).hart 0).csr.mtvec ≠ 0 ∧ ((trapping 0).nextTrap 0).isSome = true
    ∧ ((trapping 0).hart 0).csr.mtvec = 0 ∧ StepMayFail (trapping 0) ∧ ((trapping 0).hart 0).st = .running ∧ ((trapping 0).hart 0).ended = false
    ∧ (trapping 0).job.stepRunning = true := by
  unfold StepMayFail
  decide +kernel
theorem witness_MsisForStoppedHartsAreDropped :
    (offHart .off).clocked = true ∧ ((offHart .off).hart 5).st = .off ∧ ((offHart .halted).hart 5).st = .halted ∧ (5 : Nat) < 128
    ∧ ((offHart .off).hart 0).db = [⟨.hart 5 16, false⟩] ∧ ((offHart .off).hart 0).st = .running
    ∧ (offHart .off).hostOpen 0 = true ∧ ((offHart .off).hp 0).d3hot = false ∧ (offHart .off).hartOn 5 = true
    ∧ (converting 1 [sentCtx 1 0]).convCtx 0 0 = some (sentCtx 1 0) ∧ ((converting 1 [sentCtx 1 0]).hart widen1.hart).st = .off
    ∧ widen1.irq = true ∧ widen1.rows ≤ (sentCtx 1 0).row ∧ (sentCtx 1 0).out = [] ∧ (sentCtx 1 0).flagOut = false ∧ (sentCtx 1 0).flagged = 0 := by
  decide +kernel
theorem witness_LinkageEnginesSolve :
    (queued1 .dm 0x42).clocked = true ∧ ((queued1 .dm 0x42).core 0).seq = .run ∧ ((queued1 .dm 0x42).core 0).qDm = [cmd1 0x42] ∧ (cmd1 0x42).op = 0x42
    ∧ ((queued1 .dm 0x42).link 0).queue.length < 256 ∧ (0 : Nat) < 8
    ∧ (solving1 none 0).clocked = true ∧ ((solving1 none 0).link 0).queue = [prob1 none none]
    ∧ (∀ k ∈ [1, 2, 3], ((solving1 (some k) k).link 0).queue = [prob1 (some (solve1 (k - 1))) none]
      ∧ opCode (((solving1 (some k) k).schedule (prob1 none none)).ops.getD (k - 1) 0) = k)
    ∧ (solve1 0).pc = 0 ∧ StepMayFail (solving1 none 0)
    ∧ normOf sched1 (sched1.ops.getD 2 0) (solve1 2) ≤ sched1.tol ∧ (solving1 none 0).schedule (prob1 none none) = sched1
    ∧ ({ sched1 with tol := 0 } : Schedule).tol < normOf { sched1 with tol := 0 } (sched1.ops.getD 2 0) (solve1 2) ∧ (solve1 2).iter ≠ sched1.cap := by
  unfold StepMayFail
  decide +kernel
theorem witness_ThePitchIsGathered :
    (pitchIdle []).clocked = true ∧ (pitchIdle []).isMine (segment 0 256) kPITCH = true ∧ bits 7 0 (segment 0 256).arg = 1
    ∧ bits 22 11 (segment 0 256).arg = 0 ∧ (segment 0 256).payload.length < 1152
    ∧ (pitchIdle (record1.take 1024)).clocked = true ∧ (pitchIdle (record1.take 1024)).isMine (segment 1024 128) kPITCH = true
    ∧ bits 7 0 (segment 1024 128).arg = 1 ∧ bits 22 11 (segment 1024 128).arg = (pitchIdle (record1.take 1024)).pitch.recv.length
    ∧ 1152 ≤ (record1.take 1024 ++ (segment 1024 128).payload).length ∧ (pitchIdle (record1.take 1024)).pitch.st = .idle
    ∧ (pitchIdle (record1.take 1024)).rankIn ((record1.take 1024 ++ (segment 1024 128).payload).take 1152) = some 1
    ∧ recordPeg ((record1.take 1024 ++ (segment 1024 128).payload).take 1152) = (List.range 512).map (pitchIdle (record1.take 1024)).fab.tabs.pegOf
    ∧ (∀ ty ∈ [2, 3, 5], ∀ st ∈ [PitchSt.accepted, .aligned], (pitching1 st []).clocked = true ∧ (pitching1 st []).isMine (pitchPkt ty 5) kPITCH = true
      ∧ bits 7 0 (pitchPkt ty 5).arg = ty ∧ (pitching1 st []).job.held = true ∧ (pitchPkt ty 5).job = (pitching1 st []).job.id
      ∧ (pitchPkt ty 5).srcRank ∈ (pitching1 st []).children ∧ (pitching1 st []).pitch.resetting ≠ some .idle ∧ (pitching1 st []).pitch.st = st
      ∧ (pitching1 st []).pitch.accepted = [] ∧ (pitching1 st []).pitch.loaded = [] ∧ (pitching1 st []).pitch.acked = []
      ∧ (pitching1 st []).job.rank ≠ 0 ∧ (pitching1 st []).job.kind ≠ 3 ∧ (pitching1 st []).pitch.ownLoaded = true)
    ∧ 6 ∈ (pitching1 .accepted []).children ∧ (pitching1 .accepted [6, 7, 8]).pitch.loaded = [6, 7, 8] ∧ (pitching1 .aligned [6, 7, 8]).pitch.acked = [6, 7, 8]
    ∧ (pitching1 .accepted [6, 7, 8]).children = [5, 6, 7, 8]
    ∧ (pitching1 .loaded []).isMine (pitchPkt 4 0) kPITCH = true ∧ bits 7 0 (pitchPkt 4 0).arg = 4 ∧ (pitchPkt 4 0).srcRank = parentOf (pitching1 .loaded []).job.rank
    ∧ (pitching1 .loaded []).pitch.st = .loaded ∧ (pitching1 .loaded []).rp.measure = none ∧ (pitchPkt 4 0).job = (pitching1 .loaded []).job.id
    ∧ (pitchIdle []).job.held = false ∧ (pitchIdle []).isMine (pitchPkt 2 5) kPITCH = true := by
  decide +kernel
theorem witness_PitchesFailQuiesceAndEnd :
    (loading1).clocked = true ∧ loading1.pitch.st = .accepted ∧ loading1.pitch.resetting = none ∧ loading1.pitch.ownLoaded = false
    ∧ loading1.pitch.failSent = false ∧ loading1.ckpt.restoring = false ∧ loading1.job.kind = 1 ∧ loading1.myRank ≠ 0
    ∧ 5 ∈ loading1.children ∧ loading1.pitch.loaded = []
    ∧ (pitching1 .accepted []).isMine (pitchPkt 6 5) kPITCH = true ∧ bits 7 0 (pitchPkt 6 5).arg = 6 ∧ (pitching1 .accepted []).pitching = true
    ∧ 5 ∈ (pitching1 .accepted []).children ∧ (pitching1 .accepted []).job.rank ≠ 0 ∧ (pitching1 .accepted []).job.held = true
    ∧ bits 7 0 (pitchPkt 7 0).arg = 7 ∧ (pitching1 .accepted []).isMine (pitchPkt 7 0) kPITCH = true ∧ (pitchPkt 7 0).job = (pitching1 .accepted []).job.id
    ∧ arrivedClean.isMine (pitchPkt 8 0) kPITCH = true ∧ bits 7 0 (pitchPkt 8 0).arg = 8 ∧ (pitchPkt 8 0).job = arrivedClean.job.id
    ∧ (pitchPkt 8 0).srcRank = parentOf arrivedClean.job.rank ∧ arrivedClean.pitch.st = .running ∧ arrivedClean.guy.sentClean = true
    ∧ arrivedClean.guy.held = none ∧ arrivedClean.guy.commit = .none ∧ arrivedClean.err.replayTo = none ∧ arrivedClean.job.stepRunning = true
    ∧ (quiesced1 [6, 7, 8]).isMine (pitchPkt 9 5) kPITCH = true ∧ bits 7 0 (pitchPkt 9 5).arg = 9 ∧ (quiesced1 [6, 7, 8]).pitch.st = .quiesced
    ∧ (quiesced1 [6, 7, 8]).pitch.quiesced = [6, 7, 8] ∧ (quiesced1 [6, 7, 8]).children = [5, 6, 7, 8] ∧ (quiesced1 [6, 7, 8]).job.rank ≠ 0
    ∧ (pitching1 .accepted []).pitch.accepted = [] ∧ (pitching1 .accepted []).pitch.failed = [] ∧ (accepted5).pitch.accepted = [5]
    ∧ accepted5.pitch.loaded = [] ∧ accepted5.pitch.st = .accepted ∧ (pitching1 .aligned []).pitch.acked = []
    ∧ arrivedClean.isMine strikePkt kSTRIKE = true ∧ strikePkt.job = arrivedClean.job.id ∧ arrivedClean.pitch.struck ≠ some strikePkt.job
    ∧ MayBeStruck arrivedClean ∧ arrivedClean.pitch.resetting ≠ some .idle ∧ arrivedClean.job.held = true
    ∧ (∀ a ∈ [AfterReset.idle, .load], (resetting1 a).clocked = true ∧ (resetting1 a).pitch.resetting = some a ∧ (resetting1 a).hp0.held = []
      ∧ (resetting1 a).hp1.held = [] ∧ (resetting1 a).dict.pend = []) := by
  unfold MayBeStruck
  decide +kernel
theorem witness_CommitsAndCheckpointsComplete :
    (∀ a ∈ [4, 5], ∀ q ∈ [true, false], (committing a true q).clocked = true ∧ (committing a true q).guy.commit = .running a true q
      ∧ (committing a true q).hp0.held = [] ∧ (committing a true q).hp1.held = [] ∧ (committing a true q).job.rank ≠ 0)
    ∧ (committing 4 false false).guy.commit = .running 4 false false ∧ (committing 4 false false).dnat 0xA010 3 = 0xFFFF
    ∧ (drainedTo 9 (committing 4 false false)).dnat 0xA010 3 ≠ 0xFFFF
    ∧ draining1.clocked = true ∧ draining1.ckpt.drain = some lastLine ∧ draining1.stateLines ≤ lastLine.next ∧ lastLine.unacked = 0
    ∧ lastLine.recordOut = false ∧ draining1.mayInject 0 1 = true ∧ (∀ x ∈ draining1.fab.track, x.owner ≠ .record)
    ∧ (∀ k ∈ [wardRecord, wardLine], NextInSpace k warding ∧ k.kind = kLWRITE ∧ k.dstCore = 0x3FF ∧ k.srcRank = warding.dnat 0xA010 4)
    ∧ warding.ckpt.restoring = false ∧ bits 40 0 wardRecord.arg = recordAddr 1 ∧ bits 40 0 wardLine.arg ≠ recordAddr 0
    ∧ bits 40 0 wardLine.arg ≠ recordAddr 1 ∧ warding.slotOf (bits 40 0 wardLine.arg) = some (0, 0, 0)
    ∧ NextInSpace strangerLine warding ∧ strangerLine.kind = kLWRITE ∧ strangerLine.dstCore = 0x3FF ∧ strangerLine.srcRank ≠ warding.dnat 0xA010 4
    ∧ NextInSpace holderLine restoring1 ∧ holderLine.kind = kLWRITE ∧ holderLine.dstCore = 0x3FF ∧ restoring1.ckpt.restoring = true
    ∧ holderLine.srcRank = restoring1.dnat 0xA010 3 ∧ restoring1.slotOf (bits 40 0 holderLine.arg) = some (0, 0, 0)
    ∧ recorded1.ckpt.drain = some recordLine ∧ recordLine.recordOut = true ∧ (∀ x ∈ recorded1.fab.track, x.owner ≠ .record)
    ∧ (∀ m ∈ [true, false], (relaying m).clocked = true ∧ (relaying m).job.image = some image0 ∧ (relaying m).err.st = 2
      ∧ (relaying m).guy.restored = false ∧ (relaying m).guy.sentClean = false ∧ (relaying m).job.rank ≠ 0)
    ∧ (∃ c ∈ (relaying false).children, ∀ x ∈ (relaying false).tagged 1 3, x.child = c → x.clean = false)
    ∧ (∀ c ∈ (relaying true).children, ∃ x ∈ (relaying true).tagged 1 3, x.child = c ∧ x.clean = true) := by
  unfold NextInSpace
  decide +kernel

theorem witness_HostPortsComeAndGo :
    (∀ p ∈ [0, 1], (hostUp p).clocked = true ∧ ((hostUp p).hp p).inPerst = false ∧ ((hostUp p).hp p).link = .up ∧ (hostUp p).start.phase = .ready
      ∧ (hostUp p).fetching p = false ∧ ((at_ .ready).hp p).inPerst = true
      ∧ ((hostTraining p).hp p).link = .training ∧ ((hostTraining p).hp p).inPerst = false
      ∧ (hostTraining p).clocked = true ∧ ((hostTraining p).far p).link ≠ 2 ∧ ((farUp p).far p).link = 2 ∧ (farUp p).clocked = true ∧ StepMayFail (farUp p))
    ∧ (at_ .ready).pitch.st = .idle ∧ (at_ .ready).err.st ≠ 5
    ∧ fetching1.fetching 0 = true ∧ fetching1.clocked = true ∧ (fetching1.hp 0).inPerst = false ∧ fetching1.myRank ≠ 0
    ∧ (hostStarting).start.phase ≠ .ready ∧ hostStarting.start.phase ≠ .fault ∧ (hostStarting.hp 0).link = .up ∧ (hostStarting.hp 0).inPerst = false
    ∧ hostStarting.clocked = true ∧ nget false ((msixPending).hp 0).pba 0 = true ∧ ((msixPending).hp 0).masked 0 = false := by
  unfold StepMayFail
  decide +kernel
theorem witness_HostsReachTheirWindows :
    (∀ p ∈ [0, 1], (hostUp p).clocked = true ∧ (hostUp p).hostOpen p = true ∧ ((hostUp p).hp p).d3hot = false ∧ ((hostUp p).hp p).busy = false
      ∧ (hostUp p).bar2Waits p false = false ∧ (hostUp p).bar2Waits p true = false ∧ (hostUp p).coreOn ((hostUp p).hp p).cswCore = true
      ∧ (hostUp p).hartOn 3 = true ∧ ((hostUp p).hart 3).st = .off)
    ∧ (hostBusy).hostOpen 0 = true ∧ (hostBusy.hp 0).busy = true ∧ (hostSleeping).hostOpen 0 = true ∧ (hostSleeping.hp 0).d3hot = true
    ∧ (∀ h ∈ [0], (hostJob).hartOn h = true ∧ (hostJob.hart h).st = .running) ∧ hostJob.hostOpen 0 = true ∧ (hostJob.hp 0).d3hot = false
    ∧ (hostGated).hartOn 3 = false ∧ hostGated.hostOpen 0 = true ∧ hostJob.jobBusy = true ∧ (hostUp 0).jobBusy = false
    ∧ windowOk 0 4 131072 = true ∧ ((hostUp 0).core 0).bank0.st ≠ .active
    ∧ hostJob.bar2Staging inputAt 4 = some (inputAt + 4096) ∧ hostJob.bar2Source inputAt 4 = some (inputAt + 4096)
    ∧ hostJob.bar2Addr 0 inputAt = inputAt ∧ hostJob.bar2Waits 0 true = false ∧ hostJob.bar2Waits 0 false = false
    ∧ inputAt + 4 ≤ 2 ^ ((hostJob.hp 0).bar2Enc + 20) ∧ (hostUp 0).bar2Source 0 4 = none ∧ (hostUp 0).owned 0 = false
    ∧ hostJob.owned workAt = true ∧ hostJob.bar2Staging workAt 4 = none ∧ (hostWaiting).bar2Waits 0 true = true ∧ hostWaiting.bar2Waits 0 false = true
    ∧ hostWaiting.hostOpen 0 = true
    ∧ locked1.clocked = true ∧ locked1.dict.locks.find? (fun x => x.area == 0x90) = some lock1 ∧ lock1.area = 0x90
    ∧ lock1.renewed + 5000000000 ≤ locked1.ns := by
  decide +kernel
theorem witness_RequestsAreCheckedReadAndAnswered :
    Asks .write (fromMgmt badReq) (mgmtReq badReq) (serving .test) ∧ (parseReq (mgmtReq badReq)).relay = false
    ∧ (serving .test).check14 (parseReq (mgmtReq badReq)) ((serving .test).wholeValue (parseReq (mgmtReq badReq))) ≠ 0
    ∧ WriteChecked .write (fromMgmt shortReq) (mgmtReq shortReq) (entryAt 0x8030 2) [1, 0] abType [1, 0] (serving .test)
    ∧ Asks .writeBlock (fromMgmt segReq) (mgmtReq segReq) (serving .test) ∧ (parseReq (mgmtReq segReq)).segmented = true
    ∧ (parseReq (mgmtReq segReq)).last = false ∧ (serving .test).joinSegment (parseReq (mgmtReq segReq)) = some [5]
    ∧ Arrives .read (fromMgmt readReq) (mgmtReq readReq) (repeating [7]) ∧ (repeating [7]).keptFor (mgmtReq readReq) = some [7]
    ∧ 16 ≤ ((crowded 16).dict.queue.filter (fun x => x.path == .mgmt)).length ∧ (crowded 1).dict.queue ≠ []
    ∧ ((crowded 1).dict.queue.filter (fun x => x.path == .mgmt)).length < 16 ∧ (crowded 16).clocked = true ∧ (crowded 1).serviceUp = true
    ∧ Asks .read (fromMgmt readReq) (mgmtReq readReq) (serving .test) ∧ Asks .read .queued (hostReq readReq) (mailed readReq)
    ∧ (serving .test).check14 (parseReq (mgmtReq readReq)) ((serving .test).wholeValue (parseReq (mgmtReq readReq))) = 0
    ∧ (dictEntry (parseReq (mgmtReq readReq)).idx (parseReq (mgmtReq readReq)).sub).map DictEntry.acc = some .rw
    ∧ Asks .readBlock (fromMgmt blockReq) (mgmtReq blockReq) (serving .test) ∧ (parseReq (mgmtReq blockReq)).off = 0
    ∧ (serving .test).check14 (parseReq (mgmtReq blockReq)) ((serving .test).wholeValue (parseReq (mgmtReq blockReq))) = 0
    ∧ Asks .subscribe (fromMgmt subReq) (mgmtReq subReq) (serving .test) ∧ (parseReq (mgmtReq subReq)).body = [1]
    ∧ (serving .test).check14 (parseReq (mgmtReq subReq)) ((serving .test).wholeValue (parseReq (mgmtReq subReq))) = 0
    ∧ (serving .test).dict.subs = [] := by
  unfold WriteChecked Asks Arrives
  decide +kernel
theorem witness_DictionaryWritesTakeForce :
    WriteTaken .write (fromMgmt writeReq) (mgmtReq writeReq) (entryAt 0x8030 2) [3] (serving .test) ∧ (serving .test).staysPending (dictKey 0x8030 2) (entryAt 0x8030 2) = false
    ∧ WriteTaken .write (fromMgmt writeReq) (mgmtReq writeReq) (entryAt 0x8030 2) [3] (holding .test) ∧ (holding .test).staysPending (dictKey 0x8030 2) (entryAt 0x8030 2) = true
    ∧ WriteTaken .writeBlock (fromMgmt lastReq) (mgmtReq lastReq) (entryAt 0x8030 2) [3] (serving .test)
    ∧ WriteTaken .quiesceStepWrite (fromMgmt stepReq) (mgmtReq stepReq) (entryAt 0x9030 3) [9, 0, 0, 0, 0, 0, 0, 0] (serving .test)
    ∧ WriteTaken .write (fromMgmt ownReq) (mgmtReq ownReq) (entryAt 0x4100 1) [4, 0] tablesDrained
    ∧ WriteTaken .fportAdminEnable (fromMgmt adminReq) (mgmtReq adminReq) (entryAt 0x4300 1) [1] (serving .test)
    ∧ WriteTaken .clockEnableWrite (fromMgmt clockReq) (mgmtReq clockReq) (entryAt 0x2010 4) [255, 255, 255, 255] (serving .test)
    ∧ WriteTaken .lockTake (fromMgmt takeReq) (mgmtReq takeReq) (entryAt 0xE010 2) [0x90] (serving .test)
    ∧ WriteTaken .lockRelease (fromMgmt dropReq) (mgmtReq dropReq) (entryAt 0xE010 3) [0x90] (serving .test) := by
  unfold WriteTaken WriteChecked Asks Arrives
  decide +kernel
theorem witness_DictionaryWritesTakeForce2 :
    WriteTaken .portMapWrite (fromMgmt mapReq) (mgmtReq mapReq) (entryAt 0x4100 2) (leBytes 96 7) (serving .test)
    ∧ WriteTaken .commandBankWrite (fromMgmt bankReq) (mgmtReq bankReq) (entryAt 0x5100 14) (zeros 16) (serving .test) := by
  unfold WriteTaken WriteChecked Asks Arrives
  decide +kernel
theorem witness_CommandEntriesAct :
    WriteTaken .resetCommand (fromMgmt resetReq) (mgmtReq resetReq) (entryAt 0x2210 1) [0x53, 0x52] (serving .test) ∧ (serving .test).jobHeld = false
    ∧ WriteTaken .resetCommand (fromMgmt resetReq) (mgmtReq resetReq) (entryAt 0x2210 1) [0x53, 0x52] (holding .test) ∧ (holding .test).jobHeld = true
    ∧ WriteTaken .freqCounterStart (fromMgmt freqReq) (mgmtReq freqReq) (entryAt 0x2020 3) [1] (serving .test)
    ∧ WriteTaken .fabricDrain (fromMgmt (tablesReq 1)) (mgmtReq (tablesReq 1)) (entryAt 0x4010 2) [1] (serving .test)
    ∧ WriteTaken .fabricApply (fromMgmt (tablesReq 2)) (mgmtReq (tablesReq 2)) (entryAt 0x4010 2) [2] tablesDrained
    ∧ WriteTaken .fabricCancel (fromMgmt (tablesReq 3)) (mgmtReq (tablesReq 3)) (entryAt 0x4010 2) [3] tablesDrained
    ∧ WriteTaken .commandStrike (fromMgmt (pitchReq 1)) (mgmtReq (pitchReq 1)) (entryAt 0x9030 2) [1] (holding .test) ∧ MayBeStruck (holding .test)
    ∧ (holding .test).pitch.resetting ≠ some .idle
    ∧ WriteTaken .commandStrike (fromMgmt (pitchReq 1)) (mgmtReq (pitchReq 1)) (entryAt 0x9030 2) [1] (serving .test)
    ∧ WriteTaken .commandQuiesce (fromMgmt (pitchReq 2)) (mgmtReq (pitchReq 2)) (entryAt 0x9030 2) [2] (holding .test)
    ∧ WriteTaken .commandResume (fromMgmt (pitchReq 3)) (mgmtReq (pitchReq 3)) (entryAt 0x9030 2) [3] (quiet .test) ∧ (quiet .test).guy.held = none
    ∧ WriteTaken .commandLeave (fromMgmt (pitchReq 4)) (mgmtReq (pitchReq 4)) (entryAt 0x9030 2) [4] (quiet .test) ∧ (quiet .test).pitch.resetting ≠ some .idle := by
  unfold WriteTaken WriteChecked Asks Arrives MayBeStruck
  decide +kernel
theorem witness_CommandEntriesAct2 :
    WriteTaken .pitchRequest .queued (hostReq recordReq) (entryAt 0x9030 1) record0 (mailed recordReq) ∧ (mailed recordReq).jobHeld = false
    ∧ (match (mailed recordReq).recordCheck record0, pegless.recordCheck record0 with
      | .ok r, .error c => r == 0 && c == 5
      | _, _ => false) = true := by
  unfold WriteTaken WriteChecked Asks Arrives
  decide +kernel
theorem witness_RelaysSurveysAndSecurity :
    Asks .relay (fromMgmt relayReq) (mgmtReq relayReq) ranked ∧ (parseReq (mgmtReq relayReq)).headerOk = true ∧ (parseReq (mgmtReq relayReq)).relay = true
    ∧ (parseReq (mgmtReq relayReq)).opcode = 1 ∧ (parseReq (mgmtReq relayReq)).body = leBytes 2 1 ++ zeros 6 ++ holdingsRead
    ∧ 16 ≤ holdingsRead.length ∧ fieldAt holdingsRead 1 1 = 1 ∧ bitAt 3 (fieldAt holdingsRead 7 1) = false ∧ ranked.fab.tabs.pegOf 1 ≠ 0xFFFF
    ∧ ranked.err.resetRequested = false ∧ ranked.clocked = true
    ∧ Asks .relay (fromMgmt relayReq) (mgmtReq relayReq) (serving .test) ∧ (serving .test).fab.tabs.pegOf 1 = 0xFFFF
    ∧ relaying1.isMine answerPkt kMGMT = true ∧ relaying1.serviceUp = true ∧ bitAt 18 answerPkt.arg = true ∧ bitAt 19 answerPkt.arg = true
    ∧ relaying1.dict.relays.find? (fun x => x.id == bits 15 0 answerPkt.arg && x.rank == answerPkt.srcRank && x.got.length == bits 35 20 answerPkt.arg) = some relay1
    ∧ relay1.survey = false ∧ relaying1.clocked = true ∧ (surveying).isMine answerPkt kMGMT = true ∧ surveying.ckpt.survey = some survey1
    ∧ surveying.dict.relays.find? (fun x => x.id == bits 15 0 answerPkt.arg && x.rank == answerPkt.srcRank && x.got.length == bits 35 20 answerPkt.arg)
        = some { relay1 with survey := true }
    ∧ relaying1.isMine innerPkt kMGMT = true ∧ bitAt 18 innerPkt.arg = false ∧ bitAt 19 innerPkt.arg = true ∧ bits 35 20 innerPkt.arg = 0
    ∧ relaying1.dict.relays.find? (fun y => y.id == relay1.id) = some relay1
    ∧ WriteTaken .survey (fromMgmt surveyReq) (mgmtReq surveyReq) (entryAt 0xA010 10) (leBytes 16 (2 ^ 16)) ranked
    ∧ surveyed.ckpt.survey = some survey1 ∧ surveyed.dict.relays = [] ∧ surveyed.clocked = true ∧ survey1.mode = 0 ∧ survey1.asked = [1]
    ∧ survey1.copies 1 = [] ∧ survey2.mode = 0 ∧ survey2.asked = [1] ∧ survey2.copies 1 = [7]
    ∧ WriteTaken .attestationNonce (fromMgmt nonceReq) (mgmtReq nonceReq) (entryAt 0x1020 2) (zeros 32) (serving .test)
    ∧ (quoting).sec.attState = 1 ∧ quoting.clocked = true
    ∧ (∃ x ∈ (segmenting).dict.xfers, x.path = .mgmt) ∧ segmenting.clocked = true := by
  unfold WriteTaken WriteChecked Asks Arrives
  decide +kernel
theorem witness_RecordsGoToTheirSlots :
    recordingOne.clocked = true ∧ recordingOne.recording = true ∧ recordingOne.recorder.queue = [occurrence1] ∧ recordingOne.mram.written = 0 := by
  decide +kernel

theorem witness_PitchesFailQuiesceAndEnd_load :
    loading2.clocked = true ∧ loading2.pitch.st = .accepted ∧ loading2.pitch.resetting = none ∧ loading2.pitch.ownLoaded = false
    ∧ loading2.pitch.failSent = false ∧ loading2.ckpt.restoring = false
    ∧ pitchImage.length = fieldAt (loading2.dval 0x9030 6) 16 8 ∧ fieldAt pitchImage 16 8 = pitchImage.length
    ∧ (loading2.hp (fieldAt (loading2.dval 0x9030 6) 0 1)).inPerst = false ∧ loading2.job.kind = 1
    ∧ 1 ∈ loading2.children ∧ 1 ∉ loading2.pitch.loaded := by
  decide +kernel
theorem witness_PitchesFailQuiesceAndEnd_image : passes2 = true := by
  decide +kernel

theorem witness_NoCommandTouchesTheQueue : nextHas (exec (.pwrgoodRise 5 2) { State.reset with pending := [.edgeCountDone] })
    (fun t => t.pending == [.edgeCountDone]) = true := by
  decide +kernel

theorem witness_StoppedClocksHoldEverything : State.reset.clocked = false
    ∧ nextHas (exec .edgeCountDone State.reset) (fun t => t == State.reset) = true := by
  decide +kernel

theorem witness_MemoryStaysCanonical : MemoryCanonical State.reset ∧ step State.reset = .next (idle State.reset) :=
  ⟨by unfold MemoryCanonical; decide +kernel, rfl⟩

theorem witness_MramNeverGoesBack : MramInRange State.reset ∧ step State.reset = .next (idle State.reset) :=
  ⟨by unfold MramInRange; decide +kernel, rfl⟩

/-- Both firmware slots hold an image that is no image. -/
def badSlots : State := { (at_ .verify) with mram := { (at_ .verify).mram with slot0 := .stored [0], slot1 := .stored [0] } }

/-- Whether manufacture's firmware verifies is an opaque value: the three cases of step 4 are all there are. -/
theorem witness_StartUpStepsThreeAndFourRun : (at_ .romBoot).start.phase = .romBoot ∧ (at_ .verify).start.phase = .verify
    ∧ badSlots.start.phase = .verify ∧ badSlots.slotOk (badSlots.mram.bootSlot % 2) = false
    ∧ badSlots.slotOk (1 - badSlots.mram.bootSlot % 2) = false
    ∧ ((at_ .verify).slotOk ((at_ .verify).mram.bootSlot % 2) = true ∨ (at_ .verify).slotOk ((at_ .verify).mram.bootSlot % 2) = false) := by
  refine ⟨rfl, rfl, rfl, by decide +kernel, by decide +kernel, ?_⟩
  cases (at_ .verify).slotOk ((at_ .verify).mram.bootSlot % 2)
  · exact .inr rfl
  · exact .inl rfl

end Sys2Proof.Tests
end

section
/-!
Solver cores: what an MSI does to a hart that is OFF or HALTED (R197), whoever sends it.
-/
namespace Sys2Proof.Machine

open Sys2Proof

/-! ## Harts after the operations that an MSI's senders use -/

/-- What relates every listed value to its change, and the unlisted one to itself, relates what a key reads. -/
theorem nget_map_rel {α : Type} {R : α → α → Prop} (d : α) (f : Nat × α → Nat × α) (hd : R d d)
    (hk : ∀ e, (f e).1 = e.1) (hf : ∀ e, R e.2 (f e).2) (m : NMap α) (k : Nat) :
    R (nget d m k) (nget d (m.map f) k) := by
  induction m with
  | nil => exact hd
  | cons e t ih =>
    rw [List.map_cons, nget, nget, hk]
    split
    · exact hf e
    · exact ih

/-- A store by another agent takes at most the reservation of a hart (R185). -/
theorem State.hart_storeAgent (s : State) (a : Nat) (bs : List Byte) (g : Nat) :
    ∃ r, (s.storeAgent a bs).hart g = { s.hart g with resv := r } := by
  refine nget_map_rel (R := fun x y : Hart => ∃ r, y = { x with resv := r }) {} _ ⟨none, rfl⟩ ?_ ?_ s.harts g
  · exact fun _ => rfl
  · intro e
    dsimp only
    split
    · split
      · exact ⟨none, rfl⟩
      · exact ⟨_, rfl⟩
    · exact ⟨_, rfl⟩

/-- An MSI changes no other hart. -/
theorem State.hart_msi_ne (s : State) (h ident : Nat) {g : Nat} (n : g ≠ h) : (s.msi h ident).hart g = s.hart g := by
  rw [State.msi, State.hart_modHart, if_neg n]

/-- An MSI for a hart that is OFF or HALTED does nothing but count (R197). -/
theorem State.hart_msi_stopped (s : State) (h ident : Nat) (st : (s.hart h).st = .off ∨ (s.hart h).st = .halted) :
    (s.msi h ident).hart h =
      { s.hart h with stats := { (s.hart h).stats with dropped := count 32 (s.hart h).stats.dropped 1 } } := by
  rw [State.msi, State.hart_modHart, if_pos rfl, if_pos st]

/-- `SolverCore.DroppedMsi` reads the count of the hart (Table 7.13). -/
theorem State.currentValue_droppedMsi (s : State) {h : Nat} (hh : h < 128) :
    s.currentValue (0x6100 + h) 5 = leBytes 4 (s.hart h).stats.dropped := by
  have solver : 0x6100 ≤ 0x6100 + h ∧ 0x6100 + h < 0x6180 := by omega
  have units : s.readUnits (0x6100 + h) 5 = some (leBytes 4 (s.hart h).stats.dropped) := by
    unfold State.readUnits
    rw [if_neg (by omega), if_pos solver, Nat.add_sub_cancel_left]
    rfl
  rw [State.currentValue, if_neg (by omega)]
  unfold State.readPlain
  rw [if_neg (by decide), if_neg (by omega), if_neg (by omega), if_neg (by omega), if_neg (by omega), if_pos (by omega),
    units]
  rfl

/-- Where a command sends hart `h`, OFF or HALTED, an MSI, having taken at most its reservation before, and leaves the
harts as they then are, the MSI is dropped. -/
theorem dropped_of_msi {s u t : State} {h ident : Nat} (hh : h < 128)
    (st : (s.hart h).st = .off ∨ (s.hart h).st = .halted) (before : ∃ r, u.hart h = { s.hart h with resv := r })
    (after : t.harts = (u.msi h ident).harts) : Dropped h s t := by
  obtain ⟨r, hu⟩ := before
  have ht : t.hart h = { s.hart h with
      resv := r, stats := { (s.hart h).stats with dropped := count 32 (s.hart h).stats.dropped 1 } } := by
    rw [State.hart_congr after, State.hart_msi_stopped u h ident (by rwa [hu]), hu]
  refine ⟨by rw [ht], by rw [ht], ?_⟩
  rw [State.currentValue_droppedMsi t hh, ht]
  rfl

/-! ## Frames of the senders -/

theorem msi_parts (s : State) (h ident : Nat) : ∀ p, p ∉ [Part.harts] → p.same s (s.msi h ident) := by
  intro p n
  cases p <;> simp_all [Part.same]

theorem putHart_parts (s : State) (h : Nat) (x : Hart) : ∀ p, p ∉ [Part.harts] → p.same s (s.putHart h x) := by
  intro p n
  cases p <;> simp_all [Part.same]

theorem widenDone_parts (s : State) (n id : Nat) (d : ConvDesc) :
    ∀ p, p ∉ [Part.mem, .stations, .harts, .cores] → p.same s (s.widenDone n id d) := by
  intro p m
  cases p <;> simp_all [Part.same]

/-- A WIDEN descriptor with IRQ that completes leaves the harts as identity 1 does, after at most the store of its
completion word (R216). -/
theorem State.widenDone_harts (s : State) (n id : Nat) (d : ConvDesc) (irq : d.irq = true) :
    ∃ u : State, (∀ g, ∃ r, u.hart g = { s.hart g with resv := r }) ∧
      (s.widenDone n id d).harts = (u.msi d.hart 1).harts := by
  refine ⟨if d.cmpl then s.storeAgent (s.copyBase d.cmplRegion 0 + d.cmplOff) (leBytes 8 s.job.step) else s, ?_, ?_⟩
  · intro g
    split
    · exact s.hart_storeAgent _ _ g
    · exact ⟨_, rfl⟩
  · simp only [State.widenDone, irq, if_true]
    split
    · simp only [State.modCtx_keeps, State.convSend_keeps]
    · simp only [State.convRetire_keeps]

/-! ## What the senders' commands compute -/

/-- MSI_ARRIVAL of an identity of Table 7.10 (R196). -/
theorem exec_msiArrival {s : State} {h ident : Nat} (ck : s.clocked = true) (hh : h < 128)
    (hi : ident = 1 ∨ ident = 2 ∨ 16 ≤ ident ∧ ident < 256) :
    exec (.msiArrival h ident) s = finish s (s.msi h ident) := by
  show execMsiArrival h ident s = _
  rw [execMsiArrival, only_pos _ (decide_eq_true hh), act_pos _ ck (by simpa [or_assoc] using hi)]

/-- DOORBELL_EFFECT of a RUNNING hart whose oldest doorbell is one of kind HART (R192). -/
theorem exec_doorbellEffect_hart {s : State} {g h ident : Nat} {rest : List Doorbell} (ck : s.clocked = true)
    (hg : g < 128) (db : (s.hart g).db = ⟨.hart h ident, false⟩ :: rest) (run : (s.hart g).st = .running) :
    exec (.doorbellEffect g) s = finish s ((s.putHart g { s.hart g with db := rest }).msi h ident) := by
  have effect : s.doorbellEffect g = some ((s.putHart g { s.hart g with db := rest }).msi h ident) := by
    simp [State.doorbellEffect, db]
  show execDoorbellEffect g s = _
  simp only [execDoorbellEffect, only_pos _ (decide_eq_true hg), effect]
  exact act_pos _ ck (by simp [run])

/-- HOST_DOORBELL of a hart that runs, through a port that takes requests (R411, R419). -/
theorem exec_hostDoorbell_on {s : State} {p h : Nat} (ck : s.clocked = true) (hh : h < 128) (hp : p < 2)
    (opn : s.hostOpen p = true) (d3 : (s.hp p).d3hot = false) (on : s.hartOn h = true) :
    exec (.hostDoorbell p h) s = finish s (s.msi h 2) := by
  show execHostDoorbell p h s = _
  rw [execHostDoorbell, only_pos _ (decide_eq_true hh), barRequest, only_pos _ (decide_eq_true hp), act_pos _ ck opn, d3,
    State.hostDoorbell, on]
  rfl

/-- CONV_DESCRIPTOR_DONE of a WIDEN descriptor whose rows are written, with room for its flag (R216). -/
theorem exec_convDescriptorDone_widen {s : State} {n id : Nat} {x : ConvCtx} (ck : s.clocked = true) (hn : n < 32)
    (cx : s.convCtx n id = some x) (op : (s.convDesc x.item.desc).op = .widen) (rows : (s.convDesc x.item.desc).rows ≤ x.row)
    (out : x.out = []) (fo : x.flagOut = false) (fl : x.flagged = 0)
    (room : (s.core (s.convDesc x.item.desc).core0).ingress.length < 32) :
    exec (.convDescriptorDone n id) s = finish s (s.widenDone n id (s.convDesc x.item.desc)) := by
  show execConvDescriptorDone n id s = _
  simp only [execConvDescriptorDone, cx, only_pos _ (decide_eq_true hn), if_pos op, if_pos fl]
  refine act_pos _ ck ?_
  have free : 0 < s.room (s.convDesc x.item.desc).core0 := Nat.sub_pos_of_lt room
  simp [rows, out, fo, free]

/-! ## The statement -/

/-- A command whose meaning is one MSI for hart `h` drops it and changes nothing else. -/
theorem completes_msi_dropped {i : Instr} {s : State} {h ident : Nat} (hh : h < 128)
    (st : (s.hart h).st = .off ∨ (s.hart h).st = .halted) (e : exec i s = finish s (s.msi h ident)) :
    Completes i s (fun t => Dropped h s t ∧ OtherHarts h s t ∧ Frame [.harts] s t) := by
  refine completes_of e fun t hp hs => ⟨dropped_of_msi hh st ⟨_, rfl⟩ (hs .harts), ?_, frame_of (msi_parts s h ident) hp hs⟩
  intro g n
  rw [State.hart_congr (hs .harts), State.hart_msi_ne s h ident n]

end Sys2Proof.Machine

namespace Sys2Proof

open Machine

/-- Settles O48: each sender's command ends in `State.msi` on a state in which the hart has lost at most its reservation, and
there a stopped hart does nothing but count. -/
theorem msisForStoppedHartsAreDropped : Obligations.MsisForStoppedHartsAreDropped := by
  intro s h ck hh st
  refine ⟨?arrival, ?doorbell, ?host, ?widen⟩
  case arrival =>
    intro ident hi
    exact completes_msi_dropped hh st (exec_msiArrival ck hh hi)
  case doorbell =>
    intro g ident rest hg ne db run
    refine completes_of (exec_doorbellEffect_hart ck hg db run) fun t hp hs => ⟨dropped_of_msi hh st ?_ (hs .harts), ?_⟩
    · exact ⟨(s.hart h).resv, by rw [State.hart_putHart, if_neg ne.symm]⟩
    · exact frame_of (fun p m => Part.same_trans (putHart_parts s g _ p m) (msi_parts _ h ident p m)) hp hs
  case host =>
    intro p hp opn d3 on
    exact completes_msi_dropped hh st (exec_hostDoorbell_on ck hh hp opn d3 on)
  case widen =>
    intro n id x hn cx op rows out fo fl room irq hart
    obtain ⟨u, before, after⟩ := s.widenDone_harts n id _ irq
    refine completes_of (exec_convDescriptorDone_widen ck hn cx op rows out fo fl room) fun t hp hs => ⟨?_, ?_⟩
    · exact dropped_of_msi hh st (before h) ((hs .harts).trans (by rw [after, hart]))
    · exact frame_of (widenDone_parts s n id _) hp hs

end Sys2Proof
end

section
/-!
The event recorder: which slot of the ring a record goes to, and what the entries `Recorder.NextSlot`, `Recorder.Written`
and `Recorder.Ring` then read (R473).
-/
namespace Sys2Proof.Machine

open Sys2Proof

/-! ## Slots of equal width -/

@[simp] theorem length_leBytes (len n : Nat) : (leBytes len n).length = len := by
  induction len generalizing n with
  | zero => rfl
  | succ len ih => rw [leBytes, List.length_cons, ih]

/-- Where every element becomes `w` items, element `i` stands in the `w` items from `w * i` on. -/
theorem slice_flatMap {α β : Type} {f : α → List β} {w : Nat} (hw : ∀ x, (f x).length = w) (l : List α) (i : Nat)
    (h : i < l.length) : slice (l.flatMap f) (w * i) w = f l[i] := by
  induction l generalizing i with
  | nil => exact absurd h (Nat.not_lt_zero i)
  | cons x xs ih =>
    rw [List.flatMap_cons]
    cases i with
    | zero => exact List.take_left' (hw x)
    | succ i =>
      have past : (f x ++ xs.flatMap f).drop (w * (i + 1)) = (xs.flatMap f).drop (w * i) := by
        rw [Nat.mul_succ, Nat.add_comm, ← List.drop_drop, List.drop_left' (hw x)]
      rw [slice, past]
      exact ih i (Nat.lt_of_succ_lt_succ h)

/-! ## What the recorder's entries read -/

/-- No entry of `Recorder` takes a snapshot: a READ returns what the state gives now, a job held or not (R448). -/
theorem State.dictRead_recorder (s : State) {sub : Nat} (h : 1 ≤ sub ∧ sub ≤ 9) :
    s.dictRead 0xB010 sub = (s.readPackage 0xB010 sub).getD (s.dval 0xB010 sub) := by
  have live : ∀ k ∈ List.range' 1 9, (dictEntry 0xB010 k).map DictEntry.snap = some .no := by decide
  obtain ⟨e, entry, snap⟩ := Option.map_eq_some_iff.mp (live sub (List.mem_range'_1.mpr (by omega)))
  have plain : s.readPlain 0xB010 sub = (s.readPackage 0xB010 sub).getD (s.dval 0xB010 sub) := by
    unfold State.readPlain
    simp [show sub ≠ 0 by omega]
  simp [State.dictRead, State.currentValue, entry, snap, plain]

/-- `Recorder.NextSlot` (R473). -/
theorem State.dictRead_nextSlot (s : State) : s.dictRead 0xB010 3 = leBytes 4 (s.mram.written % 131072) := by
  rw [s.dictRead_recorder (by decide), State.readPackage, Option.getD_some]

/-- `Recorder.Written` (R473). -/
theorem State.dictRead_written (s : State) : s.dictRead 0xB010 4 = leBytes 8 s.mram.written := by
  rw [s.dictRead_recorder (by decide), State.readPackage, Option.getD_some]

/-- `Recorder.Ring`: its slots in order (R473). -/
theorem State.dictRead_ring (s : State) :
    s.dictRead 0xB010 9 = (List.range 131072).flatMap (fun i => leBytes 32 (s.ringSlot i)) := by
  rw [s.dictRead_recorder (by decide), State.readPackage, Option.getD_some]

/-- The 32 bytes of `Recorder.Ring` from 32 * i on are slot i. -/
theorem State.slice_dictRead_ring (s : State) {i : Nat} (h : i < 131072) :
    slice (s.dictRead 0xB010 9) (32 * i) 32 = leBytes 32 (s.ringSlot i) := by
  rw [State.dictRead_ring, slice_flatMap (fun _ => length_leBytes 32 _) _ _ (by rwa [List.length_range]), List.getElem_range]

/-! ## Writing a record -/

/-- The state after occurrence `o`, the front of the queue, has become the next record (R473). -/
def State.recorded (s : State) (o : Occurrence) (rest : List Occurrence) : State :=
  { s with recorder := { s.recorder with queue := rest }
           mram := { s.mram with written := s.mram.written + 1
                                 ring := nset 0 s.mram.ring (s.mram.written % 131072) (o.record 1 s.mram.written) } }

/-- RECORDER_WRITE of a recorder that accepts occurrences and holds one (R474, R476). -/
theorem exec_recorderWrite {s : State} {o : Occurrence} {rest : List Occurrence} (ck : s.clocked = true)
    (on : s.recording = true) (q : s.recorder.queue = o :: rest) : exec .recorderWrite s = finish s (s.recorded o rest) := by
  show execRecorderWrite s = _
  rw [execRecorderWrite, q]
  exact act_pos _ ck on

theorem State.recorded_parts (s : State) (o : Occurrence) (rest : List Occurrence) :
    ∀ p, p ∉ [Part.mram, .recorder] → p.same s (s.recorded o rest) := by
  intro p n
  cases p <;> simp_all [Part.same, State.recorded]

/-- The record goes to the slot of its number; every other slot keeps what it holds. -/
theorem State.ringSlot_recorded (s : State) (o : Occurrence) (rest : List Occurrence) (i : Nat) :
    (s.recorded o rest).ringSlot i =
      if i = s.mram.written % 131072 then o.record 1 s.mram.written else s.ringSlot i :=
  nget_nset 0 _ s.mram.ring _ i

theorem State.ringSlot_congr {s t : State} (h : t.mram = s.mram) (i : Nat) : t.ringSlot i = s.ringSlot i := by
  rw [State.ringSlot, State.ringSlot, h]

end Sys2Proof.Machine

namespace Sys2Proof

open Machine

/-- Settles O59: the command ends in `State.recorded`, whose ring differs from the ring before it in one slot, and each
slot is the 32 bytes of `Recorder.Ring` at its own offset. -/
theorem recordsGoToTheirSlots : Obligations.RecordsGoToTheirSlots := by
  refine ⟨?manufacture, ?overwrite, ?write⟩
  case manufacture => exact State.dictRead_written State.reset
  case overwrite => exact fun n => Nat.add_mod_right n 131072
  case write =>
    rintro s o rest n ck on q rfl -
    refine completes_of (exec_recorderWrite ck on q) fun t hp hs => ?_
    have mram : t.mram = (s.recorded o rest).mram := hs .mram
    have slot (i : Nat) : t.ringSlot i =
        if i = s.mram.written % 131072 then o.record 1 s.mram.written else s.ringSlot i :=
      (State.ringSlot_congr mram i).trans (s.ringSlot_recorded o rest i)
    refine ⟨?written, ?nextSlot, ?record, ?others, frame_of (s.recorded_parts o rest) hp hs⟩
    case written => rw [State.dictRead_written, mram, State.recorded]
    case nextSlot => rw [State.dictRead_nextSlot, mram, State.recorded]
    case record => rw [State.slice_dictRead_ring t (Nat.mod_lt _ (by decide)), slot, if_pos rfl]
    case others =>
      intro i hi ne
      rw [State.slice_dictRead_ring t hi, State.slice_dictRead_ring s hi, slot, if_neg ne]

end Sys2Proof
end

section
/-!
What every meaning answers: a fault for a unit that the package lacks, the state as it was, or the end of a meaning whose
state keeps the form of memory and lets no count of MRAM go back. Pins apart, no meaning acts while the clocks stand.
-/
namespace Sys2Proof.Machine

open Sys2Proof

/-! ## States that a meaning may leave -/

/-- A state that keeps the canonical form of memory and the order of MRAM's counts. -/
def Sound (s t : State) : Prop := (Memory.wf s.mem = true → Memory.wf t.mem = true) ∧ MramStep s t

theorem Sound.mk_mem {s t : State} (m : Memory.wf s.mem = true → Memory.wf t.mem = true) (r : t.mram = s.mram) : Sound s t :=
  ⟨m, .of_eq r⟩

theorem Sound.mk_mram {s t : State} (m : t.mem = s.mem) (r : MramStep s t) : Sound s t := ⟨fun w => m ▸ w, r⟩

theorem Sound.of_eq {s t : State} (m : t.mem = s.mem) (r : t.mram = s.mram) : Sound s t := .mk_mram m (.of_eq r)

theorem Sound.trans {s t u : State} (h : Sound s t) (k : Sound t u) : Sound s u := ⟨fun w => k.1 (h.1 w), .trans h.2 k.2⟩

theorem Sound.congr {s s' t : State} (h : Sound s' t) (m : s'.mem = s.mem) (r : s'.mram = s.mram) : Sound s t :=
  ⟨fun w => h.1 (m ▸ w), .congr h.2 r.symm rfl⟩

theorem Sound.ite {c : Prop} [Decidable c] {s a b : State} (ha : Sound s a) (hb : Sound s b) : Sound s (if c then a else b) := by
  split <;> assumption

theorem Sound.foldl {α : Type} {g : State → α → State} (l : List α) (h : ∀ s x, Sound s (g s x)) (s : State) :
    Sound s (l.foldl g s) := by
  induction l generalizing s with
  | nil => exact .of_eq rfl rfl
  | cons x xs ih => exact (h s x).trans (ih _)

/-! ## The three answers -/

/-- A result of a meaning on `s`, for a command whose units exist (`exists_`) and that can act now (`runs`). -/
inductive Answers (s : State) : (exists_ runs : Bool) → Res → Prop
  | faults {runs : Bool} : Answers s false runs (.fault .noSuchUnit)
  | stays {runs : Bool} : Answers s true runs (.next s)
  | acts {t : State} : Sound s t → Answers s true true (finish s t)

theorem Answers.act {s t : State} {ok : Bool} (h : Sound s t) : Answers s true s.clocked (act s ok t) := by
  cases ck : s.clocked
  · rw [act_neg t (.inl ck)]
    exact .stays
  · cases ok
    · rw [act_neg t (.inr rfl)]
      exact .stays
    · rw [act_pos t ck rfl]
      exact .acts h

theorem Answers.actSettled {s t : State} {ok : Bool} (h : Sound s t) : Answers s true s.clocked (actSettled s ok t) :=
  .act (h.trans (.of_eq (by simp) (by simp)))

theorem Answers.only {s : State} {ok w c : Bool} {r : Res} (h : Answers s w c r) : Answers s (ok && w) c (Machine.only ok r) := by
  cases ok
  · exact .faults
  · exact h

theorem Answers.only_true {s : State} {ok c : Bool} {r : Res} (h : Answers s true c r) : Answers s ok c (Machine.only ok r) := by
  have k := Answers.only (ok := ok) h
  rwa [Bool.and_true] at k

theorem Answers.barRequest {s t : State} {p : Nat} (h : Sound s t) : Answers s (decide (p < 2)) s.clocked (barRequest s p t) :=
  .only_true (.act (.ite (.of_eq rfl rfl) h))

/-! ## Operations that go on with another operation -/

theorem State.unitError_sound {s : State} {c : Nat} {e : Engine} {i : Nat} {q : EngCmd} {again : Bool} {u : Upset}
    {rerun : State → State} (h : ∀ t, Sound t (rerun t)) : Sound s (s.unitError c e i q again u rerun) := by
  rcases s.unitError_cases c e i q again u rerun with k | k | k | k <;> rw [k]
  · exact .of_eq (by simp) (by simp)
  · exact .of_eq (by simp) (by simp)
  · exact .of_eq (by simp) (by simp)
  · exact .trans (.of_eq (by simp) (by simp)) (h _)

theorem State.answered_sound {s : State} {k : Packet} {f : State → Track → State} (h : ∀ t x, Sound t (f t x)) :
    Sound s (s.answered k f) := by
  rcases s.answered_cases k f with e | e | e | ⟨x, -, e⟩ <;> rw [e]
  · exact .of_eq (by simp) (by simp)
  · exact .of_eq (by simp) (by simp)
  · exact .of_eq (by simp) (by simp)
  · exact .trans (.of_eq (by simp) (by simp)) (h _ x)

theorem State.ownPitch_sound {s : State} {k : Packet} {f : State → State} (h : ∀ t, Sound t (f t)) : Sound s (s.ownPitch k f) := by
  rcases s.ownPitch_cases k f with e | e <;> rw [e]
  · exact .of_eq (by simp) (by simp)
  · exact .trans (.of_eq (by simp) (by simp)) (h _)

theorem ingress_sound {s t : State} {c : Nat} {x : Transfer} (h : s.ingress c x = some t) : Sound s t := by
  have k := ingress_keeps h
  exact .of_eq (by simp [k]) (by simp [k])

theorem popNack_sound {s t : State} {b : Bool} {n : DieNack} (h : s.popNack b = some (n, t)) : Sound s t := by
  obtain ⟨l, rfl⟩ := State.popNack_some h
  exact .of_eq rfl rfl

theorem State.doorbellEffect_sound {s t : State} {i : Nat} (h : s.doorbellEffect i = some t) : Sound s t := by
  unfold State.doorbellEffect at h
  dsimp only at h
  split at h
  · cases h
  · split at h
    · cases h
    · split at h
      · obtain ⟨u, hu, rfl⟩ := Option.map_eq_some_iff.mp h
        exact (ingress_sound hu).trans (.of_eq (by simp) (by simp))
      · cases h
        exact .of_eq (by simp) (by simp)
      · cases h
        exact .of_eq (by simp) (by simp)

theorem State.retired_sound {s t : State} (h : Sound s t) (i : Nat) (n : Hart) (r : Bool) : Sound s (t.retired i n r) :=
  h.trans (.of_eq (by simp) (by simp))

theorem State.hartStore_sound (s : State) (i a : Nat) (bs : List Byte) : Sound s (s.hartStore i a bs) :=
  .mk_mem (State.hartStore_wf s i a bs) (by simp)

theorem State.atomicOp_sound {s t : State} {i : Nat} {p : Plan} (h : s.atomicOp i p = some t) : Sound s t := by
  cases p with
  | lr a size rd n =>
    cases h
    exact State.retired_sound (.of_eq rfl rfl) _ _ _
  | sc a size v rd n =>
    cases h
    exact State.retired_sound (.ite (s.hartStore_sound _ _ _) (.of_eq rfl rfl)) _ _ _
  | amo op a size v rd n =>
    cases h
    exact State.retired_sound (s.hartStore_sound _ _ _) _ _ _
  | _ => cases h

theorem State.ordinary_sound {s t : State} {i : Nat} (h : s.ordinary i = some t) : Sound s t := by
  unfold State.ordinary at h
  split at h
  · cases h
    exact .of_eq (by simp) (by simp)
  · split at h
    · cases h
      exact .of_eq (by simp) (by simp)
    · cases h
  · split at h
    · cases h
      exact .mk_mem (fun w => by simp [w]) (by simp)
    · cases h
  · exact State.atomicOp_sound h

theorem State.serve_sound (s : State) (q : DictReq) : Sound s (s.serve q) := ⟨State.serve_wf s q, State.serve_mramStep s q⟩

theorem State.frameArrives_sound (s : State) (q : DictReq) : Sound s (s.frameArrives q) :=
  ⟨State.frameArrives_wf s q, State.frameArrives_mramStep s q⟩

/-! ## Families of rows -/

theorem dictRow_answers (row : DictRow) (src : DictSrc) (s : State) : Answers s true s.clocked (dictRow row src s) := by
  unfold dictRow
  split
  · split
    · exact .stays
    · exact .act (.congr (State.serve_sound _ _) rfl rfl)
  · exact .act (State.frameArrives_sound s _)

theorem auxSet_answers (s : State) (c op : Nat) (f : EngCmd → Core → Core) : Answers s (decide (c < 256)) s.clocked (s.auxSet c op f) := by
  unfold State.auxSet
  split
  · exact .only_true (.act (.of_eq (by simp) (by simp)))
  · exact .only_true .stays

theorem convSubmit_answers (s : State) (op : ConvOp) (c : Nat) : Answers s (decide (c < 256)) s.clocked (s.convSubmit op c) := by
  unfold State.convSubmit
  split
  · exact .only_true (.act (.ite (.of_eq (by simp) (by simp)) (.of_eq (by simp) (by simp))))
  · exact .only_true .stays

theorem convWork_answers {s : State} {op : ConvOp} {n id : Nat} {bad : Bool} {f : ConvDesc → State → State}
    (h : ∀ d, Sound s (f d s)) : Answers s (decide (n < 32)) s.clocked (s.convWork op n id bad f) := by
  unfold State.convWork
  split
  · exact .only_true (.act (.ite (.of_eq (by simp) (by simp)) (h _)))
  · exact .only_true .stays

theorem xmov_answers (s : State) (c op : Nat) (u : Option Upset) : Answers s (decide (c < 256)) s.clocked (s.xmov c op u) := by
  unfold State.xmov
  split
  · refine .only_true (.act ?_)
    cases u with
    | none => exact .of_eq (by simp) (by simp)
    | some e => exact State.unitError_sound (fun t => .of_eq rfl rfl)
  · exact .only_true .stays

theorem xcoll_answers (s : State) (c op : Nat) (u : Option Upset) : Answers s (decide (c < 256)) s.clocked (s.xcoll c op u) := by
  unfold State.xcoll
  split
  · refine .only_true (.actSettled ?_)
    cases u <;> exact .of_eq (by simp) (by simp)
  · exact .only_true .stays

theorem ringDoorbell_answers (s : State) (i kind : Nat) : Answers s (decide (i < 128)) s.clocked (s.ringDoorbell i kind) := by
  refine .only_true ?_
  split
  · exact .act (.of_eq (by simp) (by simp))
  · exact .stays

/-- A delivery from the fabric (R282). -/
theorem delivery_answers (s : State) (ok : Bool) (k : Packet) (bad : Bool) :
    Answers s true s.clocked (actSettled s ok (s.deliver k bad)) :=
  .actSettled (.mk_mem (State.deliver_wf s k bad) (by simp))
/-! ## Rows with several outcomes -/

theorem pwrgoodFall_sound (s : State) (mid : Nat) : Sound s (s.powerLoss mid) :=
  ⟨State.powerLoss_wf s mid, State.powerLoss_mramStep s mid⟩

theorem startSlot_sound (s : State) (n : Nat) : Sound s (s.startSlot n) :=
  .mk_mram (by simp) (State.startSlot_mramStep s n)

/-- A count that saturates at 32 bits is one and does not fall (R447). -/
theorem count_le_count {n : Nat} (h : n < 2 ^ 32) (k : Nat) : n ≤ count 32 n k ∧ count 32 n k < 2 ^ 32 := by
  unfold count satAdd
  omega

theorem State.countPowerUp_mramStep (s : State) : MramStep s s.countPowerUp := by
  unfold State.countPowerUp
  split
  · intro r
    have c := count_le_count r.1 1
    exact ⟨⟨c.2, r.2⟩, c.1, by simp⟩
  · exact .of_eq rfl

theorem bootRom_sound (s : State) : Sound s s.bootRom :=
  .mk_mram (by simp) (.congr (s.countPowerUp_mramStep.trans (State.applyPending_mramStep _ resetClass)) rfl rfl)

/-- The state after the boot slot's image did not verify: the fall-back is an event and counts (R461). -/
def State.fellBack (s : State) (o : Nat) : State :=
  { s.event 0x0106 srcPackage o with
    mram := { (s.event 0x0106 srcPackage o).mram with fallBacks := count 32 (s.event 0x0106 srcPackage o).mram.fallBacks 1 } }

theorem State.fellBack_sound (s : State) (o : Nat) : Sound s (s.fellBack o) := by
  refine .mk_mram (by simp [State.fellBack]) ?_
  have m : (s.fellBack o).mram = { s.mram with fallBacks := count 32 s.mram.fallBacks 1 } := by simp [State.fellBack]
  intro r
  have c := count_le_count r.2.2 1
  rw [MramInRange, MramForward, m]
  exact ⟨⟨r.1, r.2.1, c.2⟩, by simp [c.1]⟩

theorem execFirmwareVerification_answers (s : State) : Answers s true s.clocked (execFirmwareVerification s) := by
  let b := s.mram.bootSlot % 2
  show Answers s true s.clocked (Machine.act s (s.start.phase == .verify)
    (if s.slotOk b then s.startSlot b else if s.slotOk (1 - b) then (s.fellBack (1 - b)).startSlot (1 - b) else s.startupFail 4))
  exact .act (.ite (startSlot_sound s _) (.ite ((s.fellBack_sound _).trans (startSlot_sound _ _)) (.of_eq (by simp) (by simp))))

theorem execPerstAssert_answers (p : Nat) (s : State) : Answers s (decide (p < 2)) true (execPerstAssert p s) := by
  refine .only_true ?_
  split
  · exact .stays
  · split
    · exact .acts (.of_eq (by simp) (by simp))
    · exact .acts (.of_eq (by simp) (by simp))


theorem takeLink_sound (s : State) (p : Nat) (l : LinkWord) : Sound s (s.takeLink p l) :=
  .mk_mem (State.takeLink_wf s p l) (by simp)

theorem execCodewordReceive_answers (p errs : Nat) (link : LinkWord) (pkts : List WirePacket) (s : State) :
    Answers s (decide (p < 24)) s.clocked (execCodewordReceive p errs link pkts s) := by
  refine .only_true (.act (.ite (.of_eq (by simp) (by simp)) (.trans ?_ (takeLink_sound _ p link))))
  refine .ite (.ite ?_ ?_) (.ite ?_ ?_) <;> exact .of_eq (by simp) (by simp)

theorem execTransitPacket_answers (p lane : Nat) (k : Packet) (s : State) :
    Answers s (decide (p < 24) && decide (lane < 8)) s.clocked (execTransitPacket p lane k s) := by
  refine .only_true (.act ?_)
  split
  · exact .of_eq rfl rfl
  · exact .ite (.of_eq (by simp) (by simp)) (.ite (.of_eq (by simp) (by simp)) (.of_eq (by simp) (by simp)))

theorem deliver_sound (s : State) (k : Packet) (bad : Bool) : Sound s (s.deliver k bad) :=
  .mk_mem (State.deliver_wf s k bad) (by simp)

theorem execCollPacket_answers (k : Packet) (bad : Bool) (s : State) : Answers s true s.clocked (execCollPacket k bad s) :=
  .actSettled (.ite (.congr (deliver_sound _ k false) (by simp) (by simp)) (deliver_sound s k false))

theorem execLineQueueApply_answers (line : Nat) (s : State) : Answers s true s.clocked (execLineQueueApply line s) := by
  unfold execLineQueueApply
  split
  · split
    · exact .act (.ite (.mk_mem (fun w => by simp [w]) (by simp)) (.of_eq (by simp) (by simp)))
    · exact .stays
  · exact .stays

theorem execRoleNackEarly_answers (src : NackSrc) (s : State) : Answers s true s.clocked (execRoleNackEarly src s) := by
  cases src with
  | die =>
    unfold execRoleNackEarly
    dsimp only
    split
    · next n t pop =>
      refine .act ((popNack_sound pop).trans ?_)
      cases n.transfer.sender <;> exact .ite (.of_eq (by simp) (by simp)) (.of_eq (by simp) (by simp))
    · exact .stays
  | fabric k =>
    exact .actSettled (State.answered_sound fun t x => .ite (.of_eq (by simp) (by simp)) (.of_eq (by simp) (by simp)))

theorem execRoleNackStale_answers (src : NackSrc) (s : State) : Answers s true s.clocked (execRoleNackStale src s) := by
  cases src with
  | die =>
    unfold execRoleNackStale
    dsimp only
    split
    · next n t pop => exact .actSettled ((popNack_sound pop).trans (.of_eq (by simp) (by simp)))
    · exact .stays
  | fabric k => exact .actSettled (State.answered_sound fun t x => .of_eq (by simp) (by simp))

theorem execEarlyReissue_answers (src : ReissueSrc) (s : State) : Answers s true s.clocked (execEarlyReissue src s) := by
  cases src with
  | die =>
    unfold execEarlyReissue
    dsimp only
    split
    · split
      · next h => exact .act (.congr (ingress_sound h) rfl rfl)
      · exact .stays
    · exact .stays
  | fabric i =>
    unfold execEarlyReissue
    dsimp only
    split
    · exact .act (.of_eq (by simp) (by simp))
    · exact .stays

theorem execKeepalivePacket_answers (k : Packet) (s : State) : Answers s true s.clocked (execKeepalivePacket k s) := by
  refine .act ?_
  split <;> exact .of_eq (by simp) (by simp)

theorem measured_sound (s : State) (m : RpMeasure) : Sound s (s.measured m) := .mk_mem (State.measured_wf s m) (by simp)

theorem execTimesyncResp_answers (k : Packet) (s : State) : Answers s true s.clocked (execTimesyncResp k s) := by
  unfold execTimesyncResp
  dsimp only
  split
  · exact .act (.ite (.congr (measured_sound _ _) (by simp) (by simp)) (.of_eq (by simp) (by simp)))
  · exact .stays

theorem execTimesyncNoResp_answers (s : State) : Answers s true s.clocked (execTimesyncNoResp s) := by
  unfold execTimesyncNoResp
  split
  · split
    · exact .act (.ite (.of_eq (by simp) (by simp)) (.of_eq (by simp) (by simp)))
    · exact .stays
  · exact .stays

theorem gather_sound (s : State) : Sound s s.gather := .mk_mem (State.gather_wf s) (by simp)

theorem snapshot_sound (s : State) (k : DictSnap) (unit : Nat) : Sound s (s.snapshot k unit) := .of_eq (by simp) (by simp)

theorem execPackageStepEnd_answers (s : State) : Answers s true s.clocked (execPackageStepEnd s) := by
  refine .act (.trans ?_ (gather_sound _))
  refine .ite (.congr (Sound.trans (snapshot_sound _ _ _) (.foldl _ (fun t h => snapshot_sound t .hart h) _)) rfl rfl) (.of_eq rfl rfl)

theorem abandon_sound (s : State) (attempt step f : Nat) : Sound s (s.abandon attempt step f) :=
  .mk_mem (State.abandon_wf s attempt step f) (by simp)

theorem execAbandon_answers (k : Packet) (s : State) : Answers s true s.clocked (execAbandon k s) :=
  .act (.ite (.of_eq (by simp) (by simp)) (.ite (.of_eq (by simp) (by simp)) (.congr (abandon_sound _ _ _ _) (by simp) (by simp))))

theorem runMul_sound (s : State) (c i : Nat) : Sound s (s.runMul c i) := .of_eq (by simp) (by simp)

theorem execMemul_answers (c : Nat) (u : Option Upset) (s : State) : Answers s (decide (c < 256)) s.clocked (execMemul c u s) := by
  unfold execMemul
  split
  · refine .only_true (.act ?_)
    cases u with
    | none => exact runMul_sound s c _
    | some x =>
      dsimp only
      split
      · exact .ite (.congr (State.unitError_sound fun t => runMul_sound t c _) rfl rfl) (.of_eq (by simp) (by simp))
      · exact .of_eq (by simp) (by simp)
  · exact .only_true .stays

theorem execMescanr_answers (c : Nat) (u : Option Upset) (s : State) : Answers s (decide (c < 256)) s.clocked (execMescanr c u s) := by
  unfold execMescanr
  split
  · refine .only_true (.act ?_)
    cases u with
    | none => exact .of_eq (by simp) (by simp)
    | some x => exact State.unitError_sound fun t => .of_eq (by simp) (by simp)
  · exact .only_true .stays

theorem execMescanc_answers (c : Nat) (u : Option Upset) (s : State) : Answers s (decide (c < 256)) s.clocked (execMescanc c u s) := by
  unfold execMescanc
  split
  · refine .only_true (.act ?_)
    cases u with
    | none => exact .of_eq (by simp) (by simp)
    | some x => exact State.unitError_sound fun t => .of_eq rfl rfl
  · exact .only_true .stays

theorem execGatherTimeout_answers (c : Nat) (s : State) : Answers s (decide (c < 256)) s.clocked (execGatherTimeout c s) := by
  unfold execGatherTimeout
  split
  · split
    · exact .only_true (.act (.of_eq (by simp) (by simp)))
    · exact .only_true .stays
  · exact .only_true .stays

theorem execVechain_answers (c : Nat) (u : Option Upset) (s : State) : Answers s (decide (c < 256)) s.clocked (execVechain c u s) := by
  unfold execVechain
  split
  · refine .only_true (.act ?_)
    cases u <;> exact .of_eq (by simp) (by simp)
  · exact .only_true .stays

theorem execMeTileVisible_answers (c : Nat) (s : State) : Answers s (decide (c < 256)) s.clocked (execMeTileVisible c s) := by
  unfold execMeTileVisible
  dsimp only
  split
  · refine .only_true (.act ?_)
    split
    · exact .ite (.of_eq (by simp) (by simp)) (.of_eq (by simp) (by simp))
    · exact .of_eq rfl rfl
  · exact .only_true .stays

theorem execDmwload_answers (c : Nat) (u : Option Upset) (s : State) : Answers s (decide (c < 256)) s.clocked (execDmwload c u s) := by
  unfold execDmwload
  split
  · refine .only_true (.act ?_)
    cases u with
    | none => exact .of_eq (by simp) (by simp)
    | some x =>
      exact .ite (.of_eq (by simp) (by simp))
        (.ite (.congr (State.unitError_sound fun t => .of_eq (by simp) (by simp)) (by simp) (by simp)) (.of_eq (by simp) (by simp)))
  · exact .only_true .stays

theorem runXfer_sound (s : State) (c : Nat) : Sound s (s.runXfer c) := .mk_mem (State.runXfer_wf s c) (by simp)

theorem execDmxfer_answers (c : Nat) (u : Option Upset) (s : State) : Answers s (decide (c < 256)) s.clocked (execDmxfer c u s) := by
  unfold execDmxfer
  split
  · refine .only_true (.act ?_)
    cases u with
    | none => exact runXfer_sound s c
    | some x =>
      refine .ite (runXfer_sound s c) (.ite (State.unitError_sound fun t => .of_eq rfl rfl) ?_)
      exact .trans (.mk_mem (moveRows_wf _ _ _ _ _ _) (by simp)) (State.unitError_sound fun t => runXfer_sound t c)
  · exact .only_true .stays

theorem widenDone_sound (s : State) (n id : Nat) (d : ConvDesc) : Sound s (s.widenDone n id d) :=
  .mk_mem (State.widenDone_wf s n id d) (by simp)

theorem execConvDescriptorDone_answers (n id : Nat) (s : State) :
    Answers s (decide (n < 32)) s.clocked (execConvDescriptorDone n id s) := by
  unfold execConvDescriptorDone
  split
  · refine .only_true (.act (.ite (.ite (widenDone_sound s _ _ _) (.of_eq (by simp) (by simp))) ?_))
    dsimp only
    split
    · exact .ite (.of_eq (by simp) (by simp)) (.of_eq (by simp) (by simp))
    · exact .of_eq (by simp) (by simp)
  · exact .only_true .stays

theorem execDmconvNarrow_answers (ph : ConvPhase) (s : State) : Answers s ph.wellFormed s.clocked (execDmconvNarrow ph s) := by
  cases ph with
  | submit c => exact convSubmit_answers s .narrow c
  | work n id bad =>
    unfold execDmconvNarrow
    refine convWork_answers fun d => ?_
    exact .of_eq (by simp) (by simp)

theorem execDmconvGenerate_answers (ph : ConvPhase) (s : State) : Answers s ph.wellFormed s.clocked (execDmconvGenerate ph s) := by
  cases ph with
  | submit c => exact convSubmit_answers s .generate c
  | work n id bad =>
    unfold execDmconvGenerate
    refine convWork_answers fun d => ?_
    exact .of_eq (by simp) (by simp)

theorem execDmconvWiden_answers (ph : ConvPhase) (s : State) : Answers s ph.wellFormed s.clocked (execDmconvWiden ph s) := by
  cases ph with
  | submit c => exact convSubmit_answers s .widen c
  | work n id bad =>
    unfold execDmconvWiden
    refine convWork_answers fun d => ?_
    exact .ite (.mk_mem (widenTiles_wf _ _ _ _ _) (by simp)) (.mk_mem (State.widenRows_wf s _ _ _) (by simp))

theorem execHartCanopyStore_answers (h : Nat) (s : State) : Answers s (decide (h < 128)) s.clocked (execHartCanopyStore h s) := by
  refine .only_true ?_
  split
  · exact .act (.ite (.mk_mem (fun w => by simp [w]) (by simp)) (.of_eq (by simp) (by simp)))
  · exact .stays

theorem execDoorbellEffect_answers (h : Nat) (s : State) : Answers s (decide (h < 128)) s.clocked (execDoorbellEffect h s) := by
  refine .only_true ?_
  split
  · next e => exact .act (State.doorbellEffect_sound e)
  · exact .stays

theorem hartParityStop_sound {s t : State} (h : Sound s t) (i : Nat) : Sound s (t.hartParityStop i) :=
  h.trans (.of_eq (by simp) (by simp))

theorem State.ordinary_getD_sound {s t : State} (k : Sound s t) (i : Nat) : Sound s ((t.ordinary i).getD t) := by
  cases o : t.ordinary i with
  | none => exact k
  | some u => exact k.trans (State.ordinary_sound o)

theorem execHartInstruction_answers (h : Nat) (u : Option Upset) (s : State) :
    Answers s (decide (h < 128)) s.clocked (execHartInstruction h u s) := by
  refine .only_true ?_
  split
  · next ord => exact .act (State.ordinary_sound ord)
  · refine .act ?_
    split
    · exact .ite (.of_eq (by simp) (by simp)) (State.ordinary_getD_sound (.of_eq (by simp) (by simp)) h)
    · exact hartParityStop_sound (.of_eq (by simp) (by simp)) h
    · exact hartParityStop_sound (.of_eq (by simp) (by simp)) h
    · exact hartParityStop_sound (.of_eq rfl rfl) h
  · exact .stays

theorem finishSolve_sound (s : State) (d : Nat) (p : LinkProb) (sc : Schedule) (x : Solve) (e : SolveEnd) :
    Sound s (s.finishSolve d p sc x e) := .mk_mem (State.finishSolve_wf s d p sc x e) (by simp)

theorem execLinkNorm_answers (d : Nat) (bad : Bool) (s : State) : Answers s (decide (d < 8)) s.clocked (execLinkNorm d bad s) := by
  unfold execLinkNorm
  split
  · refine .only_true (.act (.ite (.of_eq (by simp) (by simp)) ?_))
    split
    · exact finishSolve_sound s d _ _ _ _
    · exact .of_eq (by simp) (by simp)
  · exact .only_true .stays

theorem execLoadComplete_answers (img : Option (List Byte)) (s : State) : Answers s true s.clocked (execLoadComplete img s) := by
  refine .act ?_
  cases img with
  | none => exact .of_eq (by simp) (by simp)
  | some b => exact .ite (.mk_mem (State.loadImage_wf s b) (by simp)) (.of_eq (by simp) (by simp))

theorem beginCommit_sound (s : State) (q : Bool) : Sound s (s.beginCommit q) := .mk_mem (State.beginCommit_wf s q) (by simp)

/-- A PITCH packet whose effect touches neither memory nor MRAM (R343). -/
theorem pitch_answers {s : State} {k : Packet} {ok : Bool} {f : State → State} (h : ∀ t, Sound t (f t)) :
    Answers s true s.clocked (act s ok (s.ownPitch k f)) := .act (State.ownPitch_sound h)

theorem jobWipe_sound (s : State) (us : Nat) : Sound s (s.jobWipe us) := ⟨State.jobWipe_wf s us, State.jobWipe_mramStep s us⟩

theorem execJobResetDone_answers (us : Nat) (s : State) : Answers s true s.clocked (execJobResetDone us s) := by
  unfold execJobResetDone
  split
  · exact .act ((jobWipe_sound s us).trans (.mk_mem (State.toIdle_wf _) (by simp)))
  · exact .act ((jobWipe_sound s us).trans (.of_eq (by simp) (by simp)))
  · exact .stays

theorem commitIn_sound (s : State) : Sound s s.commitIn := .mk_mem (State.commitIn_wf s) (by simp)

theorem serveHeld_sound (s : State) (p : Nat) : Sound s (s.serveHeld p) := .mk_mem (State.serveHeld_wf s p) (by simp)

theorem copyState_sound (s : State) (a b : Nat) : Sound s (s.copyState a b) := .mk_mem (State.copyState_wf s a b) (by simp)

theorem startDrain_sound (s : State) : Sound s s.startDrain := .mk_mem (State.startDrain_wf s) (by simp)

theorem execCaptureComplete_answers (s : State) : Answers s true s.clocked (execCaptureComplete s) := by
  unfold execCaptureComplete
  split
  · refine .act (.trans ?_ (startDrain_sound _))
    refine .trans ?_ (serveHeld_sound _ 1)
    refine .trans ?_ (serveHeld_sound _ 0)
    exact ((commitIn_sound s).trans (copyState_sound _ 0 1)).trans (.of_eq rfl rfl)
  · exact .stays

theorem execCommitSequenceComplete_answers (s : State) : Answers s true s.clocked (execCommitSequenceComplete s) := by
  unfold execCommitSequenceComplete
  split
  · next a q _ =>
    extract_lets t1 g1 t2 t3 g3 t4
    have h1 : Sound s t1 := .ite (commitIn_sound s) (.of_eq rfl rfl)
    have h2 : Sound s t2 := h1.trans (.of_eq rfl rfl)
    have h3 : Sound s t3 := (h2.trans (serveHeld_sound t2 0)).trans (serveHeld_sound _ 1)
    have h4 : Sound t3 t4 := by
      unfold t4
      split
      · exact .ite (.of_eq (by simp) (by simp)) (.of_eq rfl rfl)
      · exact .of_eq rfl rfl
    exact .act ((h3.trans h4).trans (.ite (.of_eq (by simp) (by simp)) (.of_eq rfl rfl)))
  · exact .stays

theorem execRecoveryRelayoutComplete_answers (s : State) : Answers s true s.clocked (execRecoveryRelayoutComplete s) := by
  unfold execRecoveryRelayoutComplete
  split
  · refine .act (.trans ?_ (gather_sound _))
    exact .congr (copyState_sound s 1 0) rfl rfl
  · exact .stays

theorem execDrainLinesAcked_answers (s : State) : Answers s true s.clocked (execDrainLinesAcked s) := by
  unfold execDrainLinesAcked
  split
  · refine .act ?_
    split
    · exact .mk_mem (fun w => by simp [w]) (by simp)
    · exact .of_eq (by simp) (by simp)
  · exact .stays

theorem execBar2Write_answers (p off : Nat) (bs : List Byte) (s : State) : Answers s (decide (p < 2)) s.clocked (execBar2Write p off bs s) := by
  unfold execBar2Write
  split
  · exact .barRequest (.ite (.of_eq (by simp) (by simp)) (.mk_mem (State.bar2Write_wf s _ _ _) (by simp)))
  · exact .only_true .stays

theorem execRecorderWrite_answers (s : State) : Answers s true s.clocked (execRecorderWrite s) := by
  unfold execRecorderWrite
  split
  · exact .act (.mk_mram rfl fun r => ⟨r, by simp [MramForward]⟩)
  · exact .stays

theorem execOpsecondsTick_answers (s : State) : Answers s true s.clocked (execOpsecondsTick s) := by
  refine .act (.mk_mram rfl ?_)
  intro r
  rw [MramInRange, MramForward]
  split <;> exact ⟨r, by simp⟩

theorem execStackTrainingDone_answers (fails : List LaneFail) (us : Nat) (s : State) :
    Answers s (fails.all LaneFail.wellFormed) s.clocked (execStackTrainingDone fails us s) := by
  refine .only_true (.act ?_)
  refine .trans (.foldl fails (fun t x => ?_) s) (.mk_mem (fun w => filter_wf _ _ w) rfl)
  exact .of_eq (by simp) (by simp)

theorem execReleaseAtT_answers (s : State) : Answers s true s.clocked (execReleaseAtT s) := by
  unfold execReleaseAtT
  dsimp only
  split
  · exact .act ⟨State.release_wf s _, State.release_mramStep s _⟩
  · exact .stays

theorem execHostDoorbell_answers (p h : Nat) (s : State) :
    Answers s (decide (p < 2) && decide (h < 128)) s.clocked (execHostDoorbell p h s) := by
  rw [Bool.and_comm]
  exact .only (.barRequest (.of_eq (by simp) (by simp)))

theorem execHostLinkUp_answers (p rate width : Nat) (s : State) :
    Answers s (decide (p < 2) && linkForm rate width) s.clocked (execHostLinkUp p rate width s) := by
  rw [linkForm, ← Bool.and_assoc]
  exact .only_true (.act (.of_eq (by simp) (by simp)))

/-- May a command act: the clocks run, or it is a change of a pin (R403). -/
def canAct (s : State) : Instr → Bool
  | .pwrgoodRise _ _ | .pwrgoodFall _ | .perstAssert _ | .perstDeassert _ => true
  | _ => s.clocked

/-- Every meaning is one of the three answers, and one that acts leaves memory and MRAM as they may be left. -/
theorem exec_answers (i : Instr) (s : State) : Answers s i.wellFormed (canAct s i) (exec i s) := by
  cases i with
  | edgeCountDone | pllLock | pllLockTimeout | ondieWipeDone | d2dTrainingDone _ | hostPortReady | thermalCoolTimer
  | thermtrip | powerComparison _ | overcurrent | voltageReached | freqWindowEnd _ | requestTimeout _ | tablesDrained
  | mgmtPacket _ | timesyncReq _ | ridgepoleCheck | guylineChildTimeout _ | pitchAbandonTimeout | strikePacket _
  | blockIdleTimeout _ | quoteDone | tokenRefill _ | suppressedSummary => exact .act (.of_eq (by simp) (by simp))
  | channelTrainTimeout _ | configRequest _ _ | thermalHot _ | thermalHoldTimer _ | telemetryUpdate _ _ | eccSample _
  | d2dFlitReceive _ _ _ _ | d2dNak _ _ _ | linkCredit _ _ _ | fecLock _ | portTrainTimeout _
  | identityFrame _ _ _ _ _ | identityTimeout _ | retrainDelayExpiry _ | lossOfSignal _ | wait _ | waitComplete _
  | waitflag _ | waitflagComplete _ | repeat_ _ | stepend _ | swap _ | swapExchange _ | tset _ | tadd _ | tmov _
  | tcmp _ | transferArrival _ | cswAccess _ _ _ | msiArrival _ _ | solverStepTimeout _ | mbxGo _ _
  | bar0RegisterWrite _ _ _ | farLinkDown _ | farLinkUp _ _ _ => exact .only_true (.act (.of_eq (by simp) (by simp)))
  | keepaliveTimer _ | reissueTimer _ | timesyncInterval | oppointSwitch | timetableFire _ | pitchChildTimeout _
  | drainRecordAcked | surveyDone | leaseExpiry _ | relayTimeout _ =>
    simp only [exec, execKeepaliveTimer, execReissueTimer, execTimesyncInterval, execOppointSwitch,
      execTimetableFire, execPitchChildTimeout, execDrainRecordAcked, execSurveyDone, execLeaseExpiry,
      execRelayTimeout]
    split
    · exact .act (.of_eq (by simp) (by simp))
    · exact .stays
  | signal _ _ | swapTimeout _ | dmlink _ | contextAllocate _ | convTimeout _ _ | xfence _ | xarm _ | collTimeout _
  | loaderBankComplete _ _ | problemStart _ _ | linkDot _ _ | linkPivot _ _ | linkTimeout _ | bar2Read _ _ _ _ =>
    simp only [exec, execSignal, execSwapTimeout, execDmlink, execContextAllocate, execConvTimeout, execXfence,
      execXarm, execCollTimeout, execLoaderBankComplete, execProblemStart, execLinkDot, execLinkPivot,
      execLinkTimeout, execBar2Read]
    split
    · exact .only_true (.act (.of_eq (by simp) (by simp)))
    · exact .only_true .stays
  | hartFirstFaultLoad _ | hartCanopyLoad _ | kfxCfence _ | hartTrap _ =>
    simp only [exec, execHartFirstFaultLoad, execHartCanopyLoad, execKfxCfence, execHartTrap]
    refine .only_true ?_
    split
    · exact .act (.of_eq (by simp) (by simp))
    · exact .stays
  | ttPacket _ | sendPacket _ | lreadPacket _ _ | lwritePacket _ | bivouacLwrite _ => exact delivery_answers s _ _ _
  | lrespPacket _ | ackPacket _ => exact .actSettled (State.answered_sound fun t x => .of_eq (by simp) (by simp))
  | arriveClean _ | arriveFailed _ | release _ => exact .act (.mk_mem (fun w => by simp [w]) (by simp))
  | linkAck _ _ | linkNak _ _ => exact .only_true (.act (.mk_mem (fun w => by simp [w]) (by simp)))
  | pitchAccept _ | pitchAlign _ | pitchFail _ | pitchAbort _ | pitchQuiesced _ =>
    refine pitch_answers fun t => ?_
    split
    · exact .of_eq (by simp) (by simp)
    · exact .of_eq rfl rfl
  | pitchLoaded _ =>
    exact pitch_answers fun t => .ite (.congr (.mk_mem (State.maybeLoaded_wf _) (by simp)) rfl rfl) (.of_eq rfl rfl)
  | pitchAck _ =>
    exact pitch_answers fun t => .ite (.congr (.mk_mem (State.maybeReady_wf _) (by simp)) rfl rfl) (.of_eq rfl rfl)
  | pitchQuiesce _ =>
    exact pitch_answers fun t => .ite (.congr (beginCommit_sound _ true) (by simp) (by simp)) (.of_eq rfl rfl)
  | refclkLoss _ => exact .act (pwrgoodFall_sound s _)
  | romBootDone _ => exact .act (.ite (bootRom_sound s) ((bootRom_sound s).trans (.of_eq (by simp) (by simp))))
  | resetN => exact .act ⟨State.packageReset_wf s _, State.packageReset_mramStep s _⟩
  | pitchRecord _ => exact .act ⟨fun w => by simp [w], State.recordPacket_mramStep s _⟩
  | resetCommand _ | freqCounterStart _ | fportAdminEnable _ | portMapWrite _ | fabricDrain _ | fabricApply _
  | fabricCancel _ | commandBankWrite _ | pitchRequest _ | commandStrike _ | commandQuiesce _ | commandResume _
  | commandLeave _ | quiesceStepWrite _ | survey _ | lockTake _ | lockRelease _ | dictRead _ | dictWrite _
  | dictReadBlock _ | dictWriteBlock _ | dictSignedWrite _ | dictSubscribe _ | dictRelay _ | clockEnableWrite _
  | attestationNonce _ | lifecycleTransition _ | firmwareUpdate _ => exact dictRow_answers _ _ s
  | xmovSend _ _ | xmovPut _ _ | xmovGet _ _ => exact xmov_answers s _ _ _
  | xcollAllgather _ _ | xcollReduce _ _ | xcollAllreduce _ _ | xcollBcast _ _ => exact xcoll_answers s _ _ _
  | mescl _ | meexp _ | megath _ => exact auxSet_answers s _ _ _
  | kfxDbTcflag _ | kfxDbHart _ | kfxDbStepend _ => exact ringDoorbell_answers s _ _
  | pwrgoodRise _ _ =>
    simp only [exec, execPwrgoodRise]
    split
    · exact .acts (.of_eq rfl rfl)
    · exact .stays
  | pwrgoodFall _ =>
    simp only [exec, execPwrgoodFall]
    split
    · exact .stays
    · exact .acts (pwrgoodFall_sound s _)
  | perstDeassert _ =>
    refine .only_true ?_
    split
    · exact .acts (.of_eq (by simp) (by simp))
    · exact .stays
  | firmwareVerification => exact execFirmwareVerification_answers s
  | stackTrainingDone _ _ => exact execStackTrainingDone_answers _ _ s
  | perstAssert _ => exact execPerstAssert_answers _ s
  | opsecondsTick => exact execOpsecondsTick_answers s
  | codewordReceive _ _ _ _ => exact execCodewordReceive_answers _ _ _ _ s
  | transitPacket _ _ _ => exact execTransitPacket_answers _ _ _ s
  | collPacket _ _ => exact execCollPacket_answers _ _ s
  | lineQueueApply _ => exact execLineQueueApply_answers _ s
  | roleNackEarly _ => exact execRoleNackEarly_answers _ s
  | roleNackStale _ => exact execRoleNackStale_answers _ s
  | earlyReissue _ => exact execEarlyReissue_answers _ s
  | keepalivePacket _ => exact execKeepalivePacket_answers _ s
  | timesyncResp _ => exact execTimesyncResp_answers _ s
  | timesyncNoResp => exact execTimesyncNoResp_answers s
  | packageStepEnd => exact execPackageStepEnd_answers s
  | releaseAtT => exact execReleaseAtT_answers s
  | abandon _ => exact execAbandon_answers _ s
  | memul _ _ => exact execMemul_answers _ _ s
  | meTileVisible _ => exact execMeTileVisible_answers _ s
  | mescanr _ _ => exact execMescanr_answers _ _ s
  | mescanc _ _ => exact execMescanc_answers _ _ s
  | gatherTimeout _ => exact execGatherTimeout_answers _ s
  | vechain _ _ => exact execVechain_answers _ _ s
  | dmwload _ _ => exact execDmwload_answers _ _ s
  | dmxfer _ _ => exact execDmxfer_answers _ _ s
  | dmconvNarrow _ => exact execDmconvNarrow_answers _ s
  | dmconvWiden _ => exact execDmconvWiden_answers _ s
  | dmconvGenerate _ => exact execDmconvGenerate_answers _ s
  | convDescriptorDone _ _ => exact execConvDescriptorDone_answers _ _ s
  | hartCanopyStore _ => exact execHartCanopyStore_answers _ s
  | doorbellEffect _ => exact execDoorbellEffect_answers _ s
  | linkNorm _ _ => exact execLinkNorm_answers _ _ s
  | loadComplete _ => exact execLoadComplete_answers _ s
  | jobResetDone _ => exact execJobResetDone_answers _ s
  | captureComplete => exact execCaptureComplete_answers s
  | drainLinesAcked => exact execDrainLinesAcked_answers s
  | hostDoorbell _ _ => exact execHostDoorbell_answers _ _ s
  | bar2Write _ _ _ => exact execBar2Write_answers _ _ _ s
  | recorderWrite => exact execRecorderWrite_answers s
  | hartInstruction _ _ => exact execHartInstruction_answers _ _ s
  | commitSequenceComplete => exact execCommitSequenceComplete_answers s
  | recoveryRelayoutComplete => exact execRecoveryRelayoutComplete_answers s
  | hostLinkUp _ _ _ => exact execHostLinkUp_answers _ _ _ s

/-! ## What the three answers say -/

theorem Answers.next_of_exists {s : State} {c : Bool} {r : Res} (h : Answers s true c r) : ∃ t, r = .next t := by
  cases h with
  | stays => exact ⟨s, rfl⟩
  | acts _ => exact ⟨_, rfl⟩

theorem Answers.fault_of_not_exists {s : State} {c : Bool} {r : Res} (h : Answers s false c r) : r = .fault .noSuchUnit := by
  cases h
  rfl

/-- A next state is the state as it was, or the end of a meaning that could act. -/
theorem Answers.next_cases {s t : State} {w c : Bool} (h : Answers s w c (.next t)) :
    t = s ∨ c = true ∧ ∃ u, Sound s u ∧ finish s u = .next t := by
  generalize e : (Host.Outcome.next t : Res) = r at h
  cases h with
  | faults => cases e
  | stays =>
    cases e
    exact .inl rfl
  | acts k => exact .inr ⟨rfl, _, k, rfl⟩

/-- The end of a meaning has the queue of the state before, and the memory and MRAM that the meaning left. -/
theorem finish_next {s u t : State} (h : finish s u = .next t) : t.pending = s.pending ∧ t.mem = u.mem ∧ t.mram = u.mram := by
  obtain ⟨v, e, hp, hs⟩ := finish_spec s u
  cases e.symm.trans h
  exact ⟨hp, hs .mem, hs .mram⟩

/-- A command's next state keeps the queue, and memory and MRAM are as they may be left. -/
theorem exec_next {i : Instr} {s t : State} (h : exec i s = .next t) : t.pending = s.pending ∧ Sound s t := by
  have a := exec_answers i s
  rw [h] at a
  rcases a.next_cases with rfl | ⟨-, u, k, e⟩
  · exact ⟨rfl, .of_eq rfl rfl⟩
  · obtain ⟨hp, hm, hr⟩ := finish_next e
    exact ⟨hp, k.trans (.of_eq hm hr)⟩

/-- A step leaves memory and MRAM as they may be left. -/
theorem step_sound {s t : State} (h : step s = .next t) : Sound s t := by
  unfold step at h
  split at h
  · cases h
    exact ⟨idle_wf s, idle_mramStep s⟩
  · exact .congr (exec_next h).2 rfl rfl

theorem canAct_eq_clocked {i : Instr} (s : State) (rise : ∀ a b, i ≠ .pwrgoodRise a b) (fall : ∀ a, i ≠ .pwrgoodFall a)
    (assert_ : ∀ p, i ≠ .perstAssert p) (deassert : ∀ p, i ≠ .perstDeassert p) : canAct s i = s.clocked := by
  unfold canAct
  split
  · exact absurd rfl (rise _ _)
  · exact absurd rfl (fall _)
  · exact absurd rfl (assert_ _)
  · exact absurd rfl (deassert _)
  · rfl

end Sys2Proof.Machine

namespace Sys2Proof

open Machine

/-- Settles O7: no meaning and no tick leaves memory out of its form. -/
theorem memoryStaysCanonical : Obligations.MemoryStaysCanonical := fun _ _ w h => (step_sound h).1 w

/-- Settles O9: no meaning and no tick takes a count of MRAM back or opens its lock. -/
theorem mramNeverGoesBack : Obligations.MramNeverGoesBack := fun _ _ r h => (step_sound h).2 r

/-- Settles O3: the answers to a command whose units exist are next states, and the other answer is the fault. -/
theorem commandsCompleteExactlyWhenTheirUnitsExist : Obligations.CommandsCompleteExactlyWhenTheirUnitsExist := by
  intro i s
  have a := exec_answers i s
  exact ⟨fun w => (w ▸ a).next_of_exists, fun w => (w ▸ a).fault_of_not_exists⟩

/-- Settles O4: a next state is the state as it was or the end of a meaning, and either has its queue. -/
theorem noCommandTouchesTheQueue : Obligations.NoCommandTouchesTheQueue := fun _ _ _ h => (exec_next h).1

/-- Settles O5: a command that is no change of a pin cannot act while the clocks stand. -/
theorem stoppedClocksHoldEverything : Obligations.StoppedClocksHoldEverything := by
  intro i s t stopped rise fall assert_ deassert h
  have a := exec_answers i s
  rw [canAct_eq_clocked s rise fall assert_ deassert, stopped, h] at a
  rcases a.next_cases with e | ⟨c, -⟩
  · exact e
  · cases c

end Sys2Proof
end

section
/-!
Start-up, steps 1 to 8 (18, 22), and the caps that temperature and power move (18.3, 24).
-/
namespace Sys2Proof.Machine

open Sys2Proof

/-- A command whose meaning ends in `u`, with a frame of `u`: what is claimed of a next state is shown from what `u` and it
share. -/
theorem completes_frame {i : Instr} {s u : State} {l : List Part} {Q : State → Prop} (e : exec i s = finish s u)
    (f : ∀ p, p ∉ l → p.same s u) (k : ∀ t, (∀ q : Part, q.same u t) → Frame l s t → Q t) : Completes i s Q :=
  completes_of e fun t hp hs => k t hs (frame_of f hp hs)

/-! ## Steps 1 and 2 -/

theorem clocked_of_phase {s : State} {p : Phase} (h : s.start.phase = p) (off : p ≠ .off) (tripped : p ≠ .tripped) :
    s.clocked = true := by
  rw [State.clocked, h]
  cases p <;> simp_all

/-- Only start-up changes. -/
theorem start_parts (s : State) (x : Startup) : ∀ p, p ∉ [Part.start] → p.same s { s with start := x } := by
  intro p n
  cases p <;> simp_all [Part.same]

/-- A row of start-up that waits for its phase and sets start-up alone. -/
theorem completes_start {i : Instr} {s : State} {x : Startup} {p : Phase} (h : s.start.phase = p) (off : p ≠ .off)
    (tripped : p ≠ .tripped) (e : exec i s = act s (s.start.phase == p) { s with start := x }) :
    Completes i s (fun t => t.start = x ∧ Frame [.start] s t) :=
  completes_frame (e.trans (act_pos _ (clocked_of_phase h off tripped) (by simp [h]))) (start_parts s x)
    fun _ hs fr => ⟨hs .start, fr⟩

end Sys2Proof.Machine

namespace Sys2Proof

open Machine

/-- Settles O10: each row waits for its phase, and sets start-up alone but for PWRGOOD_RISE. -/
theorem startUpBeginsAndPllsLock : Obligations.StartUpBeginsAndPllsLock := by
  intro s
  refine ⟨?rise, fun h => completes_start h (by decide) (by decide) rfl, fun h => completes_start h (by decide) (by decide) rfl,
    fun h => completes_start h (by decide) (by decide) rfl⟩
  case rise =>
    intro off clkset nodeid
    refine completes_frame (l := [.start, .rp, .recorder]) (u := { s with
      start := { phase := .edgeCount, clkset := clkset % 8, nodeid := nodeid % 16 }
      rp := {}, recorder := { opsec := s.mram.opSeconds } }) (if_pos off) ?_ fun t hs fr => ?_
    · intro p n
      cases p <;> simp_all [Part.same]
    · have st : t.start = _ := hs .start
      have rp : t.rp = _ := hs .rp
      have rc : t.recorder = _ := hs .recorder
      rw [st, rp, rc]
      exact ⟨rfl, rfl, rfl, rfl, rfl, rfl, fr⟩

end Sys2Proof

namespace Sys2Proof.Machine

open Sys2Proof

/-! ## Steps 3 and 4 -/

theorem startupFail_parts (s : State) (n : Nat) : ∀ p, p ∉ [Part.start, .recorder] → p.same s (s.startupFail n) := by
  intro p m
  cases p <;> simp_all [Part.same]

theorem State.startupFail_start (s : State) (n : Nat) : (s.startupFail n).start.phase = .fault ∧ (s.startupFail n).start.faultStep = n :=
  ⟨rfl, rfl⟩

theorem applyPending_mram_powerCycles (s : State) (p : Nat → Bool) : (s.applyPending p).mram.powerCycles = s.mram.powerCycles := by
  unfold State.applyPending
  dsimp only
  generalize s.dict.pend.filter (fun e => p e.1) = l
  induction l generalizing s with
  | nil => rfl
  | cons e es ih =>
    rw [List.foldl_cons, ih]
    unfold State.applyValue
    split
    · rfl
    · split <;> simp

theorem State.bootRom_powerCycles (s : State) : s.bootRom.mram.powerCycles =
    if s.start.fullStart then min (s.mram.powerCycles + 1) (2 ^ 32 - 1) else s.mram.powerCycles := by
  show (s.countPowerUp.applyPending resetClass).mram.powerCycles = _
  rw [applyPending_mram_powerCycles, State.countPowerUp]
  split <;> rfl

theorem bootRom_parts (s : State) :
    ∀ p, p ∉ [Part.start, .mram, .sec, .recorder, .settings, .hp0, .hp1] → p.same s s.bootRom := by
  intro p n
  cases p <;> simp_all [Part.same]

theorem HostPort.train_link {h : HostPort} (k : h.inPerst = false) : h.train.quiet.link = .training := by
  simp [HostPort.train, k, HostPort.quiet]

theorem startSlot_parts (s : State) (n : Nat) : ∀ p, p ∉ [Part.start, .sec, .mram, .recorder] → p.same s (s.startSlot n) := by
  intro p m
  cases p <;> simp_all [Part.same]

theorem fellBack_parts (s : State) (n : Nat) : ∀ p, p ∉ [Part.start, .sec, .mram, .recorder] → p.same s (s.fellBack n) := by
  intro p m
  cases p <;> simp_all [Part.same, State.fellBack]

/-- ROM_BOOT_DONE with equal OTP copies ends step 3. -/
theorem exec_romBootDone {s : State} (h : s.start.phase = .romBoot) (equal : Bool) :
    exec (.romBootDone equal) s = finish s (if equal then s.bootRom else s.bootRom.startupFail 3) :=
  act_pos _ (clocked_of_phase h (by decide) (by decide)) (by simp [h])

/-- FIRMWARE_VERIFICATION starts the boot slot, else the other one, else fails (R461). -/
theorem exec_firmwareVerification {s : State} (h : s.start.phase = .verify) :
    exec .firmwareVerification s = finish s (if s.slotOk (s.mram.bootSlot % 2) then s.startSlot (s.mram.bootSlot % 2)
      else if s.slotOk (1 - s.mram.bootSlot % 2) then (s.fellBack (1 - s.mram.bootSlot % 2)).startSlot (1 - s.mram.bootSlot % 2)
      else s.startupFail 4) :=
  act_pos _ (clocked_of_phase h (by decide) (by decide)) (by simp [h])

theorem State.startSlot_phase (s : State) (n : Nat) : (s.startSlot n).start.phase = .wipe := rfl

theorem State.startSlot_activeSlot (s : State) (n : Nat) : (s.startSlot n).sec.activeSlot = some n := rfl

theorem State.startSlot_fallBacks (s : State) (n : Nat) : (s.startSlot n).mram.fallBacks = s.mram.fallBacks := by
  show s.raiseSvn.mram.fallBacks = _
  unfold State.raiseSvn
  dsimp only
  split <;> simp

theorem State.raiseSvn_minSvn (s : State) : s.mram.minSvn ≤ s.raiseSvn.mram.minSvn := by
  unfold State.raiseSvn
  dsimp only
  split
  · next h =>
    simp only [Bool.and_eq_true, decide_eq_true_eq] at h
    simp only [State.event_keeps]
    omega
  · exact Nat.le_refl _

theorem State.startSlot_minSvn (s : State) (n : Nat) : s.mram.minSvn ≤ (s.startSlot n).mram.minSvn := s.raiseSvn_minSvn

theorem State.fellBack_fallBacks (s : State) (n : Nat) : (s.fellBack n).mram.fallBacks = min (s.mram.fallBacks + 1) (2 ^ 32 - 1) := by
  simp [State.fellBack, count, satAdd]

end Sys2Proof.Machine

namespace Sys2Proof

open Machine

/-- Settles O11: what step 3 leaves, and the three outcomes of step 4. -/
theorem startUpStepsThreeAndFourRun : Obligations.StartUpStepsThreeAndFourRun := by
  intro s
  refine ⟨?boot, ?otp, ?first, ?second, ?neither⟩
  case boot =>
    intro h
    refine completes_frame (exec_romBootDone h true) (bootRom_parts s) fun t hs fr => ?_
    have st : t.start = s.bootRom.start := hs .start
    have sec : t.sec = s.bootRom.sec := hs .sec
    have mram : t.mram = s.bootRom.mram := hs .mram
    refine ⟨by rw [st]; rfl, by rw [st]; rfl, by rw [sec]; rfl, by rw [mram, State.bootRom_powerCycles], ?_, ?_, fr⟩
    · exact fun k => (congrArg HostPort.link (hs .hp0)).trans (HostPort.train_link k)
    · exact fun k => (congrArg HostPort.link (hs .hp1)).trans (HostPort.train_link k)
  case otp =>
    intro h
    refine completes_of (exec_romBootDone h false) fun t _ hs => ?_
    have st : t.start = (s.bootRom.startupFail 3).start := hs .start
    refine ⟨by rw [st]; rfl, by rw [st]; rfl, (hs .mem).trans ?_, (hs .cores).trans ?_, (hs .fab).trans ?_⟩ <;> simp
  case first =>
    intro h ok
    have e := exec_firmwareVerification h
    rw [if_pos ok] at e
    refine completes_frame e (startSlot_parts s _) fun t hs fr => ?_
    have st : t.start = _ := hs .start
    have sec : t.sec = _ := hs .sec
    have mram : t.mram = _ := hs .mram
    rw [st, sec, mram]
    exact ⟨rfl, rfl, s.startSlot_fallBacks _, s.startSlot_minSvn _, fr⟩
  case second =>
    intro h bad ok
    have e := exec_firmwareVerification h
    rw [if_neg (by simp [bad]), if_pos ok] at e
    refine completes_frame e (fun p n => Part.same_trans (fellBack_parts s _ p n) (startSlot_parts _ _ p n)) fun t hs fr => ?_
    have st : t.start = _ := hs .start
    have sec : t.sec = _ := hs .sec
    have mram : t.mram = _ := hs .mram
    rw [st, sec, mram, State.startSlot_fallBacks, State.fellBack_fallBacks]
    exact ⟨rfl, rfl, rfl, fr⟩
  case neither =>
    intro h bad worse
    have e := exec_firmwareVerification h
    rw [if_neg (by simp [bad]), if_neg (by simp [worse])] at e
    refine completes_frame e (startupFail_parts s 4) fun t hs fr => ?_
    have st : t.start = (s.startupFail 4).start := hs .start
    exact ⟨by rw [st]; rfl, by rw [st]; rfl, (hs .sec).trans (by simp), (hs .mram).trans (by simp), fr⟩

end Sys2Proof

namespace Sys2Proof.Machine

open Sys2Proof

/-! ## Steps 5 to 8 -/

theorem mapOut_parts (s : State) (ch : Nat) : ∀ p, p ∉ [Part.hbm, .recorder] → p.same s (s.mapOut ch) := by
  intro p n
  cases p <;> simp_all [Part.same, State.mapOut]

theorem mem_insertNat (x y : Nat) (l : List Nat) : y ∈ insertNat x l ↔ y = x ∨ y ∈ l := by
  induction l with
  | nil => simp [insertNat]
  | cons z zs ih =>
    rw [insertNat]
    split
    · simp
    · split
      · simp_all
      · rw [List.mem_cons, ih, List.mem_cons]
        exact or_left_comm

/-- A channel that is mapped out joins those that are (R239). -/
theorem State.mem_mapOut (s : State) (ch x : Nat) : x ∈ (s.mapOut ch).hbm.out ↔ x = ch ∨ x ∈ s.hbm.out := by
  unfold State.mapOut
  split
  · next h =>
    have m : ch ∈ s.hbm.out := List.contains_iff_mem.mp h
    exact ⟨.inr, fun k => k.elim (fun e => e ▸ m) id⟩
  · rw [(State.event_keeps _ _ _ _).2.2.2.2.2.2.2.2.2.2.1]
    exact mem_insertNat ch x _

theorem repairLane_parts (fails : List LaneFail) (s : State) (f : LaneFail) :
    ∀ p, p ∉ [Part.start, .hbm, .recorder, .mem] → p.same s (s.repairLane fails f) := by
  intro p n
  cases p <;> simp_all [Part.same]

theorem foldl_parts {α : Type} {l : List Part} {g : State → α → State} (h : ∀ s x p, p ∉ l → p.same s (g s x)) (xs : List α) (s : State) :
    ∀ p, p ∉ l → p.same s (xs.foldl g s) := by
  intro p n
  induction xs generalizing s with
  | nil => exact p.same_refl s
  | cons x xs ih => exact Part.same_trans (h s x p n) (ih _)

/-- Stacked memory after its wipe: no byte below the end of the stacks is listed (R241). -/
theorem readByte_wiped (m : Cells) (a : Nat) :
    readByte (m.filter (fun c => stackedBytes ≤ c.1)) a = if stackedBytes ≤ a then readByte m a else 0 := by
  have h := nget_filter 0 m (fun k => decide (stackedBytes ≤ k)) a
  rw [readByte, h]
  by_cases k : stackedBytes ≤ a <;> simp [k, readByte]

/-- The state after stack training (R239 to R242). -/
def State.trained (s : State) (fails : List LaneFail) (us : Nat) : State :=
  let t := fails.foldl (State.repairLane fails) s
  { t with mem := t.mem.filter (fun c => stackedBytes ≤ c.1)
           hbm := { t.hbm with trained := true, wiped := true, wipeUs := min us (2 ^ 32 - 1) }
           start := { t.start with phase := .d2dTrain } }

theorem exec_stackTrainingDone {s : State} (h : s.start.phase = .stackTrain) {fails : List LaneFail}
    (w : fails.all LaneFail.wellFormed = true) (us : Nat) :
    exec (.stackTrainingDone fails us) s = finish s (s.trained fails us) :=
  (only_pos _ w).trans (act_pos _ (clocked_of_phase h (by decide) (by decide)) (by simp [h]))

theorem trained_parts (s : State) (fails : List LaneFail) (us : Nat) :
    ∀ p, p ∉ [Part.start, .hbm, .recorder, .mem] → p.same s (s.trained fails us) := by
  intro p n
  refine Part.same_trans (foldl_parts (repairLane_parts fails) fails s p n) ?_
  cases p <;> simp_all [Part.same, State.trained]

theorem State.trained_mem (s : State) (fails : List LaneFail) (us : Nat) :
    (s.trained fails us).mem = s.mem.filter (fun c => stackedBytes ≤ c.1) := by
  have h : (fails.foldl (State.repairLane fails) s).mem = s.mem := by simp
  rw [State.trained, h]

theorem State.dval_congr {s t : State} (h : t.dict.vals = s.dict.vals) (idx sub : Nat) : t.dval idx sub = s.dval idx sub := by
  rw [State.dval, State.dval, h]

theorem enableClocks_parts (s : State) : ∀ p, p ∉ [Part.start, .settings] → p.same s s.enableClocks := by
  intro p n
  cases p <;> simp_all [Part.same]

end Sys2Proof.Machine

namespace Sys2Proof

open Machine

/-- Settles O12: the rows that end steps 5 to 8. -/
theorem startUpStepsFiveToEightRun : Obligations.StartUpStepsFiveToEightRun := by
  intro s
  refine ⟨?wipe, ?channel, ?memory, ?links, ?linkFails, ?host⟩
  case wipe =>
    intro h
    refine completes_frame (l := [.start, .cores, .harts, .stations, .links])
      (act_pos _ (clocked_of_phase h (by decide) (by decide)) (by simp [h])) ?_ fun t hs fr => ?_
    · intro p n
      cases p <;> simp_all [Part.same]
    · exact ⟨hs .start, hs .cores, hs .harts, hs .stations, hs .links, fr⟩
  case channel =>
    intro h ch hch
    refine completes_frame ((only_pos _ (decide_eq_true hch)).trans
      (act_pos _ (clocked_of_phase h (by decide) (by decide)) (by simp [h]))) (mapOut_parts s ch) fun t hs fr => ?_
    have out : t.hbm = (s.mapOut ch).hbm := hs .hbm
    rw [out]
    exact ⟨(s.mem_mapOut ch ch).mpr (.inl rfl), fun x hx => (s.mem_mapOut ch x).mpr (.inr hx), fr⟩
  case memory =>
    intro h fails us w
    refine completes_frame (exec_stackTrainingDone h w us) (trained_parts s fails us) fun t hs fr => ?_
    have st : t.start = (s.trained fails us).start := hs .start
    have hbm : t.hbm = (s.trained fails us).hbm := hs .hbm
    have mem : t.mem = _ := (hs .mem).trans (s.trained_mem fails us)
    refine ⟨by rw [st]; rfl, by rw [hbm]; rfl, by rw [hbm]; rfl, fun a ha => ?_, fun a ha => ?_, fr⟩
    · rw [mem, readByte_wiped, if_neg (by omega)]
    · rw [mem, readByte_wiped, if_pos ha]
  case links => exact fun h => completes_start h (by decide) (by decide) rfl
  case linkFails =>
    intro h
    refine completes_frame (act_pos _ (clocked_of_phase h (by decide) (by decide)) (by simp [h])) (startupFail_parts s 7)
      fun t hs fr => ?_
    have st : t.start = (s.startupFail 7).start := hs .start
    exact ⟨by rw [st]; rfl, by rw [st]; rfl, fr⟩
  case host =>
    intro h
    refine completes_frame (act_pos _ (clocked_of_phase h (by decide) (by decide)) (by simp [h])) (l := [.start, .settings])
      (fun p n => Part.same_trans (enableClocks_parts s p n) ?_) fun t hs fr => ?_
    · cases p <;> simp_all [Part.same]
    · have phase : t.start.phase = .ready := congrArg Startup.phase (hs .start)
      have vals : t.dict.vals = s.enableClocks.dict.vals := (hs .settings).1
      exact ⟨phase, State.dval_congr vals _ _, State.dval_congr vals _ _, fr⟩

end Sys2Proof

namespace Sys2Proof.Machine

open Sys2Proof

/-! ## Caps (18.3, 24) -/

/-- What a move of the operating point leaves of power state. -/
theorem State.retarget_power (s : State) : s.retarget.power.thermalCap = s.power.thermalCap ∧ s.retarget.power.powerCap = s.power.powerCap
    ∧ s.retarget.power.hot = s.power.hot ∧ s.retarget.power.measured = s.power.measured ∧ s.retarget.power.peak = s.power.peak
    ∧ s.retarget.power.lowRuns = s.power.lowRuns := by
  unfold State.retarget
  dsimp only
  split <;> split <;> split <;> exact ⟨rfl, rfl, rfl, rfl, rfl, rfl⟩

/-- Moving the thermal cap sets it and leaves the power cap. -/
theorem State.setThermalCap_power (s : State) (new die : Nat) :
    (s.setThermalCap new die).power.thermalCap = new ∧ (s.setThermalCap new die).power.powerCap = s.power.powerCap := by
  unfold State.setThermalCap
  split
  · next h => exact ⟨h.symm, rfl⟩
  · dsimp only
    rw [(State.retarget_power _).1, (State.retarget_power _).2.1]
    simp

/-- Moving the power cap sets it and leaves the thermal cap and the measurements. -/
theorem State.setPowerCap_power (s : State) (new : Nat) : (s.setPowerCap new).power.powerCap = new
    ∧ (s.setPowerCap new).power.thermalCap = s.power.thermalCap ∧ (s.setPowerCap new).power.measured = s.power.measured
    ∧ (s.setPowerCap new).power.peak = s.power.peak ∧ (s.setPowerCap new).power.lowRuns = s.power.lowRuns := by
  unfold State.setPowerCap
  split
  · next h => exact ⟨h.symm, rfl, rfl, rfl, rfl⟩
  · dsimp only
    obtain ⟨thermal, power, -, measured, peak, runs⟩ := State.retarget_power
      { s.throttle s.power.powerCap new 0xFF with power := { (s.throttle s.power.powerCap new 0xFF).power with
          powerCap := new, capEvents := count 32 (s.throttle s.power.powerCap new 0xFF).power.capEvents 1 } }
    rw [thermal, power, measured, peak, runs]
    simp

theorem setThermalCap_parts (s : State) (new die : Nat) : ∀ p, p ∉ [Part.power, .recorder] → p.same s (s.setThermalCap new die) := by
  intro p n
  cases p <;> simp_all [Part.same]

theorem setPowerCap_parts (s : State) (new : Nat) : ∀ p, p ∉ [Part.power, .recorder] → p.same s (s.setPowerCap new) := by
  intro p n
  cases p <;> simp_all [Part.same]

theorem power_parts (s : State) (x : Power) : ∀ p, p ∉ [Part.power, .recorder] → p.same s { s with power := x } := by
  intro p n
  cases p <;> simp_all [Part.same]

theorem taken_parts (s : State) : ∀ p : Part, p.same s s.taken := by
  intro p
  cases p <;> simp [Part.same, State.taken]

theorem exec_thermalHot {s : State} (ck : s.clocked = true) {die : Nat} (h : die < 10) :
    exec (.thermalHot die) s = finish s { s.setThermalCap (min 7 (s.power.thermalCap + 1)) die with
      power := { (s.setThermalCap (min 7 (s.power.thermalCap + 1)) die).power with hot := true } } :=
  (only_pos _ (decide_eq_true (by omega))).trans (act_pos _ ck (decide_eq_true h))

theorem exec_thermalHoldTimer {s : State} (ck : s.clocked = true) (hot : s.power.hot = true) {die : Nat} (h : die < 10) :
    exec (.thermalHoldTimer die) s = finish s (s.setThermalCap (min 7 (s.power.thermalCap + 1)) die) :=
  (only_pos _ (decide_eq_true (by omega))).trans (act_pos _ ck (by simp [h, hot]))

/-- The state that the cooling of a millisecond leaves, the hot mark apart: the cap one point faster, never beyond P0. -/
def State.cooler (s : State) : State :=
  if s.power.thermalCap = 0 then s else (s.setThermalCap (s.power.thermalCap - 1) (Config.coolDie s.free).toNat).taken

theorem State.cooler_power (s : State) :
    s.cooler.power.thermalCap = s.power.thermalCap - 1 ∧ s.cooler.power.powerCap = s.power.powerCap := by
  unfold State.cooler
  split
  · next h => exact ⟨by omega, rfl⟩
  · exact s.setThermalCap_power _ _

theorem cooler_parts (s : State) : ∀ p, p ∉ [Part.power, .recorder] → p.same s s.cooler := by
  intro p n
  unfold State.cooler
  split
  · exact p.same_refl s
  · exact Part.same_trans (setThermalCap_parts s _ _ p n) (taken_parts _ p)

theorem exec_thermalCoolTimer {s : State} (ck : s.clocked = true) :
    exec .thermalCoolTimer s = finish s { s.cooler with power := { s.cooler.power with hot := false } } := act_pos _ ck rfl

/-- The package after a comparison: the reading is kept and the run count set. -/
def State.powerRead (s : State) (mean runs : Nat) : State :=
  { s with power := { s.power with measured := mean, peak := max s.power.peak mean, lowRuns := runs } }

/-- What a comparison makes of the power cap and the run of low means (R487, R488). -/
def State.compared (s : State) (mean : Nat) : State :=
  if s.powerLimit < mean then (s.powerRead mean 0).setPowerCap (min 7 (s.power.powerCap + 1))
  else if 100 * mean ≤ 95 * s.powerLimit then
    if 9 ≤ s.power.lowRuns then (s.powerRead mean 0).setPowerCap (s.power.powerCap - 1) else s.powerRead mean (s.power.lowRuns + 1)
  else s.powerRead mean 0

theorem exec_powerComparison {s : State} (ck : s.clocked = true) (h : 3 ≤ s.start.phase.stepNo) {mean : Nat} (m : mean < 2 ^ 16) :
    exec (.powerComparison mean) s = finish s (s.compared mean) := by
  show act s _ _ = _
  rw [act_pos _ ck (decide_eq_true h), Nat.mod_eq_of_lt m]
  rfl

theorem compared_parts (s : State) (mean : Nat) : ∀ p, p ∉ [Part.power, .recorder] → p.same s (s.compared mean) := by
  intro p n
  have read (runs : Nat) : p.same s (s.powerRead mean runs) := power_parts s _ p n
  unfold State.compared
  split
  · exact Part.same_trans (read 0) (setPowerCap_parts _ _ p n)
  · split
    · split
      · exact Part.same_trans (read 0) (setPowerCap_parts _ _ p n)
      · exact read _
    · exact read 0

/-- Every comparison keeps the reading and its peak, and leaves the thermal cap. -/
theorem State.compared_reading (s : State) (mean : Nat) : (s.compared mean).power.measured = mean
    ∧ (s.compared mean).power.peak = max s.power.peak mean ∧ (s.compared mean).power.thermalCap = s.power.thermalCap := by
  have moved (new : Nat) : ((s.powerRead mean 0).setPowerCap new).power.measured = mean
      ∧ ((s.powerRead mean 0).setPowerCap new).power.peak = max s.power.peak mean
      ∧ ((s.powerRead mean 0).setPowerCap new).power.thermalCap = s.power.thermalCap := by
    obtain ⟨-, thermal, measured, peak, -⟩ := (s.powerRead mean 0).setPowerCap_power new
    exact ⟨measured, peak, thermal⟩
  unfold State.compared
  split
  · exact moved _
  · split
    · split
      · exact moved _
      · exact ⟨rfl, rfl, rfl⟩
    · exact ⟨rfl, rfl, rfl⟩

theorem clocked_of_stepNo {s : State} (h : 3 ≤ s.start.phase.stepNo) : s.clocked = true := by
  unfold State.clocked
  cases e : s.start.phase <;> simp_all [Phase.stepNo]

end Sys2Proof.Machine

namespace Sys2Proof

open Machine

/-- Settles O14: each event ends in a move of its cap, or leaves it. -/
theorem capsMoveWithTemperatureAndPower : Obligations.CapsMoveWithTemperatureAndPower := by
  intro s
  refine ⟨?hot, ?gateway, ?hold, ?cool, ?compare, ?overcurrent⟩
  case hot =>
    intro ck die hd
    refine completes_frame (exec_thermalHot ck hd)
      (fun p n => Part.same_trans (setThermalCap_parts s _ die p n) (power_parts _ _ p n)) fun t hs fr => ?_
    have pw : t.power = _ := hs .power
    rw [pw]
    obtain ⟨thermal, power⟩ := s.setThermalCap_power (min 7 (s.power.thermalCap + 1)) die
    exact ⟨thermal, rfl, power, fr⟩
  case gateway =>
    intro die lo hi
    refine ⟨s, ?_, rfl⟩
    exact (only_pos _ (decide_eq_true hi)).trans (act_neg _ (.inr (decide_eq_false (by omega))))
  case hold =>
    intro ck hot die hd
    refine completes_frame (exec_thermalHoldTimer ck hot hd) (setThermalCap_parts s _ die) fun t hs fr => ?_
    have pw : t.power = _ := hs .power
    rw [pw]
    obtain ⟨thermal, power⟩ := s.setThermalCap_power (min 7 (s.power.thermalCap + 1)) die
    exact ⟨thermal, power, fr⟩
  case cool =>
    intro ck
    refine completes_frame (exec_thermalCoolTimer ck)
      (fun p n => Part.same_trans (cooler_parts s p n) (power_parts _ _ p n)) fun t hs fr => ?_
    have pw : t.power = _ := hs .power
    rw [pw]
    exact ⟨s.cooler_power.1, rfl, s.cooler_power.2, fr⟩
  case compare =>
    intro step mean hm
    refine completes_frame (exec_powerComparison (clocked_of_stepNo step) step hm) (compared_parts s mean) fun t hs fr => ?_
    have pw : t.power = (s.compared mean).power := hs .power
    rw [pw]
    obtain ⟨measured, peak, thermal⟩ := s.compared_reading mean
    refine ⟨measured, peak, thermal, fun above => ?_, fun within low ten => ?_, fun within low few => ?_, fun within high => ?_, fr⟩
    · rw [State.compared, if_pos above]
      obtain ⟨cap, -, -, -, runs⟩ := (s.powerRead mean 0).setPowerCap_power (min 7 (s.power.powerCap + 1))
      exact ⟨cap, runs⟩
    · rw [State.compared, if_neg (by omega), if_pos low, if_pos ten]
      obtain ⟨cap, -, -, -, runs⟩ := (s.powerRead mean 0).setPowerCap_power (s.power.powerCap - 1)
      exact ⟨cap, runs⟩
    · rw [State.compared, if_neg (by omega), if_pos low, if_neg (by omega)]
      exact ⟨rfl, rfl⟩
    · rw [State.compared, if_neg (by omega), if_neg (by omega)]
      exact ⟨rfl, rfl⟩
  case overcurrent =>
    intro step
    refine completes_frame (act_pos _ (clocked_of_stepNo step) (decide_eq_true step)) (setPowerCap_parts s 7) fun t hs fr => ?_
    have pw : t.power = (s.setPowerCap 7).power := hs .power
    rw [pw]
    exact ⟨(s.setPowerCap_power 7).1, (s.setPowerCap_power 7).2.1, fr⟩

end Sys2Proof
end

section
/-!
What routing, sending and reporting leave of the fabric, and the die-to-die and fabric links: flits, ACK, NAK and credit
(11).
-/
namespace Sys2Proof.Machine

open Sys2Proof

/-! ## What routing leaves of the fabric -/

/-- The fabric without what routing moves: its ports, its local input, what waits for a live member, and the port noted on
tracker entries. -/
def Fabric.unrouted (b : Fabric) : Fabric := { b with ports := [], localIn := [], waiting := [], pathEmpty := [], track := [] }

@[simp] theorem State.pump_unrouted (s : State) (p : Nat) : (s.pump p).fab.unrouted = s.fab.unrouted := by
  unfold State.pump
  dsimp only
  split <;> rfl

@[simp] theorem State.enqueue_unrouted (s : State) (p lane : Nat) (k : Packet) : (s.enqueue p lane k).fab.unrouted = s.fab.unrouted :=
  State.pump_unrouted _ p

/-- A packet that waits for a live member: the waiting list and the record of an empty path are all that changes. -/
theorem State.route_unrouted (s : State) (lane : Nat) (k : Packet) (a : Option Nat) :
    (s.route lane k a).fab.unrouted = s.fab.unrouted := by
  unfold State.route
  dsimp only
  split
  · rfl
  · split
    · rw [State.enqueue_unrouted]
      split
      · split <;> rfl
      · split <;> rfl
    · split
      · rfl
      · simp [Fabric.unrouted]

@[simp] theorem State.send_unrouted (s : State) (k : Packet) : (s.send k).fab.unrouted = s.fab.unrouted := s.route_unrouted _ k none

@[simp] theorem State.ctl_unrouted (s : State) (kind arg dst : Nat) (e : Epoch) (payload : List Byte) :
    (s.ctl kind arg dst e payload).fab.unrouted = s.fab.unrouted := s.send_unrouted _

theorem foldl_unrouted {α : Type} (g : State → α → State) (h : ∀ s x, (g s x).fab.unrouted = s.fab.unrouted) (l : List α) (s : State) :
    (l.foldl g s).fab.unrouted = s.fab.unrouted := by
  induction l generalizing s with
  | nil => rfl
  | cons x xs ih => rw [List.foldl_cons, ih, h]

/-! ## Die-to-die links outlast a report -/

theorem Fabric.d2d_of_unrouted {b c : Fabric} (h : c.unrouted = b.unrouted) : c.d2d = b.d2d := congrArg (·.d2d) h

theorem foldl_d2d {α : Type} (g : State → α → State) (h : ∀ s x, (g s x).fab.d2d = s.fab.d2d) (l : List α) (s : State) :
    (l.foldl g s).fab.d2d = s.fab.d2d := by
  induction l generalizing s with
  | nil => rfl
  | cons x xs ih => rw [List.foldl_cons, ih, h]

theorem State.beginReset_d2d (s : State) (after : AfterReset) (keep : Bool) : (s.beginReset after keep).fab.d2d = s.fab.d2d := rfl

@[simp] theorem State.sendStrike_d2d (s : State) (reason : Nat) : (s.sendStrike reason).fab.d2d = s.fab.d2d :=
  Fabric.d2d_of_unrouted (foldl_unrouted _ (fun s _ => s.ctl_unrouted _ _ _ _ _) _ s)

@[simp] theorem State.strikeSelf_d2d (s : State) (reason : Nat) : (s.strikeSelf reason).fab.d2d = s.fab.d2d := by
  simp [State.strikeSelf, State.beginReset, State.stopAll]

@[simp] theorem State.strikeAll_d2d (s : State) (reason : Nat) : (s.strikeAll reason).fab.d2d = s.fab.d2d := by
  simp [State.strikeAll]

@[simp] theorem State.sendPitch_d2d (s : State) (ty reason rank off dst : Nat) (payload : List Byte) :
    (s.sendPitch ty reason rank off dst payload).fab.d2d = s.fab.d2d := Fabric.d2d_of_unrouted (s.ctl_unrouted _ _ _ _ _)

theorem State.pitchFail_d2d (s : State) (reason rank : Nat) : (s.pitchFail reason rank).fab.d2d = s.fab.d2d := by
  unfold State.pitchFail State.rootAbort
  dsimp only
  split
  · split
    · exact (State.strikeSelf_d2d _ _).trans (State.sendStrike_d2d _ _)
    · exact (State.beginReset_d2d _ _ _).trans (foldl_d2d _ (fun s r => s.sendPitch_d2d 7 0 0 0 r []) _ _)
  · simp

/-- A report at job level may strike the job and stop everything, but no die-to-die link changes. -/
theorem State.reportJob_d2d (s : State) (code source payload core reason : Nat) :
    (s.reportJob code source payload core reason).fab.d2d = s.fab.d2d := by
  unfold State.reportJob State.jobError
  split
  · simp [State.requestReset]
  · split
    · simp [State.pitchFail_d2d]
    · split <;> simp

/-! ## Die-to-die links (R265) -/

theorem State.d2d_putD2d_same (s : State) (a b : Nat) (l : D2dLink) : (s.putD2d a b l).d2d a b = l :=
  nget_nset_same _ _ _ _

/-- No two directions of links between the 20 dies share a key. -/
theorem State.d2d_putD2d_ne (s : State) {a b x y : Nat} (l : D2dLink) (_ : x < 20) (hy : y < 20) (hb : b < 20)
    (ne : (x, y) ≠ (a, b)) : (s.putD2d a b l).d2d x y = s.d2d x y := by
  refine nget_nset_ne _ _ _ fun e => ne ?_
  rw [Prod.mk.injEq]
  omega

theorem State.d2d_congr {s t : State} (h : t.fab.d2d = s.fab.d2d) (a b : Nat) : t.d2d a b = s.d2d a b := by
  rw [State.d2d, State.d2d, h]

theorem otherDirections_of {s t : State} {a b : Nat} {l : D2dLink} (h : t.fab.d2d = (s.putD2d a b l).fab.d2d)
    (exist : d2dExists a b = true) : OtherDirections a b s t := by
  intro x y hx hy ne
  have hb : b < 20 := by
    simp only [d2dExists, Bool.and_eq_true, decide_eq_true_eq] at exist
    exact exist.1.2
  rw [State.d2d_congr h, s.d2d_putD2d_ne l hx hy hb ne]

theorem putD2d_parts (s : State) (a b : Nat) (l : D2dLink) : ∀ p, p ∉ [Part.fab] → p.same s (s.putD2d a b l) := by
  intro p n
  cases p <;> simp_all [Part.same]

/-- A new output touches the output list alone. -/
theorem put_out_parts (s : State) (o : Output) : ∀ p, p ∉ [Part.out] → p.same s (s.put o) := by
  intro p n
  cases p <;> simp_all [Part.same]

/-- What a meaning has sent is sent, whatever NOTIFYs follow. -/
theorem mem_out_of {s t : State} {o : Output} (h : o ∈ s.out) (hs : Part.out.same s t) : o ∈ t.out := by
  obtain ⟨l, e, -⟩ := hs
  rw [e]
  exact List.mem_append_left l h

theorem mem_out_put (s : State) (o : Output) : o ∈ (s.put o).out := List.mem_append_right _ (List.mem_singleton.mpr rfl)

/-- D2D_FLIT_RECEIVE on a direction that has not failed. -/
theorem exec_d2dFlitReceive {s : State} {a b : Nat} (ck : s.clocked = true) (exist : d2dExists a b = true)
    (up : (s.d2d a b).failed = false) (num : Nat) (ok : Bool) :
    exec (.d2dFlitReceive a b num ok) s = finish s
      (if ok then
        if num = (s.d2d a b).rxNext then
          s.putD2d a b { s.d2d a b with rxNext := (s.d2d a b).rxNext + 1, rxHold := false, rxRun := 0, resend := none } else s
      else if (s.d2d a b).rxHold && num != (s.d2d a b).rxNext then s
      else if num = (s.d2d a b).rxNext then
        let l := { s.d2d a b with rxHold := true, rxRun := (s.d2d a b).rxRun + 1 }
        let t := (s.putD2d a b l).put (.d2dNak a b num)
        if s.dnat 0x4210 3 < (s.d2d a b).rxRun + 1 then t.d2dFail a b l l.rxRun else t
      else s) :=
  (only_pos _ exist).trans (act_pos _ ck (by simp [up]))

theorem exec_d2dNak {s : State} {a b : Nat} (ck : s.clocked = true) (exist : d2dExists a b = true)
    (up : (s.d2d a b).failed = false) {num : Nat} (few : ¬ s.dnat 0x4210 3 <
      if num = (s.d2d a b).nakNum ∧ 0 < (s.d2d a b).nakRun then (s.d2d a b).nakRun + 1 else 1) :
    exec (.d2dNak a b num) s = finish s (s.putD2d a b { s.d2d a b with
      nakNum := num, resend := some num
      nakRun := if num = (s.d2d a b).nakNum ∧ 0 < (s.d2d a b).nakRun then (s.d2d a b).nakRun + 1 else 1 }) := by
  refine (only_pos _ exist).trans ((act_pos _ ck (by simp [up])).trans ?_)
  rw [if_neg few]

end Sys2Proof.Machine

namespace Sys2Proof

open Machine

/-- Settles O17: a direction is put once, and only its failure reports. -/
theorem dieLinksKeepFlitsInOrder : Obligations.DieLinksKeepFlitsInOrder := by
  intro s a b ck exist up
  have recv := exec_d2dFlitReceive ck exist up
  refine ⟨?taken, ?held, ?other, ?fails, ?nak⟩
  case taken =>
    have e := recv (s.d2d a b).rxNext true
    rw [if_pos rfl, if_pos rfl] at e
    refine completes_frame e (putD2d_parts s a b _) fun t hs fr => ?_
    have d2d : t.fab.d2d = _ := congrArg Fabric.d2d (hs .fab)
    exact ⟨(State.d2d_congr d2d a b).trans (s.d2d_putD2d_same a b _), otherDirections_of d2d exist, fr⟩
  case held =>
    intro few
    have e := recv (s.d2d a b).rxNext false
    rw [if_neg (by simp), if_neg (by simp), if_pos rfl, if_neg (by omega)] at e
    refine completes_frame (l := [.fab, .out]) e (fun p n => ?_) fun t hs fr => ?_
    · exact Part.same_trans (putD2d_parts s a b _ p (by simp_all)) (put_out_parts _ _ p (by simp_all))
    · have d2d : t.fab.d2d = _ := congrArg Fabric.d2d (hs .fab)
      exact ⟨(State.d2d_congr d2d a b).trans (s.d2d_putD2d_same a b _), mem_out_of (mem_out_put _ _) (hs .out),
        otherDirections_of d2d exist, fr⟩
  case other =>
    intro num ok ne
    have e := recv num ok
    rw [if_neg ne, if_neg ne, ite_self, ite_self] at e
    exact completes_of e fun t hp hs => ⟨hp, hs⟩
  case fails =>
    intro many
    have e := recv (s.d2d a b).rxNext false
    rw [if_neg (by simp), if_neg (by simp), if_pos rfl, if_pos (by omega)] at e
    refine completes_of e fun t hp hs => ?_
    have d2d : t.fab.d2d = _ := (congrArg Fabric.d2d (hs .fab)).trans (State.reportJob_d2d _ _ _ _ _ _)
    rw [State.d2d_congr d2d, State.d2d_putD2d_same]
  case nak =>
    intro num few limit
    have e := exec_d2dNak ck exist up (num := num) (by split <;> omega)
    refine completes_frame e (putD2d_parts s a b _) fun t hs fr => ?_
    have d2d : t.fab.d2d = _ := congrArg Fabric.d2d (hs .fab)
    rw [State.d2d_congr d2d, State.d2d_putD2d_same]
    exact ⟨rfl, rfl, up, rfl, otherDirections_of d2d exist, fr⟩

end Sys2Proof
end

section
/-!
Link words of a fabric port: what pumping leaves of it, and a port that goes DOWN (R267 to R269, R273, R284).
-/
namespace Sys2Proof.Machine

open Sys2Proof

/-! ## Pumping one port -/

theorem ceilDiv_of_pos (a : Nat) {b : Nat} (h : 0 < b) : ceilDiv a b = (a + b - 1) / b := if_neg (Nat.ne_of_gt h)

theorem Packet.flits_pos (k : Packet) : 0 < k.flits := by
  rw [Packet.flits, ceilDiv_of_pos _ (by decide)]
  omega

@[simp] theorem Port.sample_keeps (q : Port) (n now : Nat) (k : Packet) (dir : Nat) : (q.sample n now k dir).acked = q.acked
    ∧ (q.sample n now k dir).txFlit = q.txFlit ∧ (q.sample n now k dir).replay = q.replay := by
  unfold Port.sample
  split
  · exact ⟨rfl, rfl, rfl⟩
  · dsimp only
    split <;> exact ⟨rfl, rfl, rfl⟩

/-- What sending adds: `acked` stays, the flit count does not go back, and the replay buffer grows at its end by codewords
not below the one that was in progress. -/
def Port.Grows (q r : Port) : Prop :=
  r.acked = q.acked ∧ q.txFlit ≤ r.txFlit ∧ ∃ l : List Sent, r.replay = q.replay ++ l ∧ ∀ e ∈ l, q.txFlit / 10 ≤ e.cw

theorem Port.Grows.refl (q : Port) : q.Grows q := ⟨rfl, Nat.le_refl _, [], by simp⟩

theorem Port.Grows.trans {q r u : Port} (h : q.Grows r) (k : r.Grows u) : q.Grows u := by
  obtain ⟨ha, hf, l, hr, hl⟩ := h
  obtain ⟨ka, kf, m, kr, km⟩ := k
  refine ⟨ka.trans ha, Nat.le_trans hf kf, l ++ m, by rw [kr, hr, List.append_assoc], fun e he => ?_⟩
  rcases List.mem_append.mp he with h1 | h1
  · exact hl e h1
  · exact Nat.le_trans (Nat.div_le_div_right hf) (km e h1)

theorem Port.transmit_grows (q : Port) (lane n now : Nat) : q.Grows (q.transmit lane n now) := by
  unfold Port.transmit
  split
  · exact .refl q
  · next k _ _ =>
    have pos := k.flits_pos
    refine ⟨by simp, by simp, [⟨(q.txFlit + k.flits - 1) / 10, lane, k⟩], by simp, fun e he => ?_⟩
    rw [List.mem_singleton.mp he]
    exact Nat.div_le_div_right (by omega)

theorem Port.pumpLoop_grows (share n now fuel : Nat) (q : Port) : q.Grows (Port.pumpLoop share n now fuel q) := by
  induction fuel generalizing q with
  | zero => exact .refl q
  | succ fuel ih =>
    rw [Port.pumpLoop]
    split
    · exact .refl q
    · split
      · exact .refl q
      · exact (q.transmit_grows _ n now).trans (ih _)

theorem Port.pump_grows (q : Port) (share n now : Nat) : q.Grows (q.pump share n now) := by
  obtain ⟨ha, hf, hr⟩ := Port.pumpLoop_grows share n now (q.lanes.map List.length).sum q
  refine ⟨ha, Nat.le_trans hf ?_, hr⟩
  rw [Port.pump, roundUp, ceilDiv_of_pos _ (by decide)]
  dsimp only
  omega

theorem State.fport_of_ports {s t : State} (h : t.fab.ports = s.fab.ports) (p : Nat) : t.fport p = s.fport p := by
  rw [State.fport, State.fport, h]

/-- Pumping puts the pumped port, where it is UP. -/
theorem State.pump_ports (s : State) {p : Nat} (h : (s.fport p).st = .up) : (s.pump p).fab.ports
    = (s.modPort p fun _ => (s.fport p).pump (s.dnat 0x8030 2) (s.dnat 0x4210 6) s.now).fab.ports := by
  unfold State.pump
  dsimp only
  rw [if_neg (by simp [h])]
  rfl

theorem State.pump_not_up (s : State) {p : Nat} (h : (s.fport p).st ≠ .up) : s.pump p = s := if_pos (by simp [h])

/-- Pumping touches its own port alone. -/
theorem State.fport_pump_ne (s : State) {p q : Nat} (h : q ≠ p) : (s.pump p).fport q = s.fport q := by
  by_cases up : (s.fport p).st = .up
  · rw [State.fport_of_ports (s.pump_ports up), State.fport_modPort, if_neg h]
  · rw [s.pump_not_up up]

theorem State.fport_pump_up (s : State) {p : Nat} (h : (s.fport p).st = .up) :
    (s.pump p).fport p = (s.fport p).pump (s.dnat 0x8030 2) (s.dnat 0x4210 6) s.now := by
  rw [State.fport_of_ports (s.pump_ports h), State.fport_modPort, if_pos rfl]

theorem State.pump_grows (s : State) {p : Nat} (h : (s.fport p).st = .up) : (s.fport p).Grows ((s.pump p).fport p) := by
  rw [s.fport_pump_up h]
  exact Port.pump_grows _ _ _ _

/-- A port with nothing queued pumps nothing. -/
theorem Port.pump_idle {q : Port} (h : q.lanes = List.replicate 8 []) (k : q.txFlit % 10 = 0) (share n now : Nat) :
    q.pump share n now = q := by
  have r : roundUp q.txFlit 10 = q.txFlit := by
    rw [roundUp, ceilDiv_of_pos _ (by decide)]
    omega
  have none : Port.pumpLoop share n now (q.lanes.map List.length).sum q = q := by simp [h, Port.pumpLoop]
  rw [Port.pump, none, r]

theorem modPort_parts (s : State) (p : Nat) (f : Port → Port) : ∀ q, q ∉ [Part.fab] → q.same s (s.modPort p f) := by
  intro q n
  cases q <;> simp_all [Part.same]

theorem pump_parts (s : State) (p : Nat) : ∀ q, q ∉ [Part.fab] → q.same s (s.pump p) := by
  intro q n
  cases q <;> simp_all [Part.same]

/-! ## A port that is not live takes no packet -/

theorem State.fport_enqueue_ne (s : State) {p q : Nat} (h : q ≠ p) (lane : Nat) (k : Packet) :
    (s.enqueue p lane k).fport q = s.fport q :=
  (State.fport_pump_ne _ h).trans ((s.fport_modPort p q _).trans (if_neg h))

/-- What R279 chooses is live. -/
theorem choosePort_live {s : State} {ps key tc i p : Nat} {up : Bool} (h : choosePort s ps key tc = some (i, p, up)) :
    s.portLive p = true := by
  have m : (i, p, up) ∈ (psMembers ps).filter (fun m => s.portLive m.2.1) := by
    unfold choosePort at h
    dsimp only at h
    split at h
    · exact List.mem_of_mem_head? h
    · exact List.mem_of_getElem? h
  exact (List.mem_filter.mp m).2

theorem State.taken_fport (s : State) (q : Nat) : s.taken.fport q = s.fport q := rfl

/-- Routing leaves a port alone that is not UP. -/
theorem State.fport_route (s : State) (lane : Nat) (k : Packet) (a : Option Nat) {q : Nat} (h : (s.fport q).st ≠ .up) :
    (s.route lane k a).fport q = s.fport q := by
  unfold State.route
  dsimp only
  split
  · rfl
  · split
    · next i p up e =>
      have ne : q ≠ p := by
        rintro rfl
        have live := choosePort_live e
        rw [State.portLive, Bool.and_eq_true, beq_iff_eq] at live
        exact h live.1
      rw [State.fport_enqueue_ne _ ne]
      exact State.fport_of_ports (by repeat' split
                                     all_goals rfl) q
    · split
      · rfl
      · exact State.fport_of_ports (by simp) q

theorem State.fport_foldl_route (l : List (Nat × Packet)) (s : State) {q : Nat} (h : (s.fport q).st ≠ .up) :
    (l.foldl (fun s e => s.route e.1 e.2 none) s).fport q = s.fport q := by
  induction l generalizing s with
  | nil => rfl
  | cons e es ih =>
    have r := s.fport_route e.1 e.2 none h
    rw [List.foldl_cons, ih _ (by rw [r]; exact h), r]

/-- A port that has given back its replay buffer and its lanes. -/
def Port.emptied (q : Port) : Port := { q with replay := [], lanes := List.replicate 8 [] }

/-- A port that goes DOWN gives back its replay buffer and its lanes. -/
theorem State.fport_failover (s : State) {p : Nat} (h : (s.fport p).st ≠ .up) : (s.failover p).fport p = (s.fport p).emptied := by
  have given : ∀ t : State, t.fab.ports = (s.modPort p Port.emptied).fab.ports → t.fport p = (s.fport p).emptied := by
    intro t ht
    rw [State.fport_of_ports ht, State.fport_modPort, if_pos rfl]
  have routed : ∀ (t : State) (l : List (Nat × Packet)), t.fport p = (s.fport p).emptied →
      (l.foldl (fun s e => s.route e.1 e.2 none) t).fport p = (s.fport p).emptied := by
    intro t l ht
    rw [State.fport_foldl_route l t (by rw [ht]; exact h), ht]
  exact routed _ _ (given _ rfl)

theorem State.fport_portDown (s : State) (p cause : Nat) :
    ((s.portDown p cause).fport p).st = .down ∧ ((s.portDown p cause).fport p).replay = [] := by
  have down : ∀ (t : State) (f : Port → Port), (∀ q, (f q).st = .down) →
      (((t.modPort p f).failover p).fport p).st = .down ∧ (((t.modPort p f).failover p).fport p).replay = [] := by
    intro t f hf
    have st : ((t.modPort p f).fport p).st = .down := by
      rw [t.fport_modPort, if_pos rfl]
      exact hf _
    rw [State.fport_failover _ (by rw [st]; simp)]
    exact ⟨st, rfl⟩
  exact down _ _ (fun _ => rfl)

theorem portDown_parts (s : State) (p cause : Nat) : ∀ q, q ∉ [Part.fab, Part.recorder] → q.same s (s.portDown p cause) := by
  intro q n
  cases q <;> simp_all [Part.same]

/-- A change of a port that stays UP, and a pump: the port grows from the changed one and no other port changes. -/
theorem State.modPort_pump (s : State) (p : Nat) (f : Port → Port) (h : (f (s.fport p)).st = .up) :
    (f (s.fport p)).Grows (((s.modPort p f).pump p).fport p) ∧ OtherPorts p s ((s.modPort p f).pump p) := by
  have own : (s.modPort p f).fport p = f (s.fport p) := (s.fport_modPort p p f).trans (if_pos rfl)
  refine ⟨?_, fun q ne => ?_⟩
  · rw [← own]
    exact State.pump_grows _ (by rw [own, h])
  · rw [State.fport_pump_ne _ ne, State.fport_modPort, if_neg ne]

theorem otherPorts_congr {p : Nat} {s u t : State} (h : OtherPorts p s u) (k : t.fab = u.fab) : OtherPorts p s t :=
  fun q ne => (State.fport_congr k q).trans (h q ne)

/-! ## The three link words -/

/-- A port whose codewords below `n` are acknowledged. -/
def Port.freed (n : Nat) (q : Port) : Port :=
  { q with acked := n, replay := q.replay.filter (fun e => n ≤ e.cw), nakRun := if q.nakCw < n then 0 else q.nakRun }

theorem exec_linkAck {s : State} {p : Nat} (ck : s.clocked = true) (hp : p < 24) (up : (s.fport p).st = .up) {num : Nat}
    (le : running (s.fport p).acked (num % 4096 + 1) ≤ (s.fport p).txFlit / 10) : exec (.linkAck p num) s
      = finish s ((s.modPort p (Port.freed (running (s.fport p).acked (num % 4096 + 1)))).pump p) :=
  (only_pos _ (decide_eq_true hp)).trans ((act_pos _ ck (by simp [up])).trans (congrArg (finish s) (if_pos le)))

theorem exec_linkNak {s : State} {p : Nat} (ck : s.clocked = true) (hp : p < 24) (up : (s.fport p).st = .up) (num : Nat) :
    exec (.linkNak p num) s = finish s (s.linkNak p (num % 4096)) :=
  (only_pos _ (decide_eq_true hp)).trans (act_pos _ ck (by simp [up]))

theorem exec_linkCredit {s : State} {p lane : Nat} (ck : s.clocked = true) (hp : p < 24) (hl : lane < 8) (up : (s.fport p).st = .up)
    (flits : Nat) : exec (.linkCredit p lane flits) s = finish s (s.linkCredit p lane flits) :=
  (only_pos _ (by simp [hp, hl])).trans (act_pos _ ck (by simp [up]))

end Sys2Proof.Machine

namespace Sys2Proof

open Machine

/-- Settles O20: each word changes its own port and pumps it; pumping only appends to the replay buffer, and a port that
goes DOWN has given its replay buffer back before anything is routed again. -/
theorem linkWordsFreeResendAndGiveCredit : Obligations.LinkWordsFreeResendAndGiveCredit := by
  intro s p ck hp up
  refine ⟨?ack, ?nak, ?down, ?credit⟩
  case ack =>
    intro num le
    have e := exec_linkAck ck hp up le
    refine completes_frame (l := [.fab]) e
      (fun q n => Part.same_trans (modPort_parts s p _ q n) (pump_parts _ p q n)) fun t hs fr => ?_
    obtain ⟨⟨acked, -, l, replay, new⟩, other⟩ := State.modPort_pump s p (Port.freed (running (s.fport p).acked (num % 4096 + 1))) up
    rw [State.fport_congr (hs .fab)]
    refine ⟨acked, fun e he => ?_, fun e he ge => ?_, otherPorts_congr other (hs .fab), fr⟩
    · rw [replay] at he
      rcases List.mem_append.mp he with old | new'
      · exact of_decide_eq_true (List.mem_filter.mp old).2
      · exact Nat.le_trans le (new e new')
    · rw [replay]
      exact List.mem_append_left l (List.mem_filter.mpr ⟨he, decide_eq_true ge⟩)
  case nak =>
    intro num lt few pos
    have e := exec_linkNak ck hp up num
    rw [State.linkNak] at e
    extract_lets run w at e
    rw [if_pos lt] at e
    have within : ¬ w.dnat 0x4210 2 < run := by
      have same : w.dnat 0x4210 2 = s.dnat 0x4210 2 := rfl
      have := few
      simp only [same, run]
      split <;> omega
    rw [if_neg within] at e
    refine completes_frame (l := [.fab, .out]) e (fun q h =>
      Part.same_trans (modPort_parts s p _ q (by simp_all)) (put_out_parts _ _ q (by simp_all))) fun t hs fr => ?_
    have fab : t.fab = w.fab := hs .fab
    have own : t.fport p = _ := (State.fport_congr fab p).trans ((s.fport_modPort p p _).trans (if_pos rfl))
    rw [own]
    refine ⟨rfl, rfl, rfl, up, mem_out_of (mem_out_put _ _) (hs .out), fun q ne => ?_, ?_, fr⟩
    · rw [State.fport_congr fab, s.fport_modPort, if_neg ne]
    · rw [PortsOnly, fab]
      rfl
  case down =>
    intro num lt same run many
    have e := exec_linkNak ck hp up num
    rw [State.linkNak] at e
    extract_lets run' w at e
    rw [if_pos lt] at e
    have beyond : w.dnat 0x4210 2 < run' := by
      have same' : w.dnat 0x4210 2 = s.dnat 0x4210 2 := rfl
      simp only [same', run']
      rw [if_pos ⟨same, run⟩]
      omega
    rw [if_pos beyond] at e
    refine completes_frame (l := [.fab, .recorder]) e
      (fun q h => Part.same_trans (modPort_parts s p _ q (by simp_all)) (portDown_parts _ p _ q h)) fun t hs fr => ?_
    rw [State.fport_congr (hs .fab)]
    obtain ⟨st, replay⟩ := State.fport_portDown w p 1
    exact ⟨st, replay, fr⟩
  case credit =>
    intro lane flits hl idle whole
    have e := exec_linkCredit ck hp hl up flits
    refine completes_frame (l := [.fab]) e
      (fun q n => Part.same_trans (modPort_parts s p _ q n) (pump_parts _ p q n)) fun t hs fr => ?_
    have own : t.fport p = { s.fport p with
        credit := setAt (s.fport p).credit lane (min (laneCredit.getD lane 0) ((s.fport p).credit.getD lane 0 + flits)) } := by
      rw [State.fport_congr (hs .fab), State.linkCredit, State.fport_pump_up, State.fport_modPort, if_pos rfl]
      · refine Port.pump_idle ?_ ?_ _ _ _
        · exact idle
        · exact whole
      · rw [State.fport_modPort, if_pos rfl]
        exact up
    refine ⟨by rw [own]; rfl, by rw [own], ?_, fr⟩
    exact otherPorts_congr (State.modPort_pump s p _ (up : (_ : Port).st = .up)).2 (hs .fab)

end Sys2Proof
end

section
/-!
One step, and the state after reset (13.1, log entries 1, 2, 5 and 6).
-/
namespace Sys2Proof.Machine

open Sys2Proof

/-! ## What a tick leaves of the queue and of Ridgepole -/

/-- Ridgepole in a cycle without a slew to make (R301). -/
theorem RpSt.now_cycle {r : RpSt} (h : r.slew = 0) : r.cycle.now = r.now + 256 := by
  simp [RpSt.cycle, h]

@[simp] theorem State.event_pending (s : State) (code source payload : Nat) : (s.event code source payload).pending = s.pending := by
  unfold State.event
  dsimp only
  repeat' split
  all_goals rfl

theorem State.pump_pending (s : State) (p : Nat) : (s.pump p).pending = s.pending := by
  unfold State.pump
  dsimp only
  split <;> rfl

@[simp] theorem State.enqueue_pending (s : State) (p lane : Nat) (k : Packet) : (s.enqueue p lane k).pending = s.pending :=
  State.pump_pending _ p

@[simp] theorem State.route_pending (s : State) (lane : Nat) (k : Packet) (a : Option Nat) : (s.route lane k a).pending = s.pending := by
  unfold State.route
  dsimp only
  split
  · rfl
  · split
    · rw [State.enqueue_pending, apply_ite State.pending, (s.taken_keeps).1, ite_self]
    · split <;> simp

@[simp] theorem State.inject_pending (s : State) (gd : Nat) (k : Packet) (o : Owner) : (s.inject gd k o).pending = s.pending :=
  State.route_pending _ _ _ _

@[simp] theorem State.countMem_pending (s : State) (a len : Nat) (w : Bool) : (s.countMem a len w).pending = s.pending := by
  unfold State.countMem
  split <;> rfl

theorem State.drainTick_pending (s : State) : s.drainTick.pending = s.pending := by
  unfold State.drainTick
  dsimp only
  (repeat' split) <;> simp

theorem State.giveTick_pending (s : State) : s.giveTick.pending = s.pending := by
  unfold State.giveTick
  (repeat' split) <;> simp

theorem State.drainTick_rp (s : State) : s.drainTick.rp = s.rp := by
  unfold State.drainTick
  dsimp only
  (repeat' split) <;> simp

/-- Members of a gang that take positions change neither the queue nor Ridgepole. -/
theorem foldl_takePosition_rp (f : Core → Option Core) (l : List Nat) (s : State) :
    (l.foldl (State.takePosition f) s).rp = s.rp ∧ (l.foldl (State.takePosition f) s).pending = s.pending := by
  induction l generalizing s with
  | nil => exact ⟨rfl, rfl⟩
  | cons c cs ih =>
    obtain ⟨h1, h2⟩ := ih (State.takePosition f s c)
    rw [List.foldl_cons, h1, h2, State.takePosition]
    split <;> exact ⟨rfl, rfl⟩

theorem State.lockstep_rp (s : State) (c : Nat) (f : Core → Option Core) :
    (s.lockstep c f).rp = s.rp ∧ (s.lockstep c f).pending = s.pending := by
  unfold State.lockstep
  dsimp only
  split
  · exact foldl_takePosition_rp f _ s
  · exact ⟨rfl, rfl⟩

theorem foldl_lockstep_rp (l : List Nat) (s : State) :
    (l.foldl (fun s c => if (s.gangOf c).head? = some c then s.lockstep c Core.dispatch else s) s).rp = s.rp
    ∧ (l.foldl (fun s c => if (s.gangOf c).head? = some c then s.lockstep c Core.dispatch else s) s).pending = s.pending := by
  induction l generalizing s with
  | nil => exact ⟨rfl, rfl⟩
  | cons c cs ih =>
    rw [List.foldl_cons, (ih _).1, (ih _).2]
    split
    · exact s.lockstep_rp c _
    · exact ⟨rfl, rfl⟩

theorem tick_clocked {s : State} (h : s.clocked = true) : (tick s).rp = s.rp.cycle ∧ (tick s).pending = s.pending := by
  unfold tick
  rw [if_neg (by simp [h])]
  exact foldl_lockstep_rp (s.cores.map Prod.fst) { s with rp := s.rp.cycle, cores := nall {} Core.starveCycle s.cores }

theorem tick_stopped {s : State} (h : s.clocked = false) : tick s = s := if_pos (by simp [h])

theorem tick_pending (s : State) : (tick s).pending = s.pending := by
  cases h : s.clocked with
  | false => rw [tick_stopped h]
  | true => exact (tick_clocked h).2

/-- Without a reset due an empty queue lets the clock tick, and a drain and a restore go on. -/
theorem idle_without_reset {s : State} (h : s.start.resetDue = none) : idle s = (tick s).drainTick.giveTick := by
  rw [idle, h]

theorem idle_pending (s : State) : (idle s).pending = s.pending := by
  unfold idle
  split
  · exact tick_pending s
  · rw [State.giveTick_pending, State.drainTick_pending, tick_pending]

theorem idle_rp {s : State} (h : s.start.resetDue = none) : (idle s).rp = (tick s).rp := by
  rw [idle_without_reset h, (State.giveTick_keeps _).2.2.2.2.2.2.2.2.2.2.2.2.2.2.2.2.2.1, State.drainTick_rp]

end Sys2Proof.Machine

namespace Sys2Proof

open Machine

/-- Settles O1: `step` on a queue with a front is `exec` by its definition. -/
theorem stepRunsTheFrontCommand : Obligations.StepRunsTheFrontCommand := fun _ _ _ => rfl

/-- Settles O2: of a tick only `RpSt.cycle` touches Ridgepole, and nothing touches the queue. -/
theorem emptyQueueLetsATickPass : Obligations.EmptyQueueLetsATickPass := by
  intro s empty
  have e : step s = .next (idle s) := by rw [step, empty]
  refine ⟨idle s, e, (idle_pending s).trans empty, fun due ck slew => ?_, fun due ck => ?_⟩
  · rw [idle_rp due, (tick_clocked ck).1, RpSt.now_cycle slew]
  · rw [idle_rp due, tick_stopped ck]

/-- Settles O6: the state after reset lists no unit, so that each reads its default. -/
theorem resetLeavesWhatTheSpecStates : Obligations.ResetLeavesWhatTheSpecStates := by
  have counters : ∀ i : Nat, (({} : Core).ctr.toList).getD i 0 = 0 := by
    intro i
    by_cases h : i < 8
    · exact (by decide : ∀ j : Nat, j < 8 → (({} : Core).ctr.toList).getD j 0 = 0) i h
    · rw [List.getD_eq_getElem?_getD, List.getElem?_eq_none (by simpa using h)]
      rfl
  have port : ∀ p, (State.reset.hp p).inPerst = true ∧ (State.reset.hp p).link = .down := by
    intro p
    unfold State.hp
    split <;> exact ⟨rfl, rfl⟩
  exact ⟨rfl, rfl, fun _ => ⟨rfl, rfl, counters, fun _ => rfl, rfl, rfl, rfl⟩, fun _ => rfl, fun _ => rfl, fun _ => ⟨rfl, rfl⟩, rfl,
    port, rfl, rfl, rfl, rfl, rfl, rfl, rfl, rfl⟩

/-- Settles O8. -/
theorem resetMemoryIsCanonical : Obligations.ResetMemoryIsCanonical := ⟨rfl, rfl⟩

end Sys2Proof
end

section
/-!
Gangs, and what their sequencers do at one position: WAIT, WAITFLAG, the tally unit, REPEAT, STEPEND and SWAP (3.1).
-/
namespace Sys2Proof.Machine

open Sys2Proof

/-! ## Gangs -/

theorem nodup_bitCores (m base : Nat) : (((List.range 32).filter (fun n => bitAt n m)).map (fun n => base + n)).Nodup :=
  List.Pairwise.map _ (fun _ _ ne e => ne (Nat.add_left_cancel e)) (List.nodup_range.filter _)

theorem mem_bitCores {m base x : Nat} (h : x ∈ ((List.range 32).filter (fun n => bitAt n m)).map (fun n => base + n)) :
    base ≤ x ∧ x < base + 32 := by
  obtain ⟨n, hn, rfl⟩ := List.mem_map.mp h
  have := List.mem_range.mp (List.mem_filter.mp hn).1
  omega

/-- A gang entry lists no core twice: each die lists its own 32. -/
theorem gangCores_nodup (im : Image) (g : Gang) : (gangCores im g).Nodup := by
  unfold gangCores
  split
  · exact nodup_bitCores _ _
  · refine List.pairwise_flatMap.mpr ⟨fun d _ => ?_, ?_⟩
    · split
      · exact nodup_bitCores _ _
      · exact List.nodup_nil
    · refine ((List.nodup_range (n := 8)).filter _).imp ?_
      rintro a b ne x ha _ hb rfl
      split at ha <;> split at hb
      · have := mem_bitCores ha
        have := mem_bitCores hb
        omega
      all_goals simp_all

/-- Gangs are without duplicates, and each core is of its own. -/
theorem State.gangOf_spec (s : State) (c : Nat) : (s.gangOf c).Nodup ∧ c ∈ s.gangOf c := by
  unfold State.gangOf
  split
  · exact ⟨List.pairwise_singleton _ c, List.mem_singleton_self c⟩
  · next im _ =>
    dsimp only
    split
    · next g h =>
      refine ⟨?_, by simpa using List.find?_some h⟩
      have m := List.mem_of_find?_eq_some h
      have entry : g ∈ (im.gangs.filter (fun g => g.lo ≤ s.job.rank && s.job.rank ≤ g.hi)).map (fun g => (g, gangCores im g)) := by
        rcases List.mem_append.mp m with m | m
        · exact (List.mem_filter.mp m).1
        · exact m
      obtain ⟨e, -, rfl⟩ := List.mem_map.mp entry
      exact gangCores_nodup im e
    · exact ⟨List.pairwise_singleton _ c, List.mem_singleton_self c⟩

theorem State.gangOf_nodup (s : State) (c : Nat) : (s.gangOf c).Nodup := (s.gangOf_spec c).1

theorem State.mem_gangOf (s : State) (c : Nat) : c ∈ s.gangOf c := (s.gangOf_spec c).2

/-- A fold over different cores that changes one core at a time by `F`. -/
theorem foldl_core {g : State → Nat → State} {F : Core → Core}
    (h : ∀ s c d, (g s c).core d = if d = c then F (s.core c) else s.core d) {l : List Nat} (n : l.Nodup) (s : State) (d : Nat) :
    (l.foldl g s).core d = if d ∈ l then F (s.core d) else s.core d := by
  induction l generalizing s with
  | nil => rfl
  | cons c cs ih =>
    obtain ⟨nc, ncs⟩ := List.nodup_cons.mp n
    rw [List.foldl_cons, ih ncs, h]
    by_cases e : d = c
    · subst e
      simp [nc]
    · simp [e]

/-- Taking a position: the core goes on where it can. -/
theorem State.core_takePosition (f : Core → Option Core) (s : State) (c d : Nat) :
    (State.takePosition f s c).core d = if d = c then (f (s.core c)).getD (s.core c) else s.core d := by
  unfold State.takePosition
  split
  · next k e => rw [State.core_putCore, e]; rfl
  · next e =>
    rw [e]
    split
    · next h => rw [h]; rfl
    · rfl

/-- A gang of which each member can take its position takes it. -/
theorem State.core_lockstep {s : State} {c : Nat} {f : Core → Option Core} {F : Core → Core}
    (h : ∀ d ∈ s.gangOf c, f (s.core d) = some (F (s.core d))) (d : Nat) :
    (s.lockstep c f).core d = if d ∈ s.gangOf c then F (s.core d) else s.core d := by
  have all : (s.gangOf c).all (fun d => (f (s.core d)).isSome) = true := by
    rw [List.all_eq_true]
    intro d hd
    rw [h d hd]
    rfl
  unfold State.lockstep
  dsimp only
  rw [if_pos all, foldl_core (F := fun k => (f k).getD k) (State.core_takePosition f) (s.gangOf_nodup c)]
  split
  · next hd => rw [h d hd]; rfl
  · rfl

theorem lockstep_parts (s : State) (c : Nat) (f : Core → Option Core) : ∀ p, p ∉ [Part.cores] → p.same s (s.lockstep c f) := by
  intro p n
  cases p <;> simp_all [Part.same]

theorem modCore_parts (s : State) (c : Nat) (f : Core → Core) : ∀ p, p ∉ [Part.cores] → p.same s (s.modCore c f) := by
  intro p n
  cases p <;> simp_all [Part.same]

/-! ## Settling -/

/-- What ends neither a step nor a role settles nothing; what does, settles with its vestibule and latch empty. -/
def Core.calm (k : Core) : Prop := k.going ∨ (k.queuesEmpty = true → k.drained)

theorem Core.calm_of_run {k : Core} (h : k.seq = .run) : k.calm := Or.inl ⟨by simp [h], by simp [h]⟩

/-- Settling a calm core at most takes its snapshot at step end. -/
theorem State.settle_calm {s : State} {c : Nat} (h : (s.core c).calm) :
    s.settle c = if (s.core c).seq = .ended ∧ (s.core c).queuesEmpty = true then s.snapshot .core c else s := by
  have empty : (s.core c).seq = .ended ∨ (∃ r, (s.core c).seq = .swapping r) → (s.core c).queuesEmpty = true →
      (s.core c).vest = [] ∧ (s.core c).latch = [] := by
    intro e q
    rcases h with ⟨ne, nw⟩ | h
    · rcases e with e | ⟨r, e⟩
      · exact absurd e ne
      · exact absurd e (nw r)
    · exact (h q).2
  unfold State.settle
  by_cases q : (s.core c).queuesEmpty = true
  · cases e : (s.core c).seq with
    | ended =>
      obtain ⟨v, l⟩ := empty (.inl e) q
      simp [q, v, l, e]
    | swapping r =>
      obtain ⟨v, l⟩ := empty (.inr ⟨r, e⟩) q
      simp [q, v, l, e]
    | _ => simp [e]
  · simp [q]

theorem State.settle_same {s : State} {c : Nat} (h : (s.core c).calm) (e : (s.core c).seq ≠ .ended) : s.settle c = s := by
  rw [State.settle_calm h, if_neg fun k => e k.1]

theorem snapshot_parts (s : State) (k : DictSnap) (unit : Nat) : ∀ p, p ∉ [Part.snaps] → p.same s (s.snapshot k unit) := by
  intro p n
  cases p
  case out => exact ⟨[], (List.append_nil _).symm, rfl⟩
  all_goals simp_all [Part.same]

theorem settle_parts {s : State} {c : Nat} (h : (s.core c).calm) : ∀ p, p ∉ [Part.snaps] → p.same s (s.settle c) := by
  intro p n
  rw [State.settle_calm h]
  split
  · exact snapshot_parts s _ _ p n
  · exact p.same_refl s

theorem foldl_settle_parts (l : List Nat) {s : State} (h : ∀ d ∈ l, (s.core d).calm) :
    ∀ p, p ∉ [Part.snaps] → p.same s (l.foldl State.settle s) := by
  induction l generalizing s with
  | nil => exact fun p _ => p.same_refl s
  | cons c cs ih =>
    intro p n
    have first := settle_parts (h c List.mem_cons_self)
    refine Part.same_trans (first p n) (ih (fun d hd => ?_) p n)
    rw [State.core_congr (first .cores (by simp))]
    exact h d (List.mem_cons_of_mem c hd)

theorem foldl_settle_same (l : List Nat) {s : State} (h : ∀ d ∈ l, (s.core d).calm ∧ (s.core d).seq ≠ .ended) :
    l.foldl State.settle s = s := by
  induction l with
  | nil => rfl
  | cons c cs ih =>
    obtain ⟨calm, ne⟩ := h c List.mem_cons_self
    rw [List.foldl_cons, State.settle_same calm ne]
    exact ih fun d hd => h d (List.mem_cons_of_mem c hd)

/-! ## A position -/

/-- A position that each member can take, and after which each is calm: all members take it, and at step end they may take
their snapshots. -/
theorem position_spec {s : State} {c : Nat} {f : Core → Option Core} {F : Core → Core} {wait : Core → Core}
    (h : ∀ d ∈ s.gangOf c, f (s.core d) = some (F (s.core d)) ∧ (F (s.core d)).calm) :
    GangOnly c F s (s.position c f wait) ∧ (∀ p, p ∉ [Part.cores, Part.snaps] → p.same s (s.position c f wait))
    ∧ ((∀ d ∈ s.gangOf c, (F (s.core d)).seq ≠ .ended) → Part.snaps.same s (s.position c f wait)) := by
  have all : (s.gangOf c).all (fun d => (f (s.core d)).isSome) = true := by
    rw [List.all_eq_true]
    intro d hd
    rw [(h d hd).1]
    rfl
  have e : s.position c f wait = (s.gangOf c).foldl State.settle (s.lockstep c f) := if_pos all
  have core := State.core_lockstep (fun d hd => (h d hd).1)
  have moved : ∀ d ∈ s.gangOf c, (s.lockstep c f).core d = F (s.core d) := fun d hd => (core d).trans (if_pos hd)
  have calm : ∀ d ∈ s.gangOf c, ((s.lockstep c f).core d).calm := fun d hd => by
    rw [moved d hd]
    exact (h d hd).2
  have settled := foldl_settle_parts (s.gangOf c) calm
  rw [e]
  refine ⟨⟨fun d hd => ?_, fun d hd => ?_⟩, fun p n => ?_, fun ne => ?_⟩
  · rw [State.core_congr (settled .cores (by simp)), moved d hd]
  · rw [State.core_congr (settled .cores (by simp)), core, if_neg hd]
  · exact Part.same_trans (lockstep_parts s c f p (by simp_all)) (settled p (by simp_all))
  · rw [foldl_settle_same _ fun d hd => ⟨calm d hd, by rw [moved d hd]; exact ne d hd⟩]
    exact lockstep_parts s c f .snaps (by simp)

theorem gangOnly_congr {c : Nat} {F : Core → Core} {s u t : State} (h : GangOnly c F s u) (k : t.cores = u.cores) : GangOnly c F s t :=
  ⟨fun d hd => (State.core_congr k d).trans (h.1 d hd), fun d hd => (State.core_congr k d).trans (h.2 d hd)⟩

/-- A command that every member of the gang takes, and that leaves each calm before step end. -/
theorem completes_position {i : Instr} {s : State} {c : Nat} {f : Core → Option Core} {wait : Core → Core}
    (e : exec i s = finish s (s.position c f wait)) (F : Core → Core)
    (h : ∀ d ∈ s.gangOf c, f (s.core d) = some (F (s.core d)) ∧ (F (s.core d)).calm ∧ (F (s.core d)).seq ≠ .ended) :
    Completes i s (fun t => GangOnly c F s t ∧ Frame [.cores] s t) := by
  obtain ⟨gang, parts, snaps⟩ := position_spec (wait := wait) (fun d hd => ⟨(h d hd).1, (h d hd).2.1⟩)
  have snaps := snaps fun d hd => (h d hd).2.2
  refine completes_frame (l := [.cores]) e (fun p n => ?_) fun t hs fr => ⟨gangOnly_congr gang (hs .cores), fr⟩
  by_cases k : p = .snaps
  · rw [k]
    exact snaps
  · exact parts p (by simp_all)

/-- A position that a member cannot take: the core that reached it holds. -/
theorem completes_position_wait {i : Instr} {s : State} {c : Nat} {f : Core → Option Core} {wait : Core → Core}
    (e : exec i s = finish s (s.position c f wait)) (h : ∃ d ∈ s.gangOf c, f (s.core d) = none) :
    Completes i s (fun t => t.core c = wait (s.core c) ∧ OtherCores c s t ∧ Frame [.cores] s t) := by
  obtain ⟨d, hd, none⟩ := h
  have not : ¬ (s.gangOf c).all (fun d => (f (s.core d)).isSome) = true := by
    rw [List.all_eq_true]
    intro all
    have := all d hd
    rw [none] at this
    cases this
  have e' : s.position c f wait = s.modCore c wait := if_neg not
  refine completes_frame (l := [.cores]) (e.trans (congrArg _ e')) (modCore_parts s c wait) fun t hs fr => ⟨?_, fun d ne => ?_, fr⟩
  · rw [State.core_congr (hs .cores), State.core_modCore_same]
  · rw [State.core_congr (hs .cores), State.core_modCore, if_neg ne]

/-! ## Words at a position -/

theorem Core.run_of_at? {k : Core} {op w : Nat} (h : k.at? op = some w) : k.seq = .run := by
  apply Classical.byContradiction
  intro ne
  simp [Core.at?, Core.word?, ne] at h

theorem Core.run_of_isAt {k : Core} {op : Nat} (h : k.isAt op = true) : k.seq = .run := by
  obtain ⟨w, hw⟩ := Option.isSome_iff_exists.mp h
  exact Core.run_of_at? hw

theorem Core.isAt_of {k : Core} {op w : Nat} (h : k.at? op = some w) : k.isAt op = true := by
  rw [Core.isAt, h]
  rfl

theorem waitDone_at {k : Core} {w : Nat} (h : k.at? 0x02 = some w) (t : k.compare (bits 9 8 w) = true) :
    waitDone k = some k.next := by
  simp [waitDone, Core.run_of_at? h, h, t]

theorem waitDone_waiting {k : Core} {i : Nat} (h : k.seq = .waiting i) (t : k.compare i = true) : waitDone k = some k.next := by
  simp [waitDone, h, t]

/-- A core that a WAITFLAG on flag `f` lets pass. -/
def Core.passFlag (k : Core) (f : Nat) (cl : Bool) : Core :=
  { k.next with flags := if cl then k.flags &&& ~~~(1#1024 <<< f) else k.flags }

theorem waitflagDone_at {k : Core} {w : Nat} (h : k.at? 0x03 = some w) : waitflagDone k = k.takeFlag (bits 17 8 w) (bitAt 18 w) := by
  simp [waitflagDone, Core.run_of_at? h, h]

theorem Core.takeFlag_set {k : Core} {f : Nat} (h : k.flags.getLsbD f = true) (cl : Bool) : k.takeFlag f cl = some (k.passFlag f cl) :=
  if_pos h

/-- Held on a flag, or at a WAITFLAG on it: with the flag set the core passes. -/
theorem waitflagDone_set {k : Core} {f : Nat} {cl : Bool} (set : k.flags.getLsbD f = true)
    (h : k.seq = .waitFlag f cl ∨ ∃ w, k.at? 0x03 = some w ∧ bits 17 8 w = f ∧ bitAt 18 w = cl) :
    waitflagDone k = some (k.passFlag f cl) := by
  rcases h with h | ⟨w, hw, rfl, rfl⟩
  · simp [waitflagDone, h, Core.takeFlag_set set]
  · rw [waitflagDone_at hw, Core.takeFlag_set set]

/-! ## The rows of the sequencer -/

theorem exec_wait {s : State} {c : Nat} (ck : s.clocked = true) (hc : c < 256) (h : (s.core c).isAt 0x02 = true) :
    exec (.wait c) s = finish s (s.position c waitDone (fun k => { k with seq := .waiting (bits 9 8 ((k.at? 0x02).getD 0)) })) :=
  (only_pos _ (decide_eq_true hc)).trans (act_pos _ ck h)

theorem exec_waitComplete {s : State} {c i : Nat} (ck : s.clocked = true) (hc : c < 256) (h : (s.core c).seq = .waiting i) :
    exec (.waitComplete c) s = finish s (s.position c waitDone id) :=
  (only_pos _ (decide_eq_true hc)).trans (act_pos _ ck (by rw [h]))

theorem exec_waitflag {s : State} {c : Nat} (ck : s.clocked = true) (hc : c < 256) (h : (s.core c).isAt 0x03 = true) :
    exec (.waitflag c) s = finish s (s.position c waitflagDone (fun k =>
      { k with seq := .waitFlag (bits 17 8 ((k.at? 0x03).getD 0)) (bitAt 18 ((k.at? 0x03).getD 0)) })) :=
  (only_pos _ (decide_eq_true hc)).trans (act_pos _ ck h)

theorem exec_waitflagComplete {s : State} {c f : Nat} {cl : Bool} (ck : s.clocked = true) (hc : c < 256)
    (h : (s.core c).seq = .waitFlag f cl) : exec (.waitflagComplete c) s = finish s (s.position c waitflagDone id) :=
  (only_pos _ (decide_eq_true hc)).trans (act_pos _ ck (by rw [h]))

end Sys2Proof.Machine

namespace Sys2Proof

open Machine

/-- Settles O32: every member of the gang takes the position, or the core that reached it holds. -/
theorem waitsHoldUntilTheyAreTrue : Obligations.WaitsHoldUntilTheyAreTrue := by
  intro s c ck hc
  have self := s.mem_gangOf c
  have ran : ∀ k : Core, k.next.calm ∧ k.next.seq ≠ .ended := fun k => ⟨Core.calm_of_run rfl, by simp [Core.next]⟩
  refine ⟨fun h => ?pass, fun w at_ h => ?hold, fun h => ?come, fun f cl h => ⟨fun at_ => ?passFlag, fun held => ?comeFlag⟩,
    fun w at_ clear => ?holdFlag⟩
  case pass =>
    obtain ⟨w, hw, -⟩ := h c self
    refine completes_position (exec_wait ck hc (Core.isAt_of hw)) Core.next fun d hd => ⟨?_, ran _⟩
    obtain ⟨v, hv, true_⟩ := h d hd
    exact waitDone_at hv true_
  case hold =>
    have held := completes_position_wait (exec_wait ck hc (Core.isAt_of at_)) h
    rwa [at_] at held
  case come =>
    obtain ⟨i, hi, -⟩ := h c self
    refine completes_position (exec_waitComplete ck hc hi) Core.next fun d hd => ⟨?_, ran _⟩
    obtain ⟨j, hj, true_⟩ := h d hd
    exact waitDone_waiting hj true_
  case passFlag =>
    exact completes_position (exec_waitflag ck hc at_) (fun k => k.passFlag f cl) fun d hd =>
      ⟨waitflagDone_set (h d hd).1 (h d hd).2, ran _⟩
  case comeFlag =>
    exact completes_position (exec_waitflagComplete ck hc held) (fun k => k.passFlag f cl) fun d hd =>
      ⟨waitflagDone_set (h d hd).1 (h d hd).2, ran _⟩
  case holdFlag =>
    have none : waitflagDone (s.core c) = none := by
      rw [waitflagDone_at at_]
      exact if_neg (by simp [clear])
    have held := completes_position_wait (exec_waitflag ck hc (Core.isAt_of at_)) ⟨c, self, none⟩
    rwa [at_] at held

end Sys2Proof
end

section
/-!
The tally unit, SIGNAL and REPEAT (3.1, R69, R71, R156, R161).
-/
namespace Sys2Proof.Machine

open Sys2Proof

theorem Core.queue_putQueue_same (k : Core) (e : Engine) (q : List EngCmd) : (k.putQueue e q).queue e = q := by
  cases e <;> rfl

theorem Core.queue_putQueue_ne (k : Core) {e f : Engine} (h : f ≠ e) (q : List EngCmd) : (k.putQueue e q).queue f = k.queue f := by
  cases e <;> cases f <;> simp [Core.putQueue, Core.queue] at h ⊢

/-- What replacing an engine queue leaves of a core. -/
@[simp] theorem Core.putQueue_keeps (k : Core) (e : Engine) (q : List EngCmd) : (k.putQueue e q).seq = k.seq
    ∧ (k.putQueue e q).pos = k.pos ∧ (k.putQueue e q).ctr = k.ctr ∧ (k.putQueue e q).cmp = k.cmp ∧ (k.putQueue e q).flags = k.flags
    ∧ (k.putQueue e q).scratch = k.scratch ∧ (k.putQueue e q).vest = k.vest ∧ (k.putQueue e q).latch = k.latch
    ∧ (k.putQueue e q).roleEpoch = k.roleEpoch ∧ (k.putQueue e q).ingress = k.ingress ∧ (k.putQueue e q).emits = k.emits
    ∧ (k.putQueue e q).set0 = k.set0 ∧ (k.putQueue e q).set1 = k.set1 ∧ (k.putQueue e q).mescl = k.mescl
    ∧ (k.putQueue e q).meexp = k.meexp ∧ (k.putQueue e q).megath = k.megath ∧ (k.putQueue e q).stats = k.stats := by
  cases e <;> exact ⟨rfl, rfl, rfl, rfl, rfl, rfl, rfl, rfl, rfl, rfl, rfl, rfl, rfl, rfl, rfl, rfl, rfl⟩

/-- A tally command at the position of every member. -/
theorem completes_tally {i : Instr} {s : State} {c op w : Nat} {g : Nat → Core → Core}
    (e : (s.core c).isAt op = true → exec i s = finish s (s.tally c op g)) (h : ∀ d ∈ s.gangOf c, (s.core d).at? op = some w)
    (keeps : ∀ k : Core, (g w k).seq = k.seq ∧ (g w k).pos = k.pos) :
    Completes i s (fun t => GangOnly c (fun k => { g w k with pos := k.pos + 1 }) s t ∧ Frame [.cores] s t) := by
  refine completes_position (e (Core.isAt_of (h c (s.mem_gangOf c)))) _ fun d hd => ?_
  obtain ⟨seq, pos⟩ := keeps (s.core d)
  have run := seq.trans (Core.run_of_at? (h d hd))
  refine ⟨?_, Core.calm_of_run run, by simp [run]⟩
  rw [h d hd, Option.map_some, Core.next, pos, ← run]

theorem Core.source_ctr (k : Core) {a : Nat} (h : a < 8) : k.source a = k.ctr.toList.getD a 0 := if_pos h

theorem exec_signal {s : State} {c : Nat} {e : Engine} {q : EngCmd} {rest : List EngCmd} (ck : s.clocked = true) (hc : c < 256)
    (run : (s.core c).seq = .run) (hq : (s.core c).queue e = q :: rest) (op : bits 7 0 q.word = 0x01) :
    exec (.signal c e) s = finish s (s.modCore c (fun k => (k.putQueue e rest).addCtr (bits 18 16 q.word) (bits 63 32 q.word))) := by
  have u : exec (.signal c e) s = execSignal c e s := rfl
  rw [u, execSignal, hq]
  refine (only_pos _ (decide_eq_true hc)).trans ((act_pos _ ck (by simp [op])).trans ?_)
  have seq : ((s.modCore c (fun k => (k.putQueue e rest).addCtr (bits 18 16 q.word) (bits 63 32 q.word))).core c).seq = .run := by
    rw [State.core_modCore_same]
    exact (Core.putQueue_keeps _ _ _).1.trans run
  rw [State.settle_same (Core.calm_of_run seq) (by rw [seq]; simp)]

/-- A core at a REPEAT of word `w`. -/
def Core.repeated (w : Nat) (k : Core) : Core := { k with pos := (repeatNext w k.pos k.reps).1, reps := (repeatNext w k.pos k.reps).2 }

theorem exec_repeat {s : State} {c : Nat} (ck : s.clocked = true) (hc : c < 256) (h : (s.core c).isAt 0x04 = true) :
    exec (.repeat_ c) s = finish s (s.position c (fun k => (k.at? 0x04).map (fun w => k.repeated w)) id) :=
  (only_pos _ (decide_eq_true hc)).trans (act_pos _ ck h)

/-- A REPEAT with jumps left goes to its target and has one less. -/
theorem repeatNext_jump {w p rem : Nat} {reps : NMap Nat} (pos : 0 < rem)
    (h : (if nget 0 reps p = 0 then bits 47 32 w - 1 else nget 0 reps p - 1) = rem) :
    (repeatNext w p reps).1 = bits 20 8 w ∧ nget 0 (repeatNext w p reps).2 p = rem := by
  unfold repeatNext
  dsimp only
  rw [h, if_neg (by omega)]
  exact ⟨rfl, by rw [nget_nins, if_pos rfl]⟩

/-- A REPEAT that is used up lets the next position follow. -/
theorem repeatNext_done {w p : Nat} {reps : NMap Nat}
    (h : (if nget 0 reps p = 0 then bits 47 32 w - 1 else nget 0 reps p - 1) = 0) :
    (repeatNext w p reps).1 = p + 1 ∧ nget 0 (repeatNext w p reps).2 p = 0 := by
  unfold repeatNext
  dsimp only
  rw [h, if_pos rfl]
  exact ⟨rfl, by rw [nget_ndel, if_pos rfl]⟩

end Sys2Proof.Machine

namespace Sys2Proof

open Machine

/-- Settles O33: a tally command is one position of the gang; SIGNAL and REPEAT change their own core. -/
theorem theTallyUnitCounts : Obligations.TheTallyUnitCounts := by
  intro s c w ck hc
  have tally : ∀ {i op g}, exec i s = only (c < 256) (act s ((s.core c).isAt op) (s.tally c op g)) → (s.core c).isAt op = true →
      exec i s = finish s (s.tally c op g) :=
    fun e h => e.trans ((only_pos _ (decide_eq_true hc)).trans (act_pos _ ck h))
  refine ⟨fun h => ?tset, fun h => ?tadd, fun h => ?tmov, fun h => ?tcmp, fun e q rest run hq hw op => ?signal, fun h => ?repeat_⟩
  case tset =>
    exact completes_tally (g := fun w k => { k with ctr := k.ctr.setIfInBounds (bits 10 8 w) (BitVec.ofNat 32 (bits 63 32 w)) })
      (tally rfl) h fun _ => ⟨rfl, rfl⟩
  case tadd => exact completes_tally (g := fun w k => k.addCtr (bits 10 8 w) (bits 63 32 w)) (tally rfl) h fun _ => ⟨rfl, rfl⟩
  case tmov =>
    have small : bits 14 12 w < 8 := Nat.mod_lt _ (by decide)
    have moved := completes_tally (i := .tmov c) (g := fun w k =>
      { k with ctr := k.ctr.setIfInBounds (bits 10 8 w) (k.source (bits 14 12 w) + BitVec.ofNat 32 (bits 63 32 w)) })
      (tally rfl) h fun _ => ⟨rfl, rfl⟩
    simp only [Core.source_ctr _ small] at moved
    exact moved
  case tcmp =>
    let comparator (w : Nat) : Comparator := ⟨bits 13 10 w, bitAt 14 w, bits 18 16 w, bits 63 32 w, bits 22 20 w⟩
    exact completes_tally (g := fun w k => { k with cmp := k.cmp.setIfInBounds (bits 9 8 w) (comparator w) }) (tally rfl) h
      fun _ => ⟨rfl, rfl⟩
  case signal =>
    subst hw
    refine completes_frame (l := [.cores]) (exec_signal ck hc run hq op) (modCore_parts s c _) fun t hs fr => ?_
    have core : ∀ d, t.core d = _ := fun d => (State.core_congr (hs .cores) d).trans (s.core_modCore c d _)
    rw [core c, if_pos rfl]
    refine ⟨Core.queue_putQueue_same _ _ _, ?_, (Core.putQueue_keeps _ _ _).2.2.2.2.1, (Core.putQueue_keeps _ _ _).2.2.2.2.2.1, ?_,
      fun f ne => Core.queue_putQueue_ne _ ne _, fun d ne => (core d).trans (if_neg ne), fr⟩
    · simp [Core.addCtr]
    · simp [Core.addCtr, run]
  case repeat_ =>
    have e := exec_repeat ck hc (Core.isAt_of (h c (s.mem_gangOf c)))
    have at_ := completes_position e (Core.repeated w) fun d hd => by
      have run : (Core.repeated w (s.core d)).seq = .run := (Core.run_of_at? (h d hd) : (s.core d).seq = .run)
      exact ⟨by rw [h d hd]; rfl, Core.calm_of_run run, by rw [run]; simp⟩
    obtain ⟨t, ht, ⟨gang, others⟩, fr⟩ := at_
    refine ⟨t, ht, fun d hd => ?_, others, fr⟩
    rw [gang d hd]
    refine ⟨fun z n => ?_, fun z n => ?_, fun n => ?_, fun n => ?_, rfl⟩
    · exact repeatNext_jump (by omega) (if_pos z)
    · exact (repeatNext_done ((if_pos z).trans (by omega))).1
    · exact repeatNext_jump (by omega) (if_neg (by omega))
    · exact repeatNext_done ((if_neg (by omega)).trans (by omega))

end Sys2Proof
end

section
/-!
An error at step level while the step may fail; STEPEND, SWAP and the exchange of banks (3.1, R67, R83, R89 to R91).
-/
namespace Sys2Proof.Machine

open Sys2Proof

/-! ## A step that fails -/

theorem stepMayFail_congr {s t : State} (h : StepMayFail s) (pitch : t.pitch = s.pitch) (err : t.err = s.err) (guy : t.guy = s.guy) :
    StepMayFail t := by
  unfold StepMayFail State.decidedStep at *
  rwa [pitch, err, guy]

theorem noteFirst_parts (s : State) (code core level : Nat) : ∀ p, p ∉ [Part.err] → p.same s (s.noteFirst code core level) := by
  intro p n
  unfold State.noteFirst
  dsimp only
  repeat' split
  all_goals cases p <;> simp_all [Part.same]

theorem State.noteFirst_err (s : State) (code core level : Nat) : (s.noteFirst code core level).err.st = s.err.st := by
  unfold State.noteFirst
  dsimp only
  repeat' split
  all_goals rfl

/-- While the step may fail, an error at step level touches the error state alone, fails the step, and lets it fail again. -/
theorem stepError_spec {s : State} (h : StepMayFail s) (code core : Nat) : (∀ p, p ∉ [Part.err] → p.same s (s.stepError code core))
    ∧ (s.stepError code core).err.stepFailed = true ∧ StepMayFail (s.stepError code core) := by
  obtain ⟨running, st, undecided⟩ := h
  have e : s.stepError code core = { s.noteFirst code core 2 with err := { (s.noteFirst code core 2).err with
      stepFailed := true, failCode := if s.err.stepFailed then s.err.failCode else code, failRank := s.job.rank } } := by
    simp [State.stepError, State.striking, State.pitching, State.replaying, running, st, undecided]
  have note := noteFirst_parts s code core 2
  have parts : ∀ p, p ∉ [Part.err] → p.same s (s.stepError code core) := by
    intro p n
    rw [e]
    refine Part.same_trans (note p n) ?_
    cases p <;> simp_all [Part.same]
  refine ⟨parts, by rw [e], ?_, ?_, ?_⟩
  · rw [show (s.stepError code core).pitch = s.pitch from parts .pitch (by simp)]
    exact running
  · rw [e]
    exact (s.noteFirst_err code core 2).trans st
  · unfold State.decidedStep
    rw [show (s.stepError code core).guy = s.guy from parts .guy (by simp)]
    exact undecided

theorem event_parts (s : State) (code source payload : Nat) : ∀ p, p ∉ [Part.recorder] → p.same s (s.event code source payload) := by
  intro p n
  cases p <;> simp_all [Part.same]

/-- A report at step level, with its record. -/
theorem reportStep_spec {s : State} (h : StepMayFail s) (code source payload core : Nat) :
    (∀ p, p ∉ [Part.err, Part.recorder] → p.same s (s.reportStep code source payload core))
    ∧ (s.reportStep code source payload core).err.stepFailed = true ∧ StepMayFail (s.reportStep code source payload core) := by
  have event := event_parts s code source payload
  have may := stepMayFail_congr h (event .pitch (by simp)) (event .err (by simp)) (event .guy (by simp))
  obtain ⟨parts, failed, still⟩ := stepError_spec may code core
  exact ⟨fun p n => Part.same_trans (event p (by simp_all)) (parts p (by simp_all)), failed, still⟩

/-- A core that stops, and fails the step. -/
theorem completes_stopped {i : Instr} {s u : State} {c code source payload : Nat}
    (e : exec i s = finish s ((u.modCore c (fun k => { k with seq := .stopped })).reportStep code source payload c))
    (parts : ∀ p, p ∉ [Part.cores] → p.same s u) (own : { u.core c with seq := .stopped } = ({ s.core c with seq := .stopped } : Core))
    (other : OtherCores c s u) (may : StepMayFail s) :
    Completes i s (fun t => t.core c = { s.core c with seq := .stopped } ∧ t.err.stepFailed = true ∧ OtherCores c s t
      ∧ Frame [.cores, .err, .recorder] s t) := by
  have may' := stepMayFail_congr (t := u.modCore c (fun k => { k with seq := .stopped })) may (parts .pitch (by simp))
    (parts .err (by simp)) (parts .guy (by simp))
  obtain ⟨report, failed, -⟩ := reportStep_spec may' code source payload c
  refine completes_frame (l := [.cores, .err, .recorder]) e (fun p n => ?_) fun t hs fr => ?_
  · exact Part.same_trans (parts p (by simp_all)) (Part.same_trans (modCore_parts u c _ p (by simp_all)) (report p (by simp_all)))
  · have cores : t.cores = _ := (hs .cores).trans (report .cores (by simp))
    have err : t.err = _ := hs .err
    refine ⟨?_, by rw [err, failed], fun d ne => ?_, fr⟩
    · rw [State.core_congr cores, State.core_modCore_same, own]
    · rw [State.core_congr cores, State.core_modCore, if_neg ne, other d ne]

/-! ## Role ends -/

theorem exec_stepend {s : State} {c : Nat} (ck : s.clocked = true) (hc : c < 256) (h : (s.core c).isAt 0x05 = true) :
    exec (.stepend c) s = finish s (s.position c (fun k => (k.at? 0x05).map (fun _ => { k with seq := .ended })) id) :=
  (only_pos _ (decide_eq_true hc)).trans (act_pos _ ck h)

theorem exec_swap {s : State} {c : Nat} (ck : s.clocked = true) (hc : c < 256) (h : (s.core c).isAt 0x06 = true) :
    exec (.swap c) s = finish s (s.position c (fun k => (k.at? 0x06).map (fun w => { k with seq := .swapping (bits 23 8 w) })) id) :=
  (only_pos _ (decide_eq_true hc)).trans (act_pos _ ck h)

theorem exec_swapTimeout {s : State} {c r : Nat} (ck : s.clocked = true) (hc : c < 256) (h : (s.core c).swapReady = some r)
    (no : (s.core c).standby.st ≠ .ready) : exec (.swapTimeout c) s
      = finish s ((s.modCore c (fun k => { k with seq := .stopped })).reportStep 0x0601 (srcCore c) r c) := by
  have u : exec (.swapTimeout c) s = execSwapTimeout c s := rfl
  rw [u, execSwapTimeout, h]
  exact (only_pos _ (decide_eq_true hc)).trans (act_pos _ ck (by simp [no]))

/-- With every member drained and every standby bank READY with the role that its SWAP names, the banks exchange. -/
theorem exec_swapExchange {s : State} {c : Nat} (ck : s.clocked = true) (hc : c < 256) (h : ∀ d ∈ s.gangOf c, ∃ r,
    (s.core d).swapReady = some r ∧ (s.core d).standby.st = .ready ∧ (s.core d).standby.role = some r) :
    exec (.swapExchange c) s = finish s ((s.gangOf c).foldl (fun s d => s.modCore d Core.exchange) s) := by
  have ready : (s.gangOf c).all (fun d => (s.core d).swapReady.isSome && (s.core d).standby.st == .ready) = true := by
    rw [List.all_eq_true]
    intro d hd
    obtain ⟨r, h1, h2, -⟩ := h d hd
    simp [h1, h2]
  have bad : (s.gangOf c).filter (fun d => (s.core d).standby.role != (s.core d).swapReady) = [] := by
    rw [List.filter_eq_nil_iff]
    intro d hd
    obtain ⟨r, h1, -, h3⟩ := h d hd
    simp [h1, h3]
  refine (only_pos _ (decide_eq_true hc)).trans ((act_pos _ ck ready).trans ?_)
  rw [bad]
  rfl

/-- A core alone in its gang whose standby bank holds another role. -/
theorem exec_swapExchange_mismatch {s : State} {c r : Nat} (ck : s.clocked = true) (hc : c < 256) (alone : s.gangOf c = [c])
    (h : (s.core c).swapReady = some r) (ready : (s.core c).standby.st = .ready) (other : (s.core c).standby.role ≠ some r) :
    exec (.swapExchange c) s = finish s ((s.modCore c (fun k => { k with seq := .stopped })).reportStep 0x0602 (srcCore c)
      ((s.core c).swapReady.getD 0 + (s.core c).standby.role.getD 0 * 2 ^ 16) c) := by
  have bad : (s.gangOf c).filter (fun d => (s.core d).standby.role != (s.core d).swapReady) = [c] := by
    have ne : ((s.core c).standby.role != (s.core c).swapReady) = true := by
      rw [h]
      exact bne_iff_ne.mpr other
    rw [alone]
    exact List.filter_cons_of_pos ne
  refine (only_pos _ (decide_eq_true hc)).trans ((act_pos _ ck (by simp [alone, h, ready])).trans ?_)
  rw [bad]
  rfl

theorem foldl_modCore_parts (F : Core → Core) (l : List Nat) (s : State) :
    ∀ p, p ∉ [Part.cores] → p.same s (l.foldl (fun s d => s.modCore d F) s) := by
  induction l generalizing s with
  | nil => exact fun p _ => p.same_refl s
  | cons d ds ih => exact fun p n => Part.same_trans (modCore_parts s d F p n) (ih _ p n)

end Sys2Proof.Machine

namespace Sys2Proof

open Machine

/-- Settles O34: a drained gang takes the position, or exchanges its banks core by core; else the core stops and reports. -/
theorem rolesEndAndSwap : Obligations.RolesEndAndSwap := by
  intro s c ck hc
  have self := s.mem_gangOf c
  refine ⟨fun h => ?stepend, fun w h => ?swap, fun alone at_ empty vest may => ?asserts, fun h => ?exchange,
    fun r alone h ready other may => ?mismatch, fun r h no may => ?timeout⟩
  case stepend =>
    have e := exec_stepend ck hc (h c self).1
    obtain ⟨gang, parts, -⟩ := position_spec (s := s) (c := c) (wait := id) (F := fun k => { k with seq := .ended })
      (f := fun k => (k.at? 0x05).map (fun _ => { k with seq := .ended })) fun d hd => by
        obtain ⟨w, hw⟩ := Option.isSome_iff_exists.mp (h d hd).1
        exact ⟨by rw [hw]; rfl, Or.inr (h d hd).2⟩
    exact completes_frame (l := [.cores, .snaps]) e parts fun t hs fr => ⟨gangOnly_congr gang (hs .cores), fr⟩
  case swap =>
    refine completes_position (exec_swap ck hc (Core.isAt_of (h c self).1)) _ fun d hd => ?_
    obtain ⟨hw, drains⟩ := h d hd
    exact ⟨by rw [hw]; rfl, Or.inr drains, by simp⟩
  case asserts =>
    obtain ⟨w, hw⟩ := Option.isSome_iff_exists.mp at_
    let f (k : Core) : Option Core := (k.at? 0x05).map (fun _ => { k with seq := .ended })
    have taken : ∀ d ∈ s.gangOf c, f (s.core d) = some { s.core d with seq := .ended } := by
      intro d hd
      rw [alone, List.mem_singleton] at hd
      subst hd
      simp [f, hw]
    have core := State.core_lockstep (F := fun k => { k with seq := .ended }) taken
    have own := (core c).trans (if_pos self)
    have u : s.position c f id = ((s.lockstep c f).modCore c (fun k => { k with seq := .stopped })).reportStep 0x0609 (srcCore c) 1 c := by
      have all : (s.gangOf c).all (fun d => (f (s.core d)).isSome) = true := by
        rw [alone]
        simp [f, hw]
      have settles : (s.lockstep c f).settle c
          = ((s.lockstep c f).modCore c (fun k => { k with seq := .stopped })).reportStep 0x0609 (srcCore c) 1 c := by
        have drained : ({ s.core c with seq := .ended } : Core).queuesEmpty = true := empty
        unfold State.settle
        simp [own, drained, vest]
      refine (if_pos all).trans ?_
      rw [alone]
      exact settles
    refine completes_stopped ((exec_stepend ck hc at_).trans (congrArg _ u)) (lockstep_parts s c f) (by rw [own]) (fun d ne => ?_) may
    rw [core, if_neg]
    rw [alone, List.mem_singleton]
    exact ne
  case exchange =>
    refine completes_frame (l := [.cores]) (exec_swapExchange ck hc h) (foldl_modCore_parts _ _ s) fun t hs fr => ?_
    have core : ∀ d, t.core d = if d ∈ s.gangOf c then (s.core d).exchange else s.core d := fun d =>
      (State.core_congr (hs .cores) d).trans (foldl_core (fun s c d => s.core_modCore c d _) (s.gangOf_nodup c) s d)
    refine ⟨fun d hd => ?_, fun d hd => (core d).trans (if_neg hd), fr⟩
    rw [core, if_pos hd]
    cases one : (s.core d).activeIs1 <;> simp [Core.exchange, Core.bank, Core.standby, one]
  case mismatch =>
    exact completes_stopped (u := s) (exec_swapExchange_mismatch ck hc alone h ready other) (fun p _ => p.same_refl s) rfl
      (fun _ _ => rfl) may
  case timeout =>
    exact completes_stopped (u := s) (exec_swapTimeout ck hc h no) (fun p _ => p.same_refl s) rfl (fun _ _ => rfl) may

end Sys2Proof
end

section
/-!
A command that changes its own core, and rows written one by one: the auxiliary registers and the scans (4.4, 4.5).
-/
namespace Sys2Proof.Machine

open Sys2Proof

/-! ## One core changes -/

/-- `u` is `s` with core `c` put to `x`. -/
def CoreBecomes (c : Nat) (x : Core) (s u : State) : Prop :=
  u.core c = x ∧ OtherCores c s u ∧ ∀ p, p ∉ [Part.cores] → p.same s u

theorem CoreBecomes.refl (c : Nat) (s : State) : CoreBecomes c (s.core c) s s := ⟨rfl, fun _ _ => rfl, fun p _ => p.same_refl s⟩

theorem CoreBecomes.trans {c : Nat} {x y : Core} {s t u : State} (h : CoreBecomes c x s t) (k : CoreBecomes c y t u) :
    CoreBecomes c y s u :=
  ⟨k.1, fun d ne => (k.2.1 d ne).trans (h.2.1 d ne), fun p n => Part.same_trans (h.2.2 p n) (k.2.2 p n)⟩

theorem CoreBecomes.modCore (s : State) (c : Nat) (f : Core → Core) : CoreBecomes c (f (s.core c)) s (s.modCore c f) :=
  ⟨s.core_modCore_same c f, fun d ne => (s.core_modCore c d f).trans (if_neg ne), modCore_parts s c f⟩

theorem CoreBecomes.putCore (s : State) (c : Nat) (x : Core) : CoreBecomes c x s (s.putCore c x) :=
  CoreBecomes.modCore s c fun _ => x

theorem CoreBecomes.putCmd (s : State) (c : Nat) (e : Engine) (i : Nat) (q : EngCmd) :
    CoreBecomes c ((s.core c).putQueue e (((s.core c).queue e).set i q)) s (s.putCmd c e i q) := CoreBecomes.modCore s c _

theorem completes_coreBecomes {i : Instr} {s u : State} {c : Nat} {x : Core} (e : exec i s = finish s u) (h : CoreBecomes c x s u) :
    Completes i s (fun t => t.core c = x ∧ OtherCores c s t ∧ Frame [.cores] s t) := by
  obtain ⟨own, other, parts⟩ := h
  exact completes_frame (l := [.cores]) e parts fun t hs fr =>
    ⟨(State.core_congr (hs .cores) c).trans own, fun d ne => (State.core_congr (hs .cores) d).trans (other d ne), fr⟩

theorem Core.going_of_seq {k l : Core} (h : k.going) (e : l.seq = k.seq) : l.going := by
  unfold Core.going at *
  rwa [e]

theorem State.settle_going {s : State} {c : Nat} (h : (s.core c).going) : s.settle c = s := State.settle_same (Or.inl h) h.1

/-- A command retires from a core that goes on. -/
theorem CoreBecomes.retire {s : State} {c : Nat} (e : Engine) (i : Nat) (h : (s.core c).going) :
    CoreBecomes c ((s.core c).putQueue e (((s.core c).queue e).eraseIdx i)) s (s.retire c e i) := by
  unfold State.retire
  rw [State.settle_going]
  · exact CoreBecomes.modCore s c _
  · rw [State.core_modCore_same]
    exact Core.going_of_seq h (Core.putQueue_keeps _ _ _).1

/-- A run that ends retires its command on the core that it leaves. -/
theorem CoreBecomes.finishRun_done (s : State) (c : Nat) (e : Engine) (i : Nat) {k : Core} (h : k.going) :
    CoreBecomes c (k.putQueue e ((k.queue e).eraseIdx i)) s (s.finishRun c e i (.done k)) := by
  have own : (s.putCore c k).core c = k := s.core_putCore_same c k
  have r := CoreBecomes.retire (s := s.putCore c k) (c := c) e i (by rwa [own])
  rw [own] at r
  exact (CoreBecomes.putCore s c k).trans r

/-- A run that stays puts its command back on the core that it leaves. -/
theorem CoreBecomes.finishRun_stay (s : State) (c : Nat) (e : Engine) (i : Nat) (k : Core) (q : EngCmd) :
    CoreBecomes c (k.putQueue e ((k.queue e).set i q)) s (s.finishRun c e i (.stay k q)) := by
  have r := CoreBecomes.putCmd (s.putCore c k) c e i q
  rw [s.core_putCore_same c k] at r
  exact (CoreBecomes.putCore s c k).trans r

theorem Core.head_of {k : Core} {e : Engine} {op : Nat} {q : EngCmd} {rest : List EngCmd} (h : k.queue e = q :: rest)
    (o : q.op = op) : k.head e op = some q := by
  rw [Core.head, h]
  exact if_pos o

/-! ## Little-endian values -/

theorem leNat_leBytes (len n : Nat) : leNat (leBytes len n) = n % 256 ^ len := by
  induction len generalizing n with
  | zero => rw [leBytes, leNat, Nat.pow_zero, Nat.mod_one]
  | succ len ih =>
    have split := Nat.mod_mul (x := n) (a := 256) (b := 256 ^ len)
    rw [leBytes, leNat, ih, BitVec.toNat_ofNat, Nat.pow_succ' (m := 256), split]

theorem wrap_lt (w : Nat) (i : Int) : wrap w i < 2 ^ w := by
  have pos : (0 : Int) < ((2 ^ w : Nat) : Int) := by exact_mod_cast Nat.two_pow_pos w
  have lt := Int.emod_lt_of_pos i pos
  have nn := Int.emod_nonneg i (Int.ne_of_gt pos)
  unfold wrap
  omega

/-! ## Rows written one by one -/

/-- Rows `0` to `n - 1` of `w` bytes written at `addr`, in order. -/
def writeRows (addr : Nat → Nat) (row : Nat → List Byte) (n : Nat) (m : Cells) : Cells :=
  (List.range n).foldl (fun m i => writeBytes m (addr i) (row i)) m

theorem writeRows_succ (addr : Nat → Nat) (row : Nat → List Byte) (n : Nat) (m : Cells) :
    writeRows addr row (n + 1) m = writeBytes (writeRows addr row n m) (addr n) (row n) := by
  rw [writeRows, List.range_succ, List.foldl_append]
  rfl

theorem readByte_writeRows_outside {addr : Nat → Nat} {row : Nat → List Byte} {n : Nat} (m : Cells) {a : Nat}
    (h : ∀ i, i < n → a < addr i ∨ addr i + (row i).length ≤ a) : readByte (writeRows addr row n m) a = readByte m a := by
  induction n with
  | zero => rfl
  | succ n ih =>
    rw [writeRows_succ, readByte_writeBytes_outside _ _ _ _ (h n (Nat.lt_succ_self n))]
    exact ih fun i hi => h i (Nat.lt_succ_of_lt hi)

/-- Bytes that lie outside a stored string are read as before. -/
theorem readBytes_writeBytes_apart (m : Cells) {a b n : Nat} {bs : List Byte} (h : b + n ≤ a ∨ a + bs.length ≤ b) :
    readBytes (writeBytes m a bs) b n = readBytes m b n := by
  rw [readBytes_eq, readBytes_eq]
  refine List.map_congr_left fun i hi => readByte_writeBytes_outside m a bs _ ?_
  have := List.mem_range.mp hi
  omega

/-- Rows that lie apart all stand at the end. -/
theorem readBytes_writeRows {addr : Nat → Nat} {row : Nat → List Byte} {n w : Nat} (m : Cells) (len : ∀ i, (row i).length = w)
    (apart : ∀ i j, i < j → j < n → addr i + w ≤ addr j ∨ addr j + w ≤ addr i) {i : Nat} (hi : i < n) :
    readBytes (writeRows addr row n m) (addr i) w = row i := by
  induction n with
  | zero => exact absurd hi (Nat.not_lt_zero i)
  | succ n ih =>
    rw [writeRows_succ]
    rcases Nat.lt_succ_iff_lt_or_eq.mp hi with lt | rfl
    · rw [readBytes_writeBytes_apart, ih (fun i j ij jn => apart i j ij (Nat.lt_succ_of_lt jn)) lt]
      rw [len]
      exact apart i n lt (Nat.lt_succ_self n)
    · rw [← len i]
      exact readBytes_writeBytes _ _ _

/-! ## The exponents of a scan -/

/-- Exponents `x 0` to `x (n - 1)`, two bytes each, from `out` on in scratch. -/
def writeExps (out : Nat) (x : Nat → Int) (n : Nat) (m : Cells) : Cells :=
  writeRows (fun i => sAddr (out + 2 * i)) (fun i => leBytes 2 (wrap 16 (x i))) n m

theorem readN_writeExps (out : Nat) (x : Nat → Int) {n : Nat} (small : n ≤ 64) (m : Cells) {i : Nat} (hi : i < n) :
    readN (writeExps out x n m) (sAddr (out + 2 * i)) 2 = wrap 16 (x i) := by
  have apart : ∀ i j, i < j → j < n → sAddr (out + 2 * i) + 2 ≤ sAddr (out + 2 * j) ∨ sAddr (out + 2 * j) + 2 ≤ sAddr (out + 2 * i) := by
    unfold sAddr
    omega
  rw [readN, writeExps, readBytes_writeRows (row := fun i => leBytes 2 (wrap 16 (x i))) m (fun _ => length_leBytes 2 _) apart hi,
    leNat_leBytes]
  exact Nat.mod_eq_of_lt (wrap_lt 16 (x i))

theorem readByte_writeExps (out : Nat) (x : Nat → Int) (n : Nat) (m : Cells) {a : Nat}
    (h : ∀ i, i < n → a ≠ sAddr (out + 2 * i) ∧ a ≠ sAddr (out + 2 * i) + 1) : readByte (writeExps out x n m) a = readByte m a := by
  refine readByte_writeRows_outside m fun i hi => ?_
  rw [length_leBytes]
  have := h i hi
  omega

/-! ## The rows -/

theorem exec_auxSet {i : Instr} {s : State} {c op : Nat} {f : EngCmd → Core → Core} {q : EngCmd} {rest : List EngCmd}
    (ck : s.clocked = true) (hc : c < 256) (going : (s.core c).going) (hq : (s.core c).qMe = q :: rest) (o : q.op = op)
    (e : exec i s = s.auxSet c op f) (keeps : (f q (s.core c)).seq = (s.core c).seq ∧ (f q (s.core c)).qMe = (s.core c).qMe) :
    Completes i s (fun t => t.core c = { f q (s.core c) with qMe := rest } ∧ OtherCores c s t ∧ Frame [.cores] s t) := by
  have run : exec i s = finish s ((s.modCore c (f q)).retire c .me 0) := by
    rw [e, State.auxSet, Core.head_of (e := .me) hq o]
    exact (only_pos _ (decide_eq_true hc)).trans (act_pos _ ck rfl)
  have own := s.core_modCore_same c (f q)
  have becomes := (CoreBecomes.modCore s c (f q)).trans
    (CoreBecomes.retire .me 0 (by rw [own]; exact Core.going_of_seq going keeps.1))
  have x : (f q (s.core c)).putQueue .me (((f q (s.core c)).queue .me).eraseIdx 0) = { f q (s.core c) with qMe := rest } := by
    simp [Core.putQueue, Core.queue, keeps.2, hq]
  rw [own, x] at becomes
  exact completes_coreBecomes run becomes

theorem exec_mescanr {s : State} {c : Nat} {q : EngCmd} {rest : List EngCmd} (ck : s.clocked = true) (hc : c < 256)
    (hq : (s.core c).qMe = q :: rest) (o : q.op = 0x24) (on : q.prog ≠ .stopped) :
    exec (.mescanr c none) s = finish s (s.finishRun c .me 0 (.done (scanRows (s.core c) q))) := by
  have u : exec (.mescanr c none) s = execMescanr c none s := rfl
  rw [u, execMescanr, Core.head_of (e := .me) hq o]
  exact (only_pos _ (decide_eq_true hc)).trans (act_pos _ ck (bne_iff_ne.mpr on))

theorem exec_mescanc {s : State} {c : Nat} {q : EngCmd} {rest : List EngCmd} (ck : s.clocked = true) (hc : c < 256)
    (hq : (s.core c).qMe = q :: rest) (o : q.op = 0x25) (on : q.prog ≠ .stopped) :
    exec (.mescanc c none) s = finish s (s.finishRun c .me 0 (scanCols (s.core c) q)) := by
  have u : exec (.mescanc c none) s = execMescanc c none s := rfl
  rw [u, execMescanc, Core.head_of (e := .me) hq o]
  exact (only_pos _ (decide_eq_true hc)).trans (act_pos _ ck (bne_iff_ne.mpr on))

/-- The column maxima of a scan once it has taken a tile too. -/
def EngCmd.withTile (q : EngCmd) (tile : List Byte) : List FNum :=
  (if q.colmax = [] then List.replicate 64 (FNum.zero false) else q.colmax).mapIdx
    (fun i x => (column ((List.range 8).map (tileRow 0 false tile)) i).foldl colMax x)

/-- A scan that has tiles to come takes the head of the latch. -/
theorem scanColsLoop_tile {n j : Nat} {k : Core} {q : EngCmd} {tile : List Byte} {more : List (List Byte)}
    (lt : j < bits 17 8 q.word + 1) (l : k.latch = tile :: more) :
    scanColsLoop (n + 1) k q j = scanColsLoop n { k with latch := more } { q with colmax := q.withTile tile } (j + 1) := by
  rw [scanColsLoop, if_pos lt, l]
  simp only [EngCmd.withTile, List.isEmpty_iff]

/-- A scan with an empty latch waits for its next tile. -/
theorem scanColsLoop_wait {n j : Nat} {k : Core} {q : EngCmd} (lt : j < bits 17 8 q.word + 1) (l : k.latch = []) :
    scanColsLoop (n + 1) k q j = .stay k { q with prog := .part j } := by
  rw [scanColsLoop, if_pos lt, l]

/-- A core after its column scan has written its exponents. -/
def Core.withColumns (k : Core) (q : EngCmd) : Core :=
  let out := ixAdd (bits 31 24 q.word) q.cnt (bits 54 32 q.word)
  { k with scratch := writeExps out (fun i => scanExp [q.colmax.getD i (.zero false)]) 64 k.scratch }

/-- After its last tile a scan writes the 64 column exponents. -/
theorem scanColsLoop_done {n j : Nat} {k : Core} {q : EngCmd} (ge : bits 17 8 q.word + 1 ≤ j) :
    scanColsLoop (n + 1) k q j = .done (k.withColumns q) := by
  rw [scanColsLoop, if_neg (Nat.not_lt.mpr ge)]
  rfl

theorem scanCols_eq {k : Core} {q : EngCmd} {j : Nat} (h : q.prog = .part j ∨ q.prog = .fresh ∧ j = 0) :
    scanCols k q = scanColsLoop (bits 17 8 q.word + 2) k q j := by
  rcases h with h | ⟨h, rfl⟩ <;> rw [scanCols, h]

/-- The row exponents that a MESCANR computes. -/
def EngCmd.rowExp (q : EngCmd) (m : Cells) (i : Nat) : Int :=
  scanExp ((List.range (bits 28 16 q.word + 1)).map (fun j => decode 0 (readN m
    (sAddr (ixAdd (bits 39 32 q.word) q.cnt (bits 70 48 q.word) + i * (64 * bits 87 71 q.word) + 8 * j)) 8)))

theorem scanRows_eq (k : Core) (q : EngCmd) :
    let out := ixAdd (bits 47 40 q.word) q.cnt (bits 110 88 q.word)
    scanRows k q = { k with scratch := writeExps out (q.rowExp k.scratch) (bits 13 8 q.word + 1) k.scratch } := rfl

end Sys2Proof.Machine

namespace Sys2Proof

open Machine

/-- Settles O36: the registers and the exponents are all that a retiring command leaves on its core. -/
theorem matrixRegistersAndScans : Obligations.MatrixRegistersAndScans := by
  intro s c q rest ck hc going hq on
  refine ⟨fun o => ?mescl, fun o => ?meexp, fun o => ?megath, fun o => ?mescanr,
    fun j tile more o prog lt latch => ⟨fun part last => ?tile, fun last => ?columns⟩⟩
  case mescl =>
    have e : exec (.mescl c) s = s.auxSet c 0x21 _ := rfl
    exact exec_auxSet ck hc going hq o e ⟨rfl, rfl⟩
  case meexp =>
    have e : exec (.meexp c) s = s.auxSet c 0x22 _ := rfl
    exact exec_auxSet ck hc going hq o e ⟨rfl, rfl⟩
  case megath =>
    have e : exec (.megath c) s = s.auxSet c 0x23 _ := rfl
    exact exec_auxSet ck hc going hq o e ⟨rfl, rfl⟩
  case mescanr =>
    have becomes := CoreBecomes.finishRun_done s c .me 0 (k := scanRows (s.core c) q) going
    obtain ⟨t, e, own, other, fr⟩ := completes_coreBecomes (exec_mescanr ck hc hq o on) becomes
    have rows : bits 13 8 q.word + 1 ≤ 64 := Nat.mod_lt _ (by decide)
    have queue : (scanRows (s.core c) q).queue .me = q :: rest := hq
    rw [queue, scanRows_eq] at own
    refine ⟨t, e, fun i hi => ?_, fun a ha => ?_, ?_, other, fr⟩
    · rw [own]
      exact readN_writeExps _ (q.rowExp (s.core c).scratch) rows _ hi
    · rw [own]
      exact readByte_writeExps _ _ _ _ ha
    · rw [own]
      rfl
  case tile =>
    have run : scanCols (s.core c) q
        = .stay { s.core c with latch := more } { q with colmax := q.withTile tile, prog := .part (j + 1) } := by
      rw [scanCols_eq prog, scanColsLoop_tile lt latch]
      exact scanColsLoop_wait (Nat.succ_lt_succ part) last
    have becomes := CoreBecomes.finishRun_stay s c .me 0 { s.core c with latch := more }
      { q with colmax := q.withTile tile, prog := .part (j + 1) }
    rw [← run] at becomes
    have done := completes_coreBecomes (exec_mescanc ck hc hq o on) becomes
    simp only [Core.queue, hq, List.set_cons_zero, last] at done
    exact done
  case columns =>
    have run : scanCols (s.core c) q
        = .done ({ s.core c with latch := more }.withColumns { q with colmax := q.withTile tile }) := by
      rw [scanCols_eq prog, scanColsLoop_tile lt latch]
      exact scanColsLoop_done (Nat.succ_le_succ (Nat.le_of_eq last.symm))
    have e := exec_mescanc ck hc hq o on
    rw [run] at e
    obtain ⟨t, e, own, other, fr⟩ := completes_coreBecomes e (CoreBecomes.finishRun_done s c .me 0 (Core.going_of_seq going rfl))
    simp only [Core.withColumns, Core.queue, hq, List.eraseIdx_zero, List.tail_cons] at own
    refine ⟨t, e, fun i hi => ?_, fun a ha => ?_, ?_, other, fr⟩
    · rw [own]
      exact readN_writeExps _ (fun i => scanExp [(q.withTile tile).getD i (.zero false)]) (Nat.le_refl 64) _ hi
    · rw [own]
      exact readByte_writeExps _ _ _ _ ha
    · rw [own]
      rfl

end Sys2Proof
end

section
/-!
The vector engine: what a row of a pass writes, the rows of a scratch pass and the tiles of a vestibule pass (5, R120 to R140).
-/
namespace Sys2Proof.Machine

open Sys2Proof

/-! ## A core whose command ends in an error of its engine -/

/-- A run that ends in an error puts its command back and reports at step level. -/
theorem completes_engineError {i : Instr} {s : State} {c : Nat} {e : Engine} {r : CoreErr} {k : Core} {q : EngCmd}
    (run : exec i s = finish s (s.finishRun c e 0 (.err r k q))) (none : q.retries = 0) (may : StepMayFail s) :
    Completes i s (fun t => t.core c = k.putQueue e ((k.queue e).set 0 q) ∧ t.err.stepFailed = true ∧ OtherCores c s t
      ∧ Frame [.cores, .err, .recorder] s t) := by
  have put : CoreBecomes c (k.putQueue e ((k.queue e).set 0 q)) s ((s.putCore c k).putCmd c e 0 q) :=
    CoreBecomes.finishRun_stay s c e 0 k q
  obtain ⟨own, other, parts⟩ := put
  have may' := stepMayFail_congr may (parts .pitch (by simp)) (parts .err (by simp)) (parts .guy (by simp))
  obtain ⟨report, failed, -⟩ := reportStep_spec may' r.code (srcCore c) q.pos c
  have u : s.finishRun c e 0 (.err r k q) = ((s.putCore c k).putCmd c e 0 q).reportStep r.code (srcCore c) q.pos c := by
    rw [State.finishRun, State.engineError, none]
    rfl
  rw [u] at run
  refine completes_frame (l := [.cores, .err, .recorder]) run (fun p n => ?_) fun t hs fr => ?_
  · exact Part.same_trans (parts p (by simp_all)) (report p (by simp_all))
  · have cores : t.cores = _ := (hs .cores).trans (report .cores (by simp))
    have err : t.err = _ := hs .err
    exact ⟨(State.core_congr cores c).trans own, by rw [err, failed], fun d ne => (State.core_congr cores d).trans (other d ne), fr⟩

/-! ## The length of what a row writes -/

/-- A row of 64 elements, with at most two scale bytes. -/
def VeRow.full : VeRow → Prop
  | .lanes v _ => v.length = 64
  | .narrow _ e x => e.length = 64 ∧ x.length ≤ 2
  | .wide v => v.length = 64

/-- The bytes of a row. -/
def VeRow.bytes : VeRow → Nat
  | .lanes _ _ => 256
  | .narrow code _ _ => rowBytes code 64
  | .wide _ => 512

/-- The bytes of a row that stage `w` leaves. -/
def stageBytes (w : Nat) : Nat := if stOp w = 0x30 then rowBytes (stFmt w) 64 else if stOp w = 0x33 then 512 else 256

theorem VeRow.full_asLanes {a : VeRow} (h : a.full) : a.asLanes.1.length = 64 := by
  cases a with
  | lanes v i => exact h
  | narrow code e x =>
    rw [VeRow.asLanes, veCvtnPass, List.length_mapIdx]
    exact h.1
  | wide v => exact h

theorem length_mxEncode (code : Nat) (vs : List (FNum × Narrow)) : (mxEncode code vs).2.length = vs.length := by
  unfold mxEncode
  split <;> simp

theorem veCvtn_full (code : Nat) (mx : Bool) {row : List (FNum × Narrow)} (h : row.length = 64) :
    (veCvtn code mx row).1.length = 64 ∧ (veCvtn code mx row).2.length ≤ 2 := by
  unfold veCvtn
  split
  · simp [length_mxEncode, h]
  · simp [h]

/-- Each stage leaves a full row, of the size that its operation says. -/
theorem veStage_full (draw : Nat → Nat → Nat) (w e : Nat) (cb cc : List Nat) {a : VeRow} (y : List Nat × Bool) (h : a.full) :
    (veStage draw w e cb cc a y).full ∧ (veStage draw w e cb cc a y).bytes = stageBytes w := by
  have len := VeRow.full_asLanes h
  unfold veStage stageBytes
  dsimp only
  split
  · next op => exact ⟨veCvtn_full _ _ (by simp [len]), by simp [VeRow.bytes, op]⟩
  · next op => exact ⟨by simp [VeRow.full, len], by simp [VeRow.bytes, op]⟩
  · next op => exact ⟨by simp [VeRow.full], by simp [VeRow.bytes, op]⟩
  · next op => exact ⟨by simp [VeRow.full], by simp [VeRow.bytes, op]⟩
  · next n30 n33 _ _ => exact ⟨by simp [VeRow.full], ((if_neg n30).trans (if_neg n33)).symm⟩

theorem veStages_full (draw : Nat → Nat → Nat) (e : Nat) (y : List Nat × Bool) (ws : List Nat) (k : List (List Nat)) {a : VeRow}
    (h : a.full) : (veStages draw e y ws k a).full
      ∧ (veStages draw e y ws k a).bytes = ((ws.getLast?.map stageBytes).getD a.bytes) := by
  induction ws generalizing k a with
  | nil => exact ⟨h, rfl⟩
  | cons w ws ih =>
    obtain ⟨full, bytes⟩ := veStage_full draw w e (k.getD 0 []) (k.getD 1 []) y h
    obtain ⟨full', bytes'⟩ := ih (k.drop 2) full
    refine ⟨full', bytes'.trans ?_⟩
    rw [bytes, List.getLast?_cons]
    cases ws.getLast? <;> rfl

theorem length_packRow (code : Nat) {xs : List Nat} (h : xs.length = 64) : (packRow code xs).length = rowBytes code 64 := by
  rw [packRow, length_leBytes, h]

/-- A full row writes its bytes and at most two scale bytes. -/
theorem veOut_length {a : VeRow} (h : a.full) (fp32 : Bool) : (veOut fp32 a).1.length = a.bytes ∧ (veOut fp32 a).2.length ≤ 2 := by
  cases a with
  | lanes v i => exact ⟨length_leBytes _ _, by simp [veOut]⟩
  | narrow code e x => exact ⟨length_packRow code h.1, by simpa [veOut] using h.2⟩
  | wide v => exact ⟨length_leBytes _ _, by simp [veOut]⟩

theorem length_unpackNat (w n v : Nat) : (unpackNat w n v).length = n := by
  induction n generalizing v with
  | zero => rfl
  | succ n ih => rw [unpackNat, List.length_cons, ih]

theorem length_streamRow (m : Cells) (x : Stream) (r : Nat) : (streamRow m x r).1.length = 64 := by
  unfold streamRow
  dsimp only
  split
  · exact length_unpackNat _ _ _
  · rw [List.length_mapIdx]
    exact length_unpackNat _ _ _

/-! ## The bytes that a row of a scratch pass writes -/

/-- A byte outside row `r` of a chain's destination and outside its scale bytes. -/
def VeChain.apart (ch : VeChain) (r a : Nat) : Prop :=
  (a < sAddr (ch.dst + r * ch.dstStride) ∨ sAddr (ch.dst + r * ch.dstStride) + ch.outBytes ≤ a)
  ∧ (a < sAddr (ch.ds + r * ch.dsStride) ∨ sAddr (ch.ds + r * ch.dsStride) + 2 ≤ a)

theorem readByte_veWrite (m : Cells) {ch : VeChain} {r a : Nat} {o : List Byte × List Byte} (h : ch.apart r a)
    (row : o.1.length = ch.outBytes) (scale : o.2.length ≤ 2) : readByte (veWrite m ch r o) a = readByte m a := by
  obtain ⟨data, exps⟩ := h
  unfold veWrite
  dsimp only
  split
  · exact readByte_writeBytes_outside _ _ _ _ (by omega)
  · rw [readByte_writeBytes_outside _ _ _ _ (by omega), readByte_writeBytes_outside _ _ _ _ (by omega)]

/-- Without PACK and UNPACK the last stage says the size of a row. -/
theorem VeChain.outBytes_eq {ch : VeChain} (h : ∀ w ∈ ch.stages, stOp w ≠ 0x3A) :
    ch.outBytes = (ch.stages.getLast?.map stageBytes).getD 256 := by
  unfold VeChain.outBytes
  split
  · next e => rw [e]; rfl
  · next w e =>
    have := h w (List.mem_of_getLast? e)
    rw [e]
    simp [stageBytes, this]

theorem readByte_stages (draw : Nat → Nat → Nat) (m : Cells) {ch : VeChain} (k : List (List Nat)) {r a : Nat} (h : ch.apart r a)
    (plain : ∀ w ∈ ch.stages, stOp w ≠ 0x3A) (y : List Nat × Bool) : readByte (veWrite m ch r (veOut true
      (veStages draw (ch.elemBase + 64 * r) y ch.stages k (.lanes (streamRow m ch.x r).1 (streamRow m ch.x r).2)))) a = readByte m a := by
  obtain ⟨full, bytes⟩ := veStages_full draw (ch.elemBase + 64 * r) y ch.stages k (a := .lanes _ (streamRow m ch.x r).2)
    (length_streamRow m ch.x r)
  obtain ⟨row, scale⟩ := veOut_length full true
  exact readByte_veWrite m h (row.trans (bytes.trans (VeChain.outBytes_eq plain).symm)) scale

theorem VeChain.outBytes_pack {ch : VeChain} {w : Nat} (one : ch.stages = [w]) (op : stOp w = 0x3A) :
    ch.outBytes = 8 * packWidth (stFmt w) := by
  simp [VeChain.outBytes, one, op]

theorem VeChain.outBytes_unpack {ch : VeChain} {w : Nat} (one : ch.stages = [w]) (op : stOp w = 0x3B) : ch.outBytes = 256 := by
  simp [VeChain.outBytes, one, op]

theorem readByte_vePack (m : Cells) {ch : VeChain} {w r a : Nat} (one : ch.stages = [w]) (h : ch.apart r a)
    (op : stOp w = 0x3A ∨ stOp w = 0x3B) : readByte (vePack m ch w r) a = readByte m a := by
  obtain ⟨data, -⟩ := h
  unfold vePack
  dsimp only
  rcases op with op | op
  · rw [VeChain.outBytes_pack one op] at data
    rw [if_pos op]
    exact readByte_writeBytes_outside _ _ _ _ (by rwa [length_leBytes])
  · rw [VeChain.outBytes_unpack one op] at data
    rw [if_neg (by simp [op])]
    exact readByte_writeBytes_outside _ _ _ _ (by rwa [length_leBytes])

/-- A row of a scratch pass leaves every other byte. -/
theorem readByte_veScratchRow (draw : Nat → Nat → Nat) (m : Cells) {ch : VeChain} (k : List (List Nat)) {r a : Nat}
    (h : ch.apart r a) (small : ch.stages.length ≤ 1 ∨ ∀ w ∈ ch.stages, stOp w ≠ 0x3A ∧ stOp w ≠ 0x3B) :
    readByte (veScratchRow draw m ch k r) a = readByte m a := by
  unfold veScratchRow
  split
  · next w one =>
    split
    · next op => exact readByte_vePack m one h op
    · next op =>
      refine readByte_stages draw m k h (fun v hv => ?_) _
      rw [one, List.mem_singleton] at hv
      rw [hv]
      exact fun e => op (Or.inl e)
  · next many =>
    refine readByte_stages draw m k h (fun v hv => ?_) _
    rcases small with few | plain
    · exfalso
      match e : ch.stages with
      | [] => rw [e] at hv; cases hv
      | [w] => exact many w e
      | _ :: _ :: _ => rw [e] at few; simp at few
    · exact (plain v hv).1

/-- Every row of a scratch pass in order. -/
theorem veScratchRows_eq (draw : Nat → Nat → Nat) (ch : VeChain) (k : List (List Nat)) (n r : Nat) (m : Cells) :
    veScratchRows draw ch k n r m = (List.range' r n).foldl (fun m r => veScratchRow draw m ch k r) m := by
  induction n generalizing r m with
  | zero => rfl
  | succ n ih => rw [veScratchRows, ih, List.range'_succ, List.foldl_cons]

theorem readByte_scratchPass (draw : Nat → Nat → Nat) {ch : VeChain} (k : List (List Nat)) {a : Nat} (l : List Nat)
    (h : ∀ r ∈ l, ch.apart r a) (small : ch.stages.length ≤ 1 ∨ ∀ w ∈ ch.stages, stOp w ≠ 0x3A ∧ stOp w ≠ 0x3B) (m : Cells) :
    readByte (l.foldl (fun m r => veScratchRow draw m ch k r) m) a = readByte m a := by
  induction l generalizing m with
  | nil => rfl
  | cons r rs ih =>
    rw [List.foldl_cons, ih fun r hr => h r (List.mem_cons_of_mem _ hr)]
    exact readByte_veScratchRow draw m k (h r List.mem_cons_self) small

/-! ## A pass over rows and a pass over tiles -/

theorem exec_vechain {s : State} {c : Nat} {q : EngCmd} {rest : List EngCmd} (ck : s.clocked = true) (hc : c < 256)
    (hq : (s.core c).qVe = q :: rest) (o : q.op = 0x30) (on : q.prog ≠ .stopped) :
    exec (.vechain c none) s = finish s (s.finishRun c .ve 0 (chainRun (s.veDraw c) (s.core c) q none)) := by
  have u : exec (.vechain c none) s = execVechain c none s := rfl
  have head := Core.head_of (e := .ve) hq o
  rw [u, execVechain, head]
  refine (only_pos _ (decide_eq_true hc)).trans ((act_pos _ ck (bne_iff_ne.mpr on)).trans ?_)
  rw [State.runChain, head]

/-- A pass that takes its rows from scratch runs all of them. -/
theorem chainRun_scratch (draw : Nat → Nat → Nat) (k : Core) {q : EngCmd} (fresh : q.prog = .fresh) (no : (veChainOf q).vest = false) :
    chainRun draw k q none = .done (countVe { k with scratch := (List.range (veChainOf q).count).foldl (fun m r =>
      veScratchRow draw m (veChainOf q) (constRows k.scratch (veChainOf q).stages) r) k.scratch }
      ((veChainOf q).count * drawsPerRow (veChainOf q)) (if isMaint (veChainOf q) then 1 else 0)) := by
  unfold chainRun
  rw [fresh]
  dsimp only
  rw [no, veScratchRows_eq, ← List.range_eq_range']
  rfl

/-- The constant rows that a pass holds: read as it begins. -/
def EngCmd.heldRows (q : EngCmd) (m : Cells) : List (List Nat) := if q.prog = .fresh then constRows m (veChainOf q).stages else q.held

/-- A pass that takes tiles goes on where it stands, where a tile has come or it has begun. -/
theorem chainRun_vest (draw : Nat → Nat → Nat) (k : Core) {q : EngCmd} {u : Nat} (yes : (veChainOf q).vest = true)
    (prog : q.prog = .part u ∨ q.prog = .fresh ∧ u = 0) (come : k.vest ≠ [] ∨ q.prog = .part u) :
    chainRun draw k q none = veTiles draw (veChainOf q) ((veChainOf q).count + 1) k { q with held := q.heldRows k.scratch } u := by
  rcases prog with part | ⟨fresh, rfl⟩
  · have held : q.heldRows k.scratch = q.held := if_neg (by rw [part]; simp)
    have same : ({ q with held := q.heldRows k.scratch } : EngCmd) = q := by rw [held]
    rw [same, chainRun, part]
  · have some : k.vest ≠ [] := come.resolve_right (by rw [fresh]; simp)
    unfold chainRun EngCmd.heldRows
    rw [fresh]
    dsimp only
    rw [if_pos yes, if_neg (by simpa using some), if_pos rfl]

/-- A core from which a pass has taken a tile. -/
def Core.tiled (k : Core) (draw : Nat → Nat → Nat) (ch : VeChain) (held : List (List Nat)) (u : Nat) (tile : Tile) (more : List Tile) :
    Core :=
  countVe { k with vest := more, scratch := veTile draw ch held u 64 tile k.scratch } (64 * drawsPerRow ch) 0

theorem veTiles_take (draw : Nat → Nat → Nat) {ch : VeChain} {n u : Nat} {k : Core} {q : EngCmd} {tile : Tile} {more : List Tile}
    (lt : u < ch.count) (head : k.vest = tile :: more) (ve : tile.toDm = false) (fits : tileFits ch tile.form = true) :
    veTiles draw ch (n + 1) k q u = veTiles draw ch n (k.tiled draw ch q.held u tile more) q (u + 1) := by
  rw [veTiles, if_pos lt, head]
  dsimp only
  rw [if_neg (by simp [ve]), if_pos fits]
  rfl

theorem veTiles_unfit (draw : Nat → Nat → Nat) {ch : VeChain} {n u : Nat} {k : Core} {q : EngCmd} {tile : Tile} {more : List Tile}
    (lt : u < ch.count) (head : k.vest = tile :: more) (ve : tile.toDm = false) (unfit : tileFits ch tile.form = false) :
    veTiles draw ch (n + 1) k q u = .err .veTileForm k { q with prog := .stopped } := by
  rw [veTiles, if_pos lt, head]
  dsimp only
  rw [if_neg (by simp [ve]), if_neg (by simp [unfit])]

theorem veTiles_wait (draw : Nat → Nat → Nat) {ch : VeChain} {n u : Nat} {k : Core} {q : EngCmd} (lt : u < ch.count)
    (none : k.vest = [] ∨ ∃ tile more, k.vest = tile :: more ∧ tile.toDm = true) :
    veTiles draw ch (n + 1) k q u = .stay k { q with prog := .part u } := by
  rw [veTiles, if_pos lt]
  rcases none with e | ⟨tile, more, e, dm⟩ <;> rw [e]
  dsimp only
  rw [if_pos dm]

theorem veTiles_end (draw : Nat → Nat → Nat) {ch : VeChain} {n u : Nat} {k : Core} {q : EngCmd} (ge : ch.count ≤ u) :
    veTiles draw ch (n + 1) k q u = .done k := by
  rw [veTiles, if_neg (Nat.not_lt.mpr ge)]

end Sys2Proof.Machine

namespace Sys2Proof

open Machine

/-- Settles O37: a scratch pass retires with all rows written; a vestibule pass takes one tile, waits or stops. -/
theorem vectorChainsWriteTheirRows : Obligations.VectorChainsWriteTheirRows := by
  intro s c q rest ck hc going hq o none ch
  constructor
  case left =>
    intro fresh no
    have e := exec_vechain ck hc hq o (by rw [fresh]; simp)
    rw [chainRun_scratch (s.veDraw c) (s.core c) fresh no] at e
    obtain ⟨t, e, own, other, fr⟩ := completes_coreBecomes e (CoreBecomes.finishRun_done s c .ve 0 (Core.going_of_seq going rfl))
    simp only [countVe, Core.queue, hq, List.eraseIdx_zero, List.tail_cons] at own
    refine ⟨t, e, own, fun small a apart => ?_, other, fr⟩
    rw [own]
    exact readByte_scratchPass _ _ _ (fun r hr => apart r (List.mem_range.mp hr)) small _
  case right =>
    intro u yes lt prog held
    have on : q.prog ≠ .stopped := by
      rcases prog with part | ⟨fresh, -⟩
      · rw [part]; simp
      · rw [fresh]; simp
    have e := exec_vechain ck hc hq o on
    refine ⟨fun tile more head ve fits last => ?take, fun none part => ?wait, fun tile more head ve unfit may => ?unfit⟩
    case take =>
      rw [chainRun_vest _ _ yes prog (.inl (by rw [head]; simp)), veTiles_take _ lt head ve fits,
        show (veChainOf q).count = bits 25 14 (packNat 128 (q.desc.take 3)) + 1 from rfl] at e
      by_cases fin : u + 1 = ch.count
      · rw [veTiles_end _ (Nat.le_of_eq fin.symm)] at e
        obtain ⟨t, e, own, other, fr⟩ := completes_coreBecomes e (CoreBecomes.finishRun_done s c .ve 0 (Core.going_of_seq going rfl))
        simp only [Core.tiled, countVe, Core.queue, hq, List.eraseIdx_zero, List.tail_cons] at own
        refine ⟨t, e, ?_⟩
        dsimp only
        rw [own, if_pos fin]
        exact ⟨rfl, rfl, rfl, rfl, rfl, rfl, rfl, other, fr⟩
      · have empty : more = [] := last.resolve_right fin
        rw [veTiles_wait _ (by omega) (Or.inl empty)] at e
        obtain ⟨t, e, own, other, fr⟩ := completes_coreBecomes e (CoreBecomes.finishRun_stay s c .ve 0 _ _)
        simp only [Core.tiled, countVe, Core.queue, hq, List.set_cons_zero] at own
        refine ⟨t, e, ?_⟩
        dsimp only
        rw [own, if_neg fin]
        exact ⟨rfl, rfl, rfl, rfl, rfl, rfl, rfl, other, fr⟩
    case wait =>
      rw [chainRun_vest _ _ yes prog (.inr part), veTiles_wait _ lt none] at e
      obtain ⟨t, e, own, other, fr⟩ := completes_coreBecomes e (CoreBecomes.finishRun_stay s c .ve 0 _ _)
      have held : q.heldRows (s.core c).scratch = q.held := if_neg (by rw [part]; simp)
      have same : ({ q with held := q.heldRows (s.core c).scratch, prog := .part u } : EngCmd) = q := by rw [held, ← part]
      have back : ((s.core c).queue .ve).set 0 q = (s.core c).qVe := by
        rw [Core.queue, hq, List.set_cons_zero]
      refine ⟨t, e, own.trans ?_, other, fr⟩
      rw [same, back]
      rfl
    case unfit =>
      rw [chainRun_vest _ _ yes prog (.inl (by rw [head]; simp)), veTiles_unfit _ lt head ve unfit] at e
      obtain ⟨t, e, own, failed, other, fr⟩ := completes_engineError e none may
      simp only [Core.queue, hq, List.set_cons_zero] at own
      refine ⟨t, e, ?_, ?_, failed, other, fr⟩
      · rw [own]
        rfl
      · rw [own]
        rfl

end Sys2Proof
end

section
/-!
The data mover: weight tiles into the latch, and the rows of a transfer between memory, scratch, vestibule and commit queue
(6.5, R82, R99, R100, R165).
-/
namespace Sys2Proof.Machine

open Sys2Proof

/-! ## A core and other parts change -/

/-- `u` is `s` with core `c` put to `x`, the parts `ps` apart. -/
def CoreAnd (ps : List Part) (c : Nat) (x : Core) (s u : State) : Prop :=
  u.core c = x ∧ OtherCores c s u ∧ ∀ p, p ∉ Part.cores :: ps → p.same s u

theorem CoreBecomes.coreAnd {c : Nat} {x : Core} {s u : State} (h : CoreBecomes c x s u) (ps : List Part) : CoreAnd ps c x s u :=
  ⟨h.1, h.2.1, fun p n => h.2.2 p (by simp_all)⟩

/-- What changes only parts of `ps` leaves each core as it was. -/
theorem CoreAnd.of_parts {ps : List Part} {s u : State} (c : Nat) (h : ∀ p, p ∉ ps → p.same s u) (n : Part.cores ∉ ps) :
    CoreAnd ps c (s.core c) s u :=
  ⟨State.core_congr (h .cores n) c, fun d _ => State.core_congr (h .cores n) d, fun p k => h p (by simp_all)⟩

theorem CoreAnd.trans {ps : List Part} {c : Nat} {x y : Core} {s t u : State} (h : CoreAnd ps c x s t) (k : CoreAnd ps c y t u) :
    CoreAnd ps c y s u :=
  ⟨k.1, fun d ne => (k.2.1 d ne).trans (h.2.1 d ne), fun p n => Part.same_trans (h.2.2 p n) (k.2.2 p n)⟩

theorem CoreAnd.retire {ps : List Part} {c : Nat} {x : Core} {s u : State} (h : CoreAnd ps c x s u) (e : Engine) (i : Nat)
    (going : x.going) : CoreAnd ps c (x.putQueue e ((x.queue e).eraseIdx i)) s (u.retire c e i) := by
  have r := CoreBecomes.retire (s := u) (c := c) e i (by rw [h.1]; exact going)
  rw [h.1] at r
  exact h.trans (r.coreAnd ps)

theorem CoreAnd.putCmd {ps : List Part} {c : Nat} {x : Core} {s u : State} (h : CoreAnd ps c x s u) (e : Engine) (i : Nat)
    (q : EngCmd) : CoreAnd ps c (x.putQueue e ((x.queue e).set i q)) s (u.putCmd c e i q) := by
  have r := CoreBecomes.putCmd u c e i q
  rw [h.1] at r
  exact h.trans (r.coreAnd ps)

theorem completes_coreAnd_of {i : Instr} {s u : State} {ps : List Part} {c : Nat} {x : Core} {Q : State → Prop}
    (e : exec i s = finish s u) (h : CoreAnd ps c x s u)
    (k : ∀ t, (∀ q : Part, q.same u t) → t.core c = x → OtherCores c s t → Frame (.cores :: ps) s t → Q t) : Completes i s Q := by
  obtain ⟨own, other, parts⟩ := h
  exact completes_frame e parts fun t hs fr =>
    k t hs ((State.core_congr (hs .cores) c).trans own) (fun d ne => (State.core_congr (hs .cores) d).trans (other d ne)) fr

theorem completes_coreAnd {i : Instr} {s u : State} {ps : List Part} {c : Nat} {x : Core} (e : exec i s = finish s u)
    (h : CoreAnd ps c x s u) : Completes i s (fun t => t.core c = x ∧ OtherCores c s t ∧ Frame (.cores :: ps) s t) :=
  completes_coreAnd_of e h fun _ _ own other fr => ⟨own, other, fr⟩

/-- A fold each of whose steps writes the scratch of one core. -/
theorem foldl_scratch {ps : List Part} {c : Nat} {s : State} {g : State → Nat → State} {w : Cells → Nat → Cells}
    (step : ∀ u, (∀ p, p ∉ Part.cores :: ps → p.same s u) → ∀ i, CoreAnd ps c { u.core c with scratch := w (u.core c).scratch i } u (g u i))
    (l : List Nat) {u : State} {x : Core} (h : CoreAnd ps c x s u) :
    CoreAnd ps c { x with scratch := l.foldl w x.scratch } s (l.foldl g u) := by
  induction l generalizing u x with
  | nil => exact h
  | cons i is ih =>
    have one := step u h.2.2 i
    rw [h.1] at one
    exact ih (h.trans one)

/-- `u` is `s` with local memory put to `m`, reservations of harts and channel counts apart. -/
def MemAnd (m : Cells) (s u : State) : Prop :=
  u.mem = m ∧ (∀ h, ∃ r, u.hart h = { s.hart h with resv := r }) ∧ ∀ p, p ∉ [Part.mem, Part.harts, Part.hbm] → p.same s u

theorem MemAnd.refl (s : State) : MemAnd s.mem s s := ⟨rfl, fun h => ⟨(s.hart h).resv, rfl⟩, fun p _ => p.same_refl s⟩

theorem MemAnd.trans {m n : Cells} {s t u : State} (h : MemAnd m s t) (k : MemAnd n t u) : MemAnd n s u := by
  refine ⟨k.1, fun a => ?_, fun p q => Part.same_trans (h.2.2 p q) (k.2.2 p q)⟩
  obtain ⟨r, hr⟩ := h.2.1 a
  obtain ⟨v, hv⟩ := k.2.1 a
  exact ⟨v, by rw [hv, hr]⟩

theorem MemAnd.of_hbm {s u : State} (h : ∀ p, p ∉ [Part.hbm] → p.same s u) : MemAnd s.mem s u :=
  ⟨h .mem (by simp), fun a => ⟨(s.hart a).resv, by rw [State.hart_congr (h .harts (by simp))]⟩, fun p n => h p (by simp_all)⟩

theorem foldl_memAnd {s : State} {g : State → Nat → State} {w : Cells → Nat → Cells}
    (step : ∀ u, (∀ p, p ∉ [Part.mem, Part.harts, Part.hbm] → p.same s u) → ∀ i, MemAnd (w u.mem i) u (g u i))
    (l : List Nat) {u : State} {m : Cells} (h : MemAnd m s u) : MemAnd (l.foldl w m) s (l.foldl g u) := by
  induction l generalizing u m with
  | nil => exact h
  | cons i is ih =>
    have one := step u h.2.2 i
    rw [h.1] at one
    exact ih (h.trans one)

/-- A core changes, memory moves, and the core changes again. -/
theorem completes_memAnd {i : Instr} {s s1 u v : State} {c : Nat} {x y : Core} {m : Cells} (e : exec i s = finish s v)
    (first : CoreBecomes c x s s1) (moved : MemAnd m s1 u) (last : CoreBecomes c y u v) :
    Completes i s (fun t => t.mem = m ∧ t.core c = y ∧ (∀ h, t.hart h = { s.hart h with resv := (t.hart h).resv })
      ∧ OtherCores c s t ∧ Frame [.cores, .mem, .harts, .hbm] s t) := by
  obtain ⟨mem, harts, parts⟩ := moved
  refine completes_frame (l := [.cores, .mem, .harts, .hbm]) e (fun p n => ?_) fun t hs fr => ⟨?_, ?_, fun h => ?_, fun d ne => ?_, fr⟩
  · exact Part.same_trans (first.2.2 p (by simp_all)) (Part.same_trans (parts p (by simp_all)) (last.2.2 p (by simp_all)))
  · exact (hs .mem).trans ((last.2.2 .mem (by simp)).trans mem)
  · exact (State.core_congr (hs .cores) c).trans last.1
  · obtain ⟨r, hr⟩ := harts h
    rw [State.hart_congr (hs .harts), State.hart_congr (last.2.2 .harts (by simp)), hr,
      State.hart_congr (first.2.2 .harts (by simp))]
  · rw [State.core_congr (hs .cores), last.2.1 d ne, State.core_congr (parts .cores (by simp)), first.2.1 d ne]

/-! ## One row -/

theorem State.copyBase_congr {s t : State} (h : t.job = s.job) (id k : Nat) : t.copyBase id k = s.copyBase id k := by
  unfold State.copyBase State.placedOf
  rw [h]

theorem State.isHost_congr {s t : State} (h : t.job = s.job) (id : Nat) : t.isHost id = s.isHost id := by
  unfold State.isHost
  rw [h]

theorem countLines_parts (s : State) (a : Nat) (write : Bool) (n k : Nat) : ∀ p, p ∉ [Part.hbm] → p.same s (s.countLines a write n k) := by
  intro p q
  cases p
  case out => exact ⟨[], by simp, rfl⟩
  all_goals simp_all [Part.same]

theorem countRow_parts (s : State) (a len : Nat) (write : Bool) : ∀ p, p ∉ [Part.hbm] → p.same s (s.countRow a len write) := by
  intro p q
  cases p
  case out => exact ⟨[], by simp, rfl⟩
  all_goals simp_all [Part.same]

theorem storeAgent_mem (s : State) (a : Nat) (bs : List Byte) : MemAnd (writeBytes s.mem a bs) s (s.storeAgent a bs) := by
  refine ⟨rfl, fun h => s.hart_storeAgent a bs h, fun p n => ?_⟩
  cases p
  case out => exact ⟨[], by simp, rfl⟩
  all_goals simp_all [Part.same]

/-- A row of a transfer, read and written. -/
def State.xferRow (c : Nat) (x : Xfer) (s : State) (i : Nat) : State :=
  (s.xferRead c x i).2.xferWrite c x i (s.xferRead c x i).1

/-- A transfer moves its rows in ascending order. -/
theorem moveRows_eq (c : Nat) (x : Xfer) (n i : Nat) (s : State) :
    moveRows c x (i + n) n i s = (List.range' i n).foldl (State.xferRow c x) s := by
  induction n generalizing i s with
  | zero => rfl
  | succ n ih =>
    have next := ih (i + 1) (s.xferRow c x i)
    rw [show i + 1 + n = i + (n + 1) by omega] at next
    rw [moveRows, if_neg (by omega), List.range'_succ, List.foldl_cons, ← next]
    rfl

theorem moveRows_all (c : Nat) (x : Xfer) (n : Nat) (s : State) :
    moveRows c x n n 0 s = (List.range n).foldl (State.xferRow c x) s := by
  have h := moveRows_eq c x n 0 s
  rwa [Nat.zero_add, ← List.range_eq_range'] at h

/-- Where row `i` of a transfer comes from in scratch. -/
def Xfer.scratchRow (x : Xfer) (m : Cells) (i : Nat) : List Byte := readBytes m (sAddr (x.src % 8388608 + i * x.sStride)) x.rb

theorem State.xferRead_scratch (s : State) (c : Nat) {x : Xfer} (h : x.fromRegion = false) (i : Nat) :
    s.xferRead c x i = (x.scratchRow (s.core c).scratch i, s) := if_neg (by simp [h])

theorem State.xferRead_region (s : State) (c : Nat) {x : Xfer} (h : x.fromRegion = true) (i : Nat) :
    s.xferRead c x i = (readBytes s.mem (s.copyBase x.sRegion 0 + x.src + i * x.sStride) x.rb,
      s.countRow (s.copyBase x.sRegion 0 + x.src + i * x.sStride) x.rb false) := if_pos h

theorem State.xferWrite_scratch (s : State) (c : Nat) {x : Xfer} (h : x.toRegion = false) (i : Nat) (bs : List Byte) :
    CoreBecomes c { s.core c with scratch := writeBytes (s.core c).scratch (sAddr (x.dst % 8388608 + i * x.dStride)) bs } s
      (s.xferWrite c x i bs) := by
  rw [State.xferWrite, if_neg (by simp [h])]
  exact CoreBecomes.modCore s c _

theorem State.xferWrite_region (s : State) (c : Nat) {x : Xfer} (h : x.toRegion = true) (no : s.isHost x.dRegion = false) (i : Nat)
    (bs : List Byte) : MemAnd (writeBytes s.mem (s.copyBase x.dRegion 0 + x.dst + i * x.dStride) bs) s (s.xferWrite c x i bs) := by
  rw [State.xferWrite, if_pos h, if_neg (by simp [no])]
  have store := storeAgent_mem s (s.copyBase x.dRegion 0 + x.dst + i * x.dStride) bs
  have counted := MemAnd.of_hbm (countRow_parts (s.storeAgent (s.copyBase x.dRegion 0 + x.dst + i * x.dStride) bs)
    (s.copyBase x.dRegion 0 + x.dst + i * x.dStride) bs.length true)
  rw [store.1] at counted
  exact store.trans counted

theorem State.xferWrite_host (s : State) (c : Nat) {x : Xfer} (h : x.toRegion = true) (yes : s.isHost x.dRegion = true) (i : Nat)
    (bs : List Byte) : s.xferWrite c x i bs = s.hostRow c x i bs := by
  rw [State.xferWrite, if_pos h, if_pos yes]

/-! ## All rows -/

/-- Rows of a region written to scratch, in order. -/
def State.regionToScratch (s : State) (x : Xfer) (m : Cells) (i : Nat) : Cells :=
  writeBytes m (sAddr (x.dst % 8388608 + i * x.dStride)) (readBytes s.mem (s.copyBase x.sRegion 0 + x.src + i * x.sStride) x.rb)

theorem xferRows_fromRegion {s : State} {c : Nat} {x : Xfer} (orig : x.fromRegion = true) (dest : x.toRegion = false) :
    CoreAnd [.hbm] c { s.core c with scratch := (List.range x.rows).foldl (s.regionToScratch x) (s.core c).scratch } s
      ((List.range x.rows).foldl (State.xferRow c x) s) := by
  refine foldl_scratch (w := s.regionToScratch x) (fun u same i => ?_) _ ((CoreBecomes.refl c s).coreAnd _)
  have base := State.copyBase_congr (same .job (by simp)) x.sRegion 0
  have counted := CoreAnd.of_parts c (countRow_parts u (u.copyBase x.sRegion 0 + x.src + i * x.sStride) x.rb false) (by simp)
  have written := (State.xferWrite_scratch (u.countRow (u.copyBase x.sRegion 0 + x.src + i * x.sStride) x.rb false) c dest i
    (readBytes u.mem (u.copyBase x.sRegion 0 + x.src + i * x.sStride) x.rb)).coreAnd [.hbm]
  rw [State.xferRow, State.xferRead_region u c orig]
  have moved := counted.trans written
  rw [counted.1, base, show u.mem = s.mem from same .mem (by simp)] at moved
  rw [base, show u.mem = s.mem from same .mem (by simp)]
  exact moved

theorem xferRows_scratch {s : State} {c : Nat} {x : Xfer} (orig : x.fromRegion = false) (dest : x.toRegion = false) :
    CoreAnd [] c { s.core c with scratch := (List.range x.rows).foldl (fun m i =>
      writeBytes m (sAddr (x.dst % 8388608 + i * x.dStride)) (x.scratchRow m i)) (s.core c).scratch } s
      ((List.range x.rows).foldl (State.xferRow c x) s) := by
  refine foldl_scratch (w := fun m i => writeBytes m (sAddr (x.dst % 8388608 + i * x.dStride)) (x.scratchRow m i)) (fun u _ i => ?_) _
    (CoreBecomes.refl c s)
  rw [State.xferRow, State.xferRead_scratch u c orig]
  exact State.xferWrite_scratch u c dest i _

theorem xferRows_toRegion {s : State} {c : Nat} {x : Xfer} (orig : x.fromRegion = false) (dest : x.toRegion = true)
    (no : s.isHost x.dRegion = false) :
    MemAnd ((List.range x.rows).foldl (fun m i =>
      writeBytes m (s.copyBase x.dRegion 0 + x.dst + i * x.dStride) (x.scratchRow (s.core c).scratch i)) s.mem) s
      ((List.range x.rows).foldl (State.xferRow c x) s) := by
  refine foldl_memAnd (w := fun m i => writeBytes m (s.copyBase x.dRegion 0 + x.dst + i * x.dStride)
    (x.scratchRow (s.core c).scratch i)) (fun u same i => ?_) _ (MemAnd.refl s)
  have job : u.job = s.job := same .job (by simp)
  rw [State.xferRow, State.xferRead_scratch u c orig]
  have row := State.xferWrite_region u c dest ((State.isHost_congr job _).trans no) i (x.scratchRow (u.core c).scratch i)
  rw [State.core_congr (same .cores (by simp))] at row ⊢
  rwa [State.copyBase_congr job] at row

theorem xferRows_memory {s : State} {c : Nat} {x : Xfer} (orig : x.fromRegion = true) (dest : x.toRegion = true)
    (no : s.isHost x.dRegion = false) :
    MemAnd ((List.range x.rows).foldl (fun m i =>
      writeBytes m (s.copyBase x.dRegion 0 + x.dst + i * x.dStride)
        (readBytes m (s.copyBase x.sRegion 0 + x.src + i * x.sStride) x.rb)) s.mem) s
      ((List.range x.rows).foldl (State.xferRow c x) s) := by
  refine foldl_memAnd (w := fun m i => writeBytes m (s.copyBase x.dRegion 0 + x.dst + i * x.dStride)
    (readBytes m (s.copyBase x.sRegion 0 + x.src + i * x.sStride) x.rb)) (fun u same i => ?_) _ (MemAnd.refl s)
  have job : u.job = s.job := same .job (by simp)
  have counted := MemAnd.of_hbm (countRow_parts u (u.copyBase x.sRegion 0 + x.src + i * x.sStride) x.rb false)
  have job' : (u.countRow (u.copyBase x.sRegion 0 + x.src + i * x.sStride) x.rb false).job = u.job := counted.2.2 .job (by simp)
  have row := State.xferWrite_region (u.countRow (u.copyBase x.sRegion 0 + x.src + i * x.sStride) x.rb false) c dest
    ((State.isHost_congr (job'.trans job) _).trans no) i (readBytes u.mem (u.copyBase x.sRegion 0 + x.src + i * x.sStride) x.rb)
  rw [State.xferRow, State.xferRead_region u c orig]
  rw [counted.1, State.copyBase_congr job' x.dRegion] at row
  have moved := counted.trans row
  rw [State.copyBase_congr job, State.copyBase_congr job] at moved
  rw [State.copyBase_congr job]
  exact moved

/-- Rows for the host gather in one transfer at the end of the commit queue. -/
theorem hostRows {s : State} {c : Nat} {x : Xfer} {g : State → Nat → State} {row : Nat → List Byte}
    (step : ∀ u, u = { s with outputs := u.outputs } → ∀ i, g u i = u.hostRow c x i (row i)) (n : Nat) :
    (List.range (n + 1)).foldl g s = { s with outputs := { s.outputs with queue := s.outputs.queue
      ++ [⟨c, x.dRegion, (List.range (n + 1)).map (fun i => (x.dst + i * x.dStride, row i))⟩] } } := by
  induction n with
  | zero =>
    have one := step s rfl 0
    simp only [Nat.zero_add, List.range_one, List.foldl_cons, List.foldl_nil, List.map_cons, List.map_nil, one]
    rfl
  | succ n ih =>
    rw [List.range_succ, List.foldl_append, ih, List.foldl_cons, List.foldl_nil, step _ rfl, List.map_append]
    simp [State.hostRow]

theorem xferRows_host {s : State} {c : Nat} {x : Xfer} (orig : x.fromRegion = false) (dest : x.toRegion = true)
    (yes : s.isHost x.dRegion = true) {n : Nat} (rows : x.rows = n + 1) :
    (List.range x.rows).foldl (State.xferRow c x) s = { s with outputs := { s.outputs with queue := s.outputs.queue
      ++ [⟨c, x.dRegion, (List.range x.rows).map (fun i => (x.dst + i * x.dStride, x.scratchRow (s.core c).scratch i))⟩] } } := by
  rw [rows]
  refine hostRows (fun u e i => ?_) n
  have host : u.isHost x.dRegion = true := by rw [e]; exact yes
  have core : u.core c = s.core c := by rw [e]; rfl
  rw [State.xferRow, State.xferRead_scratch u c orig, State.xferWrite_host u c dest host, core]

/-! ## Tiles of the vestibule -/

/-- Row `i` of a tile, as far as a transfer takes it. -/
def Xfer.tileRow (x : Xfer) (tile : Tile) (i : Nat) : List Byte := ((tileRows tile).getD i []).take x.rb

theorem zip_range_eq {α : Type} (l : List α) (d : α) : (List.range l.length).zip l = (List.range l.length).map (fun i => (i, l.getD i d)) := by
  refine List.ext_getElem (by simp) fun i h1 h2 => ?_
  have lt : i < l.length := by simpa using h2
  simp [lt]

/-- The state once the rows of the head tile have been written, from row `i` of the transfer on. -/
def State.tileMoved (s : State) (c : Nat) (x : Xfer) (i : Nat) (tile : Tile) (more : List Tile) : State :=
  (List.range (tileRows tile).length).foldl (fun s j => s.xferWrite c x (i + j) (x.tileRow tile j)) (s.modCore c (fun k => { k with vest := more }))

theorem drainTiles_take {s : State} {c : Nat} {x : Xfer} {n i : Nat} {tile : Tile} {more : List Tile} (lt : i < x.rows)
    (head : (s.core c).vest = tile :: more) (dm : tile.toDm = true) :
    drainTiles c x (n + 1) i s = drainTiles c x n (i + (tileRows tile).length) (s.tileMoved c x i tile more) := by
  rw [drainTiles, if_neg (Nat.not_le.mpr lt), head]
  dsimp only
  rw [if_pos dm, zip_range_eq _ [], List.foldl_map]
  rfl

theorem drainTiles_stop {s : State} {c : Nat} {x : Xfer} {n i : Nat} (h : x.rows ≤ i ∨ (s.core c).vest = []) :
    drainTiles c x (n + 1) i s = (i, s) := by
  rw [drainTiles]
  rcases h with h | h
  · rw [if_pos h]
  · rw [h, ite_self]

theorem tileMoved_scratch {s : State} {c : Nat} {x : Xfer} (dest : x.toRegion = false) (i : Nat) (tile : Tile) (more : List Tile) :
    CoreAnd [] c { s.core c with
      vest := more
      scratch := (List.range (tileRows tile).length).foldl (fun m j =>
        writeBytes m (sAddr (x.dst % 8388608 + (i + j) * x.dStride)) (x.tileRow tile j)) (s.core c).scratch } s
      (s.tileMoved c x i tile more) :=
  foldl_scratch (w := fun m j => writeBytes m (sAddr (x.dst % 8388608 + (i + j) * x.dStride)) (x.tileRow tile j))
    (fun u _ j => State.xferWrite_scratch u c dest (i + j) _) _ (CoreBecomes.modCore s c _)

theorem tileMoved_region {s : State} {c : Nat} {x : Xfer} (dest : x.toRegion = true) (no : s.isHost x.dRegion = false) (i : Nat)
    (tile : Tile) (more : List Tile) :
    MemAnd ((List.range (tileRows tile).length).foldl (fun m j =>
      writeBytes m (s.copyBase x.dRegion 0 + x.dst + (i + j) * x.dStride) (x.tileRow tile j)) s.mem)
      (s.modCore c (fun k => { k with vest := more })) (s.tileMoved c x i tile more) := by
  refine foldl_memAnd (s := s.modCore c (fun k => { k with vest := more })) (w := fun m j =>
    writeBytes m (s.copyBase x.dRegion 0 + x.dst + (i + j) * x.dStride) (x.tileRow tile j)) (fun u same j => ?_) _ (MemAnd.refl _)
  have job : u.job = s.job := same .job (by simp)
  have row := State.xferWrite_region u c dest ((State.isHost_congr job _).trans no) (i + j) (x.tileRow tile j)
  rwa [State.copyBase_congr job] at row

theorem tileMoved_host {s : State} {c : Nat} {x : Xfer} (dest : x.toRegion = true) (yes : s.isHost x.dRegion = true)
    {tile : Tile} {more : List Tile} {n : Nat} (rows : (tileRows tile).length = n + 1) :
    s.tileMoved c x 0 tile more = { s.modCore c (fun k => { k with vest := more }) with outputs := { s.outputs with
      queue := s.outputs.queue ++ [⟨c, x.dRegion, (List.range (n + 1)).map (fun i => (x.dst + i * x.dStride, x.tileRow tile i))⟩] } } := by
  rw [State.tileMoved, rows]
  refine hostRows (s := s.modCore c (fun k => { k with vest := more })) (fun u e i => ?_) n
  have host : u.isHost x.dRegion = true := by rw [e]; exact yes
  rw [State.xferWrite_host u c dest host, Nat.zero_add]

/-! ## The row of DMXFER -/

theorem exec_dmxfer {s : State} {c : Nat} {q : EngCmd} {rest : List EngCmd} (ck : s.clocked = true) (hc : c < 256)
    (hq : (s.core c).qDm = q :: rest) (o : q.op = 0x41) (on : q.prog ≠ .stopped) :
    exec (.dmxfer c none) s = finish s (s.runXfer c) := by
  have u : exec (.dmxfer c none) s = execDmxfer c none s := rfl
  rw [u, execDmxfer, Core.head_of (e := .dm) hq o]
  exact (only_pos _ (decide_eq_true hc)).trans (act_pos _ ck (bne_iff_ne.mpr on))

/-- A transfer between memory, scratch and the commit queue moves its rows and retires. -/
theorem exec_dmxfer_rows {s : State} {c : Nat} {q : EngCmd} {rest : List EngCmd} (ck : s.clocked = true) (hc : c < 256)
    (hq : (s.core c).qDm = q :: rest) (o : q.op = 0x41) (fresh : q.prog = .fresh) (two : (xferOf q).dir ≠ 2) (small : (xferOf q).dir < 5) :
    exec (.dmxfer c none) s = finish s (((List.range (xferOf q).rows).foldl (State.xferRow c (xferOf q)) s).retire c .dm 0) := by
  rw [exec_dmxfer ck hc hq o (by rw [fresh]; simp), State.runXfer, Core.head_of (e := .dm) hq o]
  dsimp only
  rw [if_neg two, if_neg (Nat.not_le.mpr small), moveRows_all]

theorem putOutputs_parts (s : State) (o : Outputs) : ∀ p, p ∉ [Part.outputs] → p.same s { s with outputs := o } := by
  intro p n
  cases p
  case out => exact ⟨[], by simp, rfl⟩
  all_goals simp_all [Part.same]

/-- Rows that have joined the commit queue, and the end of their command. -/
theorem completes_outputs {i : Instr} {s s1 : State} {c : Nat} {x : Core} {o : Outputs}
    (e : exec i s = finish s (({ s1 with outputs := o } : State).retire c .dm 0)) (first : CoreBecomes c x s s1) (going : x.going) :
    Completes i s (fun t => t.core c = x.putQueue .dm ((x.queue .dm).eraseIdx 0) ∧ t.outputs = o ∧ OtherCores c s t
      ∧ Frame [.cores, .outputs] s t) := by
  have put := CoreAnd.of_parts c (putOutputs_parts s1 o) (by simp)
  rw [first.1] at put
  have ends := CoreBecomes.retire (s := { s1 with outputs := o }) (c := c) .dm 0 (by rw [put.1]; exact going)
  refine completes_coreAnd_of e (((first.coreAnd [.outputs]).trans put).retire .dm 0 going) fun t hs own other fr => ⟨own, ?_, other, fr⟩
  exact (hs .outputs).trans (ends.2.2 .outputs (by simp))

/-- A transfer from the vestibule takes one tile that it does not finish with, or that is its last. -/
theorem exec_dmxfer_tile {s : State} {c : Nat} {q : EngCmd} {rest : List EngCmd} (ck : s.clocked = true) (hc : c < 256)
    (hq : (s.core c).qDm = q :: rest) (o : q.op = 0x41) (on : q.prog ≠ .stopped) (big : 5 ≤ (xferOf q).dir)
    (lt : q.done < (xferOf q).rows) {tile : Tile} {more : List Tile} (head : (s.core c).vest = tile :: more) (dm : tile.toDm = true)
    (last : (xferOf q).rows ≤ q.done + (tileRows tile).length ∨ ((s.tileMoved c (xferOf q) q.done tile more).core c).vest = []) :
    exec (.dmxfer c none) s = finish s (if (xferOf q).rows ≤ q.done + (tileRows tile).length
      then (s.tileMoved c (xferOf q) q.done tile more).retire c .dm 0
      else (s.tileMoved c (xferOf q) q.done tile more).putCmd c .dm 0 { q with prog := .part (q.done + (tileRows tile).length) }) := by
  rw [exec_dmxfer ck hc hq o on, State.runXfer, Core.head_of (e := .dm) hq o]
  dsimp only
  rw [if_neg (by omega), if_pos big, drainTiles_take lt head dm, drainTiles_stop last]

/-! ## DMWLOAD -/

/-- Tile `j` of a weight load. -/
def State.wTile (s : State) (c : Nat) (q : EngCmd) (j : Nat) : List Byte :=
  let n := tileSize (bits 11 8 q.word) (bitAt 12 q.word)
  if bitAt 13 q.word then readBytes (s.core c).scratch (sAddr (ixAdd (bits 31 24 q.word) q.cnt (bits 102 80 q.word) + j * n)) n
  else readBytes s.mem (s.copyBase (bits 39 32 q.word) 0 + ixAdd (bits 31 24 q.word) q.cnt (bits 79 40 q.word) + j * n) n

/-- Reading a tile counts on its channels alone. -/
theorem weightTile_spec {s u : State} {c : Nat} {x : Core} (h : CoreAnd [.hbm] c x s u)
    (scratch : x.scratch = (s.core c).scratch) (q : EngCmd) (j : Nat) :
    (u.weightTile c q j).1 = s.wTile c q j ∧ CoreAnd [.hbm] c x s (u.weightTile c q j).2 := by
  unfold State.weightTile State.wTile
  dsimp only
  split
  · exact ⟨by rw [h.1, scratch], h⟩
  · rw [State.copyBase_congr (h.2.2 .job (by simp)), State.load, show u.mem = s.mem from h.2.2 .mem (by simp)]
    refine ⟨rfl, ?_⟩
    have counted := CoreAnd.of_parts c (countLines_parts u (s.copyBase (bits 39 32 q.word) 0 + ixAdd (bits 31 24 q.word) q.cnt (bits 79 40 q.word)
      + j * tileSize (bits 11 8 q.word) (bitAt 12 q.word)) false (tileSize (bits 11 8 q.word) (bitAt 12 q.word) / 128 + 2)
      (tileSize (bits 11 8 q.word) (bitAt 12 q.word))) (by simp)
    rw [h.1] at counted
    exact h.trans counted

/-- A core whose latch has taken `m` tiles of a weight load, from tile `j` on. -/
def Core.loaded (x : Core) (s : State) (c : Nat) (q : EngCmd) (j m : Nat) : Core :=
  { x with latch := x.latch ++ (List.range m).map (fun i => s.wTile c q (j + i)) }

theorem Core.loaded_zero (x : Core) (s : State) (c : Nat) (q : EngCmd) (j : Nat) : x.loaded s c q j 0 = x := by
  rw [Core.loaded, List.range_zero, List.map_nil, List.append_nil]

/-- One tile, and then the rest. -/
theorem Core.loaded_succ (x : Core) (s : State) (c : Nat) (q : EngCmd) (j m : Nat) :
    ({ x with latch := x.latch ++ [s.wTile c q j] } : Core).loaded s c q (j + 1) m = x.loaded s c q j (m + 1) := by
  have shift : ∀ i, s.wTile c q (j + (i + 1)) = s.wTile c q (j + 1 + i) := fun i => congrArg _ (by omega)
  simp only [Core.loaded, List.range_succ_eq_map, List.map_cons, List.map_map, List.append_assoc, List.cons_append, List.nil_append,
    Nat.add_zero, Function.comp_def, Nat.succ_eq_add_one, shift]

/-- A weight load fills the free halves of the latch in order. -/
theorem weightLoop_spec {s : State} {c lim : Nat} {q : EngCmd} (n : Nat) {u : State} {x : Core} {j m : Nat} (h : CoreAnd [.hbm] c x s u)
    (scratch : x.scratch = (s.core c).scratch) (fuel : lim - j ≤ n) (count : m = min (lim - j) (2 - x.latch.length)) :
    (weightLoop c lim n u q j).2 = { q with prog := .part (j + m) } ∧ CoreAnd [.hbm] c (x.loaded s c q j m) s (weightLoop c lim n u q j).1 := by
  induction n generalizing u x j m with
  | zero =>
    obtain rfl : m = 0 := by omega
    exact ⟨rfl, by rwa [Core.loaded_zero]⟩
  | succ n ih =>
    rw [weightLoop]
    split
    · next full =>
      rw [h.1] at full
      obtain rfl : m = 0 := by omega
      exact ⟨rfl, by rwa [Core.loaded_zero]⟩
    · next room =>
      rw [h.1] at room
      obtain ⟨value, read⟩ := weightTile_spec h scratch q j
      have put := (CoreBecomes.modCore (u.weightTile c q j).2 c (fun k => { k with latch := k.latch ++ [(u.weightTile c q j).1] })).coreAnd [.hbm]
      rw [read.1] at put
      have taken := read.trans put
      obtain ⟨k, rfl⟩ : ∃ k, m = k + 1 := ⟨m - 1, by omega⟩
      have next := ih (m := k) (j := j + 1) taken scratch (by omega) (by rw [List.length_append, List.length_singleton]; omega)
      rw [value, Core.loaded_succ, show j + 1 + k = j + (k + 1) by omega] at next
      dsimp only
      rw [value]
      exact next

theorem exec_dmwload {s : State} {c : Nat} {q : EngCmd} {rest : List EngCmd} (ck : s.clocked = true) (hc : c < 256)
    (hq : (s.core c).qDm = q :: rest) (o : q.op = 0x40) (on : q.prog ≠ .stopped) :
    exec (.dmwload c none) s = finish s (
      let r := weightLoop c (bits 23 14 q.word + 1) (bits 23 14 q.word + 1) s q q.done
      if bits 23 14 q.word + 1 ≤ r.2.done then r.1.retire c .dm 0 else r.1.putCmd c .dm 0 r.2) := by
  have u : exec (.dmwload c none) s = execDmwload c none s := rfl
  have head := Core.head_of (e := .dm) hq o
  rw [u, execDmwload, head]
  refine (only_pos _ (decide_eq_true hc)).trans ((act_pos _ ck (bne_iff_ne.mpr on)).trans ?_)
  rw [State.runWload, head]

end Sys2Proof.Machine

namespace Sys2Proof

open Machine

/-- Settles O38: each direction of a transfer is a fold of its rows over one store, and its end retires the command. -/
theorem theDataMoverMovesRows : Obligations.TheDataMoverMovesRows := by
  intro s c q rest ck hc going hq none
  have tail : ∀ x : Core, x.qDm = q :: rest → x.putQueue .dm ((x.queue .dm).eraseIdx 0) = { x with qDm := rest } := by
    intro x h
    simp only [Core.putQueue, Core.queue, h, List.eraseIdx_zero, List.tail_cons]
  have head : ∀ (x : Core) (r : EngCmd), x.qDm = q :: rest → x.putQueue .dm ((x.queue .dm).set 0 r) = { x with qDm := r :: rest } := by
    intro x r h
    simp only [Core.putQueue, Core.queue, h, List.set_cons_zero]
  refine ⟨?dmwload, ?rows, ?toScratch, ?toRegion, ?toHost⟩
  case dmwload =>
    intro o on part latch
    have e := exec_dmwload ck hc hq o on
    obtain ⟨cmd, moved⟩ := weightLoop_spec (q := q) (lim := bits 23 14 q.word + 1) (bits 23 14 q.word + 1) (j := q.done)
      ((CoreBecomes.refl c s).coreAnd _) rfl (by omega) rfl
    dsimp only at e
    rw [cmd, show ∀ m, ({ q with prog := .part (q.done + m) } : EngCmd).done = q.done + m from fun _ => rfl] at e
    by_cases last : bits 23 14 q.word + 1 ≤ q.done + min (bits 23 14 q.word + 1 - q.done) (2 - (s.core c).latch.length)
    · rw [if_pos last] at e
      obtain ⟨t, e, own, other, fr⟩ := completes_coreAnd e (moved.retire .dm 0 (Core.going_of_seq going rfl))
      refine ⟨t, e, ?_, other, fr⟩
      refine (own.trans (tail _ hq)).trans ?_
      rw [if_pos (by omega)]
      rfl
    · rw [if_neg last] at e
      obtain ⟨t, e, own, other, fr⟩ := completes_coreAnd e (moved.putCmd .dm 0 _)
      refine ⟨t, e, ?_, other, fr⟩
      refine (own.trans (head _ _ hq)).trans ?_
      rw [if_neg (by omega)]
      rfl
  case rows =>
    intro o fresh x at_ row
    have run : ∀ n, x.dir = n → n ≠ 2 → n < 5 → exec (.dmxfer c Option.none) s
        = finish s (((List.range x.rows).foldl (State.xferRow c x) s).retire c .dm 0) := by
      intro n h two small
      exact exec_dmxfer_rows ck hc hq o fresh (by rw [show (xferOf q).dir = n from h]; exact two)
        (by rw [show (xferOf q).dir = n from h]; exact small)
    have retires : ∀ {u : State} {m : Cells}, MemAnd m s u → CoreBecomes c { s.core c with qDm := rest } u (u.retire c .dm 0) := by
      intro u m moved
      have own : u.core c = s.core c := State.core_congr (moved.2.2 .cores (by simp)) c
      have r := CoreBecomes.retire (s := u) (c := c) .dm 0 (by rw [own]; exact going)
      rwa [own, tail _ hq] at r
    refine ⟨fun d => ?_, fun d => ?_, fun d no => ?_, fun d no => ?_, fun d yes => ?_⟩
    · have moved := xferRows_fromRegion (s := s) (c := c) (x := x) (by simp [Xfer.fromRegion, d]) (by simp [Xfer.toRegion, d])
      obtain ⟨t, e, own, rest⟩ := completes_coreAnd (run 0 d (by omega) (by omega)) (moved.retire .dm 0 (Core.going_of_seq going rfl))
      exact ⟨t, e, own.trans (tail _ hq), rest⟩
    · have moved := xferRows_scratch (s := s) (c := c) (x := x) (by simp [Xfer.fromRegion, d]) (by simp [Xfer.toRegion, d])
      obtain ⟨t, e, own, rest⟩ := completes_coreAnd (run 4 d (by omega) (by omega)) (moved.retire .dm 0 (Core.going_of_seq going rfl))
      exact ⟨t, e, own.trans (tail _ hq), rest⟩
    · have moved := xferRows_toRegion (s := s) (c := c) (x := x) (by simp [Xfer.fromRegion, d]) (by simp [Xfer.toRegion, d]) no
      exact completes_memAnd (run 1 d (by omega) (by omega)) (CoreBecomes.refl c s) moved (retires moved)
    · have moved := xferRows_memory (s := s) (c := c) (x := x) (by simp [Xfer.fromRegion, d]) (by simp [Xfer.toRegion, d]) no
      exact completes_memAnd (run 3 d (by omega) (by omega)) (CoreBecomes.refl c s) moved (retires moved)
    · have e := run 1 d (by omega) (by omega)
      rw [xferRows_host (by simp [Xfer.fromRegion, d]) (by simp [Xfer.toRegion, d]) yes rfl] at e
      obtain ⟨t, e, own, out, other, fr⟩ := completes_outputs e (CoreBecomes.refl c s) going
      rw [tail _ hq] at own
      exact ⟨t, e, out, own, other, fr⟩
  case toScratch =>
    intro tile more o on d part vest dm last
    have moved := tileMoved_scratch (s := s) (c := c) (x := xferOf q) (by simp [Xfer.toRegion, d]) q.done tile more
    have e := exec_dmxfer_tile ck hc hq o on (by omega) part vest dm (last.symm.imp_right fun h => by rw [moved.1]; exact h)
    split at e
    · next n =>
      obtain ⟨t, e, own, other, fr⟩ := completes_coreAnd e (moved.retire .dm 0 (Core.going_of_seq going rfl))
      refine ⟨t, e, ?_, other, fr⟩
      refine (own.trans (tail _ hq)).trans ?_
      rw [if_pos n]
      rfl
    · next n =>
      obtain ⟨t, e, own, other, fr⟩ := completes_coreAnd e (moved.putCmd .dm 0 _)
      refine ⟨t, e, ?_, other, fr⟩
      refine (own.trans (head _ _ hq)).trans ?_
      rw [if_neg n]
      rfl
  case toRegion =>
    intro tile more o on d no part vest dm last
    have moved := tileMoved_region (s := s) (c := c) (x := xferOf q) (by simp [Xfer.toRegion, d]) no q.done tile more
    have first := CoreBecomes.modCore s c (fun k => { k with vest := more })
    have own : (s.tileMoved c (xferOf q) q.done tile more).core c = { s.core c with vest := more } :=
      (State.core_congr (moved.2.2 .cores (by simp)) c).trans first.1
    have e := exec_dmxfer_tile ck hc hq o on (by omega) part vest dm (last.symm.imp_right fun h => by rw [own]; exact h)
    split at e
    · next n =>
      have ends := CoreBecomes.retire (s := s.tileMoved c (xferOf q) q.done tile more) (c := c) .dm 0
        (by rw [own]; exact Core.going_of_seq going rfl)
      rw [own] at ends
      replace ends := (tail { s.core c with vest := more } hq) ▸ ends
      obtain ⟨t, e, mem, core, -, other, fr⟩ := completes_memAnd e first moved ends
      refine ⟨t, e, ?_, mem, other, fr⟩
      rw [core, if_pos n]
    · next n =>
      have ends := CoreBecomes.putCmd (s.tileMoved c (xferOf q) q.done tile more) c .dm 0
        { q with prog := .part (q.done + (tileRows tile).length) }
      rw [own] at ends
      replace ends := (head { s.core c with vest := more } _ hq) ▸ ends
      obtain ⟨t, e, mem, core, -, other, fr⟩ := completes_memAnd e first moved ends
      refine ⟨t, e, ?_, mem, other, fr⟩
      rw [core, if_neg n]
  case toHost =>
    intro tile more o fresh d yes vest dm rows
    have start : q.done = 0 := by rw [EngCmd.done, fresh]
    have count : (xferOf q).rows = bits 47 32 (packNat 128 q.desc) + 1 := rfl
    have e := exec_dmxfer_tile ck hc hq o (by rw [fresh]; simp) (by omega) (by omega) vest dm (Or.inl (by omega))
    rw [if_pos (by omega), start, tileMoved_host (by simp [Xfer.toRegion, d]) yes (rows.symm.trans count)] at e
    obtain ⟨t, e, own, out, other, fr⟩ := completes_outputs e (CoreBecomes.modCore s c _) (Core.going_of_seq going rfl)
    exact ⟨t, e, own.trans (tail _ hq), out, other, fr⟩

end Sys2Proof
end

section
/-!
Transfers on a die: rows into the ingress buffer of a peer, their arrival, and the loader's bank (R80, R87, R88, R92, R165).
-/
namespace Sys2Proof.Machine

open Sys2Proof

/-! ## Settling after an arrival -/

/-- Where no queue has emptied behind the end of a step or a role, nothing settles. -/
theorem State.settleFrom_same {s t : State} (h : ∀ c, (t.core c).queuesEmpty = true → (s.core c).queuesEmpty = false →
    (t.core c).going) : State.settleFrom s t = t := by
  unfold State.settleFrom
  generalize t.cores.map Prod.fst = l
  induction l with
  | nil => rfl
  | cons c cs ih =>
    rw [List.foldl_cons]
    split
    · next e =>
      simp only [Bool.and_eq_true, Bool.not_eq_true'] at e
      rw [State.settle_going (h c e.2 e.1)]
      exact ih
    · exact ih

theorem actSettled_pos {s : State} {ok : Bool} (t : State) (ck : s.clocked = true) (h : ok = true)
    (calm : ∀ c, (t.core c).queuesEmpty = true → (s.core c).queuesEmpty = false → (t.core c).going) : actSettled s ok t = finish s t := by
  rw [actSettled, act_pos _ ck h, State.settleFrom_same calm]

theorem exec_transferArrival {s : State} {c : Nat} (ck : s.clocked = true) (hc : c < 256) (some : (s.core c).ingress ≠ [])
    (calm : ∀ d, ((s.arrive c).core d).queuesEmpty = true → (s.core d).queuesEmpty = false → ((s.arrive c).core d).going) :
    exec (.transferArrival c) s = finish s (s.arrive c) :=
  (only_pos _ (decide_eq_true hc)).trans (actSettled_pos _ ck (by simpa using some) calm)

/-! ## Landing -/

/-- Bytes within scratch land on their core. -/
theorem State.land_within (s : State) (c : Nat) {addr : Nat} {bs : List Byte} (flag cnt : Option Nat) (h : addr + bs.length ≤ 8388608) :
    s.land c addr bs flag cnt = s.modCore c (fun k => k.taking addr bs flag cnt) := by
  rw [State.land, if_neg (Nat.not_lt.mpr h)]
  cases flag <;> cases cnt <;> rfl

theorem Core.taking_keeps (k : Core) (addr : Nat) (bs : List Byte) (flag cnt : Option Nat) :
    (k.taking addr bs flag cnt).queuesEmpty = k.queuesEmpty ∧ (k.taking addr bs flag cnt).seq = k.seq
    ∧ (k.taking addr bs flag cnt).qDm = k.qDm := ⟨rfl, rfl, rfl⟩

/-- The head of an ingress buffer of the running role lands, and its sender learns of it. -/
theorem State.arrive_ok {s : State} {c : Nat} {x : Transfer} {rest : List Transfer} (head : (s.core c).ingress = x :: rest)
    (here : s.checkEpoch x.epoch = .here) (ok : verdict x.repoch (s.core c).roleEpoch.toNat = .ok) (nodb : ∀ h, x.sender ≠ .hart h) :
    s.arrive c = ((s.modCore c (fun k => { k with ingress := rest })).land c x.addr x.bytes x.flag x.cnt).transferDone x c false := by
  have own := s.core_modCore_same c (fun k => { k with ingress := rest })
  have here' : (s.modCore c (fun k => { k with ingress := rest })).checkEpoch x.epoch = .here := here
  unfold State.arrive
  rw [head]
  dsimp only
  rw [here']
  dsimp only
  rw [own, ok]
  dsimp only
  cases e : x.sender with
  | hart h => exact absurd e (nodb h)
  | _ => split <;> rfl

/-- The head of an ingress buffer of another role is counted and answered with a NACK. -/
theorem State.arrive_refused {s : State} {c : Nat} {x : Transfer} {rest : List Transfer} (head : (s.core c).ingress = x :: rest)
    (here : s.checkEpoch x.epoch = .here) {v : Verdict} (no : v ≠ .ok) (hv : verdict x.repoch (s.core c).roleEpoch.toNat = v) :
    s.arrive c = { (s.modCore c (fun k => { k with ingress := rest })).countVerdict c v with
      nacks := s.nacks ++ [⟨x, c, v == .stale, (s.core c).roleEpoch.toNat⟩] } := by
  have own := s.core_modCore_same c (fun k => { k with ingress := rest })
  have here' : (s.modCore c (fun k => { k with ingress := rest })).checkEpoch x.epoch = .here := here
  unfold State.arrive
  rw [head]
  dsimp only
  rw [here']
  dsimp only
  rw [own, hv]
  cases v with
  | ok => exact absurd rfl no
  | early => rfl
  | stale => rfl

theorem putNacks_parts (s : State) (l : List DieNack) : ∀ p, p ∉ [Part.nacks] → p.same s { s with nacks := l } := by
  intro p n
  cases p
  case out => exact ⟨[], by simp, rfl⟩
  all_goals simp_all [Part.same]

/-! ## Rows for a peer -/

/-- Row `i` of a transfer to a peer, as it enters the ingress buffer: flag and count go with the last row. -/
def State.peerRow (s : State) (c : Nat) (x : Xfer) (i : Nat) : Transfer :=
  { sender := .core c, epoch := s.epoch, repoch := x.repoch, addr := x.dst % 8388608 + i * x.dStride
    bytes := x.scratchRow (s.core c).scratch i, flag := if i + 1 = x.rows then x.flag else none
    cnt := if i + 1 = x.rows then x.cnt else none }

/-- With room for all of them, the rows from row `k` on enter the ingress buffer in order. -/
theorem sendRows_spec {s : State} {c : Nat} {x : Xfer} (orig : x.fromRegion = false) (n : Nat) {k : Nat} {u : State} {y : Core} {q : EngCmd}
    (h : CoreBecomes (x.target c) y s u) (scratch : y.scratch = (s.core (x.target c)).scratch) (rows : x.rows = k + n) (todo : q.todo = n)
    (prog : q.prog = .issued k ∨ q.prog = .fresh ∧ k = 0) (some : 0 < k + n) (room : y.ingress.length + n ≤ 32) :
    (sendRows c x n u q).2 = { q with todo := 0, prog := .issued (k + n) }
    ∧ CoreBecomes (x.target c) { y with ingress := y.ingress ++ (List.range' k n).map (s.peerRow c x) } s (sendRows c x n u q).1 := by
  induction n generalizing k u y q with
  | zero =>
    have part : q.prog = .issued k := prog.resolve_right (by omega)
    refine ⟨?_, ?_⟩
    · rw [sendRows, Nat.add_zero, ← part, ← todo]
    · rw [List.range'_zero, List.map_nil, List.append_nil]
      exact h
  | succ n ih =>
    have src : (u.core c).scratch = (s.core c).scratch := by
      by_cases e : c = x.target c
      · rw [e, h.1, scratch, ← e]
      · rw [h.2.1 c e]
    have epoch : u.epoch = s.epoch := by rw [State.epoch, State.epoch, show u.job = s.job from h.2.2 .job (by simp)]
    have index : x.rows - q.todo = k := by omega
    have last : (q.todo == 1) = decide (k + 1 = x.rows) := by
      rw [Bool.eq_iff_iff, beq_iff_eq, decide_eq_true_eq]
      omega
    have free : (u.core (x.target c)).ingress.length < 32 := by rw [h.1]; omega
    have taken := h.trans (CoreBecomes.modCore u (x.target c) (fun k' => { k' with ingress := k'.ingress ++ [s.peerRow c x k] }))
    rw [h.1] at taken
    have step : sendRows c x (n + 1) u q = sendRows c x n (u.modCore (x.target c) (fun k' => { k' with ingress := k'.ingress ++ [s.peerRow c x k] }))
        { q with todo := q.todo - 1, prog := .issued (k + 1) } := by
      rw [sendRows, if_neg (by omega)]
      dsimp only
      rw [index, last, State.xferRead_scratch u c orig, src, epoch, State.ingress, if_pos free]
      rcases prog with p | ⟨p, rfl⟩ <;> simp only [p, decide_eq_true_eq] <;> rfl
    have next := ih (k := k + 1) taken scratch (by omega) (q := { q with todo := q.todo - 1, prog := .issued (k + 1) })
      (by show q.todo - 1 = n; omega) (.inl rfl) (by omega) (by simp; omega)
    rw [step]
    refine ⟨next.1.trans ?_, ?_⟩
    · rw [show k + 1 + n = k + (n + 1) by omega]
    · have all := next.2
      rw [List.append_assoc] at all
      rw [List.range'_succ]
      exact all

/-- A transfer to a peer with room for its rows. -/
theorem exec_dmxfer_peer {s : State} {c : Nat} {q : EngCmd} {rest : List EngCmd} (ck : s.clocked = true) (hc : c < 256)
    (hq : (s.core c).qDm = q :: rest) (o : q.op = 0x41) (fresh : q.prog = .fresh) (two : (xferOf q).dir = 2) :
    exec (.dmxfer c none) s = finish s (
      let r := sendRows c (xferOf q) (xferOf q).rows s { q with todo := (xferOf q).rows }
      r.1.putCmd c .dm 0 r.2) := by
  rw [exec_dmxfer ck hc hq o (by rw [fresh]; simp), State.runXfer, Core.head_of (e := .dm) hq o]
  dsimp only
  rw [if_pos two, if_pos fresh]

/-! ## The loader -/

theorem exec_loaderBankComplete {s : State} {c role : Nat} {im : Image} {r : Role} (ck : s.clocked = true) (hc : c < 256)
    (image : s.job.image = some im) (hr : im.role role = some r) (held : s.job.held = true) :
    exec (.loaderBankComplete c role) s = finish s
      (s.modCore c (fun k => k.putStandby { st := .ready, role := some role, cmds := r.cmds, descs := r.descs })) := by
  have u : exec (.loaderBankComplete c role) s = execLoaderBankComplete c role s := rfl
  have found : s.job.image.bind (fun im => im.role role) = some r := by rw [image]; exact hr
  rw [u, execLoaderBankComplete, found]
  exact (only_pos _ (decide_eq_true hc)).trans (act_pos _ ck held)

end Sys2Proof.Machine

namespace Sys2Proof

open Machine

/-- Settles O39: the target's ingress buffer takes all rows, its head lands or is refused, and the sender of the last row
retires. -/
theorem transfersOnADieArrive : Obligations.TransfersOnADieArrive := by
  intro s c ck hc
  refine ⟨?peer, ?single, ?last, ?loader⟩
  case peer =>
    intro q rest hq o fresh two room
    have e := exec_dmxfer_peer ck hc hq o fresh two
    have rows : 0 < (xferOf q).rows := Nat.succ_pos _
    obtain ⟨cmd, sent⟩ := sendRows_spec (s := s) (c := c) (x := xferOf q) (by simp [Xfer.fromRegion, two]) (xferOf q).rows (k := 0)
      (q := { q with todo := (xferOf q).rows }) (CoreBecomes.refl _ s) rfl (Nat.zero_add _).symm rfl (.inr ⟨fresh, rfl⟩) (by omega) room
    dsimp only at e
    rw [cmd, Nat.zero_add] at e
    obtain ⟨own, others, parts⟩ := sent
    have put := CoreBecomes.putCmd (sendRows c (xferOf q) (xferOf q).rows s { q with todo := (xferOf q).rows }).1 c .dm 0
      { q with todo := 0, prog := .issued (xferOf q).rows }
    have sentCore : ∀ d, (sendRows c (xferOf q) (xferOf q).rows s { q with todo := (xferOf q).rows }).1.core d
        = { s.core d with ingress := if d = (xferOf q).target c
              then (s.core d).ingress ++ (List.range (xferOf q).rows).map (s.peerRow c (xferOf q)) else (s.core d).ingress } := by
      intro d
      by_cases h : d = (xferOf q).target c
      · rw [h, own, if_pos rfl, List.range_eq_range']
      · rw [others d h, if_neg h]
    refine completes_of e fun t hp hs => ?_
    have core : ∀ d, t.core d = { s.core d with
        ingress := if d = (xferOf q).target c then (s.core d).ingress ++ (List.range (xferOf q).rows).map (s.peerRow c (xferOf q))
          else (s.core d).ingress
        qDm := if d = c then { q with todo := 0, prog := .issued (xferOf q).rows } :: rest else (s.core d).qDm } := by
      intro d
      rw [State.core_congr (hs .cores)]
      by_cases h : d = c
      · rw [h, put.1, sentCore, if_pos rfl]
        simp only [Core.putQueue, Core.queue, hq, List.set_cons_zero]
      · rw [put.2.1 d h, sentCore, if_neg h]
    refine ⟨?_, ?_, fun d => ?_, fun d nc nt => ?_, hp, fun p n => ?_⟩
    · rw [core, if_pos rfl]
      rfl
    · rw [core, if_pos rfl]
    · rw [core]
    · rw [core, if_neg nc, if_neg nt]
    · exact Part.same_trans (parts p n) (Part.same_trans (put.2.2 p n) (hs p))
  case single =>
    intro x rest head here alone small
    have some : (s.core c).ingress ≠ [] := by rw [head]; simp
    have refused : ∀ v, v ≠ Verdict.ok → verdict x.repoch (s.core c).roleEpoch.toNat = v → ∀ k : Core,
        CoreBecomes c k s ((s.modCore c (fun k => { k with ingress := rest })).countVerdict c v) → k.queuesEmpty = (s.core c).queuesEmpty →
        Completes (.transferArrival c) s (fun t => t.core c = k ∧ t.nacks = s.nacks ++ [⟨x, c, v == .stale, (s.core c).roleEpoch.toNat⟩]
          ∧ OtherCores c s t ∧ Frame [.cores, .nacks] s t) := by
      intro v no hv k becomes queues
      have put := CoreAnd.of_parts c (putNacks_parts ((s.modCore c (fun k => { k with ingress := rest })).countVerdict c v)
        (s.nacks ++ [⟨x, c, v == .stale, (s.core c).roleEpoch.toNat⟩])) (by simp)
      rw [becomes.1] at put
      have all := (becomes.coreAnd [.nacks]).trans put
      rw [← State.arrive_refused head here no hv] at all
      refine completes_coreAnd_of (exec_transferArrival ck hc some fun d e1 e0 => ?_) all fun t hs own other fr => ⟨own, ?_, other, fr⟩
      · by_cases h : d = c
        · rw [h, all.1, queues, ← h, e0] at e1
          cases e1
        · rw [all.2.1 d h, e0] at e1
          cases e1
      · refine (hs .nacks).trans ?_
        rw [State.arrive_refused head here no hv]
    refine ⟨fun ok => ?_, fun early => ?_, fun stale => ?_⟩
    · have arrived : s.arrive c = (s.modCore c (fun k => { k with ingress := rest })).modCore c (fun k => k.taking x.addr x.bytes x.flag x.cnt) := by
        rw [State.arrive_ok head here ok (by rw [alone]; simp), State.land_within _ _ _ _ small, State.transferDone, alone]
      have all := (CoreBecomes.modCore s c (fun k => { k with ingress := rest })).trans
        (CoreBecomes.modCore _ c (fun k => k.taking x.addr x.bytes x.flag x.cnt))
      rw [State.core_modCore_same, ← arrived] at all
      refine completes_coreBecomes (exec_transferArrival ck hc some fun d e1 e0 => ?_) all
      by_cases h : d = c
      · rw [h, all.1] at e1
        rw [h] at e0
        exact absurd ((e0.symm.trans e1 : false = true)) Bool.false_ne_true
      · rw [all.2.1 d h, e0] at e1
        cases e1
    · have all := (CoreBecomes.modCore s c (fun k => { k with ingress := rest })).trans
        (CoreBecomes.modCore _ c (fun k => { k with stats := { k.stats with early := count 32 k.stats.early 1 } }))
      rw [State.core_modCore_same] at all
      exact refused .early (by simp) early _ all rfl
    · have all := (CoreBecomes.modCore s c (fun k => { k with ingress := rest })).trans
        (CoreBecomes.modCore _ c (fun k => { k with stats := { k.stats with stale := count 32 k.stats.stale 1 } }))
      rw [State.core_modCore_same] at all
      exact refused .stale (by simp) stale _ all rfl
  case last =>
    intro x rest b q qs head here sender ne small ok hq issued todo going
    have some : (s.core c).ingress ≠ [] := by rw [head]; simp
    let landed : State := (s.modCore c (fun k => { k with ingress := rest })).modCore c (fun k => k.taking x.addr x.bytes x.flag x.cnt)
    have land := (CoreBecomes.modCore s c (fun k => { k with ingress := rest })).trans
      (CoreBecomes.modCore _ c (fun k => k.taking x.addr x.bytes x.flag x.cnt))
    rw [State.core_modCore_same] at land
    have arrived : s.arrive c = landed.transferDone x c false := by
      rw [State.arrive_ok head here ok (by rw [sender]; simp), State.land_within _ _ _ _ small]
    have sent : landed.core b = s.core b := land.2.1 b ne
    have done : CoreBecomes b { s.core b with qDm := qs } landed (s.arrive c) := by
      rw [arrived, State.transferDone, sender]
      have all := CoreBecomes.modCore landed b (fun k => match k.qDm with
        | q :: rest => match q.prog with
          | .issued n => if n ≤ 1 ∧ q.todo = 0 then { k with qDm := rest } else { k with qDm := { q with prog := .issued (n - 1) } :: rest }
          | _ => k
        | [] => k)
      rw [sent, hq] at all
      dsimp only at all
      rw [issued] at all
      dsimp only at all
      rw [if_pos ⟨Nat.le_refl 1, todo⟩] at all
      exact all
    have own : (s.arrive c).core c = ({ s.core c with ingress := rest } : Core).taking x.addr x.bytes x.flag x.cnt :=
      (done.2.1 c ne.symm).trans land.1
    refine completes_of (exec_transferArrival ck hc some fun d e1 e0 => ?_) fun t hp hs => ?_
    · by_cases hb : d = b
      · rw [hb, done.1]
        exact Core.going_of_seq going rfl
      · by_cases h : d = c
        · rw [h, own] at e1
          rw [h] at e0
          exact absurd ((e0.symm.trans e1 : false = true)) Bool.false_ne_true
        · rw [done.2.1 d hb, land.2.1 d h, e0] at e1
          cases e1
    · refine ⟨(State.core_congr (hs .cores) c).trans own, (State.core_congr (hs .cores) b).trans done.1, fun d nb nc => ?_, hp, fun p n => ?_⟩
      · rw [State.core_congr (hs .cores), done.2.1 d nb, land.2.1 d nc]
      · exact Part.same_trans (land.2.2 p n) (Part.same_trans (done.2.2 p n) (hs p))
  case loader =>
    intro role im r image hr held
    obtain ⟨t, e, own, other, fr⟩ := completes_coreBecomes (exec_loaderBankComplete ck hc image hr held) (CoreBecomes.modCore s c _)
    refine ⟨t, e, ?_, ?_, ?_, other, fr⟩
    all_goals
      rw [own]
      cases one : (s.core c).activeIs1 <;> simp [Core.putStandby, Core.standby, Core.bank, one]

end Sys2Proof
end

section
/-!
Conversion stations: contexts, submission, and the rows of a NARROW or GENERATE descriptor (8, R206, R211 to R213, R217).
-/
namespace Sys2Proof.Machine

open Sys2Proof

/-! ## Contexts -/

theorem modStation_parts (s : State) (n : Nat) (f : Station → Station) : ∀ p, p ∉ [Part.stations] → p.same s (s.modStation n f) := by
  intro p h
  cases p
  case out => exact ⟨[], by simp, rfl⟩
  all_goals simp_all [Part.same]

theorem State.station_congr {s t : State} (h : t.stations = s.stations) (n : Nat) : t.station n = s.station n := by
  rw [State.station, State.station, h]

theorem State.convCtx_congr {s t : State} (h : t.stations = s.stations) (n id : Nat) : t.convCtx n id = s.convCtx n id := by
  rw [State.convCtx, State.convCtx, State.station_congr h]

theorem modCtx_parts (s : State) (n id : Nat) (f : ConvCtx → ConvCtx) : ∀ p, p ∉ [Part.stations] → p.same s (s.modCtx n id f) :=
  modStation_parts s n _

theorem State.ring_modCtx (s : State) (n id : Nat) (f : ConvCtx → ConvCtx) (m : Nat) :
    ((s.modCtx n id f).station m).ring = (s.station m).ring := by
  rw [State.modCtx, State.station_modStation]
  split
  · next h => rw [h]
  · rfl

/-- Changing a context by what keeps its number changes that context and no other. -/
theorem State.convCtx_modCtx (s : State) (n id : Nat) {f : ConvCtx → ConvCtx} (keeps : ∀ x, (f x).id = x.id) (m k : Nat) :
    (s.modCtx n id f).convCtx m k = if (m, k) = (n, id) then (s.convCtx n id).map f else s.convCtx m k := by
  by_cases hm : m = n
  · subst hm
    have number : ∀ x : ConvCtx, (if x.id = id then f x else x).id = x.id := fun x => by split <;> simp [keeps]
    rw [State.convCtx, State.modCtx, State.station_modStation, if_pos rfl, List.find?_map]
    have same : ((fun x : ConvCtx => x.id == k) ∘ fun x => if x.id = id then f x else x) = fun x => x.id == k :=
      funext fun x => congrArg (· == k) (number x)
    rw [same]
    show ((s.convCtx m k).map _) = _
    cases e : s.convCtx m k with
    | none =>
      split
      · next h => cases h; rw [e]; rfl
      · rfl
    | some x =>
      have found : x.id = k := by simpa using List.find?_some e
      by_cases hk : k = id
      · subst hk
        rw [if_pos rfl, e]
        simp [found]
      · rw [if_neg (by simp [hk]), Option.map_some, found, if_neg hk]
  · rw [if_neg (by simp [hm]), State.convCtx, State.modCtx, State.station_modStation, if_neg hm]
    rfl

theorem State.convDesc_congr {s t : State} (h : t.job = s.job) (i : Nat) : t.convDesc i = s.convDesc i := by
  rw [State.convDesc, State.convDesc, h]

theorem State.epoch_congr {s t : State} (h : t.job = s.job) : t.epoch = s.epoch := by
  rw [State.epoch, State.epoch, h]

/-! ## Submission and allocation -/

theorem exec_convSubmit {i : Instr} {s : State} {c : Nat} {op : ConvOp} {q : EngCmd} {rest : List EngCmd} (e : exec i s = s.convSubmit op c)
    (ck : s.clocked = true) (hc : c < 256) (hq : (s.core c).qDm = q :: rest) (o : q.op = 0x43) (fresh : q.prog = .fresh)
    (hop : (s.convDesc (bits 19 8 q.word)).op = op) (room : (s.station (s.convDesc (bits 19 8 q.word)).station).ring.length < 256) :
    exec i s = finish s (
      let t := s.modStation (s.convDesc (bits 19 8 q.word)).station (fun st =>
        { st with ring := st.ring ++ [⟨c, bits 19 8 q.word⟩], ringHigh := max st.ringHigh (st.ring.length + 1) })
      if (s.convDesc (bits 19 8 q.word)).vest then t.putCmd c .dm 0 { q with prog := .issued 0 } else t.retire c .dm 0) := by
  rw [e, State.convSubmit, Core.head_of (e := .dm) hq o]
  exact (only_pos _ (decide_eq_true hc)).trans (act_pos _ ck (by simp [hop, fresh, room]))

theorem exec_contextAllocate {s : State} {n : Nat} {it : ConvItem} {rest : List ConvItem} (ck : s.clocked = true) (hn : n < 32)
    (hr : (s.station n).ring = it :: rest) (room : (s.station n).ctxs.length < 64) :
    exec (.contextAllocate n) s = finish s (
      let d := s.convDesc it.desc
      let aff := if d.aff then s.load (s.copyBase d.affRegion 0 + d.affOff) (16 * d.ch) else []
      s.modStation n (fun st =>
        { st with ring := rest, ctxs := st.ctxs ++ [{ id := st.next, item := it, aff := aff }], next := st.next + 1
                  ctxHigh := max st.ctxHigh (st.ctxs.length + 1) })) := by
  have u : exec (.contextAllocate n) s = execContextAllocate n s := rfl
  rw [u, execContextAllocate]
  dsimp only
  rw [hr]
  exact (only_pos _ (decide_eq_true hn)).trans (act_pos _ ck (by simp [room]))

/-- The work of a context without a parity error. -/
theorem exec_convWork {i : Instr} {s : State} {n id : Nat} {op : ConvOp} {f : ConvDesc → State → State} {x : ConvCtx}
    (e : exec i s = s.convWork op n id false f) (ck : s.clocked = true) (hn : n < 32) (ctx : s.convCtx n id = some x)
    (hop : (s.convDesc x.item.desc).op = op) : exec i s = finish s (f (s.convDesc x.item.desc) s) := by
  rw [e, State.convWork, ctx]
  exact (only_pos _ (decide_eq_true hn)).trans (act_pos _ ck (by simp [hop]))

theorem exec_narrowWork {s : State} {n id : Nat} {x : ConvCtx} (ck : s.clocked = true) (hn : n < 32) (ctx : s.convCtx n id = some x)
    (hop : (s.convDesc x.item.desc).op = .narrow) : exec (.dmconvNarrow (.work n id false)) s = finish s
      (convFlags n id (s.convDesc x.item.desc) (s.convDesc x.item.desc).ncore
        (deliverRows n id (s.convDesc x.item.desc) (s.convDesc x.item.desc).rows s)) :=
  exec_convWork (f := fun d s => convFlags n id d d.ncore (deliverRows n id d d.rows s)) rfl ck hn ctx hop

theorem exec_generateWork {s : State} {n id : Nat} {x : ConvCtx} (ck : s.clocked = true) (hn : n < 32) (ctx : s.convCtx n id = some x)
    (hop : (s.convDesc x.item.desc).op = .generate) : exec (.dmconvGenerate (.work n id false)) s = finish s
      (convFlags n id (s.convDesc x.item.desc) (s.convDesc x.item.desc).ncore
        (deliverRows n id (s.convDesc x.item.desc) (s.convDesc x.item.desc).rows s)) :=
  exec_convWork (f := fun d s => convFlags n id d d.ncore (deliverRows n id d d.rows s)) rfl ck hn ctx hop

/-! ## Deliveries of one context -/

/-- `u` is `s` once context `id` of station `n`, now `y`, has put transfers `ts e` into the ingress buffer of each core `e`. -/
structure Delivered (n id : Nat) (ts : Nat → List Transfer) (y : ConvCtx) (s u : State) : Prop where
  core : ∀ e, u.core e = { s.core e with ingress := (s.core e).ingress ++ ts e }
  ctx : u.convCtx n id = some y
  other : ∀ m k, (m, k) ≠ (n, id) → u.convCtx m k = s.convCtx m k
  ring : ∀ m, (u.station m).ring = (s.station m).ring
  parts : ∀ p, p ∉ [Part.cores, Part.stations, Part.hbm] → p.same s u

theorem Delivered.congr {n id : Nat} {ts us : Nat → List Transfer} {y z : ConvCtx} {s u : State} (h : Delivered n id ts y s u)
    (sent : us = ts) (ctx : z = y) : Delivered n id us z s u := by
  rwa [sent, ctx]

theorem Delivered.start {n id : Nat} {s : State} {y : ConvCtx} (h : s.convCtx n id = some y) : Delivered n id (fun _ => []) y s s :=
  ⟨fun e => by rw [List.append_nil], h, fun _ _ _ => rfl, fun _ => rfl, fun p _ => p.same_refl s⟩

theorem Delivered.modCtx {n id : Nat} {ts : Nat → List Transfer} {y : ConvCtx} {s u : State} (h : Delivered n id ts y s u)
    (f : ConvCtx → ConvCtx) (keeps : ∀ x, (f x).id = x.id) : Delivered n id ts (f y) s (u.modCtx n id f) := by
  refine ⟨fun e => ?_, ?_, fun m k ne => ?_, fun m => (u.ring_modCtx n id f m).trans (h.ring m), fun p k => ?_⟩
  · rw [State.core_congr (modCtx_parts u n id f .cores (by simp)), h.core]
  · rw [u.convCtx_modCtx n id keeps, if_pos rfl, h.ctx, Option.map_some]
  · rw [u.convCtx_modCtx n id keeps, if_neg ne, h.other m k ne]
  · exact Part.same_trans (h.parts p k) (modCtx_parts u n id f p (by simp_all))

/-- What changes stack counts alone delivers nothing. -/
theorem Delivered.hbm {n id : Nat} {ts : Nat → List Transfer} {y : ConvCtx} {s u v : State} (h : Delivered n id ts y s u)
    (k : ∀ p, p ∉ [Part.hbm] → p.same u v) : Delivered n id ts y s v := by
  have stations : v.stations = u.stations := k .stations (by simp)
  refine ⟨fun e => ?_, ?_, fun m j ne => ?_, fun m => ?_, fun p q => Part.same_trans (h.parts p q) (k p (by simp_all))⟩
  · rw [State.core_congr (k .cores (by simp)), h.core]
  · rw [State.convCtx_congr stations, h.ctx]
  · rw [State.convCtx_congr stations, h.other m j ne]
  · rw [State.station_congr stations, h.ring]

/-- A transfer of context `id` of station `n`. -/
def State.convTransfer (s : State) (n id addr repoch : Nat) (bs : List Byte) (flag cnt : Option Nat) : Transfer :=
  { sender := .station n id, epoch := s.epoch, repoch := repoch, addr := addr, bytes := bs, flag := flag, cnt := cnt }

/-- Into a core with room, a delivery enters the ingress buffer; bytes are noted with their core, a flag alone as such. -/
theorem Delivered.convSend {n id : Nat} {ts : Nat → List Transfer} {y : ConvCtx} {s u : State} (h : Delivered n id ts y s u)
    {c : Nat} (addr repoch : Nat) (bs : List Byte) (flag cnt : Option Nat) (room : (s.core c).ingress.length + (ts c).length < 32) :
    Delivered n id (fun e => if e = c then ts e ++ [s.convTransfer n id addr repoch bs flag cnt] else ts e)
      (if bs.isEmpty then { y with flagOut := true } else { y with out := y.out ++ [c] }) s
      (u.convSend n id c addr repoch bs flag cnt) := by
  have epoch := State.epoch_congr (h.parts .job (by simp))
  have free : (u.core c).ingress.length < 32 := by
    rw [h.core c, List.length_append]
    exact room
  have put : Delivered n id (fun e => if e = c then ts e ++ [s.convTransfer n id addr repoch bs flag cnt] else ts e) y s
      (u.modCore c (fun k => { k with ingress := k.ingress ++ [s.convTransfer n id addr repoch bs flag cnt] })) := by
    refine ⟨fun e => ?_, h.ctx, h.other, h.ring, fun p k => Part.same_trans (h.parts p k) (modCore_parts u c _ p (by simp_all))⟩
    rw [State.core_modCore]
    split
    · next e => rw [e, h.core c, List.append_assoc]
    · rw [h.core]
  unfold State.convSend
  dsimp only
  rw [epoch, State.ingress, if_pos free]
  dsimp only
  split
  · exact put.modCtx (fun x => { x with flagOut := true }) fun _ => rfl
  · exact put.modCtx (fun x => { x with out := x.out ++ [c] }) fun _ => rfl

/-- No flag goes while its core's rows are not all sent, or while one is unanswered. -/
theorem convFlags_held {n id : Nat} {d : ConvDesc} {s : State} {y : ConvCtx} (k : Nat) (ctx : s.convCtx n id = some y)
    (h : d.ncore ≤ y.flagged ∨ y.flagOut = true ∨ y.row < min d.rows ((y.flagged + 1) * d.rpc) ∨ y.out.contains (d.core0 + y.flagged) = true) :
    convFlags n id d k s = s := by
  cases k with
  | zero => rfl
  | succ k =>
    rw [convFlags, ctx]
    exact if_pos h

/-! ## Rows of a context -/

/-- The bytes and scale bytes of row `r` of a context. -/
def State.convRow (s : State) (d : ConvDesc) (x : ConvCtx) (r : Nat) : List Byte × List Byte :=
  if d.op = .generate then (s.drawBytes d r, []) else s.narrowBytes d x.item.desc x.aff r

theorem State.convRow_congr {s t : State} (job : t.job = s.job) (mem : t.mem = s.mem) (d : ConvDesc) (x : ConvCtx) (r : Nat) :
    t.convRow d x r = s.convRow d x r := by
  simp only [State.convRow, State.drawBytes, State.narrowBytes, State.load, State.copyBase_congr job, job, mem]

/-- The transfers of row `r`: its bytes, and its scale bytes where the format has them. -/
def State.rowTransfers (s : State) (n id : Nat) (d : ConvDesc) (x : ConvCtx) (r : Nat) : List Transfer :=
  s.convTransfer n id (d.saddr + r % d.rpc * d.sstride) d.repoch (s.convRow d x r).1 none none
    :: (if d.mx then [s.convTransfer n id (d.scaddr + r % d.rpc * d.scstride) d.repoch (s.convRow d x r).2 none none] else [])

/-- The core of row `r`. -/
def ConvDesc.coreOf (d : ConvDesc) (r : Nat) : Nat := d.core0 + r / d.rpc

/-- Deliveries of a row. -/
def ConvDesc.per (d : ConvDesc) : Nat := if d.mx then 2 else 1

/-- What rows `0` to `r - 1` have sent to core `e`. -/
def State.rowsTo (s : State) (n id : Nat) (d : ConvDesc) (x : ConvCtx) (r e : Nat) : List Transfer :=
  ((List.range r).filter (fun i => d.coreOf i == e)).flatMap (s.rowTransfers n id d x)

/-- The context after rows `0` to `r - 1`. -/
def ConvCtx.rowsOut (x : ConvCtx) (d : ConvDesc) (r : Nat) : ConvCtx :=
  { x with row := r, out := (List.range r).flatMap (fun i => List.replicate d.per (d.coreOf i)) }

theorem length_rowTransfers (s : State) (n id : Nat) (d : ConvDesc) (x : ConvCtx) (r : Nat) :
    (s.rowTransfers n id d x r).length = d.per := by
  unfold State.rowTransfers ConvDesc.per
  split <;> rfl

theorem length_rowsTo (s : State) (n id : Nat) (d : ConvDesc) (x : ConvCtx) (r e : Nat) :
    (s.rowsTo n id d x r e).length = d.per * ((List.range r).filter (fun i => d.coreOf i == e)).length := by
  unfold State.rowsTo
  induction (List.range r).filter (fun i => d.coreOf i == e) with
  | nil => rfl
  | cons a l ih => rw [List.flatMap_cons, List.length_append, ih, length_rowTransfers, List.length_cons, Nat.mul_succ, Nat.add_comm]

theorem rowsTo_succ (s : State) (n id : Nat) (d : ConvDesc) (x : ConvCtx) (r e : Nat) :
    s.rowsTo n id d x (r + 1) e = if e = d.coreOf r then s.rowsTo n id d x r e ++ s.rowTransfers n id d x r else s.rowsTo n id d x r e := by
  unfold State.rowsTo
  rw [List.range_succ, List.filter_append, List.flatMap_append]
  by_cases h : e = d.coreOf r
  · rw [if_pos h, List.filter_cons_of_pos (by simp [h])]
    simp
  · rw [if_neg h, List.filter_cons_of_neg (by simpa using fun k => h k.symm)]
    simp

theorem rowsOut_succ (x : ConvCtx) (d : ConvDesc) (r : Nat) :
    (x.rowsOut d (r + 1)).out = (x.rowsOut d r).out ++ List.replicate d.per (d.coreOf r) := by
  simp [ConvCtx.rowsOut, List.range_succ]

/-- A later row takes one of the places that its core has for all rows. -/
theorem filter_range_lt {p : Nat → Bool} {r n : Nat} (lt : r < n) (h : p r = true) :
    ((List.range r).filter p).length + 1 ≤ ((List.range n).filter p).length := by
  have split : List.range n = List.range (r + 1) ++ (List.range (n - (r + 1))).map (fun i => r + 1 + i) := by
    rw [← List.range_add]
    congr 1
    omega
  rw [split, List.filter_append, List.range_succ, List.filter_append, List.filter_cons_of_pos h]
  simp only [List.length_append, List.length_cons, List.filter_nil, List.length_nil]
  omega

/-- The state after row `r` has gone out: its source lines counted, its bytes and scale bytes sent. -/
def State.rowSent (u : State) (n id : Nat) (d : ConvDesc) (x : ConvCtx) (r : Nat) : State :=
  let t := if d.op = .generate then u
    else u.countLines (u.copyBase d.region 0 + d.roff + r * d.rstride) false (d.ch / 16 + 2) (d.ch * (fmtBits d.sfmt / 8))
  let t := t.convSend n id (d.coreOf r) (d.saddr + r % d.rpc * d.sstride) d.repoch (u.convRow d x r).1 none none
  let t := if d.mx then t.convSend n id (d.coreOf r) (d.scaddr + r % d.rpc * d.scstride) d.repoch (u.convRow d x r).2 none none else t
  t.modCtx n id (fun x => { x with row := x.row + 1 })

/-- With room for its row a context sends it. -/
theorem deliverRows_step {n id k : Nat} {d : ConvDesc} {u : State} {y : ConvCtx} (ctx : u.convCtx n id = some y)
    (held : convFlags n id d d.ncore u = u) (rows : y.row < d.rows) (room : d.per ≤ u.room (d.coreOf y.row)) :
    deliverRows n id d (k + 1) u = deliverRows n id d k (u.rowSent n id d y y.row) := by
  rw [deliverRows, ctx]
  dsimp only
  rw [held]
  exact if_neg (not_or.mpr ⟨Nat.not_le.mpr rows, Nat.not_lt.mpr room⟩)

/-- One row goes out. -/
theorem Delivered.row {n id r : Nat} {d : ConvDesc} {s u : State} {x : ConvCtx}
    (h : Delivered n id (s.rowsTo n id d x r) (x.rowsOut d r) s u)
    (room : (s.core (d.coreOf r)).ingress.length + (s.rowsTo n id d x r (d.coreOf r)).length + d.per ≤ 32)
    (bytes : (s.convRow d x r).1 ≠ [] ∧ (d.mx = true → (s.convRow d x r).2 ≠ [])) :
    Delivered n id (s.rowsTo n id d x (r + 1)) (x.rowsOut d (r + 1)) s (u.rowSent n id d (x.rowsOut d r) r) := by
  have content : u.convRow d (x.rowsOut d r) r = s.convRow d x r :=
    State.convRow_congr (h.parts .job (by simp)) (h.parts .mem (by simp)) d x r
  have counted : Delivered n id (s.rowsTo n id d x r) (x.rowsOut d r) s (if d.op = .generate then u
      else u.countLines (u.copyBase d.region 0 + d.roff + r * d.rstride) false (d.ch / 16 + 2) (d.ch * (fmtBits d.sfmt / 8))) := by
    split
    · exact h
    · exact h.hbm (countLines_parts _ _ _ _ _)
  have per : 1 ≤ d.per := by unfold ConvDesc.per; split <;> omega
  have first := counted.convSend (c := d.coreOf r) (d.saddr + r % d.rpc * d.sstride) d.repoch (s.convRow d x r).1 none none (by omega)
  rw [if_neg (by simpa using bytes.1)] at first
  unfold State.rowSent
  dsimp only
  rw [content]
  by_cases mx : d.mx = true
  · have two : d.per = 2 := if_pos mx
    have second := first.convSend (c := d.coreOf r) (d.scaddr + r % d.rpc * d.scstride) d.repoch (s.convRow d x r).2 none none
      (by rw [if_pos rfl, List.length_append, List.length_singleton]; omega)
    rw [if_neg (by simpa using bytes.2 mx)] at second
    have all := second.modCtx (fun x => { x with row := x.row + 1 }) fun _ => rfl
    rw [if_pos mx]
    refine all.congr ?_ ?_
    · funext e
      rw [rowsTo_succ, State.rowTransfers, if_pos mx]
      by_cases h : e = d.coreOf r <;> simp [h]
    · simp [ConvCtx.rowsOut, List.range_succ, two, List.replicate]
  · have one : d.per = 1 := if_neg mx
    have all := first.modCtx (fun x => { x with row := x.row + 1 }) fun _ => rfl
    rw [if_neg mx]
    refine all.congr ?_ ?_
    · funext e
      rw [rowsTo_succ, State.rowTransfers, if_neg mx]
    · simp [ConvCtx.rowsOut, List.range_succ, one]

/-- The first core still has an unanswered delivery, or its rows are not all sent: no flag goes. -/
theorem Delivered.held {n id r : Nat} {d : ConvDesc} {s u : State} {x : ConvCtx}
    (h : Delivered n id (s.rowsTo n id d x r) (x.rowsOut d r) s u) (flagged : x.flagged = 0) (rows : 0 < d.rows) (rpc : 0 < d.rpc) :
    convFlags n id d d.ncore u = u := by
  refine convFlags_held _ h.ctx (.inr (.inr ?_))
  rw [show (x.rowsOut d r).flagged = 0 from flagged, Nat.zero_add, Nat.one_mul, Nat.add_zero]
  rcases Nat.eq_zero_or_pos r with z | pos
  · exact .inl (Nat.lt_of_le_of_lt (Nat.le_of_eq z) (Nat.lt_min.2 ⟨rows, rpc⟩))
  · right
    have first : d.coreOf 0 = d.core0 := by rw [ConvDesc.coreOf, Nat.zero_div, Nat.add_zero]
    have per : d.per ≠ 0 := by unfold ConvDesc.per; split <;> omega
    rw [List.contains_iff_mem]
    exact List.mem_flatMap.mpr ⟨0, List.mem_range.mpr pos, by rw [first]; exact List.mem_replicate.mpr ⟨per, rfl⟩⟩

/-- With room for all of them a context sends its rows in ascending order. -/
theorem deliverRows_all {n id : Nat} {d : ConvDesc} {s : State} {x : ConvCtx} (flagged : x.flagged = 0) (rpc : 0 < d.rpc)
    (room : ∀ e, (s.core e).ingress.length + d.per * ((List.range d.rows).filter (fun r => d.coreOf r == e)).length ≤ 32)
    (bytes : ∀ r, r < d.rows → (s.convRow d x r).1 ≠ [] ∧ (d.mx = true → (s.convRow d x r).2 ≠ [])) (k : Nat) {r : Nat} {u : State}
    (h : Delivered n id (s.rowsTo n id d x r) (x.rowsOut d r) s u) (fuel : r + k = d.rows) :
    Delivered n id (s.rowsTo n id d x d.rows) (x.rowsOut d d.rows) s (deliverRows n id d k u) := by
  induction k generalizing r u with
  | zero =>
    obtain rfl : r = d.rows := fuel
    exact h
  | succ k ih =>
    have lt : r < d.rows := by omega
    have place : (s.core (d.coreOf r)).ingress.length + (s.rowsTo n id d x r (d.coreOf r)).length + d.per ≤ 32 := by
      have all := room (d.coreOf r)
      have mine := Nat.mul_le_mul_left d.per (filter_range_lt (p := fun i => d.coreOf i == d.coreOf r) lt (by simp))
      rw [length_rowsTo]
      rw [Nat.mul_add, Nat.mul_one] at mine
      omega
    have free : d.per ≤ u.room (d.coreOf r) := by
      rw [State.room, h.core, List.length_append]
      omega
    rw [deliverRows_step h.ctx (h.held flagged (by omega) rpc) lt free]
    exact ih (h.row place (bytes r lt)) (by omega)

end Sys2Proof.Machine

namespace Sys2Proof

open Machine

/-- Settles O41: the ring takes a descriptor, a context takes it from the ring, and its rows go out one after the other. -/
theorem conversionsAreTakenAndDeliverRows : Obligations.ConversionsAreTakenAndDeliverRows := by
  intro s ck
  refine ⟨?submit, ?allocate, ?deliver⟩
  case submit =>
    intro c q rest i hc going hq o fresh d row room
    let t0 : State := s.modStation d.station (fun st =>
      { st with ring := st.ring ++ [⟨c, bits 19 8 q.word⟩], ringHigh := max st.ringHigh (st.ring.length + 1) })
    have e : exec i s = finish s (if d.vest then t0.putCmd c .dm 0 { q with prog := .issued 0 } else t0.retire c .dm 0) := by
      rcases row with ⟨op, rfl⟩ | ⟨op, rfl⟩ | ⟨op, rfl⟩
      · exact exec_convSubmit (op := .narrow) rfl ck hc hq o fresh op room
      · exact exec_convSubmit (op := .widen) rfl ck hc hq o fresh op room
      · exact exec_convSubmit (op := .generate) rfl ck hc hq o fresh op room
    have first : CoreAnd [.stations] c (s.core c) s t0 := CoreAnd.of_parts c (modStation_parts s d.station _) (by simp)
    have own : t0.core c = s.core c := first.1
    have ends : ∀ {k : Core} {v : State}, exec i s = finish s v → CoreBecomes c k t0 v → Completes i s (fun t =>
        t.station d.station = { s.station d.station with
          ring := (s.station d.station).ring ++ [⟨c, bits 19 8 q.word⟩]
          ringHigh := max (s.station d.station).ringHigh ((s.station d.station).ring.length + 1) }
        ∧ (∀ m, m ≠ d.station → t.station m = s.station m) ∧ t.core c = k ∧ OtherCores c s t ∧ Frame [.cores, .stations] s t) := by
      intro k v e becomes
      refine completes_coreAnd_of e (first.trans (becomes.coreAnd [.stations])) fun t hs core other fr => ?_
      have station : ∀ m, t.station m = _ := fun m =>
        (State.station_congr ((hs .stations).trans (becomes.2.2 .stations (by simp))) m).trans (s.station_modStation d.station m _)
      exact ⟨(station _).trans (if_pos rfl), fun m ne => (station m).trans (if_neg ne), core, other, fr⟩
    by_cases vest : d.vest = true
    · have put := CoreBecomes.putCmd t0 c .dm 0 { q with prog := .issued 0 }
      rw [own] at put
      simp only [Core.putQueue, Core.queue, hq, List.set_cons_zero] at put
      rw [if_pos vest]
      exact ends (e.trans (congrArg _ (if_pos vest))) put
    · have put := CoreBecomes.retire (s := t0) (c := c) .dm 0 (by rw [own]; exact going)
      rw [own] at put
      simp only [Core.putQueue, Core.queue, hq, List.eraseIdx_zero, List.tail_cons] at put
      rw [if_neg vest]
      exact ends (e.trans (congrArg _ (if_neg vest))) put
  case allocate =>
    intro n it rest hn hr room
    refine completes_frame (exec_contextAllocate ck hn hr room) (modStation_parts s n _) fun t hs fr => ?_
    have station : ∀ m, t.station m = _ := fun m => (State.station_congr (hs .stations) m).trans (s.station_modStation n m _)
    exact ⟨(station n).trans (if_pos rfl), fun m ne => (station m).trans (if_neg ne), fr⟩
  case deliver =>
    intro n id x i hn ctx row out flagged flagOut d per to_ send bytes rowT op some room
    have e : exec i s = finish s (convFlags n id d d.ncore (deliverRows n id d d.rows s)) := by
      rcases op with ⟨op, rfl⟩ | ⟨op, rfl⟩
      · exact exec_narrowWork ck hn ctx op
      · exact exec_generateWork ck hn ctx op
    have start : Delivered n id (s.rowsTo n id d x 0) (x.rowsOut d 0) s s := by
      have same : x.rowsOut d 0 = x := by rw [ConvCtx.rowsOut, List.range_zero, List.flatMap_nil, ← row, ← out]
      rw [same]
      exact Delivered.start ctx
    have rows : 0 < d.rows := Nat.succ_pos _
    have rpc : 0 < d.rpc := Nat.succ_pos _
    have all := deliverRows_all flagged rpc room some d.rows start (Nat.zero_add _)
    rw [all.held flagged rows rpc] at e
    refine completes_frame e all.parts fun t hs fr => ?_
    have stations := hs .stations
    refine ⟨fun e => (State.core_congr (hs .cores) e).trans (all.core e), ?_, fun m k ne => ?_, fun m => ?_, fr⟩
    · exact (State.convCtx_congr stations n id).trans all.ctx
    · exact (State.convCtx_congr stations m k).trans (all.other m k ne)
    · rw [State.station_congr stations, all.ring]

end Sys2Proof
end

section
/-!
Conversion stations: widening, flags and completion, and descriptors that stop (8, R207, R212, R214 to R216, R226).
-/
namespace Sys2Proof.Machine

open Sys2Proof

/-! ## A descriptor that stops -/

theorem parityEvent_parts (s : State) (source level : Nat) : ∀ p, p ∉ [Part.recorder] → p.same s (s.parityEvent source level) :=
  fun p n => Part.same_trans (event_parts s _ _ _ p n) (taken_parts _ p)

/-- A parity error at step level, while the step may fail. -/
theorem parityStep_spec {s : State} (h : StepMayFail s) (source core : Nat) :
    (∀ p, p ∉ [Part.err, Part.recorder] → p.same s (s.parityStep source core)) ∧ (s.parityStep source core).err.stepFailed = true
    ∧ StepMayFail (s.parityStep source core) := by
  have event := parityEvent_parts s source 2
  have may := stepMayFail_congr h (event .pitch (by simp)) (event .err (by simp)) (event .guy (by simp))
  obtain ⟨parts, failed, still⟩ := stepError_spec may 0x0801 core
  exact ⟨fun p n => Part.same_trans (event p (by simp_all)) (parts p (by simp_all)), failed, still⟩

/-- A context is freed: its number names nothing, and no other context changes. -/
def CtxFreed (n id : Nat) (s u : State) : Prop :=
  u.convCtx n id = none ∧ (∀ m k, (m, k) ≠ (n, id) → u.convCtx m k = s.convCtx m k) ∧ ∀ p, p ∉ [Part.stations] → p.same s u

theorem State.convCtx_modStation (s : State) (n : Nat) (f : Station → Station) (m k : Nat) :
    (s.modStation n f).convCtx m k = if m = n then (f (s.station n)).ctxs.find? (fun x => x.id == k) else s.convCtx m k := by
  rw [State.convCtx, State.station_modStation]
  split <;> rfl

theorem CtxFreed.freeCtx (s : State) (n id : Nat) : CtxFreed n id s (s.freeCtx n id) := by
  refine ⟨?_, fun m k ne => ?_, modStation_parts s n _⟩
  · rw [State.freeCtx, State.convCtx_modStation, if_pos rfl, List.find?_filter, List.find?_eq_none]
    intro x _
    simp
  · rw [State.freeCtx, State.convCtx_modStation]
    split
    · next h =>
      have nk : k ≠ id := fun e => ne (by rw [h, e])
      rw [List.find?_filter, State.convCtx, h]
      congr 1
      funext x
      by_cases e : x.id = k <;> simp [e, nk]
    · rfl

theorem CtxFreed.after {n id : Nat} {s t u : State} (h : ∀ m k, t.convCtx m k = s.convCtx m k)
    (parts : ∀ p, p ∉ [Part.stations] → p.same s t) (k : CtxFreed n id t u) : CtxFreed n id s u :=
  ⟨k.1, fun m j ne => (k.2.1 m j ne).trans (h m j), fun p n => Part.same_trans (parts p n) (k.2.2 p n)⟩

/-- A descriptor whose context is freed and that fails the step. -/
theorem completes_convStopped {i : Instr} {s u v : State} {n id : Nat} (e : exec i s = finish s v) (freed : CtxFreed n id s u)
    (report : ∀ p, p ∉ [Part.err, Part.recorder] → p.same u v) (failed : v.err.stepFailed = true) :
    Completes i s (fun t => t.convCtx n id = none ∧ (∀ m k, (m, k) ≠ (n, id) → t.convCtx m k = s.convCtx m k)
      ∧ t.err.stepFailed = true ∧ Frame [.stations, .err, .recorder] s t) := by
  obtain ⟨gone, other, parts⟩ := freed
  refine completes_frame (l := [.stations, .err, .recorder]) e (fun p k => ?_) fun t hs fr => ?_
  · exact Part.same_trans (parts p (by simp_all)) (report p (by simp_all))
  · have stations : t.stations = u.stations := (hs .stations).trans (report .stations (by simp))
    have err : t.err = v.err := hs .err
    exact ⟨(State.convCtx_congr stations n id).trans gone, fun m k ne => (State.convCtx_congr stations m k).trans (other m k ne),
      by rw [err, failed], fr⟩

/-- While the step may fail, an error of a context frees it and fails the step. -/
theorem convError_spec {s : State} (may : StepMayFail s) (n id code desc : Nat) :
    (∀ p, p ∉ [Part.err, Part.recorder] → p.same (s.freeCtx n id) (s.convError n id code desc))
    ∧ (s.convError n id code desc).err.stepFailed = true := by
  have parts := (CtxFreed.freeCtx s n id).2.2
  have may' := stepMayFail_congr may (parts .pitch (by simp)) (parts .err (by simp)) (parts .guy (by simp))
  obtain ⟨report, failed, -⟩ := reportStep_spec may' code (srcStation n) desc noCore
  exact ⟨report, failed⟩

theorem exec_convTimeout {s : State} {n id : Nat} {x : ConvCtx} (ck : s.clocked = true) (hn : n < 32) (ctx : s.convCtx n id = some x) :
    exec (.convTimeout n id) s = finish s (s.convError n id 0x060A x.item.desc) := by
  have u : exec (.convTimeout n id) s = execConvTimeout n id s := rfl
  rw [u, execConvTimeout, ctx]
  exact (only_pos _ (decide_eq_true hn)).trans (act_pos _ ck rfl)

/-- The work of a context that meets a parity error. -/
theorem exec_convParity {i : Instr} {s : State} {n id : Nat} {op : ConvOp} {f : ConvDesc → State → State} {x : ConvCtx}
    (e : exec i s = s.convWork op n id true f) (ck : s.clocked = true) (hn : n < 32) (ctx : s.convCtx n id = some x)
    (hop : (s.convDesc x.item.desc).op = op) : exec i s = finish s
      (((s.modStation n (fun st => { st with parity := count 32 st.parity 1 })).freeCtx n id).parityStep (srcStation n) noCore) := by
  rw [e, State.convWork, ctx]
  exact (only_pos _ (decide_eq_true hn)).trans (act_pos _ ck (by simp [hop]))

theorem completes_convParity {i : Instr} {s : State} {n id : Nat} (may : StepMayFail s) (e : exec i s = finish s
      (((s.modStation n (fun st => { st with parity := count 32 st.parity 1 })).freeCtx n id).parityStep (srcStation n) noCore)) :
    Completes i s (fun t => t.convCtx n id = none ∧ (∀ m k, (m, k) ≠ (n, id) → t.convCtx m k = s.convCtx m k)
      ∧ t.err.stepFailed = true ∧ Frame [.stations, .err, .recorder] s t) := by
  have counted := modStation_parts s n (fun st => { st with parity := count 32 st.parity 1 })
  have freed := (CtxFreed.freeCtx (s.modStation n (fun st => { st with parity := count 32 st.parity 1 })) n id).after (s := s)
    (fun m k => by rw [State.convCtx_modStation]; split <;> simp_all [State.convCtx]) counted
  have may' := stepMayFail_congr may (freed.2.2 .pitch (by simp)) (freed.2.2 .err (by simp)) (freed.2.2 .guy (by simp))
  obtain ⟨report, failed, -⟩ := parityStep_spec may' (srcStation n) noCore
  exact completes_convStopped e freed report failed

/-! ## Widening -/

/-- The bytes that a widened row writes. -/
def ConvDesc.wideBytes (d : ConvDesc) (aff : List Byte) (wide : Bool) (xs : List Nat) : List Byte :=
  (xs.mapIdx (fun ch x => widenOut d.dfmt wide (affineStep d aff ch x))).flatMap (leBytes (fmtBits d.dfmt / 8))

theorem widenWrite_mem (s : State) (d : ConvDesc) (aff : List Byte) (pair : Bool) (r : Nat) (xs : List Nat) :
    MemAnd (writeBytes s.mem (s.copyBase d.region 0 + d.roff + r * d.rstride) (d.wideBytes aff (d.aff || pair) xs)) s
      (s.widenWrite d aff pair r xs) := by
  have store := storeAgent_mem s (s.copyBase d.region 0 + d.roff + r * d.rstride) (d.wideBytes aff (d.aff || pair) xs)
  have counted := MemAnd.of_hbm (countLines_parts (s.storeAgent (s.copyBase d.region 0 + d.roff + r * d.rstride)
    (d.wideBytes aff (d.aff || pair) xs)) (s.copyBase d.region 0 + d.roff + r * d.rstride) true
    ((d.wideBytes aff (d.aff || pair) xs).length / 128 + 2) (d.wideBytes aff (d.aff || pair) xs).length)
  rw [store.1] at counted
  exact store.trans counted

/-- Rows widened in order, each from values that the writes before it do not change. -/
theorem widenWrites_mem {s : State} (d : ConvDesc) (aff : List Byte) (pair : Bool) (r : Nat → Nat) (xs : State → Nat → List Nat)
    (same : ∀ u, (∀ p, p ∉ [Part.mem, Part.harts, Part.hbm] → p.same s u) → ∀ i, xs u i = xs s i) (l : List Nat) :
    MemAnd (l.foldl (fun m i => writeBytes m (s.copyBase d.region 0 + d.roff + r i * d.rstride) (d.wideBytes aff (d.aff || pair) (xs s i))) s.mem)
      s (l.foldl (fun s i => s.widenWrite d aff pair (r i) (xs s i)) s) := by
  refine foldl_memAnd (w := fun m i => writeBytes m (s.copyBase d.region 0 + d.roff + r i * d.rstride)
    (d.wideBytes aff (d.aff || pair) (xs s i))) (fun u h i => ?_) l (MemAnd.refl s)
  have row := widenWrite_mem u d aff pair (r i) (xs u i)
  rw [State.copyBase_congr (h .job (by simp)), same u h] at row
  rw [same u h]
  exact row

theorem State.widenRead_congr {s t : State} (h : t.cores = s.cores) (d : ConvDesc) (r : Nat) : t.widenRead d r = s.widenRead d r := by
  simp only [State.widenRead, State.core_congr h]

theorem exec_widenWork {s : State} {n id : Nat} {x : ConvCtx} (ck : s.clocked = true) (hn : n < 32) (ctx : s.convCtx n id = some x)
    (hop : (s.convDesc x.item.desc).op = .widen) : exec (.dmconvWiden (.work n id false)) s = finish s
      (if (s.convDesc x.item.desc).vest then widenTiles n id (s.convDesc x.item.desc) 8 s else s.widenRows n id (s.convDesc x.item.desc)) :=
  exec_convWork (f := fun d s => if d.vest then widenTiles n id d 8 s else s.widenRows n id d) rfl ck hn ctx hop

/-- A context that widens from scratch writes all its rows. -/
theorem widenRows_eq {s : State} {n id : Nat} {d : ConvDesc} {x : ConvCtx} (ctx : s.convCtx n id = some x) :
    s.widenRows n id d = ((List.range d.rows).foldl (fun s r => s.widenWrite d x.aff false r (s.widenRead d r)) s).modCtx n id
      (fun x => { x with row := d.rows }) := by
  rw [State.widenRows, ctx]

/-- The state once the head tile has been widened from row `x.row` on. -/
def State.tileWidened (s : State) (d : ConvDesc) (x : ConvCtx) (tile : Tile) (more : List Tile) : State :=
  (List.range 64).foldl (fun s i => s.widenWrite d x.aff d.spair (x.row + i) (tileElems tile i))
    (s.modCore x.item.core (fun k => { k with vest := more }))

/-- The last tile of a context is widened, and its DMCONV retires. -/
theorem widenTiles_last {s : State} {n id : Nat} {d : ConvDesc} {x : ConvCtx} {tile : Tile} {more : List Tile} {k : Nat}
    (ctx : s.convCtx n id = some x) (last : x.row + 64 = d.rows) (head : (s.core x.item.core).vest = tile :: more) (dm : tile.toDm = true)
    (ok : d.tileOk tile = true) : widenTiles n id d (k + 1) s
      = widenTiles n id d k (((s.tileWidened d x tile more).modCtx n id (fun x => { x with row := x.row + 64 })).retire x.item.core .dm 0) := by
  rw [widenTiles, ctx]
  dsimp only
  rw [if_pos (by omega), head]
  dsimp only
  rw [if_neg (by simp [dm]), if_neg (by simp [ok]), if_pos (by omega)]
  rfl

theorem widenTiles_bad {s : State} {n id : Nat} {d : ConvDesc} {x : ConvCtx} {tile : Tile} {more : List Tile} {k : Nat}
    (ctx : s.convCtx n id = some x) (lt : x.row < d.rows) (head : (s.core x.item.core).vest = tile :: more) (dm : tile.toDm = true)
    (bad : d.tileOk tile = false) : widenTiles n id d (k + 1) s = s.convError n id 0x060B x.item.desc := by
  rw [widenTiles, ctx]
  dsimp only
  rw [if_pos lt, head]
  dsimp only
  rw [if_neg (by simp [dm]), if_pos (by simp [bad])]

/-- A context with all rows widened takes no tile. -/
theorem widenTiles_end {s : State} {n id : Nat} {d : ConvDesc} {x : ConvCtx} {k : Nat} (ctx : s.convCtx n id = some x)
    (ge : d.rows ≤ x.row) : widenTiles n id d (k + 1) s = s := by
  rw [widenTiles, ctx]
  dsimp only
  rw [if_neg (Nat.not_lt.mpr ge)]

/-! ## Completion -/

theorem exec_convDescriptorDone {s : State} {n id : Nat} {x : ConvCtx} (ck : s.clocked = true) (hn : n < 32)
    (ctx : s.convCtx n id = some x) (rows : (s.convDesc x.item.desc).rows ≤ x.row) (out : x.out = []) (flagOut : x.flagOut = false)
    (room : (s.convDesc x.item.desc).op ≠ .widen ∨ 0 < x.flagged ∨ 0 < s.room (s.convDesc x.item.desc).core0) :
    exec (.convDescriptorDone n id) s = finish s (
      if (s.convDesc x.item.desc).op = .widen then if x.flagged = 0 then s.widenDone n id (s.convDesc x.item.desc) else s.convRetire n id
      else
        let t := convFlags n id (s.convDesc x.item.desc) (s.convDesc x.item.desc).ncore s
        match t.convCtx n id with
        | some y => if (s.convDesc x.item.desc).ncore ≤ y.flagged && !y.flagOut then t.convRetire n id else t
        | none => t) := by
  have u : exec (.convDescriptorDone n id) s = execConvDescriptorDone n id s := rfl
  rw [u, execConvDescriptorDone, ctx]
  refine (only_pos _ (decide_eq_true hn)).trans ((act_pos _ ck ?_).trans rfl)
  simp only [rows, out, flagOut, decide_true, List.isEmpty_nil, Bool.not_false, Bool.and_true, Bool.true_and, Bool.or_eq_true,
    bne_iff_ne, ne_eq, decide_eq_true_eq]
  exact or_assoc.2 room

/-- A retired context. -/
theorem convRetire_spec (s : State) (n id : Nat) : CtxFreed n id s (s.convRetire n id)
    ∧ (s.convRetire n id).station n = { s.station n with
        ctxs := (s.station n).ctxs.filter (fun y => y.id != id), retired := min ((s.station n).retired + 1) (2 ^ 64 - 1) }
    ∧ ∀ m, m ≠ n → (s.convRetire n id).station m = s.station m := by
  obtain ⟨gone, other, parts⟩ := CtxFreed.freeCtx s n id
  have ctxs : ∀ m k, (s.convRetire n id).convCtx m k = (s.freeCtx n id).convCtx m k := by
    intro m k
    rw [State.convRetire, State.convCtx_modStation]
    split
    · next h => rw [h]; rfl
    · rfl
  refine ⟨⟨(ctxs n id).trans gone, fun m k ne => (ctxs m k).trans (other m k ne), fun p k => ?_⟩, ?_, fun m ne => ?_⟩
  · exact Part.same_trans (parts p k) (modStation_parts _ n _ p k)
  · rw [State.convRetire, State.station_modStation, if_pos rfl, State.freeCtx, State.station_modStation, if_pos rfl]
    rfl
  · rw [State.convRetire, State.station_modStation, if_neg ne, State.freeCtx, State.station_modStation, if_neg ne]

/-- The flag of the next core goes, and the rest wait for its answer. -/
theorem convFlags_send {s : State} {n id k : Nat} {d : ConvDesc} {y : ConvCtx} (ctx : s.convCtx n id = some y) (more : y.flagged < d.ncore)
    (out : y.out = []) (flagOut : y.flagOut = false) (rows : min d.rows ((y.flagged + 1) * d.rpc) ≤ y.row)
    (live : d.core0 + y.flagged ∉ y.stale) (on : d.flagEn = true ∨ d.cntEn = true)
    (room : (s.core (d.core0 + y.flagged)).ingress.length < 32) : convFlags n id d (k + 1) s
      = convFlags n id d k ((s.convSend n id (d.core0 + y.flagged) 0 d.repoch [] d.flag? d.cnt?).modCtx n id
          (fun x => { x with flagged := x.flagged + 1 })) := by
  rw [convFlags, ctx]
  dsimp only
  rw [if_neg, if_neg, if_neg]
  · rw [State.room]
    omega
  · rcases on with on | on <;> simp [live, on]
  · exact not_or.mpr ⟨by omega, not_or.mpr ⟨by simp [flagOut], not_or.mpr ⟨by omega, by simp [out]⟩⟩⟩

theorem convSend_parts (s : State) (n id c addr repoch : Nat) (bs : List Byte) (flag cnt : Option Nat) :
    ∀ p, p ∉ [Part.cores, Part.stations] → p.same s (s.convSend n id c addr repoch bs flag cnt) := by
  intro p k
  unfold State.convSend State.ingress
  dsimp only
  by_cases room : (s.core c).ingress.length < 32
  · rw [if_pos room]
    dsimp only
    split <;> exact Part.same_trans (modCore_parts s c _ p (by simp_all)) (modCtx_parts _ n id _ p (by simp_all))
  · rw [if_neg room]
    exact p.same_refl s

/-- A flag that has gone to core `c`: it waits in the ingress buffer, and the context waits for its answer. -/
theorem flagSent {s : State} {n id c : Nat} {y : ConvCtx} {f : ConvCtx → ConvCtx} (keeps : ∀ x, (f x).id = x.id) (repoch : Nat)
    (flag cnt : Option Nat) (ctx : s.convCtx n id = some y) (room : (s.core c).ingress.length < 32) :
    let u := (s.convSend n id c 0 repoch [] flag cnt).modCtx n id f
    u.core c = { s.core c with ingress := (s.core c).ingress ++ [s.convTransfer n id 0 repoch [] flag cnt] }
    ∧ u.convCtx n id = some (f { y with flagOut := true }) ∧ OtherCores c s u ∧ ∀ p, p ∉ [Part.stations, Part.cores] → p.same s u := by
  have sent := ((Delivered.start ctx).convSend (c := c) 0 repoch [] flag cnt room).modCtx f keeps
  refine ⟨?_, sent.ctx, fun d ne => ?_, fun p k => ?_⟩
  · rw [sent.core c, if_pos rfl, List.nil_append]
  · rw [sent.core d, if_neg ne, List.append_nil]
  · exact Part.same_trans (convSend_parts s n id c 0 repoch [] flag cnt p (by simp_all)) (modCtx_parts _ n id f p (by simp_all))

/-- The completion word and the interrupt of a WIDEN that has ended. -/
def State.widenNoted (s : State) (d : ConvDesc) : State :=
  let t := if d.cmpl then s.storeAgent (s.copyBase d.cmplRegion 0 + d.cmplOff) (leBytes 8 s.job.step) else s
  if d.irq then t.msi d.hart 1 else t

theorem storeAgent_parts (s : State) (a : Nat) (bs : List Byte) : ∀ p, p ∉ [Part.mem, Part.harts] → p.same s (s.storeAgent a bs) := by
  intro p n
  cases p
  case out => exact ⟨[], by simp, rfl⟩
  all_goals simp_all [Part.same]

/-- A completion writes its word, makes its interrupt pending, and changes nothing else but reservations. -/
theorem widenNoted_spec (s : State) (d : ConvDesc) : (s.widenNoted d).mem
      = (if d.cmpl then writeBytes s.mem (s.copyBase d.cmplRegion 0 + d.cmplOff) (leBytes 8 s.job.step) else s.mem)
    ∧ (d.irq = true → (s.hart d.hart).st = .running → ((s.widenNoted d).hart d.hart).csr.eip = (s.hart d.hart).csr.eip ||| 2#256)
    ∧ (∀ h, h ≠ d.hart ∨ d.irq = false → ∃ r, (s.widenNoted d).hart h = { s.hart h with resv := r })
    ∧ ∀ p, p ∉ [Part.mem, Part.harts] → p.same s (s.widenNoted d) := by
  obtain ⟨t, et, mem, harts, parts⟩ : ∃ t, t = (if d.cmpl then s.storeAgent (s.copyBase d.cmplRegion 0 + d.cmplOff) (leBytes 8 s.job.step) else s)
      ∧ t.mem = (if d.cmpl then writeBytes s.mem (s.copyBase d.cmplRegion 0 + d.cmplOff) (leBytes 8 s.job.step) else s.mem)
      ∧ (∀ h, ∃ r, t.hart h = { s.hart h with resv := r }) ∧ ∀ p, p ∉ [Part.mem, Part.harts] → p.same s t := by
    refine ⟨_, rfl, ?_⟩
    split
    · exact ⟨rfl, fun h => s.hart_storeAgent _ _ h, storeAgent_parts s _ _⟩
    · exact ⟨rfl, fun h => ⟨(s.hart h).resv, rfl⟩, fun p _ => p.same_refl s⟩
  unfold State.widenNoted
  dsimp only
  rw [← et]
  cases irq : d.irq with
  | false => exact ⟨mem, by simp, fun h _ => harts h, parts⟩
  | true =>
    refine ⟨mem, fun _ run => ?_, fun h ne => ?_, fun p n => Part.same_trans (parts p n) (msi_parts t d.hart 1 p (by simp_all))⟩
    · obtain ⟨r, hr⟩ := harts d.hart
      have on : (t.hart d.hart).st = .running := by rw [hr]; exact run
      rw [if_pos rfl, State.msi, State.hart_modHart, if_pos rfl, if_neg (by rw [on]; simp), hr]
      rfl
    · rw [if_pos rfl, State.hart_msi_ne t d.hart 1 (ne.resolve_right (by simp))]
      exact harts h

theorem widenDone_eq (s : State) (n id : Nat) (d : ConvDesc) : s.widenDone n id d
    = if d.flagEn || d.cntEn then ((s.widenNoted d).convSend n id d.core0 0 d.repoch [] d.flag? d.cnt?).modCtx n id (fun x => { x with flagged := 1 })
      else (s.widenNoted d).convRetire n id := rfl

end Sys2Proof.Machine

namespace Sys2Proof

open Machine

/-- Settles O42: rows widen one by one, flags and completions go, and what stops frees its context. -/
theorem conversionsWidenCompleteOrFail : Obligations.ConversionsWidenCompleteOrFail := by
  intro s n id x ck hn ctx d
  refine ⟨fun op no => ?rows, fun tile more q rest op vest last head dm hq going => ⟨fun ok => ?tile, fun bad may => ?unfit⟩,
    fun op rows out flagOut => ⟨fun all => ?freed, fun less cover on live room => ?flag⟩, fun op rows out flagOut first room => ?completion,
    fun may i row => ?stopped⟩
  case rows =>
    have e := exec_widenWork ck hn ctx op
    rw [if_neg (by rw [show (s.convDesc x.item.desc).vest = false from no]; simp), widenRows_eq ctx] at e
    obtain ⟨mem, harts, parts⟩ := widenWrites_mem (s := s) d x.aff false (fun r => r) (fun u r => u.widenRead d r)
      (fun u h r => State.widenRead_congr (h .cores (by simp)) d r) (List.range d.rows)
    have numbered := modCtx_parts ((List.range d.rows).foldl (fun s r => s.widenWrite d x.aff false r (s.widenRead d r)) s) n id
      (fun x => { x with row := d.rows })
    have ctxs : ∀ m k, ((List.range d.rows).foldl (fun s r => s.widenWrite d x.aff false r (s.widenRead d r)) s).convCtx m k = s.convCtx m k :=
      fun m k => State.convCtx_congr (parts .stations (by simp)) m k
    refine completes_frame (l := [.mem, .stations, .harts, .hbm]) e
      (fun p k => Part.same_trans (parts p (by simp_all)) (numbered p (by simp_all))) fun t hs fr => ⟨?_, ?_, fun m k ne => ?_, fun h => ?_, fr⟩
    · rw [show t.mem = _ from (hs .mem).trans ((numbered .mem (by simp)).trans mem), Bool.or_false]
      rfl
    · rw [State.convCtx_congr (hs .stations), State.convCtx_modCtx _ n id (f := fun x => { x with row := d.rows }) (fun _ => rfl), if_pos rfl, ctxs, ctx]
      rfl
    · rw [State.convCtx_congr (hs .stations), State.convCtx_modCtx _ n id (f := fun x => { x with row := d.rows }) (fun _ => rfl), if_neg ne, ctxs]
    · obtain ⟨r, hr⟩ := harts h
      rw [State.hart_congr ((hs .harts).trans (numbered .harts (by simp))), hr]
  case tile =>
    have e := exec_widenWork ck hn ctx op
    rw [if_pos vest, widenTiles_last ctx last head dm ok] at e
    have first := CoreBecomes.modCore s x.item.core (fun k => { k with vest := more })
    obtain ⟨mem, harts, parts⟩ := widenWrites_mem (s := s.modCore x.item.core (fun k => { k with vest := more })) d x.aff d.spair
      (fun i => x.row + i) (fun _ i => tileElems tile i) (fun _ _ _ => rfl) (List.range 64)
    let u : State := s.tileWidened d x tile more
    let v : State := u.modCtx n id (fun x => { x with row := x.row + 64 })
    have numbered := modCtx_parts u n id (fun x => { x with row := x.row + 64 })
    have own : v.core x.item.core = { s.core x.item.core with vest := more } :=
      (State.core_congr ((numbered .cores (by simp)).trans (parts .cores (by simp))) _).trans first.1
    have ends := CoreBecomes.retire (s := v) (c := x.item.core) .dm 0 (by rw [own]; exact Core.going_of_seq going rfl)
    rw [own] at ends
    simp only [Core.putQueue, Core.queue, hq, List.eraseIdx_zero, List.tail_cons] at ends
    have done : (v.retire x.item.core .dm 0).convCtx n id = some { x with row := d.rows } := by
      rw [State.convCtx_congr (ends.2.2 .stations (by simp)), State.convCtx_modCtx _ n id (f := fun x => { x with row := x.row + 64 }) (fun _ => rfl), if_pos rfl,
        show u.convCtx n id = some x from (State.convCtx_congr (parts .stations (by simp)) n id).trans
          ((State.convCtx_congr (first.2.2 .stations (by simp)) n id).trans ctx), Option.map_some, last]
    rw [widenTiles_end done (Nat.le_refl _)] at e
    refine completes_frame (l := [.mem, .stations, .harts, .hbm, .cores]) e (fun p k => ?_) fun t hs fr => ⟨?_, ?_, fun m ne => ?_, ?_, fr⟩
    · exact Part.same_trans (first.2.2 p (by simp_all)) (Part.same_trans (parts p (by simp_all))
        (Part.same_trans (numbered p (by simp_all)) (ends.2.2 p (by simp_all))))
    · exact (hs .mem).trans ((ends.2.2 .mem (by simp)).trans ((numbered .mem (by simp)).trans mem))
    · exact (State.core_congr (hs .cores) _).trans ends.1
    · rw [State.core_congr (hs .cores), ends.2.1 m ne, State.core_congr ((numbered .cores (by simp)).trans (parts .cores (by simp))),
        first.2.1 m ne]
    · exact (State.convCtx_congr (hs .stations) n id).trans done
  case unfit =>
    have e := exec_widenWork ck hn ctx op
    rw [if_pos vest, widenTiles_bad ctx (show x.row < d.rows by omega) head dm bad] at e
    obtain ⟨report, failed⟩ := convError_spec may n id 0x060B x.item.desc
    obtain ⟨t, e, gone, -, fails, fr⟩ := completes_convStopped e (CtxFreed.freeCtx s n id) report failed
    exact ⟨t, e, gone, fails, fr⟩
  case freed =>
    have e := exec_convDescriptorDone ck hn ctx (Nat.le_of_eq rows.symm) out flagOut (.inl op)
    dsimp only at e
    rw [if_neg op, convFlags_held _ ctx (.inl all), ctx] at e
    dsimp only at e
    rw [if_pos (by simp [flagOut]; exact all)] at e
    obtain ⟨⟨-, -, parts⟩, own, other⟩ := convRetire_spec s n id
    exact completes_frame e parts fun t hs fr =>
      ⟨(State.station_congr (hs .stations) n).trans own, fun m ne => (State.station_congr (hs .stations) m).trans (other m ne), fr⟩
  case flag =>
    have e := exec_convDescriptorDone ck hn ctx (Nat.le_of_eq rows.symm) out flagOut (.inl op)
    have cores : d.ncore = bits 95 88 (match s.job.image with | some im => im.conv.getD x.item.desc 0 | none => 0) + 1 := rfl
    obtain ⟨own, sent, other, parts⟩ := flagSent (f := fun x => { x with flagged := x.flagged + 1 }) (fun _ => rfl) d.repoch d.flag? d.cnt?
      ctx room
    have flags : convFlags n id d d.ncore s = (s.convSend n id (d.core0 + x.flagged) 0 d.repoch [] d.flag? d.cnt?).modCtx n id
        (fun x => { x with flagged := x.flagged + 1 }) := by
      rw [cores, convFlags_send ctx less out flagOut (by omega) live on room]
      exact convFlags_held _ sent (.inr (.inl rfl))
    dsimp only at e
    rw [if_neg op, flags, sent] at e
    dsimp only at e
    rw [if_neg (by simp)] at e
    refine completes_frame (l := [.stations, .cores]) e parts fun t hs fr => ⟨?_, ?_, fun m ne => ?_, fr⟩
    · exact (State.core_congr (hs .cores) _).trans own
    · exact (State.convCtx_congr (hs .stations) n id).trans sent
    · exact (State.core_congr (hs .cores) m).trans (other m ne)
  case completion =>
    have e := exec_convDescriptorDone ck hn ctx rows out flagOut (.inr (.inr (by
      show 0 < s.room d.core0
      rw [State.room]
      omega)))
    rw [if_pos op, if_pos first, widenDone_eq] at e
    obtain ⟨mem, pending, harts, parts⟩ := widenNoted_spec s d
    have noted : (s.widenNoted d).convCtx n id = some x := (State.convCtx_congr (parts .stations (by simp)) n id).trans ctx
    have cores : ∀ c, (s.widenNoted d).core c = s.core c := fun c => State.core_congr (parts .cores (by simp)) c
    have clauses : ∀ (u t : State), t.mem = u.mem → t.harts = u.harts → (∀ p, p ∉ [Part.stations, Part.cores] → p.same (s.widenNoted d) u) →
        t.mem = (if d.cmpl then writeBytes s.mem (s.copyBase d.cmplRegion 0 + d.cmplOff) (leBytes 8 s.job.step) else s.mem)
        ∧ (d.irq = true → (s.hart d.hart).st = .running → (t.hart d.hart).csr.eip = (s.hart d.hart).csr.eip ||| 2#256)
        ∧ ∀ h, h ≠ d.hart ∨ d.irq = false → t.hart h = { s.hart h with resv := (t.hart h).resv } := by
      intro u t hm hh same
      have eq : t.harts = (s.widenNoted d).harts := hh.trans (same .harts (by simp))
      refine ⟨hm.trans ((same .mem (by simp)).trans mem), fun irq run => ?_, fun h ne => ?_⟩
      · rw [State.hart_congr eq]
        exact pending irq run
      · obtain ⟨r, hr⟩ := harts h ne
        rw [State.hart_congr eq, hr]
    by_cases on : (d.flagEn || d.cntEn) = true
    · rw [if_pos on] at e
      obtain ⟨own, sent, other, sentParts⟩ := flagSent (f := fun x => { x with flagged := 1 }) (fun _ => rfl) d.repoch d.flag? d.cnt?
        noted (show ((s.widenNoted d).core d.core0).ingress.length < 32 by rw [cores]; exact room)
      refine completes_frame (l := [.mem, .stations, .harts, .cores]) e
        (fun p k => Part.same_trans (parts p (by simp_all)) (sentParts p (by simp_all))) fun t hs fr => ?_
      obtain ⟨m, i, h⟩ := clauses _ t (hs .mem) (hs .harts) sentParts
      refine ⟨m, i, h, fun f c => by simp [f, c] at on, fun _ => ⟨(State.convCtx_congr (hs .stations) n id).trans sent, ?_⟩, fun c ne => ?_, fr⟩
      · rw [State.core_congr (hs .cores), own, cores, State.convTransfer, State.epoch_congr (parts .job (by simp))]
      · rw [State.core_congr (hs .cores), other c ne, cores]
    · rw [if_neg on] at e
      obtain ⟨⟨gone, -, freed⟩, -⟩ := convRetire_spec (s.widenNoted d) n id
      refine completes_frame (l := [.mem, .stations, .harts, .cores]) e
        (fun p k => Part.same_trans (parts p (by simp_all)) (freed p (by simp_all))) fun t hs fr => ?_
      obtain ⟨m, i, h⟩ := clauses _ t (hs .mem) (hs .harts) (fun p k => freed p (by simp_all))
      have same : t.cores = s.cores := (hs .cores).trans ((freed .cores (by simp)).trans (parts .cores (by simp)))
      refine ⟨m, i, h, fun _ _ => ⟨(State.convCtx_congr (hs .stations) n id).trans gone, same⟩, fun either => ?_,
        fun c _ => State.core_congr same c, fr⟩
      exact absurd (by rcases either with f | f <;> simp [f]) on
  case stopped =>
    rcases row with rfl | ⟨op, rfl⟩ | ⟨op, rfl⟩ | ⟨op, rfl⟩
    · obtain ⟨report, failed⟩ := convError_spec may n id 0x060A x.item.desc
      exact completes_convStopped (exec_convTimeout ck hn ctx) (CtxFreed.freeCtx s n id) report failed
    · exact completes_convParity may (exec_convParity (op := .narrow)
        (f := fun d s => convFlags n id d d.ncore (deliverRows n id d d.rows s)) rfl ck hn ctx op)
    · exact completes_convParity may (exec_convParity (op := .widen)
        (f := fun d s => if d.vest then widenTiles n id d 8 s else s.widenRows n id d) rfl ck hn ctx op)
    · exact completes_convParity may (exec_convParity (op := .generate)
        (f := fun d s => convFlags n id d d.ncore (deliverRows n id d d.rows s)) rfl ck hn ctx op)

end Sys2Proof
end

section
/-!
Traps, interrupts and the time-out of the harts (7, R180, R196 to R200).
-/
namespace Sys2Proof.Machine

open Sys2Proof Rv

/-! ## What a trap writes -/

theorem getLsbD_setMst (m : Word) {i : Nat} (hi : i < 64) (b : Bool) (j : Nat) :
    (setMst m i b).getLsbD j = if j = i then b else m.getLsbD j := by
  have one : (1#64 <<< i).getLsbD j = decide (j = i) := by
    rw [← BitVec.twoPow_eq, BitVec.getLsbD_twoPow]
    by_cases e : i = j <;> simp [e, hi, eq_comm] 
    omega
  cases b with
  | true => rw [setMst, if_pos rfl, BitVec.getLsbD_or, one]; split <;> simp_all
  | false =>
    rw [setMst, if_neg (by simp), BitVec.getLsbD_and, BitVec.getLsbD_not, one]
    by_cases far : j < 64
    · split <;> simp_all
    · simp [BitVec.getLsbD_of_ge m j (Nat.not_lt.mp far)]

/-- A hart that has taken a trap: every bit of mstatus. -/
theorem getLsbD_enterTrap (x : Hart) (c v b : Nat) : (enterTrap x c v).csr.mstatus.getLsbD b
    = if b = 12 ∨ b = 11 then x.machine else if b = 3 then false else if b = 7 then x.csr.mstatus.getLsbD 3
      else x.csr.mstatus.getLsbD b := by
  have mie : bitAt 3 x.csr.mstatus.toNat = x.csr.mstatus.getLsbD 3 := by
    rw [bitAt, BitVec.getLsbD, Nat.testBit_eq_decide_div_mod_eq]
    rfl
  simp only [enterTrap, getLsbD_setMst _ (show 12 < 64 by decide), getLsbD_setMst _ (show 11 < 64 by decide),
    getLsbD_setMst _ (show 3 < 64 by decide), getLsbD_setMst _ (show 7 < 64 by decide), mie]
  repeat' split
  all_goals simp_all

/-! ## The commands -/

/-- HART_TRAP of a hart with a trap to take (R198, R200). -/
theorem exec_hartTrap {s : State} {h : Nat} {x : Hart} {c v : Nat} (ck : s.clocked = true) (hh : h < 128)
    (trap : s.nextTrap h = some (x, c, v)) (runs : s.hartRuns h = true) (sent : (s.hart h).sent = false) :
    exec (.hartTrap h) s = finish s (if x.csr.mtvec = 0 then
      (s.putHart h (stopTrap x c v)).reportStep 0x0702 (srcHart h) (c % 128 + (c / 2 ^ 63) * 2 ^ 7 + x.pc.toNat % 2 ^ 48 * 2 ^ 8) noCore
      else s.putHart h (enterTrap x c v)) := by
  have u : exec (.hartTrap h) s = execHartTrap h s := rfl
  rw [u, execHartTrap, trap]
  exact (only_pos _ (decide_eq_true hh)).trans (act_pos _ ck (by rw [runs, sent]; rfl))

/-- A command that puts a hart and changes nothing else. -/
theorem completes_putHart {i : Instr} {s : State} {h : Nat} {x : Hart} (e : exec i s = finish s (s.putHart h x)) :
    Completes i s (fun t => t.hart h = x ∧ OtherHarts h s t ∧ Frame [.harts] s t) := by
  refine completes_frame (l := [.harts]) e (putHart_parts s h x) fun t hs fr => ⟨?_, fun g ne => ?_, fr⟩
  · rw [State.hart_congr (hs .harts), State.hart_putHart, if_pos rfl]
  · rw [State.hart_congr (hs .harts), State.hart_putHart, if_neg ne]

/-- An MSI for a hart that runs or has stopped makes its identity pending (R196). -/
theorem State.msi_live {s : State} {h : Nat} (ident : Nat) (st : (s.hart h).st = .running ∨ (s.hart h).st = .stopped) :
    s.msi h ident = s.putHart h { s.hart h with csr := { (s.hart h).csr with eip := (s.hart h).csr.eip ||| (1#256 <<< (ident % 256)) } } := by
  rw [State.msi, State.modHart, if_neg]
  rcases st with st | st <;> simp [st]

end Sys2Proof.Machine

namespace Sys2Proof

open Machine

/-- Settles O47: a trap is `enterTrap`, or with mtvec 0 `stopTrap` and a failed step. -/
theorem hartsTakeTrapsAndInterrupts : Obligations.HartsTakeTrapsAndInterrupts := by
  intro s h ck hh
  refine ⟨fun x c v trap runs sent => ⟨fun vec => ?enter, fun vec may => ?stop⟩, fun ident hi st => ?msi, fun st ended step may => ?late⟩
  case enter =>
    have e := exec_hartTrap ck hh trap runs sent
    rw [if_neg vec] at e
    obtain ⟨t, e, own, other, fr⟩ := completes_putHart e
    refine ⟨t, e, ?_⟩
    dsimp only
    rw [own]
    refine ⟨by simp only [Rv.enterTrap, apply_ite (BitVec.ofNat 64)], rfl, rfl, rfl, rfl, ?_, ?_, ?_, ?_, fun b n3 n7 n11 n12 => ?_, rfl, other, fr⟩
    all_goals rw [getLsbD_enterTrap]
    all_goals simp_all
  case stop =>
    have e := exec_hartTrap ck hh trap runs sent
    rw [if_pos vec] at e
    have put := putHart_parts s h (Rv.stopTrap x c v)
    obtain ⟨report, failed, -⟩ := reportStep_spec (stepMayFail_congr may (put .pitch (by simp)) (put .err (by simp)) (put .guy (by simp)))
      0x0702 (srcHart h) (c % 128 + (c / 2 ^ 63) * 2 ^ 7 + x.pc.toNat % 2 ^ 48 * 2 ^ 8) noCore
    refine completes_frame (l := [.harts, .err, .recorder]) e
      (fun p k => Part.same_trans (put p (by simp_all)) (report p (by simp_all))) fun t hs fr => ⟨?_, ?_, fun g ne => ?_, fr⟩
    · rw [State.hart_congr ((hs .harts).trans (report .harts (by simp))), State.hart_putHart, if_pos rfl]
      rfl
    · rw [show t.err = _ from hs .err, failed]
    · rw [State.hart_congr ((hs .harts).trans (report .harts (by simp))), State.hart_putHart, if_neg ne]
  case msi =>
    exact completes_putHart (State.msi_live ident st ▸ exec_msiArrival ck hh hi)
  case late =>
    have u : exec (.solverStepTimeout h) s = execSolverStepTimeout h s := rfl
    have e : exec (.solverStepTimeout h) s = finish s (s.reportStep 0x0701 (srcHart h) 0 noCore) := by
      rw [u, execSolverStepTimeout]
      exact (only_pos _ (decide_eq_true hh)).trans (act_pos _ ck (by simp [st, ended, step]))
    obtain ⟨report, failed, -⟩ := reportStep_spec may 0x0701 (srcHart h) 0 noCore
    exact completes_frame e report fun t hs fr => ⟨by rw [show t.err = _ from hs .err, failed], fr⟩

end Sys2Proof
end

section
/-!
What a control packet does to the fabric depends on few parts of the state, and what a strike leaves (11, 15, R279, R351, R352).
-/
namespace Sys2Proof.Machine

open Sys2Proof

/-! ## States that send alike -/

/-- Two states from which a packet takes the same way: fabric, job held, Ridgepole and settings agree. -/
structure SendsAlike (s t : State) : Prop where
  fab : t.fab = s.fab
  job : t.job = s.job
  now : t.now = s.now
  vals : t.dict.vals = s.dict.vals

namespace SendsAlike

variable {s t : State}

theorem refl (s : State) : SendsAlike s s := ⟨rfl, rfl, rfl, rfl⟩

theorem trans {u : State} (h : SendsAlike s t) (k : SendsAlike t u) : SendsAlike s u :=
  ⟨k.fab.trans h.fab, k.job.trans h.job, k.now.trans h.now, k.vals.trans h.vals⟩

theorem dnat (h : SendsAlike s t) (idx sub : Nat) : t.dnat idx sub = s.dnat idx sub := by
  rw [State.dnat, State.dnat, State.dval, State.dval, h.vals]

theorem fport (h : SendsAlike s t) (p : Nat) : t.fport p = s.fport p := by rw [State.fport, State.fport, h.fab]

theorem myRank (h : SendsAlike s t) : t.myRank = s.myRank := by rw [State.myRank, State.myRank, h.job, h.fab]

theorem epoch (h : SendsAlike s t) : t.epoch = s.epoch := State.epoch_congr h.job

theorem modFab (h : SendsAlike s t) (f : Fabric → Fabric) : SendsAlike (s.modFab f) (t.modFab f) :=
  ⟨congrArg f h.fab, h.job, h.now, h.vals⟩

theorem modPort (h : SendsAlike s t) (p : Nat) (f : Port → Port) : SendsAlike (s.modPort p f) (t.modPort p f) :=
  h.modFab _

theorem pump (h : SendsAlike s t) (p : Nat) : SendsAlike (s.pump p) (t.pump p) := by
  unfold State.pump
  dsimp only
  rw [h.fport, h.dnat, h.dnat, h.now]
  split
  · exact h
  · exact (h.modPort _ _).modFab _

theorem enqueue (h : SendsAlike s t) (p lane : Nat) (k : Packet) : SendsAlike (s.enqueue p lane k) (t.enqueue p lane k) :=
  (h.modPort p _).pump p

theorem event (h : SendsAlike s t) (code source payload code' source' payload' : Nat) :
    SendsAlike (s.event code source payload) (t.event code' source' payload') :=
  ⟨by simp [h.fab], by simp [h.job], by simp [State.now] at *; exact h.now, by simp [h.vals]⟩

theorem choosePort (h : SendsAlike s t) (ps key tc : Nat) : choosePort t ps key tc = choosePort s ps key tc := by
  have live : t.portLive = s.portLive := funext fun p => by rw [State.portLive, State.portLive, h.fport]
  rw [Machine.choosePort, Machine.choosePort, live]

/-- The key of a packet other than an LRESP is its own (R279). -/
theorem packetKey {k : Packet} (a : Option Nat) (kind : k.kind ≠ kLRESP) : packetKey t k a = packetKey s k a := by
  rw [Machine.packetKey, Machine.packetKey, if_neg kind, if_neg kind]

/-- A packet other than an LRESP is delivered, queued or held back alike. -/
theorem route (h : SendsAlike s t) (lane : Nat) {k : Packet} (a : Option Nat) (kind : k.kind ≠ kLRESP) :
    SendsAlike (s.route lane k a) (t.route lane k a) := by
  unfold State.route
  dsimp only
  rw [h.fab, h.job, packetKey (s := s) (t := t) a kind, h.choosePort, h.myRank]
  split
  · exact h.modFab _
  · split
    · simp only [apply_ite Packet.kind, ite_self, if_neg (fun c : k.kind = kLRESP ∧ a.isNone = true => kind c.1)]
      exact h.enqueue _ _ _
    · split
      · exact h.modFab _
      · exact ((h.modFab _).event _ _ _ _ _ _).modFab _

theorem ctl (h : SendsAlike s t) {kind : Nat} (arg dst : Nat) (e : Epoch) (payload : List Byte) (no : kind ≠ kLRESP := by decide) :
    SendsAlike (s.ctl kind arg dst e payload) (t.ctl kind arg dst e payload) := by
  rw [State.ctl, State.ctl, h.myRank]
  exact h.route _ none no

theorem sendGuy (h : SendsAlike s t) (ty opp : Nat) (input : Bool) (dst : Nat) (e : Epoch) (payload : List Byte) :
    SendsAlike (s.sendGuy ty opp input dst e payload) (t.sendGuy ty opp input dst e payload) := h.ctl _ _ _ _

theorem takeLocal (h : SendsAlike s t) (k : Packet) : SendsAlike (s.takeLocal k).1 (t.takeLocal k).1 := by
  unfold State.takeLocal
  rw [h.fab]
  cases s.fab.localIn.findIdx? (fun e => e.pkt == k) with
  | none => exact h
  | some i => exact h.modFab (fun b => { b with localIn := b.localIn.eraseIdx i })

/-- Sends in order keep two states alike. -/
theorem foldl {α : Type} {f g : State → α → State} (step : ∀ s t x, SendsAlike s t → SendsAlike (f s x) (g t x)) (l : List α)
    (h : SendsAlike s t) : SendsAlike (l.foldl f s) (l.foldl g t) := by
  induction l generalizing s t with
  | nil => exact h
  | cons x xs ih => exact ih (step s t x h)

end SendsAlike

/-! ## Frames of what is sent -/

/-- What is outside a longer list of parts is outside a shorter one. -/
theorem Part.outside {l m : List Part} {p : Part} (n : p ∉ m) (h : ∀ q ∈ l, q ∈ m := by decide) : p ∉ l := fun k => n (h p k)

theorem takeLocal_parts (s : State) (k : Packet) : ∀ p, p ∉ [Part.fab] → p.same s (s.takeLocal k).1 := by
  intro p n
  cases p <;> simp_all [Part.same]

theorem ctl_parts (s : State) (kind arg dst : Nat) (e : Epoch) (payload : List Byte) :
    ∀ p, p ∉ [Part.fab, Part.recorder] → p.same s (s.ctl kind arg dst e payload) := by
  intro p n
  cases p <;> simp_all [Part.same]

/-! ## What a strike leaves -/

theorem sendStrike_parts (s : State) (reason : Nat) : ∀ p, p ∉ [Part.fab, Part.recorder] → p.same s (s.sendStrike reason) := by
  intro p n
  cases p <;> simp_all [Part.same]

/-- A key that is not listed holds the default. -/
theorem nget_unlisted {α : Type} {d : α} {m : NMap α} {k : Nat} (no : ¬ m.any (fun e => e.1 == k) = true) : nget d m k = d := by
  induction m with
  | nil => rfl
  | cons e t ih =>
    rw [List.any_cons, Bool.or_eq_true, not_or, beq_iff_eq] at no
    rw [nget, if_neg (Ne.symm no.1), ih no.2]

/-- A change of every listed key that leaves the default alone changes every key. -/
theorem nget_nall_of_default {α : Type} [DecidableEq α] {d : α} {f : α → α} (h : f d = d) (m : NMap α) (k : Nat) :
    nget d (nall d f m) k = f (nget d m k) := by
  rw [nget_nall]
  split
  · rfl
  · next no => rw [nget_unlisted no, h]

theorem State.core_stopAll (s : State) (c : Nat) : s.stopAll.core c = { ({} : Core) with stats := (s.core c).stats } :=
  nget_nall_of_default (f := fun k : Core => { ({} : Core) with stats := k.stats }) rfl s.cores c

theorem State.hart_stopAll (s : State) (h : Nat) : s.stopAll.hart h = { ({} : Hart) with stats := (s.hart h).stats } :=
  nget_map_rel (R := fun x y : Hart => y = { ({} : Hart) with stats := x.stats }) {}
    (fun e => (e.1, { ({} : Hart) with stats := e.2.stats })) rfl (fun _ => rfl) (fun _ => rfl) s.harts h

theorem struck_strikeSelf {s : State} (live : s.pitch.st = .running ∨ s.pitch.st = .quiesced) (reason : Nat) :
    Struck reason s (s.strikeSelf reason) := by
  refine ⟨rfl, rfl, rfl, ?_, rfl, rfl, fun c => ?_, fun h => ?_, ?_⟩
  · show (s.pitch.st == .running || s.pitch.st == .quiesced || s.recF 4 2 == 3) = true
    rcases live with live | live <;> simp [live]
  · exact congrArg Core.seq (State.core_stopAll _ c)
  · exact congrArg Hart.st (State.hart_stopAll _ h)
  · exact (event_parts s _ _ _ .mem (by simp))

/-- What a strike leaves alone. -/
theorem strikeSelf_parts (s : State) (reason : Nat) : ∀ p, p ∉ strikeParts → p.same s (s.strikeSelf reason) := by
  intro p n
  cases p <;> simp_all [Part.same, strikeParts]

theorem Struck.of_before {reason : Nat} {s t u : State} (h : Struck reason t u) (job : t.job = s.job) (mem : t.mem = s.mem) :
    Struck reason s u := by
  obtain ⟨struck, why, reset, keep, st, stopped, cores, harts, same⟩ := h
  exact ⟨struck.trans (by rw [job]), why, reset, keep, st, stopped, cores, harts, same.trans mem⟩

theorem Struck.congr {reason : Nat} {s t u : State} (h : Struck reason s t) (same : ∀ q : Part, q.same t u) : Struck reason s u := by
  obtain ⟨struck, why, reset, keep, st, stopped, cores, harts, mem⟩ := h
  have pitch : u.pitch = t.pitch := same .pitch
  exact ⟨pitch ▸ struck, pitch ▸ why, pitch ▸ reset, pitch ▸ keep, (show u.err = t.err from same .err) ▸ st,
    (show u.job = t.job from same .job) ▸ stopped, fun c => (State.core_congr (same .cores) c) ▸ cores c,
    fun h => (State.hart_congr (same .harts) h) ▸ harts h, (same .mem).trans mem⟩

/-- A strike of the job held. -/
theorem strikeAll_spec {s : State} (live : s.pitch.st = .running ∨ s.pitch.st = .quiesced) (reason : Nat) :
    Struck reason s (s.strikeAll reason) ∧ ∀ p, p ∉ strikeParts → p.same s (s.strikeAll reason) := by
  have sent := sendStrike_parts s reason
  have pitch : (s.sendStrike reason).pitch = s.pitch := sent .pitch (by simp)
  refine ⟨Struck.of_before (struck_strikeSelf (pitch.symm ▸ live) reason) (sent .job (by simp)) (sent .mem (by simp)), fun p n => ?_⟩
  exact Part.same_trans (sent p (Part.outside n)) (strikeSelf_parts _ reason p n)

/-- An error at job level strikes a job that may be struck. -/
theorem reportJob_strikes {s : State} (may : MayBeStruck s) (code source payload core reason : Nat) :
    s.reportJob code source payload core reason = ((s.event code source payload).noteFirst code core 3).strikeAll reason := by
  obtain ⟨live, st⟩ := may
  have pitch : (s.event code source payload).pitch = s.pitch := event_parts s code source payload .pitch (by simp)
  have err : (s.event code source payload).err = s.err := event_parts s code source payload .err (by simp)
  rw [State.reportJob, State.jobError, State.striking, State.pitching, pitch, err, if_neg (by simp; omega), if_neg, if_pos]
  · rcases live with live | live <;> simp [live]
  · rcases live with live | live <;> simp [live]

theorem noted_parts (s : State) (code source payload core : Nat) :
    ∀ p, p ∉ [Part.err, Part.recorder] → p.same s ((s.event code source payload).noteFirst code core 3) :=
  fun p n => Part.same_trans (event_parts s code source payload p (Part.outside n)) (noteFirst_parts _ code core 3 p (Part.outside n))

theorem reportJob_struck {s : State} (may : MayBeStruck s) (code source payload core reason : Nat) :
    Struck reason s (s.reportJob code source payload core reason)
    ∧ ∀ p, p ∉ strikeParts → p.same s (s.reportJob code source payload core reason) := by
  have noted := noted_parts s code source payload core
  have pitch : ((s.event code source payload).noteFirst code core 3).pitch = s.pitch := noted .pitch (by simp)
  obtain ⟨struck, parts⟩ := strikeAll_spec (s := (s.event code source payload).noteFirst code core 3) (pitch.symm ▸ may.1) reason
  rw [reportJob_strikes may]
  refine ⟨Struck.of_before struck (noted .job (by simp)) (noted .mem (by simp)), fun p n => ?_⟩
  exact Part.same_trans (noted p (Part.outside n)) (parts p n)

/-- A strike ends the measurement and leaves Ridgepole's count. -/
theorem reportJob_rp {s : State} (may : MayBeStruck s) (code source payload core reason : Nat) :
    (s.reportJob code source payload core reason).rp.measure = none
    ∧ (s.reportJob code source payload core reason).rp.now = s.rp.now := by
  have noted : ((s.event code source payload).noteFirst code core 3).rp = s.rp := noted_parts s code source payload core .rp (by simp)
  rw [reportJob_strikes may]
  refine ⟨rfl, ?_⟩
  have struck : ∀ u : State, (u.strikeAll reason).rp.now = u.rp.now := by
    intro u
    unfold State.strikeAll State.strikeSelf State.beginReset State.stopAll
    dsimp only
    rw [(event_parts _ _ _ _ .rp (by simp) : _ = _), (sendStrike_parts u reason .rp (by simp) : _ = _)]
  rw [struck, noted]

/-- A command that ends in a strike. -/
theorem completes_struck {i : Instr} {s u : State} {reason : Nat} (e : exec i s = finish s u)
    (h : Struck reason s u ∧ ∀ p, p ∉ strikeParts → p.same s u) : Completes i s (fun t => Struck reason s t ∧ Frame strikeParts s t) :=
  completes_frame e h.2 fun _ hs fr => ⟨Struck.congr h.1 hs, fr⟩

end Sys2Proof.Machine
end

section
/-!
TIMESYNC: requests, responses, the offset that they give, and the loss of Ridgepole (13, R305 to R309).
-/
namespace Sys2Proof.Machine

open Sys2Proof

/-- A control packet goes out the same whatever a measurement holds. -/
theorem SendsAlike.ofMeasure (s : State) (m : Option RpMeasure) : SendsAlike s { s with rp := { s.rp with measure := m } } :=
  ⟨rfl, rfl, rfl, rfl⟩

theorem exec_timesyncReq {s : State} {k : Packet} (ck : s.clocked = true) (mine : s.isMine k kTSYNC = true) (req : bits 7 0 k.arg = 1) :
    exec (.timesyncReq k) s = finish s (((s.takeLocal k).1).ctl kTSYNC (2 + bits 15 8 k.arg * 2 ^ 8) k.srcRank s.epoch
      (k.payload.take 8 ++ leBytes 8 s.now ++ leBytes 8 s.now ++ leBytes 4 (bits 47 16 k.arg) ++ zeros 4)) := by
  have u : exec (.timesyncReq k) s = execTimesyncReq k s := rfl
  rw [u, execTimesyncReq]
  exact act_pos _ ck (by rw [mine, req]; rfl)

theorem rp_parts (s : State) (r : RpSt) : ∀ p, p ∉ [Part.rp] → p.same s { s with rp := r } := by
  intro p n
  cases p <;> simp_all [Part.same]

theorem takenRp_parts (s : State) (k : Packet) (r : RpSt) :
    ∀ p, p ∉ [Part.rp, Part.fab] → p.same s { (s.takeLocal k).1 with rp := r } :=
  fun p n => Part.same_trans (takeLocal_parts s k p (Part.outside n)) (rp_parts _ r p (Part.outside n))

/-- A REQ goes out and the measurement goes on as `m`. -/
theorem completes_sendReq {i : Instr} {s : State} {m : Option RpMeasure} {n : Nat}
    (e : exec i s = finish s (({ s with rp := { s.rp with measure := m } } : State).sendReq n)) :
    Completes i s (fun t => t.rp = { s.rp with measure := m }
      ∧ t.fab = (s.ctl kTSYNC (1 + n * 2 ^ 8) (parentOf s.job.rank) s.epoch (leBytes 8 s.now ++ zeros 24)).fab
      ∧ Frame [.rp, .fab, .recorder] s t) := by
  have sent := ctl_parts ({ s with rp := { s.rp with measure := m } } : State) kTSYNC (1 + n * 2 ^ 8) (parentOf s.job.rank) s.epoch
    (leBytes 8 s.now ++ zeros 24)
  refine completes_frame (l := [.rp, .fab, .recorder]) e (fun p k => ?_) fun t hs fr => ⟨?_, ?_, fr⟩
  · refine Part.same_trans (t := ({ s with rp := { s.rp with measure := m } } : State)) ?_ (sent p (Part.outside k))
    exact rp_parts s _ p (Part.outside k)
  · exact (hs .rp).trans (sent .rp (by simp))
  · exact (hs .fab).trans ((SendsAlike.ofMeasure s m).ctl _ _ _ _).fab

theorem exec_timesyncResp {s : State} {k : Packet} {m : RpMeasure} (ck : s.clocked = true) (hm : s.rp.measure = some m)
    (mine : s.isMine k kTSYNC = true) (resp : bits 7 0 k.arg = 2) (parent : k.srcRank = parentOf s.job.rank)
    (waits : bits 15 8 k.arg ∈ m.waiting) {x : Exchange} (hx : x = ⟨fieldAt k.payload 0 8, fieldAt k.payload 8 8,
      fieldAt k.payload 16 8, s.now % 2 ^ 64, fieldAt k.payload 24 4, bits 47 16 k.arg⟩) :
    exec (.timesyncResp k) s = finish s (
      let n := { m with waiting := m.waiting.erase (bits 15 8 k.arg), done := m.done ++ [(bits 15 8 k.arg, x)], missed := 0 }
      let t := (s.takeLocal k).1
      if n.done.length = 64 then t.measured n else { t with rp := { t.rp with measure := some n } }) := by
  subst hx
  have u : exec (.timesyncResp k) s = execTimesyncResp k s := rfl
  rw [u, execTimesyncResp, hm]
  exact act_pos _ ck (by simp [mine, resp, parent, waits])

/-- A package that has taken a packet, and then changed Ridgepole. -/
theorem completes_ridgepole {i : Instr} {s : State} {k : Packet} {r : RpSt}
    (e : exec i s = finish s ({ (s.takeLocal k).1 with rp := r } : State)) :
    Completes i s (fun t => t.rp = r ∧ Frame [.rp, .fab] s t) :=
  completes_frame e (takenRp_parts s k r) fun _ hs fr => ⟨hs .rp, fr⟩

end Sys2Proof.Machine

namespace Sys2Proof

open Machine

/-- Settles O28: exchanges change the measurement alone; its end corrects Ridgepole by the size of the offset, or strikes. -/
theorem ridgepoleIsMeasuredAndCorrected : Obligations.RidgepoleIsMeasuredAndCorrected := by
  intro s ck
  refine ⟨fun k mine req => ?req, fun live rank st free => ?check, fun m hm more => ?interval, fun m i rest hm waits may => ?again,
    fun m hm waits use missed may => ?silent, fun k m x hm mine resp parent waits hx => ?resp⟩
  case req =>
    have taken := takeLocal_parts s k
    have sent := ctl_parts (s.takeLocal k).1 kTSYNC (2 + bits 15 8 k.arg * 2 ^ 8) k.srcRank s.epoch
      (k.payload.take 8 ++ leBytes 8 s.now ++ leBytes 8 s.now ++ leBytes 4 (bits 47 16 k.arg) ++ zeros 4)
    exact completes_frame (l := [.fab, .recorder]) (exec_timesyncReq ck mine req)
      (fun p n => Part.same_trans (taken p (Part.outside n)) (sent p (Part.outside n))) fun t hs fr => ⟨hs .fab, fr⟩
  case check =>
    have u : exec .ridgepoleCheck s = execRidgepoleCheck s := rfl
    have e : exec .ridgepoleCheck s = finish s (s.measure .monitor) := by
      rw [u, execRidgepoleCheck]
      exact act_pos _ ck (by rcases live with live | live <;> simp [live, rank, st, free])
    exact completes_frame e (rp_parts s _) fun t hs fr => ⟨hs .rp, fr⟩
  case interval =>
    have u : exec .timesyncInterval s = execTimesyncInterval s := rfl
    exact completes_sendReq (by rw [u, execTimesyncInterval, hm]; exact act_pos _ ck (decide_eq_true more))
  case again =>
    have u : exec .timesyncNoResp s = execTimesyncNoResp s := rfl
    refine completes_sendReq ?_
    rw [u, execTimesyncNoResp, hm]
    dsimp only
    rw [waits]
    refine (act_pos _ ck rfl).trans ?_
    rw [if_neg]
    by_cases use : m.use = .monitor
    · have := may use
      simp [use]
      omega
    · simp [use]
  case silent =>
    obtain ⟨i, rest, waits⟩ := List.exists_cons_of_ne_nil waits
    have u : exec .timesyncNoResp s = execTimesyncNoResp s := rfl
    have e : exec .timesyncNoResp s = finish s (({ s with rp := { s.rp with st := .lost, measure := none } } : State).reportJob 0x0504
        srcPackage 0x80000000 noCore) := by
      rw [u, execTimesyncNoResp, hm]
      dsimp only
      rw [waits]
      exact (act_pos _ ck rfl).trans (by rw [if_pos (by simp [use]; omega)])
    have may' : MayBeStruck { s with rp := { s.rp with st := .lost, measure := none } } := may
    refine completes_of e fun t _ hs => ⟨?_, Struck.congr ?_ hs⟩
    · rw [show t.rp = _ from hs .rp]
      exact (reportJob_rp may' 0x0504 srcPackage 0x80000000 noCore 3).1
    · exact Struck.of_before (reportJob_struck may' 0x0504 srcPackage 0x80000000 noCore 3).1 rfl rfl
  case resp =>
    have e := exec_timesyncResp ck hm mine resp parent waits hx
    have rp : (s.takeLocal k).1.rp = s.rp := takeLocal_parts s k .rp (by simp)
    dsimp only at e
    rw [rp] at e
    refine ⟨fun less => ?_, fun last use o ho near => ?_, fun last use o ho far near => ?_, fun last use o ho far near => ?_,
      fun last use far may => ?_⟩
    · rw [if_neg (by simp; omega)] at e
      exact completes_ridgepole e
    all_goals rw [if_pos (by simp [last]), State.measured] at e
    all_goals simp only [use, rp, List.map_append, List.map_cons, List.map_nil] at e
    · rw [← ho, if_pos near] at e
      exact completes_ridgepole e
    · rw [← ho, if_neg (by omega), if_pos near] at e
      exact completes_ridgepole e
    · rw [← ho, if_neg (by omega), if_neg (by omega), if_pos near] at e
      let r : RpSt := { s.rp with offset := o.1, delay := o.2, measure := none, slew := o.1, slewPhase := 0, drifts := count 32 s.rp.drifts 1 }
      have event := event_parts ({ (s.takeLocal k).1 with rp := r } : State) 0x0503 srcPackage (wrap 32 o.1)
      exact completes_frame (l := [.rp, .fab, .recorder]) e
        (fun p n => Part.same_trans (takenRp_parts s k r p (Part.outside n)) (event p (Part.outside n)))
        fun t hs fr => ⟨(hs .rp).trans (event .rp (by simp)), fr⟩
    · rw [if_neg (by omega), if_neg (by omega), if_neg (by omega)] at e
      have taken := takeLocal_parts s k
      let u : State := { (s.takeLocal k).1 with
        rp := { s.rp with offset := (rpOffset (m.done.map Prod.snd ++ [x])).1, delay := (rpOffset (m.done.map Prod.snd ++ [x])).2,
                          measure := none, st := .lost } }
      have may' : MayBeStruck u := by
        have pitch : u.pitch = s.pitch := taken .pitch (by simp)
        have err : u.err = s.err := taken .err (by simp)
        rw [MayBeStruck, pitch, err]
        exact may
      refine completes_of e fun t _ hs => ⟨?_, Struck.congr (Struck.of_before (t := u) ?_ ?_ ?_) hs⟩
      · rw [show t.rp = _ from hs .rp]
        exact (reportJob_rp may' _ _ _ _ _).2
      · exact (reportJob_struck may' _ _ _ _ _).1
      · exact taken .job (by simp)
      · exact taken .mem (by simp)

end Sys2Proof
end

section
/-!
Guyline on a package other than rank 0: its own step end, the arrivals of its children, and what goes up (13, R311 to R316).
-/
namespace Sys2Proof.Machine

open Sys2Proof

/-! ## What gathering does -/

/-- A package other than rank 0 whose step runs, with nothing restored. -/
structure Gathers (s : State) : Prop where
  restored : s.guy.restored = false
  running : s.job.stepRunning = true
  rank : s.job.rank ≠ 0

theorem tagged_congr {s t : State} (h : t.guy.arrivals = s.guy.arrivals) (attempt step : Nat) : t.tagged attempt step = s.tagged attempt step := by
  rw [State.tagged, State.tagged, h]

namespace Gathers

variable {s : State}

theorem find_none {l : List Arrival} (clean : ∀ a ∈ l, a.clean = true) : l.find? (fun a => !a.clean) = none :=
  List.find?_eq_none.mpr fun a m => by simp [clean a m]

/-- Every child's clean arrival and the own clean step end are in: the clean arrival goes up (R312). -/
theorem gather_clean (h : Gathers s) (clean : ∀ a ∈ s.tagged s.job.attempt s.job.step, a.clean = true) (own : s.guy.ownEnd = some true)
    (sent : s.guy.sentClean = false) (all : ∀ c ∈ s.children, ∃ a ∈ s.tagged s.job.attempt s.job.step, a.child = c) :
    s.gather = ({ s with guy := { s.guy with sentClean := true } } : State).sendGuy 1 0
      (s.gatheredBit (s.tagged s.job.attempt s.job.step)) (parentOf s.job.rank) s.epoch [] := by
  have every : s.children.all (fun c => (s.tagged s.job.attempt s.job.step).any (fun a => a.child == c && a.clean)) = true := by
    rw [List.all_eq_true]
    intro c m
    obtain ⟨a, ma, e⟩ := all c m
    exact List.any_eq_true.mpr ⟨a, ma, by simp [e, clean a ma]⟩
  unfold State.gather
  dsimp only
  rw [h.restored, if_neg (by simp), if_neg (by simp [h.running]), find_none clean, if_neg (by simp [own]),
    if_pos ⟨own, by simp [sent], every⟩, if_neg h.rank]

/-- While the own step end or a child's arrival is missing, and nothing has failed, the package waits. -/
theorem gather_waits (h : Gathers s) (clean : ∀ a ∈ s.tagged s.job.attempt s.job.step, a.clean = true) (own : s.guy.ownEnd ≠ some false)
    (missing : s.guy.ownEnd = none ∨ ∃ c ∈ s.children, ∀ a ∈ s.tagged s.job.attempt s.job.step, a.child ≠ c) : s.gather = s := by
  unfold State.gather
  dsimp only
  rw [h.restored, if_neg (by simp), if_neg (by simp [h.running]), find_none clean, if_neg (by simp [own]), if_neg]
  rintro ⟨e, -, every⟩
  rcases missing with missing | ⟨c, mc, none⟩
  · simp [missing] at e
  · have one := List.all_eq_true.mp every c mc
    obtain ⟨a, ma, k⟩ := List.any_eq_true.mp one
    exact none a ma (by simp at k; exact k.1)

/-- A failed step end, or a child's failed arrival, goes up at once (R312). -/
theorem gather_failed (h : Gathers s) (failed : s.guy.ownEnd = some false ∨ ∃ a ∈ s.tagged s.job.attempt s.job.step, a.clean = false)
    (sent : s.guy.sentFailed = false) : s.gather = ({ s with guy := { s.guy with sentFailed := true } } : State).sendGuy 2 0
      (s.gatheredBit (s.tagged s.job.attempt s.job.step)) (parentOf s.job.rank) s.epoch [] := by
  unfold State.gather
  dsimp only
  rw [h.restored, if_neg (by simp), if_neg (by simp [h.running]), if_pos, sent, if_neg (by simp), if_neg h.rank]
  rcases failed with own | ⟨a, ma, bad⟩
  · exact .inl own
  · exact .inr (List.find?_isSome.mpr ⟨a, ma, by simp [bad]⟩)

end Gathers

theorem gatheredBit_congr {s t : State} (h : t.err = s.err) (l : List Arrival) : t.gatheredBit l = s.gatheredBit l := by
  rw [State.gatheredBit, State.gatheredBit, h]

/-! ## Frames -/

theorem guy_parts (s : State) (g : GuySt) : ∀ p, p ∉ [Part.guy] → p.same s { s with guy := g } := by
  intro p n
  cases p <;> simp_all [Part.same]

theorem SendsAlike.ofGuy (s : State) (g : GuySt) : SendsAlike s { s with guy := g } := ⟨rfl, rfl, rfl, rfl⟩

/-- A command that ends in a Guyline packet to the parent, from a state `u` that sends as `v` does. -/
theorem completes_sentGuy {i : Instr} {s u v : State} {g : GuySt} {l : List Part} {ty opp : Nat} {input : Bool} {dst : Nat} {ep : Epoch}
    {payload : List Byte} (e : exec i s = finish s (({ u with guy := g } : State).sendGuy ty opp input dst ep payload))
    (alike : SendsAlike v u) (parts : ∀ p, p ∉ l → p.same s u) (sub : ∀ q ∈ [Part.guy, .fab, .recorder], q ∈ l) :
    Completes i s (fun t => t.guy = g ∧ t.fab = (v.sendGuy ty opp input dst ep payload).fab ∧ Frame l s t) := by
  have sent := ctl_parts ({ u with guy := g } : State) kGUY (guyArg ty opp input) dst ep payload
  refine completes_frame e (fun p n => ?_) fun t hs fr => ⟨?_, ?_, fr⟩
  · exact Part.same_trans (parts p n) (Part.same_trans (guy_parts u g p fun h => n (sub p (by simp at h; simp [h])))
      (sent p fun h => n (sub p (by simp at h; rcases h with h | h <;> simp [h]))))
  · exact (hs .guy).trans (sent .guy (by simp))
  · exact (hs .fab).trans ((alike.trans (SendsAlike.ofGuy u g)).sendGuy _ _ _ _ _ _).fab

/-! ## The own step end -/

/-- The package's step end is noted, and the snapshots are taken (R20, R448). -/
def State.stepEnded (s : State) (clean : Bool) : State :=
  ((s.harts.filter (fun e => !e.2.atEnd)).map Prod.fst).foldl (fun s h => s.snapshot .hart h)
    (({ s with guy := { s.guy with ownEnd := some clean } } : State).snapshot .pkg 0)

theorem SendsAlike.ofSnapshot (s : State) (k : DictSnap) (unit : Nat) : SendsAlike s (s.snapshot k unit) := ⟨rfl, rfl, rfl, rfl⟩

theorem foldl_snapshot (k : DictSnap) (l : List Nat) (s : State) :
    SendsAlike s (l.foldl (fun s h => s.snapshot k h) s) ∧ ∀ p, p ∉ [Part.snaps] → p.same s (l.foldl (fun s h => s.snapshot k h) s) := by
  refine ⟨?_, foldl_parts (fun s h p n => snapshot_parts s k h p n) l s⟩
  induction l generalizing s with
  | nil => exact SendsAlike.refl s
  | cons h hs ih => exact (SendsAlike.ofSnapshot s k h).trans (ih _)

theorem stepEnded_spec (s : State) (clean : Bool) : SendsAlike s (s.stepEnded clean)
    ∧ (s.stepEnded clean).guy = { s.guy with ownEnd := some clean } ∧ (s.stepEnded clean).job = s.job ∧ (s.stepEnded clean).err = s.err
    ∧ ∀ p, p ∉ [Part.guy, .snaps] → p.same s (s.stepEnded clean) := by
  have guy := guy_parts s { s.guy with ownEnd := some clean }
  have pkg := snapshot_parts ({ s with guy := { s.guy with ownEnd := some clean } } : State) .pkg 0
  obtain ⟨alike, parts⟩ := foldl_snapshot .hart ((s.harts.filter (fun e => !e.2.atEnd)).map Prod.fst)
    (({ s with guy := { s.guy with ownEnd := some clean } } : State).snapshot .pkg 0)
  have all : ∀ p, p ∉ [Part.guy, .snaps] → p.same s (s.stepEnded clean) := fun p n =>
    Part.same_trans (guy p (Part.outside n)) (Part.same_trans (pkg p (Part.outside n)) (parts p (Part.outside n)))
  exact ⟨((SendsAlike.ofGuy s _).trans (SendsAlike.ofSnapshot _ .pkg 0)).trans alike, (parts .guy (by simp)).trans (pkg .guy (by simp)),
    all .job (by simp), all .err (by simp), all⟩

theorem exec_packageStepEnd {s : State} (ck : s.clocked = true) (st : s.pitch.st = .running) (run : s.job.stepRunning = true)
    (undecided : s.decidedStep = false) (own : s.guy.ownEnd = none) {clean : Bool} (failed : s.err.stepFailed = !clean)
    (done : clean = true → s.stepDone = true) : exec .packageStepEnd s = finish s (s.stepEnded clean).gather := by
  have u : exec .packageStepEnd s = execPackageStepEnd s := rfl
  have fresh : (s.guy.ownEnd.isNone && (s.stepDone || s.err.stepFailed)) = true := by
    cases clean with
    | true => simp [own, done rfl]
    | false => simp [own, failed]
  rw [u, execPackageStepEnd]
  refine (act_pos _ ck ?_).trans ?_
  · simp only [fresh, st, run, undecided]
    rfl
  · rw [if_pos fresh, failed, Bool.not_not]
    rfl

/-! ## Arrivals -/

/-- A package that has taken a packet, with other arrivals. -/
def State.arrived (s : State) (k : Packet) (clean : Bool) : State :=
  { (s.takeLocal k).1 with
    guy := { s.guy with arrivals := s.guy.arrivals ++ [⟨k.srcRank, k.attempt, k.step, clean, bitAt 16 k.arg⟩], lastArrival := s.ns } }

theorem arrived_parts (s : State) (k : Packet) (clean : Bool) : ∀ p, p ∉ [Part.guy, .fab] → p.same s (s.arrived k clean) :=
  fun p n => Part.same_trans (takeLocal_parts s k p (Part.outside n)) (guy_parts _ _ p (Part.outside n))

/-- A clean arrival of a child for the running step, or a failed one, is kept and gathered (R312). -/
theorem arrival_kept {s : State} {k : Packet} {clean : Bool} (held : s.job.held = true) (job : k.job = s.job.id)
    (child : k.srcRank ∈ s.children) (attempt : k.attempt = s.job.attempt)
    (late : clean = true ∨ s.job.rank ≠ 0 ∨ s.decidedStep = false) : s.arrival k clean = (s.arrived k clean).gather := by
  have parts := takeLocal_parts s k
  have jobs : (s.takeLocal k).1.job = s.job := parts .job (by simp)
  have guy : (s.takeLocal k).1.guy = s.guy := parts .guy (by simp)
  have ns : (s.takeLocal k).1.ns = s.ns := by rw [State.ns, State.now, (parts .rp (by simp) : _ = _)]; rfl
  have kids : (s.takeLocal k).1.children = s.children := by rw [State.children, State.children, jobs]
  unfold State.arrival State.arrived
  dsimp only
  rw [jobs, guy, ns, kids, if_neg (by simp [held, job]), if_neg (by simp [child]), if_neg (by omega), if_neg]
  rcases late with late | late | late
  · simp [late]
  · simp [late]
  · rw [State.decidedStep] at late ⊢
    simp [late]

theorem exec_arriveClean {s : State} {k : Packet} (ck : s.clocked = true) (mine : s.isMine k kGUY = true) (ty : bits 7 0 k.arg = 1) :
    exec (.arriveClean k) s = finish s (s.arrival k true) := by
  have u : exec (.arriveClean k) s = execArriveClean k s := rfl
  rw [u, execArriveClean]
  exact act_pos _ ck (by rw [mine, ty]; rfl)

theorem exec_arriveFailed {s : State} {k : Packet} (ck : s.clocked = true) (mine : s.isMine k kGUY = true) (ty : bits 7 0 k.arg = 2) :
    exec (.arriveFailed k) s = finish s (s.arrival k false) := by
  have u : exec (.arriveFailed k) s = execArriveFailed k s := rfl
  rw [u, execArriveFailed]
  exact act_pos _ ck (by rw [mine, ty]; rfl)

/-- The arrivals of the running step, once one more is kept. -/
theorem tagged_arrived {s : State} {k : Packet} (clean : Bool) (attempt : k.attempt = s.job.attempt) (step : k.step = s.job.step) :
    (s.arrived k clean).tagged s.job.attempt s.job.step
      = s.tagged s.job.attempt s.job.step ++ [⟨k.srcRank, k.attempt, k.step, clean, bitAt 16 k.arg⟩] := by
  rw [State.tagged, State.arrived, List.filter_append]
  simp [attempt, step, State.tagged]

end Sys2Proof.Machine

namespace Sys2Proof

open Machine

/-- Settles O29: `gather` on the state with the own step end, or with one arrival more. -/
theorem guylineGathersArrivals : Obligations.GuylineGathersArrivals := by
  intro s ck st held rank run restored undecided sentClean sentFailed clean
  have ended : ∀ c, Gathers (s.stepEnded c) := fun c => by
    obtain ⟨-, guy, job, -⟩ := stepEnded_spec s c
    exact ⟨by rw [guy]; exact restored, by rw [job]; exact run, by rw [job]; exact rank⟩
  have tags : ∀ c, (s.stepEnded c).tagged (s.stepEnded c).job.attempt (s.stepEnded c).job.step = s.tagged s.job.attempt s.job.step := fun c => by
    obtain ⟨-, guy, job, -⟩ := stepEnded_spec s c
    rw [job]
    exact tagged_congr (by rw [guy]) _ _
  refine ⟨fun own done ok all => ?up, fun own done ok missing => ?wait, fun own bad => ?failed, fun k mine job child attempt step => ?kept,
    fun k mine job ty => ?other⟩
  case up =>
    obtain ⟨alike, guy, job, err, parts⟩ := stepEnded_spec s true
    have e := exec_packageStepEnd ck st run undecided own (clean := true) ok (fun _ => done)
    rw [(ended true).gather_clean (by rw [tags]; exact clean) (by rw [guy]) (by rw [guy]; exact sentClean)
      (by rw [tags, State.children, job]; exact all), tags, gatheredBit_congr err, alike.epoch] at e
    obtain ⟨t, e, own, fab, fr⟩ := completes_sentGuy (l := [.guy, .fab, .recorder, .snaps]) e alike
      (fun p n => parts p (Part.outside n)) (by decide)
    exact ⟨t, e, by rw [own, guy], by rw [fab, job], fr⟩
  case wait =>
    obtain ⟨alike, guy, job, err, parts⟩ := stepEnded_spec s true
    have e := exec_packageStepEnd ck st run undecided own (clean := true) ok (fun _ => done)
    rw [(ended true).gather_waits (by rw [tags]; exact clean) (by rw [guy]; simp)
      (.inr (by rw [tags, State.children, job]; exact missing))] at e
    exact completes_frame e parts fun t hs fr => ⟨(hs .guy).trans guy, fr⟩
  case failed =>
    obtain ⟨alike, guy, job, err, parts⟩ := stepEnded_spec s false
    have e := exec_packageStepEnd ck st run undecided own (clean := false) bad (by simp)
    rw [(ended false).gather_failed (.inl (by rw [guy])) (by rw [guy]; exact sentFailed), tags, gatheredBit_congr err, alike.epoch] at e
    obtain ⟨t, e, own, fab, fr⟩ := completes_sentGuy (l := [.guy, .fab, .recorder, .snaps]) e alike
      (fun p n => parts p (Part.outside n)) (by decide)
    exact ⟨t, e, by rw [own, guy], by rw [fab, job], fr⟩
  case kept =>
    have parts := fun c => arrived_parts s k c
    have jobs : ∀ c, (s.arrived k c).job = s.job := fun c => parts c .job (by simp)
    have gathers : ∀ c, Gathers (s.arrived k c) := fun c => ⟨restored, by rw [jobs]; exact run, by rw [jobs]; exact rank⟩
    have alike : ∀ c, SendsAlike (s.takeLocal k).1 (s.arrived k c) := fun c => SendsAlike.ofGuy _ _
    have epoch : ∀ c, (s.arrived k c).epoch = s.epoch := fun c => State.epoch_congr (jobs c)
    have list : ∀ c, (s.arrived k c).tagged (s.arrived k c).job.attempt (s.arrived k c).job.step
        = s.tagged s.job.attempt s.job.step ++ [⟨k.srcRank, k.attempt, k.step, c, bitAt 16 k.arg⟩] := fun c => by
      rw [jobs, tagged_arrived c attempt step]
    have bit : ∀ c, (s.arrived k c).gatheredBit (s.tagged s.job.attempt s.job.step ++ [⟨k.srcRank, k.attempt, k.step, c, bitAt 16 k.arg⟩])
        = (s.gatheredBit (s.tagged s.job.attempt s.job.step) || bitAt 16 k.arg) := fun c => by
      rw [gatheredBit_congr (parts c .err (by simp)), State.gatheredBit, State.gatheredBit, List.any_append, ← Bool.or_assoc]
      simp
    have good : ∀ a ∈ s.tagged s.job.attempt s.job.step ++ [⟨k.srcRank, k.attempt, k.step, true, bitAt 16 k.arg⟩], a.clean = true := by
      intro a m
      rcases List.mem_append.mp m with m | m
      · exact clean a m
      · rw [List.mem_singleton.mp m]
    refine ⟨fun ty own => ?open_, fun ty own all => ?last, fun ty own => ?bad⟩
    case open_ =>
      have e := exec_arriveClean ck mine ty
      rw [arrival_kept held job child attempt (.inl rfl), (gathers true).gather_waits (by rw [list]; exact good)
        (by show s.guy.ownEnd ≠ _; rw [own]; simp) (.inl own)] at e
      exact completes_frame e (parts true) fun t hs fr => ⟨hs .guy, fr⟩
    case last =>
      have e := exec_arriveClean ck mine ty
      rw [arrival_kept held job child attempt (.inl rfl), (gathers true).gather_clean (by rw [list]; exact good) own sentClean ?all,
        list, bit, epoch] at e
      · obtain ⟨t, e, own, fab, fr⟩ := completes_sentGuy (l := [.guy, .fab, .recorder]) e (alike true)
          (fun p n => parts true p (Part.outside n)) (by decide)
        exact ⟨t, e, by rw [own], by rw [own]; rfl, by rw [fab, jobs], fr⟩
      case all =>
        rw [list, State.children, jobs]
        intro c m
        rcases all c m with e | ⟨a, ma, e⟩
        · exact ⟨_, List.mem_append_right _ (List.mem_singleton_self _), e.symm⟩
        · exact ⟨a, List.mem_append_left _ ma, e⟩
    case bad =>
      have e := exec_arriveFailed ck mine ty
      rw [arrival_kept held job child attempt (.inr (.inl rank)), (gathers false).gather_failed (.inr ?some_) sentFailed,
        list, bit, epoch] at e
      · obtain ⟨t, e, own, fab, fr⟩ := completes_sentGuy (l := [.guy, .fab, .recorder]) e (alike false)
          (fun p n => parts false p (Part.outside n)) (by decide)
        exact ⟨t, e, by rw [own], by rw [own]; exact sentClean, by rw [fab, jobs], fr⟩
      case some_ =>
        rw [list]
        exact ⟨_, List.mem_append_right _ (List.mem_singleton_self _), rfl⟩
  case other =>
    have e := exec_arriveClean ck mine ty
    have taken := takeLocal_parts s k
    have jobs : (s.takeLocal k).1.job = s.job := taken .job (by simp)
    rw [State.arrival, if_pos (by simp [job])] at e
    refine completes_frame (l := [.guy, .fab]) e
      (fun p n => Part.same_trans (taken p (Part.outside n)) (guy_parts _ _ p (Part.outside n))) fun t hs fr => ⟨(hs .guy).trans ?_, fr⟩
    rw [(taken .guy (by simp) : _ = _)]
    rfl

end Sys2Proof
end

section
/-!
Failed arrivals at the root, ABANDON, and children that stay away (13, 16, R318, R363 to R365, Tables 16.5 and 16.6).
-/
namespace Sys2Proof.Machine

open Sys2Proof

/-! ## ABANDON -/

theorem State.core_abandon (s : State) (attempt step f c : Nat) : (s.abandon attempt step f).core c = (s.core c).halt := by
  have cores : (s.event 0x0803 srcPackage (attempt % 256 + step % 2 ^ 48 * 2 ^ 8)).cores = s.cores := event_parts s _ _ _ .cores (by simp)
  rw [← State.core_congr cores c]
  exact nget_nall_of_default (by rfl) _ c

/-- A package that acts on ABANDON, having left cores and memory as they were. -/
theorem abandoned_of {s u : State} (cores : u.cores = s.cores) (mem : u.mem = s.mem) (attempt step f : Nat) :
    Abandoned attempt step f s (u.abandon attempt step f) := by
  refine ⟨rfl, rfl, rfl, rfl, rfl, rfl, rfl, rfl, rfl, rfl, rfl, rfl, rfl, rfl, ?_, fun c => ?_⟩
  · exact Eq.trans (event_parts u _ _ _ .mem (by simp)) mem
  · rw [State.core_abandon, State.core_congr cores]
    exact ⟨rfl, rfl, rfl, rfl, rfl, rfl, rfl, rfl⟩

theorem Abandoned.congr {attempt step f : Nat} {s t u : State} (h : Abandoned attempt step f s t) (same : ∀ q : Part, q.same t u) :
    Abandoned attempt step f s u := by
  obtain ⟨att, run, st, to', back, ok, track, reorder, queue, runs, waiting, own, held, commit, mem, cores⟩ := h
  have job : u.job = t.job := same .job
  have err : u.err = t.err := same .err
  have fab : u.fab = t.fab := same .fab
  have guy : u.guy = t.guy := same .guy
  exact ⟨job ▸ att, job ▸ run, err ▸ st, err ▸ to', err ▸ back, err ▸ ok, fab ▸ track, fab ▸ reorder,
    (show u.outputs = t.outputs from same .outputs) ▸ queue, (show u.coll = t.coll from same .coll) ▸ runs,
    (show u.tt = t.tt from same .tt) ▸ waiting, guy ▸ own, guy ▸ held, guy ▸ commit, Eq.trans (same .mem) mem,
    fun c => (State.core_congr (same .cores) c) ▸ cores c⟩

theorem completes_abandoned {i : Instr} {s u : State} {attempt step f : Nat} (e : exec i s = finish s (u.abandon attempt step f))
    (cores : u.cores = s.cores) (mem : u.mem = s.mem) : Completes i s (fun t => Abandoned attempt step f s t) :=
  completes_of e fun _ _ hs => Abandoned.congr (abandoned_of cores mem attempt step f) hs

theorem sendGuy_parts (s : State) (ty opp : Nat) (input : Bool) (dst : Nat) (e : Epoch) (payload : List Byte) :
    ∀ p, p ∉ [Part.fab, Part.recorder] → p.same s (s.sendGuy ty opp input dst e payload) := ctl_parts s _ _ _ _ _

/-! ## The root -/

/-- A failed step at the root: where replay is off it strikes (Table 16.6). -/
theorem rootFailed_strikes {s : State} (undecided : s.decidedStep = false) (fresh : s.err.replayTo = none) (off : s.dnat 0x9810 1 ≠ 1)
    (child : Option Nat) : s.rootFailed child = s.strikeAll 3 := by
  unfold State.rootFailed
  rw [if_neg (by simp [undecided, fresh]), if_pos off]

/-- Where replay is allowed the step is abandoned (R363, R364). -/
theorem rootFailed_abandons {s : State} (undecided : s.decidedStep = false) (fresh : s.err.replayTo = none) (on : s.dnat 0x9810 1 = 1)
    (more : s.job.attempt < 255) (fly : s.ckpt.flyStep ≠ 0xFFFFFFFFFFFFFFFF) (child : Option Nat) :
    ∃ u : State, s.rootFailed child = u.abandon (s.job.attempt + 1) s.job.step s.ckpt.flyStep ∧ u.cores = s.cores ∧ u.mem = s.mem := by
  have each : ∀ (u : State) rank code, ∃ v : State, u.replay rank code = v.abandon (u.job.attempt + 1) u.job.step u.ckpt.flyStep
      ∧ v.cores = u.cores ∧ v.mem = u.mem := fun u rank code => by
    let v : State := u.children.foldl (fun v c => v.sendGuy 4 0 false c ⟨v.job.id, u.job.attempt + 1, v.job.step⟩
      (leBytes 8 u.ckpt.flyStep ++ leBytes 2 rank ++ leBytes 2 code ++ zeros 4)) u
    have sent : ∀ p, p ∉ [Part.fab, .recorder] → p.same u v := foldl_parts (fun v c => sendGuy_parts v 4 0 false c _ _) u.children u
    have cores : v.cores = u.cores := sent .cores (by simp)
    have mem : v.mem = u.mem := sent .mem (by simp)
    exact ⟨v, rfl, cores, mem⟩
  unfold State.rootFailed
  rw [if_neg (by simp [undecided, fresh]), if_neg (by simp [on]), if_neg (by omega), if_neg fly]
  cases child with
  | none => exact each s _ _
  | some c => exact each s.taken c _

/-- A failed arrival at the root whose step runs. -/
theorem gather_rootFailed {s : State} (restored : s.guy.restored = false) (run : s.job.stepRunning = true) (rank : s.job.rank = 0)
    (sent : s.guy.sentFailed = false) (bad : ∃ a ∈ s.tagged s.job.attempt s.job.step, a.clean = false) :
    ∃ child, s.gather = ({ s with guy := { s.guy with sentFailed := true } } : State).rootFailed child := by
  unfold State.gather
  dsimp only
  rw [restored, if_neg (by simp), if_neg (by simp [run]), if_pos, sent, if_neg (by simp), if_pos rank]
  · exact ⟨_, rfl⟩
  · obtain ⟨a, ma, k⟩ := bad
    exact .inr (List.find?_isSome.mpr ⟨a, ma, by simp [k]⟩)

theorem exec_abandon {s : State} {k : Packet} (ck : s.clocked = true) (mine : s.isMine k kGUY = true) (ty : bits 7 0 k.arg = 4) :
    exec (.abandon k) s = finish s (
      let t := (s.takeLocal k).1
      if !t.job.held || k.job ≠ t.job.id then { t with guy := { t.guy with discards := count 32 t.guy.discards 1 } }
      else if k.srcRank ≠ parentOf t.job.rank ∨ t.job.rank = 0 ∨ k.attempt ≤ t.job.attempt then t
      else (t.children.foldl (fun s c => s.sendGuy 4 0 false c ⟨k.job, k.attempt, k.step⟩ k.payload) t).abandon
        k.attempt k.step (fieldAt k.payload 0 8)) := by
  have u : exec (.abandon k) s = execAbandon k s := rfl
  rw [u, execAbandon]
  exact act_pos _ ck (by rw [mine, ty]; rfl)

end Sys2Proof.Machine

namespace Sys2Proof

open Machine

/-- Settles O30: a failed arrival at the root ends in `rootFailed`, an ABANDON that counts in `State.abandon`. -/
theorem theRootReplaysOrStrikes : Obligations.TheRootReplaysOrStrikes := by
  intro s ck held
  refine ⟨fun k mine ty job child_ attempt step rank run restored sent undecided fresh more fly => ?root,
    fun k mine ty job parent rank => ⟨fun above => ?abandon, fun below => ?old⟩, fun c run own child undecided may missing => ?late⟩
  case root =>
    have parts := arrived_parts s k false
    have jobs : (s.arrived k false).job = s.job := parts .job (by simp)
    have err : (s.arrived k false).err = s.err := parts .err (by simp)
    have ckpt : (s.arrived k false).ckpt = s.ckpt := parts .ckpt (by simp)
    have vals : ∀ i j, (s.arrived k false).dnat i j = s.dnat i j := fun i j => by
      rw [State.dnat, State.dnat, State.dval, State.dval, (parts .settings (by simp)).1]
    have undecided' : (s.arrived k false).decidedStep = false := undecided
    obtain ⟨child, gathered⟩ := gather_rootFailed (s := s.arrived k false) restored (by rw [jobs]; exact run) (by rw [jobs]; exact rank) sent
      ⟨_, by rw [jobs, tagged_arrived false attempt step]; exact List.mem_append_right _ (List.mem_singleton_self _), rfl⟩
    have e := exec_arriveFailed ck mine ty
    rw [arrival_kept held job child_ attempt (.inr (.inr undecided)), gathered] at e
    let root : State := { s.arrived k false with guy := { (s.arrived k false).guy with sentFailed := true } }
    refine ⟨fun on => ?_, fun off may => ?_⟩
    · obtain ⟨u, eu, cores, mem⟩ := rootFailed_abandons
        (s := root) undecided' (by rw [err]; exact fresh)
        ((vals _ _).trans on) (by rw [jobs]; exact more) (by rw [ckpt]; exact fly) child
      rw [eu] at e
      rw [← jobs, ← ckpt]
      exact completes_abandoned e (cores.trans (parts .cores (by simp))) (mem.trans (parts .mem (by simp)))
    · rw [rootFailed_strikes (s := root) undecided' (by rw [err]; exact fresh) (fun on => off ((vals _ _).symm.trans on))] at e
      have pitch : (s.arrived k false).pitch = s.pitch := parts .pitch (by simp)
      refine completes_of e fun t _ hs => Struck.congr (Struck.of_before (strikeAll_spec (s := root) ?_ 3).1 ?_ ?_) hs
      · exact pitch.symm ▸ may.1
      · exact jobs
      · exact parts .mem (by simp)
  case abandon =>
    have e := exec_abandon ck mine ty
    have taken := takeLocal_parts s k
    have jobs : (s.takeLocal k).1.job = s.job := taken .job (by simp)
    dsimp only at e
    rw [jobs, if_neg (by simp [held, job]), if_neg (by omega)] at e
    have sent := foldl_parts (fun (v : State) c => sendGuy_parts v 4 0 false c ⟨k.job, k.attempt, k.step⟩ k.payload)
      (s.takeLocal k).1.children (s.takeLocal k).1
    exact completes_abandoned e (Eq.trans (sent .cores (by simp)) (taken .cores (by simp)))
      (Eq.trans (sent .mem (by simp)) (taken .mem (by simp)))
  case old =>
    have e := exec_abandon ck mine ty
    have taken := takeLocal_parts s k
    have jobs : (s.takeLocal k).1.job = s.job := taken .job (by simp)
    dsimp only at e
    rw [jobs, if_neg (by simp [held, job]), if_pos (.inr (.inr below))] at e
    exact completes_frame e taken fun _ _ fr => fr
  case late =>
    have u : exec (.guylineChildTimeout c) s = execGuylineChildTimeout c s := rfl
    have e : exec (.guylineChildTimeout c) s = finish s (s.reportJob 0x0506 srcPackage c noCore) := by
      rw [u, execGuylineChildTimeout]
      refine act_pos _ ck ?_
      have own' : s.guy.ownEnd.isSome = true := Option.isSome_iff_ne_none.mpr own
      have none : (s.tagged s.job.attempt s.job.step).any (fun a => a.child == c) = false := by
        rw [List.any_eq_false]
        intro a m
        simp [missing a m]
      simp [run, own', child, undecided, none]
    exact completes_struck e (reportJob_struck may _ _ _ _ _)

end Sys2Proof
end

section
/-!
RELEASE: its hold, the operating point before T, and the step that starts at T (13, 18, R26, R313 to R317).
-/
namespace Sys2Proof.Machine

open Sys2Proof

/-! ## A RELEASE of the parent -/

theorem State.commitOut_job (s : State) : s.commitOut.job = { s.job with committed := s.job.step } := by
  unfold State.commitOut
  simp

theorem State.beginCommit_spec (s : State) (quiesce : Bool) : (s.beginCommit quiesce).guy.held = s.guy.held
    ∧ (s.beginCommit quiesce).guy.commit ≠ .none ∧ (s.beginCommit quiesce).job.step = s.job.step := by
  unfold State.beginCommit
  dsimp only
  split
  · exact ⟨rfl, by simp, rfl⟩
  · refine ⟨?_, by simp, by simp only [State.commitOut_job]⟩
    simp

theorem State.holdRelease_guy (s : State) (step attempt t opp : Nat) : (s.holdRelease step attempt t opp).guy.held
    = some ⟨step, attempt, t, opp, if t < s.nsUp then tenNs s.nsUp else t, decide (t < s.nsUp)⟩ := by
  simp only [State.holdRelease, decide_eq_true_eq]

theorem exec_release {s : State} {k : Packet} (ck : s.clocked = true) (mine : s.isMine k kGUY = true) (ty : bits 7 0 k.arg = 3) :
    exec (.release k) s = finish s (s.gotRelease k) := by
  have u : exec (.release k) s = execRelease k s := rfl
  rw [u, execRelease]
  exact act_pos _ ck (by rw [mine, ty]; rfl)

/-- The RELEASE of the next step, after the clean arrival, is held, and the commit of the step begins (R26, R313). -/
theorem gotRelease_next {s : State} {k : Packet} (held : s.job.held = true) (job : k.job = s.job.id)
    (parent : k.srcRank = parentOf s.job.rank) (rank : s.job.rank ≠ 0) (run : s.job.stepRunning = true) (st : s.pitch.st = .running)
    (clean : s.guy.sentClean = true) (free : s.guy.held = none) (attempt : k.attempt = s.job.attempt) (step : k.step = s.job.step + 1) :
    s.gotRelease k = ((((s.takeLocal k).1).takeOpp (bits 15 8 k.arg)).holdRelease k.step k.attempt (fieldAt k.payload 0 8)
      (bits 15 8 k.arg)).beginCommit false := by
  have parts := takeLocal_parts s k
  have jobs : (s.takeLocal k).1.job = s.job := parts .job (by simp)
  have guy : (s.takeLocal k).1.guy = s.guy := parts .guy (by simp)
  have pitch : (s.takeLocal k).1.pitch = s.pitch := parts .pitch (by simp)
  unfold State.gotRelease
  dsimp only
  rw [jobs, guy, pitch, if_neg (by simp [held, job]), if_neg, if_pos (by simp [st, run])]
  simp [parent, rank, attempt, step, run, clean, free]

/-- A RELEASE of another attempt is discarded. -/
theorem gotRelease_other {s : State} {k : Packet} (held : s.job.held = true) (job : k.job = s.job.id) (attempt : k.attempt ≠ s.job.attempt) :
    s.gotRelease k = (s.takeLocal k).1 := by
  have parts := takeLocal_parts s k
  have jobs : (s.takeLocal k).1.job = s.job := parts .job (by simp)
  unfold State.gotRelease
  dsimp only
  rw [jobs, if_neg (by simp [held, job]), if_pos (.inr (.inr (.inl attempt)))]

/-! ## The operating point (R317) -/

theorem retarget_power (s : State) : s.retarget.power.job = s.power.job ∧ s.retarget.power.next = s.power.next
    ∧ s.retarget.power.thermalCap = s.power.thermalCap ∧ s.retarget.power.powerCap = s.power.powerCap := by
  unfold State.retarget
  dsimp only
  repeat' split
  all_goals exact ⟨rfl, rfl, rfl, rfl⟩

theorem retarget_parts (s : State) : ∀ p, p ∉ [Part.power] → p.same s s.retarget := by
  intro p n
  cases p <;> simp_all [Part.same]

theorem exec_oppointSwitch {s : State} {o : Nat} {r : Release} (ck : s.clocked = true) (next : s.power.next = some o)
    (held : s.guy.held = some r) (idle : s.guy.commit = .none ∨ ∃ q, s.guy.commit = .done q) (near : 256 * r.t ≤ s.now + 512000)
    (volt : s.power.volt ≤ max o (max s.power.thermalCap s.power.powerCap)) :
    exec .oppointSwitch s = finish s ({ s with power := { s.power with job := some o, next := none } } : State).retarget := by
  have u : exec .oppointSwitch s = execOppointSwitch s := rfl
  rw [u, execOppointSwitch, next, held]
  refine act_pos _ ck ?_
  rcases idle with idle | ⟨q, idle⟩ <;> simp [idle, near] <;> simpa using volt

/-! ## The step that starts -/

theorem State.applyPending_nil {s : State} (h : s.dict.pend = []) (p : Nat → Bool) : s.applyPending p = s := by
  have pend : ({ s.dict with pend := [] } : DictSt) = s.dict := by rw [← h]
  rw [State.applyPending, h, List.filter_nil, List.foldl_nil, h, List.filter_nil, pend]

theorem retryWaiting_unrouted (s : State) : s.retryWaiting.fab.unrouted = s.fab.unrouted :=
  (foldl_unrouted _ (fun s _ => s.route_unrouted _ _ _) _ _).trans rfl

theorem joinPorts_unrouted (s : State) : s.joinPorts.fab.unrouted = s.fab.unrouted := (retryWaiting_unrouted _).trans rfl

theorem joinPorts_reorder (s : State) : s.joinPorts.fab.reorder = s.fab.reorder :=
  show s.joinPorts.fab.unrouted.reorder = s.fab.unrouted.reorder by rw [joinPorts_unrouted]

/-- A package whose step has started but for its harts and its ports. -/
structure Started (r : Release) (s v : State) : Prop where
  step : v.job.step = r.step
  relT : v.job.relT = r.t
  running : v.job.stepRunning = true
  placed : v.job.placed = s.job.placed
  pitch : v.pitch.st = .running
  held : v.guy.held = none
  ownEnd : v.guy.ownEnd = none
  cores : v.cores = startCores s.cores
  settings : v.dict.vals = s.dict.vals
  mem : v.mem = s.mem
  outputs : v.outputs = s.outputs
  ckpt : v.ckpt = s.ckpt

theorem drainSpaces_nil {s : State} (h : s.fab.reorder = []) : ((s.fab.reorder.map (fun e => rxKey e.2)).eraseDups).foldl
    (fun s k => State.drainSpace k s.fab.reorder.length s) s = s := by
  rw [h]
  rfl

/-- With no value pending and no packet held back, a release is the step's start, its harts, its ports. -/
theorem release_eq {s : State} (r : Release) (pend : s.dict.pend = []) (reorder : s.fab.reorder = []) :
    ∃ v : State, s.release r = v.startHarts.joinPorts ∧ Started r s v := by
  unfold State.release
  rw [State.applyPending_nil pend]
  dsimp only
  rw [drainSpaces_nil (by rw [joinPorts_reorder]; split <;> simp [reorder])]
  refine ⟨_, rfl, ?_⟩
  have vals : ∀ k (l : List Nat) (u : State), (l.foldl (fun s h => s.snapshot k h) u).dict.vals = u.dict.vals := fun k l u => (foldl_snapshot k l u).1.vals
  split <;> constructor <;> simp [vals]

theorem State.dnat_congr {s t : State} (h : t.dict.vals = s.dict.vals) (idx sub : Nat) : t.dnat idx sub = s.dnat idx sub := by
  rw [State.dnat, State.dnat, State.dval, State.dval, h]

theorem ctr_zero (i : Nat) : (Vector.replicate 8 (0 : BitVec 32)).toList.getD i 0 = 0 := by
  rw [Vector.toList_replicate, List.getD_eq_getElem?_getD, List.getElem?_replicate]
  split <;> rfl

/-- A core at a release, listed or not. -/
theorem nget_startCores (m : NMap Core) (c : Nat) :
    nget {} (startCores m) c = (nget {} m c).start ∨ nget {} (startCores m) c = {} ∧ nget {} m c = {} := by
  have h := nget_nall ({} : Core) Core.start m c
  by_cases k : m.any (fun e => e.1 == c)
  · exact .inl (h.trans (if_pos k))
  · exact .inr ⟨h.trans (if_neg k), nget_unlisted k⟩

theorem foldl_putHart (f : Nat → Hart) (l : List Nat) (s : State) (h : Nat) :
    (l.foldl (fun t h => t.putHart h (f h)) s).hart h = if h ∈ l then f h else s.hart h := by
  induction l generalizing s with
  | nil => rfl
  | cons x xs ih =>
    rw [List.foldl_cons, ih, State.hart_putHart]
    by_cases e : h = x <;> simp [e]

/-- Every hart after a release (R178). -/
theorem State.hart_startHarts (s : State) {h : Nat} (hh : h < 128) : s.startHarts.hart h
    = if s.hartEnabled h then s.startHart h else { ({} : Hart) with stats := (s.hart h).stats } :=
  (foldl_putHart (fun h => if s.hartEnabled h then s.startHart h else { ({} : Hart) with stats := (s.hart h).stats }) _ s h).trans
    (if_pos (List.mem_range.mpr hh))

theorem exec_releaseAtT {s : State} {r : Release} (ck : s.clocked = true) (held : s.guy.held = some r)
    (idle : s.guy.commit = .none ∨ ∃ q, s.guy.commit = .done q) (next : s.power.next = none) (due : 256 * r.at_ ≤ s.now) :
    exec .releaseAtT s = finish s (s.release r) := by
  have u : exec .releaseAtT s = execReleaseAtT s := rfl
  rw [u, execReleaseAtT, held]
  refine act_pos _ ck ?_
  rcases idle with idle | ⟨q, idle⟩ <;> simp [idle, next, due]

/-! ## The timetable -/

theorem pump_track_length (s : State) (p : Nat) : (s.pump p).fab.track.length = s.fab.track.length := by
  unfold State.pump
  dsimp only
  split
  · rfl
  · exact List.length_map _

theorem route_track_length (s : State) (lane : Nat) (k : Packet) (a : Option Nat) :
    (s.route lane k a).fab.track.length = s.fab.track.length := by
  unfold State.route
  dsimp only
  repeat' split
  all_goals simp [State.enqueue, pump_track_length, State.modFab, State.modPort, State.taken]

theorem inject_track_length (s : State) (gd : Nat) (k : Packet) (o : Owner) :
    (s.inject gd k o).fab.track.length = s.fab.track.length + 1 := by
  unfold State.inject State.send
  dsimp only
  rw [route_track_length]
  simp [State.modFab]

theorem injectWait_parts (s : State) (gd : Nat) : ∀ p, p ∉ [Part.fab] → p.same s (s.injectWait gd) := by
  intro p n
  cases p <;> simp_all [Part.same]

theorem inject_parts (s : State) (gd : Nat) (k : Packet) (o : Owner) : ∀ p, p ∉ [Part.fab, Part.recorder] → p.same s (s.inject gd k o) := by
  intro p n
  cases p <;> simp_all [Part.same]

theorem lockSpace_parts (s : State) (key who : Nat) (on : Bool) : ∀ p, p ∉ [Part.fab] → p.same s (s.lockSpace key who on) := by
  intro p n
  cases p <;> simp_all [Part.same]

theorem tt_parts (s : State) (x : TtSt) : ∀ p, p ∉ [Part.tt] → p.same s { s with tt := x } := by
  intro p n
  cases p <;> simp_all [Part.same]

/-- A firing entry sends packets from `sent` on, one tracker entry each. -/
theorem ttLoop_spec (i : Nat) (e : TtEntry) (rank n : Nat) (s : State) (sent : Nat) : sent ≤ (ttLoop i e rank n s sent).2
    ∧ (ttLoop i e rank n s sent).1.fab.track.length = s.fab.track.length + ((ttLoop i e rank n s sent).2 - sent)
    ∧ ∀ p, p ∉ [Part.fab, Part.recorder] → p.same s (ttLoop i e rank n s sent).1 := by
  induction n generalizing s sent with
  | zero => exact ⟨Nat.le_refl _, by simp [ttLoop], fun p _ => p.same_refl s⟩
  | succ n ih =>
    unfold ttLoop
    dsimp only
    split
    · exact ⟨Nat.le_refl _, by simp, fun p _ => p.same_refl s⟩
    · split
      · obtain ⟨le, len, parts⟩ := ih _ (sent + 1)
        refine ⟨by omega, len.trans ?_, fun p k => Part.same_trans ?_ (parts p k)⟩
        · rw [show ∀ (u : State) key who on, (u.lockSpace key who on).fab.track.length = u.fab.track.length from fun _ _ _ _ => rfl,
            inject_track_length]
          omega
        · exact Part.same_trans (inject_parts _ _ _ _ p k) (lockSpace_parts _ _ _ _ p (Part.outside k))
      · exact ⟨Nat.le_refl _, by simp [State.injectWait, State.modFab], fun p k => injectWait_parts s _ p (Part.outside k)⟩

end Sys2Proof.Machine

namespace Sys2Proof

open Machine

/-- Settles O31: `gotRelease`, the switch of the point, `release`, and the loop of a firing entry. -/
theorem aReleaseIsHeldAndStartsItsStep : Obligations.AReleaseIsHeldAndStartsItsStep := by
  intro s ck
  refine ⟨fun k mine ty held job parent rank run st clean free => ⟨fun attempt step => ?next, fun attempt => ?other⟩,
    fun o r next held idle near volt => ?point, fun r held idle next due pend reorder => ?start, fun e w x found entry due first => ?fire⟩
  case next =>
    have e := exec_release ck mine ty
    rw [gotRelease_next held job parent rank run st clean free attempt step] at e
    have taken := takeLocal_parts s k
    have up : (((s.takeLocal k).1).takeOpp (bits 15 8 k.arg)).nsUp = s.nsUp := by
      simp [State.nsUp, State.now]
    obtain ⟨hold, commit, kept⟩ := State.beginCommit_spec ((((s.takeLocal k).1).takeOpp (bits 15 8 k.arg)).holdRelease k.step k.attempt
      (fieldAt k.payload 0 8) (bits 15 8 k.arg)) false
    refine completes_of e fun t _ hs => ?_
    have guy := hs .guy
    have job := hs .job
    have cores := hs .cores
    refine ⟨?_, by rw [guy]; exact commit, by rw [job, kept]; simp, by rw [cores]; simp⟩
    rw [guy, hold, State.holdRelease_guy, up]
  case other =>
    have e := exec_release ck mine ty
    rw [gotRelease_other held job attempt] at e
    exact completes_frame e (takeLocal_parts s k) fun _ _ fr => fr
  case point =>
    have e := exec_oppointSwitch ck next held idle near volt
    obtain ⟨job, none_, thermal, cap⟩ := retarget_power { s with power := { s.power with job := some o, next := none } }
    have parts : ∀ p, p ∉ [Part.power] → p.same s ({ s with power := { s.power with job := some o, next := none } } : State).retarget := by
      intro p n
      cases p <;> simp_all [Part.same]
    refine completes_frame e parts fun t hs fr => ?_
    have power := hs .power
    exact ⟨by rw [power, job], by rw [power, none_], by rw [power, thermal], by rw [power, cap], fr⟩
  case start =>
    obtain ⟨v, e, h⟩ := release_eq r pend reorder
    refine completes_of (e ▸ exec_releaseAtT ck held idle next due) fun t _ hs => ?_
    have job : t.job = v.job := (hs .job).trans (by simp)
    have guy : t.guy = v.guy := (hs .guy).trans (by simp)
    have harts : ∀ n, n < 128 → t.hart n = if s.hartEnabled n then v.startHart n else { ({} : Hart) with stats := (v.hart n).stats } := by
      intro n hn
      have enabled : v.hartEnabled n = s.hartEnabled n := by
        rw [State.hartEnabled, State.hartEnabled, State.dnat_congr h.settings, State.dnat_congr h.settings]
      rw [State.hart_congr (hs .harts), State.hart_congr (s := v.startHarts) (by simp), State.hart_startHarts v hn, enabled]
    refine ⟨by rw [job, h.step], by rw [job, h.relT], by rw [job, h.running], ?_, by rw [guy, h.held], by rw [guy, h.ownEnd], fun c => ?_,
      fun n hn => ?_, fun n hn on => ?_, ?_, ?_, ?_⟩
    · rw [show t.pitch = _ from hs .pitch]
      simp [h.pitch]
    · have core : t.core c = nget {} (startCores s.cores) c := by
        rw [State.core_congr (s := v) ((hs .cores).trans (by simp)), State.core, h.cores]
      rcases nget_startCores s.cores c with listed | ⟨unlisted, before⟩
      · rw [core, listed]
        refine ⟨rfl, rfl, rfl, rfl, ctr_zero, rfl, rfl, rfl, fun entry => if_pos entry⟩
      · rw [core, unlisted, State.core, before]
        refine ⟨rfl, rfl, rfl, rfl, ctr_zero, rfl, rfl, rfl, fun entry => absurd entry (by simp)⟩
    · rw [harts n hn]
      split <;> rfl
    · rw [harts n hn, if_pos on, ← State.dnat_congr h.settings, ← State.dnat_congr h.settings]
      have base : ∀ region, v.copyBase region 0 = s.copyBase region 0 := fun region => by
        rw [State.copyBase, State.copyBase, State.placedOf, State.placedOf, h.placed]
      rw [← base]
      rfl
    · rw [show t.mem = _ from hs .mem]
      simp [h.mem]
    · rw [show t.outputs = _ from hs .outputs]
      simp [h.outputs]
    · rw [show t.ckpt = _ from hs .ckpt]
      simp [h.ckpt]
  case fire =>
    have u : exec (.timetableFire e) s = execTimetableFire e s := rfl
    obtain ⟨le, len, parts⟩ := ttLoop_spec e x (s.targetRank x.rel x.rank) (ceilDiv x.len 256) s w.sent
    have tt : (ttLoop e x (s.targetRank x.rel x.rank) (ceilDiv x.len 256) s w.sent).1.tt = s.tt := parts .tt (by simp)
    refine completes_frame (l := [.tt, .fab, .recorder])
      (by rw [u, execTimetableFire, found, entry]; exact act_pos _ ck (by rw [due, first]; rfl)) (fun p n => ?_) fun t hs fr => ?_
    · exact Part.same_trans (parts p (Part.outside n)) (tt_parts _ _ p (Part.outside n))
    · refine ⟨_, le, ?_, fun done v m => ?_, fun more => ?_, fr⟩
      · rw [show t.fab = _ from hs .fab]
        exact len
      · rw [show t.tt = _ from hs .tt, if_pos (decide_eq_true done)] at m
        simp at m
        exact m.2
      · rw [show t.tt = _ from hs .tt, if_neg (by simp; omega), tt]
        exact List.mem_map.mpr ⟨w, List.mem_of_find?_eq_some found, if_pos (by simpa using List.find?_some found)⟩

end Sys2Proof
end

section
/-!
TT, SEND and COLL packets at their core: the space goes on, the bytes land, or the packet is refused, held or discarded
(3, 11, R80, R92, R282, R366).
-/
namespace Sys2Proof.Machine

open Sys2Proof

/-! ## What an answer leaves of the sequence spaces -/

/-- No packet more is held back, and every space expects the number that it expected. -/
structure SpacesKept (s u : State) : Prop where
  reorder : u.fab.reorder = s.fab.reorder
  next : ∀ key, (nget {} u.fab.rxSpace key).next = (nget {} s.fab.rxSpace key).next

namespace SpacesKept

variable {s t u : State}

theorem trans (h : SpacesKept s t) (k : SpacesKept t u) : SpacesKept s u :=
  ⟨k.reorder.trans h.reorder, fun key => (k.next key).trans (h.next key)⟩

theorem of_unrouted (h : u.fab.unrouted = s.fab.unrouted) : SpacesKept s u :=
  ⟨(congrArg (fun b : Fabric => b.reorder) h :), fun key => congrArg (fun b : Fabric => (nget {} b.rxSpace key).next) h⟩

theorem of_fab (h : u.fab = s.fab) : SpacesKept s u := of_unrouted (by rw [h])

/-- A change of a space that leaves its next number alone. -/
theorem modSpace (s : State) (key : Nat) {f : RxSpace → RxSpace} (h : ∀ r, (f r).next = r.next) (g : Fabric → List Packet) :
    SpacesKept s (s.modFab (fun b => { b with rxSpace := nmod {} b.rxSpace key f, unanswered := g b })) := by
  refine ⟨rfl, fun j => ?_⟩
  show (nget {} (nmod {} s.fab.rxSpace key f) j).next = _
  rw [nget_nmod]
  split
  · next e => rw [h, e]
  · rfl

theorem setEarly (s : State) (k : Packet) (on : Bool) : SpacesKept s (s.setEarly k on) :=
  modSpace s (rxKey k) (fun r => by split <;> rfl) Fabric.unanswered

theorem answer (s : State) (k : Packet) (kind arg : Nat) (payload : List Byte) : SpacesKept s (s.answer k kind arg payload) :=
  of_unrouted (s.route_unrouted _ _ _)

theorem answerKept (s : State) (k : Packet) (kind arg : Nat) (payload : List Byte) : SpacesKept s (s.answerKept k kind arg payload) :=
  (modSpace s (rxKey k) (f := fun r => { r with answers := r.answers ++ [{ k with kind := kind, arg := arg, payload := payload }] })
    (fun _ => rfl) (fun b => b.unanswered.filter (fun q => !(rxKey q == rxKey k && q.seq == k.seq)))).trans (answer _ k kind arg payload)

end SpacesKept

/-! ## The packet that its space expects -/

/-- A packet has been taken, and its space expects the next number. -/
def State.advanced (s : State) (k : Packet) : State :=
  (s.takeLocal k).1.modFab (fun b => { b with rxSpace := nmod {} b.rxSpace (rxKey k) (fun r => { r with next := (r.next + 1) % 2 ^ 32 }) })

theorem modFab_parts (s : State) (f : Fabric → Fabric) : ∀ p, p ∉ [Part.fab] → p.same s (s.modFab f) := by
  intro p n
  cases p <;> simp_all [Part.same]

theorem advanced_parts (s : State) (k : Packet) : ∀ p, p ∉ [Part.fab] → p.same s (s.advanced k) :=
  fun p n => Part.same_trans (takeLocal_parts s k p n) (modFab_parts _ _ p n)

/-- Taking a packet changes nothing of the fabric but what waits in its local input. -/
theorem takeLocal_unrouted (s : State) (k : Packet) : (s.takeLocal k).1.fab.unrouted = s.fab.unrouted := by
  unfold State.takeLocal
  split <;> rfl

theorem advanced_spec (s : State) (k : Packet) : (s.advanced k).fab.reorder = s.fab.reorder ∧ SpaceAdvanced k s (s.advanced k) := by
  have taken := SpacesKept.of_unrouted (takeLocal_unrouted s k)
  refine ⟨taken.reorder, ?_⟩
  unfold SpaceAdvanced State.advanced State.modFab
  dsimp only
  rw [nget_nmod_same, taken.next]

theorem checkPacket_congr {s t : State} (job : t.job = s.job) (ckpt : t.ckpt = s.ckpt) (k : Packet) : t.checkPacket k = s.checkPacket k := by
  rw [State.checkPacket, State.checkPacket, State.checkEpoch, State.checkEpoch, job, ckpt]

theorem checkPacket_takeLocal (s : State) (k : Packet) : (s.takeLocal k).1.checkPacket k = s.checkPacket k :=
  checkPacket_congr (takeLocal_parts s k .job (by simp)) (takeLocal_parts s k .ckpt (by simp)) k

/-- How far ahead of its space a packet is. -/
def State.aheadOf (s : State) (k : Packet) : Nat := (k.seq + 2 ^ 32 - (nget {} s.fab.rxSpace (rxKey k)).next % 2 ^ 32) % 2 ^ 32

theorem aheadOf_takeLocal (s : State) (k : Packet) : (s.takeLocal k).1.aheadOf k = s.aheadOf k := by
  rw [State.aheadOf, State.aheadOf, (SpacesKept.of_unrouted (takeLocal_unrouted s k)).next]

theorem not_duplicate {s : State} {k : Packet} (h : s.checkPacket k ≠ .here ∨ s.aheadOf k < 2 ^ 31) : s.isDuplicate k = false := by
  rcases h with h | h
  · simp [State.isDuplicate, h]
  · rw [State.aheadOf] at h
    have no : ¬ 2 ^ 31 ≤ (k.seq + 2 ^ 32 - (nget {} s.fab.rxSpace (rxKey k)).next % 2 ^ 32) % 2 ^ 32 := by omega
    simp only [State.isDuplicate, no, decide_false, Bool.and_false, Bool.false_and]

/-- A packet that is no duplicate is taken and accepted. -/
theorem deliver_fresh {s : State} {k : Packet} (bad : Bool) (h : s.checkPacket k ≠ .here ∨ s.aheadOf k < 2 ^ 31) :
    s.deliver k bad = (s.takeLocal k).1.accept k bad := by
  have none : (s.takeLocal k).1.isDuplicate k = false := not_duplicate (by rwa [checkPacket_takeLocal, aheadOf_takeLocal])
  unfold State.deliver
  dsimp only
  rw [none]
  rfl

theorem aheadOf_next {s : State} {k : Packet} (h : NextInSpace k s) : s.aheadOf k = 0 := by
  obtain ⟨-, -, -, -, seq, -, -⟩ := h
  rw [State.aheadOf, ← seq]
  omega

/-- A transfer that its space expects, with nothing held back behind it, goes to its core. -/
theorem deliver_next {s : State} {k : Packet} (bad : Bool) (h : NextInSpace k s) (kind : ¬ (k.kind = kLREAD ∨ k.kind = kLWRITE))
    (reorder : ((s.advanced k).toCore k).fab.reorder = []) : s.deliver k bad = (s.advanced k).toCore k := by
  have zero := aheadOf_next h
  obtain ⟨-, -, -, here, -, -, -⟩ := h
  have zero' := (aheadOf_takeLocal s k).trans zero
  rw [State.aheadOf] at zero'
  rw [deliver_fresh bad (.inr (by omega)), State.accept, checkPacket_takeLocal, here]
  dsimp only
  rw [if_pos zero', State.passOn, if_neg kind]
  show State.drainSpace (rxKey k) ((s.advanced k).toCore k).fab.reorder.length ((s.advanced k).toCore k) = _
  rw [reorder]
  rfl

/-! ## What the core does with it -/

theorem CoreAnd.after {ps : List Part} {c : Nat} {x : Core} {s t u : State} (h : CoreAnd ps c x s t) (parts : ∀ p, p ∉ ps → p.same t u)
    (n : Part.cores ∉ ps) : CoreAnd ps c x s u := by
  have k := CoreAnd.of_parts c parts n
  rw [h.1] at k
  exact h.trans k

/-- `u` is `s` with core `c` put to `x`, the parts `ps` apart, and spaces as they were. -/
structure CoreTakes (ps : List Part) (c : Nat) (x : Core) (s u : State) : Prop where
  core : CoreAnd ps c x s u
  spaces : SpacesKept s u

namespace CoreTakes

variable {ps : List Part} {c : Nat} {x : Core} {s t u : State}

theorem after (h : CoreTakes ps c x s t) (parts : ∀ p, p ∉ ps → p.same t u) (n : Part.cores ∉ ps) (k : SpacesKept t u) :
    CoreTakes ps c x s u := ⟨h.core.after parts n, h.spaces.trans k⟩

theorem mono {qs : List Part} (h : CoreTakes ps c x s u) (sub : ∀ p ∈ ps, p ∈ qs) : CoreTakes qs c x s u :=
  ⟨⟨h.core.1, h.core.2.1, fun p n => h.core.2.2 p fun m => n (by
    rcases List.mem_cons.mp m with rfl | m
    · exact List.mem_cons_self
    · exact List.mem_cons_of_mem _ (sub p m))⟩, h.spaces⟩

/-- A change of one core alone. -/
theorem modCore (s : State) (c : Nat) (f : Core → Core) (ps : List Part) : CoreTakes ps c (f (s.core c)) s (s.modCore c f) :=
  ⟨(CoreBecomes.modCore s c f).coreAnd ps, SpacesKept.of_fab rfl⟩

end CoreTakes

theorem setEarly_parts (s : State) (k : Packet) (on : Bool) : ∀ p, p ∉ [Part.fab] → p.same s (s.setEarly k on) := modFab_parts s _

theorem answer_parts (s : State) (k : Packet) (kind arg : Nat) (payload : List Byte) :
    ∀ p, p ∉ [Part.fab, Part.recorder] → p.same s (s.answer k kind arg payload) := by
  intro p n
  cases p <;> simp_all [Part.same]

theorem answerKept_parts (s : State) (k : Packet) (kind arg : Nat) (payload : List Byte) :
    ∀ p, p ∉ [Part.fab, Part.recorder] → p.same s (s.answerKept k kind arg payload) := by
  intro p n
  cases p <;> simp_all [Part.same]

theorem ttArrived_parts (s : State) (k : Packet) : ∀ p, p ∉ [Part.tt, Part.recorder] → p.same s (s.ttArrived k) := by
  intro p n
  cases p <;> simp_all [Part.same]

theorem coll_parts (s : State) (x : CollSt) : ∀ p, p ∉ [Part.coll] → p.same s { s with coll := x } := by
  intro p n
  cases p <;> simp_all [Part.same]

theorem CoreTakes.trans {ps : List Part} {c : Nat} {x y : Core} {s t u : State} (h : CoreTakes ps c x s t) (k : CoreTakes ps c y t u) :
    CoreTakes ps c y s u := ⟨h.core.trans k.core, h.spaces.trans k.spaces⟩

/-- A packet of the core's own role within scratch lands (R92). -/
theorem landed {s : State} {k : Packet} (fits : bits 22 0 k.arg + k.payload.length ≤ 8388608) :
    CoreTakes [.fab] k.dstCore ((s.core k.dstCore).taking (bits 22 0 k.arg) k.payload (argFlag k.arg) (argCnt k.arg)) s
      ((s.setEarly k false).land k.dstCore (bits 22 0 k.arg) k.payload (argFlag k.arg) (argCnt k.arg)) := by
  have early : CoreTakes [.fab] k.dstCore (s.core k.dstCore) s (s.setEarly k false) :=
    ⟨CoreAnd.of_parts _ (setEarly_parts s k false) (by simp), SpacesKept.setEarly s k false⟩
  rw [State.land_within _ _ _ _ fits]
  exact early.trans (CoreTakes.modCore (s.setEarly k false) k.dstCore
    (fun x => x.taking (bits 22 0 k.arg) k.payload (argFlag k.arg) (argCnt k.arg)) _)

/-- What may follow a TT packet: its transfer may have arrived (R322). -/
theorem CoreTakes.ttArrived {c : Nat} {x : Core} {s u : State} (h : CoreTakes [.fab, .tt, .recorder] c x s u) (k : Packet) (p : Prop)
    [Decidable p] : CoreTakes [.fab, .tt, .recorder] c x s (if p then u.ttArrived k else u) := by
  split
  · exact h.after (fun q n => ttArrived_parts u k q (Part.outside n)) (by simp) (SpacesKept.of_fab (by simp))
  · exact h

theorem CoreTakes.answerKept {ps : List Part} {c : Nat} {x : Core} {s u : State} (h : CoreTakes ps c x s u)
    (sub : ∀ p ∈ [Part.fab, .recorder], p ∈ ps) (n : Part.cores ∉ ps) (k : Packet) (kind arg : Nat) (payload : List Byte) :
    CoreTakes ps c x s (u.answerKept k kind arg payload) :=
  h.after (fun q m => answerKept_parts u k kind arg payload q (Part.outside m sub)) n (SpacesKept.answerKept u k kind arg payload)

section
variable {s : State} {k : Packet}

theorem toCore_send (ok : verdict (bits 53 38 k.arg) (s.core k.dstCore).roleEpoch.toNat = .ok)
    (fits : bits 22 0 k.arg + k.payload.length ≤ 8388608) (kind : k.kind = kSEND) : CoreTakes [.fab, .recorder] k.dstCore
      ((s.core k.dstCore).taking (bits 22 0 k.arg) k.payload (argFlag k.arg) (argCnt k.arg)) s (s.toCore k) := by
  have tt : k.kind ≠ kTT := by rw [kind]; decide
  have coll : k.kind ≠ kCOLL := by rw [kind]; decide
  unfold State.toCore
  dsimp only
  rw [ok]
  dsimp only
  rw [if_neg coll, if_neg coll, if_neg (fun h => tt h.1)]
  exact ((landed fits).mono (by decide)).answerKept (by decide) (by decide) _ _ _ _

theorem toCore_tt (ok : verdict (bits 53 38 k.arg) (s.core k.dstCore).roleEpoch.toNat = .ok)
    (fits : bits 22 0 k.arg + k.payload.length ≤ 8388608) (kind : k.kind = kTT) : CoreTakes [.fab, .tt, .recorder] k.dstCore
      ((s.core k.dstCore).taking (bits 22 0 k.arg) k.payload (argFlag k.arg) (argCnt k.arg)) s (s.toCore k) := by
  have coll : k.kind ≠ kCOLL := by rw [kind]; decide
  unfold State.toCore
  dsimp only
  rw [ok]
  dsimp only
  rw [if_neg coll, if_neg coll]
  exact (((landed fits).mono (by decide)).ttArrived k _).answerKept (by decide) (by decide) _ _ _ _

theorem collAdvance_none {c : Nat} (none : ∀ r ∈ s.coll.runs, r.core ≠ c) : s.collAdvance c = s := by
  have no : s.coll.runs.find? (fun r => r.core == c) = Option.none := List.find?_eq_none.mpr fun r m => by simp [none r m]
  rw [State.collAdvance, no]

/-- A COLL packet of a core without a run waits for its XCOLL (R329). -/
theorem toCore_coll (ok : verdict (bits 53 38 k.arg) (s.core k.dstCore).roleEpoch.toNat = .ok)
    (fits : bits 22 0 k.arg + k.payload.length ≤ 8388608) (kind : k.kind = kCOLL) (none : ∀ r ∈ s.coll.runs, r.core ≠ k.dstCore) :
    CoreTakes [.fab, .coll, .recorder] k.dstCore
      ((s.core k.dstCore).taking (bits 22 0 k.arg) k.payload (argFlag k.arg) (argCnt k.arg)) s (s.toCore k)
    ∧ (s.toCore k).coll = { s.coll with inbox := s.coll.inbox ++ [⟨k.dstCore, k.srcRank, bits 22 0 k.arg, k.payload.length⟩] } := by
  have tt : k.kind ≠ kTT := by rw [kind]; decide
  have land := (landed (s := s) fits).mono (qs := [.fab, .coll, .recorder]) (by decide)
  have collSame : ((s.setEarly k false).land k.dstCore (bits 22 0 k.arg) k.payload (argFlag k.arg) (argCnt k.arg)).coll = s.coll :=
    (landed (s := s) fits).core.2.2 .coll (by simp)
  unfold State.toCore
  dsimp only
  rw [ok]
  dsimp only
  simp only [tt, false_and, if_false, if_pos kind, collSame]
  generalize ((s.setEarly k false).land k.dstCore (bits 22 0 k.arg) k.payload (argFlag k.arg) (argCnt k.arg)) = u at land collSame
  let v : State := { u with coll := { s.coll with inbox := s.coll.inbox ++ [⟨k.dstCore, k.srcRank, bits 22 0 k.arg, k.payload.length⟩] } }
  have inbox : CoreTakes [.fab, .coll, .recorder] k.dstCore
      ((s.core k.dstCore).taking (bits 22 0 k.arg) k.payload (argFlag k.arg) (argCnt k.arg)) s v :=
    land.after (fun q n => coll_parts u _ q (Part.outside n)) (by simp) (SpacesKept.of_fab rfl)
  have answered := inbox.answerKept (by decide) (by decide) k kACK 0 []
  have collKept : (v.answerKept k kACK 0 []).coll = v.coll := answerKept_parts v k kACK 0 [] .coll (by simp)
  rw [collAdvance_none (by rw [collKept]; exact none)]
  exact ⟨answered, collKept⟩

end

/-! ## The commands -/

/-- The command that delivers a packet of a kind. -/
theorem exec_transfer {s : State} {k : Packet} {i : Instr} (mine : k.wellFormed = true ∧ k.dstRank = s.myRank)
    (h : (i = .sendPacket k ∧ k.kind = kSEND) ∨ (i = .ttPacket k ∧ k.kind = kTT) ∨ (i = .collPacket k false ∧ k.kind = kCOLL)) :
    exec i s = actSettled s true (s.deliver k false) := by
  have is : ∀ kind, k.kind = kind → s.isMine k kind = true := fun kind e => by
    rw [State.isMine, e, mine.1, mine.2]
    simp
  rcases h with ⟨rfl, e⟩ | ⟨rfl, e⟩ | ⟨rfl, e⟩
  · have u : exec (.sendPacket k) s = execSendPacket k s := rfl
    rw [u, execSendPacket, is _ e]
  · have u : exec (.ttPacket k) s = execTtPacket k s := rfl
    rw [u, execTtPacket, is _ e]
  · have u : exec (.collPacket k false) s = execCollPacket k false s := rfl
    rw [u, execCollPacket, is _ e]
    rfl

theorem no_canopy {k : Packet} (h : k.kind = kSEND ∨ k.kind = kTT ∨ k.kind = kCOLL) : ¬ (k.kind = kLREAD ∨ k.kind = kLWRITE) := by
  rcases h with h | h | h <;> rw [h] <;> decide

/-- A packet that goes to its core, which keeps its queues. -/
theorem completes_toCore {s : State} {k : Packet} {i : Instr} {ps : List Part} {x : Core} (h : NextInSpace k s)
    (kind : k.kind = kSEND ∨ k.kind = kTT ∨ k.kind = kCOLL) (e : exec i s = actSettled s true (s.deliver k false))
    (takes : CoreTakes ps k.dstCore x (s.advanced k) ((s.advanced k).toCore k)) (fab : Part.fab ∈ ps)
    (queues : x.queuesEmpty = (s.core k.dstCore).queuesEmpty) {Q : State → Prop}
    (q : ∀ t, (∀ p : Part, p.same ((s.advanced k).toCore k) t) → t.core k.dstCore = x → OtherCores k.dstCore s t → SpaceAdvanced k s t →
      Frame (.cores :: ps) s t → Q t) : Completes i s Q := by
  obtain ⟨reorder, space⟩ := advanced_spec s k
  have parts := advanced_parts s k
  have before : ∀ c, (s.advanced k).core c = s.core c := fun c => State.core_congr (parts .cores (by simp)) c
  have empty := takes.spaces.reorder.trans (reorder.trans h.2.2.2.2.2.2)
  rw [deliver_next false h (no_canopy kind) empty, actSettled_pos _ h.1 rfl] at e
  · refine completes_frame e (fun p n => Part.same_trans (parts p ?_) (takes.core.2.2 p n)) fun t hs fr => q t hs ?_ (fun d ne => ?_) ?_ fr
    · exact fun m => n (List.mem_cons_of_mem _ (by rw [List.mem_singleton.mp m]; exact fab))
    · exact (State.core_congr (hs .cores) _).trans takes.core.1
    · exact (State.core_congr (hs .cores) d).trans ((takes.core.2.1 d ne).trans (before d))
    · have hf : t.fab = _ := hs .fab
      unfold SpaceAdvanced
      rw [hf, takes.spaces.next]
      exact space
  · intro c now was
    by_cases own : c = k.dstCore
    · rw [own, takes.core.1, queues, ← own, was] at now
      exact absurd now (by simp)
    · rw [takes.core.2.1 c own, before, was] at now
      exact absurd now (by simp)

end Sys2Proof.Machine

namespace Sys2Proof

open Machine

/-- Settles O22: the space goes on, and `toCore` lands the packet. -/
theorem transfersFromTheFabricLand : Obligations.TransfersFromTheFabricLand := by
  intro s k h ok fits
  obtain ⟨ck, formed, rank, -⟩ := id h
  have own : (s.advanced k).core k.dstCore = s.core k.dstCore := State.core_congr (advanced_parts s k .cores (by simp)) _
  have ok' : verdict (bits 53 38 k.arg) ((s.advanced k).core k.dstCore).roleEpoch.toNat = .ok := by rw [own]; exact ok
  refine ⟨fun kind => ?send, fun kind => ?tt, fun kind none bad => ?coll⟩
  case send =>
    have takes := toCore_send ok' fits kind
    rw [own] at takes
    exact completes_toCore h (.inl kind) (exec_transfer ⟨formed, rank⟩ (.inl ⟨rfl, kind⟩)) takes (by simp) rfl
      fun t _ core other space fr => ⟨core, other, space, fr⟩
  case tt =>
    have takes := toCore_tt ok' fits kind
    rw [own] at takes
    exact completes_toCore h (.inr (.inl kind)) (exec_transfer ⟨formed, rank⟩ (.inr (.inl ⟨rfl, kind⟩))) takes (by simp) rfl
      fun t _ core other space fr => ⟨core, other, space, fr⟩
  case coll =>
    have same : (s.advanced k).coll = s.coll := advanced_parts s k .coll (by simp)
    obtain ⟨takes, inbox⟩ := toCore_coll ok' fits kind (by rw [same]; exact none)
    rw [own] at takes
    have e : exec (.collPacket k bad) s = actSettled s true (s.deliver k false) := by
      have u : exec (.collPacket k bad) s = execCollPacket k bad s := rfl
      have no : s.coll.runs.any (fun r => r.core == k.dstCore) = false := List.any_eq_false.mpr fun r m => by simp [none r m]
      have mine : s.isMine k kCOLL = true := by rw [State.isMine, kind, formed, rank]; simp
      rw [u, execCollPacket, mine, no, Bool.and_false]
      rfl
    exact completes_toCore h (.inr (.inr kind)) e takes (by simp) rfl
      fun t hs core other space fr => ⟨core, other, space, by rw [show t.coll = _ from hs .coll, inbox, same], fr⟩

end Sys2Proof
end

section
/-!
TT, SEND and COLL packets out of turn: of another role, ahead of their space, duplicates, of another attempt (3, 11, 16).
-/
namespace Sys2Proof.Machine

open Sys2Proof

/-! ## Packets of another role -/

section
variable {s : State} {k : Packet}

theorem CoreTakes.setEarly {c : Nat} {x : Core} {u : State} (h : CoreTakes [.fab] c x s u) (on : Bool) :
    CoreTakes [.fab] c x s (u.setEarly k on) := h.after (setEarly_parts u k on) (by simp) (SpacesKept.setEarly u k on)

/-- Numbers answered EARLY, as a change of the space leaves them. -/
theorem setEarly_mem (s : State) (k : Packet) : k.seq ∈ (nget {} (s.setEarly k true).fab.rxSpace (rxKey k)).early := by
  unfold State.setEarly State.modFab
  dsimp only
  rw [nget_nmod_same]
  dsimp only
  rw [if_pos rfl]
  split
  · next m => exact List.contains_iff_mem.mp m
  · exact List.mem_append_right _ (List.mem_singleton_self _)

theorem answer_rxSpace (s : State) (k : Packet) (kind arg : Nat) (payload : List Byte) :
    (s.answer k kind arg payload).fab.rxSpace = s.fab.rxSpace :=
  (congrArg (fun b : Fabric => b.rxSpace) (s.route_unrouted _ _ _) :)

/-- A packet before its role is counted and answered EARLY, and its space notes it (R92, R282). -/
theorem toCore_early (early : verdict (bits 53 38 k.arg) (s.core k.dstCore).roleEpoch.toNat = .early) :
    CoreTakes [.fab, .recorder] k.dstCore { s.core k.dstCore with stats := { (s.core k.dstCore).stats with
      early := count 32 (s.core k.dstCore).stats.early 1 } } s (s.toCore k)
    ∧ k.seq ∈ (nget {} (s.toCore k).fab.rxSpace (rxKey k)).early := by
  have counted : CoreTakes [.fab] k.dstCore _ s (s.countVerdict k.dstCore .early) := CoreTakes.modCore s k.dstCore
    (fun x => { x with stats := { x.stats with early := count 32 x.stats.early 1 } }) _
  unfold State.toCore
  dsimp only
  rw [early]
  dsimp only
  refine ⟨((counted.setEarly true).mono (by decide)).after (fun q n => answer_parts _ k _ _ _ q n) (by simp) (SpacesKept.answer _ k _ _ _), ?_⟩
  rw [answer_rxSpace]
  exact setEarly_mem _ k

/-- A packet of a past role is counted and answered STALE (R94). -/
theorem toCore_stale (stale : verdict (bits 53 38 k.arg) (s.core k.dstCore).roleEpoch.toNat = .stale) :
    CoreTakes [.fab, .tt, .recorder] k.dstCore { s.core k.dstCore with stats := { (s.core k.dstCore).stats with
      stale := count 32 (s.core k.dstCore).stats.stale 1 } } s (s.toCore k) := by
  have counted : CoreTakes [.fab] k.dstCore _ s (s.countVerdict k.dstCore .stale) := CoreTakes.modCore s k.dstCore
    (fun x => { x with stats := { x.stats with stale := count 32 x.stats.stale 1 } }) _
  unfold State.toCore
  dsimp only
  rw [stale]
  dsimp only
  exact (((counted.setEarly false).mono (by decide)).ttArrived k _).answerKept (by decide) (by decide) _ _ _ _

end

/-! ## Packets that are not delivered -/

/-- A packet ahead of its space is held back (R282). -/
theorem deliver_ahead {s : State} {k : Packet} (here : s.checkPacket k = .here) (pos : 0 < s.aheadOf k) (less : s.aheadOf k < 2 ^ 31)
    (empty : s.fab.reorder = []) : s.deliver k false
      = (s.takeLocal k).1.modFab (fun b => { b with reorder := b.reorder ++ [(k.sgd % 2, k)] }) := by
  have reorder : (s.takeLocal k).1.fab.reorder = [] := (SpacesKept.of_unrouted (takeLocal_unrouted s k)).reorder.trans empty
  have ahead := aheadOf_takeLocal s k
  rw [State.aheadOf] at ahead
  rw [deliver_fresh false (.inr less), State.accept, checkPacket_takeLocal, here]
  dsimp only
  rw [ahead, if_neg (by omega), if_neg (by omega), State.holdBack, reorder]
  rfl

theorem answerAgain_parts (s : State) (k : Packet) : ∀ p, p ∉ [Part.fab, Part.recorder] → p.same s (s.answerAgain k) := by
  intro p n
  cases p <;> simp_all [Part.same]

theorem State.modPort_unrouted (s : State) (p : Nat) (f : Port → Port) : (s.modPort p f).fab.unrouted = s.fab.unrouted := rfl

theorem err_parts (s : State) (x : ErrSt) : ∀ p, p ∉ [Part.err] → p.same s { s with err := x } := by
  intro p n
  cases p <;> simp_all [Part.same]

/-- A duplicate is answered again, and nothing but its port's count changes (R282). -/
theorem deliver_duplicate {s : State} {k : Packet} (dup : s.isDuplicate k = true) :
    ∀ p, p ∉ [Part.fab, Part.recorder] → p.same s (s.deliver k false) := by
  rw [State.isDuplicate, Bool.and_eq_true, Bool.and_eq_true, beq_iff_eq, decide_eq_true_eq, Bool.not_eq_true'] at dup
  obtain ⟨⟨here, far⟩, fresh⟩ := dup
  obtain ⟨u, eu, fab, parts⟩ : ∃ u : State, s.deliver k false = u.accept k false ∧ u.fab.unrouted = s.fab.unrouted
      ∧ ∀ p, p ∉ [Part.fab] → p.same s u := by
    refine ⟨_, rfl, ?_, ?_⟩
    · split
      · exact (State.modPort_unrouted _ _ _).trans (takeLocal_unrouted s k)
      · exact takeLocal_unrouted s k
    · split
      · exact fun p n => Part.same_trans (takeLocal_parts s k p n) (modPort_parts _ _ _ p n)
      · exact takeLocal_parts s k
  have space : u.fab.rxSpace = s.fab.rxSpace := (congrArg (fun b : Fabric => b.rxSpace) fab :)
  have again : u.accept k false = u.answerAgain k := by
    rw [State.accept, checkPacket_congr (parts .job (by simp)) (parts .ckpt (by simp)), here]
    dsimp only
    rw [space, if_neg (by omega), if_pos far, if_neg (by rw [fresh]; simp)]
  rw [eu, again]
  exact fun p n => Part.same_trans (parts p (Part.outside n)) (answerAgain_parts u k p n)

/-- A packet of another attempt is discarded and counted (R366). -/
theorem deliver_other {s : State} {k : Packet} {v : EpochCheck} (check : s.checkPacket k = v) (h : v = .older ∨ v = .newer) :
    s.deliver k false = (s.takeLocal k).1.countDiscard v := by
  rw [deliver_fresh false (.inl (by rcases h with rfl | rfl <;> simp [check])), State.accept, checkPacket_takeLocal, check]
  rcases h with rfl | rfl <;> rfl

end Sys2Proof.Machine

namespace Sys2Proof

open Machine

/-- Settles O23: a refused packet is counted, one ahead is held, a duplicate is answered again, another attempt's is counted. -/
theorem transfersOutOfTurnAreRefusedOrHeld : Obligations.TransfersOutOfTurnAreRefusedOrHeld := by
  intro s k i ck formed rank h
  have e := exec_transfer ⟨formed, rank⟩ h
  have kind : k.kind = kSEND ∨ k.kind = kTT ∨ k.kind = kCOLL := by
    rcases h with ⟨-, h⟩ | ⟨-, h⟩ | ⟨-, h⟩
    · exact .inl h
    · exact .inr (.inl h)
    · exact .inr (.inr h)
  have own : (s.advanced k).core k.dstCore = s.core k.dstCore := State.core_congr (advanced_parts s k .cores (by simp)) _
  have same : ∀ u : State, u.cores = s.cores → actSettled s true u = finish s u := fun u cores =>
    actSettled_pos u ck rfl fun c now was => absurd now (by rw [State.core_congr cores, was]; simp)
  refine ⟨fun next early => ?early, fun next stale => ?stale, fun here pos less empty => ?ahead, fun dup => ?dup, fun old => ?older,
    fun new => ?newer⟩
  case early =>
    obtain ⟨takes, mem⟩ := toCore_early (s := s.advanced k) (k := k) (by rw [own]; exact early)
    rw [own] at takes
    refine completes_toCore next kind e takes (by simp) rfl fun t hs core other space fr => ⟨core, other, ?_, space, fr⟩
    rw [show t.fab = _ from hs .fab]
    exact mem
  case stale =>
    have takes := toCore_stale (s := s.advanced k) (k := k) (by rw [own]; exact stale)
    rw [own] at takes
    exact completes_toCore next kind e takes (by simp) rfl fun t hs core other space fr => ⟨core, other, space, fr⟩
  case ahead =>
    have parts : ∀ p, p ∉ [Part.fab] → p.same s (s.deliver k false) := by
      rw [deliver_ahead here pos less empty]
      exact fun p n => Part.same_trans (takeLocal_parts s k p n) (modFab_parts _ _ p n)
    rw [same _ (parts .cores (by simp))] at e
    refine completes_frame e parts fun t hs fr => ⟨?_, fr⟩
    rw [show t.fab = _ from hs .fab, deliver_ahead here pos less empty]
    show (s.takeLocal k).1.fab.reorder ++ _ = _
    rw [(SpacesKept.of_unrouted (takeLocal_unrouted s k)).reorder, empty]
    rfl
  case dup =>
    have parts := deliver_duplicate dup
    rw [same _ (parts .cores (by simp))] at e
    exact completes_frame e parts fun t hs fr => ⟨fr.2 .cores (by simp), fr.2 .mem (by simp), fr⟩
  case older =>
    rw [deliver_other old (.inl rfl), same ((s.takeLocal k).1.countDiscard .older) (takeLocal_parts s k .cores (by simp))] at e
    refine completes_frame (l := [.fab, .err]) e (fun p n => Part.same_trans (takeLocal_parts s k p (Part.outside n))
      (err_parts _ _ p (Part.outside n))) fun t hs fr => ⟨(hs .err).trans ?_, fr⟩
    rw [State.countDiscard, (takeLocal_parts s k .err (by simp) : _ = _)]
    rfl
  case newer =>
    rw [deliver_other new (.inr rfl), same ((s.takeLocal k).1.countDiscard .newer) (takeLocal_parts s k .cores (by simp))] at e
    refine completes_frame (l := [.fab, .err]) e (fun p n => Part.same_trans (takeLocal_parts s k p (Part.outside n))
      (err_parts _ _ p (Part.outside n))) fun t hs fr => ⟨(hs .err).trans ?_, fr⟩
    rw [State.countDiscard, (takeLocal_parts s k .err (by simp) : _ = _)]
    rfl

end Sys2Proof
end

section
/-!
The exchange queue: XMOV injects its packets in the order of its space, XFENCE waits, XARM arms (6, 11, 12, R166 to R168, R282, R295).
-/
namespace Sys2Proof.Machine

open Sys2Proof

/-! ## Tracker entries without the ports of their packets -/

/-- What a tracker entry holds from its injection on: gateway die, packet and owner. -/
def State.trackKeys (s : State) : List (Nat × Packet × Owner) := s.fab.track.map (fun e => (e.gd, e.pkt, e.owner))

theorem pump_trackKeys (s : State) (p : Nat) : (s.pump p).trackKeys = s.trackKeys := by
  unfold State.pump State.trackKeys
  dsimp only
  split
  · rfl
  · show List.map _ (List.map _ s.fab.track) = _
    rw [List.map_map]
    refine List.map_congr_left fun e _ => ?_
    dsimp only [Function.comp]
    split <;> rfl

theorem enqueue_trackKeys (s : State) (p lane : Nat) (k : Packet) : (s.enqueue p lane k).trackKeys = s.trackKeys := pump_trackKeys _ p

theorem route_trackKeys (s : State) (lane : Nat) (k : Packet) (a : Option Nat) : (s.route lane k a).trackKeys = s.trackKeys := by
  unfold State.route
  dsimp only
  split
  · rfl
  · split
    · rw [enqueue_trackKeys]
      repeat' split
      all_goals rfl
    · split
      · rfl
      · exact congrArg (fun b : Fabric => b.track.map (fun e => (e.gd, e.pkt, e.owner))) (event_parts _ _ _ _ .fab (by simp))

/-- The packet as an injection sends it. -/
def State.stamped (s : State) (gd n : Nat) (k : Packet) : Packet :=
  { k with seq := n, sgd := gd, srcRank := s.myRank, job := s.job.id, attempt := s.job.attempt, step := s.job.step }

/-- What an injection does: one tracker entry, the space one number on (R282, R283). -/
theorem inject_spec (s : State) (gd : Nat) (k : Packet) (o : Owner) :
    (s.inject gd k o).trackKeys = s.trackKeys ++ [(gd, s.stamped gd (nget 0 s.fab.txSeq (spaceKey k.dstRank gd k.tc) % 2 ^ 32) k, o)]
    ∧ (s.inject gd k o).fab.txSeq = nmod 0 s.fab.txSeq (spaceKey k.dstRank gd k.tc) (fun n => (n + 1) % 2 ^ 32)
    ∧ (s.inject gd k o).fab.tabSt = s.fab.tabSt ∧ (s.inject gd k o).fab.tabs = s.fab.tabs
    ∧ (s.inject gd k o).fab.spaceLock = s.fab.spaceLock ∧ (s.inject gd k o).fab.puts = s.fab.puts
    ∧ (s.inject gd k o).fab.unacked = s.fab.unacked := by
  unfold State.inject State.send
  dsimp only
  refine ⟨?_, ?_⟩
  · rw [route_trackKeys]
    show List.map _ (s.fab.track ++ _) = _
    rw [List.map_append]
    rfl
  · have kept : ∀ (u : State) lane pkt, (u.route lane pkt none).fab.unrouted = u.fab.unrouted := fun u lane pkt => u.route_unrouted lane pkt none
    exact ⟨(congrArg (fun b : Fabric => b.txSeq) (kept _ _ _) :), (congrArg (fun b : Fabric => b.tabSt) (kept _ _ _) :),
      (congrArg (fun b : Fabric => b.tabs) (kept _ _ _) :), (congrArg (fun b : Fabric => b.spaceLock) (kept _ _ _) :),
      (congrArg (fun b : Fabric => b.puts) (kept _ _ _) :), (congrArg (fun b : Fabric => b.unacked) (kept _ _ _) :)⟩

/-- The entries of a gateway die, and those of TC1 among them, as `trackKeys` counts them. -/
theorem tracked_lengths (s : State) (gd : Nat) : (s.tracked gd).length = (s.trackKeys.filter (fun e => e.1 == gd)).length
    ∧ ((s.tracked gd).filter (fun e => e.pkt.tc == 1)).length
      = ((s.trackKeys.filter (fun e => e.1 == gd)).filter (fun e => e.2.1.tc == 1)).length := by
  unfold State.tracked State.trackKeys
  constructor
  · rw [List.filter_map, List.length_map]
    rfl
  · rw [List.filter_map, List.filter_map, List.length_map]
    rfl

/-! ## The loop of an exchange -/

/-- Packet `i` of an exchange, as it is injected into the space that `s` finds. -/
def State.exchSent (s : State) (c : Nat) (x : Exch) (i : Nat) : Packet :=
  s.stamped (gdOfCore c) ((nget 0 s.fab.txSeq (spaceKey x.rank (gdOfCore c) 1) + i) % 2 ^ 32) (s.exchPacket c x i)

theorem exchPacket_spec (s : State) (c : Nat) (x : Exch) (i : Nat) : (s.exchPacket c x i).tc = 1 ∧ (s.exchPacket c x i).dstRank = x.rank := by
  unfold State.exchPacket
  repeat' split
  all_goals exact ⟨rfl, rfl⟩

theorem exchPacket_congr {s t : State} (cores : t.cores = s.cores) (job : t.job = s.job) (c : Nat) (x : Exch) (i : Nat) :
    t.exchPacket c x i = s.exchPacket c x i := by
  simp only [State.exchPacket, State.scratchBytes, State.core_congr cores, State.exchAddr, State.copyBase_congr job]

/-- `u` is `s` with the first `i` packets of an exchange injected. -/
structure Injected (c : Nat) (x : Exch) (o : Owner) (i : Nat) (s u : State) : Prop where
  tabSt : u.fab.tabSt = s.fab.tabSt
  tabs : u.fab.tabs = s.fab.tabs
  keys : u.trackKeys = s.trackKeys ++ (List.range i).map (fun j => (gdOfCore c, s.exchSent c x j, o))
  seq : nget 0 u.fab.txSeq (spaceKey x.rank (gdOfCore c) 1) % 2 ^ 32 = (nget 0 s.fab.txSeq (spaceKey x.rank (gdOfCore c) 1) + i) % 2 ^ 32
  lock : nget 0 u.fab.spaceLock (spaceKey x.rank (gdOfCore c) 1) = 0 ∨ nget 0 u.fab.spaceLock (spaceKey x.rank (gdOfCore c) 1) = c + 1
  puts : u.fab.puts = s.fab.puts
  unacked : nget 0 u.fab.unacked c = nget 0 s.fab.unacked c + if x.op = 1 then i else 0
  parts : ∀ p, p ∉ [Part.fab, .recorder] → p.same s u

/-- The packet that an injection sends is the next one of the exchange. -/
theorem Injected.stamped {c i : Nat} {x : Exch} {o : Owner} {s u : State} (h : Injected c x o i s u) :
    u.stamped (gdOfCore c) (nget 0 u.fab.txSeq (spaceKey x.rank (gdOfCore c) 1) % 2 ^ 32) (u.exchPacket c x i) = s.exchSent c x i := by
  have job : u.job = s.job := h.parts .job (by simp)
  have rank : u.myRank = s.myRank := by rw [State.myRank, State.myRank, job, h.tabs]
  rw [h.seq, exchPacket_congr (h.parts .cores (by simp)) job, State.exchSent, State.stamped, State.stamped, job, rank]

/-- One packet more, the counts of a PUT and the hold of a SEND apart. -/
theorem Injected.inject {c i : Nat} {x : Exch} {o : Owner} {s u v : State} (h : Injected c x o i s u)
    (hv : v = u.inject (gdOfCore c) (u.exchPacket c x i) o) : v.fab.tabSt = s.fab.tabSt ∧ v.fab.tabs = s.fab.tabs
    ∧ v.trackKeys = s.trackKeys ++ (List.range (i + 1)).map (fun j => (gdOfCore c, s.exchSent c x j, o))
    ∧ nget 0 v.fab.txSeq (spaceKey x.rank (gdOfCore c) 1) % 2 ^ 32
      = (nget 0 s.fab.txSeq (spaceKey x.rank (gdOfCore c) 1) + (i + 1)) % 2 ^ 32
    ∧ v.fab.spaceLock = u.fab.spaceLock ∧ v.fab.puts = s.fab.puts ∧ v.fab.unacked = u.fab.unacked
    ∧ ∀ p, p ∉ [Part.fab, .recorder] → p.same s v := by
  obtain ⟨tc, dst⟩ := exchPacket_spec u c x i
  obtain ⟨keys, seq, tabSt, tabs, lock, puts, unacked⟩ := inject_spec u (gdOfCore c) (u.exchPacket c x i) o
  rw [← hv, tc, dst] at keys seq
  rw [← hv] at tabSt tabs lock puts unacked
  refine ⟨tabSt.trans h.tabSt, tabs.trans h.tabs, ?_, ?_, lock, puts.trans h.puts, unacked, fun p n => ?_⟩
  · rw [keys, h.stamped, h.keys, List.range_succ, List.map_append, List.append_assoc]
    rfl
  · rw [seq, nget_nmod_same, Nat.mod_mod, Nat.add_mod, h.seq]
    omega
  · exact Part.same_trans (h.parts p n) (hv ▸ inject_parts u _ _ _ p n)

/-- One packet more. -/
theorem Injected.succ {c i : Nat} {x : Exch} {o : Owner} {s u : State} (h : Injected c x o i s u) (more : Bool) :
    Injected c x o (i + 1) s (
      let v := u.inject (gdOfCore c) (u.exchPacket c x i) o
      let v := if x.op = 1 then v.addUnacked c else v
      if x.op = 0 then v.lockSpace (spaceKey x.rank (gdOfCore c) 1) (c + 1) more else v) := by
  obtain ⟨v, hv⟩ : ∃ v, v = u.inject (gdOfCore c) (u.exchPacket c x i) o := ⟨_, rfl⟩
  obtain ⟨tabSt, tabs, keys, seq, lock, puts, unacked, parts⟩ := h.inject hv
  dsimp only
  rw [← hv]
  by_cases send : x.op = 0
  · rw [if_pos send, if_neg (by omega)]
    refine ⟨tabSt, tabs, keys, seq, ?_, puts, ?_, fun p n => Part.same_trans (parts p n) (modFab_parts _ _ p (Part.outside n))⟩
    · unfold State.lockSpace State.modFab
      dsimp only
      rw [nget_nset, if_pos rfl]
      cases more <;> simp
    · have now := h.unacked
      rw [if_neg (by omega)] at now ⊢
      rw [← now, ← unacked]
      rfl
  · rw [if_neg send]
    by_cases put : x.op = 1
    · rw [if_pos put]
      refine ⟨tabSt, tabs, keys, seq, ?_, puts, ?_, fun p n => Part.same_trans (parts p n) (modFab_parts _ _ p (Part.outside n))⟩
      · show nget 0 v.fab.spaceLock _ = 0 ∨ nget 0 v.fab.spaceLock _ = c + 1
        rw [lock]
        exact h.lock
      · have now := h.unacked
        unfold State.addUnacked State.modFab
        dsimp only
        rw [if_pos put] at now ⊢
        rw [nget_nmod_same, unacked, now]
        omega
    · rw [if_neg put]
      refine ⟨tabSt, tabs, keys, seq, by rw [lock]; exact h.lock, puts, ?_, parts⟩
      have now := h.unacked
      rw [if_neg put] at now ⊢
      rw [unacked, now]

/-- The entries that the exchange has taken so far. -/
theorem Injected.lengths {c i : Nat} {x : Exch} {o : Owner} {s u : State} (h : Injected c x o i s u) :
    (u.tracked (gdOfCore c)).length = (s.tracked (gdOfCore c)).length + i
    ∧ ((u.tracked (gdOfCore c)).filter (fun e => e.pkt.tc == 1)).length
      = ((s.tracked (gdOfCore c)).filter (fun e => e.pkt.tc == 1)).length + i := by
  obtain ⟨all, tc⟩ := tracked_lengths u (gdOfCore c)
  obtain ⟨all', tc'⟩ := tracked_lengths s (gdOfCore c)
  have own : ((List.range i).map (fun j => (gdOfCore c, s.exchSent c x j, o))).filter (fun e => e.1 == gdOfCore c)
      = (List.range i).map (fun j => (gdOfCore c, s.exchSent c x j, o)) :=
    List.filter_eq_self.mpr fun e m => by
      obtain ⟨j, -, rfl⟩ := List.mem_map.mp m
      simp
  have tc1 : ((List.range i).map (fun j => (gdOfCore c, s.exchSent c x j, o))).filter (fun e => e.2.1.tc == 1)
      = (List.range i).map (fun j => (gdOfCore c, s.exchSent c x j, o)) :=
    List.filter_eq_self.mpr fun e m => by
      obtain ⟨j, -, rfl⟩ := List.mem_map.mp m
      exact beq_iff_eq.mpr (exchPacket_spec s c x j).1
  rw [all, tc, all', tc', h.keys, List.filter_append, own, List.filter_append, tc1]
  simp

/-- While entries are free for all its packets, the loop injects every one that is left. -/
theorem exchLoop_all {c put total : Nat} {x : Exch} {s : State} (active : s.fab.tabSt = .active)
    (room : (s.tracked (gdOfCore c)).length + total ≤ 4096)
    (tc1 : ((s.tracked (gdOfCore c)).filter (fun e => e.pkt.tc == 1)).length + total ≤ 3072) {n i : Nat} (left : i + n = total) {u : State}
    (h : Injected c x (if x.op = 1 then .put c put else .xe c) i s u) {q : EngCmd} (todo : q.todo = n)
    (prog : q.prog = .issued (if x.op = 1 then 0 else i)) {fuel : Nat} (enough : n ≤ fuel) :
    Injected c x (if x.op = 1 then .put c put else .xe c) total s (exchLoop c x total put fuel u q).1
    ∧ (exchLoop c x total put fuel u q).2 = { q with todo := 0, prog := .issued (if x.op = 1 then 0 else total) } := by
  have ends : ∀ {i u} {q : EngCmd}, i = total → Injected c x (if x.op = 1 then .put c put else .xe c) i s u → q.todo = 0 →
      q.prog = .issued (if x.op = 1 then 0 else i) → Injected c x (if x.op = 1 then .put c put else .xe c) total s (u, q).1
      ∧ (u, q).2 = { q with todo := 0, prog := .issued (if x.op = 1 then 0 else total) } := by
    rintro i u q rfl h todo prog
    exact ⟨h, by rw [← prog, ← todo]⟩
  induction fuel generalizing n i u q with
  | zero => exact ends (by omega) h (by omega) prog
  | succ fuel ih =>
    rw [exchLoop]
    by_cases zero : q.todo = 0
    · rw [if_pos zero]
      exact ends (by omega) h zero prog
    · obtain ⟨all, tc⟩ := h.lengths
      have may : u.mayInject (gdOfCore c) 1 = true := by
        rw [State.mayInject, h.tabSt, active, all, tc, decide_eq_true (by omega), decide_eq_true (by omega)]
        rfl
      have free : u.spaceFree (spaceKey x.rank (gdOfCore c) 1) (c + 1) = true := by
        rw [State.spaceFree]
        rcases h.lock with lock | lock <;> rw [lock] <;> simp
      rw [if_neg zero]
      dsimp only
      rw [if_pos (show (u.mayInject (gdOfCore c) 1 && u.spaceFree (spaceKey x.rank (gdOfCore c) 1) (c + 1)) = true by rw [may, free]; rfl), prog, show total - q.todo = i by omega]
      obtain ⟨inj, res⟩ := ih (n := n - 1) (i := i + 1) (by omega) (h.succ (1 < q.todo))
        (q := { q with todo := q.todo - 1, prog := .issued (if x.op = 1 then (if x.op = 1 then 0 else i) else (if x.op = 1 then 0 else i) + 1) })
        (by rw [todo]) (by split <;> rfl) (by omega)
      exact ⟨inj, res⟩

/-! ## The commands of the queue -/

/-- The room that an exchange of `n` packets finds. -/
structure ExchRoom (s : State) (c : Nat) (x : Exch) (n : Nat) : Prop where
  active : s.fab.tabSt = .active
  all : (s.tracked (gdOfCore c)).length + n ≤ 4096
  tc1 : ((s.tracked (gdOfCore c)).filter (fun e => e.pkt.tc == 1)).length + n ≤ 3072
  lock : nget 0 s.fab.spaceLock (spaceKey x.rank (gdOfCore c) 1) = 0 ∨ nget 0 s.fab.spaceLock (spaceKey x.rank (gdOfCore c) 1) = c + 1
  seq : nget 0 s.fab.txSeq (spaceKey x.rank (gdOfCore c) 1) < 2 ^ 32

/-- A fresh exchange with room injects all its packets. -/
theorem exchLoop_fresh {s : State} {c put n : Nat} {x : Exch} (room : ExchRoom s c x n) (q : EngCmd) :
    Injected c x (if x.op = 1 then .put c put else .xe c) n s (exchLoop c x n put n s { q with todo := n, prog := .issued 0 }).1
    ∧ (exchLoop c x n put n s { q with todo := n, prog := .issued 0 }).2
      = { q with todo := 0, prog := .issued (if x.op = 1 then 0 else n) } := by
  have start : Injected c x (if x.op = 1 then .put c put else .xe c) 0 s s :=
    ⟨rfl, rfl, (List.append_nil _).symm, by simp, room.lock, rfl, by simp, fun p _ => p.same_refl s⟩
  exact exchLoop_all room.active room.all room.tc1 (Nat.zero_add n) start (q := { q with todo := n, prog := .issued 0 }) rfl
    (by split <;> rfl) (Nat.le_refl n)

section
variable {s : State} {c : Nat} {q : EngCmd} {rest : List EngCmd}

/-- A SEND or GET keeps its place until its answers come (R167). -/
theorem runExch_kept (head : (s.core c).head .xe 0x50 = some q) (fresh : q.prog = .fresh) (op : (s.exchOf q).op ≠ 1)
    (room : ExchRoom s c (s.exchOf q) (s.exchCount (s.exchOf q))) :
    ∃ u, s.runExch c = u.putCmd c .xe 0 { q with todo := 0, prog := .issued (s.exchCount (s.exchOf q)) }
      ∧ Injected c (s.exchOf q) (.xe c) (s.exchCount (s.exchOf q)) s u := by
  obtain ⟨inj, res⟩ := exchLoop_fresh room (put := s.putNumber c) q
  rw [if_neg op] at inj res
  refine ⟨_, ?_, inj⟩
  unfold State.runExch
  rw [head]
  dsimp only
  have new : (q.prog == Prog.fresh) = true := by rw [fresh]; rfl
  have other : ((s.exchOf q).op == 1) = false := beq_eq_false_iff_ne.mpr op
  simp only [new, other, Bool.and_false, Bool.false_eq_true, if_false, if_true]
  rw [if_neg (fun h => op h.1), res]

/-- The state in which a PUT has its number. -/
def State.putNoted (s : State) (c : Nat) (x : Exch) (n : Nat) : State :=
  s.modFab (fun b => { b with puts := b.puts ++ [(c, b.putNext, n, x.cnt)], putNext := b.putNext + 1 })

theorem putNumber_putNoted (s : State) (c : Nat) (x : Exch) (n : Nat) : (s.putNoted c x n).putNumber c = s.fab.putNext := by
  have last : ((s.fab.puts ++ [(c, s.fab.putNext, n, x.cnt)]).filter (fun p => p.1 == c)).getLast?
      = some (c, s.fab.putNext, n, x.cnt) := by
    rw [List.filter_append]
    simp
  unfold State.putNumber State.putNoted State.modFab
  dsimp only
  rw [last]

/-- A PUT retires with its last LWRITE (R167, R295). -/
theorem runExch_put (head : (s.core c).head .xe 0x50 = some q) (fresh : q.prog = .fresh) (op : (s.exchOf q).op = 1)
    (room : ExchRoom s c (s.exchOf q) (s.exchCount (s.exchOf q))) :
    ∃ u, s.runExch c = u.retire c .xe 0
      ∧ Injected c (s.exchOf q) (.put c s.fab.putNext) (s.exchCount (s.exchOf q)) (s.putNoted c (s.exchOf q) (s.exchCount (s.exchOf q))) u := by
  have room' : ExchRoom (s.putNoted c (s.exchOf q) (s.exchCount (s.exchOf q))) c (s.exchOf q) (s.exchCount (s.exchOf q)) :=
    ⟨room.active, room.all, room.tc1, room.lock, room.seq⟩
  obtain ⟨inj, res⟩ := exchLoop_fresh room' (put := s.fab.putNext) q
  rw [if_pos op] at inj res
  refine ⟨_, ?_, inj⟩
  unfold State.runExch
  rw [head]
  dsimp only
  have new : (q.prog == Prog.fresh) = true := by rw [fresh]; rfl
  have put : ((s.exchOf q).op == 1) = true := beq_iff_eq.mpr op
  have number := putNumber_putNoted s c (s.exchOf q) (s.exchCount (s.exchOf q))
  simp only [new, put, Bool.and_true, if_true]
  rw [State.putNoted] at number res
  rw [number, if_pos ⟨op, by rw [res]⟩]
  rfl

end

/-- The command of an exchange. -/
theorem exec_xmov {i : Instr} {s : State} {c op : Nat} {q : EngCmd} (e : exec i s = s.xmov c op none) (ck : s.clocked = true) (hc : c < 256)
    (head : (s.core c).head .xe 0x50 = some q) (fresh : q.prog = .fresh) (hop : (s.exchOf q).op = op) :
    exec i s = finish s (s.runExch c) := by
  rw [e, State.xmov, head]
  exact (only_pos _ (decide_eq_true hc)).trans (act_pos _ ck (by simp [fresh, hop]))

/-! ## A parity error that an exchange meets -/

/-- The second error of a command, while the step may fail. -/
theorem unitAgain_spec {s : State} (h : StepMayFail s) (source core : Nat) :
    (∀ p, p ∉ [Part.err, Part.recorder] → p.same s (s.unitAgain source core)) ∧ (s.unitAgain source core).err.stepFailed = true := by
  have parity := parityEvent_parts s source 1
  have event := event_parts (s.parityEvent source 1) 0x0804 srcPackage (0x0801 + 1 * 2 ^ 16 + 2 * 2 ^ 24)
  have escalated : ∀ p, p ∉ [Part.err, Part.recorder] → p.same s ((s.parityEvent source 1).escalate 0x0801 1 2) := fun p n =>
    Part.same_trans (parity p (Part.outside n)) (Part.same_trans (event p (Part.outside n)) (err_parts _ _ p (Part.outside n)))
  have err : ((s.parityEvent source 1).event 0x0804 srcPackage (0x0801 + 1 * 2 ^ 16 + 2 * 2 ^ 24)).err = s.err :=
    Eq.trans (event .err (by simp)) (parity .err (by simp))
  have may : StepMayFail ((s.parityEvent source 1).escalate 0x0801 1 2) := by
    obtain ⟨running, st, undecided⟩ := h
    have pitch : ((s.parityEvent source 1).escalate 0x0801 1 2).pitch = s.pitch := escalated .pitch (by simp)
    have guy : ((s.parityEvent source 1).escalate 0x0801 1 2).guy = s.guy := escalated .guy (by simp)
    exact ⟨by rw [pitch]; exact running, (congrArg (fun x : ErrSt => x.st) err : _ = _).trans st, by rw [State.decidedStep, guy]; exact undecided⟩
  obtain ⟨failed, step, -⟩ := stepError_spec may 0x0801 core
  exact ⟨fun p n => Part.same_trans (escalated p n) (failed p (Part.outside n)), step⟩

/-- A scratch parity error stops a command that is never re-executed, and the step fails (R79, R361). -/
theorem unitError_scratch {s : State} (c : Nat) (e : Engine) (q : EngCmd) {u : Upset} (rerun : State → State) (may : StepMayFail s)
    (site : u.site = .scratch) : CoreAnd [.err, .recorder] c
      (({ s.core c with stats := (s.core c).stats.parity .scratch } : Core).putQueue e (((s.core c).queue e).set 0 { q with prog := .stopped }))
      s (s.unitError c e 0 q false u rerun) ∧ (s.unitError c e 0 q false u rerun).err.stepFailed = true := by
  have counted := CoreBecomes.modCore s c (fun k => { k with stats := k.stats.parity .scratch })
  have put := CoreBecomes.putCmd (s.modCore c (fun k => { k with stats := k.stats.parity .scratch })) c e 0 { q with prog := .stopped }
  rw [counted.1] at put
  have both := counted.trans put
  have may' := stepMayFail_congr may (both.2.2 .pitch (by simp)) (both.2.2 .err (by simp)) (both.2.2 .guy (by simp))
  have same : ({ s.core c with stats := (s.core c).stats.parity .scratch } : Core).queue e = (s.core c).queue e := by cases e <;> rfl
  rw [same] at both
  unfold State.unitError
  rw [site]
  dsimp only [State.countSite]
  split
  · obtain ⟨parts, failed⟩ := unitAgain_spec may' (srcCore c) c
    exact ⟨(both.coreAnd _).after parts (by simp), failed⟩
  · obtain ⟨parts, failed, -⟩ := parityStep_spec may' (srcCore c) c
    exact ⟨(both.coreAnd _).after parts (by simp), failed⟩

theorem exec_xmovError {i : Instr} {s : State} {c op : Nat} {q : EngCmd} {u : Upset} (e : exec i s = s.xmov c op (some u))
    (ck : s.clocked = true) (hc : c < 256) (head : (s.core c).head .xe 0x50 = some q) (prog : q.prog ≠ .stopped)
    (hop : (s.exchOf q).op = op) : exec i s = finish s (s.unitError c .xe 0 q false u id) := by
  rw [e, State.xmov, head]
  exact (only_pos _ (decide_eq_true hc)).trans (act_pos _ ck (by simp [prog, hop]))

end Sys2Proof.Machine

namespace Sys2Proof

open Machine

/-- Settles O43: the loop of an exchange injects its packets in order; fence and arm retire at once or wait. -/
theorem exchangesAreInjected : Obligations.ExchangesAreInjected := by
  intro s c q rest ck hc going hq
  have head : ∀ {op}, q.op = op → (s.core c).head .xe op = some q := fun o => Core.head_of (e := .xe) hq o
  refine ⟨fun op fresh => ?inject, fun u i op prog site may which => ?parity, fun op => ?fence, fun op => ?arm⟩
  case inject =>
    intro x n gd key sent tracked active all tc1 lock seq
    have room : ExchRoom s c x n := ⟨active, all, tc1, lock, seq⟩
    have kept : ∀ i, exec i s = finish s (s.runExch c) → x.op ≠ 1 → Completes i s (fun t => tracked t = tracked s ++ sent (.xe c)
        ∧ t.core c = { s.core c with qXe := { q with todo := 0, prog := .issued n } :: rest } ∧ OtherCores c s t
        ∧ Frame [.cores, .fab, .recorder] s t) := by
      intro i e other
      obtain ⟨u, run, inj⟩ := runExch_kept (head op) fresh other room
      rw [run] at e
      have put := (CoreAnd.of_parts c (fun p m => inj.parts p m) (by simp)).putCmd .xe 0 { q with todo := 0, prog := .issued n }
      refine completes_coreAnd_of e put fun t hs own others fr => ⟨?_, ?_, others, fr⟩
      · rw [show tracked t = u.trackKeys from congrArg (fun b : Fabric => b.track.map (fun e => (e.gd, e.pkt, e.owner))) (hs .fab)]
        exact inj.keys
      · rw [own]
        simp only [Core.putQueue, Core.queue, hq, List.set_cons_zero]
    refine ⟨fun send => ?_, fun get => ?_, fun put => ?_⟩
    · exact kept _ (exec_xmov (op := 0) rfl ck hc (head op) fresh send) (by omega)
    · exact kept _ (exec_xmov (op := 2) rfl ck hc (head op) fresh get) (by omega)
    · obtain ⟨u, run, inj⟩ := runExch_put (head op) fresh put room
      have e := exec_xmov (i := .xmovPut c none) (op := 1) rfl ck hc (head op) fresh put
      rw [run] at e
      have noted : ∀ p, p ∉ [Part.fab, .recorder] → p.same s u := fun p m =>
        Part.same_trans (modFab_parts s _ p (Part.outside m)) (inj.parts p m)
      have retired := (CoreAnd.of_parts c noted (by simp)).retire .xe 0 going
      have gone := CoreBecomes.retire (s := u) (c := c) .xe 0
        (show (u.core c).going by rw [State.core_congr (noted .cores (by simp))]; exact going)
      have fab : ∀ t : State, (∀ p : Part, p.same (u.retire c .xe 0) t) → t.fab = u.fab := fun t hs =>
        Eq.trans (hs .fab) (gone.2.2 .fab (by simp))
      refine completes_coreAnd_of e retired fun t hs own others fr => ⟨?_, ?_, ?_, ?_, others, fr⟩
      · rw [show tracked t = u.trackKeys from
          congrArg (fun b : Fabric => b.track.map (fun e => (e.gd, e.pkt, e.owner))) (fab t hs)]
        exact inj.keys
      · rw [fab t hs, inj.puts]
        rfl
      · rw [fab t hs, inj.unacked, if_pos put]
        rfl
      · rw [own]
        simp only [Core.putQueue, Core.queue, hq, List.eraseIdx_zero, List.tail_cons]
  case parity =>
    have e : exec i s = finish s (s.unitError c .xe 0 q false u id) := by
      rcases which with ⟨hop, rfl⟩ | ⟨hop, rfl⟩ | ⟨hop, rfl⟩
      · exact exec_xmovError (op := 0) rfl ck hc (head op) prog hop
      · exact exec_xmovError (op := 1) rfl ck hc (head op) prog hop
      · exact exec_xmovError (op := 2) rfl ck hc (head op) prog hop
    obtain ⟨becomes, failed⟩ := unitError_scratch c .xe q id may site
    refine completes_coreAnd_of e becomes fun t hs own others fr => ⟨⟨?_, ?_⟩, ?_, others, fr⟩
    · rw [own]
      simp only [Core.putQueue, Core.queue, hq, List.set_cons_zero]
    · rw [show t.err = _ from hs .err, failed]
    · rw [own, site]
      rfl
  case fence =>
    have u : exec (.xfence c) s = execXfence c s := rfl
    by_cases zero : nget 0 s.fab.unacked c = 0
    · have e : exec (.xfence c) s = finish s (s.retire c .xe 0) := by
        rw [u, execXfence, head op]
        exact (only_pos _ (decide_eq_true hc)).trans (act_pos _ ck (by rw [zero]; rfl))
      obtain ⟨t, e, own, others, fr⟩ := completes_coreBecomes e (CoreBecomes.retire .xe 0 going)
      refine ⟨t, e, ?_, others, fr⟩
      rw [own, if_pos zero]
      simp only [Core.putQueue, Core.queue, hq, List.eraseIdx_zero, List.tail_cons]
    · have e : exec (.xfence c) s = .next s := by
        rw [u, execXfence, head op]
        exact (only_pos _ (decide_eq_true hc)).trans (act_neg _ (.inr (beq_eq_false_iff_ne.mpr zero)))
      exact ⟨s, e, by rw [if_neg zero], fun _ _ => rfl, rfl, fun p _ => p.same_refl s⟩
  case arm =>
    have u : exec (.xarm c) s = execXarm c s := rfl
    let w : State := { s with tt := { s.tt with
      waiting := s.tt.waiting.map (fun w => if w.entry = bits 23 8 q.word then { w with armed := true } else w) } }
    have e : exec (.xarm c) s = finish s (w.retire c .xe 0) := by
      rw [u, execXarm, head op]
      exact (only_pos _ (decide_eq_true hc)).trans (act_pos _ ck rfl)
    have armed := CoreAnd.of_parts c (tt_parts s w.tt) (by simp)
    have gone := CoreBecomes.retire (s := w) (c := c) .xe 0 going
    refine completes_coreAnd_of e (armed.retire .xe 0 going) fun t hs own others fr => ⟨?_, others, ?_, fr⟩
    · rw [own]
      simp only [Core.putQueue, Core.queue, hq, List.eraseIdx_zero, List.tail_cons]
    · rw [show t.tt = w.tt from Eq.trans (hs .tt) (gone.2.2 .tt (by simp))]
      have each : ∀ x : TtWait, (if x.entry = bits 23 8 q.word then { x with armed := true } else x)
          = { x with armed := x.armed || x.entry == bits 23 8 q.word } := fun x => by
        by_cases hit : x.entry = bits 23 8 q.word
        · rw [if_pos hit, beq_iff_eq.mpr hit, Bool.or_true]
        · rw [if_neg hit, beq_eq_false_iff_ne.mpr hit, Bool.or_false]
      exact congrArg (fun l => ({ s.tt with waiting := l } : TtSt)) (List.map_congr_left fun x _ => each x)

end Sys2Proof
end

section
/-!
The pitch as it is gathered: records, acceptances, loads, alignment and acknowledgements (15, R343 to R346).
-/
namespace Sys2Proof.Machine

open Sys2Proof

/-! ## PITCH packets that are sent -/

/-- Two states that send PITCH packets alike. -/
structure PitchAlike (s t : State) : Prop extends SendsAlike s t where
  record : t.pitch.record = s.pitch.record

namespace PitchAlike

variable {s t : State}

theorem sendPitch (h : PitchAlike s t) (ty reason rank off dst : Nat) (payload : List Byte) :
    PitchAlike (s.sendPitch ty reason rank off dst payload) (t.sendPitch ty reason rank off dst payload) := by
  have kept : ∀ u : State, (u.sendPitch ty reason rank off dst payload).pitch = u.pitch := fun u =>
    ctl_parts u kPITCH (ty + off * 2 ^ 11 + rank * 2 ^ 23 + reason * 2 ^ 32) dst (recordEpoch u.pitch.record) payload .pitch (by simp)
  refine ⟨?_, by rw [kept, kept, h.record]⟩
  rw [State.sendPitch, State.sendPitch, h.record]
  exact h.toSendsAlike.ctl _ _ _ _

theorem foldl {α : Type} {f g : State → α → State} (step : ∀ s t x, PitchAlike s t → PitchAlike (f s x) (g t x)) (l : List α)
    (h : PitchAlike s t) : PitchAlike (l.foldl f s) (l.foldl g t) := by
  induction l generalizing s t with
  | nil => exact h
  | cons x xs ih => exact ih (step s t x h)

theorem sendRecord (h : PitchAlike s t) (dst : Nat) : PitchAlike (s.sendRecord dst) (t.sendRecord dst) :=
  foldl (fun s t i h => by rw [h.record]; exact h.sendPitch _ _ _ _ _ _) _ h

end PitchAlike

theorem sendPitch_parts (s : State) (ty reason rank off dst : Nat) (payload : List Byte) :
    ∀ p, p ∉ [Part.fab, Part.recorder] → p.same s (s.sendPitch ty reason rank off dst payload) := ctl_parts s _ _ _ _ _

/-- A state that has all of `t` but its fabric from another. -/
theorem PitchAlike.withFab {v t : State} (job : t.job = v.job) (rp : t.rp.now = v.rp.now) (vals : t.dict.vals = v.dict.vals)
    (record : t.pitch.record = v.pitch.record) : PitchAlike v { t with fab := v.fab } :=
  ⟨⟨rfl, job, by rw [State.now, State.now, rp], vals⟩, record⟩

/-! ## PITCH packets that come -/

/-- Taking a packet changes the fabric alone. -/
theorem takeLocal_eq (s : State) (k : Packet) : (s.takeLocal k).1 = { s with fab := (s.takeLocal k).1.fab } := by
  unfold State.takeLocal
  split <;> rfl

theorem takeLocal_tabs (s : State) (k : Packet) : (s.takeLocal k).1.fab.tabs = s.fab.tabs := by
  unfold State.takeLocal
  split <;> rfl

theorem fab_parts (s : State) (b : Fabric) : ∀ p, p ∉ [Part.fab] → p.same s { s with fab := b } := modFab_parts s fun _ => b

section
variable {s : State} {k : Packet} {i : Instr} {f : State → State} {ty : Nat}

/-- A PITCH packet of the job held (R343). -/
theorem exec_ownPitch (e : exec i s = act s (s.isMine k kPITCH && pitchType k == ty) (s.ownPitch k f)) (ck : s.clocked = true)
    (mine : s.isMine k kPITCH = true) (hty : bits 7 0 k.arg = ty) (held : s.job.held = true) (job : k.job = s.job.id) :
    exec i s = finish s (f { s with fab := (s.takeLocal k).1.fab }) := by
  rw [e, act_pos _ ck (by rw [mine, pitchType, hty]; simp), State.ownPitch, takeLocal_eq]
  dsimp only
  rw [if_neg (by simp [held, job])]

/-- A PITCH packet of another job is discarded and counted (R343). -/
theorem completes_otherPitch (e : exec i s = act s (s.isMine k kPITCH && pitchType k == ty) (s.ownPitch k f)) (ck : s.clocked = true)
    (mine : s.isMine k kPITCH = true) (hty : bits 7 0 k.arg = ty) (other : s.job.held = false ∨ k.job ≠ s.job.id) :
    Completes i s (fun t => t.guy = { s.guy with discards := min (s.guy.discards + 1) (2 ^ 32 - 1) } ∧ Frame [.guy, .fab] s t) := by
  rw [act_pos _ ck (by rw [mine, pitchType, hty]; simp), State.ownPitch, takeLocal_eq] at e
  dsimp only at e
  rw [if_pos (by rcases other with h | h <;> simp [h]), State.discardPitch] at e
  exact completes_frame (l := [.guy, .fab]) e
    (fun p n => Part.same_trans (fab_parts s _ p (Part.outside n)) (guy_parts _ _ p (Part.outside n))) fun _ hs fr => ⟨hs .guy, fr⟩

end

theorem pitch_parts (s : State) (x : Pitch) : ∀ p, p ∉ [Part.pitch] → p.same s { s with pitch := x } := by
  intro p n
  cases p <;> simp_all [Part.same]

theorem addOnce_new {l : List Nat} {c : Nat} (h : c ∉ l) : addOnce l c = l ++ [c] := by
  rw [addOnce, if_neg (by simpa using h)]

/-- A packet of the pitch that changes the pitch alone. -/
theorem completes_pitch {i : Instr} {s : State} {b : Fabric} {x : Pitch}
    (e : exec i s = finish s ({ s with fab := b, pitch := x } : State)) :
    Completes i s (fun t => t.pitch = x ∧ Frame [.pitch, .fab] s t) :=
  completes_frame (l := [.pitch, .fab]) e
    (fun p n => Part.same_trans (fab_parts s b p (Part.outside n)) (pitch_parts _ x p (Part.outside n))) fun _ hs fr => ⟨hs .pitch, fr⟩

/-! ## A record (R343, R346) -/

/-- The segments of a record that a package has with a RECORD packet. -/
theorem recordPacket_eq {s : State} {k : Packet} {got : List Byte}
    (seg : bits 22 11 k.arg = 0 ∧ got = k.payload ∨ bits 22 11 k.arg = s.pitch.recv.length ∧ got = s.pitch.recv ++ k.payload) :
    s.recordPacket k = if got.length < 1152 then { s with fab := (s.takeLocal k).1.fab, pitch := { s.pitch with recv := got } }
      else ({ s with fab := (s.takeLocal k).1.fab, pitch := { s.pitch with recv := [] } } : State).recordDone k (got.take 1152) := by
  have segments : (if bits 22 11 k.arg = 0 then k.payload
      else if bits 22 11 k.arg = s.pitch.recv.length then s.pitch.recv ++ k.payload else s.pitch.recv) = got := by
    rcases seg with ⟨off, rfl⟩ | ⟨off, rfl⟩
    · exact if_pos off
    · rw [if_pos off]
      split
      · next zero => rw [List.eq_nil_of_length_eq_zero (off.symm.trans zero), List.nil_append]
      · rfl
  rw [State.recordPacket, takeLocal_eq]
  dsimp only
  rw [segments]

/-- A record that passes the checks of an idle package. -/
theorem recordDone_idle {s : State} (k : Packet) {r : List Byte} {rank : Nat} (idle : s.pitch.st = .idle)
    (own : s.rankIn r = some rank) (peg : recordPeg r = (List.range 512).map s.fab.tabs.pegOf) :
    s.recordDone k r = s.acceptPitch r rank := by
  have free : s.jobHeld = false := by rw [State.jobHeld, idle]; rfl
  rw [State.recordDone, State.recordCheck, own, free]
  simp [peg]

theorem recordDone_taken {s : State} (k : Packet) {b : Fabric} {p : Pitch} {r : List Byte} {rank : Nat} (tabs : b.tabs = s.fab.tabs)
    (idle : p.st = .idle) (own : s.rankIn r = some rank) (peg : recordPeg r = (List.range 512).map s.fab.tabs.pegOf) :
    ({ s with fab := b, pitch := p } : State).recordDone k r = ({ s with fab := b, pitch := p } : State).acceptPitch r rank :=
  recordDone_idle k idle (by rw [State.rankIn, tabs]; exact own) (by rw [tabs]; exact peg)

/-- The job that a record names (Table 15.1). -/
def recordJob (r : List Byte) (rank : Nat) : Job :=
  { held := true, id := fieldAt r 6 2, attempt := fieldAt r 32 1, step := fieldAt r 16 8, first := fieldAt r 16 8
    kind := fieldAt r 4 2, rank := rank, ranks := fieldAt r 8 2, seed := fieldAt r 24 8, peg := recordPeg r }

/-- An idle package that has taken a record, before it sends a packet. -/
def State.taking (s : State) (r : List Byte) (rank : Nat) : State :=
  let t := s.newPitch r rank
  { t with pitch := { t.pitch with
      st := .accepted, recv := [], record := r, accepted := [], loaded := [], acked := [], failed := [], quiesced := []
      ownLoaded := false, failSent := false, struck := none, quiescing := false } }

theorem acceptPitch_idle {s : State} (r : List Byte) {rank : Nat} (idle : s.pitch.st = .idle) (low : rank ≠ 0) :
    s.acceptPitch r rank = (((s.taking r rank).sendPitch 2 0 0 0 (parentOf rank) []).children).foldl State.sendRecord
      ((s.taking r rank).sendPitch 2 0 0 0 (parentOf rank) []) := by
  have free : s.jobHeld = false := by rw [State.jobHeld, idle]; rfl
  rw [State.acceptPitch]
  simp only [free, if_neg low]
  rfl

theorem taking_parts (s : State) (r : List Byte) (rank : Nat) :
    ∀ p, p ∉ [Part.pitch, .job, .cores, .harts, .stations, .links, .coll, .nacks, .reissues, .tt, .fab, .guy, .ckpt, .rp] →
      p.same s (s.taking r rank) := by
  intro p n
  cases p <;> simp_all [Part.same, State.taking, State.newPitch, State.beginReset, State.stopAll]

theorem sendRecord_parts (s : State) (dst : Nat) : ∀ p, p ∉ [Part.fab, Part.recorder] → p.same s (s.sendRecord dst) :=
  foldl_parts (fun u i => sendPitch_parts u 1 0 0 (256 * i) dst (slice u.pitch.record (256 * i) 256)) (List.range 5) s

/-- A package that sends one PITCH packet after all else. -/
theorem completes_sentPitch {i : Instr} {s v : State} {ty dst : Nat} {l : List Part} (e : exec i s = finish s (v.sendPitch ty 0 0 0 dst []))
    (parts : ∀ p, p ∉ l → p.same s v) (sub : ∀ q ∈ [Part.fab, .recorder], q ∈ l := by decide) :
    Completes i s (fun t => (∀ p, p ∉ [Part.fab, Part.recorder] → p.same v t)
      ∧ t.fab = (({ t with fab := v.fab } : State).sendPitch ty 0 0 0 dst []).fab ∧ Frame l s t) := by
  have sent := sendPitch_parts v ty 0 0 0 dst []
  refine completes_frame e (fun p n => Part.same_trans (parts p n) (sent p (Part.outside n sub))) fun t hs fr => ?_
  have same : ∀ p, p ∉ [Part.fab, Part.recorder] → p.same v t := fun p n => Part.same_trans (sent p n) (hs p)
  refine ⟨same, (hs .fab).trans ?_, fr⟩
  exact ((PitchAlike.withFab (same .job (by simp)) (congrArg RpSt.now (same .rp (by simp))) (same .settings (by simp)).1
    (congrArg Pitch.record (same .pitch (by simp)))).sendPitch ty 0 0 0 dst []).fab.symm

theorem State.core_taking (s : State) (r : List Byte) (rank c : Nat) : (s.taking r rank).core c = { stats := (s.core c).stats } :=
  State.core_stopAll ({ s with job := recordJob r rank } : State) c

theorem State.hart_taking (s : State) (r : List Byte) (rank h : Nat) : ((s.taking r rank).hart h).st = .off :=
  congrArg Hart.st (State.hart_stopAll ({ s with job := recordJob r rank } : State) h)

section
variable {s : State} {k : Packet}

theorem exec_pitchRecord (ck : s.clocked = true) (mine : s.isMine k kPITCH = true) (ty : bits 7 0 k.arg = 1) :
    exec (.pitchRecord k) s = finish s (s.recordPacket k) := by
  have u : exec (.pitchRecord k) s = act s (s.isMine k kPITCH && pitchType k == 1) (s.recordPacket k) := rfl
  rw [u, act_pos _ ck (by rw [mine, pitchType, ty]; rfl)]

/-- An idle package that takes a record: it holds the record's job, stops all that ran, and sends ACCEPT up and the record
down (R344, R345, Table 15.3). -/
theorem completes_recordTaken {r : List Byte} {rank : Nat} {b : Fabric} {p : Pitch} (idle : p.st = .idle) (low : rank ≠ 0)
    (e : exec (.pitchRecord k) s = finish s (({ s with fab := b, pitch := p } : State).acceptPitch r rank)) :
    Completes (.pitchRecord k) s (fun t =>
      t.pitch.st = .accepted ∧ t.pitch.record = r ∧ t.pitch.resetting = some .load ∧ t.pitch.accepted = [] ∧ t.pitch.loaded = []
      ∧ t.pitch.acked = [] ∧ t.pitch.struck = none ∧ t.job = recordJob r rank ∧ (∀ c, t.core c = { stats := (s.core c).stats }) ∧ (∀ h, (t.hart h).st = .off)
      ∧ t.fab = ((t.children.foldl State.sendRecord (({ t with fab := { b with
          track := [], txSeq := [], rxSpace := [], reorder := [], keepSeq := [], unanswered := [], lineQ := []
          lineLast := [], unacked := [], puts := [], spaceLock := [] } } : State).sendPitch 2 0 0 0 (parentOf rank) []))).fab
      ∧ Frame [.pitch, .job, .cores, .harts, .stations, .links, .coll, .nacks, .reissues, .tt, .fab, .guy, .ckpt, .rp, .recorder] s t) := by
  rw [acceptPitch_idle (s := { s with fab := b, pitch := p }) r idle low] at e
  generalize hv : ({ s with fab := b, pitch := p } : State).taking r rank = v at *
  have parts := taking_parts ({ s with fab := b, pitch := p } : State) r rank
  rw [hv] at parts
  have up := sendPitch_parts v 2 0 0 0 (parentOf rank) []
  have sends := foldl_parts sendRecord_parts (v.sendPitch 2 0 0 0 (parentOf rank) []).children (v.sendPitch 2 0 0 0 (parentOf rank) [])
  have sent : ∀ p, p ∉ [Part.fab, Part.recorder] → p.same v _ := fun p n => Part.same_trans (up p n) (sends p n)
  refine completes_frame (l := [.pitch, .job, .cores, .harts, .stations, .links, .coll, .nacks, .reissues, .tt, .fab, .guy, .ckpt,
    .rp, .recorder]) e (fun q n => ?_) fun t hs fr => ?_
  · refine Part.same_trans (Part.same_trans (fab_parts s b q (Part.outside n)) ?_) (Part.same_trans (parts q (Part.outside n)) (sent q (Part.outside n)))
    exact pitch_parts _ p q (Part.outside n)
  · have same : ∀ p, p ∉ [Part.fab, Part.recorder] → p.same v t := fun p n => Part.same_trans (sent p n) (hs p)
    have jobs : t.job = v.job := same .job (by simp)
    have kids : t.children = (v.sendPitch 2 0 0 0 (parentOf rank) []).children := by
      have job : (v.sendPitch 2 0 0 0 (parentOf rank) []).job = v.job := up .job (by simp)
      rw [State.children, State.children, jobs, job]
    have cores : t.cores = v.cores := same .cores (by simp)
    have harts : t.harts = v.harts := same .harts (by simp)
    have alike : PitchAlike v { t with fab := v.fab } := PitchAlike.withFab jobs (congrArg RpSt.now (same .rp (by simp)))
      (same .settings (by simp)).1 (congrArg Pitch.record (same .pitch (by simp)))
    have pitch : t.pitch = (({ s with fab := b, pitch := p } : State).taking r rank).pitch := by rw [hv]; exact same .pitch (by simp)
    refine ⟨congrArg Pitch.st pitch, congrArg Pitch.record pitch, congrArg Pitch.resetting pitch, congrArg Pitch.accepted pitch,
      congrArg Pitch.loaded pitch, congrArg Pitch.acked pitch, congrArg Pitch.struck pitch, jobs.trans (by rw [← hv]; rfl), fun c => ?_, fun h => ?_, ?_, fr⟩
    · rw [State.core, cores, ← hv]
      exact State.core_taking _ r rank c
    · rw [State.hart, harts, ← hv]
      exact State.hart_taking _ r rank h
    · have fab : v.fab = { b with track := [], txSeq := [], rxSpace := [], reorder := [], keepSeq := [], unanswered := [], lineQ := []
                                  lineLast := [], unacked := [], puts := [], spaceLock := [] } := by rw [← hv]; rfl
      rw [← fab, kids]
      refine (hs .fab).trans ?_
      exact (PitchAlike.foldl (fun s t c h => h.sendRecord c) _ (alike.sendPitch 2 0 0 0 (parentOf rank) [])).fab.symm

end

/-! ## Acceptances, loads, alignment and acknowledgements (R345) -/

section
variable {s : State} {k : Packet} {b : Fabric}

/-- A child's ACCEPT is noted. -/
theorem completes_accepted (ck : s.clocked = true) (mine : s.isMine k kPITCH = true) (ty : bits 7 0 k.arg = 2)
    (held : s.job.held = true) (job : k.job = s.job.id) (child : k.srcRank ∈ s.children)
    (st : s.pitch.st = .accepted ∨ s.pitch.st = .loaded ∨ s.pitch.st = .aligned) (new : k.srcRank ∉ s.pitch.accepted) :
    Completes (.pitchAccept k) s (fun t =>
      t.pitch = { s.pitch with accepted := s.pitch.accepted ++ [k.srcRank] } ∧ Frame [.pitch, .fab] s t) := by
  have u : exec (.pitchAccept k) s = execPitchAccept k s := rfl
  have e := exec_ownPitch (u.trans (by rw [execPitchAccept])) ck mine ty held job
  rw [if_pos] at e
  · rw [← addOnce_new new]
    exact completes_pitch e
  · rw [Bool.and_eq_true, List.contains_iff_mem]
    refine ⟨?_, child⟩
    rcases st with st | st | st <;> simp [State.pitching, st]

theorem exec_pitchLoaded (ck : s.clocked = true) (mine : s.isMine k kPITCH = true) (ty : bits 7 0 k.arg = 3)
    (held : s.job.held = true) (job : k.job = s.job.id) (child : k.srcRank ∈ s.children) (free : s.pitch.resetting ≠ some .idle)
    (st : s.pitch.st = .accepted) (new : k.srcRank ∉ s.pitch.loaded) :
    exec (.pitchLoaded k) s = finish s ({ s with fab := (s.takeLocal k).1.fab
                                                 pitch := { s.pitch with loaded := s.pitch.loaded ++ [k.srcRank] } } : State).maybeLoaded := by
  have u : exec (.pitchLoaded k) s = execPitchLoaded k s := rfl
  rw [exec_ownPitch (u.trans (by rw [execPitchLoaded])) ck mine ty held job, if_pos, addOnce_new new]
  rw [Bool.and_eq_true, Bool.and_eq_true, List.contains_iff_mem]
  exact ⟨⟨by simp [st], child⟩, by simpa [State.ending] using free⟩

theorem exec_pitchAck (ck : s.clocked = true) (mine : s.isMine k kPITCH = true) (ty : bits 7 0 k.arg = 5)
    (held : s.job.held = true) (job : k.job = s.job.id) (child : k.srcRank ∈ s.children) (free : s.pitch.resetting ≠ some .idle)
    (st : s.pitch.st = .aligned) (new : k.srcRank ∉ s.pitch.acked) :
    exec (.pitchAck k) s = finish s ({ s with fab := (s.takeLocal k).1.fab
                                              pitch := { s.pitch with acked := s.pitch.acked ++ [k.srcRank] } } : State).maybeReady := by
  have u : exec (.pitchAck k) s = execPitchAck k s := rfl
  rw [exec_ownPitch (u.trans (by rw [execPitchAck])) ck mine ty held job, if_pos, addOnce_new new]
  rw [Bool.and_eq_true, Bool.and_eq_true, List.contains_iff_mem]
  exact ⟨⟨by simp [State.pitching, st], child⟩, by simpa [State.ending] using free⟩

/-- ALIGN of the parent begins a measurement against it (R306, R307). -/
theorem completes_align (ck : s.clocked = true) (mine : s.isMine k kPITCH = true) (ty : bits 7 0 k.arg = 4)
    (held : s.job.held = true) (job : k.job = s.job.id) (st : s.pitch.st = .loaded) (low : s.job.rank ≠ 0)
    (parent : k.srcRank = parentOf s.job.rank) (idle : s.rp.measure = none) (free : s.pitch.resetting ≠ some .idle) :
    Completes (.pitchAlign k) s (fun t =>
      t.rp = { s.rp with parent := some (parentOf s.job.rank), measure := some { use := .align 0 } } ∧ Frame [.rp, .fab] s t) := by
  have u : exec (.pitchAlign k) s = execPitchAlign k s := rfl
  have e := exec_ownPitch (u.trans (by rw [execPitchAlign])) ck mine ty held job
  rw [if_pos] at e
  · exact completes_frame (l := [.rp, .fab]) e
      (fun p n => Part.same_trans (fab_parts s _ p (Part.outside n)) (rp_parts _ _ p (Part.outside n))) fun _ hs fr => ⟨hs .rp, fr⟩
  · simpa [st, low, parent, idle, State.ending] using free

/-- The children of a package have all sent a message, the last one just now. -/
theorem all_sent {l : List Nat} {c : Nat} {kids : List Nat} (all : ∀ d ∈ kids, d = c ∨ d ∈ l) :
    kids.all (fun d => (l ++ [c]).contains d) = true := by
  rw [List.all_eq_true]
  intro d hd
  rw [List.contains_iff_mem, List.mem_append, List.mem_singleton]
  exact (all d hd).symm

theorem not_all_sent {l : List Nat} {c : Nat} {kids : List Nat} (missing : ∃ d ∈ kids, d ≠ c ∧ d ∉ l) :
    kids.all (fun d => (l ++ [c]).contains d) = false := by
  obtain ⟨d, hd, other, no⟩ := missing
  rw [List.all_eq_false]
  exact ⟨d, hd, by simp [other, no]⟩

theorem maybeLoaded_waits {s : State} (missing : s.children.all (fun c => s.pitch.loaded.contains c) = false) : s.maybeLoaded = s := by
  rw [State.maybeLoaded, missing, Bool.and_false]
  rfl

theorem maybeReady_waits {s : State} (missing : s.children.all (fun c => s.pitch.acked.contains c) = false) : s.maybeReady = s := by
  rw [State.maybeReady, missing, Bool.and_false]
  rfl

/-- Below the root, the last LOADED asks for the job's start point and sends LOADED up (R345, R395). -/
theorem completes_loaded {i : Instr} {p : Pitch} (e : exec i s = finish s ({ s with fab := b, pitch := p } : State).maybeLoaded)
    (st : p.st = .accepted) (own : p.ownLoaded = true) (low : s.job.rank ≠ 0) (all : s.children.all (fun c => p.loaded.contains c) = true) :
    Completes i s (fun t => t.pitch = { p with st := .loaded } ∧ t.power.job = some (s.dnat 0x2110 2)
      ∧ t.fab = (({ t with fab := b } : State).sendPitch 3 0 0 0 (parentOf s.job.rank) []).fab
      ∧ Frame [.pitch, .power, .fab, .recorder] s t) := by
  rw [State.maybeLoaded, if_pos (by rw [Bool.and_eq_true, Bool.and_eq_true]; exact ⟨⟨by simp [st], own⟩, all⟩)] at e
  dsimp only at e
  generalize hw : ({ s with fab := b, pitch := { p with st := .loaded }
                            power := { s.power with job := some (({ s with fab := b, pitch := p } : State).dnat 0x2110 2) } } : State) = w at e
  have aim := retarget_parts w
  rw [if_neg low] at e
  have fab : w.retarget.fab = b := (aim .fab (by simp)).trans (by rw [← hw])
  have parts : ∀ q, q ∉ [Part.pitch, .power, .fab, .recorder] → q.same s w.retarget := fun q n => by
    refine Part.same_trans ?_ (aim q (Part.outside n))
    rw [← hw]
    exact Part.same_trans (t := ({ s with fab := b, pitch := { p with st := .loaded } } : State))
      (Part.same_trans (fab_parts s b q (Part.outside n)) (pitch_parts _ _ q (Part.outside n))) (power_parts _ _ q (Part.outside n))
  obtain ⟨t, et, same, sent, fr⟩ := completes_sentPitch e parts
  refine ⟨t, et, ?_, ?_, by rw [← fab]; exact sent, fr⟩
  · exact (same .pitch (by simp)).trans ((aim .pitch (by simp)).trans (by rw [← hw]))
  · have power : t.power = w.retarget.power := same .power (by simp)
    rw [power, (retarget_power w).1, ← hw]
    rfl

/-- Below the root, the last ACK makes the package READY and sends ACK up (R345). -/
theorem completes_ready {i : Instr} {p : Pitch} (e : exec i s = finish s ({ s with fab := b, pitch := p } : State).maybeReady)
    (st : p.st = .aligned) (kind : s.job.kind ≠ 3) (low : s.job.rank ≠ 0) (all : s.children.all (fun c => p.acked.contains c) = true) :
    Completes i s (fun t => t.pitch = { p with st := .ready } ∧ t.guy = { s.guy with commit := .done false }
      ∧ t.fab = (({ t with fab := b } : State).sendPitch 5 0 0 0 (parentOf s.job.rank) []).fab
      ∧ Frame [.pitch, .guy, .fab, .recorder] s t) := by
  rw [State.maybeReady, if_pos (by rw [Bool.and_eq_true]; exact ⟨by simp [st], all⟩)] at e
  dsimp only at e
  rw [if_neg kind, if_neg low] at e
  obtain ⟨t, et, same, sent, fr⟩ := completes_sentPitch (l := [.pitch, .guy, .fab, .recorder]) e (fun q n =>
    Part.same_trans (Part.same_trans (fab_parts s b q (Part.outside n)) (pitch_parts _ _ q (Part.outside n))) (guy_parts _ _ q (Part.outside n)))
  exact ⟨t, et, same .pitch (by simp), same .guy (by simp), sent, fr⟩

end

end Sys2Proof.Machine
namespace Sys2Proof

open Machine

/-- Settles O50: a record that passes its checks makes an idle package take the job it names, and the last child's message
moves the package on. -/
theorem thePitchIsGathered : Obligations.ThePitchIsGathered := by
  intro s k ck
  refine ⟨fun mine ty got seg => ?_, fun mine held job child free => ⟨fun ty st new => ?_, fun ty st new => ?_, fun ty st new low kind => ?_⟩,
    fun mine ty held job st low parent idle free => completes_align ck mine ty held job st low parent idle free,
    fun i mine other which => ?_⟩
  · have e := exec_pitchRecord ck mine ty
    rw [recordPacket_eq seg] at e
    constructor
    · intro short
      rw [if_pos short] at e
      exact completes_pitch e
    · intro rank full idle low r own peg
      rw [if_neg (Nat.not_lt.2 full), recordDone_taken (p := { s.pitch with recv := [] }) (r := got.take 1152) k (takeLocal_tabs s k) idle own peg] at e
      exact completes_recordTaken (p := { s.pitch with recv := [] }) (r := got.take 1152) idle low e
  · exact completes_accepted ck mine ty held job child st new
  · have e := exec_pitchLoaded ck mine ty held job child free st new
    refine ⟨fun missing => ?_, fun own low all => completes_loaded e st own low (all_sent all)⟩
    rw [maybeLoaded_waits (s := { s with fab := _, pitch := _ }) (not_all_sent missing)] at e
    exact completes_pitch e
  · have e := exec_pitchAck ck mine ty held job child free st new
    refine ⟨fun missing => ?_, fun all => completes_ready e st kind low (all_sent all)⟩
    rw [maybeReady_waits (s := { s with fab := _, pitch := _ }) (not_all_sent missing)] at e
    exact completes_pitch e
  · rcases which with ⟨ty, rfl⟩ | ⟨ty, rfl⟩ | ⟨ty, rfl⟩ | ⟨ty, rfl⟩
    · exact completes_otherPitch rfl ck mine ty other
    · exact completes_otherPitch rfl ck mine ty other
    · exact completes_otherPitch rfl ck mine ty other
    · exact completes_otherPitch rfl ck mine ty other

end Sys2Proof
end

section
/-!
How pitches fail, quiesce and end: images that load or do not, FAIL, ABORT and their timeouts, QUIESCE, STRIKE, and the
job reset (15, R344 to R354).
-/
namespace Sys2Proof.Machine

open Sys2Proof

/-! ## Failures (R345, R348) -/

/-- A package that changes its pitch and sends one packet of it. -/
theorem completes_pitchSent {i : Instr} {s : State} {b : Fabric} {p : Pitch} {ty reason rank dst : Nat}
    (e : exec i s = finish s (({ s with fab := b, pitch := p } : State).sendPitch ty reason rank 0 dst []))
    (record : p.record = s.pitch.record) :
    Completes i s (fun t => t.pitch = p ∧ t.fab = (({ s with fab := b } : State).sendPitch ty reason rank 0 dst []).fab
      ∧ Frame [.pitch, .fab, .recorder] s t) := by
  have sent := sendPitch_parts ({ s with fab := b, pitch := p } : State) ty reason rank 0 dst []
  have alike : PitchAlike ({ s with fab := b } : State) { s with fab := b, pitch := p } := ⟨⟨rfl, rfl, rfl, rfl⟩, record⟩
  refine completes_frame (l := [.pitch, .fab, .recorder]) e (fun q n => ?_) fun t hs fr => ⟨?_, ?_, fr⟩
  · exact Part.same_trans (Part.same_trans (fab_parts s b q (Part.outside n)) (pitch_parts _ p q (Part.outside n))) (sent q (Part.outside n))
  · exact (hs .pitch).trans (sent .pitch (by simp))
  · exact (hs .fab).trans (alike.sendPitch ty reason rank 0 dst []).fab

theorem pitchFail_below {s : State} (low : s.myRank ≠ 0) (reason rank : Nat) :
    s.pitchFail reason rank = s.sendPitch 6 reason rank 0 (parentOf s.myRank) [] := if_neg low

theorem State.myRank_held {s : State} (held : s.job.held = true) : s.myRank = s.job.rank := if_pos held

/-- A failure of a child, below the root: FAIL goes up (R345, R348). -/
theorem completes_childFail {i : Instr} {s : State} {b : Fabric} {child reason rank : Nat} (held : s.job.held = true)
    (low : s.job.rank ≠ 0) (e : exec i s = finish s (({ s with fab := b } : State).childFail child reason rank)) :
    Completes i s (fun t => t.pitch = { s.pitch with failed := addOnce s.pitch.failed child }
      ∧ t.fab = (({ s with fab := b } : State).sendPitch 6 reason rank 0 (parentOf s.job.rank) []).fab
      ∧ Frame [.pitch, .fab, .recorder] s t) := by
  have mine : ∀ p : Pitch, ({ s with fab := b, pitch := p } : State).myRank = s.job.rank := fun p =>
    State.myRank_held (s := { s with fab := b, pitch := p }) held
  rw [State.childFail] at e
  dsimp only at e
  rw [pitchFail_below (by rw [mine]; exact low), mine] at e
  exact completes_pitchSent e rfl

/-! ## Job resets that begin (R344) -/

/-- What the beginning of a job reset may touch. -/
def resetParts : List Part :=
  [.pitch, .job, .cores, .harts, .stations, .links, .coll, .nacks, .reissues, .tt, .fab, .guy, .ckpt, .rp]

theorem beginReset_parts (s : State) (after : AfterReset) (keep : Bool) : ∀ p, p ∉ resetParts → p.same s (s.beginReset after keep) := by
  intro p n
  cases p <;> simp_all [Part.same, State.beginReset, State.stopAll, resetParts]

/-- A command that begins a job reset. -/
theorem completes_reset {i : Instr} {s u : State} {l m : List Part} (e : exec i s = finish s (u.beginReset .idle false))
    (parts : ∀ p, p ∉ l → p.same s u) (free : ∀ p ∈ [Part.pitch, .job, .cores, .harts], p ∉ l) (sub : ∀ q ∈ resetParts, q ∈ m)
    (also : ∀ q ∈ l, q ∈ m) :
    Completes i s (fun t => t.pitch = { s.pitch with resetting := some .idle, keepBivouac := false }
      ∧ t.job = { s.job with stepRunning := false } ∧ (∀ c, t.core c = { stats := (s.core c).stats })
      ∧ (∀ h, (t.hart h).st = .off) ∧ t.fab.track = [] ∧ Frame m s t) := by
  have pitch : u.pitch = s.pitch := parts .pitch (free _ (by simp))
  have job : u.job = s.job := parts .job (free _ (by simp))
  have cores : u.cores = s.cores := parts .cores (free _ (by simp))
  refine completes_frame e (fun q n => ?_) fun t hs fr => ⟨?_, ?_, fun c => ?_, fun h => ?_, ?_, fr⟩
  · exact Part.same_trans (parts q (Part.outside n also)) (beginReset_parts u _ _ q (Part.outside n sub))
  · rw [← pitch]; exact hs .pitch
  · rw [← job]; exact hs .job
  · rw [State.core, State.core, show t.cores = _ from hs .cores, ← cores]
    exact State.core_stopAll u c
  · rw [State.hart, show t.harts = _ from hs .harts]
    exact congrArg Hart.st (State.hart_stopAll u h)
  · rw [show t.fab = _ from hs .fab]
    rfl

/-! ## PITCH packets (Table 15.3) -/

section
variable {s : State} {k : Packet}

theorem completes_pitchFail (ck : s.clocked = true) (mine : s.isMine k kPITCH = true) (held : s.job.held = true)
    (job : k.job = s.job.id) (free : s.pitch.resetting ≠ some .idle) (ty : bits 7 0 k.arg = 6) (pitching : s.pitching = true)
    (child : k.srcRank ∈ s.children) (low : s.job.rank ≠ 0) : Completes (.pitchFail k) s (fun t =>
      t.pitch = { s.pitch with failed := addOnce s.pitch.failed k.srcRank }
      ∧ t.fab = (((s.takeLocal k).1).sendPitch 6 (bits 39 32 k.arg) (bits 31 23 k.arg) 0 (parentOf s.job.rank) []).fab
      ∧ Frame [.pitch, .fab, .recorder] s t) := by
  have u : exec (.pitchFail k) s = execPitchFail k s := rfl
  have e := exec_ownPitch (u.trans (by rw [execPitchFail])) ck mine ty held job
  rw [if_pos] at e
  · rw [takeLocal_eq s k]
    exact completes_childFail held low e
  · rw [Bool.and_eq_true, Bool.and_eq_true, List.contains_iff_mem]
    exact ⟨⟨pitching, child⟩, by simpa [State.ending] using free⟩

theorem completes_pitchAbort (ck : s.clocked = true) (mine : s.isMine k kPITCH = true) (held : s.job.held = true)
    (job : k.job = s.job.id) (free : s.pitch.resetting ≠ some .idle) (ty : bits 7 0 k.arg = 7) (run : s.pitch.st ≠ .running)
    (idle : s.pitch.st ≠ .idle) : Completes (.pitchAbort k) s (fun t =>
      t.pitch = { s.pitch with resetting := some .idle, keepBivouac := false } ∧ t.job = { s.job with stepRunning := false }
      ∧ (∀ c, t.core c = { stats := (s.core c).stats }) ∧ (∀ h, (t.hart h).st = .off) ∧ t.fab.track = [] ∧ Frame resetParts s t) := by
  have u : exec (.pitchAbort k) s = execPitchAbort k s := rfl
  have e := exec_ownPitch (u.trans (by rw [execPitchAbort])) ck mine ty held job
  rw [if_pos] at e
  · exact completes_reset e (fab_parts s _) (by decide) (by decide) (by decide)
  · simpa [State.ending, State.jobHeld, run, idle] using free

/-- The last QUIESCED of the children goes up (R354). -/
theorem completes_pitchQuiesced (ck : s.clocked = true) (mine : s.isMine k kPITCH = true) (held : s.job.held = true)
    (job : k.job = s.job.id) (free : s.pitch.resetting ≠ some .idle) (ty : bits 7 0 k.arg = 9) (st : s.pitch.st = .quiesced)
    (low : s.job.rank ≠ 0) (child : k.srcRank ∈ s.children) (new : k.srcRank ∉ s.pitch.quiesced)
    (all : ∀ c ∈ s.children, c = k.srcRank ∨ c ∈ s.pitch.quiesced) : Completes (.pitchQuiesced k) s (fun t =>
      t.pitch = { s.pitch with quiesced := s.pitch.quiesced ++ [k.srcRank] }
      ∧ t.fab = (((s.takeLocal k).1).sendPitch 9 0 0 0 (parentOf s.job.rank) []).fab ∧ Frame [.pitch, .fab, .recorder] s t) := by
  have u : exec (.pitchQuiesced k) s = execPitchQuiesced k s := rfl
  have e := exec_ownPitch (u.trans (by rw [execPitchQuiesced])) ck mine ty held job
  rw [if_pos, addOnce_new new, State.maybeQuiesced, if_pos (by rw [Bool.and_eq_true]; exact ⟨by simp [st], all_sent all⟩),
    if_neg low] at e
  · rw [takeLocal_eq s k]
    exact completes_pitchSent e rfl
  · rw [Bool.and_eq_true, List.contains_iff_mem]
    exact ⟨child, by simpa [State.ending] using free⟩

/-- What the commit of a step publishes through, and its error state. -/
def commitParts : List Part := [.outputs, .mem, .harts, .hbm, .hp0, .hp1, .recorder, .out, .err, .job, .guy]

theorem commitOut_parts (s : State) : ∀ p, p ∉ [Part.outputs, .mem, .harts, .hbm, .hp0, .hp1, .recorder, .out, .job] →
    p.same s s.commitOut := by
  intro p n
  cases p <;> simp_all [Part.same]

/-- The outgoing half of a commit, which also ends a replay (R26, R371). -/
def State.committing (s : State) : State :=
  ({ s with err := { s.err with st := if s.err.st ≤ 4 then 0 else s.err.st, replayTo := none } } : State).commitOut

theorem committing_parts (s : State) : ∀ p, p ∉ [Part.outputs, .mem, .harts, .hbm, .hp0, .hp1, .recorder, .out, .job, .err] →
    p.same s s.committing := fun p n => Part.same_trans (err_parts s _ p (Part.outside n)) (commitOut_parts _ p (Part.outside n))

theorem committing_job (s : State) : s.committing.job = { s.job with committed := s.job.step } := State.commitOut_job _

/-- The commit of a step that is no catch-up step begins (R26, R368). -/
theorem beginCommit_eq {s : State} (fresh : s.err.replayTo = none) (quiesce : Bool) : s.beginCommit quiesce =
    { s.committing with guy := { s.committing.guy with commit := .running 4 (!s.flyDue) quiesce } } := by
  have no : s.catchup = false := by rw [State.catchup, fresh]
  simp only [State.beginCommit, no, State.committing, Bool.false_eq_true, if_false]

theorem beginCommit_parts {s : State} (fresh : s.err.replayTo = none) (quiesce : Bool) :
    ∀ p, p ∉ commitParts → p.same s (s.beginCommit quiesce) := by
  intro p n
  rw [beginCommit_eq fresh]
  exact Part.same_trans (committing_parts s p (Part.outside n)) (guy_parts _ _ p (Part.outside n))

/-- QUIESCE of the parent, in place of the RELEASE, goes down, and the commit of the step begins (R354). -/
theorem completes_pitchQuiesce (ck : s.clocked = true) (mine : s.isMine k kPITCH = true) (held : s.job.held = true)
    (job : k.job = s.job.id) (free : s.pitch.resetting ≠ some .idle) (ty : bits 7 0 k.arg = 8) (st : s.pitch.st = .running)
    (low : s.job.rank ≠ 0) (parent : k.srcRank = parentOf s.job.rank) (run : s.job.stepRunning = true) (clean : s.guy.sentClean = true)
    (none_held : s.guy.held = none) (idle : s.guy.commit = .none) (fresh : s.err.replayTo = none) :
    Completes (.pitchQuiesce k) s (fun t =>
      t.guy = { s.guy with commit := .running 4 (!s.flyDue) true } ∧ t.job = { s.job with committed := s.job.step }
      ∧ t.fab = (s.children.foldl (fun u c => u.sendPitch 8 0 0 0 c []) (s.takeLocal k).1).fab
      ∧ Frame [.outputs, .mem, .harts, .hbm, .hp0, .hp1, .recorder, .out, .err, .job, .guy, .fab] s t) := by
  have u : exec (.pitchQuiesce k) s = execPitchQuiesce k s := rfl
  have e := exec_ownPitch (u.trans (by rw [execPitchQuiesce])) ck mine ty held job
  rw [if_pos (by simpa [st, low, parent, run, clean, State.decidedStep, none_held, idle, State.ending] using free),
    ← takeLocal_eq s k] at e
  rw [show (s.takeLocal k).1.children = s.children by rw [takeLocal_eq]; rfl] at e
  have parts : ∀ p, p ∉ [Part.fab, Part.recorder] → p.same s (s.children.foldl (fun u c => u.sendPitch 8 0 0 0 c []) (s.takeLocal k).1) :=
    fun p n => Part.same_trans (takeLocal_parts s k p (Part.outside n))
      (foldl_parts (fun u c => sendPitch_parts u 8 0 0 0 c []) _ _ p n)
  generalize (s.children.foldl (fun u c => u.sendPitch 8 0 0 0 c []) (s.takeLocal k).1) = v at *
  have errs : v.err = s.err := parts .err (by simp)
  have jobs : v.job = s.job := parts .job (by simp)
  have due : v.flyDue = s.flyDue := by
    rw [State.flyDue, State.flyDue, jobs, State.dnat_congr (parts .settings (by simp)).1]
  have newFresh : v.err.replayTo = none := by rw [errs]; exact fresh
  have commit := beginCommit_parts newFresh true
  refine completes_frame (l := [.outputs, .mem, .harts, .hbm, .hp0, .hp1, .recorder, .out, .err, .job, .guy, .fab]) e
    (fun p n => Part.same_trans (parts p (Part.outside n)) (commit p (Part.outside n))) fun t hs fr => ⟨?_, ?_, ?_, fr⟩
  · rw [show t.guy = _ from hs .guy, beginCommit_eq newFresh, due]
    rw [show v.committing.guy = v.guy from committing_parts v .guy (by simp), show v.guy = s.guy from parts .guy (by simp)]
  · rw [show t.job = _ from hs .job, beginCommit_eq newFresh]
    dsimp only
    rw [committing_job, jobs]
  · exact (hs .fab).trans (commit .fab (by decide))

/-- STRIKE of the job held, not struck before (R351, R352). -/
theorem completes_strikePacket (ck : s.clocked = true) (mine : s.isMine k kSTRIKE = true) (held : s.job.held = true)
    (job : k.job = s.job.id) (new : s.pitch.struck ≠ some k.job) (free : s.pitch.resetting ≠ some .idle) (may : MayBeStruck s) :
    Completes (.strikePacket k) s (fun t => Struck (bits 7 0 k.arg) s t ∧ Frame strikeParts s t) := by
  have u : exec (.strikePacket k) s = execStrikePacket k s := rfl
  rw [execStrikePacket, takeLocal_eq] at u
  dsimp only at u
  rw [job] at new
  rw [act_pos _ ck mine, if_pos (by simpa [held, job, State.ending, new] using free)] at u
  refine completes_struck u ⟨Struck.of_before (struck_strikeSelf (s := { s with fab := (s.takeLocal k).1.fab }) may.1 _) rfl rfl, fun p n => ?_⟩
  exact Part.same_trans (fab_parts s _ p (Part.outside n)) (strikeSelf_parts _ _ p n)

end

/-! ## Timeouts (R345, R349) -/

section
variable {s : State}

/-- The reason of a child that is late (Table 15.4). -/
def lateReason (p : Pitch) (c r : Nat) : Prop :=
  p.st = .accepted ∧ c ∉ p.accepted ∧ r = 1 ∨ p.st = .accepted ∧ c ∈ p.accepted ∧ c ∉ p.loaded ∧ r = 2
    ∨ p.st = .aligned ∧ c ∉ p.acked ∧ r = 3

theorem completes_childTimeout {c r : Nat} (ck : s.clocked = true) (child : c ∈ s.children) (new : c ∉ s.pitch.failed)
    (free : s.pitch.resetting ≠ some .idle) (held : s.job.held = true) (low : s.job.rank ≠ 0) (late : lateReason s.pitch c r) :
    Completes (.pitchChildTimeout c) s (fun t => t.pitch = { s.pitch with failed := s.pitch.failed ++ [c] }
      ∧ t.fab = (s.sendPitch 6 r c 0 (parentOf s.job.rank) []).fab ∧ Frame [.pitch, .fab, .recorder] s t) := by
  have u : exec (.pitchChildTimeout c) s = execPitchChildTimeout c s := rfl
  have due : (s.children.contains c && !s.pitch.failed.contains c && !s.ending) = true := by
    simpa [child, new, State.ending] using free
  have e : exec (.pitchChildTimeout c) s = finish s (s.childFail c r c) := by
    rw [u, execPitchChildTimeout]
    rcases late with ⟨st, no, rfl⟩ | ⟨st, yes, no, rfl⟩ | ⟨st, no, rfl⟩
    · simpa [st, no] using act_pos _ ck due
    · simpa [st, no, yes] using act_pos _ ck due
    · simpa [st, no] using act_pos _ ck due
  rw [← addOnce_new new]
  exact completes_childFail (b := s.fab) held low e

theorem completes_abandonTimeout (ck : s.clocked = true) (pitching : s.pitching = true) (free : s.pitch.resetting ≠ some .idle) :
    Completes .pitchAbandonTimeout s (fun t =>
      t.pitch = { s.pitch with resetting := some .idle, keepBivouac := false } ∧ t.job = { s.job with stepRunning := false }
      ∧ (∀ c, t.core c = { stats := (s.core c).stats }) ∧ (∀ h, (t.hart h).st = .off) ∧ t.fab.track = []
      ∧ Frame [.pitch, .job, .cores, .harts, .stations, .links, .coll, .nacks, .reissues, .tt, .fab, .guy, .ckpt, .rp, .recorder] s t) := by
  have u : exec .pitchAbandonTimeout s = execPitchAbandonTimeout s := rfl
  rw [execPitchAbandonTimeout, act_pos _ ck (by simpa [pitching, State.ending] using free)] at u
  exact completes_reset u (event_parts s _ _ _) (by decide) (by decide) (by decide)

end

/-! ## The end of a job reset (R344, R345) -/

/-- The wipe of a job reset with no pending value to apply. -/
theorem jobWipe_unpending {s : State} (pend : s.dict.pend = []) (us : Nat) : s.jobWipe us =
    { s.sincePitch with
      mem := s.mem.filter (fun c => s.keepsByte c.1)
      hbm := { s.sincePitch.hbm with wipeUs := min us (2 ^ 32 - 1) }
      outputs := {}
      dict := { s.dict with snap := [], afterRelease := [] }
      ckpt := { s.sincePitch.ckpt with flyStep := 2 ^ 64 - 1, slots := if s.pitch.keepBivouac then s.ckpt.slots else []
                                       newest := if s.pitch.keepBivouac then s.ckpt.newest else none
                                       drainedStep := if s.pitch.keepBivouac then s.ckpt.drainedStep else 2 ^ 64 - 1 }
      pitch := { s.pitch with resetting := none, keepBivouac := false } } := by
  rw [State.jobWipe, State.applyPending_nil (s := s.sincePitch) pend]
  rfl

theorem State.core_sincePitch (s : State) (c : Nat) :
    s.sincePitch.core c = { stats := { maintPasses := (s.core c).stats.maintPasses } } :=
  nget_nall_of_default (f := Core.afterJob) rfl s.cores c

/-- A port without a request that waits serves none. -/
theorem serveHeld_none {s : State} {p : Nat} (none_held : (s.hp p).held = []) : s.serveHeld p = s := by
  rw [State.serveHeld, none_held, List.foldl_nil, State.modHp]
  rw [State.hp] at none_held
  split
  · next zero =>
    rw [if_pos zero] at none_held
    rw [← none_held]
  · next other =>
    rw [if_neg other] at none_held
    rw [← none_held]

/-- What a job reset leaves of a package. -/
structure Wiped (us : Nat) (s t : State) : Prop where
  mem : ∀ a, readByte t.mem a = if s.keepsByte a then readByte s.mem a else 0
  outputs : t.outputs = {}
  harts : t.harts = []
  coll : t.coll = {}
  core : ∀ c, t.core c = { stats := { maintPasses := (s.core c).stats.maintPasses } }
  resetting : t.pitch.resetting = none
  wipeUs : t.hbm.wipeUs = min us (2 ^ 32 - 1)
  mram : t.mram = s.mram
  sec : t.sec = s.sec
  vals : t.dict.vals = s.dict.vals

theorem wiped_jobWipe {s : State} (pend : s.dict.pend = []) (us : Nat) : Wiped us s (s.jobWipe us) := by
  rw [jobWipe_unpending pend]
  refine ⟨fun a => ?_, rfl, rfl, rfl, State.core_sincePitch s, rfl, rfl, rfl, rfl, rfl⟩
  exact nget_filter 0 s.mem s.keepsByte a

/-- What agrees with a package that a job reset has wiped. -/
theorem Wiped.congr {us : Nat} {s t u : State} (h : Wiped us s t) (same : ∀ p ∈ [Part.mem, .outputs, .harts, .coll, .cores, .hbm, .mram, .sec, .settings],
    p.same t u) (resetting : u.pitch.resetting = t.pitch.resetting) : Wiped us s u := by
  have cores : u.cores = t.cores := same .cores (by simp)
  refine ⟨fun a => ?_, (same .outputs (by simp)).trans h.outputs, (same .harts (by simp)).trans h.harts, (same .coll (by simp)).trans h.coll,
    fun c => ?_, resetting.trans h.resetting, ?_, (same .mram (by simp)).trans h.mram, (same .sec (by simp)).trans h.sec,
    (same .settings (by simp)).1.trans h.vals⟩
  · rw [show u.mem = _ from same .mem (by simp)]
    exact h.mem a
  · rw [State.core, cores]
    exact h.core c
  · rw [show u.hbm = _ from same .hbm (by simp)]
    exact h.wipeUs

/-- A package that becomes IDLE with no host request waiting. -/
theorem toIdle_unheld {s : State} (h0 : s.hp0.held = []) (h1 : s.hp1.held = []) : s.toIdle =
    (({ s with
      job := {}
      pitch := { s.pitch with st := .idle, recv := [], accepted := [], loaded := [], acked := [], failed := [], quiesced := []
                              ownLoaded := false, failSent := false, quiescing := false }
      err := { s.err with st := if s.err.st = 6 then 6 else 0 }
      rp := { s.rp with parent := none }
      power := { s.power with job := none, next := none } } : State).joinPorts).retarget := by
  rw [State.toIdle]
  rw [serveHeld_none (p := 0) (by simp [State.hp, h0]), serveHeld_none (p := 1) (by simp [State.hp, h1])]

theorem toIdle_idle {s : State} (h0 : s.hp0.held = []) (h1 : s.hp1.held = []) :
    s.toIdle.pitch.st = .idle ∧ s.toIdle.job = {} ∧ s.toIdle.power.job = none ∧ (s.toIdle.err.st = 0 ∨ s.err.st = 6)
    ∧ s.toIdle.pitch.resetting = s.pitch.resetting := by
  rw [toIdle_unheld h0 h1]
  refine ⟨by simp, by simp, ?_, ?_, by simp⟩
  · rw [(retarget_power _).1]
    simp
  · by_cases six : s.err.st = 6
    · exact .inr six
    · simp [six]

theorem toIdle_parts {s : State} (h0 : s.hp0.held = []) (h1 : s.hp1.held = []) :
    ∀ p ∈ [Part.mem, .outputs, .harts, .coll, .cores, .hbm, .mram, .sec, .settings], p.same s s.toIdle := by
  rw [toIdle_unheld h0 h1]
  intro p m
  simp only [List.mem_cons, List.not_mem_nil, or_false] at m
  rcases m with rfl | rfl | rfl | rfl | rfl | rfl | rfl | rfl | rfl <;> simp [Part.same]

theorem completes_jobResetDone {s : State} {us : Nat} {after : AfterReset} (ck : s.clocked = true) (due : s.pitch.resetting = some after)
    (h0 : s.hp0.held = []) (h1 : s.hp1.held = []) (pend : s.dict.pend = []) : Completes (.jobResetDone us) s (fun t => Wiped us s t
      ∧ (after = .idle → t.pitch.st = .idle ∧ t.job = {} ∧ t.power.job = none ∧ (t.err.st = 0 ∨ s.err.st = 6))
      ∧ (after = .load → t.pitch.st = s.pitch.st ∧ t.job = s.job ∧ t.pitch.record = s.pitch.record)) := by
  have u : exec (.jobResetDone us) s = execJobResetDone us s := rfl
  have wiped := wiped_jobWipe pend us
  rw [execJobResetDone, due] at u
  cases after with
  | idle =>
    have e : exec (.jobResetDone us) s = finish s (s.jobWipe us).toIdle := u.trans (act_pos _ ck rfl)
    have z0 : (s.jobWipe us).hp0.held = [] := by simpa using h0
    have z1 : (s.jobWipe us).hp1.held = [] := by simpa using h1
    obtain ⟨st, job, power, err, resetting⟩ := toIdle_idle z0 z1
    have errs : (s.jobWipe us).err.st = s.err.st := by rw [jobWipe_unpending pend]; rfl
    have done : Wiped us s (s.jobWipe us).toIdle := wiped.congr (toIdle_parts z0 z1) resetting
    refine completes_of e fun t _ hs => ⟨done.congr (fun p _ => hs p) (by rw [show t.pitch = _ from hs .pitch]), fun _ => ?_, nofun⟩
    rw [show t.pitch = _ from hs .pitch, show t.job = _ from hs .job, show t.power = _ from hs .power, show t.err = _ from hs .err, ← errs]
    exact ⟨st, job, power, err⟩
  | load =>
    have e : exec (.jobResetDone us) s = finish s (s.jobWipe us).retarget := u.trans (act_pos _ ck rfl)
    have same : ∀ p, p ∉ [Part.power] → p.same (s.jobWipe us) (s.jobWipe us).retarget := retarget_parts _
    have pitch : (s.jobWipe us).retarget.pitch = (s.jobWipe us).pitch := same .pitch (by simp)
    have done : Wiped us s (s.jobWipe us).retarget := wiped.congr (fun p m => same p (by revert m; revert p; decide)) (by rw [pitch])
    refine completes_of e fun t _ hs => ⟨done.congr (fun p _ => hs p) (by rw [show t.pitch = _ from hs .pitch]), nofun, fun _ => ?_⟩
    rw [show t.pitch = _ from hs .pitch, show t.job = _ from hs .job, pitch, jobWipe_unpending pend]
    exact ⟨rfl, by simp, rfl⟩

/-! ## Loads (R347) -/

section
variable {s : State}

/-- A package that waits for its image. -/
def State.awaitsImage (s : State) : Prop :=
  s.pitch.st = .accepted ∧ s.pitch.resetting = none ∧ s.pitch.ownLoaded = false ∧ s.pitch.failSent = false ∧ s.ckpt.restoring = false

/-- A fetch that fails sends FAIL with IMAGE_FETCH up (Table 15.4). -/
theorem completes_loadFailed (ck : s.clocked = true) (waits : s.awaitsImage) (low : s.myRank ≠ 0) :
    Completes (.loadComplete none) s (fun t => t.pitch = { s.pitch with failSent := true }
      ∧ t.fab = (s.sendPitch 6 0x06 s.job.rank 0 (parentOf s.myRank) []).fab ∧ Frame [.pitch, .fab, .recorder] s t) := by
  obtain ⟨st, resetting, own, fail, restoring⟩ := waits
  have u : exec (.loadComplete none) s = execLoadComplete none s := rfl
  rw [execLoadComplete, act_pos _ ck (by simp [st, resetting, own, fail, restoring]), State.loadFail] at u
  dsimp only at u
  rw [pitchFail_below (s := { s with pitch := { s.pitch with failSent := true } }) low] at u
  exact completes_pitchSent (b := s.fab) u rfl

/-- An image that a package can load at once: it passes its checks, needs no gated block, binds no host and lies in no far
memory (R171, R400). -/
structure Loads (s : State) (b : List Byte) (im : Image) : Prop where
  length : b.length = fieldAt (s.dval 0x9030 6) 16 8
  size : fieldAt b 16 8 = b.length
  port : (s.hp (fieldAt (s.dval 0x9030 6) 0 1)).inPerst = false
  ok : checkImage b s.job.ranks (slice s.pitch.record 64 64) s.familyValue s.capacity = .ok im
  open_ : s.gatedEntry im s.job.rank (placeImage im s.capacity).2 = none
  unbound : ∀ r ∈ im.regions, r.kind ≠ .host
  near : ∀ p ∈ (placeImage im s.capacity).2, p.r.kind ≠ .far
  kind : s.job.kind = 1

/-- A package whose image has been placed. -/
def State.loadedWith (s : State) (im : Image) : State :=
  let p := placeImage im s.capacity
  let t := ({ s with reject := none } : State).placeJob im p.1 p.2 false
  { t with pitch := { t.pitch with ownLoaded := true } }

theorem loadImage_placed {b : List Byte} {im : Image} (h : Loads s b im) : s.loadImage b = (s.loadedWith im).maybeLoaded := by
  have first : (s.job.kind == 3) = false := by rw [h.kind]; rfl
  have done : (({ s with reject := none } : State).placeJob im (placeImage im s.capacity).1 (placeImage im s.capacity).2 false).loadDone
      = (s.loadedWith im).maybeLoaded := by
    rw [State.loadDone, if_pos (by simp [State.placeJob, h.kind])]
    rfl
  rw [State.loadImage, h.ok]
  dsimp only
  rw [h.open_]
  dsimp only
  rw [if_neg (by simpa using fun r m host => absurd host (h.unbound r m)), if_neg (by simpa using fun p m far => absurd far (h.near p m)),
    ← done]
  split
  · rw [first, Bool.false_and]
  · rfl

theorem loadedWith_parts (im : Image) : ∀ p, p ∉ [Part.job, .pitch, .reject, .cores, .mem, .hbm, .outputs, .ckpt] →
    p.same s (s.loadedWith im) := by
  intro p n
  cases p <;> simp_all [Part.same, State.loadedWith]

theorem loadedWith_fields (im : Image) : (s.loadedWith im).job = { s.job with image := some im, placed := (placeImage im s.capacity).2 }
    ∧ (s.loadedWith im).pitch = { s.pitch with ownLoaded := true } ∧ (s.loadedWith im).reject = none := by
  refine ⟨?_, ?_, ?_⟩ <;> simp [State.loadedWith, State.placeJob]

/-- The memory of a first load (R149, R153, R181). -/
theorem loadedWith_mem {im : Image} (first : s.job.kind = 1) : (s.loadedWith im).mem =
    writeBytes (im.wlayout.foldl (layWeights im (placeImage im s.capacity).2) ((placeImage im s.capacity).2.foldl (initRegion im) s.mem))
      regionTable (tableBytes (placeImage im s.capacity).2) := by
  have all (l : List Placed) : l.filter (fun _ => true) = l := List.filter_eq_self.2 fun _ _ => rfl
  simp [State.loadedWith, State.placeJob, first, all]

theorem nget_mapped {α : Type} (d : α) (f : Nat → α) {l : List Nat} {k : Nat} (m : k ∈ l) : nget d (l.map fun c => (c, f c)) k = f k := by
  induction l with
  | nil => exact absurd m (List.not_mem_nil)
  | cons c l ih =>
    rw [List.map_cons, nget]
    split
    · next same => rw [show c = k from same.symm ▸ rfl]
    · next other => exact ih ((List.mem_cons.1 m).resolve_left fun e => other (e ▸ rfl))

theorem loadedWith_core (im : Image) {c : Nat} (hc : c < 256) :
    (s.loadedWith im).core c = loadCore im s.job.rank (s.free + c) (s.core c).stats c := by
  rw [State.core]
  simp only [State.loadedWith, State.placeJob, State.digestInputs_keeps]
  exact nget_mapped _ _ (List.mem_range.2 hc)

/-- A core as the loader leaves it (R88, R151). -/
theorem loadCore_spec (im : Image) (rank n : Nat) (stats : CoreStats) (c : Nat) :
    (loadCore im rank n stats c).seq = .idle ∧ (loadCore im rank n stats c).bank0.st = .active ∧ (loadCore im rank n stats c).activeIs1 = false
    ∧ (∀ r, (entryOf im rank c).bind (fun e => im.role e) = some r → (loadCore im rank n stats c).entry = some r.id
      ∧ (loadCore im rank n stats c).bank0.cmds = r.cmds ∧ (loadCore im rank n stats c).bank0.descs = r.descs)
    ∧ ((entryOf im rank c).bind (fun e => im.role e) = none → (loadCore im rank n stats c).entry = none
      ∧ (loadCore im rank n stats c).bank0.cmds = [5]) := by
  rw [loadCore]
  cases (entryOf im rank c).bind (fun e => im.role e) with
  | none => exact ⟨rfl, rfl, rfl, nofun, fun _ => ⟨rfl, rfl⟩⟩
  | some r => exact ⟨rfl, rfl, rfl, fun _ e => by cases e; exact ⟨rfl, rfl, rfl⟩, nofun⟩

/-- An image that passes its checks is placed; while a child still loads the package waits for it (R347). -/
theorem completes_loadComplete {b : List Byte} {im : Image} (ck : s.clocked = true) (waits : s.awaitsImage) (h : Loads s b im)
    (missing : ∃ c ∈ s.children, c ∉ s.pitch.loaded) : Completes (.loadComplete (some b)) s (fun t =>
      t.job = { s.job with image := some im, placed := (placeImage im s.capacity).2 } ∧ t.pitch = { s.pitch with ownLoaded := true }
      ∧ t.reject = none
      ∧ (∀ c, c < 256 → t.core c = loadCore im s.job.rank (s.free + c) (s.core c).stats c)
      ∧ t.mem = writeBytes (im.wlayout.foldl (layWeights im (placeImage im s.capacity).2)
          ((placeImage im s.capacity).2.foldl (initRegion im) s.mem)) regionTable (tableBytes (placeImage im s.capacity).2)
      ∧ Frame [.job, .pitch, .reject, .cores, .mem, .hbm, .outputs, .ckpt] s t) := by
  obtain ⟨st, resetting, own, fail, restoring⟩ := waits
  obtain ⟨jobs, pitch, reject⟩ := loadedWith_fields (s := s) im
  have u : exec (.loadComplete (some b)) s = execLoadComplete (some b) s := rfl
  have children : (s.loadedWith im).children = s.children := by rw [State.children, jobs]; rfl
  have late : (s.loadedWith im).children.all (fun c => (s.loadedWith im).pitch.loaded.contains c) = false := by
    obtain ⟨c, child, no⟩ := missing
    rw [children, pitch, List.all_eq_false]
    exact ⟨c, child, by simpa using no⟩
  rw [execLoadComplete, act_pos _ ck (by simp [st, resetting, own, fail, restoring])] at u
  dsimp only at u
  rw [if_pos (by simp [h.length, h.size, h.port]), loadImage_placed h, maybeLoaded_waits late] at u
  refine completes_frame u (loadedWith_parts im) fun t hs fr => ⟨?_, ?_, ?_, fun c hc => ?_, ?_, fr⟩
  · exact (show t.job = _ from hs .job).trans jobs
  · exact (show t.pitch = _ from hs .pitch).trans pitch
  · exact (show t.reject = _ from hs .reject).trans reject
  · rw [State.core, show t.cores = _ from hs .cores]
    exact loadedWith_core im hc
  · exact (show t.mem = _ from hs .mem).trans (loadedWith_mem h.kind)

end

end Sys2Proof.Machine
namespace Sys2Proof

open Machine

/-- Settles O51: an image loads or fails, failures go up, QUIESCE and STRIKE act on the job held, and a job reset wipes what it
does not keep. -/
theorem pitchesFailQuiesceAndEnd : Obligations.PitchesFailQuiesceAndEnd := by
  intro s ck
  refine ⟨?_, fun st resetting own fail restoring low => completes_loadFailed ck ⟨st, resetting, own, fail, restoring⟩ low,
    fun k mine held job free => ⟨?_, ?_, ?_, ?_⟩, ?_, ?_, ?_, ?_⟩
  · rintro _ b im rfl st resetting own fail restoring length size port ok gate unbound near kind missing
    obtain ⟨t, e, jobs, pitch, reject, cores, mem, fr⟩ := completes_loadComplete ck ⟨st, resetting, own, fail, restoring⟩
      ⟨length, size, port, ok, gate, unbound, near, kind⟩ missing
    refine ⟨t, e, jobs, pitch, reject, fun c hc => ?_, mem, fr⟩
    rw [cores c hc]
    exact loadCore_spec im _ _ _ c
  · exact fun ty pitching child low => completes_pitchFail ck mine held job free ty pitching child low
  · exact fun ty run idle => completes_pitchAbort ck mine held job free ty run idle
  · exact fun ty st low parent run clean unheld idle fresh =>
      completes_pitchQuiesce ck mine held job free ty st low parent run clean unheld idle fresh
  · exact fun ty st low child new all => completes_pitchQuiesced ck mine held job free ty st low child new all
  · exact fun c child new free held low r late => completes_childTimeout ck child new free held low late
  · intro pitching free
    obtain ⟨t, e, pitch, jobs, cores, _, track, fr⟩ := completes_abandonTimeout ck pitching free
    exact ⟨t, e, pitch, jobs, cores, track, fr⟩
  · exact fun k mine held job new free may => completes_strikePacket ck mine held job new free may
  · intro us after due h0 h1 pend
    obtain ⟨t, e, w, idle, load⟩ := completes_jobResetDone ck due h0 h1 pend
    exact ⟨t, e, w.mem, w.outputs, w.harts, w.coll, w.core, w.resetting, w.wipeUs, idle, load, w.mram, w.sec, w.vals⟩

end Sys2Proof
end

section
/-!
The recovery re-layout of a root whose input has changed: the job is struck (Table 16.5, R365).
-/
namespace Sys2Proof.Machine

open Sys2Proof

/-- A root without children whose gathered bit is set strikes the job in place of a RELEASE. -/
theorem gather_restored_strikes {s : State} (restored : s.guy.restored = true) (clean : s.guy.sentClean = false) (leaf : s.children = [])
    (root : s.job.rank = 0) (changed : s.err.inputChanged = true) :
    s.gather = ({ s with guy := { s.guy with sentClean := true } } : State).strikeAll 3 := by
  have bit : ∀ l, s.gatheredBit l = true := fun l => by rw [State.gatheredBit, changed, Bool.true_or]
  unfold State.gather
  dsimp only
  rw [if_pos restored, clean, leaf]
  simp only [List.all_nil, Bool.not_false, Bool.and_self, if_true, root, bit]

/-- A strike takes a core's entry role. -/
theorem State.entry_strikeSelf (s : State) (reason c : Nat) : ((s.strikeSelf reason).core c).entry = none :=
  congrArg Core.entry (State.core_stopAll _ c)

/-- A root of one package in recovery, whose input changed during the step that it replays; core 0 has entry role 0. -/
def State.changedRoot : State :=
  { State.reset with
    start := { phase := .ready }
    err := { st := 2, inputChanged := true }
    job := { held := true, ranks := 1, image := some Tests.image0 }
    cores := [(0, { entry := some 0 })] }

/-- The re-layout of such a root ends in a strike. -/
theorem exec_relayout_strikes {s : State} {im : Image} (ck : s.clocked = true) (image : s.job.image = some im) (replay : s.err.st = 2)
    (fresh : s.guy.restored = false) (clean : s.guy.sentClean = false) (leaf : s.children = []) (root : s.job.rank = 0)
    (changed : s.err.inputChanged = true) : ∃ u : State, exec .recoveryRelayoutComplete s = finish s (u.strikeSelf 3) := by
  have e : exec .recoveryRelayoutComplete s = execRecoveryRelayoutComplete s := rfl
  rw [State.children] at leaf
  rw [execRecoveryRelayoutComplete, image] at e
  dsimp only at e
  rw [act_pos _ ck (by simp [replay, fresh]), gather_restored_strikes (by simp) (by simp [clean]) (by simp [State.children, leaf])
    (by simp [root]) (by simp [changed])] at e
  exact ⟨_, e⟩

end Sys2Proof.Machine
namespace Sys2Proof

open Machine

/-- Refutes O52: the recovery re-layout of a root whose input has changed strikes the job, and the strike takes the entry roles
of its cores. -/
theorem not_commitsAndCheckpointsComplete : ¬ Obligations.CommitsAndCheckpointsComplete := by
  intro h
  obtain ⟨_, _, _, _, relayout⟩ := h State.changedRoot rfl
  obtain ⟨t, e, _, _, _, cores, _⟩ := relayout Tests.image0 rfl rfl rfl rfl _ rfl
  obtain ⟨_, _, entry, _⟩ := cores 0
  obtain ⟨u, eu⟩ := exec_relayout_strikes (s := State.changedRoot) (im := Tests.image0) rfl rfl rfl rfl rfl rfl rfl rfl
  obtain ⟨t', e', lost⟩ : Completes .recoveryRelayoutComplete State.changedRoot (fun t => (t.core 0).entry = none) :=
    completes_of eu fun t _ hs => by
      rw [State.core, show t.cores = _ from hs .cores]
      exact u.entry_strikeSelf 3 0
  cases e.symm.trans e'
  have role : (State.changedRoot.core 0).entry = some 0 := rfl
  rw [lost, role] at entry
  cases entry

end Sys2Proof
end

section
/-!
The linkage engines: problems that queue, start, go on and end (10, R249 to R263).
-/
namespace Sys2Proof.Machine

open Sys2Proof

/-! ## One engine -/

theorem modLink_parts (s : State) (d : Nat) (f : LinkEngine → LinkEngine) : ∀ p, p ∉ [Part.links] → p.same s (s.modLink d f) := by
  intro p n
  cases p <;> simp_all [Part.same]

/-- `u` is `s` with engine `d` put to `x`, the parts `ps` apart. -/
structure LinkAnd (ps : List Part) (d : Nat) (x : LinkEngine) (s u : State) : Prop where
  own : u.link d = x
  others : ∀ e, e ≠ d → u.link e = s.link e
  parts : ∀ p, p ∉ Part.links :: ps → p.same s u

namespace LinkAnd

variable {ps : List Part} {d : Nat} {x : LinkEngine} {s t u : State}

theorem modLink (s : State) (d : Nat) (f : LinkEngine → LinkEngine) : LinkAnd ps d (f (s.link d)) s (s.modLink d f) :=
  ⟨(s.link_modLink d d f).trans (if_pos rfl), fun e ne => (s.link_modLink d e f).trans (if_neg ne),
    fun p n => modLink_parts s d f p (by simp at n; simp [n.1])⟩

/-- Changes of the parts `ps` before and after leave an engine as it was put. -/
theorem after (h : LinkAnd ps d x s t) (k : ∀ p, p ∉ ps → p.same t u) (n : Part.links ∉ ps) : LinkAnd ps d x s u := by
  have links : u.links = t.links := k .links n
  refine ⟨?_, fun e ne => ?_, fun p m => Part.same_trans (h.parts p m) (k p fun q => m (List.mem_cons_of_mem _ q))⟩
  · rw [State.link, links]
    exact h.own
  · rw [State.link, links]
    exact h.others e ne

theorem before (k : ∀ p, p ∉ ps → p.same s t) (n : Part.links ∉ ps) (h : LinkAnd ps d x t u) : LinkAnd ps d x s u := by
  have links : t.links = s.links := k .links n
  refine ⟨h.own, fun e ne => ?_, fun p m => Part.same_trans (k p fun q => m (List.mem_cons_of_mem _ q)) (h.parts p m)⟩
  rw [h.others e ne, State.link, links]
  rfl

theorem widen {qs : List Part} (h : LinkAnd ps d x s u) (sub : ∀ p ∈ ps, p ∈ qs) : LinkAnd qs d x s u :=
  ⟨h.own, h.others, fun p n => h.parts p fun m => n (by
    rw [List.mem_cons] at m ⊢
    exact m.imp_right (sub p))⟩

/-- The engine that a command leaves. -/
theorem completes {i : Instr} {Q : State → Prop} (e : exec i s = finish s u) (h : LinkAnd ps d x s u)
    (k : ∀ t, (∀ q : Part, q.same u t) → t.link d = x → (∀ e, e ≠ d → t.link e = s.link e) → Frame (.links :: ps) s t → Q t) :
    Completes i s Q := by
  refine completes_frame e h.parts fun t hs fr => ?_
  have links : t.links = u.links := hs .links
  have same : ∀ e, t.link e = u.link e := fun e => by rw [State.link, links]; rfl
  exact k t hs ((same d).trans h.own) (fun e ne => (same e).trans (h.others e ne)) fr

end LinkAnd

/-! ## Problems that queue (R252) -/

section
variable {s : State} {d : Nat}

theorem exec_dmlink {c : Nat} {q : EngCmd} {rest : List EngCmd} (ck : s.clocked = true) (hc : c < 256)
    (queue : (s.core c).qDm = q :: rest) (op : q.op = 0x42) (room : (s.link (c / 32)).queue.length < 256) :
    exec (.dmlink c) s = finish s ((s.modLink (c / 32) fun e => { e with
      queue := e.queue ++ [⟨c, bits 23 8 q.word, s.copyBase (bits 39 32 q.word) 0 + ixAdd (bits 31 24 q.word) q.cnt (bits 79 40 q.word),
        if bitAt 83 q.word then some (bits 82 80 q.word) else none, (s.core c).roleEpoch.toNat, none⟩]
      high := max e.high (e.queue.length + 1) }).retire c .dm 0) := by
  have head : (s.core c).head .dm 0x42 = some q := Core.head_of queue op
  have u : exec (.dmlink c) s = execDmlink c s := rfl
  rw [u, execDmlink, head]
  exact (only_pos _ (decide_eq_true hc)).trans (act_pos _ ck (decide_eq_true room))

theorem completes_dmlink {c : Nat} {q : EngCmd} {rest : List EngCmd} (ck : s.clocked = true) (hc : c < 256) (going : (s.core c).going)
    (queue : (s.core c).qDm = q :: rest) (op : q.op = 0x42) (room : (s.link (c / 32)).queue.length < 256) :
    Completes (.dmlink c) s (fun t =>
      (t.link (c / 32)).queue = (s.link (c / 32)).queue ++ [⟨c, bits 23 8 q.word,
          s.copyBase (bits 39 32 q.word) 0 + ixAdd (bits 31 24 q.word) q.cnt (bits 79 40 q.word),
          if bitAt 83 q.word then some (bits 82 80 q.word) else none, (s.core c).roleEpoch.toNat, none⟩]
      ∧ (t.link (c / 32)).high = max (s.link (c / 32)).high ((s.link (c / 32)).queue.length + 1)
      ∧ (∀ e, e ≠ c / 32 → t.link e = s.link e) ∧ t.core c = { s.core c with qDm := rest } ∧ OtherCores c s t
      ∧ Frame [.cores, .links] s t) := by
  have e := exec_dmlink ck hc queue op room
  have link := LinkAnd.modLink (ps := []) s (c / 32) fun e => { e with
    queue := e.queue ++ [(⟨c, bits 23 8 q.word, s.copyBase (bits 39 32 q.word) 0 + ixAdd (bits 31 24 q.word) q.cnt (bits 79 40 q.word),
      if bitAt 83 q.word then some (bits 82 80 q.word) else none, (s.core c).roleEpoch.toNat, none⟩ : LinkProb)]
    high := max e.high (e.queue.length + 1) }
  generalize (s.modLink (c / 32) _) = u at *
  have cores : ∀ b, u.core b = s.core b := State.core_congr (link.parts .cores (by simp))
  obtain ⟨own, other, parts⟩ := CoreBecomes.retire (s := u) (c := c) .dm 0 (by rw [cores]; exact going)
  refine ((link.widen (qs := [.cores]) (by simp)).after parts (by simp)).completes e fun t hs ownLink others fr => ⟨?_, ?_, others, ?_, fun b ne => ?_, fr.1, fun p n => fr.2 p ?_⟩
  · rw [ownLink]
  · rw [ownLink]
  · rw [State.core_congr (hs .cores), own, cores, Core.putQueue, Core.queue, queue]
    rfl
  · rw [State.core_congr (hs .cores), other b ne, cores]
  · simp at n ⊢
    exact n.symm

/-! ## Solves (R256, R259 to R261) -/

/-- The solve of the problem at the head is put back. -/
theorem LinkAnd.putSolve {p : LinkProb} {rest : List LinkProb} (queue : (s.link d).queue = p :: rest) (x : Solve) :
    LinkAnd [] d { s.link d with queue := { p with active := some x } :: rest } s (s.putSolve d x) := by
  have h := LinkAnd.modLink (ps := []) s d (fun e => match e.queue with
    | p :: t => { e with queue := { p with active := some x } :: t }
    | [] => e)
  rw [queue] at h
  exact h

theorem problem_of {p : LinkProb} {rest : List LinkProb} (queue : (s.link d).queue = p :: rest) : s.problem d = some p := by
  rw [State.problem, queue]
  rfl

theorem solving_of {p : LinkProb} {rest : List LinkProb} {x : Solve} {op : Nat} (queue : (s.link d).queue = p :: rest)
    (active : p.active = some x) (code : opCode ((s.schedule p).ops.getD x.pc 0) = op) :
    s.solving d op = some (p, s.schedule p, x, (s.schedule p).ops.getD x.pc 0) := by
  rw [State.solving, problem_of queue]
  dsimp only
  rw [active]
  exact if_pos code

/-- A command that goes on with a solve. -/
theorem completes_solve {i : Instr} {p : LinkProb} {rest : List LinkProb} {x : Solve} (queue : (s.link d).queue = p :: rest)
    (e : exec i s = finish s (s.putSolve d x)) : Completes i s (fun t =>
      (t.link d = { s.link d with queue := { p with active := some x } :: rest } ∧ ∀ e, e ≠ d → t.link e = s.link e) ∧ Frame [.links] s t) :=
  (LinkAnd.putSolve queue x).completes e fun _ _ own others fr => ⟨⟨own, others⟩, fr⟩

/-- A solve that starts from its problem block (R259, R260). -/
theorem completes_started {i : Instr} {p : LinkProb} {rest : List LinkProb} {a n k : Nat} {w : Bool} {x : Solve}
    (queue : (s.link d).queue = p :: rest) (e : exec i s = finish s ((s.countLines a w n k).putSolve d x)) : Completes i s (fun t =>
      (t.link d = { s.link d with queue := { p with active := some x } :: rest } ∧ ∀ e, e ≠ d → t.link e = s.link e)
      ∧ Frame [.links, .hbm] s t) := by
  have parts := countLines_parts s a w n k
  have links : (s.countLines a w n k).link d = s.link d := by rw [State.link, show (s.countLines a w n k).links = s.links from parts .links (by simp)]; rfl
  have put := LinkAnd.putSolve (s := s.countLines a w n k) (d := d) (by rw [links]; exact queue) x
  rw [links] at put
  refine completes_frame (l := [.links, .hbm]) e
    (fun q m => Part.same_trans (parts q (Part.outside m)) (put.parts q (Part.outside m))) fun t hs fr => ?_
  have same : ∀ e, t.link e = ((s.countLines a w n k).putSolve d x).link e := fun e => by rw [State.link, show t.links = _ from hs .links]; rfl
  refine ⟨⟨(same d).trans put.own, fun e ne => ?_⟩, fr⟩
  rw [same, put.others e ne, State.link, show (s.countLines a w n k).links = s.links from parts .links (by simp)]
  rfl

/-- A problem that ends without a result leaves the queue and fails the step (R263). -/
theorem completes_dropped {i : Instr} {p : LinkProb} {rest : List LinkProb} {code : Nat} {parity : Bool} (may : StepMayFail s)
    (queue : (s.link d).queue = p :: rest) (e : exec i s = finish s (s.dropProblem d code parity)) : Completes i s (fun t =>
      (t.link d).queue = rest ∧ (∀ e, e ≠ d → t.link e = s.link e) ∧ t.err.stepFailed = true ∧ Frame [.links, .err, .recorder] s t) := by
  rw [State.dropProblem, problem_of queue] at e
  have h := LinkAnd.modLink (ps := [.err, .recorder]) s d fun e =>
    { e with queue := e.queue.drop 1, parity := if parity then count 32 e.parity 1 else e.parity }
  have parts := modLink_parts s d fun e =>
    { e with queue := e.queue.drop 1, parity := if parity then count 32 e.parity 1 else e.parity }
  obtain ⟨report, failed, -⟩ := reportStep_spec (stepMayFail_congr may (parts .pitch (by simp)) (parts .err (by simp)) (parts .guy (by simp)))
    code (srcLink d) p.sched noCore
  refine (h.after report (by simp)).completes e fun t hs own others fr => ⟨?_, others, ?_, fr⟩
  · rw [own, queue]
    rfl
  · rw [show t.err = _ from hs .err]
    exact failed

end

/-! ## The end of a solve (R252, R259) -/

/-- The results of a solve are in memory. -/
theorem solved_memAnd (a : Nat) (l : List (Nat × List Byte)) (s : State) :
    MemAnd (l.foldl (fun m r => writeBytes m (a + r.1) r.2) s.mem) s (l.foldl (fun s w =>
      (s.storeAgent (a + w.1) w.2).countLines (a + w.1) true (w.2.length / 128 + 2) w.2.length) s) := by
  induction l generalizing s with
  | nil => exact MemAnd.refl s
  | cons w l ih =>
    have stored := storeAgent_mem s (a + w.1) w.2
    have counted := MemAnd.of_hbm (countLines_parts (s.storeAgent (a + w.1) w.2) (a + w.1) true (w.2.length / 128 + 2) w.2.length)
    rw [stored.1] at counted
    have one := stored.trans counted
    have more := ih ((s.storeAgent (a + w.1) w.2).countLines (a + w.1) true (w.2.length / 128 + 2) w.2.length)
    rw [one.1] at more
    exact one.trans more

/-- An engine after a solve that ended. -/
def LinkEngine.solvedWith (g : LinkEngine) (x : Solve) (e : SolveEnd) : LinkEngine :=
  { g with queue := g.queue.drop 1, solved := count 64 g.solved 1
           converged := count 64 g.converged (if e = .converged then 1 else 0)
           capped := count 64 g.capped (if e = .capped then 1 else 0)
           saturated := count 64 g.saturated (if e = .saturated then 1 else 0)
           clamps := count 64 g.clamps x.clamps, warmRejected := count 32 g.warmRejected (if x.warmRejected then 1 else 0) }

/-- The state after a solve that counts at no core. -/
def State.wrote (s : State) (d : Nat) (p : LinkProb) (sc : Schedule) (x : Solve) (e : SolveEnd) : State :=
  ((solveWrites sc x e).foldl (fun s w =>
    (s.storeAgent (p.addr + w.1) w.2).countLines (p.addr + w.1) true (w.2.length / 128 + 2) w.2.length) s).modLink d
      fun g => g.solvedWith x e

theorem finishSolve_eq (s : State) (d : Nat) (p : LinkProb) (sc : Schedule) (x : Solve) (e : SolveEnd) :
    s.finishSolve d p sc x e = match p.cnt with
      | some i => ((s.wrote d p sc x e).ingress p.core ⟨.none, (s.wrote d p sc x e).epoch, p.repoch, 0, [], none, some i, 0⟩).getD
          (s.wrote d p sc x e)
      | none => s.wrote d p sc x e := rfl

theorem wrote_spec (s : State) (d : Nat) (p : LinkProb) (sc : Schedule) (x : Solve) (e : SolveEnd) :
    LinkAnd [.mem, .harts, .hbm] d ((s.link d).solvedWith x e) s (s.wrote d p sc x e)
    ∧ (s.wrote d p sc x e).mem = (solveWrites sc x e).foldl (fun m r => writeBytes m (p.addr + r.1) r.2) s.mem
    ∧ ∀ h, (s.wrote d p sc x e).hart h = { s.hart h with resv := ((s.wrote d p sc x e).hart h).resv } := by
  obtain ⟨mem, harts, parts⟩ := solved_memAnd p.addr (solveWrites sc x e) s
  rw [State.wrote]
  generalize (solveWrites sc x e).foldl (fun s w =>
    (s.storeAgent (p.addr + w.1) w.2).countLines (p.addr + w.1) true (w.2.length / 128 + 2) w.2.length) s = u at *
  have links : u.links = s.links := parts .links (by simp)
  have put := LinkAnd.modLink (ps := [.mem, .harts, .hbm]) u d fun g => g.solvedWith x e
  rw [show u.link d = s.link d by rw [State.link, links]; rfl] at put
  refine ⟨LinkAnd.before parts (by simp) put, mem, fun h => ?_⟩
  obtain ⟨r, hr⟩ := harts h
  show u.hart h = { s.hart h with resv := (u.hart h).resv }
  rw [hr]

section
variable {s : State} {d : Nat} {p : LinkProb} {rest : List LinkProb} {x : Solve} {e : SolveEnd}

/-- The residual test of an engine, with room for its count (R261). -/
theorem exec_linkNorm (ck : s.clocked = true) (hd : d < 8) (queue : (s.link d).queue = p :: rest) (active : p.active = some x)
    (code : opCode ((s.schedule p).ops.getD x.pc 0) = 3) (room : p.cnt = none ∨ (s.core p.core).ingress.length < 32) :
    exec (.linkNorm d false) s = finish s
      (match (opNorm (s.schedule p) ((s.schedule p).ops.getD x.pc 0) x).2 with
      | some e => s.finishSolve d p (s.schedule p) (opNorm (s.schedule p) ((s.schedule p).ops.getD x.pc 0) x).1 e
      | none => s.putSolve d (solveNext (s.schedule p) (opNorm (s.schedule p) ((s.schedule p).ops.getD x.pc 0) x).1)) := by
  have u : exec (.linkNorm d false) s = execLinkNorm d false s := rfl
  rw [u, execLinkNorm, solving_of queue active code]
  exact (only_pos _ (decide_eq_true hd)).trans (act_pos _ ck (by rcases room with h | h <;> simp [h]))

/-- When the residual test ends a solve (R261). -/
def normEnds (sc : Schedule) (w : Nat) (x : Solve) (e : SolveEnd) : Prop :=
  normOf sc w x ≤ sc.tol ∧ e = .converged
  ∨ sc.tol < normOf sc w x ∧ x.iter = sc.cap ∧ x.saturatedFlag = true ∧ e = .saturated
  ∨ sc.tol < normOf sc w x ∧ x.iter = sc.cap ∧ x.saturatedFlag = false ∧ e = .capped

theorem opNorm_ends {sc : Schedule} {w : Nat} (h : normEnds sc w x e) : opNorm sc w x = ({ x with norm := normOf sc w x }, some e) := by
  rw [opNorm]
  rcases h with ⟨le, rfl⟩ | ⟨more, cap, flag, rfl⟩ | ⟨more, cap, flag, rfl⟩
  · rw [if_pos le]
  · rw [if_neg (Nat.not_le.2 more), if_pos cap, flag]
    rfl
  · rw [if_neg (Nat.not_le.2 more), if_pos cap, flag]
    rfl

theorem opNorm_goes {sc : Schedule} {w : Nat} (more : sc.tol < normOf sc w x) (iter : x.iter ≠ sc.cap) :
    opNorm sc w x = ({ x with norm := normOf sc w x }, none) := by
  rw [opNorm, if_neg (Nat.not_le.2 more), if_neg iter]

/-- A pivot below the threshold is clamped to it; its reciprocal is written through sat64 (R256). -/
theorem opPivot_spec (sc : Schedule) (w : Nat) (x : Solve) :
    let p0 := slotV x (opC w)
    let th := shiftInt 1 (63 + sc.thr)
    let p1 := if (p0.natAbs : Int) < th then (if p0 < 0 then -th else th) else p0
    let k := -(slotE sc (opC w)) - slotE sc (opD w)
    let r := fxSat (if 0 ≤ k then Int.fdiv (shiftInt 1 k) p1 else Int.fdiv 1 (p1 * shiftInt 1 (-k)))
    let y := opPivot sc w x
    y.v = (if (p0.natAbs : Int) < th then x.v.set (opC w) p1 else x.v).set (opD w) r.1
    ∧ y.clamps = x.clamps + (if (p0.natAbs : Int) < th then 1 else 0) ∧ y.sats = x.sats + (if r.2 then 1 else 0)
    ∧ y = { x with v := y.v, clamps := y.clamps, sats := y.sats, clampedFlag := x.clampedFlag || decide ((p0.natAbs : Int) < th)
                   saturatedFlag := x.saturatedFlag || r.2 } := by
  by_cases small : ((slotV x (opC w)).natAbs : Int) < shiftInt 1 (63 + sc.thr)
  · simp only [opPivot, slotWrite, small, decide_true, if_true, Bool.or_true, and_self]
  · simp only [opPivot, slotWrite, small, decide_false, if_false, Bool.or_false, Bool.false_eq_true, Nat.add_zero, and_self]

/-- A solve that ends writes its results and leaves the queue (R252, R259). -/
theorem completes_solved {i : Instr} (queue : (s.link d).queue = p :: rest) (uncounted : p.cnt = none) (sc : Schedule)
    (ex : exec i s = finish s (s.finishSolve d p sc x e)) : Completes i s (fun t =>
      t.mem = (solveWrites sc x e).foldl (fun m r => writeBytes m (p.addr + r.1) r.2) s.mem
      ∧ (t.link d).queue = rest ∧ (t.link d).solved = min ((s.link d).solved + 1) (2 ^ 64 - 1)
      ∧ (t.link d).converged = min ((s.link d).converged + (if e = .converged then 1 else 0)) (2 ^ 64 - 1)
      ∧ (∀ e, e ≠ d → t.link e = s.link e)
      ∧ (∀ h, t.hart h = { s.hart h with resv := (t.hart h).resv }) ∧ Frame [.links, .mem, .harts, .hbm] s t) := by
  obtain ⟨link, mem, harts⟩ := wrote_spec s d p sc x e
  rw [finishSolve_eq, uncounted] at ex
  refine link.completes ex fun t hs own others fr => ⟨(hs .mem).trans mem, ?_, ?_, ?_, others, fun h => ?_, fr⟩
  · rw [own, LinkEngine.solvedWith, queue]
    rfl
  · rw [own]
    rfl
  · rw [own]
    rfl
  · rw [State.hart_congr (hs .harts)]
    exact harts h

/-- Its count goes to its core (R252). -/
theorem completes_solvedCounted {i : Instr} {n : Nat} (queue : (s.link d).queue = p :: rest) (counted : p.cnt = some n) (sc : Schedule)
    (room : (s.core p.core).ingress.length < 32) (ex : exec i s = finish s (s.finishSolve d p sc x e)) : Completes i s (fun t =>
      (t.core p.core).ingress = (s.core p.core).ingress ++ [⟨.none, s.epoch, p.repoch, 0, [], none, some n, 0⟩]
      ∧ (t.link d).queue = rest ∧ OtherCores p.core s t ∧ Frame [.links, .mem, .harts, .hbm, .cores] s t) := by
  obtain ⟨link, -, -⟩ := wrote_spec s d p sc x e
  rw [finishSolve_eq, counted] at ex
  dsimp only at ex
  generalize s.wrote d p sc x e = u at *
  have epoch : u.epoch = s.epoch := by rw [State.epoch, State.epoch, show u.job = s.job from link.parts .job (by simp)]
  have cores : ∀ c, u.core c = s.core c := State.core_congr (link.parts .cores (by simp))
  rw [State.ingress, if_pos (by rw [cores]; exact room), Option.getD_some, epoch] at ex
  have put := CoreBecomes.modCore u p.core fun k =>
    { k with ingress := k.ingress ++ [(⟨.none, s.epoch, p.repoch, 0, [], none, some n, 0⟩ : Transfer)] }
  obtain ⟨own, other, parts⟩ := put
  have links : (u.modCore p.core fun k =>
    { k with ingress := k.ingress ++ [(⟨.none, s.epoch, p.repoch, 0, [], none, some n, 0⟩ : Transfer)] }).links = u.links := parts .links (by simp)
  refine completes_frame (l := [.links, .mem, .harts, .hbm, .cores]) ex
    (fun q m => Part.same_trans (link.parts q (Part.outside m)) (parts q (Part.outside m))) fun t hs fr => ⟨?_, ?_, fun c ne => ?_, fr⟩
  · rw [State.core_congr (hs .cores), own, cores]
  · rw [State.link, show t.links = _ from hs .links, links]
    exact (congrArg LinkEngine.queue link.own).trans (by rw [LinkEngine.solvedWith, queue]; rfl)
  · rw [State.core_congr (hs .cores), other c ne, cores]

end

end Sys2Proof.Machine
namespace Sys2Proof

open Machine

/-- Settles O49: problems queue, start from their block, go on operation by operation and end by the residual test. -/
theorem linkageEnginesSolve : Obligations.LinkageEnginesSolve := by
  intro s d ck hd
  dsimp only
  refine ⟨?_, fun p rest queue => ⟨fun idle => ?_, fun x w active code => ⟨fun op => ?_, fun op => ?_, fun op uncounted => ⟨fun more iter => ?_,
    fun e ends => ?_⟩, fun n op counted room le => ?_⟩, fun may i which => ?_⟩⟩
  · rintro c q rest hc rfl going queue op room
    exact completes_dmlink ck hc going queue op room
  · have e : exec (.problemStart d false) s = execProblemStart d false s := rfl
    rw [execProblemStart, problem_of queue] at e
    exact completes_started queue (e.trans ((only_pos _ (decide_eq_true hd)).trans (act_pos _ ck (by rw [idle]; rfl))))
  · have e : exec (.linkDot d false) s = execLinkDot d false s := rfl
    rw [execLinkDot, solving_of queue active (by rw [code]; exact op)] at e
    subst code
    exact completes_solve queue (e.trans ((only_pos _ (decide_eq_true hd)).trans (act_pos _ ck rfl)))
  · have e : exec (.linkPivot d false) s = execLinkPivot d false s := rfl
    rw [execLinkPivot, solving_of queue active (by rw [code]; exact op)] at e
    subst code
    obtain ⟨t, et, next, fr⟩ := completes_solve queue (e.trans ((only_pos _ (decide_eq_true hd)).trans (act_pos _ ck rfl)))
    obtain ⟨v, clamps, sats, all⟩ := opPivot_spec (s.schedule p) ((s.schedule p).ops.getD x.pc 0) x
    have pc : (opPivot (s.schedule p) ((s.schedule p).ops.getD x.pc 0) x).pc = x.pc := by rw [all]
    have iter : (opPivot (s.schedule p) ((s.schedule p).ops.getD x.pc 0) x).iter = x.iter := by rw [all]
    rw [solveNext, pc, iter] at next
    refine ⟨t, et, opPivot (s.schedule p) ((s.schedule p).ops.getD x.pc 0) x, ?_, v, clamps, sats, all, fr⟩
    rw [iter]
    exact next
  · have e := exec_linkNorm ck hd queue active (by rw [code]; exact op) (.inl uncounted)
    rw [code, opNorm_goes more iter] at e
    exact completes_solve queue e
  · have e := exec_linkNorm ck hd queue active (by rw [code]; exact op) (.inl uncounted)
    rw [code, opNorm_ends ends] at e
    exact completes_solved queue uncounted _ e
  · have e := exec_linkNorm ck hd queue active (by rw [code]; exact op) (.inr room)
    rw [code, opNorm_ends (.inl ⟨le, rfl⟩)] at e
    exact completes_solvedCounted queue counted _ room e
  · rcases which with ⟨rfl, idle⟩ | ⟨x, active, rfl | ⟨op, rfl⟩ | ⟨op, rfl⟩ | ⟨op, uncounted, rfl⟩⟩
    · have e : exec (.problemStart d true) s = execProblemStart d true s := rfl
      rw [execProblemStart, problem_of queue] at e
      exact completes_dropped may queue (e.trans ((only_pos _ (decide_eq_true hd)).trans (act_pos _ ck (by rw [idle]; rfl))))
    · have e : exec (.linkTimeout d) s = execLinkTimeout d s := rfl
      rw [execLinkTimeout, problem_of queue] at e
      exact completes_dropped may queue (e.trans ((only_pos _ (decide_eq_true hd)).trans (act_pos _ ck (by rw [active]; rfl))))
    · have e : exec (.linkDot d true) s = execLinkDot d true s := rfl
      rw [execLinkDot, solving_of queue active op] at e
      exact completes_dropped may queue (e.trans ((only_pos _ (decide_eq_true hd)).trans (act_pos _ ck rfl)))
    · have e : exec (.linkPivot d true) s = execLinkPivot d true s := rfl
      rw [execLinkPivot, solving_of queue active op] at e
      exact completes_dropped may queue (e.trans ((only_pos _ (decide_eq_true hd)).trans (act_pos _ ck rfl)))
    · have e : exec (.linkNorm d true) s = execLinkNorm d true s := rfl
      rw [execLinkNorm, solving_of queue active op] at e
      exact completes_dropped may queue (e.trans ((only_pos _ (decide_eq_true hd)).trans (act_pos _ ck (by rw [uncounted]; rfl))))

end Sys2Proof
end

section
/-!
Host and far ports: their links, PERST and configuration space (19, R407, R411, R412, R426; 9, R243 to R246).
-/
namespace Sys2Proof.Machine

open Sys2Proof

/-! ## One host port -/

theorem State.hp_modHp (s : State) (p : Nat) (f : HostPort → HostPort) : (s.modHp p f).hp p = f (s.hp p) := by
  rw [State.hp, State.modHp, State.hp]
  split <;> rfl

/-- A change of a host port changes its part alone. -/
theorem modHp_own (s : State) (p : Nat) (f : HostPort → HostPort) : ∀ q, q ∉ [hpPart p] → q.same s (s.modHp p f) := by
  intro q n
  rw [hpPart] at n
  rw [State.modHp]
  split at n
  · next zero =>
    rw [if_pos zero]
    cases q <;> simp_all [Part.same]
  · next other =>
    rw [if_neg other]
    cases q <;> simp_all [Part.same]

theorem quiet_of_same {s t : State} {p : Nat} (h : (hpPart p).same s t) : (t.hp p).quiet = (s.hp p).quiet := by
  rw [hpPart] at h
  rw [State.hp, State.hp]
  split at h
  · next zero => rw [if_pos zero, if_pos zero]; exact h
  · next other => rw [if_neg other, if_neg other]; exact h

theorem hp_congr {s t : State} {p : Nat} (h0 : t.hp0 = s.hp0) (h1 : t.hp1 = s.hp1) : t.hp p = s.hp p := by
  rw [State.hp, State.hp, h0, h1]

theorem put_own (s : State) (o : Output) : ∀ q, q ∉ [Part.out] → q.same s (s.put o) := by
  intro q n
  cases q <;> simp_all [Part.same]

theorem hpPart_ne {p : Nat} {q : Part} (h0 : q ≠ .hp0) (h1 : q ≠ .hp1) : q ≠ hpPart p := by
  rw [hpPart]
  split
  · exact h0
  · exact h1

/-- A command that changes one host port. -/
theorem completes_hp {i : Instr} {s : State} {p : Nat} {f : HostPort → HostPort} (e : exec i s = finish s (s.modHp p f)) :
    Completes i s (fun t => (t.hp p).quiet = (f (s.hp p)).quiet ∧ Frame [hpPart p] s t) :=
  completes_frame e (modHp_own s p f) fun t hs fr => ⟨by rw [quiet_of_same (hs (hpPart p)), State.hp_modHp], fr⟩

/-- What a command sends beside NOTIFYs. -/
theorem sends_of {s u t : State} {os : List Output} (put : u.out = s.out ++ os) (h : Part.out.same u t) : Sends os s t := by
  obtain ⟨l, out, all⟩ := h
  exact ⟨l, by rw [out, put], all⟩

/-- A command that sends one output. -/
theorem completes_put {i : Instr} {s : State} {o : Output} (e : exec i s = finish s (s.put o)) :
    Completes i s (fun t => Sends [o] s t ∧ Frame [.out] s t) :=
  completes_frame e (put_own s o) fun _ hs fr => ⟨sends_of rfl (hs .out), fr⟩

theorem State.out_modHp (s : State) (p : Nat) (f : HostPort → HostPort) : (s.modHp p f).out = s.out := by
  rw [State.modHp]
  split <;> rfl

/-- A command that changes one host port and sends one output. -/
theorem completes_hpPut {i : Instr} {s u : State} {p : Nat} {o : Output} (e : exec i s = finish s (u.put o)) (out : u.out = s.out)
    (parts : ∀ q, q ∉ [hpPart p] → q.same s u) :
    Completes i s (fun t => Sends [o] s t ∧ (t.hp p).quiet = (u.hp p).quiet ∧ Frame [.out, hpPart p] s t) := by
  refine completes_frame e (fun q n => Part.same_trans (parts q fun m => n (List.mem_cons_of_mem _ m)) (put_own u o q fun m => n ?_)) fun t hs fr =>
    ⟨sends_of (by rw [State.put_out, out]) (hs .out), ?_, fr⟩
  · rw [List.mem_singleton.1 m]
    exact List.mem_cons_self
  · rw [quiet_of_same (hs (hpPart p))]
    rfl

/-! ## PERST and the link (R407, R426) -/

theorem freeLock_locks (s : State) (l : AreaLock) : (s.freeLock l).dict.locks = s.dict.locks.filter (fun x => x.area != l.area)
    ∧ (s.freeLock l).dict.subs = s.dict.subs := by
  have kept : (s.event 0x0901 (srcPath l.owner) (l.area % 256 + l.owner.code * 2 ^ 8)).dict.service = s.dict.service :=
    event_parts s _ _ _ .service (by simp)
  have locks : (s.event 0x0901 (srcPath l.owner) (l.area % 256 + l.owner.code * 2 ^ 8)).dict.locks = s.dict.locks :=
    (congrArg (fun d : DictSt => d.locks) kept :)
  refine ⟨?_, (congrArg (fun d : DictSt => d.subs) kept :)⟩
  rw [State.freeLock]
  dsimp only
  rw [locks]

theorem service_parts (s : State) (d : DictSt) (vals : d.vals = s.dict.vals) (pend : d.pend = s.dict.pend) (snap : d.snap = s.dict.snap) :
    ∀ p, p ∉ [Part.service] → p.same s { s with dict := d } := by
  intro p n
  cases p <;> simp_all [Part.same]

theorem freeLock_parts (s : State) (l : AreaLock) : ∀ p, p ∉ [Part.service, .recorder] → p.same s (s.freeLock l) := by
  intro p n
  rw [State.freeLock]
  refine Part.same_trans (event_parts s 0x0901 (srcPath l.owner) (l.area % 256 + l.owner.code * 2 ^ 8) p (Part.outside n)) ?_
  refine service_parts _ _ ?_ ?_ ?_ p (Part.outside n) <;> rfl

theorem freeLocks_locks (ls : List AreaLock) (s : State) : (ls.foldl State.freeLock s).dict.locks
    = s.dict.locks.filter (fun x => ls.all fun l => x.area != l.area) ∧ (ls.foldl State.freeLock s).dict.subs = s.dict.subs := by
  induction ls generalizing s with
  | nil => exact ⟨(List.filter_eq_self.2 fun _ _ => rfl).symm, rfl⟩
  | cons l ls ih =>
    obtain ⟨locks, subs⟩ := freeLock_locks s l
    obtain ⟨more, kept⟩ := ih (s.freeLock l)
    refine ⟨?_, kept.trans subs⟩
    rw [List.foldl_cons, more, locks, List.filter_filter]
    simp only [List.all_cons, Bool.and_comm]

/-- The locks that are left when those of one owner have been freed. -/
theorem locks_left {ls : List AreaLock} {path : DictPath} {l : AreaLock} :
    l ∈ ls.filter (fun x => (ls.filter fun m => m.owner == path).all fun m => x.area != m.area)
      ↔ l ∈ ls ∧ ∀ m ∈ ls, m.owner = path → m.area ≠ l.area := by
  simp only [List.mem_filter, List.all_eq_true, bne_iff_ne, beq_iff_eq, and_imp, ne_eq]
  exact and_congr_right fun _ => forall_congr' fun m => forall_congr' fun _ => forall_congr' fun _ => not_congr eq_comm

/-- A path that goes loses its locks and subscriptions (R426). -/
def State.disowned (s : State) (path : DictPath) : State :=
  let t := (s.dict.locks.filter (fun l => l.owner == path)).foldl State.freeLock s
  { t with dict := { t.dict with subs := t.dict.subs.filter (fun x => x.path != path) } }

theorem disowned_parts (s : State) (path : DictPath) : ∀ q, q ∉ [Part.service, .recorder] → q.same s (s.disowned path) := by
  intro q n
  rw [State.disowned]
  refine Part.same_trans (foldl_parts freeLock_parts (s.dict.locks.filter fun l => l.owner == path) s q n) ?_
  refine service_parts _ _ ?_ ?_ ?_ q (Part.outside n) <;> rfl

section
variable {s : State} {p : Nat}

theorem exec_perstAssert (hp : p < 2) (ck : s.clocked = true) (out : (s.hp p).inPerst = false) : exec (.perstAssert p) s = finish s
    (if s.fetching p then
      ({ (s.disowned (pathOfPort p)).modHp p HostPort.perst with
         pitch := { ((s.disowned (pathOfPort p)).modHp p HostPort.perst).pitch with failSent := true } } : State).pitchFail 0x06 s.myRank
     else (s.disowned (pathOfPort p)).modHp p HostPort.perst) := by
  have u : exec (.perstAssert p) s = execPerstAssert p s := rfl
  rw [u, execPerstAssert]
  dsimp only
  rw [only_pos _ (decide_eq_true hp), if_neg (by rw [out]; simp), if_pos ck]
  rfl

/-- A port that PERST has been asserted at, in a state whose requests, locks and subscriptions `s` had (R426). -/
structure Perst (p : Nat) (s t : State) : Prop where
  quiet : (t.hp p).quiet = (HostPort.perst (s.hp p)).quiet
  subs : t.dict.subs = s.dict.subs.filter (fun x => x.path != pathOfPort p)
  locks : t.dict.locks = s.dict.locks.filter (fun x => (s.dict.locks.filter fun l => l.owner == pathOfPort p).all fun l => x.area != l.area)

theorem perst_disowned (s : State) (p : Nat) : Perst p s ((s.disowned (pathOfPort p)).modHp p HostPort.perst) := by
  obtain ⟨locks, subs⟩ := freeLocks_locks (s.dict.locks.filter fun l => l.owner == pathOfPort p) s
  have dict : ((s.disowned (pathOfPort p)).modHp p HostPort.perst).dict = (s.disowned (pathOfPort p)).dict := by
    simp
  have quiet := quiet_of_same (disowned_parts s (pathOfPort p) (hpPart p) (by rw [hpPart]; split <;> simp))
  refine ⟨?_, ?_, ?_⟩
  · rw [State.hp_modHp]
    show (HostPort.perst ((s.disowned (pathOfPort p)).hp p).quiet).quiet = (HostPort.perst (s.hp p).quiet).quiet
    rw [quiet]
  · rw [dict, State.disowned]
    dsimp only
    rw [subs]
  · rw [dict]
    exact locks

theorem perst_parts (s : State) (p : Nat) : ∀ q, q ∉ [hpPart p, .service, .recorder] →
    q.same s ((s.disowned (pathOfPort p)).modHp p HostPort.perst) := fun q n =>
  Part.same_trans (disowned_parts s _ q fun m => n (List.mem_cons_of_mem _ m)) (modHp_own _ p _ q fun m => n (by
    rw [List.mem_singleton.1 m]
    exact List.mem_cons_self))

theorem Perst.congr {t u : State} (h : Perst p s t) (same : ∀ q ∈ [hpPart p, .service], q.same t u) : Perst p s u := by
  have service : u.dict.service = t.dict.service := same .service (by simp)
  exact ⟨(quiet_of_same (same (hpPart p) (by simp))).trans h.quiet, (congrArg (fun d : DictSt => d.subs) service :).trans h.subs,
    (congrArg (fun d : DictSt => d.locks) service :).trans h.locks⟩

/-- A root that aborts a pitch touches what a strike may. -/
theorem rootAbort_parts (s : State) (reason rank : Nat) : ∀ q, q ∉ strikeParts → q.same s (s.rootAbort reason rank) := by
  intro q n
  have noted := pitch_parts s { s.pitch with reason := reason, resultRank := rank, resultJob := s.recF 6 2 } q (Part.outside n)
  unfold State.rootAbort
  dsimp only
  split
  · exact Part.same_trans noted (Part.same_trans (sendStrike_parts _ 6 q (Part.outside n)) (strikeSelf_parts _ 6 q n))
  · refine Part.same_trans noted (Part.same_trans ?_ (beginReset_parts _ _ _ q (Part.outside n)))
    exact foldl_parts (fun u r => sendPitch_parts u 7 0 0 0 r []) _ _ q (Part.outside n)

/-- PERST at the root while the image of a pitch comes through the port: the pitch is aborted (R348, R426). -/
theorem completes_perstRoot (hp : p < 2) (ck : s.clocked = true) (out : (s.hp p).inPerst = false) (fetching : s.fetching p = true)
    (root : s.myRank = 0) : Completes (.perstAssert p) s (Perst p s) := by
  have e := exec_perstAssert hp ck out
  have left := perst_disowned s p
  have parts := perst_parts s p
  rw [if_pos fetching] at e
  generalize (s.disowned (pathOfPort p)).modHp p HostPort.perst = u at *
  have jobs : u.job = s.job := parts .job (by simp [hpPart_ne (p := p) (q := .job) nofun nofun])
  have fab : u.fab = s.fab := parts .fab (by simp [hpPart_ne (p := p) (q := .fab) nofun nofun])
  have mine : ({ u with pitch := { u.pitch with failSent := true } } : State).myRank = s.myRank := by
    rw [State.myRank, State.myRank, jobs, fab]
  rw [State.pitchFail, if_pos (by rw [mine]; exact root)] at e
  have abort := rootAbort_parts ({ u with pitch := { u.pitch with failSent := true } } : State) 0x06 s.myRank
  refine completes_of e fun t _ hs => left.congr fun q m => ?_
  have far : q ∉ strikeParts := by
    simp only [List.mem_cons, List.not_mem_nil, or_false] at m
    rcases m with rfl | rfl
    · rw [hpPart]; split <;> decide
    · decide
  exact Part.same_trans (Part.same_trans (pitch_parts u _ q (Part.outside far)) (abort q far)) (hs q)

/-- What PERST leaves of a port, its requests and its path. -/
theorem Perst.spec {t : State} (h : Perst p s t) :
    (t.hp p).inPerst = true ∧ (t.hp p).link = .down ∧ (t.hp p).perstCount = min ((s.hp p).perstCount + 1) (2 ^ 32 - 1)
    ∧ (t.hp p).cfg = [] ∧ (t.hp p).msixEnable = false ∧ (t.hp p).d3hot = false ∧ (t.hp p).lost = (s.hp p).busy
    ∧ (∀ off len bad, .read off len bad ∉ (t.hp p).held) ∧ (∀ off bs, .write off bs ∈ (t.hp p).held ↔ .write off bs ∈ (s.hp p).held)
    ∧ (∀ l ∈ t.dict.locks, l ∈ s.dict.locks ∧ l.owner ≠ pathOfPort p)
    ∧ (∀ l ∈ s.dict.locks, (∀ m ∈ s.dict.locks, m.owner = pathOfPort p → m.area ≠ l.area) → l ∈ t.dict.locks) := by
  have held : (t.hp p).held = (HostPort.perst (s.hp p)).held := (congrArg HostPort.held h.quiet :)
  refine ⟨(congrArg HostPort.inPerst h.quiet :), (congrArg HostPort.link h.quiet :), (congrArg HostPort.perstCount h.quiet :),
    (congrArg HostPort.cfg h.quiet :), (congrArg HostPort.msixEnable h.quiet :), (congrArg HostPort.d3hot h.quiet :),
    (congrArg HostPort.lost h.quiet :), fun off len bad => ?_, fun off bs => ?_, fun l m => ?_, fun l m free => ?_⟩
  · rw [held]
    exact fun m => absurd (List.mem_filter.1 m).2 nofun
  · rw [held]
    exact List.mem_filter.trans (and_iff_left rfl)
  · rw [h.locks, locks_left] at m
    exact ⟨m.1, fun own => m.2 l m.1 own rfl⟩
  · rw [h.locks, locks_left]
    exact ⟨m, free⟩

/-- PERST while no image comes through the port. -/
theorem completes_perst (hp : p < 2) (ck : s.clocked = true) (out : (s.hp p).inPerst = false) (idle : s.fetching p = false) :
    Completes (.perstAssert p) s (fun t => Perst p s t ∧ Frame [hpPart p, .service, .recorder] s t) := by
  have e := exec_perstAssert hp ck out
  rw [if_neg (by rw [idle]; simp)] at e
  exact completes_frame e (perst_parts s p) fun t hs fr => ⟨(perst_disowned s p).congr fun q _ => hs q, fr⟩

/-- PERST while the image of a pitch comes through the port: FAIL with IMAGE_FETCH goes up (R426). -/
theorem completes_perstFetching (hp : p < 2) (ck : s.clocked = true) (out : (s.hp p).inPerst = false) (fetching : s.fetching p = true)
    (low : s.myRank ≠ 0) : Completes (.perstAssert p) s (fun t => Perst p s t ∧ t.pitch = { s.pitch with failSent := true }
      ∧ t.fab = (s.sendPitch 6 0x06 s.myRank 0 (parentOf s.myRank) []).fab ∧ Frame [hpPart p, .service, .recorder, .pitch, .fab] s t) := by
  have e := exec_perstAssert hp ck out
  have left := perst_disowned s p
  have parts := perst_parts s p
  rw [if_pos fetching] at e
  generalize (s.disowned (pathOfPort p)).modHp p HostPort.perst = u at *
  have other : ∀ q : Part, q ≠ .hp0 → q ≠ .hp1 → q ≠ .service → q ≠ .recorder → q.same s u := fun q h0 h1 h2 h3 =>
    parts q (by simp [hpPart_ne h0 h1, h2, h3])
  have jobs : u.job = s.job := other .job nofun nofun nofun nofun
  have fab : u.fab = s.fab := other .fab nofun nofun nofun nofun
  have pitch : u.pitch = s.pitch := other .pitch nofun nofun nofun nofun
  have rp : u.rp = s.rp := other .rp nofun nofun nofun nofun
  have mine : ({ u with pitch := { u.pitch with failSent := true } } : State).myRank = s.myRank := by
    rw [State.myRank, State.myRank, jobs, fab]
  rw [pitchFail_below (by rw [mine]; exact low), mine] at e
  have alike : PitchAlike s ({ u with pitch := { u.pitch with failSent := true } } : State) :=
    ⟨⟨fab, jobs, by rw [State.now, State.now, rp], (other .settings nofun nofun nofun nofun).1⟩, by rw [pitch]⟩
  have sent := sendPitch_parts ({ u with pitch := { u.pitch with failSent := true } } : State) 6 0x06 s.myRank 0 (parentOf s.myRank) []
  have all : ∀ q, q ∉ [Part.pitch, .fab, .recorder] → q.same u _ := fun q n =>
    Part.same_trans (pitch_parts u _ q (Part.outside n)) (sent q (Part.outside n))
  refine completes_frame (l := [hpPart p, .service, .recorder, .pitch, .fab]) e (fun q n => ?_) fun t hs fr => ⟨?_, ?_, ?_, fr⟩
  · refine Part.same_trans (parts q fun m => n ?_) (all q fun m => n ?_)
    · exact List.mem_append_left [Part.pitch, .fab] m
    · simp only [List.mem_cons, List.not_mem_nil, or_false] at m
      rcases m with rfl | rfl | rfl <;> simp
  · exact left.congr fun q m => Part.same_trans (all q (by
      simp only [List.mem_cons, List.not_mem_nil, or_false] at m
      rcases m with rfl | rfl
      · rw [hpPart]; split <;> simp
      · simp)) (hs q)
  · exact (hs .pitch).trans ((sent .pitch (by simp)).trans (by rw [← pitch]))
  · exact (hs .fab).trans (alike.sendPitch 6 0x06 s.myRank 0 (parentOf s.myRank) []).fab

end

/-! ## Configuration space (R407, R411, R412) -/

section
variable {s : State} {p : Nat}

theorem exec_configRequest {req : CfgReq} (hp : p < 2) (ck : s.clocked = true) (out : (s.hp p).inPerst = false)
    (up : (s.hp p).link = .up) : exec (.configRequest p req) s = finish s
      (if s.start.phase = .ready ∨ s.start.phase = .fault then s.configure p req else s.put (.configRetry p)) := by
  have u : exec (.configRequest p req) s = execConfigRequest p req s := rfl
  rw [u, execConfigRequest]
  exact (only_pos _ (decide_eq_true hp)).trans (act_pos _ ck (by rw [out, up]; rfl))

/-- The byte that a host's write leaves in configuration space: the bits of its mask. -/
def State.cfgMasked (s : State) (p i : Nat) (b : Byte) : Byte :=
  (s.cfgByte p i &&& ~~~(cfgMask (s.hp p).bar2Enc i)) ||| (b &&& cfgMask (s.hp p).bar2Enc i)

theorem cfgByte_congr {s t : State} {p : Nat} (quiet : (t.hp p).quiet = (s.hp p).quiet) (i : Nat) : t.cfgByte p i = s.cfgByte p i := by
  have cfg : (t.hp p).cfg = (s.hp p).cfg := (congrArg HostPort.cfg quiet :)
  rw [State.cfgByte, State.cfgByte, cfg]

theorem cfgWrite_spec (s : State) (p : Nat) (x : Nat × Byte) : (∀ q, q ∉ [hpPart p] → q.same s (State.cfgWrite p s x))
    ∧ (State.cfgWrite p s x).out = s.out ∧ ((State.cfgWrite p s x).hp p).bar2Enc = (s.hp p).bar2Enc
    ∧ ∀ i, (State.cfgWrite p s x).cfgByte p i = if i = x.1 then s.cfgMasked p x.1 x.2 else s.cfgByte p i := by
  unfold State.cfgWrite
  refine ⟨modHp_own s p _, State.out_modHp s p _, by rw [State.hp_modHp], fun i => ?_⟩
  rw [State.cfgByte, State.hp_modHp, readByte_writeByte]
  split
  · next same =>
    rw [same, BitVec.xor_comm (cfgReset p x.1), BitVec.xor_assoc, BitVec.xor_self, BitVec.xor_zero]
    rfl
  · rfl

/-- Bytes written one after the other from an offset on. -/
theorem cfgWrites_spec (off : Nat) (bs : List Byte) (k : Nat) (s : State) (p : Nat) :
    let t := ((List.range' k bs.length).zip bs).foldl (fun s e => State.cfgWrite p s (off + e.1, e.2)) s
    (∀ q, q ∉ [hpPart p] → q.same s t) ∧ t.out = s.out ∧ (t.hp p).bar2Enc = (s.hp p).bar2Enc
    ∧ ∀ i, t.cfgByte p i = if off + k ≤ i ∧ i < off + k + bs.length then s.cfgMasked p i (bs.getD (i - (off + k)) 0) else s.cfgByte p i := by
  induction bs generalizing k s with
  | nil => exact ⟨fun q _ => q.same_refl s, rfl, rfl, fun i => (if_neg (by simp)).symm⟩
  | cons b bs ih =>
    obtain ⟨parts, out, enc, byte⟩ := cfgWrite_spec s p (off + k, b)
    obtain ⟨parts', out', enc', byte'⟩ := ih (k + 1) (State.cfgWrite p s (off + k, b))
    rw [List.length_cons, List.range'_succ, List.zip_cons_cons, List.foldl_cons]
    refine ⟨fun q n => Part.same_trans (parts q n) (parts' q n), out'.trans out, enc'.trans enc, fun i => ?_⟩
    rw [byte']
    by_cases first : i = off + k
    · rw [if_neg (by omega), byte, if_pos first, if_pos (by omega), first]
      simp
    · by_cases more : off + k ≤ i ∧ i < off + k + (bs.length + 1)
      · rw [if_pos (by omega), if_pos more, State.cfgMasked, byte, if_neg first, enc, State.cfgMasked,
          show i - (off + k) = i - (off + (k + 1)) + 1 by omega, List.getD_cons_succ]
      · rw [if_neg (by omega), if_neg more, byte, if_neg first]

end

/-! ## MSI-X messages that go out (R417, R418) -/

/-- NOTIFYs raise vector 1 alone. -/
def PbaKept (s t : State) : Prop := ∀ p v, v ≠ 1 → nget false (t.hp p).pba v = nget false (s.hp p).pba v

theorem PbaKept.trans {s t u : State} (h : PbaKept s t) (k : PbaKept t u) : PbaKept s u := fun p v n => (k p v n).trans (h p v n)

theorem PbaKept.modHp (s : State) (p : Nat) {f : HostPort → HostPort} (keeps : ∀ h v, v ≠ 1 → nget false (f h).pba v = nget false h.pba v) :
    PbaKept s (s.modHp p f) := by
  intro q v n
  rw [State.modHp, State.hp, State.hp]
  split
  · split
    · exact keeps _ v n
    · rfl
  · split
    · rfl
    · exact keeps _ v n

theorem PbaKept.msix (s : State) (p : Nat) : PbaKept s (s.msix p 1) := by
  unfold State.msix
  dsimp only
  repeat' split
  · exact fun _ _ _ => rfl
  · exact PbaKept.modHp s p fun h v n => nget_nset_ne false true h.pba n
  · exact fun _ _ _ => rfl

theorem PbaKept.sendNotify (s : State) (x : Subscription) : PbaKept s (s.sendNotify x) := by
  have tag : PbaKept s (s.nextTag x.path).2 := fun _ _ _ => rfl
  unfold State.sendNotify
  dsimp only
  repeat' split
  all_goals first
    | exact tag
    | (refine tag.trans (PbaKept.modHp _ _ ?_); exact fun _ _ _ => rfl)
    | (refine (tag.trans (PbaKept.modHp _ _ ?_)).trans (PbaKept.msix _ _); exact fun _ _ _ => rfl)

theorem PbaKept.notifyLoop (s0 : State) (l : List Subscription) (s : State) : PbaKept s (notifyLoop s0 l s) := by
  induction l generalizing s with
  | nil => exact fun _ _ _ => rfl
  | cons x xs ih =>
    rw [Machine.notifyLoop]
    split
    · exact ih s
    · exact (PbaKept.sendNotify s x).trans (ih _)

/-- A command completes, and its NOTIFYs leave the pending bits of every vector but 1. -/
theorem completes_pba {i : Instr} {s u : State} {l : List Part} {Q : State → Prop} (e : exec i s = finish s u)
    (f : ∀ p, p ∉ l → p.same s u) (k : ∀ t, (∀ q : Part, q.same u t) → PbaKept u t → Frame l s t → Q t) : Completes i s Q := by
  obtain ⟨t, et, hp, hs⟩ := finish_spec s u
  refine ⟨t, e.trans et, k t hs ?_ (frame_of f hp hs)⟩
  cases et
  exact PbaKept.notifyLoop s _ u

/-- Pending messages of a port that have gone out: of the vectors `l` those that no mask holds, and no other. -/
structure Flushed (p : Nat) (l : List Nat) (s t : State) : Prop where
  parts : ∀ q, q ∉ [Part.out, hpPart p] → q.same s t
  quiet : (t.hp p).quiet = (s.hp p).quiet
  out : ∃ o, t.out = s.out ++ o ∧ ∀ x ∈ o, ∃ v a d, x = .msix p v a d
  cleared : ∀ v, nget false (s.hp p).pba v = false → nget false (t.hp p).pba v = false
  gone : ∀ v ∈ l, (s.hp p).masked v = false → nget false (t.hp p).pba v = false ∧ ∃ a d, .msix p v a d ∈ t.out

theorem Flushed.refl (p : Nat) (s : State) : Flushed p [] s s :=
  ⟨fun q _ => q.same_refl s, rfl, ⟨[], by simp, nofun⟩, fun _ h => h, nofun⟩

section
variable {s t : State} {p : Nat}

theorem masked_congr {h k : HostPort} (q : k.quiet = h.quiet) (v : Nat) : k.masked v = h.masked v := by
  show k.quiet.masked v = h.quiet.masked v
  rw [q]

/-- An enabled vector that no mask holds is sent. -/
theorem msix_sends {v : Nat} (on : (s.hp p).msixEnable = true) (out : (s.hp p).inPerst = false) (all : (s.hp p).msixMaskAll = false)
    (free : (s.hp p).masked v = false) : ∃ a d, s.msix p v = s.put (.msix p v a d) := by
  refine ⟨readN (s.hp p).msix (16 * v) 8, readN (s.hp p).msix (16 * v + 8) 4, ?_⟩
  rw [State.msix, if_neg (by simp [on, out]), if_neg (by simp [all, free])]

theorem Flushed.cons {v : Nat} {l : List Nat} {u : State} (h : Flushed p [v] s t) (k : Flushed p l t u) : Flushed p (v :: l) s u := by
  obtain ⟨o, out, msgs⟩ := h.out
  obtain ⟨o', out', msgs'⟩ := k.out
  refine ⟨fun q n => Part.same_trans (h.parts q n) (k.parts q n), k.quiet.trans h.quiet, ⟨o ++ o', ?_, fun x m => ?_⟩,
    fun w z => k.cleared w (h.cleared w z), fun w m free => ?_⟩
  · rw [out', out, List.append_assoc]
  · exact (List.mem_append.1 m).elim (msgs x) (msgs' x)
  · rcases List.mem_cons.1 m with rfl | m
    · obtain ⟨zero, a, d, sent⟩ := h.gone w (List.mem_singleton_self w) free
      exact ⟨k.cleared w zero, a, d, by rw [out']; exact List.mem_append_left _ sent⟩
    · exact k.gone w m (by rw [masked_congr h.quiet]; exact free)

/-- One pending vector of an enabled port. -/
theorem Flushed.one (v : Nat) (on : (s.hp p).msixEnable = true) (out : (s.hp p).inPerst = false) (all : (s.hp p).msixMaskAll = false) :
    Flushed p [v] s (if (s.hp p).masked v then s
      else (s.modHp p (fun h => { h with pba := nset false h.pba v false })).msix p v) := by
  split
  · next held => exact ⟨fun q _ => q.same_refl s, rfl, ⟨[], by simp, nofun⟩, fun _ h => h, fun w m free => by
      rw [List.mem_singleton.1 m, held] at free
      cases free⟩
  · next free =>
    have cleared := State.hp_modHp s p (fun h => { h with pba := nset false h.pba v false })
    obtain ⟨a, d, send⟩ := msix_sends (s := s.modHp p fun h => { h with pba := nset false h.pba v false }) (p := p) (v := v)
      (by rw [cleared]; exact on) (by rw [cleared]; exact out) (by rw [cleared]; exact all) (by rw [cleared]; exact Bool.eq_false_iff.2 free)
    rw [send]
    have own : ((s.modHp p (fun h => { h with pba := nset false h.pba v false })).put (.msix p v a d)).hp p
        = { s.hp p with pba := nset false (s.hp p).pba v false } := State.hp_modHp s p _
    refine ⟨fun q n => ?_, by rw [own]; rfl, ⟨[.msix p v a d], ?_, fun x m => ⟨v, a, d, List.mem_singleton.1 m⟩⟩, fun w z => ?_, fun w m _ => ?_⟩
    · exact Part.same_trans (modHp_own s p _ q fun m => n (List.mem_cons_of_mem _ m)) (put_own _ _ q fun m => n (by
        rw [List.mem_singleton.1 m]
        exact List.mem_cons_self))
    · rw [State.put_out, State.out_modHp]
    · rw [own, nget_nset]
      split
      · rfl
      · exact z
    · rw [List.mem_singleton.1 m, own]
      exact ⟨nget_nset_same false false _ v, a, d, by simp⟩

theorem Flushed.all (l : List Nat) (on : (s.hp p).msixEnable = true) (out : (s.hp p).inPerst = false) (all : (s.hp p).msixMaskAll = false) :
    Flushed p l s (l.foldl (fun s v => if (s.hp p).masked v then s
      else (s.modHp p (fun h => { h with pba := nset false h.pba v false })).msix p v) s) := by
  induction l generalizing s with
  | nil => exact Flushed.refl p s
  | cons v l ih =>
    have one := Flushed.one v on out all
    exact one.cons (ih ((congrArg HostPort.msixEnable one.quiet :).trans on) ((congrArg HostPort.inPerst one.quiet :).trans out)
      ((congrArg HostPort.msixMaskAll one.quiet :).trans all))

theorem msixFlush_flushed (out : (s.hp p).inPerst = false) : ∃ l, Flushed p l s (s.msixFlush p)
    ∧ ((s.hp p).msixEnable = true → (s.hp p).msixMaskAll = false → ∀ v, nget false (s.hp p).pba v = true → v ∈ l) := by
  unfold State.msixFlush
  dsimp only
  split
  · next off =>
    refine ⟨[], Flushed.refl p s, fun on all => ?_⟩
    rw [on, all] at off
    cases off
  · next on =>
    rw [Bool.or_eq_true, not_or, Bool.not_eq_true', Bool.not_eq_false, Bool.not_eq_true] at on
    refine ⟨_, Flushed.all _ on.1 out on.2, fun _ _ v pending => ?_⟩
    apply Classical.byContradiction
    intro no
    rw [nget_unlisted (fun any => no ?_)] at pending
    · cases pending
    · obtain ⟨e, m, same⟩ := List.any_eq_true.1 any
      exact List.mem_map.2 ⟨e, m, beq_iff_eq.1 same⟩

/-- A host enables vectors: the messages that wait on an unmasked one go out (R417, R418). -/
theorem completes_msixEnable {i : Instr} {en all : Bool} (out : (s.hp p).inPerst = false)
    (e : exec i s = finish s (((s.modHp p (fun h => { h with msixEnable := en, msixMaskAll := all })).put (.configDone p)).msixFlush p)) :
    Completes i s (fun t => (t.hp p).quiet = { (s.hp p).quiet with msixEnable := en, msixMaskAll := all }
      ∧ (∃ l, t.out = s.out ++ .configDone p :: l ∧ ∀ o ∈ l, o.isNotify = true ∨ ∃ v a d, o = .msix p v a d)
      ∧ (∀ v, en = true → all = false → v ≠ 1 → nget false (s.hp p).pba v = true → (s.hp p).masked v = false →
        nget false (t.hp p).pba v = false ∧ ∃ a d, .msix p v a d ∈ t.out) ∧ Frame [.out, hpPart p] s t) := by
  have own := State.hp_modHp s p fun h => { h with msixEnable := en, msixMaskAll := all }
  have before : ∀ q, q ∉ [Part.out, hpPart p] → q.same s ((s.modHp p fun h => { h with msixEnable := en, msixMaskAll := all }).put (.configDone p)) :=
    fun q n => Part.same_trans (modHp_own s p _ q fun m => n (List.mem_cons_of_mem _ m)) (put_own _ _ q fun m => n (by
      rw [List.mem_singleton.1 m]
      exact List.mem_cons_self))
  have outs : ((s.modHp p fun h => { h with msixEnable := en, msixMaskAll := all }).put (.configDone p)).out = s.out ++ [.configDone p] := by
    rw [State.put_out, State.out_modHp]
  have hpu : ((s.modHp p fun h => { h with msixEnable := en, msixMaskAll := all }).put (.configDone p)).hp p
      = { s.hp p with msixEnable := en, msixMaskAll := all } := own
  generalize (s.modHp p fun h => { h with msixEnable := en, msixMaskAll := all }).put (.configDone p) = u at *
  obtain ⟨l, flushed, pending⟩ := msixFlush_flushed (s := u) (p := p) (by rw [hpu]; exact out)
  obtain ⟨o, sent, msgs⟩ := flushed.out
  refine completes_pba e (fun q n => Part.same_trans (before q n) (flushed.parts q n)) fun t hs kept fr => ?_
  obtain ⟨n, all_out, notify⟩ : Part.out.same _ t := hs .out
  refine ⟨?_, ⟨o ++ n, ?_, fun x m => ?_⟩, fun v on off other waits free => ?_, fr⟩
  · rw [quiet_of_same (hs (hpPart p)), flushed.quiet, hpu]
    rfl
  · rw [all_out, sent, outs]
    simp
  · exact (List.mem_append.1 m).elim (fun m => .inr (msgs x m)) fun m => .inl (List.all_eq_true.1 notify x m)
  · obtain ⟨zero, a, d, m⟩ := flushed.gone v (pending (by rw [hpu]; exact on) (by rw [hpu]; exact off) v (by rw [hpu]; exact waits))
      (by rw [hpu]; exact free)
    exact ⟨(kept p v other).trans zero, a, d, by rw [all_out]; exact List.mem_append_left _ m⟩

end

/-! ## Far ports (R243, R244, R246) -/

section
variable {s : State} {p : Nat}

theorem State.far_modFar (s : State) (p : Nat) (f : FarPort → FarPort) : (s.modFar p f).far p = f (s.far p) := by
  rw [State.far, State.modFar, State.far]
  split <;> rfl

theorem modFar_own (s : State) (p : Nat) (f : FarPort → FarPort) : ∀ q, q ∉ [farPart p] → q.same s (s.modFar p f) := by
  intro q n
  rw [farPart] at n
  rw [State.modFar]
  split at n
  · next zero =>
    rw [if_pos zero]
    cases q <;> simp_all [Part.same]
  · next other =>
    rw [if_neg other]
    cases q <;> simp_all [Part.same]

theorem far_of_same {s t : State} (h : (farPart p).same s t) : t.far p = s.far p := by
  rw [farPart] at h
  rw [State.far, State.far]
  split at h
  · next zero => rw [if_pos zero, if_pos zero]; exact h
  · next other => rw [if_neg other, if_neg other]; exact h

theorem farPart_ne {q : Part} (h0 : q ≠ .far0) (h1 : q ≠ .far1) : q ≠ farPart p := by
  rw [farPart]
  split
  · exact h0
  · exact h1

theorem completes_farLinkUp {rate device : Nat} (ck : s.clocked = true) (hp : p < 2) (down : (s.far p).link ≠ 2) (hrate : rate < 256)
    (hdev : device < 2 ^ 64) : Completes (.farLinkUp p rate device) s (fun t =>
      t.far p = { s.far p with link := 2, rate := rate, device := device } ∧ Frame [farPart p] s t) := by
  have u : exec (.farLinkUp p rate device) s = execFarLinkUp p rate device s := rfl
  rw [execFarLinkUp, only_pos _ (decide_eq_true hp), act_pos _ ck (by simpa using down), Nat.mod_eq_of_lt hrate,
    Nat.mod_eq_of_lt hdev] at u
  exact completes_frame u (modFar_own s p _) fun t hs fr => ⟨by rw [far_of_same (hs (farPart p)), State.far_modFar], fr⟩

theorem exec_farLinkDown (ck : s.clocked = true) (hp : p < 2) (up : (s.far p).link = 2) : exec (.farLinkDown p) s
    = finish s ((s.modFar p (fun f => { f with link := 0, rate := 0 })).reportStep 0x0204 (srcFar p) 0 noCore) := by
  have u : exec (.farLinkDown p) s = execFarLinkDown p s := rfl
  rw [u, execFarLinkDown, only_pos _ (decide_eq_true hp), act_pos _ ck (by simpa using up)]

theorem completes_farLinkDown (ck : s.clocked = true) (hp : p < 2) (up : (s.far p).link = 2) (may : StepMayFail s) :
    Completes (.farLinkDown p) s (fun t =>
      t.far p = { s.far p with link := 0, rate := 0 } ∧ t.err.stepFailed = true ∧ Frame [farPart p, .err, .recorder] s t) := by
  have e := exec_farLinkDown ck hp up
  have own := modFar_own s p fun f => { f with link := 0, rate := 0 }
  have kept : ∀ q : Part, q ≠ .far0 → q ≠ .far1 → q.same s (s.modFar p fun f => { f with link := 0, rate := 0 }) := fun q h0 h1 =>
    own q fun m => farPart_ne h0 h1 (List.mem_singleton.1 m)
  have may' : StepMayFail (s.modFar p fun f => { f with link := 0, rate := 0 }) :=
    stepMayFail_congr may (kept .pitch nofun nofun) (kept .err nofun nofun) (kept .guy nofun nofun)
  obtain ⟨parts, failed, -⟩ := reportStep_spec may' 0x0204 (srcFar p) 0 noCore
  refine completes_frame (l := [farPart p, .err, .recorder]) e (fun q n => Part.same_trans (own q fun m => n ?_) (parts q fun m => n ?_))
    fun t hs fr => ⟨?_, ?_, fr⟩
  · rw [List.mem_singleton.1 m]
    exact List.mem_cons_self
  · exact List.mem_cons_of_mem _ m
  · rw [far_of_same (hs (farPart p)), far_of_same (parts (farPart p) (by rw [farPart]; split <;> simp)), State.far_modFar]
  · rw [show t.err = _ from hs .err]
    exact failed

/-- Without a job the loss of a far port is recorded and no more. -/
theorem completes_farLinkDownIdle (ck : s.clocked = true) (hp : p < 2) (up : (s.far p).link = 2) (idle : s.pitch.st = .idle)
    (calm : s.err.st ≠ 5) : Completes (.farLinkDown p) s (fun t =>
      t.far p = { s.far p with link := 0, rate := 0 } ∧ Frame [farPart p, .recorder] s t) := by
  have e := exec_farLinkDown ck hp up
  have own := modFar_own s p fun f => { f with link := 0, rate := 0 }
  have kept : ∀ q : Part, q ≠ .far0 → q ≠ .far1 → q.same s (s.modFar p fun f => { f with link := 0, rate := 0 }) := fun q h0 h1 =>
    own q fun m => farPart_ne h0 h1 (List.mem_singleton.1 m)
  have event := event_parts (s.modFar p fun f => { f with link := 0, rate := 0 }) 0x0204 (srcFar p) 0
  have err : ((s.modFar p fun f => { f with link := 0, rate := 0 }).event 0x0204 (srcFar p) 0).err = s.err :=
    Part.same_trans (kept .err nofun nofun) (event .err (by simp))
  rw [State.reportStep, State.stepError, if_neg (by simpa [State.striking, err] using calm), if_neg (by simp [State.pitching, idle]),
    if_pos (by simp [idle])] at e
  refine completes_frame (l := [farPart p, .recorder]) e (fun q n => Part.same_trans (own q fun m => n ?_) (event q fun m => n ?_))
    fun t hs fr => ⟨?_, fr⟩
  · rw [List.mem_singleton.1 m]
    exact List.mem_cons_self
  · exact List.mem_cons_of_mem _ m
  · rw [far_of_same (hs (farPart p)), far_of_same (event (farPart p) (by rw [farPart]; split <;> simp)), State.far_modFar]

end

end Sys2Proof.Machine
namespace Sys2Proof

open Machine

/-- Settles O53: PERST and its end, link training, configuration requests, and the far ports' links. -/
theorem hostPortsComeAndGo : Obligations.HostPortsComeAndGo := by
  intro s p hp
  refine ⟨fun ck out => ?_, fun inPerst => ?_, fun rate width ck training hrate hwidth => ?_, fun ck out up => ⟨fun q ready fault => ?_,
    fun served => ⟨fun off len => ?_, fun off bs => ?_, fun d3 => ?_, fun enc => ?_, fun en all => ?_⟩⟩,
    fun rate device ck down hrate hdev => completes_farLinkUp ck hp down hrate hdev,
    fun ck up => ⟨completes_farLinkDown ck hp up, completes_farLinkDownIdle ck hp up⟩⟩
  · by_cases fetching : s.fetching p = true
    · by_cases low : s.myRank = 0
      · obtain ⟨t, e, left⟩ := completes_perstRoot hp ck out fetching low
        obtain ⟨inPerst, link, cnt, cfg, on, d3, lost, reads, writes, freed, kept⟩ := left.spec
        exact ⟨t, e, inPerst, link, cnt, cfg, on, d3, lost, reads, writes, left.subs, freed, kept,
          fun no => absurd (fetching.symm.trans no) nofun, fun _ high => absurd low high⟩
      · obtain ⟨t, e, left, pitch, fab, fr⟩ := completes_perstFetching hp ck out fetching low
        obtain ⟨inPerst, link, cnt, cfg, on, d3, lost, reads, writes, freed, kept⟩ := left.spec
        exact ⟨t, e, inPerst, link, cnt, cfg, on, d3, lost, reads, writes, left.subs, freed, kept,
          fun no => absurd (fetching.symm.trans no) nofun, fun _ _ => ⟨pitch, fab, fr⟩⟩
    · obtain ⟨t, e, left, fr⟩ := completes_perst hp ck out (Bool.eq_false_iff.2 fetching)
      obtain ⟨inPerst, link, cnt, cfg, on, d3, lost, reads, writes, freed, kept⟩ := left.spec
      exact ⟨t, e, inPerst, link, cnt, cfg, on, d3, lost, reads, writes, left.subs, freed, kept, fun _ => fr, fun yes => absurd yes fetching⟩
  · have u : exec (.perstDeassert p) s = execPerstDeassert p s := rfl
    rw [execPerstDeassert, only_pos _ (decide_eq_true hp), if_pos inPerst] at u
    exact completes_hp u
  · have u : exec (.hostLinkUp p rate width) s = execHostLinkUp p rate width s := rfl
    rw [execHostLinkUp, only_pos _ (by simp only [hp, decide_true, Bool.true_and, Bool.and_eq_true, List.contains_iff_mem]; exact ⟨hrate, hwidth⟩), act_pos _ ck (by rw [training]; rfl)] at u
    exact completes_hp u
  · have e := exec_configRequest (req := q) hp ck out up
    rw [if_neg fun h => h.elim ready fault] at e
    exact completes_put e
  · have e := exec_configRequest (req := .read off len) hp ck out up
    rw [if_pos served] at e
    exact completes_put e
  · have e := exec_configRequest (req := .write off bs) hp ck out up
    rw [if_pos served] at e
    obtain ⟨parts, outs, enc, byte⟩ := cfgWrites_spec off bs 0 s p
    rw [← List.range_eq_range'] at parts outs enc byte
    simp only [Nat.add_zero] at byte
    obtain ⟨t, et, sent, quiet, fr⟩ := completes_hpPut e outs parts
    refine ⟨t, et, sent, fun i => ?_, fr⟩
    rw [cfgByte_congr quiet]
    exact byte i
  · have e := exec_configRequest (req := .power d3) hp ck out up
    rw [if_pos served] at e
    obtain ⟨t, et, sent, quiet, fr⟩ := completes_hpPut e (State.out_modHp _ _ _) (modHp_own _ _ _)
    exact ⟨t, et, sent, by rw [quiet, State.hp_modHp]; rfl, fr⟩
  · have e := exec_configRequest (req := .bar2Size enc) hp ck out up
    rw [if_pos served] at e
    by_cases size : 10 ≤ enc ∧ enc ≤ 21
    · rw [State.configure, if_pos size] at e
      rw [if_pos size]
      obtain ⟨t, et, sent, quiet, fr⟩ := completes_hpPut e (State.out_modHp _ _ _) (modHp_own _ _ _)
      exact ⟨t, et, sent, by rw [quiet, State.hp_modHp]; rfl, fr⟩
    · rw [State.configure, if_neg size] at e
      rw [if_neg size]
      exact completes_hpPut e rfl fun q _ => q.same_refl s
  · have e := exec_configRequest (req := .msix en all) hp ck out up
    rw [if_pos served] at e
    exact completes_msixEnable out e

end Sys2Proof
end

section
/-!
What a host reaches at a port that is open: the mailbox, BAR0's registers, doorbells, BAR2 and the command-store window
(19, R411 to R425).
-/
namespace Sys2Proof.Machine

open Sys2Proof

/-! ## Requests at a port (R411, R415) -/

theorem completes_mono {i : Instr} {s : State} {P Q : State → Prop} (h : Completes i s P) (k : ∀ t, P t → Q t) : Completes i s Q := by
  obtain ⟨t, e, ht⟩ := h
  exact ⟨t, e, k t ht⟩

section
variable {s : State} {p : Nat}

theorem barRequest_open (ck : s.clocked = true) (hp : p < 2) (opn : s.hostOpen p = true) (d0 : (s.hp p).d3hot = false) (t : State) :
    barRequest s p t = finish s t := by
  rw [barRequest, only_pos _ (decide_eq_true hp), act_pos _ ck opn, d0]
  rfl

theorem barRequest_d3hot (ck : s.clocked = true) (hp : p < 2) (opn : s.hostOpen p = true) (d3 : (s.hp p).d3hot = true) (t : State) :
    barRequest s p t = finish s (s.put (.unsupported p)) := by
  rw [barRequest, only_pos _ (decide_eq_true hp), act_pos _ ck opn, d3]
  rfl

theorem exec_mbxGo (n : Nat) : exec (.mbxGo p n) s = barRequest s p (s.mbxGo p n) := rfl

theorem exec_bar0Write (off : Nat) (bs : List Byte) : exec (.bar0RegisterWrite p off bs) s = barRequest s p (s.writeBar0 p off bs) := rfl

theorem exec_hostDoorbell {h : Nat} (hh : h < 128) : exec (.hostDoorbell p h) s = barRequest s p (s.hostDoorbell p h) :=
  only_pos _ (decide_eq_true hh)

theorem exec_bar2Read {off len : Nat} (bad : Bool) (pos : 0 < len) (fits : off + len ≤ 2 ^ ((s.hp p).bar2Enc + 20)) :
    exec (.bar2Read p off len bad) s = barRequest s p
      (if s.bar2Waits p false then s.modHp p (fun h => { h with held := h.held ++ [.read off len bad] }) else s.bar2Read p off len bad) :=
  if_pos ⟨pos, fits⟩

theorem exec_bar2Write {off : Nat} {bs : List Byte} (some : bs ≠ []) (fits : off + bs.length ≤ 2 ^ ((s.hp p).bar2Enc + 20)) :
    exec (.bar2Write p off bs) s = barRequest s p
      (if s.bar2Waits p true then s.modHp p (fun h => { h with held := h.held ++ [.write off bs] }) else s.bar2Write p off bs) :=
  if_pos ⟨some, fits⟩

theorem exec_cswAccess (off : Nat) (acc : MemAcc) : exec (.cswAccess p off acc) s = barRequest s p (s.cswAccess p off acc) := rfl

/-! ## The mailbox (R416) -/

theorem completes_request {i : Instr} {n : Nat} (e : exec i s = finish s (s.mbxGo p n)) (low : 16 ≤ n) (high : n ≤ 4096)
    (free : (s.hp p).busy = false) : Completes i s (fun t =>
      t.dict.queue = s.dict.queue ++ [({ path := pathOfPort p, msg := readBytes (s.hp p).reqBuf 0 n } : DictReq)]
      ∧ (t.hp p).quiet = { (s.hp p).quiet with busy := true } ∧ Frame [hpPart p, .service] s t) := by
  have dict : (s.modHp p fun h => { h with busy := true }).dict = s.dict := by simp
  rw [State.mbxGo, if_neg (by omega), if_neg (by rw [free]; simp)] at e
  dsimp only at e
  refine completes_frame (l := [hpPart p, .service]) e (fun q m => Part.same_trans
      (modHp_own s p (fun h => { h with busy := true }) q fun k => m ?_) ?_) fun t hs fr =>
    ⟨?_, ?_, fr⟩
  · rw [List.mem_singleton.1 k]
    exact List.mem_cons_self
  · refine service_parts _ _ ?_ ?_ ?_ q fun k => m (List.mem_cons_of_mem _ k) <;> rfl
  · have service : t.dict.service = _ := hs .service
    rw [dict] at service
    exact (congrArg (fun d : DictSt => d.queue) service :)
  · rw [quiet_of_same (hs (hpPart p))]
    exact congrArg HostPort.quiet (State.hp_modHp s p fun h => { h with busy := true })

theorem completes_overrun {i : Instr} {n : Nat} (e : exec i s = finish s (s.mbxGo p n)) (low : 16 ≤ n) (high : n ≤ 4096)
    (busy : (s.hp p).busy = true) : Completes i s (fun t =>
      (t.hp p).quiet = { (s.hp p).quiet with overrun := true } ∧ Frame [hpPart p] s t) := by
  rw [State.mbxGo, if_neg (by omega), if_pos busy] at e
  exact completes_hp e

theorem completes_badLength {i : Instr} {n : Nat} (e : exec i s = finish s (s.mbxGo p n)) (bad : n < 16 ∨ 4096 < n) :
    Completes i s (fun t => Frame [] s t) := by
  rw [State.mbxGo, if_pos bad] at e
  exact completes_frame e (fun q _ => q.same_refl s) fun _ _ fr => fr

/-! ## BAR0 (R415) -/

theorem regAccess_of {off : Nat} {bs : List Byte} (aligned : off % 8 = 0) (len : bs.length = 4 ∨ bs.length = 8) :
    regAccess off bs.length = true := by
  rw [regAccess]
  rcases len with len | len
  · rw [len, show off % 4 = 0 by omega]
    rfl
  · rw [len, aligned]
    rfl

theorem writeBar0_reg {off : Nat} {bs : List Byte} (low : off < 0x1000) (aligned : off % 8 = 0) (len : bs.length = 4 ∨ bs.length = 8) :
    s.writeBar0 p off bs = s.writeReg p off bs := by
  rw [State.writeBar0, if_pos low, if_pos (regAccess_of aligned len)]

theorem writeBar0_doorbell {h : Nat} {bs : List Byte} (hh : h < 128) (len : bs.length = 4 ∨ bs.length = 8) :
    s.writeBar0 p (0x1000 + 8 * h) bs = s.hostDoorbell p h := by
  rw [State.writeBar0, if_neg (by omega), if_pos (by omega), if_pos (regAccess_of (by omega) len), show (0x1000 + 8 * h - 0x1000) / 8 = h by omega]

theorem writeBar0_request {off : Nat} {bs : List Byte} (pos : 0 < bs.length) (fits : off + bs.length ≤ 0x1000) (short : bs.length ≤ 512)
    (page : off % 4096 + bs.length ≤ 4096) :
    s.writeBar0 p (0x2000 + off) bs = s.modHp p fun h => { h with reqBuf := writeBytes h.reqBuf off bs } := by
  rw [State.writeBar0, if_neg (by omega), if_neg (by omega), if_pos (by omega), show 0x2000 + off - 0x2000 = off by omega,
    if_pos (by simp [windowOk, pos, short, page]; omega)]

theorem writeBar0_readOnly {off : Nat} {bs : List Byte} (ro : 0x3000 ≤ off ∧ off < 0x4000 ∨ 0x10000 ≤ off ∧ off < 0x20000
    ∨ 0x28000 ≤ off ∧ off < 0x28100 ∨ 0x400000 ≤ off ∧ off < 0x800000) : s.writeBar0 p off bs = s.put (.abort p) := by
  rw [State.writeBar0, if_neg (by omega), if_neg (by omega), if_neg (by omega)]
  rcases ro with h | h | h | h
  · rw [if_pos h]
  · rw [if_neg (by omega), if_pos h]
  · rw [if_neg (by omega), if_neg (by omega), if_neg (by omega), if_pos h]
  · rw [if_neg (by omega), if_neg (by omega), if_neg (by omega), if_neg (by omega), if_neg (by omega), if_pos h]

/-! ## Doorbells (R196, R197, R419) -/

theorem completes_doorbell {i : Instr} {h : Nat} (e : exec i s = finish s (s.hostDoorbell p h)) (on : s.hartOn h = true)
    (live : (s.hart h).st ≠ .off) (live' : (s.hart h).st ≠ .halted) : Completes i s (fun t =>
      t.hart h = { s.hart h with csr := { (s.hart h).csr with eip := (s.hart h).csr.eip ||| 4#256 } } ∧ OtherHarts h s t ∧ Frame [.harts] s t) := by
  rw [State.hostDoorbell, if_pos on, State.msi, State.modHart, if_neg (by simp [live, live'])] at e
  exact completes_putHart e

theorem completes_doorbellDropped {i : Instr} {h : Nat} (e : exec i s = finish s (s.hostDoorbell p h)) (on : s.hartOn h = true)
    (dead : (s.hart h).st = .off ∨ (s.hart h).st = .halted) : Completes i s (fun t =>
      t.hart h = { s.hart h with stats := { (s.hart h).stats with dropped := min ((s.hart h).stats.dropped + 1) (2 ^ 32 - 1) } }
      ∧ OtherHarts h s t ∧ Frame [.harts] s t) := by
  rw [State.hostDoorbell, if_pos on, State.msi, State.modHart, if_pos dead] at e
  exact completes_putHart e

theorem completes_doorbellOff {i : Instr} {h : Nat} (e : exec i s = finish s (s.hostDoorbell p h)) (off : s.hartOn h = false) :
    Completes i s (fun t => Sends [.abort p] s t ∧ Frame [.out] s t) := by
  rw [State.hostDoorbell, if_neg (by rw [off]; simp)] at e
  exact completes_put e

/-! ## BAR2 reads (R27, R421) -/

theorem mapM_none_of {α β : Type} {f : α → Option β} {l : List α} {x : α} (mem : x ∈ l) (none : f x = none) : l.mapM f = Option.none := by
  induction l with
  | nil => cases mem
  | cons y ys ih =>
    rw [List.mapM_cons]
    rcases List.mem_cons.1 mem with rfl | later
    · rw [none]
      rfl
    · rw [ih later]
      cases f y <;> rfl

theorem countMem_parts (s : State) (a len : Nat) (write : Bool) : ∀ q, q ∉ [Part.hbm] → q.same s (s.countMem a len write) := by
  intro q n
  cases q
  case out => exact ⟨[], by simp, rfl⟩
  all_goals simp_all [Part.same]

theorem hbm_parts (s : State) (x : Stacks) : ∀ q, q ∉ [Part.hbm] → q.same s { s with hbm := x } := by
  intro q n
  cases q <;> simp_all [Part.same]

theorem stackParity_parts (s : State) (ch : Nat) : ∀ q, q ∉ [Part.hbm, .recorder] → q.same s (s.stackParity ch) := by
  intro q n
  have counted : q.same s (s.modStack (ch / 32) (fun x => { x with parity := count 64 x.parity 1 })) := by
    cases q <;> simp_all [Part.same]
  rw [State.stackParity]
  dsimp only
  split
  · exact Part.same_trans (Part.same_trans (Part.same_trans counted (hbm_parts _ _ q (Part.outside n))) (hbm_parts _ _ q (Part.outside n)))
      (event_parts _ _ _ _ q (Part.outside n))
  · exact Part.same_trans counted (hbm_parts _ _ q (Part.outside n))

theorem stackParity_out (s : State) (ch : Nat) : (s.stackParity ch).out = s.out := by
  rw [State.stackParity]
  dsimp only
  split <;> simp

/-- The counts of a read of memory. -/
def State.readCounted (s : State) (ps : List (Nat × Nat)) (a len : Nat) : State :=
  let t := ps.foldl (fun s x => s.countMem x.1 x.2 false) s
  if oneSector a len then { t with hbm := { t.hbm with sectorReads := count 64 t.hbm.sectorReads 1 } } else t

theorem readCounted_parts (s : State) (ps : List (Nat × Nat)) (a len : Nat) : ∀ q, q ∉ [Part.hbm] → q.same s (s.readCounted ps a len) := by
  intro q n
  have counted := foldl_parts (g := fun s (x : Nat × Nat) => s.countMem x.1 x.2 false) (fun s x => countMem_parts s x.1 x.2 false) ps s q n
  rw [State.readCounted]
  dsimp only
  split
  · exact Part.same_trans counted (hbm_parts _ _ q n)
  · exact counted

theorem readCounted_out (s : State) (ps : List (Nat × Nat)) (a len : Nat) : (s.readCounted ps a len).out = s.out := by
  rw [State.readCounted]
  dsimp only
  split <;> simp

/-- A poisoned read: counted at its channel and recorded. -/
def State.readPoisoned (s : State) (p : Nat) (channel : Option Nat) : State :=
  (match channel with
    | some ch => s.stackParity ch
    | none => s).parityEvent (srcHost p) 1

theorem readPoisoned_parts (s : State) (p : Nat) (channel : Option Nat) :
    ∀ q, q ∉ [Part.hbm, .recorder] → q.same s (s.readPoisoned p channel) := by
  intro q n
  unfold State.readPoisoned
  split
  · exact Part.same_trans (stackParity_parts s _ q n) (parityEvent_parts _ _ _ q (Part.outside n))
  · exact parityEvent_parts _ _ _ q (Part.outside n)

theorem readPoisoned_out (s : State) (p : Nat) (channel : Option Nat) : (s.readPoisoned p channel).out = s.out := by
  unfold State.readPoisoned
  split <;> simp

theorem bar2Read_served {off len a : Nat} {bad : Bool} {ps : List (Nat × Nat)} (ea : a = s.bar2Addr p off)
    (h : (linePieces (len + 1) a len).mapM (fun x => (s.bar2Source x.1 x.2).map (fun b => (b, x.2))) = some ps) :
    s.bar2Read p off len bad = if bad then ((s.readCounted ps a len).readPoisoned p (ps.head?.bind fun x => s.channelOf x.1)).put (.abort p)
      else (s.readCounted ps a len).put (.readData p ((ps.map (fun x => s.load x.1 x.2)).flatten)) := by
  subst ea
  rw [State.bar2Read]
  dsimp only
  rw [h]
  cases bad
  · rfl
  · rfl

theorem completes_bar2Read {i : Instr} {off len a : Nat} {bad : Bool} {ps : List (Nat × Nat)} (e : exec i s = finish s (s.bar2Read p off len bad))
    (ea : a = s.bar2Addr p off)
    (h : (linePieces (len + 1) a len).mapM (fun x => (s.bar2Source x.1 x.2).map (fun b => (b, x.2))) = some ps) : Completes i s (fun t =>
      Sends [if bad then .abort p else .readData p ((ps.map (fun x => s.load x.1 x.2)).flatten)] s t ∧ Frame [.out, .hbm, .recorder] s t) := by
  rw [bar2Read_served ea h] at e
  cases bad with
  | true =>
    exact completes_frame e (fun q n => Part.same_trans (readCounted_parts s ps a len q (Part.outside n))
      (Part.same_trans (readPoisoned_parts _ p _ q (Part.outside n)) (put_own _ _ q (Part.outside n)))) fun t hs fr =>
      ⟨sends_of (by rw [if_pos rfl, State.put_out, readPoisoned_out, readCounted_out]; rfl) (hs .out), fr⟩
  | false =>
    exact completes_frame e (fun q n => Part.same_trans (readCounted_parts s ps a len q (Part.outside n))
      (put_own _ _ q (Part.outside n))) fun t hs fr =>
      ⟨sends_of (by rw [if_neg (by simp), State.put_out, readCounted_out]; rfl) (hs .out), fr⟩

theorem completes_bar2ReadAborted {i : Instr} {off len : Nat} {bad : Bool} (e : exec i s = finish s (s.bar2Read p off len bad))
    (h : ∃ x ∈ linePieces (len + 1) (s.bar2Addr p off) len, s.bar2Source x.1 x.2 = none) :
    Completes i s (fun t => Sends [.abort p] s t ∧ Frame [.out] s t) := by
  obtain ⟨x, mem, none⟩ := h
  rw [State.bar2Read, mapM_none_of mem (by rw [none]; rfl)] at e
  exact completes_put e

/-! ## BAR2 writes (R29, R421) -/

theorem bar2Staging_congr {s t : State} (h : t.job = s.job) (a len : Nat) : t.bar2Staging a len = s.bar2Staging a len := by
  unfold State.bar2Staging
  rw [h]

theorem bar2Cut_ne_nil {a : Nat} {bs : List Byte} (some : bs ≠ []) : bar2Cut a bs ≠ [] := by
  rw [bar2Cut, linePieces, if_neg (by rwa [List.length_eq_zero_iff])]
  simp

theorem bar2Piece_staged {x : Nat × List Byte} (h : s.bar2Staging x.1 x.2.length ≠ none) :
    (s.bar2Piece x).2 = (none, false) ∧ (s.bar2Piece x).1.mem = writeBytes s.mem ((s.bar2Staging x.1 x.2.length).getD 0) x.2
    ∧ (s.bar2Piece x).1.err = { s.err with staged := true } ∧ ∀ q, q ∉ [Part.mem, .harts, .hbm, .err] → q.same s (s.bar2Piece x).1 := by
  obtain ⟨b, hb⟩ := Option.ne_none_iff_exists'.1 h
  have stored := storeAgent_mem s b x.2
  have counted := countMem_parts (s.storeAgent b x.2) b x.2.length true
  rw [State.bar2Piece, hb]
  refine ⟨rfl, (counted .mem (by simp)).trans stored.1, ?_, fun q n => ?_⟩
  · exact congrArg (fun e : ErrSt => { e with staged := true }) ((counted .err (by simp)).trans (stored.2.2 .err (by simp)))
  · exact Part.same_trans (stored.2.2 q (Part.outside n)) (Part.same_trans (counted q (Part.outside n)) (err_parts _ _ q (Part.outside n)))

theorem bar2Pieces_staged {l : List (Nat × List Byte)} {u : State} (job : u.job = s.job)
    (h : ∀ x ∈ l, s.bar2Staging x.1 x.2.length ≠ none) :
    (bar2Pieces l u).2 = (none, false)
    ∧ (bar2Pieces l u).1.mem = l.foldl (fun m x => writeBytes m ((s.bar2Staging x.1 x.2.length).getD 0) x.2) u.mem
    ∧ (bar2Pieces l u).1.err = (if l = [] then u.err else { u.err with staged := true })
    ∧ ∀ q, q ∉ [Part.mem, .harts, .hbm, .err] → q.same u (bar2Pieces l u).1 := by
  induction l generalizing u with
  | nil => exact ⟨rfl, rfl, rfl, fun q _ => q.same_refl u⟩
  | cons x xs ih =>
    have same := bar2Staging_congr job x.1 x.2.length
    obtain ⟨none, mem, err, parts⟩ := bar2Piece_staged (s := u) (x := x) (by rw [same]; exact h x List.mem_cons_self)
    obtain ⟨nones, mems, errs, partss⟩ := ih ((parts .job (by simp)).trans job) fun y m => h y (List.mem_cons_of_mem _ m)
    rw [bar2Pieces]
    refine ⟨?_, ?_, ?_, fun q n => Part.same_trans (parts q n) (partss q n)⟩
    · dsimp only
      rw [none, nones]
      rfl
    · dsimp only
      rw [mems, mem, same]
      rfl
    · dsimp only
      rw [errs, err, if_neg (List.cons_ne_nil _ _)]
      split <;> rfl

theorem bar2Pieces_owned {l : List (Nat × List Byte)} (some : l ≠ []) (h : ∀ x ∈ l, s.bar2Staging x.1 x.2.length = none ∧ s.owned x.1 = true) :
    ∃ b, bar2Pieces l s = (s, Option.some b, false) := by
  induction l with
  | nil => exact absurd rfl some
  | cons x xs ih =>
    obtain ⟨no, own⟩ := h x List.mem_cons_self
    have first : s.bar2Piece x = (s, Option.some x.1, false) := by rw [State.bar2Piece, no]; exact if_pos own
    refine ⟨x.1, ?_⟩
    rw [bar2Pieces, first]
    by_cases e : xs = []
    · subst e
      rfl
    · obtain ⟨b, hb⟩ := ih e fun y m => h y (List.mem_cons_of_mem _ m)
      dsimp only
      rw [hb]
      rfl

theorem bar2Pieces_strange {l : List (Nat × List Byte)} (some : l ≠ [])
    (h : ∀ x ∈ l, s.bar2Staging x.1 x.2.length = none ∧ s.owned x.1 = false) : bar2Pieces l s = (s, none, true) := by
  induction l with
  | nil => exact absurd rfl some
  | cons x xs ih =>
    obtain ⟨no, strange⟩ := h x List.mem_cons_self
    have first : s.bar2Piece x = (s, none, true) := by rw [State.bar2Piece, no]; exact if_neg (by rw [strange]; simp)
    rw [bar2Pieces, first]
    by_cases e : xs = []
    · subst e
      rfl
    · dsimp only
      rw [ih e fun y m => h y (List.mem_cons_of_mem _ m)]
      rfl

/-- A write after its pieces: counted as a sector where all of it is stored, recorded or counted where some is discarded. -/
def State.bar2Settled (u : State) (p a len : Nat) (first : Option Nat) (lost : Bool) : State :=
  let t := if oneSector a len && first.isNone && !lost then
      { u with hbm := { u.hbm with sectorWrites := count 64 u.hbm.sectorWrites 1 } } else u
  let t := match first with
    | some b => t.event 0x0903 (srcHost p) (b % 2 ^ 41)
    | none => t
  if lost then t.modHp p (fun h => { h with discarded := count 32 h.discarded 1 }) else t

theorem bar2Write_of {off a : Nat} {bs : List Byte} {u : State} {first : Option Nat} {lost : Bool} (ea : a = s.bar2Addr p off)
    (h : bar2Pieces (bar2Cut a bs) s = (u, first, lost)) : s.bar2Write p off bs = u.bar2Settled p a bs.length first lost := by
  subst ea
  rw [bar2Cut] at h
  rw [State.bar2Write]
  simp only [h]
  rfl

theorem completes_bar2Staged {i : Instr} {off a : Nat} {bs : List Byte} (e : exec i s = finish s (s.bar2Write p off bs))
    (ea : a = s.bar2Addr p off) (some : bs ≠ []) (h : ∀ x ∈ bar2Cut a bs, s.bar2Staging x.1 x.2.length ≠ none) : Completes i s (fun t =>
      t.mem = (bar2Cut a bs).foldl (fun m x => writeBytes m ((s.bar2Staging x.1 x.2.length).getD 0) x.2) s.mem
      ∧ t.err = { s.err with staged := true } ∧ Frame [.mem, .harts, .hbm, .err] s t) := by
  obtain ⟨nones, mem, err, parts⟩ := bar2Pieces_staged (s := s) rfl h
  rw [if_neg (bar2Cut_ne_nil some)] at err
  rw [bar2Write_of (u := (bar2Pieces (bar2Cut a bs) s).1) (first := none) (lost := false) ea
    (Prod.ext rfl nones), State.bar2Settled] at e
  dsimp only at e
  rw [if_neg (by simp)] at e
  have last : ∀ q, q ∉ [Part.hbm] → q.same (bar2Pieces (bar2Cut a bs) s).1
      (if (oneSector a bs.length && Option.isNone (none : Option Nat) && !false) = true then
        { (bar2Pieces (bar2Cut a bs) s).1 with hbm := { (bar2Pieces (bar2Cut a bs) s).1.hbm with
          sectorWrites := count 64 (bar2Pieces (bar2Cut a bs) s).1.hbm.sectorWrites 1 } } else (bar2Pieces (bar2Cut a bs) s).1) := by
    intro q n
    split
    · exact hbm_parts _ _ q n
    · exact q.same_refl _
  exact completes_frame e (fun q n => Part.same_trans (parts q n) (last q (Part.outside n))) fun t hs fr =>
    ⟨(hs .mem).trans ((last .mem (by simp)).trans mem), (hs .err).trans ((last .err (by simp)).trans err), fr⟩

theorem completes_bar2Owned {i : Instr} {off a : Nat} {bs : List Byte} (e : exec i s = finish s (s.bar2Write p off bs))
    (ea : a = s.bar2Addr p off) (some : bs ≠ []) (h : ∀ x ∈ bar2Cut a bs, s.bar2Staging x.1 x.2.length = none ∧ s.owned x.1 = true) :
    Completes i s (fun t => Frame [.recorder] s t) := by
  obtain ⟨b, hb⟩ := bar2Pieces_owned (bar2Cut_ne_nil some) h
  rw [bar2Write_of ea hb, State.bar2Settled] at e
  dsimp only at e
  rw [if_neg (by simp), if_neg (by simp)] at e
  exact completes_frame e (event_parts s _ _ _) fun _ _ fr => fr

theorem completes_bar2Discarded {i : Instr} {off a : Nat} {bs : List Byte} (e : exec i s = finish s (s.bar2Write p off bs))
    (ea : a = s.bar2Addr p off) (some : bs ≠ []) (h : ∀ x ∈ bar2Cut a bs, s.bar2Staging x.1 x.2.length = none ∧ s.owned x.1 = false) :
    Completes i s (fun t => (t.hp p).quiet = { (s.hp p).quiet with discarded := min ((s.hp p).discarded + 1) (2 ^ 32 - 1) }
      ∧ Frame [hpPart p] s t) := by
  rw [bar2Write_of ea (bar2Pieces_strange (bar2Cut_ne_nil some) h), State.bar2Settled] at e
  dsimp only at e
  rw [if_pos rfl, if_neg (by simp)] at e
  exact completes_hp e

/-! ## The command-store window (R88, R420) -/

theorem bank_bytes_write (b : Bank) (off : Nat) (bs : List Byte) {j : Nat} (h : j < bs.length) :
    (b.write off bs).bytes.getD (off + j) 0 = bs.getD j 0 := by
  have eq : (b.write off bs).bytes = readBytes (b.write off bs).raw 0 (max b.bytes.length (off + bs.length)) := rfl
  have inside : off + j < max b.bytes.length (off + bs.length) := by omega
  have last : readByte (b.write off bs).raw (off + j) = bs[j] := readByte_writeBytes_inside _ off bs j h
  rw [eq, readBytes_eq, List.getD_eq_getElem?_getD, List.getElem?_map, List.getElem?_range inside, List.getD_eq_getElem?_getD,
    List.getElem?_eq_getElem h]
  simpa using last

/-- The selected bank of a core takes bytes. -/
def Core.bankWrite (k : Core) (one : Prop) [Decidable one] (off : Nat) (bs : List Byte) : Core :=
  if one then { k with bank1 := k.bank1.write off bs } else { k with bank0 := k.bank0.write off bs }

theorem completes_cswWrite {i : Instr} {off : Nat} {bs : List Byte} {b : Core → Bank} (e : exec i s = finish s (s.cswAccess p off (.write bs)))
    (eb : b = fun k => if (s.hp p).cswBank = 1 then k.bank1 else k.bank0)
    (ok : windowOk off bs.length 131072 = true) (on : s.coreOn (s.hp p).cswCore = true) (idle : s.jobBusy = false)
    (free : (b (s.core (s.hp p).cswCore)).st ≠ .active) : Completes i s (fun t => (b (t.core (s.hp p).cswCore)).st = .loading
      ∧ (b (t.core (s.hp p).cswCore)).role = none
      ∧ (∀ j, j < bs.length → (b (t.core (s.hp p).cswCore)).bytes.getD (off + j) 0 = bs.getD j 0)
      ∧ ((s.hp p).cswBank = 1 → t.core (s.hp p).cswCore = { s.core (s.hp p).cswCore with bank1 := (t.core (s.hp p).cswCore).bank1 })
      ∧ ((s.hp p).cswBank ≠ 1 → t.core (s.hp p).cswCore = { s.core (s.hp p).cswCore with bank0 := (t.core (s.hp p).cswCore).bank0 })
      ∧ OtherCores (s.hp p).cswCore s t ∧ Frame [.cores] s t) := by
  subst eb
  have all : (windowOk off bs.length 131072 && s.coreOn (s.hp p).cswCore && !s.jobBusy
      && (if (s.hp p).cswBank = 1 then (s.core (s.hp p).cswCore).bank1 else (s.core (s.hp p).cswCore).bank0).st != .active) = true := by
    rw [ok, on, idle]
    exact bne_iff_ne.2 free
  rw [State.cswAccess] at e
  rw [if_pos all] at e
  refine completes_mono (completes_coreBecomes e (CoreBecomes.modCore s _ _)) fun t h => ?_
  obtain ⟨core, other, fr⟩ := h
  by_cases one : (s.hp p).cswBank = 1
  · rw [if_pos one] at core
    simp only [if_pos one]
    rw [core]
    exact ⟨rfl, rfl, fun j h => bank_bytes_write _ off bs h, fun _ => rfl, fun no => absurd one no, other, fr⟩
  · rw [if_neg one] at core
    simp only [if_neg one]
    rw [core]
    exact ⟨rfl, rfl, fun j h => bank_bytes_write _ off bs h, fun yes => absurd yes one, fun _ => rfl, other, fr⟩

theorem completes_cswRefused {i : Instr} {off : Nat} {bs : List Byte} (e : exec i s = finish s (s.cswAccess p off (.write bs)))
    (no : s.jobBusy = true ∨ (if (s.hp p).cswBank = 1 then (s.core (s.hp p).cswCore).bank1 else (s.core (s.hp p).cswCore).bank0).st = .active
      ∨ s.coreOn (s.hp p).cswCore = false) : Completes i s (fun t => Sends [.abort p] s t ∧ Frame [.out] s t) := by
  rw [State.cswAccess] at e
  rw [if_neg (by rcases no with h | h | h <;> simp [h])] at e
  exact completes_put e

theorem completes_cswRead {i : Instr} {off len : Nat} {b : Core → Bank} (e : exec i s = finish s (s.cswAccess p off (.read len)))
    (eb : b = fun k => if (s.hp p).cswBank = 1 then k.bank1 else k.bank0) : Completes i s (fun t => Frame [.out] s t
      ∧ Sends [if windowOk off len 131072 = true ∧ s.coreOn (s.hp p).cswCore = true
          then .readData p ((List.range len).map (fun i => (b (s.core (s.hp p).cswCore)).bytes.getD (off + i) 0)) else .abort p] s t) := by
  subst eb
  rw [State.cswAccess] at e
  by_cases h : windowOk off len 131072 = true ∧ s.coreOn (s.hp p).cswCore = true
  · rw [if_pos (by rw [h.1, h.2]; rfl)] at e
    rw [if_pos h]
    exact completes_mono (completes_put e) fun t h => h.symm
  · rw [if_neg (by rwa [Bool.and_eq_true])] at e
    rw [if_neg h]
    exact completes_mono (completes_put e) fun t h => h.symm

/-! ## Leases (R425) -/

theorem completes_lease {l : AreaLock} (ck : s.clocked = true) (found : s.dict.locks.find? (fun x => x.area == l.area) = some l)
    (done : l.renewed + 5000000000 ≤ s.ns) : Completes (.leaseExpiry l.area) s (fun t =>
      t.dict.service = { s.dict.service with locks := s.dict.locks.filter (fun x => x.area != l.area) }
      ∧ Frame [.service, .recorder] s t) := by
  have e : exec (.leaseExpiry l.area) s = finish s (s.freeLock l) := by
    have u : exec (.leaseExpiry l.area) s = execLeaseExpiry l.area s := rfl
    rw [u, execLeaseExpiry, found]
    exact act_pos _ ck (decide_eq_true done)
  refine completes_frame e (freeLock_parts s l) fun t hs fr => ⟨?_, fr⟩
  have kept : (s.event 0x0901 (srcPath l.owner) (l.area % 256 + l.owner.code * 2 ^ 8)).dict.service = s.dict.service :=
    event_parts s _ _ _ .service (by simp)
  have locks : (s.event 0x0901 (srcPath l.owner) (l.area % 256 + l.owner.code * 2 ^ 8)).dict.locks = s.dict.locks :=
    (congrArg (fun d : DictSt => d.locks) kept :)
  have eq : (s.freeLock l).dict.service
      = { (s.event 0x0901 (srcPath l.owner) (l.area % 256 + l.owner.code * 2 ^ 8)).dict.service with
          locks := (s.event 0x0901 (srcPath l.owner) (l.area % 256 + l.owner.code * 2 ^ 8)).dict.locks.filter (fun x => x.area != l.area) } := rfl
  rw [(hs .service : t.dict.service = _), eq, kept, locks]

end

end Sys2Proof.Machine

namespace Sys2Proof

open Machine

/-- Settles O54: at an open port each request is the window's own operation; in D3hot every one of them is unsupported, and a
lock whose lease has run out is freed. -/
theorem hostsReachTheirWindows : Obligations.HostsReachTheirWindows := by
  intro s p ck hp
  refine ⟨fun opn d3 i h => ?_, fun opn d0 => ?_, fun l found done => completes_lease ck found done⟩
  · have refused (t : State) := barRequest_d3hot ck hp opn d3 t
    rcases h with ⟨n, rfl⟩ | ⟨o, bs, rfl⟩ | ⟨h, hh, rfl⟩ | ⟨o, n, b, pos, fits, rfl⟩ | ⟨o, bs, some, fits, rfl⟩ | ⟨o, a, rfl⟩
    · exact completes_put ((exec_mbxGo n).trans (refused _))
    · exact completes_put ((exec_bar0Write o bs).trans (refused _))
    · exact completes_put ((exec_hostDoorbell hh).trans (refused _))
    · exact completes_put ((exec_bar2Read b pos fits).trans (refused _))
    · exact completes_put ((exec_bar2Write some fits).trans (refused _))
    · exact completes_put ((exec_cswAccess o a).trans (refused _))
  · have served (t : State) := barRequest_open ck hp opn d0 t
    have reg {off : Nat} {bs : List Byte} (low : off < 0x1000) (aligned : off % 8 = 0) (len : bs.length = 4 ∨ bs.length = 8) :
        exec (.bar0RegisterWrite p off bs) s = finish s (s.writeReg p off bs) := by
      rw [exec_bar0Write, served, writeBar0_reg low aligned len]
    refine ⟨fun n i h => ?_, fun bs len => ⟨?_, ?_, fun clear => ?_⟩, fun off bs pos fits short page => ?_, fun off bs ro => ?_,
      fun h i hh hi => ?_, fun off len bad a ea pos fits => ⟨fun waits => ?_, fun free => ⟨fun ps hps => ?_, fun none => ?_⟩⟩,
      fun off bs a ea some fits => ⟨fun waits => ?_, fun free => ⟨fun staged => ?_, fun owned => ?_, fun strange => ?_⟩⟩,
      fun off acc c b ec eb => ⟨fun len el => ?_, fun bs el => ⟨fun ok on idle free => ?_, fun no => ?_⟩⟩⟩
    · have e : exec i s = finish s (s.mbxGo p n) := by
        rcases h with rfl | ⟨bs, len, rfl, rfl⟩
        · rw [exec_mbxGo, served]
        · exact reg (by omega) (by omega) len
      exact ⟨completes_request e, completes_overrun e, completes_badLength e⟩
    · exact completes_hp (reg (off := 0x020) (by omega) (by omega) len)
    · exact completes_hp (reg (off := 0x028) (by omega) (by omega) len)
    · have e : s.writeReg p 0x010 bs = s.modHp p fun h => { h with overrun := false } := if_pos clear
      exact completes_hp ((reg (off := 0x010) (by omega) (by omega) len).trans (congrArg (finish s) e))
    · exact completes_hp ((exec_bar0Write _ bs).trans (by rw [served, writeBar0_request pos fits short page]))
    · exact completes_put ((exec_bar0Write off bs).trans (by rw [served, writeBar0_readOnly ro]))
    · have e : exec i s = finish s (s.hostDoorbell p h) := by
        rcases hi with rfl | ⟨bs, len, rfl⟩
        · rw [exec_hostDoorbell hh, served]
        · rw [exec_bar0Write, served, writeBar0_doorbell hh len]
      exact ⟨completes_doorbell e, completes_doorbellDropped e, completes_doorbellOff e⟩
    · exact completes_hp ((exec_bar2Read bad pos fits).trans (by rw [served, if_pos waits]))
    · exact completes_bar2Read ((exec_bar2Read bad pos fits).trans (by rw [served, free]; rfl)) ea hps
    · subst ea
      exact completes_bar2ReadAborted ((exec_bar2Read bad pos fits).trans (by rw [served, free]; rfl)) none
    · exact completes_hp ((exec_bar2Write some fits).trans (by rw [served, if_pos waits]))
    · exact completes_bar2Staged ((exec_bar2Write some fits).trans (by rw [served, free]; rfl)) ea some staged
    · exact completes_bar2Owned ((exec_bar2Write some fits).trans (by rw [served, free]; rfl)) ea some owned
    · exact completes_bar2Discarded ((exec_bar2Write some fits).trans (by rw [served, free]; rfl)) ea some strange
    · subst ec el
      exact completes_cswRead ((exec_cswAccess off _).trans (served _)) eb
    · subst ec el
      exact completes_cswWrite ((exec_cswAccess off _).trans (served _)) eb ok on idle free
    · subst ec el eb
      exact completes_cswRefused ((exec_cswAccess off _).trans (served _)) no

end Sys2Proof
end

section
/-!
The dictionary service: what a request that arrives is served as, what every answer leaves behind, and the rows that only
check and read (20, R416, R425, R428 to R433, R437, R438).
-/
namespace Sys2Proof.Machine

open Sys2Proof

/-! ## Serving what arrives (R416, R425, R438) -/

/-- The front request is out of the queue. -/
def State.dequeued (s : State) : State := { s with dict := { s.dict with queue := s.dict.queue.drop 1 } }

theorem dequeued_of_empty {s : State} (h : s.dict.queue = []) : s.dequeued = s := by
  rw [State.dequeued, h, List.drop_nil, ← h]

/-- The package as a request is executed: the request is out of the queue and its path's leases are renewed. -/
def State.fetched (s : State) (q : DictReq) : State := s.dequeued.renewLeases q.path

section
variable {s : State} {row : DictRow} {src : DictSrc} {q : DictReq}

theorem exec_rowInstr (row : DictRow) (src : DictSrc) (s : State) : exec (rowInstr row src) s = dictRow row src s := by
  cases row <;> rfl

/-- What arrives is served. -/
theorem exec_serve (h : Arrives row src q s) :
    exec (rowInstr row src) s = finish s (s.dequeued.serve q) := by
  obtain ⟨ck, up, is, from_⟩ := h
  rw [exec_rowInstr]
  unfold dictRow
  rcases from_ with ⟨rfl, front⟩ | ⟨rfl, path, none, short, single⟩
  · obtain ⟨rest, eq⟩ := List.head?_eq_some_iff.1 front
    rw [State.dequeued]
    dsimp only
    rw [eq]
    exact act_pos _ ck (by rw [up, is]; simp)
  · have same : ({ path := .mgmt, mac := q.mac, broadcast := q.broadcast, msg := q.msg } : DictReq) = q := by
      rw [← path]
    dsimp only
    rw [same, act_pos _ ck (by rw [up, is]; simpa [short] using single), State.frameArrives, dequeued_of_empty none, none]
    rfl

/-- A request that no kept response answers is executed. -/
theorem exec_execute (h : Asks row src q s) : exec (rowInstr row src) s = finish s ((s.fetched q).executeReq q (parseReq q)) := by
  obtain ⟨arrives, fresh⟩ := h
  have unkept : (s.fetched q).keptFor q = none := fresh
  rw [exec_serve arrives, State.serve]
  rw [State.fetched] at unkept ⊢
  rw [unkept]

theorem fetched_parts (s : State) (q : DictReq) : ∀ p, p ∉ [Part.service] → p.same s (s.fetched q) := by
  intro p n
  rw [State.fetched, State.renewLeases]
  refine service_parts _ _ ?_ ?_ ?_ p n <;> rfl

theorem dropXfer_parts (s : State) (path : DictPath) : ∀ p, p ∉ [Part.service] → p.same s (s.dropXfer path) := by
  refine service_parts _ _ ?_ ?_ ?_ <;> rfl

theorem opened_parts (s : State) (q : DictReq) : ∀ p, p ∉ [Part.service] → p.same s (s.opened q) := by
  intro p n
  rw [State.opened]
  split
  · exact Part.same_trans (fetched_parts s q p n) (dropXfer_parts _ _ p n)
  · exact fetched_parts s q p n

/-! ## Answers (R416, R426, R438) -/

theorem State.hp_msix_quiet (s : State) (p v : Nat) : ((s.msix p v).hp p).quiet = (s.hp p).quiet := by
  rw [State.msix]
  split
  · rfl
  · split
    · rw [State.hp_modHp]
      rfl
    · rfl

theorem msix_own (s : State) (p v : Nat) : ∀ q, q ∉ [.out, hpPart p] → q.same s (s.msix p v) := by
  intro q n
  rw [State.msix]
  split
  · exact q.same_refl s
  · split
    · exact modHp_own s p _ q fun m => n (List.mem_cons_of_mem _ m)
    · exact put_own s _ q fun m => n (by simp_all)

/-- A response through the mailbox of a port. -/
def State.mailbox (s : State) (p : Nat) (m : List Byte) : State :=
  let t := s.modHp p (fun h => h.take m)
  if (s.hp p).lost then t else t.msix p 0

theorem mailbox_own (s : State) (p : Nat) (m : List Byte) : ∀ q, q ∉ [.out, hpPart p] → q.same s (s.mailbox p m) := by
  intro q n
  have taken := modHp_own s p (fun h => h.take m) q fun m => n (List.mem_cons_of_mem _ m)
  rw [State.mailbox]
  split
  · exact taken
  · exact Part.same_trans taken (msix_own _ p 0 q n)

/-- What the mailbox holds after a response, for a port that no PERST has met. -/
theorem mailboxTook {s u t : State} {p : Nat} {m : List Byte} (port : u.hp p = s.hp p) (hs : ∀ q : Part, q.same (u.mailbox p m) t) :
    MailboxTook p m s t := by
  have quiet : (t.hp p).quiet = (((u.modHp p fun h => h.take m).hp p)).quiet := by
    rw [quiet_of_same (hs (hpPart p)), State.mailbox]
    split
    · rfl
    · exact State.hp_msix_quiet _ p 0
  rw [State.hp_modHp, port] at quiet
  cases lost : (s.hp p).lost with
  | true =>
    rw [HostPort.take, if_pos lost] at quiet
    exact ⟨(congrArg HostPort.busy quiet :), fun no => by rw [lost] at no; cases no⟩
  | false =>
    rw [HostPort.take, if_neg (by rw [lost]; simp)] at quiet
    refine ⟨(congrArg HostPort.busy quiet :), fun _ => ⟨(congrArg HostPort.rspBuf quiet :), (congrArg HostPort.rspLen quiet :),
      (congrArg HostPort.seq quiet :), fun on out all free => ?_⟩⟩
    have own : (u.modHp p fun h => h.take m).hp p = { s.hp p with
        rspBuf := writeBytes (s.hp p).rspBuf 0 m, rspLen := m.length, seq := (s.hp p).seq + 1, busy := false } := by
      rw [State.hp_modHp, port, HostPort.take, if_neg (by rw [lost]; simp)]
    obtain ⟨a, d, sent⟩ := msix_sends (s := u.modHp p fun h => h.take m) (p := p) (v := 0)
      (by rw [own]; exact on) (by rw [own]; exact out) (by rw [own]; exact all) (by rw [own]; exact free)
    have box : u.mailbox p m = (u.modHp p fun h => h.take m).put (.msix p 0 a d) := by
      rw [State.mailbox, port, lost]
      exact sent
    obtain ⟨l, put, _⟩ := hs .out
    exact ⟨a, d, by rw [put, box, State.put_out]; simp⟩

theorem respond_hp0 (s : State) {q : DictReq} (path : q.path = .hp0) (r : Req) (code flags : Nat) (body : List Byte) :
    s.respond q r code flags body = s.mailbox 0 (r.response code flags body) := by
  rw [State.respond, path]
  rfl

theorem respond_hp1 (s : State) {q : DictReq} (path : q.path = .hp1) (r : Req) (code flags : Nat) (body : List Byte) :
    s.respond q r code flags body = s.mailbox 1 (r.response code flags body) := by
  rw [State.respond, path]
  rfl

/-- The responses kept after one more (R438). -/
def State.keptWith (s : State) (q : DictReq) (tag : Nat) (m : List Byte) : List KeptResponse :=
  let all := s.dict.kept.filter (fun k => !(k.mac == q.mac && k.tag == tag))
    ++ [({ mac := q.mac, tag := tag, time := s.ns, msg := m } : KeptResponse)]
  all.drop (all.length - 16)

theorem respond_mgmt (s : State) {q : DictReq} (path : q.path = .mgmt) (r : Req) (code flags : Nat) (body : List Byte) :
    s.respond q r code flags body = ({ s with dict := { s.dict with kept := s.keptWith q r.tag (r.response code flags body) } } : State).put
      (.frame q.mac (r.response code flags body)) := by
  rw [State.respond, path]
  rfl

/-- An answer touches the service and the ports alone. -/
theorem respond_parts (s : State) (q : DictReq) (r : Req) (code flags : Nat) (body : List Byte) :
    ∀ p, p ∉ servedParts → p.same s (s.respond q r code flags body) := by
  intro p n
  cases path : q.path with
  | hp0 =>
    rw [respond_hp0 s path]
    exact mailbox_own s 0 _ p fun m => n (by rcases List.mem_cons.1 m with rfl | m <;> simp_all [servedParts, hpPart])
  | hp1 =>
    rw [respond_hp1 s path]
    exact mailbox_own s 1 _ p fun m => n (by rcases List.mem_cons.1 m with rfl | m <;> simp_all [servedParts, hpPart])
  | mgmt =>
    rw [respond_mgmt s path]
    refine Part.same_trans (t := ({ s with dict := { s.dict with kept := s.keptWith q r.tag (r.response code flags body) } } : State))
      (service_parts _ _ ?_ ?_ ?_ p (Part.outside n)) (put_own _ _ p (Part.outside n)) <;> rfl

theorem mailbox_dict (s : State) (p : Nat) (m : List Byte) : (s.mailbox p m).dict = s.dict := by
  rw [State.mailbox]
  split <;> simp

/-- Of the dictionary service an answer changes what the management port keeps. -/
theorem respond_dict (s : State) (q : DictReq) (r : Req) (code flags : Nat) (body : List Byte) :
    ∃ k, (s.respond q r code flags body).dict = { s.dict with kept := k } := by
  cases path : q.path with
  | hp0 => exact ⟨_, by rw [respond_hp0 s path, mailbox_dict]⟩
  | hp1 => exact ⟨_, by rw [respond_hp1 s path, mailbox_dict]⟩
  | mgmt => exact ⟨_, by rw [respond_mgmt s path]; rfl⟩

/-- What a request is answered is on its path. -/
theorem answered_respond {s u t : State} {q : DictReq} {code flags : Nat} {body : List Byte} (h0 : u.hp0 = s.hp0) (h1 : u.hp1 = s.hp1)
    (hs : ∀ p : Part, p.same (u.respond q (parseReq q) code flags body) t) : Answered q code flags body s t := by
  rw [Answered]
  cases path : q.path with
  | hp0 =>
    rw [respond_hp0 u path] at hs
    exact mailboxTook (hp_congr h0 h1) hs
  | hp1 =>
    rw [respond_hp1 u path] at hs
    exact mailboxTook (hp_congr h0 h1) hs
  | mgmt =>
    rw [respond_mgmt u path] at hs
    obtain ⟨l, put, _⟩ := hs .out
    dsimp only
    rw [put, State.put_out]
    simp

/-- A request whose execution ends in an answer: what holds of the state that is answered, part by part, and of the service but
for what the management port keeps, holds after it. -/
theorem completes_answered {i : Instr} {s u : State} {q : DictReq} {code flags : Nat} {body : List Byte} {l : List Part} {Q : State → Prop}
    (e : exec i s = finish s (u.respond q (parseReq q) code flags body)) (h0 : u.hp0 = s.hp0) (h1 : u.hp1 = s.hp1)
    (served : ∀ p ∈ servedParts, p ∈ l) (parts : ∀ p, p ∉ l → p.same s u)
    (k : ∀ t kept, (∀ p, p ∉ servedParts → p.same u t) → t.dict.service = { u.dict.service with kept := kept } →
      Answered q code flags body s t → Frame l s t → Q t) : Completes i s Q := by
  obtain ⟨kept, dict⟩ := respond_dict u q (parseReq q) code flags body
  refine completes_frame e (fun p n => Part.same_trans (parts p n) (respond_parts u q _ code flags body p fun m => n (served p m)))
    fun t hs fr => k t kept (fun p n => Part.same_trans (respond_parts u q _ code flags body p n) (hs p)) ?_
      (answered_respond h0 h1 hs) fr
  rw [(hs .service : t.dict.service = _), dict]
  rfl

theorem fetched_hp (s : State) (q : DictReq) : (s.fetched q).hp0 = s.hp0 ∧ (s.fetched q).hp1 = s.hp1 := ⟨rfl, rfl⟩

/-! ## Refusals (R433) -/

/-- A request without RELAY whose first four checks fail is refused. -/
theorem executeReq_refused {u : State} {r : Req} (relay : r.relay = false) (bad : u.check14 r (u.wholeValue r) ≠ 0) :
    u.executeReq q r = (if r.segmented then u.dropXfer r.path else u).refuse q r (u.check14 r (u.wholeValue r)) := by
  rw [State.executeReq, relay, if_neg (by simp)]
  exact if_pos bad

/-- A request without RELAY that passes its first four checks goes on by its opcode. -/
theorem executeReq_checked {u : State} {r : Req} (relay : r.relay = false) (ok : u.check14 r (u.wholeValue r) = 0) :
    u.executeReq q r = match r.opcode with
      | 1 => u.respond q r (u.readAnswer r).1 (u.readAnswer r).2.1 (u.readAnswer r).2.2
      | 2 => u.serveValue q r r.body
      | 3 => u.respond q r (u.readAnswer r).1 (u.readAnswer r).2.1 (u.readAnswer r).2.2
      | 5 => (u.subscribe q r).2.respond q r (u.subscribe q r).1 0 []
      | _ => u.serveSegment q r := by
  rw [State.executeReq, relay, if_neg (by simp)]
  exact if_neg (by rw [ok]; simp)

theorem completes_refused (asks : Asks row src q s) (relay : (parseReq q).relay = false)
    (bad : s.check14 (parseReq q) (s.wholeValue (parseReq q)) ≠ 0) : Completes (rowInstr row src) s (fun t =>
      Answered q (s.check14 (parseReq q) (s.wholeValue (parseReq q))) 0 [] s t ∧ Frame servedParts s t) := by
  have e := exec_execute asks
  have same : (s.fetched q).check14 (parseReq q) ((s.fetched q).wholeValue (parseReq q))
      = s.check14 (parseReq q) (s.wholeValue (parseReq q)) := rfl
  rw [executeReq_refused relay (by rw [same]; exact bad), State.refuse, same] at e
  refine completes_answered (l := servedParts) e ?_ ?_ (fun _ h => h) (fun p n => ?_) fun t _ _ _ an fr => ⟨an, fr⟩
  · split <;> rfl
  · split <;> rfl
  · split
    · exact Part.same_trans (fetched_parts s q p (Part.outside n)) (dropXfer_parts _ _ p (Part.outside n))
    · exact fetched_parts s q p (Part.outside n)

/-! ## Writes and their segments (R432, R433) -/

theorem executeReq_segment {u : State} {r : Req} (relay : r.relay = false) (ok : u.check14 r (u.wholeValue r) = 0) (seg : r.segmented = true) :
    u.executeReq q r = u.serveSegment q r := by
  rw [executeReq_checked relay ok]
  rw [Req.segmented, Bool.or_eq_true, beq_iff_eq, beq_iff_eq] at seg
  rcases seg with h | h
  · rw [h]
    rfl
  · rw [h]
    rfl

theorem exec_checked (asks : Asks row src q s) (relay : (parseReq q).relay = false)
    (ok : s.check14 (parseReq q) (s.wholeValue (parseReq q)) = 0) : exec (rowInstr row src) s = finish s (match (parseReq q).opcode with
      | 1 => (s.fetched q).respond q (parseReq q) ((s.fetched q).readAnswer (parseReq q)).1 ((s.fetched q).readAnswer (parseReq q)).2.1
          ((s.fetched q).readAnswer (parseReq q)).2.2
      | 2 => (s.fetched q).serveValue q (parseReq q) (parseReq q).body
      | 3 => (s.fetched q).respond q (parseReq q) ((s.fetched q).readAnswer (parseReq q)).1 ((s.fetched q).readAnswer (parseReq q)).2.1
          ((s.fetched q).readAnswer (parseReq q)).2.2
      | 5 => ((s.fetched q).subscribe q (parseReq q)).2.respond q (parseReq q) ((s.fetched q).subscribe q (parseReq q)).1 0 []
      | _ => (s.fetched q).serveSegment q (parseReq q)) := by
  have ok' : (s.fetched q).check14 (parseReq q) ((s.fetched q).wholeValue (parseReq q)) = 0 := ok
  rw [exec_execute asks, executeReq_checked relay ok']

theorem exec_segment (asks : Asks row src q s) (relay : (parseReq q).relay = false)
    (ok : s.check14 (parseReq q) (s.wholeValue (parseReq q)) = 0) (seg : (parseReq q).segmented = true) :
    exec (rowInstr row src) s = finish s ((s.fetched q).serveSegment q (parseReq q)) := by
  have ok' : (s.fetched q).check14 (parseReq q) ((s.fetched q).wholeValue (parseReq q)) = 0 := ok
  rw [exec_execute asks, executeReq_segment relay ok' seg]

theorem opened_segment (seg : (parseReq q).segmented = true) : s.opened q = (s.fetched q).dropXfer q.path := if_pos seg

theorem opened_single (one : (parseReq q).segmented = false) : s.opened q = s.fetched q := if_neg (by rw [one]; simp)

/-- A segment that is not the last joins its path's transfer. -/
theorem completes_segment {b : List Byte} (asks : Asks row src q s) (relay : (parseReq q).relay = false)
    (ok : s.check14 (parseReq q) (s.wholeValue (parseReq q)) = 0) (seg : (parseReq q).segmented = true) (more : (parseReq q).last = false)
    (join : s.joinSegment (parseReq q) = some b) (fits : b.length ≤ 1048576) : Completes (rowInstr row src) s (fun t => Answered q 0 0 [] s t
      ∧ t.dict.xfers = s.dict.xfers.filter (fun x => x.path != q.path)
          ++ [({ path := q.path, opcode := (parseReq q).opcode, key := (parseReq q).key, bytes := b } : BlockXfer)]
      ∧ Frame servedParts s t) := by
  have e := exec_segment asks relay ok seg
  have join' : (s.fetched q).joinSegment (parseReq q) = some b := join
  have room : ¬(if (parseReq q).opcode = 7 then 1048576 + 29808 else 1048576) < b.length := by split <;> omega
  rw [State.serveSegment, join'] at e
  dsimp only at e
  rw [if_neg room, more, if_neg (by simp)] at e
  refine completes_answered (l := servedParts) e rfl rfl (fun _ h => h) (fun p n => ?_) fun t kept _ service an fr =>
    ⟨an, (congrArg (fun d : DictSt => d.xfers) service :), fr⟩
  refine Part.same_trans (Part.same_trans (fetched_parts s q p (Part.outside n)) (dropXfer_parts _ q.path p (Part.outside n)))
    (service_parts _ _ ?_ ?_ ?_ p (Part.outside n)) <;> rfl

variable {e : DictEntry} {payload v : List Byte} {code : Nat}

/-- A write whose payload is complete goes on to the checks of its value. -/
theorem exec_written (h : WriteChecked row src q e payload code v s) :
    exec (rowInstr row src) s = finish s ((s.opened q).serveValue q (parseReq q) payload) := by
  obtain ⟨asks, relay, ok, _, whole, _⟩ := h
  rcases whole with ⟨two, rfl⟩ | ⟨seg, last, join, fits⟩
  · rw [exec_checked asks relay ok, two, opened_single (by rw [Req.segmented, two]; rfl)]
    rfl
  · have join' : (s.fetched q).joinSegment (parseReq q) = some payload := join
    have room : ¬(if (parseReq q).opcode = 7 then 1048576 + 29808 else 1048576) < payload.length := Nat.not_lt.2 fits
    rw [exec_segment asks relay ok seg, State.serveSegment, join', opened_segment seg]
    dsimp only
    rw [if_neg room, if_pos last]
    rfl

theorem opened_hp (s : State) (q : DictReq) : (s.opened q).hp0 = s.hp0 ∧ (s.opened q).hp1 = s.hp1 := by
  rw [State.opened]
  split <;> exact ⟨rfl, rfl⟩

/-- A complete write that fails a later check is refused. -/
theorem completes_writeRefused (h : WriteChecked row src q e payload code v s) (bad : code ≠ 0) :
    Completes (rowInstr row src) s (fun t => Answered q code 0 [] s t ∧ Frame servedParts s t) := by
  have written := exec_written h
  obtain ⟨_, _, _, entry, _, check⟩ := h
  rw [State.serveValue, entry] at written
  dsimp only at written
  rw [check, if_pos bad] at written
  exact completes_answered (l := servedParts) written (opened_hp s q).1 (opened_hp s q).2 (fun _ h => h)
    (fun p n => opened_parts s q p (Part.outside n)) fun t _ _ _ an fr => ⟨an, fr⟩

/-! ## Requests that repeat or find others waiting (R438) -/

/-- A request that repeats has its kept response sent again. -/
theorem completes_repeated {m : List Byte} (h : Arrives row src q s) (kept : s.keptFor q = some m) :
    Completes (rowInstr row src) s (fun t => .frame q.mac m ∈ t.out ∧ t.dict.kept = s.dict.kept ∧ Frame [.service] s t) := by
  have e := exec_serve h
  have found : (s.fetched q).keptFor q = some m := kept
  rw [State.fetched] at found
  rw [State.serve, found] at e
  refine completes_frame (l := [.service]) e (fun p n => Part.same_trans (fetched_parts s q p n) (put_parts _ _ rfl p)) fun t hs fr => ⟨?_, ?_, fr⟩
  · obtain ⟨l, put, _⟩ := hs .out
    rw [put, State.put_out]
    simp
  · exact (congrArg (fun d : DictSt => d.kept) (hs .service) :)

theorem exec_frameArrives (ck : s.clocked = true) (up : s.serviceUp = true) (is : s.rowOf (parseReq q) = row) (path : q.path = .mgmt)
    (short : q.msg.length ≤ 1500) (single : q.broadcast = false ∨ (parseReq q).opcode = 1) :
    exec (rowInstr row (.frame q.mac q.broadcast q.msg)) s = finish s (s.frameArrives q) := by
  have same : ({ path := .mgmt, mac := q.mac, broadcast := q.broadcast, msg := q.msg } : DictReq) = q := by
    rw [← path]
  rw [exec_rowInstr]
  unfold dictRow
  dsimp only
  rw [same]
  exact act_pos _ ck (by rw [up, is]; simpa [short] using single)

/-- Seventeen requests are one too many. -/
theorem completes_frameDropped {i : Instr} (e : exec i s = finish s (s.frameArrives q))
    (full : 16 ≤ (s.dict.queue.filter (fun x => x.path == .mgmt)).length) : Completes i s (fun t =>
      t.dict.service = { s.dict.service with drops := min (s.dict.drops + 1) (2 ^ 32 - 1) } ∧ Frame [.service] s t) := by
  rw [State.frameArrives, if_pos full] at e
  refine completes_frame (l := [.service]) e ?_ fun t hs fr => ⟨hs .service, fr⟩
  refine service_parts _ _ ?_ ?_ ?_ <;> rfl

/-- A request waits behind others. -/
theorem completes_waits {i : Instr} (e : exec i s = finish s (s.frameArrives q))
    (room : (s.dict.queue.filter (fun x => x.path == .mgmt)).length < 16) (others : s.dict.queue ≠ []) : Completes i s (fun t =>
      t.dict.service = { s.dict.service with queue := s.dict.queue ++ [q] } ∧ Frame [.service] s t) := by
  rw [State.frameArrives, if_neg (Nat.not_le.2 room), if_neg (by rwa [List.isEmpty_iff])] at e
  refine completes_frame (l := [.service]) e ?_ fun t hs fr => ⟨hs .service, fr⟩
  refine service_parts _ _ ?_ ?_ ?_ <;> rfl

/-! ## Reading (R429 to R431) -/

theorem ite_ne {α : Type} {c : Prop} [Decidable c] {a b x : α} (h : a ≠ x) (k : b ≠ x) : (if c then a else b) ≠ x := by
  split
  · exact h
  · exact k

/-- No entry makes a request a row of the opcodes that read. -/
theorem entryRow_ne {key : Nat} {v : Option Nat} {x : DictRow} (h : x = .readBlock ∨ x = .subscribe) : entryRow key v ≠ some x := by
  unfold entryRow
  dsimp only
  rcases h with rfl | rfl
  all_goals
    repeat' apply ite_ne
    all_goals repeat' split
    all_goals simp

theorem getD_ne {α : Type} {o : Option α} {d x : α} (h : o ≠ some x) (k : d ≠ x) : o.getD d ≠ x := by
  cases o with
  | none => exact k
  | some y => exact fun e => h (congrArg some e)

/-- A request of a reading row has that row's opcode. -/
theorem opcode_of_row {r : Req} {x : DictRow} (is : s.rowOf r = x) (h : x = .readBlock ∨ x = .subscribe) :
    r.opcode = if x = .readBlock then 3 else 5 := by
  have entry (d : DictRow) (k : d ≠ x) : (entryRow r.key ((s.wholeValue r).map leNat)).getD d ≠ x := getD_ne (entryRow_ne h) k
  have write : DictRow.write ≠ x ∧ DictRow.writeBlock ≠ x ∧ DictRow.signedWrite ≠ x ∧ DictRow.read ≠ x ∧ DictRow.relay ≠ x := by
    rcases h with rfl | rfl <;> decide
  obtain ⟨write, block, signed, read, relay⟩ := write
  unfold State.rowOf at is
  dsimp only at is
  split at is
  · exact absurd is relay
  · split at is
    · exact absurd is (entry _ write)
    · next three => rw [three, if_pos is.symm]
    · exact absurd is (entry _ block)
    · next five => rw [five, if_neg (by rw [← is]; decide)]
    · split at is
      · exact absurd is (entry _ signed)
      · exact absurd is signed
    · exact absurd is read

/-- Reading is denied of an entry that is only written. -/
theorem accessCode_read {r : Req} {e : DictEntry} (reads : r.opcode = 1 ∨ r.opcode = 3 ∨ r.opcode = 5) (acc : e.acc ≠ .wo) :
    accessCode r e = 0 := by
  have none : r.writes = false := by
    rw [Req.writes]
    rcases reads with h | h | h <;> rw [h] <;> rfl
  rw [accessCode, none, if_neg (by simp), if_neg acc]

/-- What an access of the reading opcodes is denied with. -/
def readDenied (r : Req) : Nat :=
  match dictEntry r.idx r.sub with
  | some e => accessCode r e
  | none => 0

theorem readDenied_zero {r : Req} (reads : r.opcode = 1 ∨ r.opcode = 3 ∨ r.opcode = 5)
    (acc : ∀ e, dictEntry r.idx r.sub = some e → e.acc ≠ .wo) : readDenied r = 0 := by
  unfold readDenied
  split
  · next e eq => exact accessCode_read reads (acc e eq)
  · rfl

variable {u : State} {r : Req}

/-- The value that a READ_BLOCK reads of, and its flag. -/
def State.blockValue (u : State) (r : Req) : List Byte × Nat :=
  if r.sub = 0xFF then (u.recValue r.idx, 0)
  else match r.pending, u.pendingOf r.idx r.sub with
    | true, some p => (p, 4)
    | _, _ => (u.dictRead r.idx r.sub, 0)

theorem readAnswer_eq (u : State) (r : Req) : u.readAnswer r =
    if readDenied r ≠ 0 then (readDenied r, 0, [])
    else if r.opcode = 1 then
      if pathLimit r.path < (u.dictRead r.idx r.sub ++ (u.pendingOf r.idx r.sub).getD []).length then (abRange, 0, [])
      else (0, if (u.pendingOf r.idx r.sub).isSome then 4 else 0, u.dictRead r.idx r.sub ++ (u.pendingOf r.idx r.sub).getD [])
    else if (u.blockValue r).1 ≠ [] ∧ (u.blockValue r).1.length ≤ r.off then (abRange, 0, [])
    else (0, (u.blockValue r).2
        + (if (u.blockValue r).1.length ≤ r.off + (((u.blockValue r).1.drop r.off).take (pathLimit r.path)).length then 2 else 0),
      ((u.blockValue r).1.drop r.off).take (pathLimit r.path)) := rfl

theorem readAnswer_read (one : r.opcode = 1) (ok : readDenied r = 0)
    (fits : (u.dictRead r.idx r.sub ++ (u.pendingOf r.idx r.sub).getD []).length ≤ pathLimit r.path) :
    u.readAnswer r = (0, (if (u.pendingOf r.idx r.sub).isSome then 4 else 0), u.dictRead r.idx r.sub ++ (u.pendingOf r.idx r.sub).getD []) := by
  rw [readAnswer_eq, if_neg (not_not_intro ok), if_pos one, if_neg (Nat.not_lt.2 fits)]

theorem blockValue_of {x : List Byte} {f : Nat} (h : r.sub = 0xFF ∧ x = u.recValue r.idx ∧ f = 0
    ∨ r.sub ≠ 0xFF ∧ r.pending = true ∧ u.pendingOf r.idx r.sub = some x ∧ f = 4
    ∨ r.sub ≠ 0xFF ∧ (r.pending = false ∨ u.pendingOf r.idx r.sub = none) ∧ x = u.dictRead r.idx r.sub ∧ f = 0) :
    u.blockValue r = (x, f) := by
  unfold State.blockValue
  rcases h with ⟨all, rfl, rfl⟩ | ⟨one, pend, val, rfl⟩ | ⟨one, active, rfl, rfl⟩
  · exact if_pos all
  · rw [if_neg one, pend, val]
  · rw [if_neg one]
    rcases active with h | h
    · rw [h]
    · rw [h]
      cases r.pending <;> rfl

theorem readAnswer_block (three : r.opcode = 3) (ok : readDenied r = 0) {x : List Byte} {f : Nat} (value : u.blockValue r = (x, f))
    (inside : x = [] ∨ r.off < x.length) : u.readAnswer r
      = (0, f + (if x.length ≤ r.off + ((x.drop r.off).take (pathLimit r.path)).length then 2 else 0), (x.drop r.off).take (pathLimit r.path)) := by
  have no : ¬(x ≠ [] ∧ x.length ≤ r.off) := by
    rintro ⟨some, out⟩
    rcases inside with h | h
    · exact some h
    · omega
  rw [readAnswer_eq, if_neg (not_not_intro ok), if_neg (by rw [three]; decide), value, if_neg no]

/-- A request that only reads is answered and changes nothing. -/
theorem completes_read {code flags : Nat} {body : List Byte} (asks : Asks row src q s) (relay : (parseReq q).relay = false)
    (ok : s.check14 (parseReq q) (s.wholeValue (parseReq q)) = 0) (reads : (parseReq q).opcode = 1 ∨ (parseReq q).opcode = 3)
    (h : (s.fetched q).readAnswer (parseReq q) = (code, flags, body)) :
    Completes (rowInstr row src) s (fun t => Frame servedParts s t ∧ Answered q code flags body s t) := by
  have e : exec (rowInstr row src) s = finish s ((s.fetched q).respond q (parseReq q) code flags body) := by
    rw [exec_checked asks relay ok]
    rcases reads with k | k
    · rw [k, h]
      rfl
    · rw [k, h]
      rfl
  exact completes_answered (l := servedParts) e rfl rfl (fun _ h => h) (fun p n => fetched_parts s q p (Part.outside n))
    fun t _ _ _ an fr => ⟨fr, an⟩

/-! ## Subscriptions (R437) -/

theorem completes_subscribed {w : State} (asks : Asks .subscribe src q s) (relay : (parseReq q).relay = false)
    (ok : s.check14 (parseReq q) (s.wholeValue (parseReq q)) = 0) (h : (s.fetched q).subscribe q (parseReq q) = (0, w))
    (subs : List Subscription) (only_ : w = { (s.fetched q) with dict := { (s.fetched q).dict with subs := subs } }) :
    Completes (.dictSubscribe src) s (fun t => Answered q 0 0 [] s t ∧ t.dict.subs = subs ∧ Frame servedParts s t) := by
  have five := opcode_of_row asks.1.2.2.1 (Or.inr rfl)
  rw [if_neg (by decide)] at five
  have e : exec (.dictSubscribe src) s = finish s (w.respond q (parseReq q) 0 0 []) := by
    have checked := exec_checked asks relay ok
    rw [five, h] at checked
    exact checked
  rw [only_] at e
  refine completes_answered (l := servedParts) e rfl rfl (fun _ h => h) (fun p n => ?_) fun t _ _ service an fr =>
    ⟨an, (congrArg (fun d : DictSt => d.subs) service :), fr⟩
  refine Part.same_trans (fetched_parts s q p (Part.outside n)) (service_parts _ _ ?_ ?_ ?_ p (Part.outside n)) <;> rfl

theorem subscribe_eq (u : State) (q : DictReq) (r : Req) : u.subscribe q r =
    if readDenied r ≠ 0 then (readDenied r, u)
    else if r.body.length ≠ 1 then (abType, u)
    else if 1 < leNat r.body then (abRange, u)
    else if leNat r.body = 0 then
      (0, { u with dict := { u.dict with subs := u.dict.subs.filter (fun y => y != { path := q.path, mac := q.mac, key := r.key }) } })
    else if u.dict.subs.contains { path := q.path, mac := q.mac, key := r.key } then (0, u)
    else if 64 ≤ (u.dict.subs.filter (fun y => y.path == q.path)).length then (abRange, u)
    else (0, { u with dict := { u.dict with subs := u.dict.subs ++ [({ path := q.path, mac := q.mac, key := r.key } : Subscription)] } }) := rfl

theorem subscribe_off (denied : readDenied r = 0) (body : r.body = [0]) : u.subscribe q r
    = (0, { u with dict := { u.dict with subs := u.dict.subs.filter (fun y => y != { path := q.path, mac := q.mac, key := r.key }) } }) := by
  rw [subscribe_eq, if_neg (not_not_intro denied), body]
  rfl

theorem subscribe_on (denied : readDenied r = 0) (body : r.body = [1])
    (new : ({ path := q.path, mac := q.mac, key := r.key } : Subscription) ∉ u.dict.subs)
    (room : (u.dict.subs.filter (fun y => y.path == q.path)).length < 64) : u.subscribe q r
    = (0, { u with dict := { u.dict with subs := u.dict.subs ++ [({ path := q.path, mac := q.mac, key := r.key } : Subscription)] } }) := by
  rw [subscribe_eq, if_neg (not_not_intro denied), body, if_neg (by simp), if_neg (by decide), if_neg (by decide), if_neg (by rwa [List.contains_iff_mem]),
    if_neg (Nat.not_le.2 room)]

end

end Sys2Proof.Machine

namespace Sys2Proof

open Machine

/-- Settles O55: what arrives is executed on the package with the request out of the queue and its leases renewed; there the checks
refuse, a segment joins its transfer, and the reading rows answer what the entry reads. -/
theorem requestsAreCheckedReadAndAnswered : Obligations.RequestsAreCheckedReadAndAnswered := by
  intro s row src q
  refine ⟨completes_refused, fun e payload c v h bad => completes_writeRefused h bad,
    fun b asks relay ok seg more join fits => completes_segment asks relay ok seg more join fits,
    fun m h kept => completes_repeated h kept, fun ck up is path from_ short single => ?_, ?reads⟩
  · subst from_
    have e := exec_frameArrives ck up is path short single
    exact ⟨completes_frameDropped e, completes_waits e⟩
  case reads =>
    rintro r u rfl rfl relay ok acc
    refine ⟨fun asks one fits => ?_, fun x f asks inside value => ?_, ?_⟩
    · have single : s.opened q = s.fetched q := opened_single (by rw [Req.segmented, one]; rfl)
      rw [single] at fits ⊢
      exact completes_read asks relay ok (Or.inl one) (readAnswer_read one (readDenied_zero (Or.inl one) acc) fits)
    · have three := opcode_of_row asks.1.2.2.1 (Or.inl rfl)
      rw [if_pos rfl] at three
      have single : s.opened q = s.fetched q := opened_single (by rw [Req.segmented, three]; rfl)
      rw [single] at value
      exact completes_read asks relay ok (Or.inr three) (readAnswer_block three (readDenied_zero (Or.inr (Or.inl three)) acc) (blockValue_of value) inside)
    · rintro x rfl asks
      have five := opcode_of_row asks.1.2.2.1 (Or.inr rfl)
      have denied := readDenied_zero (Or.inr (Or.inr five)) acc
      exact ⟨fun body => completes_subscribed asks relay ok (subscribe_off denied body) _ rfl,
        fun body new room => completes_subscribed asks relay ok (subscribe_on denied body new room) _ rfl⟩

end Sys2Proof
end

section
/-!
Writes that the dictionary accepts: which entry a row is, what the checks have let through, and what every accepted write leaves
behind (20, R432 to R435; 21).
-/
namespace Sys2Proof.Machine

open Sys2Proof

/-! ## The row of an entry -/

/-- The key, and the value where it matters, that makes a write a row of its own. -/
def EntryOf (row : DictRow) (key : Nat) (v : Option Nat) : Prop :=
  match row with
  | .resetCommand => key = dictKey 0x2210 1
  | .freqCounterStart => key = dictKey 0x2020 3
  | .fportAdminEnable => 0x4300 ≤ key / 256 ∧ key / 256 < 0x4318 ∧ key % 256 = 1
  | .portMapWrite => key = dictKey 0x4100 2
  | .fabricDrain => key = dictKey 0x4010 2 ∧ v = some 1
  | .fabricApply => key = dictKey 0x4010 2 ∧ v = some 2
  | .fabricCancel => key = dictKey 0x4010 2 ∧ v = some 3
  | .commandBankWrite => 0x5100 ≤ key / 256 ∧ key / 256 < 0x5200 ∧ (key % 256 = 14 ∨ key % 256 = 15)
  | .pitchRequest => key = dictKey 0x9030 1
  | .commandStrike => key = dictKey 0x9030 2 ∧ v = some 1
  | .commandQuiesce => key = dictKey 0x9030 2 ∧ v = some 2
  | .commandResume => key = dictKey 0x9030 2 ∧ v = some 3
  | .commandLeave => key = dictKey 0x9030 2 ∧ v = some 4
  | .quiesceStepWrite => key = dictKey 0x9030 3
  | .survey => key = dictKey 0xA010 10
  | .lockTake => key = dictKey 0xE010 2
  | .lockRelease => key = dictKey 0xE010 3
  | .clockEnableWrite => key / 256 = 0x2010
  | .attestationNonce => key = dictKey 0x1020 2
  | .lifecycleTransition => key = dictKey 0xC010 2
  | .firmwareUpdate => key = dictKey 0xC020 5
  | _ => False

theorem ite_imp {α : Type} {c : Prop} [Decidable c] {a b x : α} {Q : Prop} (h : c → a = x → Q) (k : ¬c → b = x → Q) :
    (if c then a else b) = x → Q := by
  split
  · next yes => exact h yes
  · next no => exact k no

/-- The row of a value of `FabricTables.Command`. -/
theorem tablesRow_of {row : DictRow} {v : Option Nat} (h : (match v with
      | some 1 => some .fabricDrain
      | some 2 => some .fabricApply
      | some 3 => some .fabricCancel
      | _ => none) = some row) : EntryOf row (dictKey 0x4010 2) v := by
  split at h
  · cases h; exact ⟨rfl, rfl⟩
  · cases h; exact ⟨rfl, rfl⟩
  · cases h; exact ⟨rfl, rfl⟩
  · cases h

/-- The row of a value of `Pitch.Command`. -/
theorem pitchRow_of {row : DictRow} {v : Option Nat} (h : (match v with
      | some 1 => some .commandStrike
      | some 2 => some .commandQuiesce
      | some 3 => some .commandResume
      | some 4 => some .commandLeave
      | _ => none) = some row) : EntryOf row (dictKey 0x9030 2) v := by
  split at h
  · cases h; exact ⟨rfl, rfl⟩
  · cases h; exact ⟨rfl, rfl⟩
  · cases h; exact ⟨rfl, rfl⟩
  · cases h; exact ⟨rfl, rfl⟩
  · cases h

theorem entryOf_entryRow {key : Nat} {v : Option Nat} {row : DictRow} : entryRow key v = some row → EntryOf row key v := by
  have own (d : DictRow) (h : EntryOf d key v) : some d = some row → EntryOf row key v := fun e => Option.some.inj e ▸ h
  unfold entryRow
  dsimp only
  exact ite_imp (own .resetCommand) fun _ => ite_imp (own .freqCounterStart) fun _ => ite_imp (own .fportAdminEnable) fun _ =>
    ite_imp (own .portMapWrite) fun _ => ite_imp (fun k e => k ▸ tablesRow_of e) fun _ => ite_imp (own .commandBankWrite) fun _ =>
    ite_imp (own .pitchRequest) fun _ => ite_imp (fun k e => k ▸ pitchRow_of e) fun _ => ite_imp (own .quiesceStepWrite) fun _ =>
    ite_imp (own .survey) fun _ => ite_imp (own .lockTake) fun _ => ite_imp (own .lockRelease) fun _ =>
    ite_imp (own .clockEnableWrite) fun _ => ite_imp (own .attestationNonce) fun _ => ite_imp (own .lifecycleTransition) fun _ =>
    ite_imp (own .firmwareUpdate) fun _ e => nomatch e

/-! ## Entries of the table that can be written -/

/-- What every entry of the table meets: of its first index, how many indexes share it, its subindex and itself. -/
def tableAll (P : Nat → Nat → Nat → DictEntry → Bool) : Bool :=
  dictTable.all fun d => (d.entries.zipIdx 1).all fun x => P d.base d.count x.2 x.1

theorem tableAll_entry {P : Nat → Nat → Nat → DictEntry → Bool} (h : tableAll P = true) {idx sub : Nat} {e : DictEntry}
    (entry : dictEntry idx sub = some e) (rw : e.acc ≠ .ro) :
    ∃ base count, base ≤ idx ∧ idx < base + count ∧ P base count sub e = true := by
  unfold dictEntry at entry
  split at entry
  · cases entry
  · next d found =>
    have inside := List.find?_some found
    rw [Bool.and_eq_true, decide_eq_true_eq, decide_eq_true_eq] at inside
    split at entry
    · cases entry
      exact absurd rfl rw
    · next pos =>
      obtain ⟨i, rfl⟩ : ∃ i, sub = 1 + i := ⟨sub - 1, by omega⟩
      rw [Nat.add_sub_cancel_left] at entry
      have row := List.all_eq_true.1 h d (List.mem_of_find?_eq_some found)
      have mem : (e, 1 + i) ∈ d.entries.zipIdx 1 := List.mk_add_mem_zipIdx_iff_getElem?.2 entry
      exact ⟨d.base, d.count, inside.1, inside.2, List.all_eq_true.1 row _ mem⟩

/-- Where an index lies apart from a range, or else the entry is one of these. -/
def rangeRule (lo hi : Nat) (ok : Nat → DictEntry → Bool) (base count sub : Nat) (e : DictEntry) : Bool :=
  decide (base + count ≤ lo) || decide (hi ≤ base) || e.acc == .ro || ok sub e

theorem rangeRule_entry {lo hi : Nat} {ok : Nat → DictEntry → Bool} (h : tableAll (rangeRule lo hi ok) = true) {idx sub : Nat}
    {e : DictEntry} (entry : dictEntry idx sub = some e) (rw : e.acc ≠ .ro) (low : lo ≤ idx) (high : idx < hi) : ok sub e = true := by
  obtain ⟨base, count, above, below, rule⟩ := tableAll_entry h entry rw
  simp only [rangeRule, Bool.or_eq_true, decide_eq_true_eq, beq_iff_eq] at rule
  rcases rule with ((apart | apart) | ro) | ok
  · omega
  · omega
  · exact absurd ro rw
  · exact ok

theorem bankEntries : tableAll (rangeRule 0x5100 0x5200 fun sub _ => sub == 14 || sub == 15) = true := by decide

theorem portEntries : tableAll (rangeRule 0x4300 0x4318 fun sub e => sub == 1 && e.cls == .quiesce && e.ty.size == some 1) = true := by
  decide

theorem clockEntries : tableAll (rangeRule 0x2010 0x2011 fun _ e =>
    e.cls == .quiesce && (e.ty.size == some 4 || e.ty.size == none && 0 < e.dflt.len)) = true := by decide

/-! ## What the checks let through -/

theorem firstCode_zero {l : List Nat} : firstCode l = 0 ↔ ∀ c ∈ l, c = 0 := by
  induction l with
  | nil => exact ⟨fun _ => nofun, fun _ => rfl⟩
  | cons c cs ih =>
    rw [firstCode, List.forall_mem_cons]
    split
    · next zero => rw [ih]; exact (and_iff_right zero).symm
    · next other => exact ⟨fun h => absurd h other, fun h => absurd h.1 other⟩

theorem failing_zero {ok : Bool} {c : Nat} (h : failing ok c = 0) (pos : c ≠ 0) : ok = true := by
  cases ok with
  | true => rfl
  | false => exact absurd h pos

section
variable {s : State} {row : DictRow} {src : DictSrc} {q : DictReq} {e : DictEntry} {payload v : List Byte}

/-- What a write that passes every check meets. -/
structure Passed (s : State) (r : Req) (e : DictEntry) (v : List Byte) : Prop where
  entry : dictEntry r.idx r.sub = some e
  writable : e.acc ≠ .ro
  length : lengthOk r.key e v = true
  value : s.valueOk r.key e v = true
  state : s.stateCode r e v = 0

theorem passed_of (h : WriteChecked row src q e payload 0 v s) : Passed (s.opened q) (parseReq q) e v := by
  obtain ⟨_, _, _, entry, whole, check⟩ := h
  rw [State.checkWrite, Prod.mk.injEq, firstCode_zero] at check
  obtain ⟨codes, rfl⟩ := check
  simp only [List.forall_mem_cons] at codes
  obtain ⟨access, _, _, _, length, value, state, _⟩ := codes
  have writes : (parseReq q).writes = true := by
    rcases whole with ⟨two, _⟩ | ⟨seg, _⟩
    · rw [Req.writes, two]
      rfl
    · rw [Req.segmented, Bool.or_eq_true] at seg
      rw [Req.writes, Bool.or_assoc, Bool.or_eq_true, Bool.or_eq_true]
      exact Or.inr seg
  refine ⟨entry, fun ro => ?_, failing_zero length (by decide), failing_zero value (by decide), state⟩
  rw [accessCode, if_pos writes, if_pos ro] at access
  exact absurd access (by decide)

/-- The value in the range that its table gives. -/
theorem Passed.range {r : Req} {lo hi : Nat} (h : Passed s r e v) (range : rangeOf r.key = some (lo, hi)) : lo ≤ leNat v ∧ leNat v ≤ hi := by
  have value := h.value
  simp only [State.valueOk, range, Bool.and_eq_true, decide_eq_true_eq] at value
  exact value.1.2

/-- The row of a write by its entry. -/
theorem row_of_write (h : WriteTaken row src q e v s) : ∃ d, (d = .write ∨ d = .writeBlock)
    ∧ (entryRow (parseReq q).key (some (leNat v))).getD d = row := by
  obtain ⟨unsigned, asks, relay, _, _, whole, _⟩ := h
  have is : s.rowOf (parseReq q) = row := asks.1.2.2.1
  unfold State.rowOf at is
  dsimp only at is
  rw [relay, if_neg (by simp)] at is
  rcases whole with ⟨two, body⟩ | ⟨seg, last, join, _⟩
  · have value : s.wholeValue (parseReq q) = some v := by rw [State.wholeValue, if_pos two, body]
    rw [value, two] at is
    exact ⟨.write, Or.inl rfl, is⟩
  · have four : (parseReq q).opcode = 4 := by
      rw [Req.segmented, Bool.or_eq_true, beq_iff_eq, beq_iff_eq] at seg
      exact seg.resolve_right unsigned
    have value : s.wholeValue (parseReq q) = some v := by
      rw [State.wholeValue, if_neg (by omega), seg, last, join, if_pos (Bool.and_self true), Option.map_some, if_neg unsigned]
    rw [value, four] at is
    exact ⟨.writeBlock, Or.inr rfl, is⟩

/-- A write of an entry's own row names that entry. -/
theorem entryOf_write (h : WriteTaken row src q e v s) (own : row ≠ .write ∧ row ≠ .writeBlock) :
    EntryOf row (parseReq q).key (some (leNat v)) := by
  obtain ⟨d, plain, is⟩ := row_of_write h
  refine entryOf_entryRow ?_
  cases entry : entryRow (parseReq q).key (some (leNat v)) with
  | none =>
    rw [entry] at is
    rcases plain with rfl | rfl
    · exact absurd is.symm own.1
    · exact absurd is.symm own.2
  | some x => rw [entry] at is; exact congrArg some is

/-- A plain write names no entry with a row of its own. -/
theorem entryRow_plain (h : WriteTaken row src q e v s) (plain : row = .write ∨ row = .writeBlock) :
    entryRow (parseReq q).key (some (leNat v)) = none := by
  obtain ⟨d, _, is⟩ := row_of_write h
  cases entry : entryRow (parseReq q).key (some (leNat v)) with
  | none => rfl
  | some x =>
    rw [entry, Option.getD_some] at is
    have none : EntryOf x (parseReq q).key (some (leNat v)) := entryOf_entryRow entry
    rcases plain with rfl | rfl <;> subst is <;> exact none.elim

/-! ## What an accepted write leaves behind -/

/-- The package as a value takes effect: a signed one has advanced the sequence (R435). -/
def State.signedBy (s : State) (q : DictReq) (payload : List Byte) : State :=
  if (parseReq q).opcode = 7 then { (s.opened q) with mram := { (s.opened q).mram with signedSeq := signedNumber payload } } else s.opened q

theorem exec_taken {w : State} {pending : Bool} (h : WriteChecked row src q e payload 0 v s)
    (take : (s.signedBy q payload).takeValue q.path (parseReq q).key e v = (w, pending)) :
    exec (rowInstr row src) s = finish s (w.respond q (parseReq q) 0 (if pending then 4 else 0) []) := by
  have written := exec_written h
  obtain ⟨_, _, _, entry, _, check⟩ := h
  have path : (parseReq q).path = q.path := rfl
  rw [State.serveValue, entry] at written
  dsimp only at written
  rw [check, if_neg (by simp), path] at written
  rw [State.signedBy] at take
  dsimp only at written
  rw [take] at written
  exact written

/-- An accepted write: what holds of the state that its value leaves, part by part, holds after it. -/
theorem completes_taken {w : State} {pending : Bool} {l : List Part} {Q : State → Prop} (h : WriteChecked row src q e payload 0 v s)
    (take : (s.signedBy q payload).takeValue q.path (parseReq q).key e v = (w, pending)) (h0 : w.hp0 = s.hp0) (h1 : w.hp1 = s.hp1)
    (parts : ∀ p, p ∉ servedParts ++ l → p.same s w)
    (k : ∀ t kept, (∀ p, p ∉ servedParts → p.same w t) → t.dict.service = { w.dict.service with kept := kept } →
      Answered q 0 (if pending then 4 else 0) [] s t → Frame (servedParts ++ l) s t → Q t) : Completes (rowInstr row src) s Q :=
  completes_answered (exec_taken h take) h0 h1 (fun _ m => List.mem_append_left _ m) parts k

theorem signedBy_unsigned (h : WriteTaken row src q e v s) : s.signedBy q v = s.opened q := if_neg h.1

end

end Sys2Proof.Machine
end

section
/-!
Writes whose value is a setting, a shadow table, a port's, a bank's or a lock's (20, R95, R275, R276, R398, R423, R432 to R435).
-/
namespace Sys2Proof.Machine

open Sys2Proof

/-! ## Keys -/

theorem leNat_lt (l : List Byte) : leNat l < 256 ^ l.length := by
  induction l with
  | nil => exact Nat.one_pos
  | cons b bs ih =>
    rw [leNat, List.length_cons, Nat.pow_succ]
    omega

theorem sub_lt (q : DictReq) : (parseReq q).sub < 256 := by
  refine Nat.lt_of_lt_of_le (leNat_lt _) ?_
  exact Nat.le_trans (Nat.pow_le_pow_right (by decide) (List.length_take_le 1 _)) (by decide)

theorem key_div (q : DictReq) : (parseReq q).key / 256 = (parseReq q).idx := by
  have low := sub_lt q
  rw [Req.key, dictKey]
  omega

theorem key_mod (q : DictReq) : (parseReq q).key % 256 = (parseReq q).sub := by
  have low := sub_lt q
  rw [Req.key, dictKey]
  omega

/-- A key whose value is a setting: no command, no bank. -/
def SettingKey (key : Nat) : Prop :=
  key ∉ [dictKey 0x2210 1, dictKey 0x2020 3, dictKey 0x4010 2, dictKey 0x9030 1, dictKey 0x9030 2, dictKey 0xA010 10, dictKey 0xE010 2,
    dictKey 0xE010 3, dictKey 0x1020 2, dictKey 0xC010 2, dictKey 0xC020 5]
  ∧ ¬(0x5100 ≤ key / 256 ∧ key / 256 < 0x5200)

/-- A setting that neither ports nor clocks follow. -/
def PlainKey (key : Nat) : Prop :=
  SettingKey key ∧ key ≠ dictKey 0x4100 2 ∧ ¬(0x4300 ≤ key / 256 ∧ key / 256 < 0x4318) ∧ key / 256 ≠ 0x2010

theorem tablesRow_some {n : Nat} (h : 1 ≤ n ∧ n ≤ 3) {P : Prop} (e : (match some n with
      | some 1 => some DictRow.fabricDrain
      | some 2 => some .fabricApply
      | some 3 => some .fabricCancel
      | _ => none) = none) : P := by
  obtain rfl | rfl | rfl : n = 1 ∨ n = 2 ∨ n = 3 := by omega
  all_goals cases e

theorem pitchRow_some {n : Nat} (h : 1 ≤ n ∧ n ≤ 4) {P : Prop} (e : (match some n with
      | some 1 => some DictRow.commandStrike
      | some 2 => some .commandQuiesce
      | some 3 => some .commandResume
      | some 4 => some .commandLeave
      | _ => none) = none) : P := by
  obtain rfl | rfl | rfl | rfl : n = 1 ∨ n = 2 ∨ n = 3 ∨ n = 4 := by omega
  all_goals cases e

theorem plainKey_entryRow {key n : Nat} (tables : key = dictKey 0x4010 2 → 1 ≤ n ∧ n ≤ 3) (pitch : key = dictKey 0x9030 2 → 1 ≤ n ∧ n ≤ 4)
    (bank : 0x5100 ≤ key / 256 → key / 256 < 0x5200 → key % 256 = 14 ∨ key % 256 = 15)
    (port : 0x4300 ≤ key / 256 → key / 256 < 0x4318 → key % 256 = 1) : entryRow key (some n) = none → PlainKey key := by
  unfold entryRow
  dsimp only
  refine ite_imp nofun fun a => ite_imp nofun fun b => ite_imp nofun fun c => ite_imp nofun fun d =>
    ite_imp (fun k e => tablesRow_some (tables k) e) fun f => ite_imp nofun fun g => ite_imp nofun fun h =>
    ite_imp (fun k e => pitchRow_some (pitch k) e) fun i => ite_imp nofun fun _ => ite_imp nofun fun j => ite_imp nofun fun k =>
    ite_imp nofun fun l => ite_imp nofun fun m => ite_imp nofun fun n => ite_imp nofun fun o => ite_imp nofun fun p _ => ⟨⟨?_, ?_⟩, d, ?_, m⟩
  · simp only [List.mem_cons, List.not_mem_nil, or_false, not_or]
    exact ⟨a, b, f, h, i, j, k, l, n, o, p⟩
  · exact fun in_ => g ⟨in_.1, in_.2, bank in_.1 in_.2⟩
  · exact fun in_ => c ⟨in_.1, in_.2, port in_.1 in_.2⟩

section
variable {s : State} {row : DictRow} {src : DictSrc} {q : DictReq} {e : DictEntry} {payload v : List Byte}

/-- A value that passed the checks and that names no row of its own is a setting. -/
theorem plainKey_of (h : Passed (s.opened q) (parseReq q) e v) (none : entryRow (parseReq q).key (some (leNat v)) = none) :
    PlainKey (parseReq q).key := by
  refine plainKey_entryRow (fun k => h.range (by rw [k]; rfl)) (fun k => h.range (by rw [k]; rfl)) ?_ ?_ none
  · rw [key_div, key_mod]
    intro low high
    simpa using rangeRule_entry bankEntries h.entry h.writable low high
  · rw [key_div, key_mod]
    intro low high
    have one := rangeRule_entry portEntries h.entry h.writable low high
    simp only [Bool.and_eq_true, beq_iff_eq] at one
    exact one.1.1

theorem takeValue_setting {key : Nat} (h : SettingKey key) (u : State) (path : DictPath) (e : DictEntry) (v : List Byte) :
    u.takeValue path key e v = if u.staysPending key e then (u.putPending key v e.cls, true) else (u.putSetting key v, false) := by
  obtain ⟨own, bank⟩ := h
  simp only [List.mem_cons, List.not_mem_nil, or_false, not_or] at own
  obtain ⟨a, b, c, d, e', f, g, h, i, j, k⟩ := own
  rw [State.takeValue, if_neg a, if_neg b, if_neg c, if_neg d, if_neg e', if_neg f, if_neg g, if_neg h, if_neg i, if_neg j, if_neg k,
    if_neg bank]

/-! ## Settings -/

/-- The default bytes at an index and subindex. -/
def defaultOf (idx sub : Nat) : List Byte :=
  match dictEntry idx sub with
  | some e => e.defaultBytes
  | none => []

theorem dval_eq (u : State) (idx sub : Nat) : u.dval idx sub
    = if nget [] u.dict.vals (dictKey idx sub) = [] then defaultOf idx sub else nget [] u.dict.vals (dictKey idx sub) := by
  rw [State.dval]
  split
  · next empty => rw [if_pos empty]; rfl
  · next listed => rw [if_neg listed]

theorem dval_congr {s t : State} (h : t.dict.vals = s.dict.vals) (idx sub : Nat) : t.dval idx sub = s.dval idx sub := by
  rw [dval_eq, dval_eq, h]

theorem vals_setDval (u : State) (idx sub : Nat) (v : List Byte) : (u.setDval idx sub v).dict.vals
    = nset [] u.dict.vals (dictKey idx sub) (if v = defaultOf idx sub then [] else v) := rfl

theorem dval_setDval (u : State) (idx sub : Nat) {v : List Byte} (some : v ≠ []) : (u.setDval idx sub v).dval idx sub = v := by
  rw [dval_eq, vals_setDval, nget_nset_same]
  by_cases same : v = defaultOf idx sub
  · rw [if_pos same, if_pos rfl, same]
  · rw [if_neg same, if_neg some]

theorem setDval_parts (u : State) (idx sub : Nat) (v : List Byte) : ∀ p, p ∉ [Part.settings] → p.same u (u.setDval idx sub v) := by
  intro p n
  cases p <;> simp_all [Part.same]

theorem otherEntries_setDval (u : State) (idx sub : Nat) (v : List Byte) : OtherEntries (dictKey idx sub) u (u.setDval idx sub v) :=
  fun _ ne => ⟨nget_nset_ne [] _ _ ne, rfl⟩

/-- The tables whose values are shadows (R277). -/
def shadowKeys : List Nat := [dictKey 0x4100 1, dictKey 0x4400 1, dictKey 0x4500 1]

theorem putSetting_plain {key : Nat} (h : PlainKey key) (own : key ∉ shadowKeys) (u : State) (v : List Byte) :
    u.putSetting key v =
      if key = dictKey 0xB010 5 ∨ key = dictKey 0xB010 6 ∨ key = dictKey 0xB010 7 then
        { (u.setDval (key / 256) (key % 256) v) with recorder := (u.setDval (key / 256) (key % 256) v).recorder.refilled }
      else if key = dictKey 0x2110 3 then (u.setDval (key / 256) (key % 256) v).retarget
      else u.setDval (key / 256) (key % 256) v := by
  obtain ⟨_, map, port, clock⟩ := h
  simp only [shadowKeys, List.mem_cons, List.not_mem_nil, or_false, not_or] at own
  have three : key ≠ dictKey 0x2010 3 := fun k => clock (by rw [k]; rfl)
  have five : key ≠ dictKey 0x2010 5 := fun k => clock (by rw [k]; rfl)
  rw [State.putSetting, if_neg own.1, if_neg own.2.1, if_neg own.2.2, if_neg map, if_neg three, if_neg five]
  dsimp only
  rw [if_neg port]

theorem recorder_parts (s : State) (x : Recorder) : ∀ p, p ∉ [Part.recorder] → p.same s { s with recorder := x } := by
  intro p n
  cases p <;> simp_all [Part.same]

theorem mram_parts (s : State) (x : Mram) : ∀ p, p ∉ [Part.mram] → p.same s { s with mram := x } := by
  intro p n
  cases p <;> simp_all [Part.same]

/-- What a plain setting changes: its value, and what follows from the recorder's and the point's. -/
theorem putSetting_leaves {key : Nat} (h : PlainKey key) (own : key ∉ shadowKeys) (u : State) (v : List Byte) :
    (u.putSetting key v).dict = (u.setDval (key / 256) (key % 256) v).dict ∧ (u.putSetting key v).hp0 = u.hp0
    ∧ (u.putSetting key v).hp1 = u.hp1 ∧ ∀ p, p ∉ [Part.settings, .recorder, .power] → p.same u (u.putSetting key v) := by
  have set (p : Part) (n : p ∉ [Part.settings, .recorder, .power]) := setDval_parts u (key / 256) (key % 256) v p (Part.outside n)
  rw [putSetting_plain h own]
  split
  · exact ⟨rfl, rfl, rfl, fun p n => Part.same_trans (set p n) (recorder_parts _ _ p (Part.outside n))⟩
  · split
    · exact ⟨rfl, rfl, rfl, fun p n => Part.same_trans (set p n) (retarget_parts _ p (Part.outside n))⟩
    · exact ⟨rfl, rfl, rfl, set⟩

theorem signedBy_leaves (s : State) (q : DictReq) (payload : List Byte) : (s.signedBy q payload).dict.vals = s.dict.vals
    ∧ (s.signedBy q payload).dict.pend = s.dict.pend ∧ (s.signedBy q payload).hp0 = s.hp0 ∧ (s.signedBy q payload).hp1 = s.hp1
    ∧ (s.signedBy q payload).mram
        = { s.mram with signedSeq := if (parseReq q).opcode = 7 then signedNumber payload else s.mram.signedSeq }
    ∧ ∀ p, p ∉ [Part.service, .mram] → p.same s (s.signedBy q payload) := by
  have opened := opened_parts s q
  have settings : (s.opened q).dict.vals = s.dict.vals ∧ (s.opened q).dict.pend = s.dict.pend := opened .settings (by simp)
  have mram : (s.opened q).mram = s.mram := opened .mram (by simp)
  obtain ⟨h0, h1⟩ := opened_hp s q
  rw [State.signedBy]
  split
  · refine ⟨settings.1, settings.2, h0, h1, by rw [mram], fun p n => Part.same_trans (opened p (Part.outside n)) (mram_parts _ _ p (Part.outside n))⟩
  · exact ⟨settings.1, settings.2, h0, h1, mram, fun p n => opened p (Part.outside n)⟩

theorem staysPending_signedBy (key : Nat) (e : DictEntry) : (s.signedBy q payload).staysPending key e = s.staysPending key e := by
  unfold State.signedBy State.opened
  split
  · split <;> rfl
  · split <;> rfl

theorem putPending_leaves (u : State) (key : Nat) {v : List Byte} (cls : DictCls) :
    nget [] (u.putPending key v cls).dict.pend key = v ∧ (u.putPending key v cls).dict.vals = u.dict.vals
    ∧ (∀ k, k ≠ key → nget [] (u.putPending key v cls).dict.pend k = nget [] u.dict.pend k)
    ∧ ∀ p, p ∉ [Part.service, .settings] → p.same u (u.putPending key v cls) := by
  refine ⟨nget_nset_same _ _ _ _, rfl, fun k ne => nget_nset_ne _ _ _ ne, fun p n => ?_⟩
  rw [State.putPending]
  cases p <;> simp_all [Part.same]

/-- An accepted setting is in force at once. -/
theorem completes_setting {signed : Nat} (h : WriteChecked row src q e payload 0 v s) (plain : PlainKey (parseReq q).key)
    (own : (parseReq q).key ∉ shadowKeys) (some : v ≠ []) (stays : s.staysPending (parseReq q).key e = false)
    (sign : signed = if (parseReq q).opcode = 7 then signedNumber payload else s.mram.signedSeq) : Completes (rowInstr row src) s (fun t =>
      t.dval (parseReq q).idx (parseReq q).sub = v ∧ OtherEntries (parseReq q).key s t ∧ Answered q 0 0 [] s t
      ∧ t.mram = { s.mram with signedSeq := signed } ∧ Frame (servedParts ++ [.settings, .recorder, .power, .mram]) s t) := by
  obtain ⟨vals, pend, h0, h1, mram, before⟩ := signedBy_leaves s q payload
  obtain ⟨dict, w0, w1, parts⟩ := putSetting_leaves plain own (s.signedBy q payload) v
  rw [key_div, key_mod] at dict
  have take : (s.signedBy q payload).takeValue q.path (parseReq q).key e v = ((s.signedBy q payload).putSetting (parseReq q).key v, false) := by
    rw [takeValue_setting plain.1, staysPending_signedBy, stays, if_neg (by simp)]
  refine completes_taken (l := [.settings, .recorder, .power, .mram]) h take (w0.trans h0) (w1.trans h1)
    (fun p n => Part.same_trans (before p (Part.outside n)) (parts p (Part.outside n))) fun t kept same _ an fr => ⟨?_, fun k ne => ?_, an, ?_, fr⟩
  · have now : t.dict.vals = _ := (same .settings (by decide)).1
    rw [dict] at now
    exact (dval_congr now _ _).trans (dval_setDval _ _ _ some)
  · obtain ⟨now, still⟩ := (same .settings (by decide) : t.dict.vals = _ ∧ t.dict.pend = _)
    obtain ⟨other, _⟩ := otherEntries_setDval (s.signedBy q payload) (parseReq q).idx (parseReq q).sub v k ne
    rw [dict] at now still
    exact ⟨by rw [now, other, vals], by rw [still]; exact congrArg (fun m => nget [] m k) pend⟩
  · rw [(same .mram (by decide) : t.mram = _), (parts .mram (by decide) : _ = (s.signedBy q payload).mram), mram, sign]

/-- A value of a live entry while a job is held, and of an entry of the next reset, is left pending. -/
theorem completes_pending {signed : Nat} (h : WriteChecked row src q e payload 0 v s) (plain : PlainKey (parseReq q).key)
    (stays : s.staysPending (parseReq q).key e = true)
    (sign : signed = if (parseReq q).opcode = 7 then signedNumber payload else s.mram.signedSeq) : Completes (rowInstr row src) s (fun t =>
      nget [] t.dict.pend (parseReq q).key = v ∧ t.dict.vals = s.dict.vals ∧ OtherEntries (parseReq q).key s t ∧ Answered q 0 4 [] s t
      ∧ t.mram = { s.mram with signedSeq := signed } ∧ Frame (servedParts ++ [.settings, .mram]) s t) := by
  obtain ⟨vals, pend, h0, h1, mram, before⟩ := signedBy_leaves s q payload
  obtain ⟨own, valsKept, other, parts⟩ := putPending_leaves (s.signedBy q payload) (parseReq q).key (v := v) e.cls
  have take : (s.signedBy q payload).takeValue q.path (parseReq q).key e v
      = ((s.signedBy q payload).putPending (parseReq q).key v e.cls, true) := by
    rw [takeValue_setting plain.1, staysPending_signedBy, stays, if_pos rfl]
  refine completes_taken (l := [.settings, .mram]) h take h0 h1
    (fun p n => Part.same_trans (before p (Part.outside n)) (parts p (Part.outside n))) fun t kept same _ an fr =>
      ⟨?_, ?_, fun k ne => ?_, an, ?_, fr⟩
  · rw [(same .settings (by decide) : t.dict.vals = _ ∧ t.dict.pend = _).2, own]
  · rw [(same .settings (by decide) : t.dict.vals = _ ∧ t.dict.pend = _).1, valsKept, vals]
  · obtain ⟨now, still⟩ := (same .settings (by decide) : t.dict.vals = _ ∧ t.dict.pend = _)
    exact ⟨by rw [now, valsKept, vals], by rw [still, other k ne, pend]⟩
  · rw [(same .mram (by decide) : t.mram = _), (parts .mram (by decide) : _ = (s.signedBy q payload).mram), mram, sign]

end

end Sys2Proof.Machine
end

section
/-!
Writes of the shadow tables, the port map, the ports' and the blocks' enables, the command-store banks and the locks (R95, R275 to
R277, R398, R423).
-/
namespace Sys2Proof.Machine

open Sys2Proof

section
variable {s : State} {row : DictRow} {src : DictSrc} {q : DictReq} {e : DictEntry} {payload v : List Byte}

/-! ## Settings of the quiesce class -/

theorem staysPending_quiesce {key : Nat} (cls : e.cls = .quiesce)
    (apart : key ∉ [dictKey 0xA010 3, dictKey 0xA010 4, dictKey 0xA010 5]) (u : State) : u.staysPending key e = false := by
  rw [State.staysPending, cls]
  simp [apart]

theorem Passed.cls_of {u : State} (h : Passed u (parseReq q) e v) {idx sub : Nat} (key : (parseReq q).key = dictKey idx sub) (low : sub < 256)
    {c : DictCls} (table : (dictEntry idx sub).map DictEntry.cls = some c) : e.cls = c := by
  have i : (parseReq q).idx = idx := by
    rw [← key_div, key, dictKey]
    omega
  have j : (parseReq q).sub = sub := by
    rw [← key_mod, key, dictKey]
    omega
  have entry := h.entry
  rw [i, j] at entry
  rw [entry] at table
  exact Option.some.inj table

theorem opened_fab (s : State) (q : DictReq) : (s.opened q).fab = s.fab := opened_parts s q .fab (by simp)

/-- `t` is `s` but for the fabric. -/
def FabOnly (s t : State) : Prop := ∃ b, t = { s with fab := b }

theorem FabOnly.trans {s t u : State} (h : FabOnly s t) (k : FabOnly t u) : FabOnly s u := by
  obtain ⟨b, rfl⟩ := h
  obtain ⟨c, rfl⟩ := k
  exact ⟨c, rfl⟩

theorem FabOnly.modFab (s : State) (f : Fabric → Fabric) : FabOnly s (s.modFab f) := ⟨f s.fab, rfl⟩

/-- An accepted write that changes the fabric alone. -/
theorem completes_fabOnly {w : State} (h : WriteTaken row src q e v s)
    (take : (s.opened q).takeValue q.path (parseReq q).key e v = (w, false)) (only_ : FabOnly (s.opened q) w) :
    Completes (rowInstr row src) s (fun t => t.fab = w.fab ∧ Answered q 0 0 [] s t ∧ Frame (servedParts ++ [.fab]) s t) := by
  obtain ⟨b, rfl⟩ := only_
  obtain ⟨h0, h1⟩ := opened_hp s q
  have unsigned := signedBy_unsigned h
  have parts (p : Part) (n : p ∉ servedParts ++ [.fab]) : p.same s { (s.opened q) with fab := b } :=
    Part.same_trans (opened_parts s q p (Part.outside n)) (fab_parts _ b p (Part.outside n))
  exact completes_taken (w := { (s.opened q) with fab := b }) (pending := false) h.2 (by rw [unsigned]; exact take) h0 h1 parts
    fun t _ same _ an fr => ⟨same .fab (by decide), an, fr⟩

theorem completes_takenFab {f : Fabric → Fabric} (h : WriteTaken row src q e v s)
    (take : (s.opened q).takeValue q.path (parseReq q).key e v = ((s.opened q).modFab f, false)) : Completes (rowInstr row src) s (fun t =>
      t.fab = f s.fab ∧ Answered q 0 0 [] s t ∧ Frame (servedParts ++ [.fab]) s t) :=
  completes_mono (completes_fabOnly h take (FabOnly.modFab _ f)) fun _ done => ⟨done.1.trans (congrArg f (opened_fab s q)), done.2⟩

/-! ## Shadow tables (R277) -/

theorem wordsOf_length (w n : Nat) (b : List Byte) : (wordsOf w n b).length = n := by
  induction n generalizing b with
  | zero => rfl
  | succ n ih => rw [wordsOf, List.length_cons, ih]

theorem wordsOf_getD (w : Nat) {n k : Nat} (b : List Byte) (h : k < n) : (wordsOf w n b)[k]? = some (leNat (slice b (w * k) w)) := by
  induction n generalizing b k with
  | zero => exact absurd h (Nat.not_lt_zero k)
  | succ n ih =>
    cases k with
    | zero => rfl
    | succ k =>
      rw [wordsOf, List.getElem?_cons_succ, ih _ (Nat.lt_of_succ_lt_succ h), slice, slice, List.drop_drop, Nat.mul_succ, Nat.add_comm w]

/-- A map of the words that are not the unlisted one reads them all. -/
theorem nget_listed {d : Nat} (ws : List Nat) (a : Nat) {k w : Nat} (h : ws[k]? = some w) :
    nget d (((List.range' a ws.length).zip ws).filter (fun e => e.2 != d)) (a + k) = w := by
  induction ws generalizing a k with
  | nil => cases h
  | cons x xs ih =>
    rw [List.length_cons, List.range'_succ, List.zip_cons_cons, List.filter_cons]
    cases k with
    | zero =>
      cases h
      split
      · exact if_pos rfl
      · next unlisted =>
        have default : w = d := by simpa using unlisted
        refine (nget_unlisted fun listed => ?_).trans default.symm
        obtain ⟨e, mem, at_⟩ := List.any_eq_true.1 listed
        have above := (List.mem_range'_1.1 (List.of_mem_zip (List.mem_filter.1 mem).1).1).1
        rw [beq_iff_eq] at at_
        omega
    | succ k =>
      have later := ih (a + 1) h
      rw [Nat.add_assoc, Nat.add_comm 1] at later
      split
      · rw [nget, if_neg (by omega), later]
      · exact later

theorem nget_words {d w n k : Nat} (b : List Byte) (f : Nat → Nat) (h : k < n) :
    nget d (((List.range n).zip ((wordsOf w n b).map f)).filter (fun e => e.2 != d)) k = f (leNat (slice b (w * k) w)) := by
  have listed := nget_listed (d := d) ((wordsOf w n b).map f) 0 (k := k) (w := f (leNat (slice b (w * k) w)))
    (by rw [List.getElem?_map, wordsOf_getD w b h, Option.map_some])
  rw [List.length_map, wordsOf_length, Nat.zero_add, ← List.range_eq_range'] at listed
  exact listed

theorem settingKey_shadow {key : Nat} (h : key ∈ shadowKeys) : SettingKey key := by
  simp only [shadowKeys, List.mem_cons, List.not_mem_nil, or_false] at h
  unfold SettingKey
  rcases h with rfl | rfl | rfl <;> decide

theorem takeValue_shadow (h : WriteTaken row src q e v s) (key : (parseReq q).key ∈ shadowKeys) :
    (s.opened q).takeValue q.path (parseReq q).key e v = ((s.opened q).putSetting (parseReq q).key v, false) := by
  have passed := passed_of h.2
  have cls : e.cls = .quiesce := by
    simp only [shadowKeys, List.mem_cons, List.not_mem_nil, or_false] at key
    rcases key with key | key | key
    · exact passed.cls_of key (by decide) (by decide)
    · exact passed.cls_of key (by decide) (by decide)
    · exact passed.cls_of key (by decide) (by decide)
  rw [takeValue_setting (settingKey_shadow key), staysPending_quiesce cls ?_, if_neg (by simp)]
  simp only [shadowKeys, List.mem_cons, List.not_mem_nil, or_false] at key
  rcases key with key | key | key <;> rw [key] <;> decide

theorem completes_ownPosition (h : WriteTaken row src q e v s) (key : (parseReq q).key = dictKey 0x4100 1) : Completes (rowInstr row src) s (fun t =>
    t.fab = { s.fab with shadow := { s.fab.shadow with own := leNat v } } ∧ Answered q 0 0 [] s t ∧ Frame (servedParts ++ [.fab]) s t) := by
  have take := takeValue_shadow h (by rw [key]; decide)
  rw [key] at take
  exact completes_takenFab (f := fun b => { b with shadow := { b.shadow with own := leNat v } }) h (by rw [key]; exact take)

theorem putSetting_peg (u : State) (v : List Byte) : u.putSetting (dictKey 0x4400 1) v = u.modFab fun b => { b with shadow := { b.shadow with
    peg := ((List.range 512).zip (wordsOf 2 512 v)).filter (fun e => e.2 != 0xFFFF) } } := by
  rw [State.putSetting, if_neg (by decide), if_pos rfl]

theorem putSetting_route (u : State) (v : List Byte) : u.putSetting (dictKey 0x4500 1) v = u.modFab fun b => { b with shadow := { b.shadow with
    route := ((List.range 512).zip ((wordsOf 8 512 v).map cleanPath)).filter (fun e => e.2 != 0) } } := by
  rw [State.putSetting, if_neg (by decide), if_neg (by decide), if_pos rfl]

theorem completes_pegTable (h : WriteTaken row src q e v s) (key : (parseReq q).key = dictKey 0x4400 1) : Completes (rowInstr row src) s (fun t =>
    (∀ k, k < 512 → t.fab.shadow.pegOf k = leNat (slice v (2 * k) 2))
    ∧ t.fab = { s.fab with shadow := { s.fab.shadow with peg := t.fab.shadow.peg } } ∧ Answered q 0 0 [] s t
    ∧ Frame (servedParts ++ [.fab]) s t) := by
  have take := takeValue_shadow h (by rw [key]; decide)
  rw [key, putSetting_peg] at take
  refine completes_mono (completes_takenFab (f := fun b => { b with shadow := { b.shadow with
      peg := ((List.range 512).zip (wordsOf 2 512 v)).filter (fun e => e.2 != 0xFFFF) } }) h (by rw [key]; exact take)) fun t done => ?_
  obtain ⟨fab, an, fr⟩ := done
  refine ⟨fun k low => ?_, by rw [fab], an, fr⟩
  have words := nget_words (d := 0xFFFF) (w := 2) v id low
  rw [List.map_id, id_eq] at words
  rw [fab, Tables.pegOf, words]

theorem completes_routeTable (h : WriteTaken row src q e v s) (key : (parseReq q).key = dictKey 0x4500 1) : Completes (rowInstr row src) s (fun t =>
    (∀ k, k < 512 → nget 0 t.fab.shadow.route k = cleanPath (leNat (slice v (8 * k) 8)))
    ∧ t.fab = { s.fab with shadow := { s.fab.shadow with route := t.fab.shadow.route } } ∧ Answered q 0 0 [] s t
    ∧ Frame (servedParts ++ [.fab]) s t) := by
  have take := takeValue_shadow h (by rw [key]; decide)
  rw [key, putSetting_route] at take
  refine completes_mono (completes_takenFab (f := fun b => { b with shadow := { b.shadow with
      route := ((List.range 512).zip ((wordsOf 8 512 v).map cleanPath)).filter (fun e => e.2 != 0) } }) h (by rw [key]; exact take)) fun t done => ?_
  obtain ⟨fab, an, fr⟩ := done
  refine ⟨fun k low => ?_, by rw [fab], an, fr⟩
  have words := nget_words (d := 0) (w := 8) v cleanPath low
  rw [fab, words]

/-! ## Ports that may train (R275, R276) -/

theorem tryTrain_parts (u : State) (p : Nat) : ∀ x, x ∉ [Part.fab] → x.same u (u.tryTrain p) := by
  intro x n
  rw [State.tryTrain]
  split
  · exact modPort_parts u p _ x n
  · exact x.same_refl u

theorem otherPorts_tryTrain (u : State) (p : Nat) : OtherPorts p u (u.tryTrain p) := by
  intro x ne
  rw [State.tryTrain]
  split
  · rw [State.fport_modPort, if_neg ne]
  · rfl

theorem portMap_tryTrain (u : State) (p : Nat) : (u.tryTrain p).fab.portMap = u.fab.portMap := by
  rw [State.tryTrain]
  split <;> rfl

/-- A port that is DOWN stays so or trains. -/
theorem tryTrain_down {u : State} {p : Nat} (down : (u.fport p).st = .down) :
    ((u.tryTrain p).fport p).st = .down ∨ ((u.tryTrain p).fport p).st = .training := by
  rw [State.tryTrain]
  split
  · exact Or.inr (by rw [State.fport_modPort, if_pos rfl])
  · exact Or.inl down

theorem tryTrain_trains {u : State} {p : Nat} (down : (u.fport p).st = .down) (ready : (u.fport p).retrain = false)
    (may : u.mayTrain p = true) : ((u.tryTrain p).fport p).st = .training ∧ ((u.tryTrain p).fport p).trained = u.fab.portMap.getD p 0xFFFF := by
  rw [State.tryTrain, if_pos (by rw [down, ready, may]; rfl), State.fport_modPort, if_pos rfl]
  exact ⟨rfl, rfl⟩

theorem adminChanged_leaves (u : State) (p : Nat) : (u.adminChanged p).hp0 = u.hp0 ∧ (u.adminChanged p).hp1 = u.hp1
    ∧ ∀ x, x ∉ [Part.fab, .recorder] → x.same u (u.adminChanged p) := by
  unfold State.adminChanged
  split
  · exact ⟨by simp, by simp, fun x n => tryTrain_parts u p x (Part.outside n)⟩
  · split
    · exact ⟨by simp, by simp, portDown_parts u p 3⟩
    · exact ⟨rfl, rfl, fun x n => modPort_parts u p _ x (Part.outside n)⟩
    · exact ⟨rfl, rfl, fun x n => modPort_parts u p _ x (Part.outside n)⟩

/-- A port that may not train goes DOWN. -/
theorem adminChanged_off {u : State} {p : Nat} (off : u.dnat (0x4300 + p) 1 ≠ 1) : ((u.adminChanged p).fport p).st = .down := by
  rw [State.adminChanged, if_neg off]
  split
  · exact (u.fport_portDown p 3).1
  · next down => rw [State.fport_modPort, if_pos rfl]; exact down
  · rw [State.fport_modPort, if_pos rfl]

theorem dval_setDval_ne (u : State) {idx sub i j : Nat} (v : List Byte) (ne : dictKey i j ≠ dictKey idx sub) :
    (u.setDval idx sub v).dval i j = u.dval i j := by
  rw [dval_eq, dval_eq, vals_setDval, nget_nset_ne _ _ _ ne]

theorem settingKey_range {key : Nat} (h : 0x4300 ≤ key / 256 ∧ key / 256 < 0x4318 ∨ key / 256 = 0x2010) : SettingKey key := by
  refine ⟨?_, by omega⟩
  simp only [List.mem_cons, List.not_mem_nil, or_false, not_or, dictKey]
  omega

theorem takeValue_port (h : WriteTaken .fportAdminEnable src q e v s) :
    0x4300 ≤ (parseReq q).idx ∧ (parseReq q).idx < 0x4318 ∧ (parseReq q).sub = 1 ∧ v ≠ []
    ∧ (s.opened q).takeValue q.path (parseReq q).key e v
      = (((s.opened q).setDval (parseReq q).idx 1 v).adminChanged ((parseReq q).idx - 0x4300), false) := by
  have key : 0x4300 ≤ (parseReq q).key / 256 ∧ (parseReq q).key / 256 < 0x4318 ∧ (parseReq q).key % 256 = 1 := entryOf_write h (by decide)
  obtain ⟨low, high, one⟩ := key
  have passed := passed_of h.2
  have rule := rangeRule_entry portEntries passed.entry passed.writable (by rwa [key_div] at low) (by rwa [key_div] at high)
  simp only [Bool.and_eq_true, beq_iff_eq] at rule
  have some : v ≠ [] := by
    rintro rfl
    have length := passed.length
    rw [lengthOk, rule.2] at length
    cases length
  have apart : (parseReq q).key ∉ [dictKey 0xA010 3, dictKey 0xA010 4, dictKey 0xA010 5] := by
    simp only [List.mem_cons, List.not_mem_nil, or_false, not_or, dictKey]
    omega
  have put (u : State) : u.putSetting (parseReq q).key v
      = (u.setDval ((parseReq q).key / 256) ((parseReq q).key % 256) v).adminChanged ((parseReq q).key / 256 - 0x4300) := by
    rw [State.putSetting]
    repeat rw [if_neg (by simp only [dictKey]; omega)]
    rw [if_pos ⟨low, high⟩]
  rw [takeValue_setting (settingKey_range (Or.inl ⟨low, high⟩)), staysPending_quiesce rule.1.2 apart, if_neg (by simp), put, one]
  rw [key_div] at low high ⊢
  rw [key_mod] at one
  exact ⟨low, high, one, some, rfl⟩

theorem completes_portEnable (h : WriteTaken .fportAdminEnable src q e v s) : Completes (.fportAdminEnable src) s (fun t =>
    t.dval (parseReq q).idx 1 = v ∧ OtherEntries (parseReq q).key s t
    ∧ (v = [0] → (t.fport ((parseReq q).idx - 0x4300)).st = .down)
    ∧ (v = [1] → (s.fport ((parseReq q).idx - 0x4300)).st = .down → (s.fport ((parseReq q).idx - 0x4300)).retrain = false →
      bits 15 0 (s.fab.portMap.getD ((parseReq q).idx - 0x4300) 0xFFFF) ≠ 0xFFFF → bitAt ((parseReq q).idx - 0x4300) (s.dnat 0x2010 5) = true →
      (t.fport ((parseReq q).idx - 0x4300)).st = .training
      ∧ (t.fport ((parseReq q).idx - 0x4300)).trained = s.fab.portMap.getD ((parseReq q).idx - 0x4300) 0xFFFF)
    ∧ (v = [1] → OtherPorts ((parseReq q).idx - 0x4300) s t)
    ∧ Answered q 0 0 [] s t ∧ Frame (servedParts ++ [.settings, .fab, .recorder]) s t) := by
  obtain ⟨low, high, one, some, take⟩ := takeValue_port h
  have key : (parseReq q).key = dictKey (parseReq q).idx 1 := by rw [Req.key, one]
  have port : 0x4300 + ((parseReq q).idx - 0x4300) = (parseReq q).idx := by omega
  generalize (parseReq q).idx - 0x4300 = p at take port ⊢
  obtain ⟨h0, h1⟩ := opened_hp s q
  obtain ⟨a0, a1, admin⟩ := adminChanged_leaves ((s.opened q).setDval (parseReq q).idx 1 v) p
  have opened := opened_parts s q
  have settings : (s.opened q).dict.vals = s.dict.vals ∧ (s.opened q).dict.pend = s.dict.pend := opened .settings (by simp)
  have set := setDval_parts (s.opened q) (parseReq q).idx 1 v
  have own : ((s.opened q).setDval (parseReq q).idx 1 v).dval (0x4300 + p) 1 = v := by rw [port, dval_setDval _ _ _ some]
  have fab : ((s.opened q).setDval (parseReq q).idx 1 v).fab = s.fab := opened_fab s q
  refine completes_taken (l := [.settings, .fab, .recorder]) (pending := false) h.2 (by rw [signedBy_unsigned h]; exact take) (a0.trans h0)
    (a1.trans h1) (fun x n => Part.same_trans (opened x (Part.outside n)) (Part.same_trans (set x (Part.outside n)) (admin x (Part.outside n))))
    fun t kept same _ an fr => ⟨?_, fun k ne => ?_, fun zero => ?_, fun on down ready wired clock => ?_, fun on x ne => ?_, an, fr⟩
  · have vals := (Part.same_trans (admin .settings (by simp)) (same .settings (by decide))).1
    exact (dval_congr vals _ _).trans (dval_setDval _ _ _ some)
  · obtain ⟨vals, pend⟩ := Part.same_trans (admin .settings (by simp)) (same .settings (by decide))
    rw [key] at ne
    obtain ⟨other, still⟩ := otherEntries_setDval (s.opened q) (parseReq q).idx 1 v k ne
    exact ⟨by rw [vals, other, settings.1], by rw [pend, still, settings.2]⟩
  · rw [State.fport_congr (same .fab (by decide))]
    exact adminChanged_off (by rw [State.dnat, own, zero]; decide)
  · have trains : ((s.opened q).setDval (parseReq q).idx 1 v).adminChanged p = ((s.opened q).setDval (parseReq q).idx 1 v).tryTrain p :=
      if_pos (by rw [State.dnat, own, on]; decide)
    have gate : ((s.opened q).setDval (parseReq q).idx 1 v).dnat 0x2010 5 = s.dnat 0x2010 5 := by
      rw [State.dnat, dval_setDval_ne _ _ (by simp only [dictKey]; omega), dval_congr settings.1, ← State.dnat]
    rw [State.fport_congr (same .fab (by decide)), trains]
    have trained := tryTrain_trains (u := (s.opened q).setDval (parseReq q).idx 1 v) (p := p)
      (by rw [State.fport_congr fab]; exact down) (by rw [State.fport_congr fab]; exact ready)
      (by
        rw [State.mayTrain, gate, fab, clock, State.dnat, own, on]
        exact Bool.and_eq_true_iff.2 ⟨Bool.and_eq_true_iff.2 ⟨by decide, bne_iff_ne.2 wired⟩, rfl⟩)
    rw [fab] at trained
    exact trained
  · have trains : ((s.opened q).setDval (parseReq q).idx 1 v).adminChanged p = ((s.opened q).setDval (parseReq q).idx 1 v).tryTrain p :=
      if_pos (by rw [State.dnat, own, on]; decide)
    rw [State.fport_congr (same .fab (by decide)), trains, otherPorts_tryTrain _ _ x ne, State.fport_congr fab]

/-! ## The port map (R275) -/

/-- One port under a new map. -/
def State.remap (old new : List Nat) (u : State) (p : Nat) : State :=
  if old.getD p 0 = new.getD p 0 then u
  else (if (u.fport p).st == .held then u.modPort p (fun q => { q with st := .down, retrain := false }) else u).tryTrain p

theorem FabOnly.refl (s : State) : FabOnly s s := ⟨s.fab, rfl⟩

theorem FabOnly.tryTrain (u : State) (p : Nat) : FabOnly u (u.tryTrain p) := by
  rw [State.tryTrain]
  split
  · exact FabOnly.modFab u _
  · exact FabOnly.refl u

section
variable {old new : List Nat}

theorem FabOnly.remap (u : State) (p : Nat) : FabOnly u (u.remap old new p) := by
  rw [State.remap]
  split
  · exact FabOnly.refl u
  · split
    · exact (FabOnly.modFab u _).trans (FabOnly.tryTrain _ p)
    · exact FabOnly.tryTrain u p

theorem portMap_remap (u : State) (p : Nat) : (u.remap old new p).fab.portMap = u.fab.portMap := by
  rw [State.remap]
  split
  · rfl
  · rw [portMap_tryTrain]
    split <;> rfl

theorem fport_remap (u : State) {p x : Nat} (h : x = p → old.getD x 0 = new.getD x 0) : (u.remap old new p).fport x = u.fport x := by
  rw [State.remap]
  split
  · rfl
  · next changed =>
    have ne : x ≠ p := by
      rintro rfl
      exact changed (h rfl)
    rw [otherPorts_tryTrain _ _ x ne]
    split
    · rw [State.fport_modPort, if_neg ne]
    · rfl

theorem remap_held {u : State} {p : Nat} (changed : old.getD p 0 ≠ new.getD p 0) (held : (u.fport p).st = .held) :
    ((u.remap old new p).fport p).st = .down ∨ ((u.remap old new p).fport p).st = .training := by
  rw [State.remap, if_neg changed, if_pos (beq_iff_eq.2 held)]
  refine tryTrain_down ?_
  rw [ State.fport_modPort, if_pos rfl]

theorem foldl_remap (l : List Nat) (u : State) : FabOnly u (l.foldl (State.remap old new) u)
    ∧ (l.foldl (State.remap old new) u).fab.portMap = u.fab.portMap
    ∧ ∀ x, x ∉ l ∨ old.getD x 0 = new.getD x 0 → (l.foldl (State.remap old new) u).fport x = u.fport x := by
  induction l generalizing u with
  | nil => exact ⟨FabOnly.refl u, rfl, fun _ _ => rfl⟩
  | cons p l ih =>
    obtain ⟨only_, map, ports⟩ := ih (u.remap old new p)
    refine ⟨(FabOnly.remap u p).trans only_, map.trans (portMap_remap u p), fun x h => ?_⟩
    rw [List.foldl_cons, ports x (h.imp_left fun n m => n (List.mem_cons_of_mem _ m)), fport_remap]
    rintro rfl
    exact h.resolve_left fun n => n List.mem_cons_self

theorem foldl_remap_held {l : List Nat} (single : l.Nodup) {u : State} {p : Nat} (mem : p ∈ l) (changed : old.getD p 0 ≠ new.getD p 0)
    (held : (u.fport p).st = .held) : ((l.foldl (State.remap old new) u).fport p).st = .down
      ∨ ((l.foldl (State.remap old new) u).fport p).st = .training := by
  induction l generalizing u with
  | nil => cases mem
  | cons x l ih =>
    obtain ⟨fresh, rest⟩ := List.nodup_cons.1 single
    rw [List.foldl_cons]
    by_cases at_ : p = x
    · subst at_
      rw [(foldl_remap l _).2.2 p (Or.inl fresh)]
      exact remap_held changed held
    · exact ih rest ((List.mem_cons.1 mem).resolve_left at_) (by rw [fport_remap u fun e => absurd e at_]; exact held)

end

theorem completes_portMap (h : WriteTaken .portMapWrite src q e v s) : Completes (.portMapWrite src) s (fun t => t.fab.portMap = mapEntries v
    ∧ (∀ p, s.fab.portMap.getD p 0 = (mapEntries v).getD p 0 → t.fport p = s.fport p)
    ∧ (∀ p, p < 24 → s.fab.portMap.getD p 0 ≠ (mapEntries v).getD p 0 → (s.fport p).st = .held →
      (t.fport p).st = .down ∨ (t.fport p).st = .training)
    ∧ Answered q 0 0 [] s t ∧ Frame (servedParts ++ [.fab]) s t) := by
  have key : (parseReq q).key = dictKey 0x4100 2 := entryOf_write h (by decide)
  have cls : e.cls = .quiesce := (passed_of h.2).cls_of key (by decide) (by decide)
  have fab := opened_fab s q
  have put : (s.opened q).putSetting (dictKey 0x4100 2) v = (List.range 24).foldl (State.remap s.fab.portMap (mapEntries v))
      ((s.opened q).modFab fun b => { b with portMap := mapEntries v }) := by
    rw [State.putSetting, if_neg (by decide), if_neg (by decide), if_neg (by decide), if_pos rfl, State.putPortMap, fab]
    rfl
  have take : (s.opened q).takeValue q.path (parseReq q).key e v = ((List.range 24).foldl (State.remap s.fab.portMap (mapEntries v))
      ((s.opened q).modFab fun b => { b with portMap := mapEntries v }), false) := by
    rw [key, takeValue_setting (by unfold SettingKey; decide), staysPending_quiesce cls (by decide), if_neg (by simp), put]
  obtain ⟨only_, map, ports⟩ := foldl_remap (old := s.fab.portMap) (new := mapEntries v) (List.range 24)
    ((s.opened q).modFab fun b => { b with portMap := mapEntries v })
  have before (p : Nat) : ((s.opened q).modFab fun b => { b with portMap := mapEntries v }).fport p = s.fport p :=
    State.fport_of_ports (congrArg Fabric.ports fab :) p
  refine completes_mono (completes_fabOnly h take ((FabOnly.modFab _ _).trans only_)) fun t done => ?_
  obtain ⟨same, an, fr⟩ := done
  refine ⟨by rw [same, map]; rfl, fun p kept => ?_, fun p inside changed held => ?_, an, fr⟩
  · rw [State.fport_congr same, ports p (Or.inr kept), before]
  · rw [State.fport_congr same]
    exact foldl_remap_held List.nodup_range (List.mem_range.2 inside) changed (by rw [before]; exact held)

/-! ## Clock enables (R398) -/

theorem leBytes_ne_nil {len : Nat} (n : Nat) (pos : 0 < len) : leBytes len n ≠ [] := by
  intro none
  have length := length_leBytes len n
  rw [none] at length
  exact absurd length (by simp; omega)

/-- The bytes that a write of `ClockEnable` leaves (R6, R398). -/
def clockBytes (sub : Nat) (v : List Byte) : List Byte :=
  if sub = 3 then leBytes 4 (leNat v % 2 ^ 26) else if sub = 5 then leBytes 4 (leNat v % 2 ^ 24) else v

theorem leNat_clockBytes (sub : Nat) (v : List Byte) : leNat (clockBytes sub v)
    = if sub = 3 then leNat v % 2 ^ 26 else if sub = 5 then leNat v % 2 ^ 24 else leNat v := by
  rw [clockBytes]
  split
  · rw [leNat_leBytes]
    omega
  · split
    · rw [leNat_leBytes]
      omega
    · rfl

theorem putSetting_clock (u : State) {key : Nat} (h : key / 256 = 0x2010) (v : List Byte) :
    u.putSetting key v = u.setDval (key / 256) (key % 256) (clockBytes (key % 256) v) := by
  have apart : key ≠ dictKey 0x4100 1 ∧ key ≠ dictKey 0x4400 1 ∧ key ≠ dictKey 0x4500 1 ∧ key ≠ dictKey 0x4100 2
      ∧ ¬(key = dictKey 0xB010 5 ∨ key = dictKey 0xB010 6 ∨ key = dictKey 0xB010 7) ∧ key ≠ dictKey 0x2110 3 := by
    simp only [dictKey, ne_eq]
    omega
  obtain ⟨own, peg, route, map, recorder, point⟩ := apart
  rw [State.putSetting, if_neg own, if_neg peg, if_neg route, if_neg map, clockBytes]
  by_cases three : key % 256 = 3
  · rw [if_pos (by simp only [dictKey]; omega), if_pos three]
  · rw [if_neg (by simp only [dictKey]; omega), if_neg three]
    by_cases five : key % 256 = 5
    · rw [if_pos (by simp only [dictKey]; omega), if_pos five]
    · rw [if_neg (by simp only [dictKey]; omega), if_neg five]
      dsimp only
      rw [if_neg recorder, if_neg point, if_neg (by omega)]

theorem completes_clockEnable (h : WriteTaken .clockEnableWrite src q e v s) : Completes (.clockEnableWrite src) s (fun t =>
    t.dnat 0x2010 (parseReq q).sub
      = (if (parseReq q).sub = 3 then leNat v % 2 ^ 26 else if (parseReq q).sub = 5 then leNat v % 2 ^ 24 else leNat v)
    ∧ OtherEntries (parseReq q).key s t ∧ Answered q 0 0 [] s t ∧ Frame (servedParts ++ [.settings]) s t) := by
  have at_ : (parseReq q).key / 256 = 0x2010 := entryOf_write h (by decide)
  have idx : (parseReq q).idx = 0x2010 := (key_div q).symm.trans at_
  have key : (parseReq q).key = dictKey 0x2010 (parseReq q).sub := by rw [Req.key, idx]
  have passed := passed_of h.2
  have rule := rangeRule_entry clockEntries passed.entry passed.writable (by omega) (by omega)
  simp only [Bool.and_eq_true, Bool.or_eq_true, beq_iff_eq, decide_eq_true_eq] at rule
  have some : v ≠ [] := by
    rintro rfl
    have length := passed.length
    rw [lengthOk] at length
    rcases rule.2 with four | ⟨none, pos⟩
    · rw [four] at length
      cases length
    · rw [none] at length
      dsimp only at length
      repeat rw [if_neg (by simp only [dictKey] at key ⊢; omega)] at length
      rw [beq_iff_eq] at length
      exact absurd length (by simp; omega)
  have apart : (parseReq q).key ∉ [dictKey 0xA010 3, dictKey 0xA010 4, dictKey 0xA010 5] := by
    simp only [List.mem_cons, List.not_mem_nil, or_false, not_or, dictKey]
    omega
  have bytes : clockBytes (parseReq q).sub v ≠ [] := by
    rw [clockBytes]
    split
    · exact leBytes_ne_nil _ (by decide)
    · split
      · exact leBytes_ne_nil _ (by decide)
      · exact some
  have take : (s.opened q).takeValue q.path (parseReq q).key e v
      = ((s.opened q).setDval 0x2010 (parseReq q).sub (clockBytes (parseReq q).sub v), false) := by
    rw [takeValue_setting (settingKey_range (Or.inr at_)), staysPending_quiesce rule.1 apart, if_neg (by simp), putSetting_clock _ at_, key_mod,
      key_div, idx]
  obtain ⟨h0, h1⟩ := opened_hp s q
  have opened := opened_parts s q
  have settings : (s.opened q).dict.vals = s.dict.vals ∧ (s.opened q).dict.pend = s.dict.pend := opened .settings (by simp)
  refine completes_taken (w := (s.opened q).setDval 0x2010 (parseReq q).sub (clockBytes (parseReq q).sub v)) (l := [.settings])
    (pending := false) h.2 (by rw [signedBy_unsigned h]; exact take) h0 h1
    (fun x n => Part.same_trans (opened x (Part.outside n)) (setDval_parts _ _ _ _ x (Part.outside n))) fun t kept same _ an fr =>
      ⟨?_, fun k ne => ?_, an, fr⟩
  · rw [State.dnat, dval_congr (same .settings (by decide)).1, dval_setDval _ _ _ bytes, leNat_clockBytes]
  · obtain ⟨vals, pend⟩ := (same .settings (by decide) : t.dict.vals = _ ∧ t.dict.pend = _)
    rw [key] at ne
    obtain ⟨other, still⟩ := otherEntries_setDval (s.opened q) 0x2010 (parseReq q).sub (clockBytes (parseReq q).sub v) k ne
    exact ⟨by rw [vals, other, settings.1], by rw [pend, still, settings.2]⟩

/-! ## Command-store banks (R95) -/

/-- A bank that a host has written. -/
def hostBank (v : List Byte) : Bank := { st := .loading, role := none, cmds := [], descs := [], raw := writeBytes [] 0 v, len := v.length }

theorem hostBank_bytes (v : List Byte) : (hostBank v).bytes = v := readBytes_writeBytes [] 0 v

theorem loadBank_bankOf (u : State) (c : Nat) {sub : Nat} (v : List Byte) (two : sub = 14 ∨ sub = 15) :
    ((u.loadBank c sub v).core c).bankOf sub = hostBank v ∧ ((u.loadBank c sub v).core c).bankOf (29 - sub) = (u.core c).bankOf (29 - sub) := by
  rw [State.loadBank, State.core_modCore_same]
  rcases two with rfl | rfl <;> exact ⟨rfl, rfl⟩

theorem loadBank_parts (u : State) (c sub : Nat) (v : List Byte) : ∀ x, x ∉ [Part.cores] → x.same u (u.loadBank c sub v) := by
  rw [State.loadBank]
  exact modCore_parts u c _

theorem loadBank_others (u : State) (c sub : Nat) (v : List Byte) : OtherCores c u (u.loadBank c sub v) := by
  rw [State.loadBank]
  exact (CoreBecomes.modCore u c _).2.1

theorem completes_bank (h : WriteTaken .commandBankWrite src q e v s) : Completes (.commandBankWrite src) s (fun t =>
    ((t.core ((parseReq q).idx % 256)).bankOf (parseReq q).sub).st = .loading
    ∧ ((t.core ((parseReq q).idx % 256)).bankOf (parseReq q).sub).role = none
    ∧ ((t.core ((parseReq q).idx % 256)).bankOf (parseReq q).sub).bytes = v
    ∧ (t.core ((parseReq q).idx % 256)).bankOf (29 - (parseReq q).sub) = (s.core ((parseReq q).idx % 256)).bankOf (29 - (parseReq q).sub)
    ∧ OtherCores ((parseReq q).idx % 256) s t ∧ Answered q 0 0 [] s t ∧ Frame (servedParts ++ [.cores]) s t) := by
  have key : 0x5100 ≤ (parseReq q).key / 256 ∧ (parseReq q).key / 256 < 0x5200
      ∧ ((parseReq q).key % 256 = 14 ∨ (parseReq q).key % 256 = 15) := entryOf_write h (by decide)
  obtain ⟨low, high, two⟩ := key
  have take : (s.opened q).takeValue q.path (parseReq q).key e v
      = ((s.opened q).loadBank ((parseReq q).idx % 256) (parseReq q).sub v, false) := by
    rw [State.takeValue]
    repeat rw [if_neg (by simp only [dictKey]; omega)]
    rw [if_pos ⟨low, high⟩, key_div, key_mod]
  rw [key_mod] at two
  obtain ⟨own, other⟩ := loadBank_bankOf (s.opened q) ((parseReq q).idx % 256) v two
  have others := loadBank_others (s.opened q) ((parseReq q).idx % 256) (parseReq q).sub v
  have parts := loadBank_parts (s.opened q) ((parseReq q).idx % 256) (parseReq q).sub v
  have hp : ((s.opened q).loadBank ((parseReq q).idx % 256) (parseReq q).sub v).hp0 = (s.opened q).hp0
      ∧ ((s.opened q).loadBank ((parseReq q).idx % 256) (parseReq q).sub v).hp1 = (s.opened q).hp1 := by simp
  generalize (s.opened q).loadBank ((parseReq q).idx % 256) (parseReq q).sub v = w at *
  have cores : (s.opened q).cores = s.cores := opened_parts s q .cores (by simp)
  obtain ⟨h0, h1⟩ := opened_hp s q
  refine completes_taken (l := [.cores]) (pending := false) h.2 (by rw [signedBy_unsigned h]; exact take) (hp.1.trans h0) (hp.2.trans h1)
    (fun x n => Part.same_trans (opened_parts s q x (Part.outside n)) (parts x (Part.outside n))) fun t kept same _ an fr => ?_
  rw [State.core_congr (same .cores (by decide)), own, other, State.core_congr cores]
  refine ⟨rfl, rfl, hostBank_bytes v, rfl, fun d ne => ?_, an, fr⟩
  rw [State.core_congr (same .cores (by decide)), others d ne, State.core_congr cores]

/-! ## Locks (R423, R425) -/

theorem locks_opened {l : AreaLock} (other : l.owner ≠ q.path) : l ∈ (s.opened q).dict.locks ↔ l ∈ s.dict.locks := by
  have eq : (s.opened q).dict.locks = s.dict.locks.map fun l => if l.owner = q.path then { l with renewed := s.ns } else l := by
    rw [State.opened]
    split <;> rfl
  rw [eq, List.mem_map]
  constructor
  · rintro ⟨m, mem, rfl⟩
    split at other
    · next own => exact absurd own other
    · next strange => rwa [if_neg strange]
  · exact fun mem => ⟨l, mem, if_neg other⟩

theorem ns_opened (s : State) (q : DictReq) : (s.opened q).ns = s.ns := by
  have rp : (s.opened q).rp = s.rp := opened_parts s q .rp (by simp)
  rw [State.ns, State.now, rp, ← State.now, ← State.ns]

/-- An accepted write that changes the locks alone. -/
theorem completes_locks {ls : List AreaLock} (h : WriteTaken row src q e v s) (take : (s.opened q).takeValue q.path (parseReq q).key e v
      = ({ (s.opened q) with dict := { (s.opened q).dict with locks := ls } }, false)) : Completes (rowInstr row src) s (fun t =>
      t.dict.locks = ls ∧ Answered q 0 0 [] s t ∧ Frame servedParts s t) := by
  obtain ⟨h0, h1⟩ := opened_hp s q
  refine completes_taken (w := { (s.opened q) with dict := { (s.opened q).dict with locks := ls } }) (l := []) (pending := false) h.2
    (by rw [signedBy_unsigned h]; exact take) h0 h1 (fun x n => Part.same_trans (opened_parts s q x (Part.outside n)) ?_)
    fun t kept _ service an fr => ⟨(congrArg (fun d : DictSt => d.locks) service :), an, by rwa [List.append_nil] at fr⟩
  refine service_parts _ _ ?_ ?_ ?_ x (Part.outside n) <;> rfl

theorem completes_lockTake (h : WriteTaken .lockTake src q e v s) : Completes (.lockTake src) s (fun t =>
    ({ area := leNat v, owner := q.path, renewed := s.ns } : AreaLock) ∈ t.dict.locks
    ∧ (∀ l ∈ t.dict.locks, l.area = leNat v → l = { area := leNat v, owner := q.path, renewed := s.ns })
    ∧ (∀ l, l.area ≠ leNat v → l.owner ≠ q.path → (l ∈ t.dict.locks ↔ l ∈ s.dict.locks))
    ∧ Answered q 0 0 [] s t ∧ Frame servedParts s t) := by
  have key : (parseReq q).key = dictKey 0xE010 2 := entryOf_write h (by decide)
  refine completes_mono (completes_locks (ls := (s.opened q).dict.locks.filter (fun l => l.area != leNat v)
      ++ [({ area := leNat v, owner := q.path, renewed := s.ns } : AreaLock)]) h (by rw [key, ← ns_opened s q]; rfl)) fun t done => ?_
  obtain ⟨locks, an, fr⟩ := done
  rw [locks]
  refine ⟨by simp, fun l mem same => ?_, fun l apart other => ?_, an, fr⟩
  · rcases List.mem_append.1 mem with old | new
    · exact absurd same (bne_iff_ne.1 (List.mem_filter.1 old).2)
    · exact List.mem_singleton.1 new
  · rw [List.mem_append, List.mem_filter, locks_opened other, List.mem_singleton]
    refine ⟨fun m => m.elim And.left ?_, fun m => Or.inl ⟨m, bne_iff_ne.2 apart⟩⟩
    rintro rfl
    exact absurd rfl apart

theorem completes_lockRelease (h : WriteTaken .lockRelease src q e v s) : Completes (.lockRelease src) s (fun t =>
    (∀ l ∈ t.dict.locks, l.area ≠ leNat v) ∧ (∀ l, l.area ≠ leNat v → l.owner ≠ q.path → (l ∈ t.dict.locks ↔ l ∈ s.dict.locks))
    ∧ Answered q 0 0 [] s t ∧ Frame servedParts s t) := by
  have key : (parseReq q).key = dictKey 0xE010 3 := entryOf_write h (by decide)
  refine completes_mono (completes_locks (ls := (s.opened q).dict.locks.filter (fun l => l.area != leNat v)) h (by rw [key]; rfl)) fun t done => ?_
  obtain ⟨locks, an, fr⟩ := done
  rw [locks]
  refine ⟨fun l mem => bne_iff_ne.1 (List.mem_filter.1 mem).2, fun l apart other => ?_, an, fr⟩
  rw [List.mem_filter, locks_opened other]
  exact and_iff_left (bne_iff_ne.2 apart)

end

end Sys2Proof.Machine

namespace Sys2Proof

open Machine

/-- Settles O56: the checks that a write has passed leave its key one of a setting, a shadow table, a port, a block's clock, a bank or a
lock, and each takes its value as its own lemma says. -/
theorem dictionaryWritesTakeForce : Obligations.DictionaryWritesTakeForce := by
  rintro s src q e v r rfl
  refine ⟨fun i signed h some own => ?_, fun i h => ?_, completes_portEnable, completes_portMap, completes_clockEnable, completes_bank,
    completes_lockTake, completes_lockRelease⟩
  · have written : ∃ row p, i = rowInstr row src ∧ WriteChecked row src q e p 0 v s ∧ PlainKey (parseReq q).key
        ∧ signed = if (parseReq q).opcode = 7 then signedNumber p else s.mram.signedSeq := by
      rcases h with ⟨taken, rfl, rfl⟩ | ⟨taken, rfl, rfl⟩ | ⟨taken, rfl, rfl⟩ | ⟨⟨p, seven, checked, rfl⟩, rfl, none⟩
      · exact ⟨.write, v, rfl, taken.2, plainKey_of (passed_of taken.2) (entryRow_plain taken (Or.inl rfl)), (if_neg taken.1).symm⟩
      · exact ⟨.writeBlock, v, rfl, taken.2, plainKey_of (passed_of taken.2) (entryRow_plain taken (Or.inr rfl)), (if_neg taken.1).symm⟩
      · have key : (parseReq q).key = dictKey 0x9030 3 := entryOf_write taken (by decide)
        refine ⟨.quiesceStepWrite, v, rfl, taken.2, ?_, (if_neg taken.1).symm⟩
        rw [key]
        unfold PlainKey SettingKey
        decide
      · exact ⟨.signedWrite, p, rfl, checked, plainKey_of (passed_of checked) none, (if_pos seven).symm⟩
    obtain ⟨row, p, rfl, checked, plain, sign⟩ := written
    exact ⟨fun stays => completes_setting checked plain own some stays sign, fun stays => completes_pending checked plain stays sign⟩
  · have written : ∃ row, i = rowInstr row src ∧ WriteTaken row src q e v s := by
      rcases h with ⟨taken, rfl⟩ | ⟨taken, rfl⟩
      · exact ⟨.write, rfl, taken⟩
      · exact ⟨.writeBlock, rfl, taken⟩
    obtain ⟨row, rfl, taken⟩ := written
    exact ⟨completes_ownPosition taken, completes_pegTable taken, completes_routeTable taken⟩

end Sys2Proof
end

section
/-!
The command entries: reset, frequency counter, fabric tables, the pitch request and the pitch commands (15, R281, R341, R351 to R357,
R397, R402).
-/
namespace Sys2Proof.Machine

open Sys2Proof

section
variable {s : State} {row : DictRow} {src : DictSrc} {q : DictReq} {e : DictEntry} {v : List Byte}

/-! ## What a command entry leaves behind -/

/-- An accepted write of a command: what its value does to the package as the request finds it. -/
theorem completes_command {w : State} {l : List Part} {Q : State → Prop} (h : WriteTaken row src q e v s)
    (take : (s.opened q).takeValue q.path (parseReq q).key e v = (w, false)) (hp : w.hp0 = (s.opened q).hp0 ∧ w.hp1 = (s.opened q).hp1)
    (parts : ∀ p, p ∉ servedParts ++ l → p.same (s.opened q) w)
    (k : ∀ t, (∀ p, p ∉ servedParts → p.same w t) → Answered q 0 0 [] s t → Frame (servedParts ++ l) s t → Q t) :
    Completes (rowInstr row src) s Q := by
  obtain ⟨h0, h1⟩ := opened_hp s q
  exact completes_taken (w := w) (pending := false) h.2 (by rw [signedBy_unsigned h]; exact take) (hp.1.trans h0) (hp.2.trans h1)
    (fun p n => Part.same_trans (opened_parts s q p fun m => n (List.mem_append_left _ (List.mem_singleton.1 m ▸ by decide))) (parts p n))
    fun t _ same _ an fr => k t same an fr

/-- A request found by the service sends as the package did before it. -/
theorem opened_alike (s : State) (q : DictReq) : SendsAlike s (s.opened q) := by
  have opened := opened_parts s q
  have rp : (s.opened q).rp = s.rp := opened .rp (by simp)
  exact ⟨opened .fab (by simp), opened .job (by simp), by rw [State.now, State.now, rp], (opened .settings (by simp)).1⟩

theorem jobHeld_opened (s : State) (q : DictReq) : (s.opened q).jobHeld = s.jobHeld := by
  have pitch : (s.opened q).pitch = s.pitch := opened_parts s q .pitch (by simp)
  rw [State.jobHeld, pitch, State.jobHeld]

/-! ## Reset and the frequency counter (R397, R402) -/

theorem SendsAlike.sendStrike {s t : State} (h : SendsAlike s t) (reason : Nat) : SendsAlike (s.sendStrike reason) (t.sendStrike reason) := by
  rw [State.sendStrike, State.sendStrike, h.fab, h.myRank]
  exact SendsAlike.foldl (fun s t r k => by rw [k.epoch]; exact k.ctl _ _ _ _) _ h

theorem takeValue_reset (u : State) (path : DictPath) : u.takeValue path (dictKey 0x2210 1) e v = (u.commandReset, false) := by
  rw [State.takeValue, if_pos rfl]

theorem completes_resetIdle (h : WriteTaken .resetCommand src q e v s) (idle : s.jobHeld = false) : Completes (.resetCommand src) s (fun t =>
    t.start = { s.start with resetDue := some .dictionary } ∧ Answered q 0 0 [] s t ∧ Frame (servedParts ++ [.start]) s t) := by
  have key : (parseReq q).key = dictKey 0x2210 1 := entryOf_write h (by decide)
  have start : (s.opened q).start = s.start := opened_parts s q .start (by simp)
  have take : (s.opened q).takeValue q.path (parseReq q).key e v
      = ({ (s.opened q) with start := { (s.opened q).start with resetDue := some .dictionary } }, false) := by
    rw [key, takeValue_reset, State.commandReset, jobHeld_opened, idle]
    rfl
  refine completes_command (l := [.start]) h take ⟨rfl, rfl⟩ (fun p n => start_parts _ _ p (Part.outside n)) fun t same an fr => ⟨?_, an, fr⟩
  rw [← start]
  exact same .start (by decide)

theorem completes_resetHeld (h : WriteTaken .resetCommand src q e v s) (held : s.jobHeld = true) : Completes (.resetCommand src) s (fun t =>
    t.start = { s.start with resetDue := some .dictionary } ∧ t.fab = (s.sendStrike 1).fab ∧ Answered q 0 0 [] s t
    ∧ Frame (servedParts ++ [.start, .fab, .recorder]) s t) := by
  have key : (parseReq q).key = dictKey 0x2210 1 := entryOf_write h (by decide)
  have sent := sendStrike_parts (s.opened q) 1
  have start : ((s.opened q).sendStrike 1).start = s.start := (sent .start (by simp)).trans (opened_parts s q .start (by simp))
  have hp : ((s.opened q).sendStrike 1).hp0 = (s.opened q).hp0 ∧ ((s.opened q).sendStrike 1).hp1 = (s.opened q).hp1 := by simp
  have take : (s.opened q).takeValue q.path (parseReq q).key e v
      = ({ ((s.opened q).sendStrike 1) with start := { ((s.opened q).sendStrike 1).start with resetDue := some .dictionary } }, false) := by
    rw [key, takeValue_reset, State.commandReset, jobHeld_opened, held]
    rfl
  refine completes_command (l := [.start, .fab, .recorder]) h take hp
    (fun p n => Part.same_trans (sent p (Part.outside n)) (start_parts _ _ p (Part.outside n))) fun t same an fr => ⟨?_, ?_, an, fr⟩
  · rw [← start]
    exact same .start (by decide)
  · exact (same .fab (by decide)).trans ((opened_alike s q).sendStrike 1).fab

theorem power_only (u : State) (x : Power) : ∀ p, p ∉ [Part.power] → p.same u { u with power := x } := by
  intro p n
  cases p <;> simp_all [Part.same]

theorem completes_counter (h : WriteTaken .freqCounterStart src q e v s) : Completes (.freqCounterStart src) s (fun t =>
    t.power = { s.power with counter := { s.power.counter with
                  st := 1, target := bits 7 0 (s.dnat 0x2020 1), reference := bits 15 8 (s.dnat 0x2020 1)
                  window := s.dnat 0x2020 2, switched := false } }
    ∧ Answered q 0 0 [] s t ∧ Frame (servedParts ++ [.power]) s t) := by
  have key : (parseReq q).key = dictKey 0x2020 3 := entryOf_write h (by decide)
  have power : (s.opened q).power = s.power := opened_parts s q .power (by simp)
  have alike := opened_alike s q
  have take : (s.opened q).takeValue q.path (parseReq q).key e v = ((s.opened q).startCounter, false) := by
    rw [key, State.takeValue, if_neg (by decide), if_pos rfl]
  refine completes_command (l := [.power]) h take ⟨rfl, rfl⟩ (fun p n => ?_) fun t same an fr => ⟨?_, an, fr⟩
  · rw [State.startCounter]
    exact power_only _ _ p (Part.outside n)
  · rw [(same .power (by decide) : t.power = _), State.startCounter]
    dsimp only
    rw [alike.dnat, alike.dnat, power]

/-! ## Fabric tables (R281, Table 11.9) -/

theorem takeValue_tables (u : State) (path : DictPath) : u.takeValue path (dictKey 0x4010 2) e v = (u.commandTables (leNat v), false) := by
  rw [State.takeValue, if_neg (by decide), if_neg (by decide), if_pos rfl]

theorem completes_drain (h : WriteTaken .fabricDrain src q e v s) : Completes (.fabricDrain src) s (fun t =>
    t.fab = { s.fab with tabSt := .draining } ∧ Answered q 0 0 [] s t ∧ Frame (servedParts ++ [.fab]) s t) := by
  obtain ⟨key, value⟩ : (parseReq q).key = dictKey 0x4010 2 ∧ some (leNat v) = some 1 := entryOf_write h (by decide)
  refine completes_takenFab (f := fun b => { b with tabSt := .draining }) h ?_
  rw [key, takeValue_tables, Option.some.inj value]
  rfl

theorem completes_cancel (h : WriteTaken .fabricCancel src q e v s) : Completes (.fabricCancel src) s (fun t =>
    t.fab = { s.fab with tabSt := .active, shadow := {} } ∧ Answered q 0 0 [] s t ∧ Frame (servedParts ++ [.fab]) s t) := by
  obtain ⟨key, value⟩ : (parseReq q).key = dictKey 0x4010 2 ∧ some (leNat v) = some 3 := entryOf_write h (by decide)
  refine completes_takenFab (f := fun b => { b with tabSt := .active, shadow := {} }) h ?_
  rw [key, takeValue_tables, Option.some.inj value]
  rfl

/-- The fabric with its shadow tables in force. -/
def Fabric.applied (b : Fabric) : Fabric := { b with tabSt := .active, tabs := b.shadow, generation := count 32 b.generation 1 }

theorem foldl_route_unrouted (l : List (Nat × Packet)) (u : State) :
    (l.foldl (fun s e => s.route e.1 e.2 none) u).fab.unrouted = u.fab.unrouted := by
  induction l generalizing u with
  | nil => rfl
  | cons x xs ih => rw [List.foldl_cons, ih, State.route_unrouted]

theorem route_parts (u : State) (lane : Nat) (k : Packet) (a : Option Nat) :
    ∀ p, p ∉ [Part.fab, .recorder] → p.same u (u.route lane k a) := by
  intro p n
  cases p <;> simp_all [Part.same]

theorem applyTables_unrouted (u : State) : u.applyTables.fab.unrouted = u.fab.applied.unrouted := foldl_route_unrouted _ _

theorem applyTables_parts (u : State) : ∀ p, p ∉ [Part.fab, .recorder] → p.same u u.applyTables := by
  intro p n
  cases p <;> simp_all [Part.same]

theorem applyTables_idle {u : State} (none : u.fab.waiting = []) : u.applyTables.fab = u.fab.applied := by
  have eq : ({ u.fab.applied with waiting := [] } : Fabric) = u.fab.applied := by rw [← none]; rfl
  have idle : u.applyTables = ((u.modFab Fabric.applied).modFab fun b => { b with waiting := [] }) := by
    have w : (u.modFab Fabric.applied).fab.waiting = [] := none
    show (u.modFab Fabric.applied).retryWaiting = _
    rw [State.retryWaiting, w]
    rfl
  rw [idle]
  exact eq

theorem completes_apply (h : WriteTaken .fabricApply src q e v s) : Completes (.fabricApply src) s (fun t =>
    t.fab.tabSt = .active ∧ t.fab.tabs = s.fab.shadow ∧ t.fab.generation = min (s.fab.generation + 1) (2 ^ 32 - 1)
    ∧ (s.fab.waiting = [] → t.fab = { s.fab with tabSt := .active, tabs := s.fab.shadow, generation := t.fab.generation })
    ∧ Answered q 0 0 [] s t ∧ Frame (servedParts ++ [.fab, .recorder]) s t) := by
  obtain ⟨key, value⟩ : (parseReq q).key = dictKey 0x4010 2 ∧ some (leNat v) = some 2 := entryOf_write h (by decide)
  have take : (s.opened q).takeValue q.path (parseReq q).key e v = ((s.opened q).applyTables, false) := by
    rw [key, takeValue_tables, Option.some.inj value]
    rfl
  have kept := applyTables_unrouted (s.opened q)
  have idle := applyTables_idle (u := s.opened q)
  rw [opened_fab] at kept idle
  refine completes_command (l := [.fab, .recorder]) h take (by simp) (fun p n => applyTables_parts _ p (Part.outside n)) fun t same an fr => ?_
  have fab : t.fab = (s.opened q).applyTables.fab := same .fab (by decide)
  rw [← fab] at kept idle
  refine ⟨(congrArg (fun b : Fabric => b.tabSt) kept :), (congrArg (fun b : Fabric => b.tabs) kept :),
    (congrArg (fun b : Fabric => b.generation) kept :), fun none => ?_, an, fr⟩
  rw [idle none]
  rfl

end

end Sys2Proof.Machine
end

section
/-!
The pitch request and the pitch commands: a record at the root, STRIKE, QUIESCE, RESUME and LEAVE (15, R341 to R357).
-/
namespace Sys2Proof.Machine

open Sys2Proof

section
variable {s : State} {row : DictRow} {src : DictSrc} {q : DictReq} {e : DictEntry} {v : List Byte}

/-! ## Pitch commands (R351, R354, R355, R357) -/

theorem takeValue_pitch (u : State) (path : DictPath) : u.takeValue path (dictKey 0x9030 2) e v = (u.commandPitch (leNat v), false) := by
  rw [State.takeValue, if_neg (by decide), if_neg (by decide), if_neg (by decide), if_neg (by decide), if_pos rfl]

theorem ending_opened (s : State) (q : DictReq) : (s.opened q).ending = s.ending := by
  have pitch : (s.opened q).pitch = s.pitch := opened_parts s q .pitch (by simp)
  rw [State.ending, pitch, State.ending]

theorem ending_false (free : s.pitch.resetting ≠ some .idle) : s.ending = false := by
  rw [State.ending]
  exact beq_eq_false_iff_ne.2 free

theorem Struck.served {reason : Nat} {s w t : State} (h : Struck reason s w) (same : ∀ p, p ∉ servedParts → p.same w t) : Struck reason s t := by
  obtain ⟨struck, why, reset, keep, st, stopped, cores, harts, mem⟩ := h
  have pitch : t.pitch = w.pitch := same .pitch (by decide)
  exact ⟨pitch ▸ struck, pitch ▸ why, pitch ▸ reset, pitch ▸ keep, (show t.err = w.err from same .err (by decide)) ▸ st,
    (show t.job = w.job from same .job (by decide)) ▸ stopped, fun c => (State.core_congr (same .cores (by decide)) c) ▸ cores c,
    fun h => (State.hart_congr (same .harts (by decide)) h) ▸ harts h, (show t.mem = w.mem from same .mem (by decide)).trans mem⟩

theorem completes_strikeHeld (h : WriteTaken .commandStrike src q e v s) (held : s.jobHeld = true) (free : s.pitch.resetting ≠ some .idle)
    (may : MayBeStruck s) : Completes (.commandStrike src) s (fun t =>
      Struck 1 s t ∧ Answered q 0 0 [] s t ∧ Frame (servedParts ++ strikeParts) s t) := by
  obtain ⟨key, value⟩ : (parseReq q).key = dictKey 0x9030 2 ∧ some (leNat v) = some 1 := entryOf_write h (by decide)
  have opened := opened_parts s q
  have pitch : (s.opened q).pitch = s.pitch := opened .pitch (by simp)
  have take : (s.opened q).takeValue q.path (parseReq q).key e v = ((s.opened q).strikeAll 1, false) := by
    rw [key, takeValue_pitch, Option.some.inj value, State.commandPitch, if_pos rfl, State.commandStrike, jobHeld_opened, ending_opened, held,
      ending_false free]
    rfl
  obtain ⟨struck, parts⟩ := strikeAll_spec (s := s.opened q) (pitch.symm ▸ may.1) 1
  have hp : ((s.opened q).strikeAll 1).hp0 = (s.opened q).hp0 ∧ ((s.opened q).strikeAll 1).hp1 = (s.opened q).hp1 := by simp
  refine completes_command (l := strikeParts) h take hp (fun p n => parts p fun m => n (List.mem_append_right _ m)) fun t same an fr => ⟨?_, an, fr⟩
  exact Struck.served (Struck.of_before struck (opened .job (by simp)) (opened .mem (by simp))) same

theorem completes_strikeNone (h : WriteTaken .commandStrike src q e v s) (idle : s.jobHeld = false) : Completes (.commandStrike src) s (fun t =>
    Answered q 0 0 [] s t ∧ Frame servedParts s t) := by
  obtain ⟨key, value⟩ : (parseReq q).key = dictKey 0x9030 2 ∧ some (leNat v) = some 1 := entryOf_write h (by decide)
  have take : (s.opened q).takeValue q.path (parseReq q).key e v = (s.opened q, false) := by
    rw [key, takeValue_pitch, Option.some.inj value, State.commandPitch, if_pos rfl, State.commandStrike, jobHeld_opened, idle]
    rfl
  exact completes_command (l := []) h take ⟨rfl, rfl⟩ (fun p _ => p.same_refl _) fun t _ an fr => ⟨an, by rwa [List.append_nil] at fr⟩

theorem completes_quiesceCommand (h : WriteTaken .commandQuiesce src q e v s) : Completes (.commandQuiesce src) s (fun t =>
    t.pitch = { s.pitch with quiescing := s.jobHeld } ∧ Answered q 0 0 [] s t ∧ Frame (servedParts ++ [.pitch]) s t) := by
  obtain ⟨key, value⟩ : (parseReq q).key = dictKey 0x9030 2 ∧ some (leNat v) = some 2 := entryOf_write h (by decide)
  have pitch : (s.opened q).pitch = s.pitch := opened_parts s q .pitch (by simp)
  have take : (s.opened q).takeValue q.path (parseReq q).key e v
      = ({ (s.opened q) with pitch := { (s.opened q).pitch with quiescing := s.jobHeld } }, false) := by
    rw [key, takeValue_pitch, Option.some.inj value, State.commandPitch, if_neg (by decide), if_pos rfl, State.commandQuiesce, jobHeld_opened]
  refine completes_command (l := [.pitch]) h take ⟨rfl, rfl⟩ (fun p n => pitch_parts _ _ p (Part.outside n)) fun t same an fr => ⟨?_, an, fr⟩
  rw [← pitch]
  exact same .pitch (by decide)

theorem le_tenNs (n : Nat) : n ≤ tenNs n := by
  rw [tenNs]
  omega

/-- Sends keep the job, so a fold of them names one job throughout. -/
theorem foldl_sendGuy_job (ty opp attempt step id : Nat) (payload : List Byte) (l : List Nat) {u : State} (job : u.job.id = id) :
    l.foldl (fun w c => w.sendGuy ty opp false c ⟨w.job.id, attempt, step⟩ payload) u
      = l.foldl (fun w c => w.sendGuy ty opp false c ⟨id, attempt, step⟩ payload) u := by
  induction l generalizing u with
  | nil => rw [List.foldl_nil, List.foldl_nil]
  | cons c cs ih =>
    have kept : (u.sendGuy ty opp false c ⟨id, attempt, step⟩ payload).job = u.job := sendGuy_parts u _ _ _ _ _ _ .job (by simp)
    rw [List.foldl_cons, List.foldl_cons, job, ih (by rw [kept, job])]

/-- The RELEASE of a step that no one has been told of, to every child and held here. -/
theorem plainRelease_leaves (u : State) (step : Nat) : (u.plainRelease step).guy
      = { u.guy with held := some ⟨step, u.job.attempt, tenNs (u.nsUp + u.guy.margin), 0xFF, tenNs (u.nsUp + u.guy.margin), false⟩ }
    ∧ (u.plainRelease step).fab = (u.children.foldl (fun w c => w.sendGuy 3 0xFF false c ⟨u.job.id, u.job.attempt, step⟩
        (leBytes 8 (tenNs (u.nsUp + u.guy.margin)))) u).fab
    ∧ (u.plainRelease step).hp0 = u.hp0 ∧ (u.plainRelease step).hp1 = u.hp1
    ∧ ∀ p, p ∉ [Part.guy, .fab, .recorder] → p.same u (u.plainRelease step) := by
  have sent := foldl_parts (fun w (c : Nat) => sendGuy_parts w 3 0xFF false c ⟨u.job.id, u.job.attempt, step⟩
    (leBytes 8 (tenNs (u.nsUp + u.guy.margin)))) u.children u
  have guy : _ = u.guy := sent .guy (by simp)
  have hp : (u.children.foldl (fun w c => w.sendGuy 3 0xFF false c ⟨u.job.id, u.job.attempt, step⟩
      (leBytes 8 (tenNs (u.nsUp + u.guy.margin)))) u).hp0 = u.hp0
    ∧ (u.children.foldl (fun w c => w.sendGuy 3 0xFF false c ⟨u.job.id, u.job.attempt, step⟩
      (leBytes 8 (tenNs (u.nsUp + u.guy.margin)))) u).hp1 = u.hp1 := by simp
  have early : ¬tenNs (u.nsUp + u.guy.margin) < u.nsUp := Nat.not_lt.2 (Nat.le_trans (Nat.le_add_right _ _) (le_tenNs _))
  rw [State.plainRelease, State.holdRelease]
  dsimp only
  rw [foldl_sendGuy_job 3 0xFF u.job.attempt step u.job.id _ _ rfl]
  generalize u.children.foldl (fun w c => w.sendGuy 3 0xFF false c ⟨u.job.id, u.job.attempt, step⟩
    (leBytes 8 (tenNs (u.nsUp + u.guy.margin)))) u = w at *
  rw [decide_eq_false early, if_neg (by simp), guy]
  exact ⟨rfl, rfl, hp.1, hp.2, fun p n => Part.same_trans (sent p (Part.outside n)) (guy_parts w _ p (Part.outside n))⟩

theorem completes_resume (h : WriteTaken .commandResume src q e v s) (free : s.guy.held = none) : Completes (.commandResume src) s (fun t =>
    t.guy = { s.guy with held := some ⟨s.job.step + 1, s.job.attempt, tenNs (s.nsUp + s.guy.margin), 0xFF, tenNs (s.nsUp + s.guy.margin), false⟩ }
    ∧ t.fab = (s.children.foldl (fun w c => w.sendGuy 3 0xFF false c ⟨s.job.id, s.job.attempt, s.job.step + 1⟩
        (leBytes 8 (tenNs (s.nsUp + s.guy.margin)))) s).fab
    ∧ Answered q 0 0 [] s t ∧ Frame (servedParts ++ [.guy, .fab, .recorder]) s t) := by
  obtain ⟨key, value⟩ : (parseReq q).key = dictKey 0x9030 2 ∧ some (leNat v) = some 3 := entryOf_write h (by decide)
  have guy : (s.opened q).guy = s.guy := opened_parts s q .guy (by simp)
  have alike := opened_alike s q
  have kids : (s.opened q).children = s.children := by rw [State.children, alike.job, State.children]
  have up : (s.opened q).nsUp = s.nsUp := by rw [State.nsUp, alike.now, State.nsUp]
  have take : (s.opened q).takeValue q.path (parseReq q).key e v = ((s.opened q).plainRelease (s.job.step + 1), false) := by
    rw [key, takeValue_pitch, Option.some.inj value, State.commandPitch, if_neg (by decide), if_neg (by decide), if_pos rfl,
      State.commandResume, guy, free, alike.job]
    rfl
  obtain ⟨held, fab, h0, h1, parts⟩ := plainRelease_leaves (s.opened q) (s.job.step + 1)
  rw [guy, alike.job, up] at held
  rw [guy, alike.job, up, kids] at fab
  refine completes_command (l := [.guy, .fab, .recorder]) h take ⟨h0, h1⟩ (fun p n => parts p (Part.outside n)) fun t same an fr =>
    ⟨(same .guy (by decide)).trans held, (same .fab (by decide)).trans (fab.trans ?_), an, fr⟩
  exact (SendsAlike.foldl (fun _ _ c k => k.sendGuy 3 0xFF false c _ _) _ alike).fab

/-- A job reset to IDLE that keeps nothing. -/
theorem beginReset_leaves (u : State) : (u.beginReset .idle false).pitch = { u.pitch with resetting := some .idle, keepBivouac := false }
    ∧ (u.beginReset .idle false).job = { u.job with stepRunning := false }
    ∧ (∀ c, (u.beginReset .idle false).core c = { stats := (u.core c).stats }) ∧ (∀ h, ((u.beginReset .idle false).hart h).st = .off)
    ∧ (u.beginReset .idle false).fab.track = [] ∧ (u.beginReset .idle false).hp0 = u.hp0 ∧ (u.beginReset .idle false).hp1 = u.hp1 :=
  ⟨rfl, rfl, fun c => State.core_stopAll u c, fun h => congrArg Hart.st (State.hart_stopAll u h), rfl, rfl, rfl⟩

theorem completes_leave (h : WriteTaken .commandLeave src q e v s) (free : s.pitch.resetting ≠ some .idle) : Completes (.commandLeave src) s (fun t =>
    t.pitch = { s.pitch with resetting := some .idle, keepBivouac := false } ∧ t.job = { s.job with stepRunning := false }
    ∧ (∀ c, t.core c = { stats := (s.core c).stats }) ∧ (∀ h, (t.hart h).st = .off) ∧ t.fab.track = [] ∧ t.mem = s.mem
    ∧ Answered q 0 0 [] s t
    ∧ Frame (servedParts ++ [.pitch, .job, .cores, .harts, .stations, .links, .coll, .nacks, .reissues, .tt, .fab, .guy, .ckpt, .rp]) s t) := by
  obtain ⟨key, value⟩ : (parseReq q).key = dictKey 0x9030 2 ∧ some (leNat v) = some 4 := entryOf_write h (by decide)
  have opened := opened_parts s q
  have pitch : (s.opened q).pitch = s.pitch := opened .pitch (by simp)
  have job : (s.opened q).job = s.job := opened .job (by simp)
  have take : (s.opened q).takeValue q.path (parseReq q).key e v = ((s.opened q).beginReset .idle false, false) := by
    rw [key, takeValue_pitch, Option.some.inj value, State.commandPitch, if_neg (by decide), if_neg (by decide), if_neg (by decide),
      State.commandLeave, ending_opened, ending_false free]
    rfl
  have parts := beginReset_parts (s.opened q) .idle false
  obtain ⟨pitch', job', cores, harts, track, hp⟩ := beginReset_leaves (s.opened q)
  rw [pitch] at pitch'
  rw [job] at job'
  generalize (s.opened q).beginReset .idle false = w at *
  refine completes_command (l := resetParts) h take hp (fun p n => parts p fun m => n (List.mem_append_right _ m)) fun t same an fr =>
    ⟨(same .pitch (by decide)).trans pitch', (same .job (by decide)).trans job', fun c => ?_, fun h => ?_, ?_, ?_, an, fr⟩
  · rw [State.core_congr (same .cores (by decide)), cores, State.core_congr (opened .cores (by simp))]
  · rw [State.hart_congr (same .harts (by decide)), harts]
  · rw [(same .fab (by decide) : t.fab = _), track]
  · exact (show t.mem = _ from same .mem (by decide)).trans ((show _ = (s.opened q).mem from parts .mem (by decide)).trans (opened .mem (by simp)))

end

end Sys2Proof.Machine
end

section
/-!
A pitch record written at the root: taken by an idle package, continued by a quiesced one, or answered with its failure (15, R341,
R344, R346, R348, R356).
-/
namespace Sys2Proof.Machine

open Sys2Proof

section
variable {s : State} {src : DictSrc} {q : DictReq} {e : DictEntry} {v : List Byte}

theorem takeValue_request (u : State) (path : DictPath) : u.takeValue path (dictKey 0x9030 1) e v = (u.requestPitch v, false) := by
  rw [State.takeValue, if_neg (by decide), if_neg (by decide), if_neg (by decide), if_pos rfl]

theorem recordCheck_opened (s : State) (q : DictReq) (v : List Byte) : (s.opened q).recordCheck v = s.recordCheck v := by
  have fab := opened_fab s q
  have pitch : (s.opened q).pitch = s.pitch := opened_parts s q .pitch (by simp)
  have job : (s.opened q).job = s.job := opened_parts s q .job (by simp)
  rw [State.recordCheck, State.recordCheck, State.rankIn, State.rankIn, fab, jobHeld_opened, pitch, job]

/-! ## Taking a record (R344, Table 15.3) -/

/-- A package that has taken a record sends ACCEPT up, unless it is the root, and the record down. -/
def State.announced (u : State) (rank : Nat) : State :=
  let t := if rank = 0 then u else u.sendPitch 2 0 0 0 (parentOf rank) []
  t.children.foldl State.sendRecord t

theorem announced_parts (u : State) (rank : Nat) : ∀ p, p ∉ [Part.fab, .recorder] → p.same u (u.announced rank) := by
  intro p n
  rw [State.announced]
  split
  · exact foldl_parts sendRecord_parts u.children u p n
  · exact Part.same_trans (sendPitch_parts u 2 0 0 0 (parentOf rank) [] p n) (foldl_parts sendRecord_parts _ _ p n)

theorem acceptPitch_new {u : State} (free : u.jobHeld = false) (r : List Byte) (rank : Nat) :
    u.acceptPitch r rank = (u.taking r rank).announced rank := by
  rw [State.acceptPitch]
  simp only [free]
  rfl

/-- The fabric of a package that has stopped all that it was about. -/
def Fabric.stopped (b : Fabric) : Fabric :=
  { b with track := [], txSeq := [], rxSpace := [], reorder := [], keepSeq := [], unanswered := [], lineQ := [], lineLast := []
           unacked := [], puts := [], spaceLock := [] }

/-- What a package that has taken a record is. -/
theorem taking_leaves (u : State) (r : List Byte) (rank : Nat) : (u.taking r rank).pitch.st = .accepted ∧ (u.taking r rank).pitch.record = r
    ∧ (u.taking r rank).pitch.resetting = some .load ∧ (u.taking r rank).pitch.accepted = [] ∧ (u.taking r rank).pitch.loaded = []
    ∧ (u.taking r rank).job = recordJob r rank ∧ (u.taking r rank).fab = u.fab.stopped
    ∧ (u.taking r rank).hp0 = u.hp0 ∧ (u.taking r rank).hp1 = u.hp1 := ⟨rfl, rfl, rfl, rfl, rfl, rfl, rfl, rfl, rfl⟩

theorem announced_hp (u : State) (rank : Nat) : (u.announced rank).hp0 = u.hp0 ∧ (u.announced rank).hp1 = u.hp1 := by
  unfold State.announced
  split <;> simp

/-- A root sends the record to its children, whatever of the state it sends from is the service's. -/
theorem announced_root {u t : State} (same : ∀ p, p ∉ [Part.fab, .recorder, .service, .hp0, .hp1, .out] → p.same u t) :
    (u.announced 0).fab = (t.children.foldl State.sendRecord ({ t with fab := u.fab } : State)).fab := by
  have jobs : t.job = u.job := same .job (by simp)
  have alike : PitchAlike u { t with fab := u.fab } := PitchAlike.withFab jobs (congrArg RpSt.now (same .rp (by simp)))
    (same .settings (by simp)).1 (congrArg Pitch.record (same .pitch (by simp)))
  have kids : t.children = u.children := by rw [State.children, State.children, jobs]
  rw [kids]
  exact (PitchAlike.foldl (fun _ _ c h => h.sendRecord c) u.children alike).fab.symm

theorem completes_requestTaken {rank : Nat} (h : WriteTaken .pitchRequest src q e v s) (idle : s.jobHeld = false)
    (ok : s.recordCheck v = .ok rank) : Completes (.pitchRequest src) s (fun t =>
      t.pitch.st = .accepted ∧ t.pitch.record = v ∧ t.pitch.resetting = some .load ∧ t.pitch.accepted = [] ∧ t.pitch.loaded = []
      ∧ t.job = recordJob v rank ∧ (∀ c, t.core c = { stats := (s.core c).stats }) ∧ (∀ h, (t.hart h).st = .off)
      ∧ (rank = 0 → t.fab = (t.children.foldl State.sendRecord ({ t with fab := s.fab.stopped } : State)).fab)
      ∧ Answered q 0 0 [] s t
      ∧ Frame (servedParts ++ [.pitch, .job, .cores, .harts, .stations, .links, .coll, .nacks, .reissues, .tt, .fab, .guy, .ckpt, .rp, .recorder]) s t) := by
  have key : (parseReq q).key = dictKey 0x9030 1 := entryOf_write h (by decide)
  have opened := opened_parts s q
  have fab := opened_fab s q
  have take : (s.opened q).takeValue q.path (parseReq q).key e v = (((s.opened q).taking v rank).announced rank, false) := by
    rw [key, takeValue_request, State.requestPitch, recordCheck_opened, ok]
    dsimp only
    rw [acceptPitch_new (by rw [jobHeld_opened, idle])]
  have taken := taking_parts (s.opened q) v rank
  have cores (c : Nat) : ((s.opened q).taking v rank).core c = { stats := (s.core c).stats } := by
    rw [State.core_taking, State.core_congr (opened .cores (by simp))]
  have harts (h : Nat) : (((s.opened q).taking v rank).hart h).st = .off := State.hart_taking _ v rank h
  obtain ⟨st, record, reset, accepted, loaded, job, stopped, h0, h1⟩ := taking_leaves (s.opened q) v rank
  rw [fab] at stopped
  generalize (s.opened q).taking v rank = u at *
  have sent := announced_parts u rank
  obtain ⟨a0, a1⟩ := announced_hp u rank
  have root (t : State) := announced_root (u := u) (t := t)
  refine completes_command (l := [.pitch, .job, .cores, .harts, .stations, .links, .coll, .nacks, .reissues, .tt, .fab, .guy, .ckpt, .rp,
    .recorder]) h take ⟨a0.trans h0, a1.trans h1⟩ (fun p n => Part.same_trans (taken p (Part.outside n)) (sent p (Part.outside n)))
    fun t same an fr => ?_
  have after : ∀ p, p ∉ [Part.fab, .recorder, .service, .hp0, .hp1, .out] → p.same u t := fun p n =>
    Part.same_trans (sent p (Part.outside n)) (same p (Part.outside n))
  have pitch : t.pitch = u.pitch := after .pitch (by simp)
  refine ⟨by rw [pitch, st], by rw [pitch, record], by rw [pitch, reset], by rw [pitch, accepted], by rw [pitch, loaded],
    (after .job (by simp)).trans job, fun c => ?_, fun h => ?_, ?_, an, fr⟩
  · rw [State.core_congr (after .cores (by simp)), cores]
  · rw [State.hart_congr (after .harts (by simp)), harts]
  · rintro rfl
    rw [← stopped, (same .fab (by decide) : t.fab = _)]
    exact root t after

/-! ## A job that continues (R356, Tables 15.3, 15.7) -/

theorem ctl_track {u : State} (none : u.fab.track = []) (kind arg dst : Nat) (ep : Epoch) (payload : List Byte) :
    (u.ctl kind arg dst ep payload).fab.track = [] := by
  rw [← List.length_eq_zero_iff, State.ctl, State.send, route_track_length, none]
  rfl

theorem sendRecord_track {u : State} (none : u.fab.track = []) (dst : Nat) : (u.sendRecord dst).fab.track = [] := by
  rw [State.sendRecord]
  generalize List.range 5 = l
  induction l generalizing u with
  | nil => exact none
  | cons i is ih => exact ih (ctl_track none _ _ _ _ _)

theorem foldl_sendRecord_track {u : State} (none : u.fab.track = []) (l : List Nat) : (l.foldl State.sendRecord u).fab.track = [] := by
  induction l generalizing u with
  | nil => exact none
  | cons c cs ih => exact ih (sendRecord_track none c)

theorem announced_track {u : State} (none : u.fab.track = []) (rank : Nat) : (u.announced rank).fab.track = [] := by
  rw [State.announced]
  split
  · exact foldl_sendRecord_track none _
  · exact foldl_sendRecord_track (ctl_track none _ _ _ _ _) _

/-- A quiesced package that has taken the record of a RESIZE, before it sends a packet. -/
def State.continuing (u : State) (r : List Byte) (rank : Nat) : State :=
  let t := u.continuePitch r rank
  { t with pitch := { t.pitch with
      st := .accepted, recv := [], record := r, accepted := [], loaded := [], acked := [], failed := [], quiesced := []
      ownLoaded := false, failSent := false, struck := none, quiescing := false } }

theorem acceptPitch_continue {u : State} (held : u.jobHeld = true) (r : List Byte) (rank : Nat) :
    u.acceptPitch r rank = (u.continuing r rank).announced rank := by
  rw [State.acceptPitch]
  simp only [held]
  rfl

/-- What a package that continues its job is. -/
theorem continuing_leaves (u : State) (r : List Byte) (rank : Nat) : (u.continuing r rank).pitch.st = .accepted
    ∧ (u.continuing r rank).pitch.record = r ∧ (u.continuing r rank).job.first = fieldAt r 16 8 ∧ (u.continuing r rank).job.rank = rank
    ∧ (u.continuing r rank).job.ranks = fieldAt r 8 2 ∧ (u.continuing r rank).job.id = u.job.id
    ∧ (u.continuing r rank).job.image = u.job.image ∧ (u.continuing r rank).job.placed = u.job.placed
    ∧ (u.continuing r rank).fab.track = [] ∧ (u.continuing r rank).mem = u.mem ∧ (u.continuing r rank).cores = u.cores
    ∧ (u.continuing r rank).harts = u.harts ∧ (u.continuing r rank).outputs = u.outputs ∧ (u.continuing r rank).hp0 = u.hp0
    ∧ (u.continuing r rank).hp1 = u.hp1 := by
  have job : (u.applyPending (fun k => [dictKey 0xA010 3, dictKey 0xA010 4, dictKey 0xA010 5].contains k)).job = u.job := by simp
  refine ⟨rfl, rfl, rfl, rfl, rfl, ?_, ?_, ?_, rfl, ?_, ?_, ?_, ?_, ?_, ?_⟩
  · exact (congrArg Job.id job :)
  · exact (congrArg Job.image job :)
  · exact (congrArg Job.placed job :)
  all_goals simp [State.continuing, State.continuePitch]

theorem applyPending_parts (u : State) (f : Nat → Bool) : ∀ p, p ∉ [Part.settings, .mram] → p.same u (u.applyPending f) := by
  intro p n
  cases p <;> simp_all [Part.same]

theorem continuing_parts (u : State) (r : List Byte) (rank : Nat) :
    ∀ p, p ∉ [Part.settings, .mram, .job, .guy, .fab, .pitch] → p.same u (u.continuing r rank) := by
  intro p n
  refine Part.same_trans (applyPending_parts u (fun k => [dictKey 0xA010 3, dictKey 0xA010 4, dictKey 0xA010 5].contains k) p
    (Part.outside n)) ?_
  rw [State.continuing, State.continuePitch]
  generalize u.applyPending _ = w
  cases p <;> simp_all [Part.same]

theorem completes_requestContinued {rank : Nat} (h : WriteTaken .pitchRequest src q e v s) (held : s.jobHeld = true)
    (ok : s.recordCheck v = .ok rank) : Completes (.pitchRequest src) s (fun t =>
      t.pitch.st = .accepted ∧ t.pitch.record = v ∧ t.job.first = fieldAt v 16 8 ∧ t.job.rank = rank ∧ t.job.ranks = fieldAt v 8 2
      ∧ t.job.id = s.job.id ∧ t.job.image = s.job.image ∧ t.job.placed = s.job.placed ∧ t.fab.track = []
      ∧ t.mem = s.mem ∧ t.cores = s.cores ∧ t.harts = s.harts ∧ t.outputs = s.outputs ∧ Answered q 0 0 [] s t) := by
  have key : (parseReq q).key = dictKey 0x9030 1 := entryOf_write h (by decide)
  have opened := opened_parts s q
  have jobs : (s.opened q).job = s.job := opened .job (by simp)
  have take : (s.opened q).takeValue q.path (parseReq q).key e v = (((s.opened q).continuing v rank).announced rank, false) := by
    rw [key, takeValue_request, State.requestPitch, recordCheck_opened, ok]
    dsimp only
    rw [acceptPitch_continue (by rw [jobHeld_opened, held])]
  have parts := continuing_parts (s.opened q) v rank
  obtain ⟨st, record, first, ranked, ranks, id, image, placed, track, mem, cores, harts, outputs, h0, h1⟩ := continuing_leaves (s.opened q) v rank
  generalize (s.opened q).continuing v rank = u at *
  have sent := announced_parts u rank
  have none := announced_track track rank
  obtain ⟨a0, a1⟩ := announced_hp u rank
  refine completes_command (l := [.settings, .mram, .job, .guy, .fab, .pitch, .recorder]) h take ⟨a0.trans h0, a1.trans h1⟩
    (fun p n => Part.same_trans (parts p (Part.outside n)) (sent p (Part.outside n))) fun t same an _ => ?_
  have after : ∀ p, p ∉ [Part.fab, .recorder, .service, .hp0, .hp1, .out] → p.same u t := fun p n =>
    Part.same_trans (sent p (Part.outside n)) (same p (Part.outside n))
  have pitch : t.pitch = u.pitch := after .pitch (by simp)
  have job : t.job = u.job := after .job (by simp)
  refine ⟨by rw [pitch, st], by rw [pitch, record], by rw [job, first], by rw [job, ranked], by rw [job, ranks], by rw [job, id, jobs],
    by rw [job, image, jobs], by rw [job, placed, jobs], ?_, ?_, ?_, ?_, ?_, an⟩
  · rw [(same .fab (by decide) : t.fab = _), none]
  · exact (after .mem (by simp) : t.mem = u.mem).trans (mem.trans (opened .mem (by simp)))
  · exact (after .cores (by simp) : t.cores = u.cores).trans (cores.trans (opened .cores (by simp)))
  · exact (after .harts (by simp) : t.harts = u.harts).trans (harts.trans (opened .harts (by simp)))
  · exact (after .outputs (by simp) : t.outputs = u.outputs).trans (outputs.trans (opened .outputs (by simp)))

/-! ## A record that fails at the root (R346, R348) -/

/-- The result of a record that fails, before ABORT goes to the ranks that it names. -/
def State.failing (u : State) (r : List Byte) (reason : Nat) : State :=
  { u with pitch := { u.pitch with reason := reason, resultRank := 0, resultJob := fieldAt r 6 2 } }

/-- A package without a job that is given a record that fails keeps its result and tells the record's ranks. -/
theorem rootRecordFail_idle {u : State} (idle : u.jobHeld = false) (r : List Byte) (reason : Nat) :
    ∃ l : List Nat, u.rootRecordFail r reason = l.foldl (fun s k => s.ctl kPITCH 7 k (recordEpoch r) []) (u.failing r reason) := by
  rw [State.rootRecordFail]
  simp only [idle]
  exact ⟨_, rfl⟩

theorem completes_requestFailed {c : Nat} (h : WriteTaken .pitchRequest src q e v s) (idle : s.jobHeld = false)
    (bad : s.recordCheck v = .error c) : Completes (.pitchRequest src) s (fun t =>
      t.pitch = { s.pitch with reason := c, resultRank := 0, resultJob := fieldAt v 6 2 } ∧ Answered q 0 0 [] s t
      ∧ Frame (servedParts ++ [.pitch, .fab, .recorder]) s t) := by
  have key : (parseReq q).key = dictKey 0x9030 1 := entryOf_write h (by decide)
  have pitch : (s.opened q).pitch = s.pitch := opened_parts s q .pitch (by simp)
  have idle' : (s.opened q).jobHeld = false := by rw [jobHeld_opened, idle]
  obtain ⟨l, eq⟩ := rootRecordFail_idle idle' v c
  have take : (s.opened q).takeValue q.path (parseReq q).key e v = ((s.opened q).rootRecordFail v c, false) := by
    rw [key, takeValue_request, State.requestPitch, recordCheck_opened, bad]
  have hp : ((s.opened q).rootRecordFail v c).hp0 = (s.opened q).hp0 ∧ ((s.opened q).rootRecordFail v c).hp1 = (s.opened q).hp1 := by simp
  have sent : ∀ p, p ∉ [Part.fab, .recorder] → p.same ((s.opened q).failing v c) ((s.opened q).rootRecordFail v c) := by
    rw [eq]
    exact foldl_parts (fun u k => ctl_parts u kPITCH 7 k (recordEpoch v) []) l _
  have failing : ∀ p, p ∉ [Part.pitch] → p.same (s.opened q) ((s.opened q).failing v c) := pitch_parts _ _
  refine completes_command (l := [.pitch, .fab, .recorder]) h take hp
    (fun p n => Part.same_trans (failing p (Part.outside n)) (sent p (Part.outside n))) fun t same an fr => ⟨?_, an, fr⟩
  rw [← pitch]
  exact (same .pitch (by decide)).trans (sent .pitch (by decide))

end

end Sys2Proof.Machine

namespace Sys2Proof

open Machine

/-- Settles O57: what each command's value does to the package as the service finds it, with the answer that every accepted write has. -/
theorem commandEntriesAct : Obligations.CommandEntriesAct := fun _ _ _ _ _ =>
  ⟨fun h => ⟨completes_resetIdle h, completes_resetHeld h⟩, completes_counter, completes_drain, completes_apply, completes_cancel,
    fun h => ⟨fun _ => completes_requestTaken h, fun _ => completes_requestContinued h, fun _ => completes_requestFailed h⟩,
    fun h => ⟨completes_strikeHeld h, completes_strikeNone h⟩, completes_quiesceCommand, completes_resume, completes_leave⟩

end Sys2Proof
end

section
/-!
Relays: a request for another rank, the MGMT packets of one, and how one ends (20, R439).
-/
namespace Sys2Proof.Machine

open Sys2Proof

/-! ## Fields of a byte string -/

/-- What stands in the midst of a byte string. -/
theorem slice_mid {α : Type} (pre x post : List α) {off len : Nat} (at_ : pre.length = off) (size : x.length = len) :
    slice (pre ++ x ++ post) off len = x := by
  rw [slice, List.append_assoc, ← at_, List.drop_left, ← size, List.take_left]

theorem slice_start {α : Type} (x post : List α) {len : Nat} (size : x.length = len) : slice (x ++ post) 0 len = x := by
  rw [slice, List.drop_zero, ← size, List.take_left]

/-! ## Messages in MGMT packets -/

theorem sendMgmt_parts (u : State) (dst id path : Nat) (answer : Bool) (m : List Byte) :
    ∀ p, p ∉ [Part.fab, .recorder] → p.same u (u.sendMgmt dst id path answer m) :=
  foldl_parts (fun _ _ => ctl_parts _ _ _ _ _ _) _ u

theorem SendsAlike.sendMgmt {s t : State} (h : SendsAlike s t) (dst id path : Nat) (answer : Bool) (m : List Byte) :
    SendsAlike (s.sendMgmt dst id path answer m) (t.sendMgmt dst id path answer m) :=
  SendsAlike.foldl (fun s t i k => by rw [k.epoch]; exact k.ctl _ _ _ _) _ h

/-- The package with one relay more, before its first packet. -/
def State.relaying (u : State) (x : Relay) : State :=
  { u with dict := { u.dict with relays := u.dict.relays ++ [x], relayNext := (u.dict.relayNext + 1) % 65536 } }

/-- A relay is kept beside those under way, and its request is on its way. -/
theorem startRelay_eq (u : State) (path : DictPath) (mac rank : Nat) (outer inner : List Byte) (survey : Bool) :
    u.startRelay path mac rank outer inner survey
      = (u.relaying { id := u.dict.relayNext, path := path, mac := mac, outer := outer, rank := rank, survey := survey }).sendMgmt
          rank u.dict.relayNext path.code false inner := rfl

theorem relaying_parts (u : State) (x : Relay) : ∀ p, p ∉ [Part.service] → p.same u (u.relaying x) := by
  refine service_parts _ _ ?_ ?_ ?_ <;> rfl

theorem startRelay_parts (u : State) (path : DictPath) (mac rank : Nat) (outer inner : List Byte) (survey : Bool) :
    ∀ p, p ∉ [Part.service, .fab, .recorder] → p.same u (u.startRelay path mac rank outer inner survey) := fun p n =>
  Part.same_trans (relaying_parts u _ p (Part.outside n)) (sendMgmt_parts _ _ _ _ _ _ p (Part.outside n))

theorem relays_of_service {u t : State} (h : Part.service.same u t) : t.dict.relays = u.dict.relays :=
  (congrArg (fun d : DictSt => d.relays) (show t.dict.service = u.dict.service from h) :)

theorem relays_startRelay (u : State) (path : DictPath) (mac rank : Nat) (outer inner : List Byte) (survey : Bool) :
    (u.startRelay path mac rank outer inner survey).dict.relays = u.dict.relays
      ++ [{ id := u.dict.relayNext, path := path, mac := mac, outer := outer, rank := rank, survey := survey }] :=
  relays_of_service (sendMgmt_parts _ rank u.dict.relayNext path.code false inner .service (by simp))

section
variable {s : State} {src : DictSrc} {q : DictReq}

/-! ## A request with RELAY -/

/-- What a request with RELAY needs of itself and of the peg table. -/
def State.relayable (u : State) (r : Req) : Bool :=
  (r.opcode == 1 || r.opcode == 3) && decide (24 ≤ r.body.length) && fieldAt r.body 2 6 == 0
    && [1, 3].contains (fieldAt (r.body.drop 8) 1 1) && !bitAt 3 (fieldAt (r.body.drop 8) 7 1)
    && decide (fieldAt r.body 0 2 < 512) && u.fab.tabs.pegOf (fieldAt r.body 0 2) != 0xFFFF

theorem serveRelay_eq {u : State} {r : Req} (free : u.err.resetRequested = false) : u.serveRelay q r =
    if u.relayable r then u.startRelay q.path q.mac (fieldAt r.body 0 2) q.msg (r.body.drop 8) false else u.refuse q r abBad := by
  rw [State.serveRelay, free, if_neg (by simp)]
  rfl

theorem exec_relay (asks : Asks .relay src q s) (header : (parseReq q).headerOk = true) (relay : (parseReq q).relay = true) :
    exec (.dictRelay src) s = finish s ((s.fetched q).serveRelay q (parseReq q)) := by
  have e := exec_execute asks
  rw [State.executeReq, relay, header, if_pos (by simp)] at e
  exact e

theorem completes_relayRefused (asks : Asks .relay src q s) (header : (parseReq q).headerOk = true) (relay : (parseReq q).relay = true)
    (free : s.err.resetRequested = false) (bad : s.relayable (parseReq q) = false) : Completes (.dictRelay src) s (fun t =>
      Answered q abBad 0 [] s t ∧ Frame servedParts s t) := by
  have e := exec_relay asks header relay
  have bad' : (s.fetched q).relayable (parseReq q) = false := bad
  rw [serveRelay_eq (show (s.fetched q).err.resetRequested = false from free), bad', if_neg (by simp), State.refuse] at e
  exact completes_answered (l := servedParts) e (fetched_hp s q).1 (fetched_hp s q).2 (fun _ h => h)
    (fun p n => fetched_parts s q p (Part.outside n)) fun t _ _ _ an fr => ⟨an, fr⟩

theorem relayable_bad {r : Req} (bad : r.opcode ≠ 1 ∧ r.opcode ≠ 3 ∨ r.body.length < 24 ∨ 512 ≤ fieldAt r.body 0 2
    ∨ s.fab.tabs.pegOf (fieldAt r.body 0 2) = 0xFFFF) : s.relayable r = false := by
  rw [State.relayable]
  rcases bad with ⟨one, three⟩ | short | far | lone
  · rw [beq_eq_false_iff_ne.2 one, beq_eq_false_iff_ne.2 three]
    simp
  · rw [decide_eq_false (Nat.not_le.2 short)]
    simp
  · rw [decide_eq_false (Nat.not_lt.2 far)]
    simp
  · rw [lone]
    simp

/-- The fields of the payload of a request with RELAY. -/
theorem relayBody (rank : Nat) (inner : List Byte) (low : rank < 512) : fieldAt (leBytes 2 rank ++ zeros 6 ++ inner) 0 2 = rank
    ∧ fieldAt (leBytes 2 rank ++ zeros 6 ++ inner) 2 6 = 0 ∧ (leBytes 2 rank ++ zeros 6 ++ inner).drop 8 = inner
    ∧ (leBytes 2 rank ++ zeros 6 ++ inner).length = 8 + inner.length := by
  have clear : (zeros 6).length = 6 := List.length_replicate ..
  refine ⟨?_, ?_, ?_, by simp only [List.length_append, length_leBytes, clear]⟩
  · rw [List.append_assoc, fieldAt, slice_start _ _ (length_leBytes 2 rank), leNat_leBytes, Nat.mod_eq_of_lt (by omega)]
  · rw [fieldAt, slice_mid _ _ _ (length_leBytes 2 rank) clear]
    rfl
  · exact List.drop_left' (by rw [List.length_append, length_leBytes, clear])

theorem relayable_good {r : Req} {rank : Nat} {inner : List Byte} (reads : r.opcode = 1 ∨ r.opcode = 3)
    (body : r.body = leBytes 2 rank ++ zeros 6 ++ inner) (low : rank < 512) (long : 16 ≤ inner.length)
    (kind : fieldAt inner 1 1 = 1 ∨ fieldAt inner 1 1 = 3) (plain : bitAt 3 (fieldAt inner 7 1) = false)
    (pegged : s.fab.tabs.pegOf rank ≠ 0xFFFF) : s.relayable r = true := by
  obtain ⟨named, clear, rest, size⟩ := relayBody rank inner low
  have op : (r.opcode == 1 || r.opcode == 3) = true := by simpa using reads
  have inside : [1, 3].contains (fieldAt inner 1 1) = true := by rcases kind with h | h <;> rw [h] <;> rfl
  rw [State.relayable, body, named, clear, rest, size, op, inside, plain, bne_iff_ne.2 pegged, decide_eq_true (by omega : 24 ≤ 8 + inner.length),
    decide_eq_true low]
  rfl

theorem completes_relay {rank : Nat} {inner : List Byte} (asks : Asks .relay src q s) (header : (parseReq q).headerOk = true)
    (relay : (parseReq q).relay = true) (reads : (parseReq q).opcode = 1 ∨ (parseReq q).opcode = 3)
    (body : (parseReq q).body = leBytes 2 rank ++ zeros 6 ++ inner) (low : rank < 512) (long : 16 ≤ inner.length)
    (kind : fieldAt inner 1 1 = 1 ∨ fieldAt inner 1 1 = 3) (plain : bitAt 3 (fieldAt inner 7 1) = false)
    (pegged : s.fab.tabs.pegOf rank ≠ 0xFFFF) (free : s.err.resetRequested = false) : Completes (.dictRelay src) s (fun t =>
      ({ id := s.dict.relayNext, path := q.path, mac := q.mac, outer := q.msg, rank := rank } : Relay) ∈ t.dict.relays
      ∧ (∀ x ∈ s.dict.relays, x ∈ t.dict.relays) ∧ t.fab = (s.sendMgmt rank s.dict.relayNext q.path.code false inner).fab
      ∧ Frame [.service, .fab, .recorder] s t) := by
  have e := exec_relay asks header relay
  have good : (s.fetched q).relayable (parseReq q) = true := relayable_good reads body low long kind plain pegged
  obtain ⟨named, _, rest, _⟩ := relayBody rank inner low
  rw [serveRelay_eq (show (s.fetched q).err.resetRequested = false from free), good, if_pos rfl, body, named, rest] at e
  refine completes_frame (l := [.service, .fab, .recorder]) e (fun p n => Part.same_trans (fetched_parts s q p (Part.outside n))
    (startRelay_parts _ _ _ _ _ _ _ p n)) fun t hs fr => ?_
  have relays : t.dict.relays = s.dict.relays ++ _ := (relays_of_service (hs .service)).trans (relays_startRelay (s.fetched q) q.path q.mac rank q.msg inner false)
  refine ⟨?_, fun x h => ?_, ?_, fr⟩
  · rw [relays]
    exact List.mem_append_right _ (List.mem_singleton.2 rfl)
  · rw [relays]
    exact List.mem_append_left _ h
  · have alike : SendsAlike s ((s.fetched q).relaying { id := s.dict.relayNext, path := q.path, mac := q.mac, outer := q.msg, rank := rank }) :=
      ⟨rfl, rfl, rfl, rfl⟩
    exact (hs .fab).trans (alike.sendMgmt rank s.dict.relayNext q.path.code false inner).fab

/-! ## The end of a relay -/

/-- The package with a relay less. -/
def State.unrelayed (u : State) (x : Relay) : State := { u with dict := { u.dict with relays := u.dict.relays.filter (fun y => y.id != x.id) } }

theorem unrelayed_parts (u : State) (x : Relay) : ∀ p, p ∉ [Part.service] → p.same u (u.unrelayed x) := by
  refine service_parts _ _ ?_ ?_ ?_ <;> rfl

/-- A relay that ends for a request answers it. -/
theorem completes_relayDone {i : Instr} {u : State} {x : Relay} {code flags : Nat} {body : List Byte} {l : List Part}
    (e : exec i s = finish s (u.relayDone x code flags body)) (request : x.survey = false) (h0 : u.hp0 = s.hp0) (h1 : u.hp1 = s.hp1)
    (relays : u.dict.relays = s.dict.relays) (parts : ∀ p, p ∉ servedParts ++ l → p.same s u) : Completes i s (fun t =>
      Answered { path := x.path, mac := x.mac, msg := x.outer } code flags body s t
      ∧ t.dict.relays = s.dict.relays.filter (fun y => y.id != x.id) ∧ Frame (servedParts ++ l) s t) := by
  have done : u.relayDone x code flags body = (u.unrelayed x).respond { path := x.path, mac := x.mac, msg := x.outer }
      (parseReq { path := x.path, mac := x.mac, msg := x.outer }) code flags body := by
    rw [State.relayDone]
    simp only [request]
    rfl
  rw [done] at e
  refine completes_answered (u := u.unrelayed x) e h0 h1 (fun _ m => List.mem_append_left _ m)
    (fun p n => Part.same_trans (parts p n) (unrelayed_parts u x p (fun m => n (List.mem_append_left _ (List.mem_singleton.1 m ▸ by decide)))))
    fun t kept _ service an fr => ⟨an, ?_, fr⟩
  rw [← relays]
  exact (congrArg (fun d : DictSt => d.relays) service :)

theorem ckpt_parts (u : State) (x : Ckpt) : ∀ p, p ∉ [Part.ckpt] → p.same u { u with ckpt := x } := by
  intro p n
  cases p <;> simp_all [Part.same]

/-- A relay that ends for a survey gives it a rank's holdings. -/
theorem completes_relaySurveyed {i : Instr} {u : State} {x : Relay} {v : Survey} {code flags : Nat} {body : List Byte}
    (e : exec i s = finish s (u.relayDone x code flags body)) (survey : x.survey = true) (running : s.ckpt.survey = some v)
    (relays : u.dict.relays = s.dict.relays) (parts : ∀ p, p ∉ [Part.fab] → p.same s u) : Completes i s (fun t =>
      t.ckpt.survey = some { v with answers := nset [] v.answers x.rank (if code = 0 then body else []) }
      ∧ t.dict.relays = s.dict.relays.filter (fun y => y.id != x.id) ∧ Frame [.service, .ckpt, .fab] s t) := by
  have ckpt : u.ckpt = s.ckpt := parts .ckpt (by simp)
  have done : u.relayDone x code flags body = { (u.unrelayed x) with ckpt := { u.ckpt with
      survey := some { v with answers := nset [] v.answers x.rank (if code = 0 then body else []) } } } := by
    rw [State.relayDone]
    simp only [survey, ckpt, running]
    rfl
  rw [done] at e
  refine completes_frame (l := [.service, .ckpt, .fab]) e (fun p n => Part.same_trans (parts p (Part.outside n))
    (Part.same_trans (unrelayed_parts u x p (Part.outside n)) (ckpt_parts _ _ p (Part.outside n)))) fun t hs fr => ⟨?_, ?_, fr⟩
  · exact (congrArg Ckpt.survey (hs .ckpt) :)
  · rw [← relays]
    exact relays_of_service (hs .service)

theorem completes_relayTimeout {x : Relay} (ck : s.clocked = true) (found : s.dict.relays.find? (fun y => y.id == x.id) = some x)
    (request : x.survey = false) : Completes (.relayTimeout x.id) s (fun t =>
      Answered { path := x.path, mac := x.mac, msg := x.outer } abRelay 0 [] s t
      ∧ t.dict.relays = s.dict.relays.filter (fun y => y.id != x.id) ∧ Frame servedParts s t) := by
  have e : exec (.relayTimeout x.id) s = finish s (s.relayDone x abRelay 0 []) := by
    show execRelayTimeout x.id s = _
    rw [execRelayTimeout, found]
    exact act_pos _ ck rfl
  have h := completes_relayDone (l := []) e request rfl rfl rfl fun p _ => p.same_refl s
  rwa [List.append_nil] at h

/-! ## MGMT packets (R439) -/

variable {k : Packet}

theorem exec_mgmtPacket (ck : s.clocked = true) (mine : s.isMine k kMGMT = true) (up : s.serviceUp = true) :
    exec (.mgmtPacket k) s = finish s (s.mgmtPacket k) := act_pos _ ck (by rw [mine, up]; rfl)

/-- The last part of an answer ends its relay. -/
theorem mgmtPacket_answer {x : Relay} (answer : bitAt 18 k.arg = true) (last : bitAt 19 k.arg = true)
    (found : s.dict.relays.find? (fun x => x.id == bits 15 0 k.arg && x.rank == k.srcRank && x.got.length == bits 35 20 k.arg) = some x) :
    s.mgmtPacket k = (s.takeLocal k).1.relayDone x (fieldAt (x.got ++ k.payload) 12 4)
      (2 * bits 2 1 (fieldAt (x.got ++ k.payload) 7 1)) ((x.got ++ k.payload).drop 16) := by
  have dict : (s.takeLocal k).1.dict = s.dict := by simp
  rw [State.mgmtPacket]
  dsimp only
  rw [if_pos answer, dict, found]
  simp only [last, if_true]

theorem completes_mgmtAnswered {x : Relay} {got : List Byte} (ck : s.clocked = true) (mine : s.isMine k kMGMT = true) (up : s.serviceUp = true)
    (answer : bitAt 18 k.arg = true) (last : bitAt 19 k.arg = true)
    (found : s.dict.relays.find? (fun x => x.id == bits 15 0 k.arg && x.rank == k.srcRank && x.got.length == bits 35 20 k.arg) = some x)
    (whole : got = x.got ++ k.payload) :
    (x.survey = false → Completes (.mgmtPacket k) s (fun t =>
      Answered { path := x.path, mac := x.mac, msg := x.outer } (fieldAt got 12 4) (2 * bits 2 1 (fieldAt got 7 1)) (got.drop 16) s t
      ∧ t.dict.relays = s.dict.relays.filter (fun y => y.id != x.id) ∧ Frame (servedParts ++ [.fab]) s t))
    ∧ (∀ v, x.survey = true → s.ckpt.survey = some v → Completes (.mgmtPacket k) s (fun t =>
      t.ckpt.survey = some { v with answers := nset [] v.answers x.rank (if fieldAt got 12 4 = 0 then got.drop 16 else []) }
      ∧ t.dict.relays = s.dict.relays.filter (fun y => y.id != x.id) ∧ Frame [.service, .ckpt, .fab] s t)) := by
  have e := exec_mgmtPacket ck mine up
  rw [mgmtPacket_answer answer last found, ← whole] at e
  have parts := takeLocal_parts s k
  exact ⟨fun request => completes_relayDone e request (by simp) (by simp) (by simp) fun p n => parts p (Part.outside n),
    fun v survey running => completes_relaySurveyed e survey running (by simp) parts⟩

/-- A request of one part is served at once, and its answer sent back. -/
theorem mgmtPacket_request (ask : bitAt 18 k.arg = false) (last : bitAt 19 k.arg = true) (first : bits 35 20 k.arg = 0) :
    s.mgmtPacket k = ({ (s.takeLocal k).1 with dict := { s.dict with
        relayIn := s.dict.relayIn.filter (fun y => !(y.src == k.srcRank && y.id == bits 15 0 k.arg)) } } : State).sendMgmt k.srcRank
      (bits 15 0 k.arg) (bits 17 16 k.arg) true ((s.takeLocal k).1.serveInner (pathOf (bits 17 16 k.arg)) k.payload) := by
  have dict : (s.takeLocal k).1.dict = s.dict := by simp
  rw [State.mgmtPacket]
  dsimp only
  rw [ask, if_neg (by simp), first, if_pos rfl, dict]
  simp only [last, if_true]

theorem completes_mgmtServed (ck : s.clocked = true) (mine : s.isMine k kMGMT = true) (up : s.serviceUp = true) {u : State}
    (taken : u = { (s.takeLocal k).1 with dict := { s.dict with
      relayIn := s.dict.relayIn.filter (fun y => !(y.src == k.srcRank && y.id == bits 15 0 k.arg)) } })
    (ask : bitAt 18 k.arg = false) (last : bitAt 19 k.arg = true) (first : bits 35 20 k.arg = 0) : Completes (.mgmtPacket k) s (fun t =>
      t.fab = (u.sendMgmt k.srcRank (bits 15 0 k.arg) (bits 17 16 k.arg) true
        ((s.takeLocal k).1.serveInner (pathOf (bits 17 16 k.arg)) k.payload)).fab
      ∧ Frame [.service, .fab, .recorder] s t) := by
  have e := exec_mgmtPacket ck mine up
  have dict : (s.takeLocal k).1.dict = s.dict := by simp
  rw [mgmtPacket_request ask last first, ← taken] at e
  have served : ∀ p, p ∉ [Part.service] → p.same (s.takeLocal k).1 u := by
    rw [taken]
    refine service_parts _ _ ?_ ?_ ?_ <;> rw [dict]
  exact completes_frame (l := [.service, .fab, .recorder]) e (fun p n => Part.same_trans (takeLocal_parts s k p (Part.outside n))
    (Part.same_trans (served p (Part.outside n)) (sendMgmt_parts _ _ _ _ _ _ p (Part.outside n)))) fun t hs fr => ⟨hs .fab, fr⟩

end

end Sys2Proof.Machine
end

section
/-!
Surveys, quotes, life-cycle transitions and firmware updates (17, R385; 22, R451, R454, R455, R466, R467, R469, R470).
-/
namespace Sys2Proof.Machine

open Sys2Proof

section
variable {s : State} {row : DictRow} {src : DictSrc} {q : DictReq} {e : DictEntry} {p v : List Byte}

/-- A number that stands in the midst of a byte string. -/
theorem fieldAt_mid (pre post : List Byte) {off : Nat} (len n : Nat) (at_ : pre.length = off) :
    fieldAt (pre ++ leBytes len n ++ post) off len = n % 256 ^ len := by
  rw [fieldAt, slice_mid _ _ _ at_ (length_leBytes len n), leNat_leBytes]

/-! ## A survey begins (R385) -/

/-- A survey's relays, one for each rank. -/
theorem foldl_startRelay (l : List Nat) (u : State) :
    (∀ k ∈ l, ∃ x ∈ (l.foldl (fun s r => s.startRelay .mgmt 0 r [] holdingsRead true) u).dict.relays, x.rank = k ∧ x.survey = true)
    ∧ ∀ x ∈ u.dict.relays, x ∈ (l.foldl (fun s r => s.startRelay .mgmt 0 r [] holdingsRead true) u).dict.relays := by
  induction l generalizing u with
  | nil => exact ⟨nofun, fun _ h => h⟩
  | cons r rs ih =>
    obtain ⟨asked, kept⟩ := ih (u.startRelay .mgmt 0 r [] holdingsRead true)
    rw [relays_startRelay] at kept
    refine ⟨fun k h => ?_, fun x h => kept x (List.mem_append_left _ h)⟩
    rcases List.mem_cons.1 h with rfl | later
    · exact ⟨_, kept _ (List.mem_append_right _ (List.mem_singleton.2 rfl)), rfl, rfl⟩
    · exact asked k later

theorem takeValue_survey (u : State) (path : DictPath) : u.takeValue path (dictKey 0xA010 10) e v = (u.startSurvey v, false) := by
  rw [State.takeValue, if_neg (by decide), if_neg (by decide), if_neg (by decide), if_neg (by decide), if_neg (by decide), if_pos rfl]

/-- The package with a survey under way, before it asks a rank. -/
def State.surveying (u : State) (v : List Byte) : State :=
  { u with ckpt := { u.ckpt with
      survey := some { mode := fieldAt v 0 1, ranks := fieldAt v 2 2, digest := slice v 8 8, asked := u.fab.tabs.ranks } } }

theorem startSurvey_hp (u : State) (v : List Byte) : (u.startSurvey v).hp0 = u.hp0 ∧ (u.startSurvey v).hp1 = u.hp1 := by simp

theorem startSurvey_spec (u : State) (v : List Byte) : (∀ p, p ∉ [Part.service, .fab, .recorder] → p.same (u.surveying v) (u.startSurvey v))
    ∧ (∀ k ∈ u.fab.tabs.ranks, ∃ x ∈ (u.startSurvey v).dict.relays, x.rank = k ∧ x.survey = true)
    ∧ ∀ x ∈ u.dict.relays, x ∈ (u.startSurvey v).dict.relays :=
  ⟨foldl_parts (fun u r => startRelay_parts u .mgmt 0 r [] holdingsRead true) u.fab.tabs.ranks (u.surveying v),
    foldl_startRelay u.fab.tabs.ranks (u.surveying v)⟩

theorem relays_opened (s : State) (q : DictReq) : (s.opened q).dict.relays = s.dict.relays := by
  rw [State.opened]
  split <;> rfl

theorem completes_survey (h : WriteTaken .survey src q e v s) : Completes (.survey src) s (fun t =>
    t.ckpt = { s.ckpt with survey := some { mode := fieldAt v 0 1, ranks := fieldAt v 2 2, digest := slice v 8 8, asked := s.fab.tabs.ranks } }
    ∧ (∀ k ∈ s.fab.tabs.ranks, ∃ x ∈ t.dict.relays, x.rank = k ∧ x.survey = true) ∧ (∀ x ∈ s.dict.relays, x ∈ t.dict.relays)
    ∧ Answered q 0 0 [] s t ∧ Frame (servedParts ++ [.ckpt, .fab, .recorder]) s t) := by
  have key : (parseReq q).key = dictKey 0xA010 10 := entryOf_write h (by decide)
  have take : (s.signedBy q v).takeValue q.path (parseReq q).key e v = ((s.opened q).startSurvey v, false) := by
    rw [signedBy_unsigned h, key, takeValue_survey]
  have opened := opened_parts s q
  obtain ⟨h0, h1⟩ := opened_hp s q
  obtain ⟨s0, s1⟩ := startSurvey_hp (s.opened q) v
  obtain ⟨parts, asked, old⟩ := startSurvey_spec (s.opened q) v
  rw [opened_fab] at asked
  rw [relays_opened] at old
  refine completes_taken (l := [.ckpt, .fab, .recorder]) (w := (s.opened q).startSurvey v) (pending := false) h.2 take (s0.trans h0) (s1.trans h1)
    (fun p n => Part.same_trans (opened p (Part.outside n))
      (Part.same_trans (ckpt_parts _ _ p (Part.outside n)) (parts p (Part.outside n)))) fun t kept same service an fr => ?_
  have relays : t.dict.relays = ((s.opened q).startSurvey v).dict.relays := (congrArg (fun d : DictSt => d.relays) service :)
  refine ⟨?_, by rwa [relays], by rwa [relays], an, fr⟩
  rw [(same .ckpt (by decide) : t.ckpt = _), (parts .ckpt (by simp) : _ = ((s.opened q).surveying v).ckpt), State.surveying, opened_fab,
    (opened .ckpt (by simp) : (s.opened q).ckpt = s.ckpt)]

/-! ## A survey ends (R385, Tables 17.3, 17.5) -/

theorem foldl_max_same {n : Nat} {l : List Nat} (all : ∀ x ∈ l, x = n) : l.foldl max n = n := by
  induction l with
  | nil => rfl
  | cons x xs ih =>
    obtain ⟨rfl, rest⟩ := List.forall_mem_cons.1 all
    rw [List.foldl_cons, Nat.max_self, ih rest]

theorem newestOf_same {n : Nat} {l : List Nat} (some : l ≠ []) (all : ∀ x ∈ l, x = n) : newestOf l = n := by
  cases l with
  | nil => exact absurd rfl some
  | cons x xs =>
    obtain ⟨rfl, rest⟩ := List.forall_mem_cons.1 all
    rw [newestOf, List.foldl_cons, Nat.zero_max, foldl_max_same rest]

/-- A rollback survey finds the same newest step on every rank. -/
theorem result_agreed {v : Survey} {n : Nat} (free : Nat) (mode : v.mode = 0) (asked : v.asked ≠ [])
    (all : ∀ k ∈ v.asked, v.copies k ≠ [] ∧ newestOf (v.copies k) = n) :
    v.result free = leBytes 2 1 ++ leBytes 2 0 ++ zeros 4 ++ leBytes 8 n := by
  have held : (v.asked.map fun r => (r, v.copies r)).filter (fun e => e.2.isEmpty) = [] := by
    rw [List.filter_eq_nil_iff]
    rintro x h
    obtain ⟨k, mem, rfl⟩ := List.mem_map.1 h
    simpa using (all k mem).1
  have newest : newestOf ((v.asked.map fun r => (r, v.copies r)).map fun e => newestOf e.2) = n := by
    refine newestOf_same (by simpa using asked) fun x h => ?_
    rw [List.map_map] at h
    obtain ⟨k, mem, rfl⟩ := List.mem_map.1 h
    exact (all k mem).2
  have level : (v.asked.map fun r => (r, v.copies r)).filter (fun e => newestOf e.2 < n) = [] := by
    rw [List.filter_eq_nil_iff]
    rintro x h
    obtain ⟨k, mem, rfl⟩ := List.mem_map.1 h
    simp [(all k mem).2]
  rw [Survey.result]
  simp only [held, newest, level, mode, List.isEmpty_map, List.isEmpty_eq_false_iff.2 asked]
  simp [surveyBytes]

/-- A rank without a copy, alone, is named by its survey. -/
theorem result_missing {v : Survey} {k : Nat} (free : Nat) (asked : v.asked = [k]) (none : v.copies k = []) :
    v.result free = leBytes 2 4 ++ leBytes 2 1 ++ zeros 4 ++ leBytes 8 (Config.freeWord free).toNat
      ++ (leBytes 2 k ++ zeros 6 ++ leBytes 8 (Config.freeWord free).toNat) := by
  rw [Survey.result, asked, List.map_singleton, none]
  simp [surveyBytes]

/-- The fields of a result that names one rank. -/
theorem missingFields (k n : Nat) : fieldAt (leBytes 2 4 ++ leBytes 2 1 ++ zeros 4 ++ leBytes 8 n ++ (leBytes 2 k ++ zeros 6 ++ leBytes 8 n)) 0 2 = 4
    ∧ fieldAt (leBytes 2 4 ++ leBytes 2 1 ++ zeros 4 ++ leBytes 8 n ++ (leBytes 2 k ++ zeros 6 ++ leBytes 8 n)) 2 2 = 1
    ∧ fieldAt (leBytes 2 4 ++ leBytes 2 1 ++ zeros 4 ++ leBytes 8 n ++ (leBytes 2 k ++ zeros 6 ++ leBytes 8 n)) 16 2 = k % 2 ^ 16 := by
  have head : (leBytes 2 4 ++ leBytes 2 1 ++ zeros 4 ++ leBytes 8 n).length = 16 := by
    simp only [List.length_append, length_leBytes, zeros, List.length_replicate]
  have first := fieldAt_mid [] (leBytes 2 1 ++ zeros 4 ++ leBytes 8 n ++ (leBytes 2 k ++ zeros 6 ++ leBytes 8 n)) 2 4 rfl
  have second := fieldAt_mid (leBytes 2 4) (zeros 4 ++ leBytes 8 n ++ (leBytes 2 k ++ zeros 6 ++ leBytes 8 n)) 2 1 (length_leBytes 2 4)
  have third := fieldAt_mid (leBytes 2 4 ++ leBytes 2 1 ++ zeros 4 ++ leBytes 8 n) (zeros 6 ++ leBytes 8 n) 2 k head
  simp only [List.append_assoc, List.nil_append] at first second third ⊢
  exact ⟨first, second, third⟩

theorem endSurvey_parts (u : State) (v : Survey) : ∀ p : Part,
    p.same { u with ckpt := { u.ckpt with survey := none, surveyResult := v.result u.free } } (u.endSurvey v) := by
  intro p
  have taken := taken_parts { u with ckpt := { u.ckpt with survey := none, surveyResult := v.result u.free } } p
  rw [State.endSurvey]
  dsimp only
  split
  · exact Part.same_trans taken (foldl_parts (l := []) (fun u x p _ => sendNotify_parts u x p) _ _ p (List.not_mem_nil))
  · exact taken

theorem completes_surveyDone {v : Survey} (ck : s.clocked = true) (running : s.ckpt.survey = some v)
    (ended : ∀ x ∈ s.dict.relays, x.survey = false) : Completes .surveyDone s (fun t =>
      t.ckpt = { s.ckpt with survey := none, surveyResult := t.ckpt.surveyResult }
      ∧ (∀ n, v.mode = 0 → v.asked ≠ [] → (∀ k ∈ v.asked, v.copies k ≠ [] ∧ newestOf (v.copies k) = n) →
        t.ckpt.surveyResult = leBytes 2 1 ++ leBytes 2 0 ++ zeros 4 ++ leBytes 8 n)
      ∧ (∀ k, v.asked = [k] → v.copies k = [] → fieldAt t.ckpt.surveyResult 0 2 = 4 ∧ fieldAt t.ckpt.surveyResult 2 2 = 1
        ∧ fieldAt t.ckpt.surveyResult 16 2 = k % 2 ^ 16)
      ∧ Frame [.ckpt] s t) := by
  have run : exec .surveyDone s = finish s (s.endSurvey v) := by
    show execSurveyDone s = _
    rw [execSurveyDone, running]
    exact act_pos _ ck (by simpa using ended)
  refine completes_frame (l := [.ckpt]) run (fun p n => Part.same_trans (ckpt_parts s _ p n) (endSurvey_parts s v p)) fun t hs fr => ?_
  have ckpt : t.ckpt = { s.ckpt with survey := none, surveyResult := v.result s.free } :=
    (hs .ckpt).trans (endSurvey_parts s v .ckpt)
  have result : t.ckpt.surveyResult = v.result s.free := congrArg Ckpt.surveyResult ckpt
  refine ⟨by rw [result, ckpt], fun n mode asked all => by rw [result, result_agreed _ mode asked all], fun k asked none => ?_, fr⟩
  rw [result, result_missing _ asked none]
  exact missingFields k _

/-! ## Quotes (R451, R466, R467, Table 22.4) -/

theorem takeValue_nonce (u : State) (path : DictPath) : u.takeValue path (dictKey 0x1020 2) e v = (u.takeNonce v, false) := by
  rw [State.takeValue, if_neg (by decide), if_neg (by decide), if_neg (by decide), if_neg (by decide), if_neg (by decide), if_neg (by decide),
    if_neg (by decide), if_neg (by decide), if_pos rfl]

/-- Bytes 7 to 31 of a quote: slot, serial number, power cycles, security versions and job. -/
def State.quoteSubject (u : State) : List Byte :=
  leBytes 1 (u.sec.activeSlot.getD 0) ++ leBytes 8 Config.serial.toNat ++ leBytes 4 u.mram.powerCycles ++ leBytes 2 u.mram.minSvn
  ++ leBytes 2 (imgField (u.slotImage (u.sec.activeSlot.getD 0)) 12 2) ++ leBytes 2 (if u.job.held then u.job.id else 0) ++ zeros 6

/-- What follows the nonce of a quote's head. -/
def State.quoteDigests (u : State) : List Byte :=
  u.slotDigest 0 ++ u.slotDigest 1 ++ u.currentValue 0x1020 5
  ++ (match u.job.held, u.job.image with
    | true, some im => im.digest
    | _, _ => zeros 64)
  ++ u.sec.ownerKey ++ leBytes 64 (Config.slhPublic 1 u.akSeed).toNat

theorem quoteHead_eq (u : State) (nonce : List Byte) : u.quoteHead nonce = leBytes 4 0x544F5551 ++ leBytes 2 1 ++ leBytes 1 u.sec.life.code
    ++ u.quoteSubject ++ nonce ++ u.quoteDigests := by
  simp only [State.quoteHead, State.quoteSubject, State.quoteDigests, List.append_assoc] <;> rfl

/-- The head of a quote: its magic, the life-cycle state, and the nonce. -/
theorem quoteHead_fields (u : State) {nonce : List Byte} (size : nonce.length = 32) : fieldAt (u.quoteHead nonce) 0 4 = 0x544F5551
    ∧ fieldAt (u.quoteHead nonce) 6 1 = u.sec.life.code ∧ slice (u.quoteHead nonce) 32 32 = nonce := by
  have small : u.sec.life.code % 256 ^ 1 = u.sec.life.code := by cases u.sec.life <;> rfl
  have subject : u.quoteSubject.length = 25 := by
    simp only [State.quoteSubject, List.length_append, length_leBytes, zeros, List.length_replicate]
  have front : (leBytes 4 0x544F5551 ++ leBytes 2 1).length = 6 := by
    simp only [List.length_append, length_leBytes]
  have head : (leBytes 4 0x544F5551 ++ leBytes 2 1 ++ leBytes 1 u.sec.life.code ++ u.quoteSubject).length = 32 := by
    simp only [List.length_append, length_leBytes, subject]
  have magic := fieldAt_mid [] (leBytes 2 1 ++ leBytes 1 u.sec.life.code ++ u.quoteSubject ++ nonce ++ u.quoteDigests) 4 0x544F5551 rfl
  have life := fieldAt_mid _ (u.quoteSubject ++ nonce ++ u.quoteDigests) 1 u.sec.life.code front
  have own := slice_mid _ nonce u.quoteDigests head size
  rw [quoteHead_eq]
  rw [small] at life
  simp only [List.append_assoc, List.nil_append] at magic life own ⊢
  exact ⟨magic, life, own⟩

theorem Passed.entry_at {u : State} (h : Passed u (parseReq q) e v) {idx sub : Nat} (key : (parseReq q).key = dictKey idx sub) (low : sub < 256) :
    dictEntry idx sub = some e := by
  have i : (parseReq q).idx = idx := by
    rw [← key_div, key, dictKey]
    omega
  have j : (parseReq q).sub = sub := by
    rw [← key_mod, key, dictKey]
    omega
  rw [← i, ← j, h.entry]

theorem nonce_length (h : WriteTaken .attestationNonce src q e v s) : v.length = 32 := by
  have key : (parseReq q).key = dictKey 0x1020 2 := entryOf_write h (by decide)
  have passed := passed_of h.2
  have open_ : (dictEntry 0x1020 2).map (fun e => e.ty.size) = some none := by decide
  rw [passed.entry_at key (by decide)] at open_
  have size : e.ty.size = none := Option.some.inj open_
  have length := passed.length
  rw [lengthOk, key, size] at length
  exact beq_iff_eq.1 length

theorem sec_parts (u : State) (x : Security) : ∀ p, p ∉ [Part.sec] → p.same u { u with sec := x } := by
  intro p n
  cases p <;> simp_all [Part.same]

theorem completes_nonce (h : WriteTaken .attestationNonce src q e v s) : Completes (.attestationNonce src) s (fun t =>
    t.sec = { s.sec with attState := 1, quoteBody := t.sec.quoteBody, quote := [] } ∧ fieldAt t.sec.quoteBody 0 4 = 0x544F5551
    ∧ fieldAt t.sec.quoteBody 6 1 = s.sec.life.code ∧ slice t.sec.quoteBody 32 32 = v
    ∧ Answered q 0 0 [] s t ∧ Frame (servedParts ++ [.sec]) s t) := by
  have key : (parseReq q).key = dictKey 0x1020 2 := entryOf_write h (by decide)
  have take : (s.opened q).takeValue q.path (parseReq q).key e v = ((s.opened q).takeNonce v, false) := by rw [key, takeValue_nonce]
  have sec : (s.opened q).sec = s.sec := opened_parts s q .sec (by simp)
  obtain ⟨magic, life, own⟩ := quoteHead_fields (s.opened q) (nonce_length h)
  rw [sec] at life
  refine completes_command (w := (s.opened q).takeNonce v) (l := [.sec]) h take ⟨rfl, rfl⟩ (fun p n => sec_parts _ _ p (Part.outside n))
    fun t same an fr => ?_
  have now : t.sec = { s.sec with attState := 1, quoteBody := (s.opened q).quoteHead v, quote := [] } := by
    rw [← sec]
    exact same .sec (by decide)
  have body : t.sec.quoteBody = (s.opened q).quoteHead v := congrArg Security.quoteBody now
  exact ⟨by rw [body, now], by rw [body, magic], by rw [body, life], by rw [body, own], an, fr⟩

theorem length_signature (n : Nat) (b : List Byte) : (signature n b).length = n := by
  simp [signature, zeros]

theorem fullQuote_spec (u : State) : u.fullQuote.take u.sec.quoteBody.length = u.sec.quoteBody
    ∧ u.fullQuote.length = u.sec.quoteBody.length + 29792 + 49856 := by
  rw [State.fullQuote]
  have ends : u.endorsement.length = 29792 := length_signature _ _
  exact ⟨by rw [List.append_assoc, List.take_left], by rw [List.length_append, List.length_append, ends, length_signature]⟩

theorem completes_quoteDone (ck : s.clocked = true) (signing : s.sec.attState = 1) : Completes .quoteDone s (fun t =>
    t.sec = { s.sec with attState := 2, endorsed := true, quote := t.sec.quote }
    ∧ t.sec.quote.take s.sec.quoteBody.length = s.sec.quoteBody ∧ t.sec.quote.length = s.sec.quoteBody.length + 29792 + 49856
    ∧ Frame [.sec] s t) := by
  have run : exec .quoteDone s = finish s { s with sec := { s.sec with attState := 2, endorsed := true, quote := s.fullQuote } } :=
    act_pos _ ck (beq_iff_eq.2 signing)
  refine completes_frame (l := [.sec]) run (sec_parts _ _) fun t hs fr => ?_
  have now : t.sec = { s.sec with attState := 2, endorsed := true, quote := s.fullQuote } := hs .sec
  have quote : t.sec.quote = s.fullQuote := congrArg Security.quote now
  obtain ⟨front, size⟩ := fullQuote_spec s
  exact ⟨by rw [quote, now], by rw [quote, front], by rw [quote, size], fr⟩

/-! ## Rows that may be signed (R435, R454, R455) -/

/-- A write, signed or not, of the transition's or the firmware's row names that entry. -/
theorem entryOf_checked {code : Nat} (h : WriteChecked row src q e p code v s) (own : row = .lifecycleTransition ∨ row = .firmwareUpdate) :
    ∃ n, EntryOf row (parseReq q).key n := by
  obtain ⟨asks, relay, _, _, whole, _⟩ := h
  have is : s.rowOf (parseReq q) = row := asks.1.2.2.1
  have named (d : DictRow) (ne : d ≠ row) (k : (entryRow (parseReq q).key ((s.wholeValue (parseReq q)).map leNat)).getD d = row) :
      ∃ n, EntryOf row (parseReq q).key n := by
    refine ⟨(s.wholeValue (parseReq q)).map leNat, entryOf_entryRow ?_⟩
    generalize entryRow (parseReq q).key _ = o at k ⊢
    cases o with
    | none => exact absurd k ne
    | some x => exact congrArg some k
  have plain : DictRow.write ≠ row ∧ DictRow.writeBlock ≠ row ∧ DictRow.signedWrite ≠ row := by rcases own with rfl | rfl <;> decide
  obtain ⟨write, block, signed⟩ := plain
  unfold State.rowOf at is
  dsimp only at is
  rw [relay, if_neg (by simp)] at is
  rcases whole with ⟨two, _⟩ | ⟨seg, _⟩
  · rw [two] at is
    exact named _ write is
  · rw [Req.segmented, Bool.or_eq_true, beq_iff_eq, beq_iff_eq] at seg
    rcases seg with four | seven
    · rw [four] at is
      exact named _ block is
    · rw [seven] at is
      change (if _ then _ else _) = row at is
      split at is
      · exact named _ signed is
      · exact absurd is signed

theorem takeValue_transition (u : State) (path : DictPath) : u.takeValue path (dictKey 0xC010 2) e v = (u.takeTransition v, false) := by
  rw [State.takeValue, if_neg (by decide), if_neg (by decide), if_neg (by decide), if_neg (by decide), if_neg (by decide), if_neg (by decide),
    if_neg (by decide), if_neg (by decide), if_neg (by decide), if_pos rfl]

theorem takeValue_firmware (u : State) (path : DictPath) : u.takeValue path (dictKey 0xC020 5) e v = (u.takeFirmware v, false) := by
  rw [State.takeValue, if_neg (by decide), if_neg (by decide), if_neg (by decide), if_neg (by decide), if_neg (by decide), if_neg (by decide),
    if_neg (by decide), if_neg (by decide), if_neg (by decide), if_neg (by decide), if_pos rfl]

/-- The MRAM of a package that has gone to another life-cycle state. -/
def Mram.transitioned (m : Mram) (new : LifeSt) (v : List Byte) : Mram :=
  { m with life := new, ownerKey := if new = .owned then slice v 8 64 else zeros 64, udsLocked := m.udsLocked || (new == .scrap)
           transitions := min (m.transitions + 1) (2 ^ 32 - 1) }

/-- The package in another life-cycle state, before its event. -/
def State.transitioned (u : State) (new : LifeSt) (v : List Byte) : State :=
  { u with mram := u.mram.transitioned new v, sec := { u.sec with transitionDone := true }, start := { u.start with resetDue := some .lifeCycle } }

theorem transitioned_parts (u : State) (new : LifeSt) (v : List Byte) : ∀ p, p ∉ [Part.mram, .sec, .start] → p.same u (u.transitioned new v) := by
  intro p n
  cases p <;> simp_all [Part.same, State.transitioned]

theorem takeTransition_eq (u : State) {new : LifeSt} (known : lifeOf (fieldAt v 0 1) = some new) :
    ∃ payload, u.takeTransition v = (u.transitioned new v).event 0x0105 srcPackage payload := by
  rw [State.takeTransition, known]
  exact ⟨_, rfl⟩

theorem takeTransition_leaves (u : State) {new : LifeSt} (known : lifeOf (fieldAt v 0 1) = some new) :
    (u.takeTransition v).mram = u.mram.transitioned new v ∧ (u.takeTransition v).sec = { u.sec with transitionDone := true }
    ∧ (u.takeTransition v).start = { u.start with resetDue := some .lifeCycle } ∧ (u.takeTransition v).hp0 = u.hp0
    ∧ (u.takeTransition v).hp1 = u.hp1 ∧ ∀ p, p ∉ [Part.mram, .sec, .start, .recorder] → p.same u (u.takeTransition v) := by
  obtain ⟨payload, eq⟩ := takeTransition_eq u known
  rw [eq]
  refine ⟨by simp [State.transitioned], by simp [State.transitioned], by simp [State.transitioned], by simp [State.transitioned],
    by simp [State.transitioned], fun p n => ?_⟩
  exact Part.same_trans (transitioned_parts u new v p (Part.outside n)) (event_parts _ 0x0105 srcPackage payload p (Part.outside n))

theorem completes_transition {new : LifeSt} (seven : (parseReq q).opcode = 7) (h : WriteChecked .lifecycleTransition src q e p 0 v s)
    (known : lifeOf (fieldAt v 0 1) = some new) : Completes (.lifecycleTransition src) s (fun t =>
      t.mram = { s.mram with life := new, ownerKey := if new = .owned then slice v 8 64 else zeros 64
                             udsLocked := s.mram.udsLocked || (new == .scrap)
                             transitions := min (s.mram.transitions + 1) (2 ^ 32 - 1), signedSeq := signedNumber p }
      ∧ t.sec = { s.sec with transitionDone := true } ∧ t.start = { s.start with resetDue := some .lifeCycle }
      ∧ Answered q 0 0 [] s t ∧ Frame (servedParts ++ [.mram, .sec, .start, .recorder]) s t) := by
  obtain ⟨_, key⟩ := entryOf_checked h (Or.inl rfl)
  have key : (parseReq q).key = dictKey 0xC010 2 := key
  obtain ⟨_, _, h0, h1, signed, before⟩ := signedBy_leaves s q p
  obtain ⟨mram, sec, start, w0, w1, parts⟩ := takeTransition_leaves (s.signedBy q p) known
  rw [signed, if_pos seven] at mram
  have take : (s.signedBy q p).takeValue q.path (parseReq q).key e v = ((s.signedBy q p).takeTransition v, false) := by rw [key, takeValue_transition]
  refine completes_taken (w := (s.signedBy q p).takeTransition v) (pending := false) (l := [.mram, .sec, .start, .recorder]) h take (w0.trans h0)
    (w1.trans h1) (fun p n => Part.same_trans (before p (Part.outside n)) (parts p (Part.outside n))) fun t kept same _ an fr =>
      ⟨(same .mram (by decide)).trans mram, ?_, ?_, an, fr⟩
  · rw [(same .sec (by decide) : t.sec = _), sec, (before .sec (by decide) : _ = s.sec)]
  · rw [(same .start (by decide) : t.start = _), start, (before .start (by decide) : _ = s.start)]

theorem takeFirmware_leaves (u : State) : (u.takeFirmware v).mram
      = (if u.updateSlot = 0 then { u.mram with slot0 := .stored v } else { u.mram with slot1 := .stored v })
    ∧ (u.takeFirmware v).hp0 = u.hp0 ∧ (u.takeFirmware v).hp1 = u.hp1 ∧ ∀ p, p ∉ [Part.mram] → p.same u (u.takeFirmware v) := by
  rw [State.takeFirmware]
  split
  · exact ⟨rfl, rfl, rfl, mram_parts u _⟩
  · exact ⟨rfl, rfl, rfl, mram_parts u _⟩

theorem updateSlot_zero (h : s.sec.activeSlot = some 1 ∨ s.sec.activeSlot = none ∧ s.mram.bootSlot = 0) : s.updateSlot = 0 := by
  rw [State.updateSlot]
  rcases h with one | ⟨none, zero⟩
  · rw [one]
  · rw [none]
    exact zero

theorem updateSlot_one (h : s.sec.activeSlot = some 0 ∨ s.sec.activeSlot = none ∧ s.mram.bootSlot ≠ 0) : s.updateSlot ≠ 0 := by
  rw [State.updateSlot]
  rcases h with zero | ⟨none, one⟩
  · rw [zero]
    simp
  · rw [none]
    exact one

theorem completes_firmware (h : WriteChecked .firmwareUpdate src q e p 0 v s) : Completes (.firmwareUpdate src) s (fun t =>
    ((s.sec.activeSlot = some 1 ∨ s.sec.activeSlot = none ∧ s.mram.bootSlot = 0) → t.mram.slot0 = .stored v ∧ t.mram.slot1 = s.mram.slot1)
    ∧ ((s.sec.activeSlot = some 0 ∨ s.sec.activeSlot = none ∧ s.mram.bootSlot ≠ 0) → t.mram.slot1 = .stored v ∧ t.mram.slot0 = s.mram.slot0)
    ∧ t.mram.signedSeq = (if (parseReq q).opcode = 7 then signedNumber p else s.mram.signedSeq) ∧ t.mram.ring = s.mram.ring
    ∧ Answered q 0 0 [] s t ∧ Frame (servedParts ++ [.mram]) s t) := by
  obtain ⟨_, key⟩ := entryOf_checked h (Or.inr rfl)
  have key : (parseReq q).key = dictKey 0xC020 5 := key
  obtain ⟨_, _, h0, h1, signed, before⟩ := signedBy_leaves s q p
  obtain ⟨mram, w0, w1, parts⟩ := takeFirmware_leaves (v := v) (s.signedBy q p)
  have slot : (s.signedBy q p).updateSlot = s.updateSlot := by
    rw [State.updateSlot, State.updateSlot, (before .sec (by decide) : _ = s.sec), signed]
  rw [slot, signed] at mram
  have take : (s.signedBy q p).takeValue q.path (parseReq q).key e v = ((s.signedBy q p).takeFirmware v, false) := by rw [key, takeValue_firmware]
  refine completes_taken (w := (s.signedBy q p).takeFirmware v) (pending := false) (l := [.mram]) h take (w0.trans h0)
    (w1.trans h1) (fun p n => Part.same_trans (before p (Part.outside n)) (parts p (Part.outside n))) fun t kept same _ an fr => ?_
  have now : t.mram = _ := (same .mram (by decide)).trans mram
  refine ⟨fun first => ?_, fun second => ?_, ?_, ?_, an, fr⟩
  · rw [now, if_pos (updateSlot_zero first)]
    exact ⟨rfl, rfl⟩
  · rw [now, if_neg (updateSlot_one second)]
    exact ⟨rfl, rfl⟩
  · rw [now]
    split <;> rfl
  · rw [now]
    split <;> rfl

/-! ## Idle transfers (R432) -/

theorem completes_blockIdle {path : DictPath} (ck : s.clocked = true) (idle : ∃ x ∈ s.dict.xfers, x.path = path) :
    Completes (.blockIdleTimeout path) s (fun t =>
      t.dict.service = { s.dict.service with xfers := s.dict.xfers.filter (fun x => x.path != path) } ∧ Frame [.service] s t) := by
  have run : exec (.blockIdleTimeout path) s = finish s (s.dropXfer path) := act_pos _ ck (by simpa using idle)
  exact completes_frame (l := [.service]) run (dropXfer_parts s path) fun t hs fr => ⟨hs .service, fr⟩

end

end Sys2Proof.Machine

namespace Sys2Proof

open Machine

/-- Settles O58: each row by the part of the service that serves it. -/
theorem relaysSurveysAndSecurity : Obligations.RelaysSurveysAndSecurity := fun _ ck =>
  ⟨fun src q r is asks header relay => by
      subst is
      exact ⟨fun _ _ reads body low long kind plain pegged free => completes_relay asks header relay reads body low long kind plain pegged free,
        fun free bad => completes_relayRefused asks header relay free (relayable_bad bad)⟩,
    fun _ mine up => ⟨fun _ _ answer last found whole => completes_mgmtAnswered ck mine up answer last found whole,
      fun _ taken ask last first => completes_mgmtServed ck mine up taken ask last first⟩,
    fun _ found request => completes_relayTimeout ck found request, fun _ _ _ _ => completes_survey,
    fun _ running ended => completes_surveyDone ck running ended, fun _ _ _ _ => completes_nonce, completes_quoteDone ck,
    fun _ _ _ _ _ _ seven h known => completes_transition seven h known, fun _ _ _ _ _ => completes_firmware,
    fun _ => completes_blockIdle ck⟩

end Sys2Proof
end

section
/-!
Instructions of a solver hart: what the instruction at the pc does, and what is left when it has retired or met a parity error
(7, R175, R182, R198, R201, R361).
-/
namespace Sys2Proof.Machine

open Sys2Proof Rv

/-! ## What one instruction plans -/

/-- What an effect is here, after the access checks. -/
def State.effPlan (s : State) (h : Hart) (w : Nat) : Eff → Plan
  | .done n => .reg n
  | .trap c v => .trap h c v
  | .load l n => s.planLoad h l n
  | .first k l n => s.planFirst h k l n
  | .store l n => s.planStore h (w % 128 == 0x27 && (eewOf (fF3 w)).isSome) l n
  | .lr a size rd n => s.orTrap h .loadReserved a size (.lr a size rd n)
  | .sc a size v rd n => s.orTrap h .atomic a size (.sc a size v rd n)
  | .amo op a size v rd n => s.orTrap h .atomic a size (.amo op a size v rd n)
  | .doorbell a b n => .doorbell a b n
  | .cfence n => .cfence n

section
variable {s : State} {h w len raw : Nat}

theorem plan_eq (fetch : s.fetchAt (s.hart h) = .ok (some w, len, raw)) :
    s.plan h = s.effPlan (s.hart h) w (execute (s.env h (s.hart h)) (s.hart h) w len) := by
  unfold State.plan State.effPlan
  dsimp only
  rw [fetch] <;> rfl

theorem plan_scalar {x : Eff} (fetch : s.fetchAt (s.hart h) = .ok (some w, len, raw))
    (is : scalar (s.env h (s.hart h)) (s.hart h) w len = some x) : s.plan h = s.effPlan (s.hart h) w x := by
  rw [plan_eq fetch, execute, is]

end

/-! ### Scalar instructions by opcode -/

section
variable (e : Env) (x : Hart) {w : Nat} (len : Nat)

theorem scalar_alu (op : w % 128 = 0x33) : scalar e x w len
    = some (aluRes (goto x (x.pc.toNat + len)) w (aluR (fF7 w) (fF3 w) (rx x (fRs1 w)) (rx x (fRs2 w)))) := by
  unfold scalar
  simp only [op]

theorem scalar_branch (op : w % 128 = 0x63) {taken : Bool} (is : branch (fF3 w) (rx x (fRs1 w)) (rx x (fRs2 w)) = some taken) :
    scalar e x w len = some (.done (if taken then goto x (w64 (s64 x.pc.toNat + immB w)) else goto x (x.pc.toNat + len))) := by
  unfold scalar
  simp only [op, is]

theorem scalar_jal (op : w % 128 = 0x6F) : scalar e x w len
    = some (.done (wx (goto x (w64 (s64 x.pc.toNat + immJ w))) (fRd w) ((x.pc.toNat + len) % 2 ^ 64))) := by
  unfold scalar
  simp only [op]

theorem scalar_load (op : w % 128 = 0x03) (known : fF3 w ≠ 7) : scalar e x w len
    = some (.load [⟨0, w64 (s64 (rx x (fRs1 w)) + immI w), 2 ^ (fF3 w % 4), .x (fRd w) (decide (fF3 w < 4))⟩] (goto x (x.pc.toNat + len))) := by
  unfold scalar
  simp only [op, known, if_false]

theorem scalar_store (op : w % 128 = 0x23) (known : fF3 w < 4) : scalar e x w len
    = some (.store [⟨0, w64 (s64 (rx x (fRs1 w)) + immS w), leBytes (2 ^ fF3 w) (rx x (fRs2 w))⟩] (goto x (x.pc.toNat + len))) := by
  unfold scalar
  simp only [op, known, if_true, put1]

theorem scalar_lr (op : w % 128 = 0x2F) (width : fF3 w = 2 ∨ fF3 w = 3) (lr : bits 31 27 w = 2) (plain : fRs2 w = 0) : scalar e x w len
    = some (.lr (rx x (fRs1 w)) (2 ^ fF3 w) (fRd w) (goto x (x.pc.toNat + len))) := by
  have known : ¬(fF3 w ≠ 2 ∧ fF3 w ≠ 3) := by omega
  unfold scalar
  simp only [op, known, lr, plain, if_false, if_true]

theorem scalar_sc (op : w % 128 = 0x2F) (width : fF3 w = 2 ∨ fF3 w = 3) (sc : bits 31 27 w = 3) : scalar e x w len
    = some (.sc (rx x (fRs1 w)) (2 ^ fF3 w) (rx x (fRs2 w)) (fRd w) (goto x (x.pc.toNat + len))) := by
  have known : ¬(fF3 w ≠ 2 ∧ fF3 w ≠ 3) := by omega
  unfold scalar
  simp only [op, known, sc, if_false, if_true]
  rfl

/-- Which atomic operations exist does not hang on their width and operands. -/
theorem amoValue_known {op n a b v : Nat} (h : amoValue op n a b = some v) : (amoValue op 64 0 0).isSome = true := by
  unfold amoValue at h ⊢
  dsimp only at h ⊢
  split at h
  case h_10 => cases h
  all_goals rfl

theorem scalar_amo (op : w % 128 = 0x2F) (width : fF3 w = 2 ∨ fF3 w = 3) (lr : bits 31 27 w ≠ 2) (sc : bits 31 27 w ≠ 3)
    (amo : (amoValue (bits 31 27 w) 64 0 0).isSome = true) : scalar e x w len
    = some (.amo (bits 31 27 w) (rx x (fRs1 w)) (2 ^ fF3 w) (rx x (fRs2 w)) (fRd w) (goto x (x.pc.toNat + len))) := by
  have known : ¬(fF3 w ≠ 2 ∧ fF3 w ≠ 3) := by omega
  unfold scalar
  simp only [op, known, lr, sc, amo, if_false, if_true]

end

/-! ## An instruction that retires -/

section
variable {s : State} {h : Nat} {i : Instr}

/-- A retired instruction puts its hart, counted (R198). -/
theorem retired_counted (s : State) (h : Nat) (n : Hart) : s.retired h n true = s.putHart h n.counted := rfl

theorem exec_ordinary {t : State} (ck : s.clocked = true) (unit_ : h < 128) (runs : s.hartRuns h = true) (does : s.ordinary h = some t) :
    exec (.hartInstruction h none) s = finish s t := by
  show execHartInstruction h none s = _
  unfold execHartInstruction
  rw [only_pos _ (decide_eq_true unit_), does]
  exact act_pos _ ck runs

theorem completes_counted {n : Hart} (e : exec i s = finish s (s.retired h n true)) : Completes i s (fun t =>
    t.hart h = n.counted ∧ OtherHarts h s t ∧ Frame [.harts] s t) :=
  completes_putHart (retired_counted s h n ▸ e)

theorem ordinary_reg {n : Hart} (plan : s.plan h = .reg n) : s.ordinary h = some (s.retired h n true) := by
  rw [State.ordinary, plan]

theorem completes_reg {n : Hart} (ck : s.clocked = true) (unit_ : h < 128) (runs : s.hartRuns h = true) (plan : s.plan h = .reg n) :
    Completes (.hartInstruction h none) s (fun t => t.hart h = n.counted ∧ OtherHarts h s t ∧ Frame [.harts] s t) :=
  completes_counted (exec_ordinary ck unit_ runs (ordinary_reg plan))

/-! ### Loads -/

theorem planLoad_accessible {a : Elem} {n x : Hart} (ok : s.accessFault x .load a.elem a.addr a.size = none) :
    s.planLoad x [a] n = .load false [a] n true := by
  rw [State.planLoad, List.find?_singleton, ok]
  rfl

theorem inCanopy_local {a : Nat} (low : a < 2 ^ 50) : inCanopy a = false := by
  rw [inCanopy, decide_eq_false (Nat.not_le.2 low), Bool.false_and]

/-- What a load of local memory reads. -/
theorem hartBytes_local (s : State) (x : Hart) {a size : Nat} (low : a + size ≤ 2 ^ 50) :
    leNat ((List.range size).map (fun k => s.hartByte x (a + k))) = readN s.mem a size := by
  rw [readN, readBytes_eq]
  refine congrArg leNat (List.map_congr_left fun k inside => ?_)
  have near : k < size := List.mem_range.1 inside
  rw [State.hartByte, inCanopy_local (by omega), if_neg (by simp)]

theorem completes_scalarLoad {a size rd : Nat} {signed : Bool} {n : Hart} (ck : s.clocked = true) (unit_ : h < 128) (runs : s.hartRuns h = true)
    (plan : s.plan h = .load false [⟨0, a, size, .x rd signed⟩] n true) (low : a + size ≤ 2 ^ 50) (some_ : 0 < size) :
    Completes (.hartInstruction h none) s (fun t =>
      t.hart h = (wx n rd (if signed then wrap 64 (sext (8 * size) (readN s.mem a size)) else readN s.mem a size)).counted
      ∧ OtherHarts h s t ∧ Frame [.harts] s t) := by
  have noLines : loadLines [⟨0, a, size, .x rd signed⟩] = [] := by
    rw [loadLines, List.filter_cons_of_neg (by simp [inCanopy_local (show a < 2 ^ 50 by omega)])]
    rfl
  have does : s.ordinary h = some (s.retired h (wx n rd (if signed then wrap 64 (sext (8 * size) (readN s.mem a size)) else readN s.mem a size))
      true) := by
    rw [State.ordinary, plan]
    simp only [noLines, List.isEmpty_nil, if_true]
    rw [State.loaded, List.foldl_cons, List.foldl_nil, State.putLoaded]
    simp only [hartBytes_local s (s.hart h) low]
  exact completes_counted (exec_ordinary ck unit_ runs does)

/-! ### Stores and atomics -/

/-- Hart `h` becomes `x`, memory becomes `m`, and other harts lose at most their reservations (R185). -/
def HartWrites (h : Nat) (x : Hart) (m : Cells) (s u : State) : Prop :=
  u.hart h = x ∧ u.mem = m ∧ (∀ g, g ≠ h → ∃ r, u.hart g = { s.hart g with resv := r }) ∧ ∀ p, p ∉ [Part.mem, Part.harts] → p.same s u

theorem hartWrites_store (s : State) (h a : Nat) (bs : List Byte) : HartWrites h (s.hart h) (writeBytes s.mem a bs) s (s.hartStore h a bs) := by
  rw [State.hartStore]
  obtain ⟨r, own⟩ := s.hart_storeAgent a bs h
  refine ⟨?_, rfl, fun g ne => ?_, fun p n => ?_⟩
  · rw [State.hart_modHart, if_pos rfl, own]
  · obtain ⟨r, other⟩ := s.hart_storeAgent a bs g
    exact ⟨r, by rw [State.hart_modHart, if_neg ne, other]⟩
  · exact Part.same_trans (storeAgent_parts s a bs p n) (putHart_parts _ h _ p (Part.outside n))

theorem HartWrites.put {x : Hart} {m : Cells} {u : State} (k : HartWrites h x m s u) (y : Hart) : HartWrites h y m s (u.putHart h y) := by
  obtain ⟨_, mem, others, parts⟩ := k
  refine ⟨by rw [State.hart_putHart, if_pos rfl], mem, fun g ne => ?_, fun p n => ?_⟩
  · rw [State.hart_putHart, if_neg ne]
    exact others g ne
  · exact Part.same_trans (parts p n) (putHart_parts u h y p (Part.outside n))

theorem completes_hartWrites {x : Hart} {m : Cells} {u : State} (e : exec i s = finish s u) (k : HartWrites h x m s u) : Completes i s (fun t =>
    t.hart h = x ∧ t.mem = m ∧ (∀ g, g ≠ h → t.hart g = { s.hart g with resv := (t.hart g).resv }) ∧ Frame [.harts, .mem] s t) := by
  obtain ⟨own, mem, others, parts⟩ := k
  refine completes_frame (l := [.harts, .mem]) e (fun p n => parts p (Part.outside n)) fun t hs fr => ⟨?_, (hs .mem).trans mem, fun g ne => ?_, fr⟩
  · rw [State.hart_congr (hs .harts), own]
  · obtain ⟨r, other⟩ := others g ne
    rw [State.hart_congr (hs .harts), other]

theorem planStore_accessible {p : Put} {n x : Hart} {elem : Bool} (ok : s.accessFault x .store elem p.addr p.bytes.length = none) :
    s.planStore x elem [p] n = .store [p] n true := by
  rw [State.planStore, List.find?_singleton, ok]
  rfl

theorem completes_scalarStore {a : Nat} {bs : List Byte} {n : Hart} (ck : s.clocked = true) (unit_ : h < 128) (runs : s.hartRuns h = true)
    (plan : s.plan h = .store [⟨0, a, bs⟩] n true) (here : inCanopy a = false) : Completes (.hartInstruction h none) s (fun t =>
      t.hart h = n.counted ∧ t.mem = writeBytes s.mem a bs
      ∧ (∀ g, g ≠ h → t.hart g = { s.hart g with resv := (t.hart g).resv }) ∧ Frame [.harts, .mem] s t) := by
  have noLines : storeLines [⟨0, a, bs⟩] = [] := by
    rw [storeLines, List.filter_cons_of_neg (by simp [here])]
    rfl
  have does : s.ordinary h = some ((s.putHart h n.counted).hartStore h a bs) := by
    rw [State.ordinary, plan]
    simp only [noLines, List.isEmpty_nil, if_true]
    rw [retired_counted, State.storeLocal, List.filter_cons_of_pos (by simp [here])]
    rfl
  obtain ⟨own, mem, others, parts⟩ := hartWrites_store (s.putHart h n.counted) h a bs
  refine completes_hartWrites (exec_ordinary ck unit_ runs does) ⟨?_, mem, fun g ne => ?_, fun p m =>
    Part.same_trans (putHart_parts s h _ p (Part.outside m)) (parts p m)⟩
  · rw [own, State.hart_putHart, if_pos rfl]
  · obtain ⟨r, other⟩ := others g ne
    exact ⟨r, by rw [other, State.hart_putHart, if_neg ne]⟩

theorem orTrap_accessible {x : Hart} {k : Access} {a size : Nat} (ok : s.accessFault x k false a size = none) (p : Plan) :
    s.orTrap x k a size p = p := by
  rw [State.orTrap, ok]

theorem completes_lr {a size rd : Nat} {n : Hart} (ck : s.clocked = true) (unit_ : h < 128) (runs : s.hartRuns h = true)
    (plan : s.plan h = .lr a size rd n) : Completes (.hartInstruction h none) s (fun t =>
      t.hart h = ({ wx n rd (wrap 64 (sext (8 * size) (readN s.mem a size))) with resv := some (a, size) } : Hart).counted
      ∧ OtherHarts h s t ∧ Frame [.harts] s t) :=
  completes_counted (exec_ordinary ck unit_ runs (by rw [State.ordinary, plan]; rfl))

theorem completes_scStores {a size v rd : Nat} {n : Hart} (ck : s.clocked = true) (unit_ : h < 128) (runs : s.hartRuns h = true)
    (plan : s.plan h = .sc a size v rd n) (held : ∃ x k, n.resv = some (x, k) ∧ x ≤ a ∧ a + size ≤ x + k) :
    Completes (.hartInstruction h none) s (fun t =>
      t.hart h = ({ wx n rd 0 with resv := none } : Hart).counted ∧ t.mem = writeBytes s.mem a (leBytes size v)
      ∧ (∀ g, g ≠ h → t.hart g = { s.hart g with resv := (t.hart g).resv }) ∧ Frame [.harts, .mem] s t) := by
  obtain ⟨x, k, resv, low, high⟩ := held
  have does : s.ordinary h = some ((s.hartStore h a (leBytes size v)).putHart h ({ wx n rd 0 with resv := none } : Hart).counted) := by
    rw [State.ordinary, plan]
    simp only [State.atomicOp, resv, decide_eq_true low, decide_eq_true high, Bool.and_self, if_true]
    rfl
  exact completes_hartWrites (exec_ordinary ck unit_ runs does) ((hartWrites_store s h a (leBytes size v)).put _)

theorem completes_scFails {a size v rd : Nat} {n : Hart} (ck : s.clocked = true) (unit_ : h < 128) (runs : s.hartRuns h = true)
    (plan : s.plan h = .sc a size v rd n) (free : n.resv = none) : Completes (.hartInstruction h none) s (fun t =>
      t.hart h = ({ wx n rd 1 with resv := none } : Hart).counted ∧ OtherHarts h s t ∧ Frame [.harts] s t) := by
  have does : s.ordinary h = some (s.retired h { wx n rd 1 with resv := none } true) := by
    rw [State.ordinary, plan]
    simp only [State.atomicOp, free]
    rfl
  exact completes_counted (exec_ordinary ck unit_ runs does)

theorem completes_amo {op a size v b rd : Nat} {n : Hart} (ck : s.clocked = true) (unit_ : h < 128) (runs : s.hartRuns h = true)
    (plan : s.plan h = .amo op a size b rd n) (value : amoValue op (8 * size) (readN s.mem a size) b = some v) :
    Completes (.hartInstruction h none) s (fun t =>
      t.hart h = (wx n rd (wrap 64 (sext (8 * size) (readN s.mem a size)))).counted ∧ t.mem = writeBytes s.mem a (leBytes size v)
      ∧ (∀ g, g ≠ h → t.hart g = { s.hart g with resv := (t.hart g).resv }) ∧ Frame [.harts, .mem] s t) := by
  have does : s.ordinary h = some ((s.hartStore h a (leBytes size v)).putHart h
      (wx n rd (wrap 64 (sext (8 * size) (readN s.mem a size)))).counted) := by
    rw [State.ordinary, plan]
    simp only [State.atomicOp, value, Option.getD_some]
    rfl
  exact completes_hartWrites (exec_ordinary ck unit_ runs does) ((hartWrites_store s h a (leBytes size v)).put _)

end

end Sys2Proof.Machine
end

section
/-!
What a plan hangs on, the parity errors of a hart's caches, and the instructions of O45 put together (7, R175, R201, R361).
-/
namespace Sys2Proof.Machine

open Sys2Proof Rv

/-! ## What a plan hangs on -/

section
variable {s t : State} (job : t.job = s.job)
include job

theorem localOk_congr : t.localOk = s.localOk := by
  funext write a len
  have region : t.regionAt a = s.regionAt a := by rw [State.regionAt, State.regionAt, job]
  rw [State.localOk, State.localOk, region]

variable (fab : t.fab = s.fab)
include fab

theorem accessFault_congr : t.accessFault = s.accessFault := by
  funext h k elem a len
  rw [State.accessFault, State.accessFault, fab, localOk_congr job]

theorem planLoad_congr : t.planLoad = s.planLoad := by
  funext h l n
  rw [State.planLoad, State.planLoad, accessFault_congr job fab]

theorem planFirst_congr : t.planFirst = s.planFirst := by
  funext h kfx l n
  rw [State.planFirst, State.planFirst, accessFault_congr job fab]

theorem planStore_congr : t.planStore = s.planStore := by
  funext h elem l n
  rw [State.planStore, State.planStore, accessFault_congr job fab]

theorem orTrap_congr : t.orTrap = s.orTrap := by
  funext h k a size p
  rw [State.orTrap, State.orTrap, accessFault_congr job fab]

variable (mem : t.mem = s.mem)
include mem

theorem fetchAt_congr : t.fetchAt = s.fetchAt := by
  funext h
  rw [State.fetchAt, State.fetchAt, accessFault_congr job fab, mem]

/-- A plan depends on the hart, the job, memory, the peg table and Ridgepole alone. -/
theorem plan_congr {h : Nat} (hart : t.hart h = s.hart h) (rp : t.rp = s.rp) : t.plan h = s.plan h := by
  have now : t.now = s.now := by rw [State.now, State.now, rp]
  have env : t.env = s.env := by
    funext i x
    rw [State.env, State.env, State.ns, State.ns, now, job]
  unfold State.plan
  rw [hart, fetchAt_congr job fab mem, env, planLoad_congr job fab, planFirst_congr job fab, planStore_congr job fab, orTrap_congr job fab]

end

/-! ## Parity errors of a hart's caches (R201, R361) -/

section
variable {s : State} {h : Nat} {u : Upset} {n : Hart}

/-- What a hart's instruction does on the state, when it meets an error. -/
theorem exec_upset {r : State} (ck : s.clocked = true) (unit_ : h < 128) (runs : s.hartRuns h = true) (plan : s.plan h = .reg n)
    (meets : r = match u.site with
      | .cacheClean l3 =>
        let t := (s.cacheParity h l3).unitRetry (srcHart h) 0
        if u.again then ((t.cacheParity h l3).modHart h (fun x => { x with st := .stopped })).unitAgain (srcHart h) noCore
        else (t.ordinary h).getD t
      | .stack ch => (s.stackParity ch).hartParityStop h
      | .farPoison p => (s.modFar p (fun f => { f with poison := count 32 f.poison 1 })).hartParityStop h
      | _ => s.hartParityStop h) : exec (.hartInstruction h (some u)) s = finish s r := by
  show execHartInstruction h (some u) s = _
  unfold execHartInstruction
  rw [only_pos _ (decide_eq_true unit_), ordinary_reg plan, meets]
  exact act_pos _ ck runs

theorem completes_cacheDirty (ck : s.clocked = true) (unit_ : h < 128) (runs : s.hartRuns h = true) (plan : s.plan h = .reg n)
    (may : StepMayFail s) (site : u.site = .cacheDirty) : Completes (.hartInstruction h (some u)) s (fun t =>
      t.hart h = { s.hart h with st := .stopped } ∧ t.err.stepFailed = true ∧ OtherHarts h s t ∧ Frame [.harts, .err, .recorder] s t) := by
  have e := exec_upset (r := s.hartParityStop h) ck unit_ runs plan (by rw [site])
  have put := putHart_parts s h { s.hart h with st := .stopped }
  have may' := stepMayFail_congr may (put .pitch (by simp)) (put .err (by simp)) (put .guy (by simp))
  obtain ⟨parts, failed, _⟩ := parityStep_spec may' (srcHart h) noCore
  refine completes_frame (l := [.harts, .err, .recorder]) e (fun p m => Part.same_trans (put p (Part.outside m)) (parts p (Part.outside m)))
    fun t hs fr => ?_
  have harts : t.harts = (s.putHart h { s.hart h with st := .stopped }).harts := (hs .harts).trans (parts .harts (by simp))
  refine ⟨?_, ?_, fun g ne => ?_, fr⟩
  · rw [State.hart_congr harts, State.hart_putHart, if_pos rfl]
  · rw [(hs .err : t.err = _)]
    exact failed
  · rw [State.hart_congr harts, State.hart_putHart, if_neg ne]

/-- A unit error that is re-executed once is counted and recorded (R361). -/
theorem unitRetry_spec (s : State) (source pos : Nat) : (∀ p, p ∉ [Part.err, .recorder] → p.same s (s.unitRetry source pos))
    ∧ (s.unitRetry source pos).err = { s.err with unitRetries := min (s.err.unitRetries + 1) (2 ^ 64 - 1) } := by
  have first := parityEvent_parts s source 1
  have second := event_parts (s.parityEvent source 1) 0x0802 source pos
  have err : ((s.parityEvent source 1).event 0x0802 source pos).err = s.err := (second .err (by simp)).trans (first .err (by simp))
  refine ⟨fun p m => ?_, ?_⟩
  · exact Part.same_trans (first p (Part.outside m)) (Part.same_trans (second p (Part.outside m)) (err_parts _ _ p (Part.outside m)))
  · rw [State.unitRetry, err]
    rfl

theorem canopy_parts (s : State) (x : CanopyStats) : ∀ p, p ∉ [Part.canopy] → p.same s { s with canopy := x } := by
  intro p m
  cases p <;> simp_all [Part.same]

/-- An error of the shared cache is counted at its half's gateway die. -/
theorem cacheParity_shared (s : State) (h : Nat) : (∀ p, p ∉ [Part.canopy] → p.same s (s.cacheParity h true))
    ∧ (if h < 64 then (s.cacheParity h true).canopy.l3Sd0 = min (s.canopy.l3Sd0 + 1) (2 ^ 32 - 1)
       else (s.cacheParity h true).canopy.l3Sd1 = min (s.canopy.l3Sd1 + 1) (2 ^ 32 - 1)) := by
  rw [State.cacheParity, if_neg (by simp)]
  split
  · exact ⟨canopy_parts s _, rfl⟩
  · exact ⟨canopy_parts s _, rfl⟩

theorem completes_cacheClean (ck : s.clocked = true) (unit_ : h < 128) (runs : s.hartRuns h = true) (plan : s.plan h = .reg n)
    (site : u.site = .cacheClean true) (once : u.again = false) : Completes (.hartInstruction h (some u)) s (fun t =>
      t.hart h = n.counted ∧ (if h < 64 then t.canopy.l3Sd0 = min (s.canopy.l3Sd0 + 1) (2 ^ 32 - 1)
        else t.canopy.l3Sd1 = min (s.canopy.l3Sd1 + 1) (2 ^ 32 - 1))
      ∧ t.err = { s.err with unitRetries := min (s.err.unitRetries + 1) (2 ^ 64 - 1) }
      ∧ OtherHarts h s t ∧ Frame [.harts, .canopy, .err, .recorder] s t) := by
  obtain ⟨counted, count_⟩ := cacheParity_shared s h
  obtain ⟨retried, err⟩ := unitRetry_spec (s.cacheParity h true) (srcHart h) 0
  rw [(counted .err (by simp) : _ = s.err)] at err
  have before : ∀ p, p ∉ [Part.canopy, .err, .recorder] → p.same s ((s.cacheParity h true).unitRetry (srcHart h) 0) := fun p m =>
    Part.same_trans (counted p (Part.outside m)) (retried p (Part.outside m))
  have canopy : ((s.cacheParity h true).unitRetry (srcHart h) 0).canopy = (s.cacheParity h true).canopy := retried .canopy (by simp)
  have again : ((s.cacheParity h true).unitRetry (srcHart h) 0).ordinary h
      = some (((s.cacheParity h true).unitRetry (srcHart h) 0).retired h n true) := by
    refine ordinary_reg ?_
    rw [plan_congr (before .job (by simp)) (before .fab (by simp)) (before .mem (by simp)) (State.hart_congr (before .harts (by simp)) h)
      (before .rp (by simp)), plan]
  have e := exec_upset (r := ((s.cacheParity h true).unitRetry (srcHart h) 0).retired h n true) ck unit_ runs plan (by
    rw [site]
    dsimp only
    rw [once, if_neg (by simp), again]
    rfl)
  rw [retired_counted] at e
  generalize (s.cacheParity h true).unitRetry (srcHart h) 0 = v at *
  refine completes_frame (l := [.harts, .canopy, .err, .recorder]) e (fun p m => Part.same_trans (before p (Part.outside m))
    (putHart_parts v h n.counted p (Part.outside m))) fun t hs fr => ?_
  have now : t.canopy = (s.cacheParity h true).canopy := (hs .canopy).trans canopy
  refine ⟨?_, by rw [now]; exact count_, (hs .err).trans err, fun g ne => ?_, fr⟩
  · rw [State.hart_congr (hs .harts), State.hart_putHart, if_pos rfl]
  · rw [State.hart_congr (hs .harts), State.hart_putHart, if_neg ne, State.hart_congr (before .harts (by simp))]

end

end Sys2Proof.Machine

namespace Sys2Proof

open Machine Rv

/-- Settles O45: each instruction's effect gives its plan, and its plan what is left when it has retired. -/
theorem hartsExecuteTheirInstructions : Obligations.HartsExecuteTheirInstructions := by
  intro s h w len raw ck unit_ runs fetch
  dsimp only
  refine ⟨fun n plan => completes_reg ck unit_ runs plan, fun v op value => ?_, fun taken op is => ?_, fun op => ?_, fun op known low ok => ?_,
    fun op known here ok => ?_, fun r op width size => ⟨fun lr plain ok => ?_, fun sc ok held => ?_, fun sc ok free => ?_,
      fun v lr sc ok value => ?_⟩, fun n u plan may => ⟨fun site => completes_cacheDirty ck unit_ runs plan may site,
      fun site once => completes_cacheClean ck unit_ runs plan site once⟩⟩
  · refine completes_reg ck unit_ runs ?_
    rw [plan_scalar fetch (scalar_alu _ _ _ op), value]
    rfl
  · exact completes_reg ck unit_ runs (plan_scalar fetch (scalar_branch _ _ _ op is))
  · exact completes_reg ck unit_ runs (plan_scalar fetch (scalar_jal _ _ _ op))
  · have plan := plan_scalar fetch (scalar_load (s.env h (s.hart h)) (s.hart h) len op known)
    rw [State.effPlan, planLoad_accessible ok] at plan
    have done := completes_scalarLoad ck unit_ runs plan low (Nat.two_pow_pos _)
    simpa only [decide_eq_true_eq] using done
  · have plan := plan_scalar fetch (scalar_store (s.env h (s.hart h)) (s.hart h) len op known)
    rw [State.effPlan, planStore_accessible (by rw [length_leBytes, op]; exact ok)] at plan
    exact completes_scalarStore ck unit_ runs plan here
  · subst size
    have plan := plan_scalar fetch (scalar_lr (s.env h (s.hart h)) (s.hart h) len op width lr plain)
    rw [State.effPlan, orTrap_accessible ok] at plan
    exact completes_lr ck unit_ runs plan
  · subst size
    have plan := plan_scalar fetch (scalar_sc (s.env h (s.hart h)) (s.hart h) len op width sc)
    rw [State.effPlan, orTrap_accessible ok] at plan
    exact completes_scStores ck unit_ runs plan held
  · subst size
    have plan := plan_scalar fetch (scalar_sc (s.env h (s.hart h)) (s.hart h) len op width sc)
    rw [State.effPlan, orTrap_accessible ok] at plan
    exact completes_scFails ck unit_ runs plan free
  · subst size
    have plan := plan_scalar fetch (scalar_amo (s.env h (s.hart h)) (s.hart h) len op width lr sc (amoValue_known value))
    rw [State.effPlan, orTrap_accessible ok] at plan
    exact completes_amo ck unit_ runs plan value

end Sys2Proof
end

section
/-!
Canopy loads and stores of a hart, its doorbells and its canopy fence (7, R180, R183, R187 to R194, R289, R295).
-/
namespace Sys2Proof.Machine

open Sys2Proof Rv

section
variable {s : State} {h : Nat} {i : Instr}

/-! ## Canopy loads (R183, R187) -/

/-- The command of a load: of a first-fault load, or of another one that touches the canopy window. -/
theorem exec_canopyLoad {k r : Bool} {l : List Elem} {n : Hart} (ck : s.clocked = true) (unit_ : h < 128) (runs : s.hartRuns h = true)
    (plan : s.plan h = .load k l n r) (touches : k = true ∨ loadLines l ≠ []) :
    exec (if k then .hartFirstFaultLoad h else .hartCanopyLoad h) s = finish s (s.canopyLoad h l n r) := by
  cases k with
  | true =>
    show execHartFirstFaultLoad h s = _
    unfold execHartFirstFaultLoad
    rw [only_pos _ (decide_eq_true unit_), plan]
    exact act_pos _ ck runs
  | false =>
    have lines : loadLines l ≠ [] := touches.resolve_left (by simp)
    show execHartCanopyLoad h s = _
    unfold execHartCanopyLoad
    rw [only_pos _ (decide_eq_true unit_), plan]
    exact act_pos _ ck (by simp [runs, lines])

/-- The packets that a tracker holds with their owners. -/
def State.trackOwners (s : State) : List (Packet × Owner) := s.trackKeys.map Prod.snd

/-- What an injection adds to the tracker, whatever the injected packet is stamped with. -/
theorem trackOwners_inject {β : Type} (f : Packet × Owner → β) (s : State) (gd : Nat) (k : Packet) (o : Owner)
    (stamp : ∀ n, f (s.stamped gd n k, o) = f (k, o)) : (s.inject gd k o).trackOwners.map f = s.trackOwners.map f ++ [f (k, o)] := by
  rw [State.trackOwners, (inject_spec s gd k o).1, List.map_append, List.map_append, List.map_singleton, List.map_singleton, stamp]
  rfl

/-- Requests for lines, one after another. -/
theorem foldl_askLines (gd h : Nat) (lines : List Nat) (u : State) :
    (lines.foldl (fun s line => s.inject gd (xePacket kLREAD 1 (256 + h) (line / 2 ^ 41) 0 line []) (.hartLoad h)) u).trackOwners.map
        (fun e => (e.2, e.1.kind, e.1.arg))
      = u.trackOwners.map (fun e => (e.2, e.1.kind, e.1.arg)) ++ lines.map (fun x => (Owner.hartLoad h, kLREAD, x)) := by
  induction lines generalizing u with
  | nil => rw [List.foldl_nil, List.map_nil, List.append_nil]
  | cons x xs ih =>
    rw [List.foldl_cons, ih, trackOwners_inject _ _ _ _ _ fun _ => rfl, List.map_cons, List.append_assoc]
    rfl

/-- A tracker's packets and owners, read off its entries. -/
theorem trackOwners_map {β : Type} (f : Packet × Owner → β) (s : State) : s.trackOwners.map f = s.fab.track.map (fun e => f (e.pkt, e.owner)) := by
  rw [State.trackOwners, State.trackKeys, List.map_map, List.map_map]
  rfl

theorem askLines_spec (s : State) (h : Nat) (lines : List Nat) : (s.askLines h lines).fab.track.map (fun e => (e.owner, e.pkt.kind, e.pkt.arg))
      = s.fab.track.map (fun e => (e.owner, e.pkt.kind, e.pkt.arg)) ++ lines.map (fun l => (Owner.hartLoad h, kLREAD, l))
    ∧ ∀ p, p ∉ [Part.fab, .recorder] → p.same (s.putHart h { s.hart h with want := lines, buf := [], sent := true }) (s.askLines h lines) := by
  have sent := foldl_askLines (gdOfHart h) h lines (s.putHart h { s.hart h with want := lines, buf := [], sent := true })
  rw [trackOwners_map, trackOwners_map] at sent
  exact ⟨sent, foldl_parts (fun u x => inject_parts u _ _ _) lines _⟩

theorem completes_asked {k r : Bool} {l : List Elem} {n : Hart} (ck : s.clocked = true) (unit_ : h < 128) (runs : s.hartRuns h = true)
    (plan : s.plan h = .load k l n r) (fresh : (s.hart h).sent = false) (lines : loadLines l ≠ [])
    (room : s.mayInjectAll (gdOfHart h) (loadLines l).length = true) :
    Completes (if k then .hartFirstFaultLoad h else .hartCanopyLoad h) s (fun t =>
      t.hart h = { s.hart h with want := loadLines l, buf := [], sent := true } ∧ OtherHarts h s t
      ∧ t.fab.track.map (fun e => (e.owner, e.pkt.kind, e.pkt.arg)) = s.fab.track.map (fun e => (e.owner, e.pkt.kind, e.pkt.arg))
          ++ (loadLines l).map (fun l => (Owner.hartLoad h, kLREAD, l))
      ∧ Frame [.harts, .fab, .recorder] s t) := by
  have e := exec_canopyLoad ck unit_ runs plan (Or.inr lines)
  rw [State.canopyLoad, fresh, room] at e
  simp only [List.isEmpty_eq_false_iff.2 lines, Bool.not_false, Bool.and_self, if_true] at e
  obtain ⟨track, parts⟩ := askLines_spec s h (loadLines l)
  refine completes_frame (l := [.harts, .fab, .recorder]) e (fun p m => Part.same_trans (putHart_parts s h _ p (Part.outside m))
    (parts p (Part.outside m))) fun t hs fr => ?_
  have harts : t.harts = _ := (hs .harts).trans (parts .harts (by simp))
  refine ⟨?_, fun g ne => ?_, ?_, fr⟩
  · rw [State.hart_congr harts, State.hart_putHart, if_pos rfl]
  · rw [State.hart_congr harts, State.hart_putHart, if_neg ne]
  · rw [(hs .fab : t.fab = _), track]

theorem completes_loadDone {k : Bool} {l : List Elem} {n : Hart} (ck : s.clocked = true) (unit_ : h < 128) (runs : s.hartRuns h = true)
    (plan : s.plan h = .load k l n true) (touches : k = true ∨ loadLines l ≠ []) (asked : (s.hart h).sent = true ∨ loadLines l = [])
    (come : (s.hart h).want = []) : Completes (if k then .hartFirstFaultLoad h else .hartCanopyLoad h) s (fun t =>
      t.hart h = (s.loaded (s.hart h) n l).counted ∧ OtherHarts h s t ∧ Frame [.harts] s t) := by
  have e := exec_canopyLoad ck unit_ runs plan touches
  have done : (!(s.hart h).sent && !(loadLines l).isEmpty) = false := by
    rcases asked with sent | none
    · rw [sent]
      rfl
    · rw [none]
      simp
  rw [State.canopyLoad] at e
  simp only [done, come, List.isEmpty_nil, if_true] at e
  exact completes_counted e

/-! ## Canopy stores (R183, R289, R295) -/

/-- The local part of a store is that of its bytes outside the canopy window, in order. -/
theorem foldl_hartStore (h : Nat) (l : List Put) {u : State} {x : Hart} {m : Cells} (k : HartWrites h x m s u) :
    HartWrites h x (l.foldl (fun m p => writeBytes m p.addr p.bytes) m) s (l.foldl (fun s p => s.hartStore h p.addr p.bytes) u) := by
  induction l generalizing u m with
  | nil => exact k
  | cons p ps ih =>
    obtain ⟨own, mem, others, parts⟩ := k
    obtain ⟨own', mem', others', parts'⟩ := hartWrites_store u h p.addr p.bytes
    rw [mem] at mem'
    refine ih ⟨own'.trans own, mem', fun g ne => ?_, fun q n => Part.same_trans (parts q n) (parts' q n)⟩
    obtain ⟨r, before⟩ := others g ne
    obtain ⟨r', after⟩ := others' g ne
    exact ⟨r', by rw [after, before]⟩

/-- One masked LWRITE for each line, each to be acknowledged. -/
theorem foldl_storeLines (h : Nat) (m : NMap Nat) (lines : List Nat) (u : State) :
    let v := lines.foldl (fun s line => (s.inject (gdOfHart h) (xePacket kLWRITE 1 (256 + h) (line / 2 ^ 41) 0 line (linePayload m line))
      (.hartStore h)).addUnacked (hartKey h)) u
    v.trackOwners.map (fun e => (e.2, e.1.kind, e.1.arg, e.1.payload)) = u.trackOwners.map (fun e => (e.2, e.1.kind, e.1.arg, e.1.payload))
      ++ lines.map (fun x => (Owner.hartStore h, kLWRITE, x, linePayload m x))
    ∧ nget 0 v.fab.unacked (hartKey h) = nget 0 u.fab.unacked (hartKey h) + lines.length
    ∧ ∀ p, p ∉ [Part.fab, .recorder] → p.same u v := by
  induction lines generalizing u with
  | nil => exact ⟨by rw [List.foldl_nil, List.map_nil, List.append_nil], rfl, fun p _ => p.same_refl u⟩
  | cons x xs ih =>
    have unacked := (inject_spec u (gdOfHart h) (xePacket kLWRITE 1 (256 + h) (x / 2 ^ 41) 0 x (linePayload m x)) (.hartStore h)).2.2.2.2.2.2
    have injected := inject_parts u (gdOfHart h) (xePacket kLWRITE 1 (256 + h) (x / 2 ^ 41) 0 x (linePayload m x)) (.hartStore h)
    have owned := trackOwners_inject (fun e => (e.2, e.1.kind, e.1.arg, e.1.payload)) u (gdOfHart h)
      (xePacket kLWRITE 1 (256 + h) (x / 2 ^ 41) 0 x (linePayload m x)) (.hartStore h) fun _ => rfl
    dsimp only
    rw [List.foldl_cons]
    generalize u.inject (gdOfHart h) _ (.hartStore h) = w at *
    obtain ⟨sent, counted, parts⟩ := ih (w.addUnacked (hartKey h))
    refine ⟨?_, ?_, fun p n => Part.same_trans (injected p n) (Part.same_trans (fab_parts w _ p (Part.outside n)) (parts p n))⟩
    · rw [sent, List.map_cons, show (w.addUnacked (hartKey h)).trackOwners = w.trackOwners from rfl, owned, List.append_assoc]
      rfl
    · have one : nget 0 (w.addUnacked (hartKey h)).fab.unacked (hartKey h) = nget 0 u.fab.unacked (hartKey h) + 1 := by
        rw [← unacked]
        exact nget_nmod_same 0 w.fab.unacked (hartKey h) (· + 1)
      rw [counted, one, List.length_cons]
      omega

theorem exec_canopyStore {l : List Put} {n : Hart} (ck : s.clocked = true) (unit_ : h < 128) (runs : s.hartRuns h = true)
    (plan : s.plan h = .store l n true) (lines : storeLines l ≠ []) (room : s.mayInjectAll (gdOfHart h) (storeLines l).length = true) :
    exec (.hartCanopyStore h) s = finish s (((s.putHart h n.counted).storeLocal h l).storeCanopy h l) := by
  show execHartCanopyStore h s = _
  unfold execHartCanopyStore
  rw [only_pos _ (decide_eq_true unit_), plan]
  dsimp only
  rw [room, if_pos rfl, retired_counted]
  exact act_pos _ ck (by simp [runs, lines])

theorem completes_canopyStore {l : List Put} {n : Hart} (ck : s.clocked = true) (unit_ : h < 128) (runs : s.hartRuns h = true)
    (plan : s.plan h = .store l n true) (lines : storeLines l ≠ []) (room : s.mayInjectAll (gdOfHart h) (storeLines l).length = true) :
    Completes (.hartCanopyStore h) s (fun t =>
      t.fab.track.map (fun e => (e.owner, e.pkt.kind, e.pkt.arg, e.pkt.payload))
        = s.fab.track.map (fun e => (e.owner, e.pkt.kind, e.pkt.arg, e.pkt.payload))
          ++ (storeLines l).map (fun x => (Owner.hartStore h, kLWRITE, x, linePayload (canopyBytes l) x))
      ∧ nget 0 t.fab.unacked (hartKey h) = nget 0 s.fab.unacked (hartKey h) + (storeLines l).length
      ∧ t.mem = (l.filter (fun p => !inCanopy p.addr)).foldl (fun m p => writeBytes m p.addr p.bytes) s.mem
      ∧ t.hart h = { n.counted with resv := (t.hart h).resv } ∧ (∀ g, g ≠ h → t.hart g = { s.hart g with resv := (t.hart g).resv })
      ∧ Frame [.harts, .fab, .mem, .recorder] s t) := by
  have e := exec_canopyStore ck unit_ runs plan lines room
  have first : HartWrites h n.counted s.mem s (s.putHart h n.counted) :=
    HartWrites.put ⟨rfl, rfl, fun g _ => ⟨(s.hart g).resv, rfl⟩, fun p _ => p.same_refl s⟩ n.counted
  obtain ⟨own, mem, others, parts⟩ := foldl_hartStore h (l.filter (fun p => !inCanopy p.addr)) first
  obtain ⟨track, unacked, sent⟩ := foldl_storeLines h (canopyBytes l) (storeLines l) ((s.putHart h n.counted).storeLocal h l)
  change ∀ p, p ∉ [Part.mem, Part.harts] → p.same s ((s.putHart h n.counted).storeLocal h l) at parts
  change ((s.putHart h n.counted).storeLocal h l).mem = _ at mem
  change ((s.putHart h n.counted).storeLocal h l).hart h = _ at own
  change ∀ g, g ≠ h → ∃ r, ((s.putHart h n.counted).storeLocal h l).hart g = _ at others
  change exec (.hartCanopyStore h) s = finish s ((storeLines l).foldl _ _) at e
  have fab : ((s.putHart h n.counted).storeLocal h l).fab = s.fab := parts .fab (by simp)
  rw [trackOwners_map, trackOwners_map, fab] at track
  rw [fab] at unacked
  generalize (s.putHart h n.counted).storeLocal h l = u at *
  refine completes_frame (l := [.harts, .fab, .mem, .recorder]) e (fun p m => Part.same_trans (parts p (Part.outside m)) (sent p (Part.outside m)))
    fun t hs fr => ?_
  have harts : t.harts = u.harts := (hs .harts).trans (sent .harts (by simp))
  refine ⟨?_, ?_, (hs .mem).trans ((sent .mem (by simp)).trans mem), ?_, fun g ne => ?_, fr⟩
  · rw [(hs .fab : t.fab = _)]
    exact track
  · rw [(hs .fab : t.fab = _)]
    exact unacked
  · rw [State.hart_congr harts, own]
  · obtain ⟨r, other⟩ := others g ne
    rw [State.hart_congr harts, other]

/-! ## Doorbells (R189 to R193) -/

theorem exec_ring {kind a b : Nat} {n : Hart} (ck : s.clocked = true) (unit_ : h < 128) (runs : s.hartRuns h = true)
    (plan : s.plan h = .doorbell a b n) (few : n.db.length < 8) (is : bits 31 28 a = kind) : s.ringDoorbell h kind
      = finish s (s.retired h { n with db := n.db ++ [{ kind := dbKind a b }], ending := bits 31 28 a == 0 } true) := by
  unfold State.ringDoorbell
  rw [only_pos _ (decide_eq_true unit_), plan, ← is]
  exact act_pos _ ck (by simp [runs, few])

theorem completes_ring {a b : Nat} {n : Hart} (ck : s.clocked = true) (unit_ : h < 128) (runs : s.hartRuns h = true)
    (plan : s.plan h = .doorbell a b n) (few : n.db.length < 8)
    (which : bits 31 28 a = 0 ∧ i = .kfxDbStepend h ∨ bits 31 28 a = 1 ∧ i = .kfxDbTcflag h ∨ bits 31 28 a = 2 ∧ i = .kfxDbHart h) :
    Completes i s (fun t =>
      t.hart h = ({ n with db := n.db ++ [{ kind := dbKind a b }], ending := bits 31 28 a == 0 } : Hart).counted
      ∧ OtherHarts h s t ∧ Frame [.harts] s t) := by
  have ring {kind : Nat} (is : bits 31 28 a = kind) := exec_ring ck unit_ runs plan few is
  rcases which with ⟨is, rfl⟩ | ⟨is, rfl⟩ | ⟨is, rfl⟩
  · exact completes_counted (show exec (.kfxDbStepend h) s = _ from ring is)
  · exact completes_counted (show exec (.kfxDbTcflag h) s = _ from ring is)
  · exact completes_counted (show exec (.kfxDbHart h) s = _ from ring is)

theorem exec_doorbellEffect {t : State} (ck : s.clocked = true) (unit_ : h < 128) (st : (s.hart h).st = .running)
    (effect : s.doorbellEffect h = some t) : exec (.doorbellEffect h) s = finish s t := by
  show execDoorbellEffect h s = _
  unfold execDoorbellEffect
  rw [only_pos _ (decide_eq_true unit_), effect]
  exact act_pos _ ck (by rw [st]; rfl)

variable {d : Doorbell} {rest : List Doorbell}

theorem completes_dbTransfer {c e : Nat} {cnt flag : Option Nat} (ck : s.clocked = true) (unit_ : h < 128) (st : (s.hart h).st = .running)
    (db : (s.hart h).db = d :: rest) (waits : d.out = false) (kind : d.kind = .tcflag c cnt flag e) (room : (s.core c).ingress.length < 32) :
    Completes (.doorbellEffect h) s (fun t =>
      (t.core c).ingress = (s.core c).ingress ++ [⟨.hart h, s.epoch, e, 0, [], flag, cnt, 0⟩] ∧ OtherCores c s t
      ∧ t.hart h = { s.hart h with db := { d with out := true } :: rest } ∧ OtherHarts h s t ∧ Frame [.harts, .cores] s t) := by
  have effect : s.doorbellEffect h = some ((s.modCore c (fun k => { k with ingress := k.ingress ++ [s.dbTransfer h cnt flag e] })).putHart h
      { s.hart h with db := { d with out := true } :: rest }) := by
    rw [State.doorbellEffect, db]
    dsimp only
    rw [waits, if_neg (by simp), kind]
    dsimp only
    rw [State.ingress, if_pos room]
    rfl
  have core := modCore_parts s c (fun k => { k with ingress := k.ingress ++ [s.dbTransfer h cnt flag e] })
  refine completes_frame (l := [.harts, .cores]) (exec_doorbellEffect ck unit_ st effect) (fun p m =>
    Part.same_trans (core p (Part.outside m)) (putHart_parts _ h _ p (Part.outside m))) fun t hs fr => ?_
  have cores : t.cores = (s.modCore c (fun k => { k with ingress := k.ingress ++ [s.dbTransfer h cnt flag e] })).cores := hs .cores
  refine ⟨?_, fun x ne => ?_, ?_, fun g ne => ?_, fr⟩
  · rw [State.core_congr cores, State.core_modCore, if_pos rfl]
    rfl
  · rw [State.core_congr cores, State.core_modCore, if_neg ne]
  · rw [State.hart_congr (hs .harts), State.hart_putHart, if_pos rfl]
  · rw [State.hart_congr (hs .harts), State.hart_putHart, if_neg ne]
    rfl

theorem completes_dbHart {k ident : Nat} (ck : s.clocked = true) (unit_ : h < 128) (st : (s.hart h).st = .running)
    (db : (s.hart h).db = d :: rest) (waits : d.out = false) (kind : d.kind = .hart k ident) (ne : k ≠ h)
    (alive : (s.hart k).st = .running ∨ (s.hart k).st = .stopped) : Completes (.doorbellEffect h) s (fun t =>
      t.hart h = { s.hart h with db := rest }
      ∧ t.hart k = { s.hart k with csr := { (s.hart k).csr with eip := (s.hart k).csr.eip ||| (1#256 <<< (ident % 256)) } }
      ∧ (∀ g, g ≠ h → g ≠ k → t.hart g = s.hart g) ∧ Frame [.harts] s t) := by
  have effect : s.doorbellEffect h = some ((s.putHart h { s.hart h with db := rest }).msi k ident) := by
    rw [State.doorbellEffect, db]
    dsimp only
    rw [waits, if_neg (by simp), kind]
  have same : (s.putHart h { s.hart h with db := rest }).hart k = s.hart k := by rw [State.hart_putHart, if_neg ne]
  have up : ¬((s.hart k).st = .off ∨ (s.hart k).st = .halted) := by
    rcases alive with run | stop
    · rw [run]; decide
    · rw [stop]; decide
  refine completes_frame (l := [.harts]) (exec_doorbellEffect ck unit_ st effect) (fun p m => Part.same_trans (putHart_parts s h _ p m)
    (putHart_parts _ k _ p m)) fun t hs fr => ⟨?_, ?_, fun g ng nk => ?_, fr⟩
  · rw [State.hart_congr (hs .harts), State.hart_msi_ne _ _ _ ne.symm, State.hart_putHart, if_pos rfl]
  · rw [State.hart_congr (hs .harts), State.msi, State.hart_modHart, if_pos rfl, same, if_neg up]
  · rw [State.hart_congr (hs .harts), State.hart_msi_ne _ _ _ nk, State.hart_putHart, if_neg ng]

theorem completes_dbStepEnd (ck : s.clocked = true) (unit_ : h < 128) (st : (s.hart h).st = .running)
    (db : (s.hart h).db = d :: rest) (waits : d.out = false) (kind : d.kind = .stepEnd) : Completes (.doorbellEffect h) s (fun t =>
      t.hart h = { s.hart h with db := rest, st := .halted, ended := true } ∧ OtherHarts h s t ∧ Frame [.harts, .snaps] s t) := by
  have effect : s.doorbellEffect h = some ((s.putHart h { s.hart h with db := rest, st := .halted, ended := true }).snapshot .hart h) := by
    rw [State.doorbellEffect, db]
    dsimp only
    rw [waits, if_neg (by simp), kind]
  have snap := snapshot_parts (s.putHart h { s.hart h with db := rest, st := .halted, ended := true }) .hart h
  refine completes_frame (l := [.harts, .snaps]) (exec_doorbellEffect ck unit_ st effect) (fun p m =>
    Part.same_trans (putHart_parts s h _ p (Part.outside m)) (snap p (Part.outside m))) fun t hs fr => ?_
  have harts : t.harts = _ := (hs .harts).trans (snap .harts (by simp))
  refine ⟨?_, fun g ne => ?_, fr⟩
  · rw [State.hart_congr harts, State.hart_putHart, if_pos rfl]
  · rw [State.hart_congr harts, State.hart_putHart, if_neg ne]

/-! ## The canopy fence (R194) -/

theorem completes_cfence {n : Hart} (ck : s.clocked = true) (unit_ : h < 128) (runs : s.hartRuns h = true) (plan : s.plan h = .cfence n)
    (none : nget 0 s.fab.unacked (hartKey h) = 0) : Completes (.kfxCfence h) s (fun t =>
      t.hart h = n.counted ∧ OtherHarts h s t ∧ Frame [.harts] s t) := by
  refine completes_counted ?_
  show execKfxCfence h s = _
  unfold execKfxCfence
  rw [only_pos _ (decide_eq_true unit_), plan]
  exact act_pos _ ck (by rw [runs, none]; rfl)

end

end Sys2Proof.Machine

namespace Sys2Proof

open Machine Rv

/-- Settles O46: a load asks for its lines and completes with them, a store sends each of its lines, and a doorbell waits at its hart until
its effect comes due. -/
theorem hartsReachTheCanopyAndRingDoorbells : Obligations.HartsReachTheCanopyAndRingDoorbells := fun _ _ ck unit_ =>
  ⟨fun _ _ _ _ plan runs touches => ⟨fun fresh lines room => completes_asked ck unit_ runs plan fresh lines room, fun asked come retires => by
      subst retires
      exact completes_loadDone ck unit_ runs plan touches asked come⟩,
    fun _ _ plan runs lines room => completes_canopyStore ck unit_ runs plan lines room,
    fun _ _ _ _ plan runs few which => completes_ring ck unit_ runs plan few which,
    fun _ _ db st waits => ⟨fun _ _ _ _ kind room => completes_dbTransfer ck unit_ st db waits kind room,
      fun _ _ kind ne alive => completes_dbHart ck unit_ st db waits kind ne alive, fun kind => completes_dbStepEnd ck unit_ st db waits kind⟩,
    fun _ plan runs none => completes_cfence ck unit_ runs plan none⟩

end Sys2Proof
end
